-- ==== Sys2Proof/Word.lean ====
section
/-!
DEFINITION. Words, bytes and exact numbers of the C2480 (R1, R2, R83): the types, and their plainest arithmetic.
-/
namespace Sys2Proof

/-- A 64-bit register value (R60). -/
abbrev Word := BitVec 64

/-- One byte of storage. -/
abbrev Byte := BitVec 8

/-- A 512-bit vector register value (R60). -/
abbrev VWord := BitVec 512

/-- An exact number before rounding (R88, R95): a NaN, an infinity, or the value ±`m`·2^`e`.
A finite value keeps its sign when `m` is zero. -/
inductive Exact where
  | nan
  | inf (neg : Bool)
  | fin (neg : Bool) (m : Nat) (e : Int)
  deriving DecidableEq, Repr

end Sys2Proof
end

