-- ==== Sys2Proof/Syntax.lean ====
section
/-!
DEFINITION. The instruction set: one constructor per row of spec/opcode_table.json.
The first 227 are the encoded instructions (R167 to R175); their fields are the encoding's fields.
The other 138 are the machine's own steps (spec/95_what_each_step_holds.md): they have no encoding, and a
constructor's arguments say which agent takes the step and what it works on.
The structures before `Instr` are what those steps carry from one agent to another.
-/
namespace Sys2Proof

/-- A capability as a value: cursor, descriptor, tag (R63). -/
structure CapVal where
  val : Word
  desc : Word
  tag : Bool
  deriving DecidableEq, Repr

/-- An active message (R17), with what its head flit and its NI keep with it. Cores are numbered
((module·24 + site)·32 + row)·32 + col. -/
structure Message where
  /-- MSGID layout of R214. -/
  id : Word
  /-- Source core (SRC 0), or the source site times 1,024 for other kinds of source. -/
  src : Nat
  /-- Target core, as resolved (R19). -/
  dst : Nat
  handler : Nat
  cls : Nat
  a1 : Word
  a2 : Word
  a3 : Word
  a4 : Word
  cap : CapVal
  payload : List Byte
  /-- Target grid and team index; none for an absolute message (R20). -/
  team : Option (Nat × Nat)
  /-- Team coordinates of the target, for a message with a team (R52). -/
  pos : Nat × Nat
  /-- Sent with SENDO (R27). -/
  ordered : Bool
  /-- Sent with SENDR: the target does a remote-copy invalidation first (R137). -/
  release : Bool
  /-- Retry count k of R41. -/
  retry : Nat
  /-- Timed retransmissions made so far (R26). -/
  timed : Nat
  /-- Made from an orphan reply (R31). -/
  orphan : Bool
  /-- The grid whose outstanding-work count holds this message (R55). -/
  counted : Option Nat
  deriving DecidableEq, Repr

/-- The reply kinds of R31, and `fill`, the answer to a load from memory at another site (R104), which is no reply of R30. -/
inductive ReplyKind where
  | load | get | amo | flushrd | grant | sc | vload | tload | fill
  deriving DecidableEq, Repr

/-- A reply on its way to the context that asked (R30, R31). `op` numbers the request in its context. -/
structure Reply where
  core : Nat
  ctx : Nat
  gen : Nat
  op : Nat
  kind : ReplyKind
  dest : Nat
  val : Word
  desc : Word
  tag : Bool
  bytes : List Byte
  deriving DecidableEq, Repr

/-- An atomic operation on its way to its home (R225, R226, R231).
`op` is the AMO code of R172, or 16 + the XRED operation of R231 for a 32-bit one. -/
structure AmoReq where
  core : Nat
  /-- Storage address. -/
  addr : Nat
  op : Nat
  opnd : Word
  cmp : Word
  comm : Bool
  /-- Intent stat (R141). -/
  stat : Bool
  /-- Scope code of its order qualifier, 0 without one (R142). -/
  scope : Nat
  /-- (context, generation, request number, destination) of an AMO with return. -/
  ret : Option (Nat × Nat × Nat × Nat)
  /-- Operations of `core` without return that it performs, by context and number (R130, R142). -/
  acks : List (Nat × Nat)
  deriving DecidableEq, Repr

/-- What a hod request does (R254 to R257). -/
inductive HodKind where
  | copy | fill | gatherSum | gatherMean | scatter
  deriving DecidableEq, Repr

/-- A hod request (R253). Addresses are virtual addresses of partition `part`. -/
structure HodReq where
  kind : HodKind
  core : Nat
  part : Nat
  sup : Bool
  dst : Nat
  src : Nat
  len : Nat
  pattern : Word
  /-- Granule tags are kept where R224 allows: source LDC and destination STC. -/
  tags : Bool
  /-- Destination range inside the sender's team regions (R224). -/
  inTeam : Bool
  table : Nat
  tableBase : Nat
  tableTop : Nat
  etype : Nat
  rlen : Nat
  idxs : List (BitVec 32)
  weights : List (BitVec 32)
  /-- Valid and invalid positions of the bag (R253). -/
  valid : Nat
  dropped : Nat
  /-- The completion message, without its g1 (R253). -/
  comp : Message
  /-- COPY node that issued it: site and node handle (R366). -/
  node : Option (Nat × Nat)
  /-- Site and slice of the hod that runs it, once sent to one (R253). -/
  hod : Option (Nat × Nat)
  deriving DecidableEq, Repr

/-- A gather or scatter under way: work by owner hod, and partial rows (R256, R257). -/
structure BagState where
  req : HodReq
  /-- Owners in ascending order with their (position, index, exact weight). -/
  owners : List (Nat × List (Nat × Nat × Exact))
  /-- The partial rows that have come back, by owner. -/
  partials : List (Nat × List (BitVec 32))
  /-- What the owner of a part has pooled of its rows (R256). -/
  pool : Option (List (BitVec 32)) := none
  /-- Its number among the bags that its core's NI has split. -/
  no : Nat := 0
  /-- STATUS of the completion so far (R253). -/
  status : Nat := 0
  deriving DecidableEq, Repr

/-- A mailbox post on its way (R262). -/
structure MailPost where
  core : Nat
  ctx : Nat
  /-- Its number among the operations of its context. -/
  op : Nat
  counted : Bool
  dst : Nat
  /-- Target grid and team index, none for an absolute post, and the target's team coordinates (R20, R262). -/
  team : Option (Nat × Nat)
  pos : Nat × Nat
  inst : Nat
  key : BitVec 32
  tie : BitVec 32
  value : Word
  /-- The notice message, without its contents. -/
  notice : Message
  garg : Word
  deriving DecidableEq, Repr

/-- A barrier arrival on its way to its block (R266). -/
structure Arrival where
  /-- Name word of the block (R264). -/
  blk : Word
  core : Nat
  ctx : Nat
  gen : Nat
  /-- Number of the BARR among its context's operations. -/
  op : Nat
  /-- The continuation message asked for, without its g1 (R266). -/
  cont : Option Message
  deriving DecidableEq, Repr

/-- The arrays of a network interface beside its queue and its sync store (R404, R408, R413). -/
inductive NiArray where
  | refusal | room | retry | send | combine | pallet | mailbox | window
  deriving DecidableEq, Repr

/-- A unit that holds data an error can hit (R404, R406): a DRAM line, a line of L2 or of a cluster cache, and so on. An entry
of another NI array is named by its place in the array, counted over the array's parts. -/
inductive ErrUnit where
  | line (storage : Nat)
  | l2 (storage : Nat)
  | scratch (storage : Nat)
  | slot (storage : Nat)
  | sync (core idx : Nat)
  | queue (core : Nat) (id : Word)
  | ni (core : Nat) (arr : NiArray) (idx : Nat)
  | regfile (core : Nat)
  | heldB (core : Nat)
  | fpstat (core : Nat)
  | specLine (core : Nat)
  | l1i (core storage : Nat)
  | l1d (core storage : Nat)
  | cluster (core storage : Nat)
  | directory (storage : Nat)
  deriving DecidableEq, Repr

/-- The features of a CXL port that are negotiated at link-up (R415). -/
inductive PortFeature where
  | standardFlit | latencyFlit | laneReversal | cxlIo | cxlCache | cxlMem | hdmDb | backInvalidate | switches | ide | spdm | msix
  deriving DecidableEq, Repr

/-- What a flit that a REROUTE speaks of was part of (R324): a request or message, an answer, or another control flit. -/
inductive LostKind where
  | request | answer | control
  deriving DecidableEq, Repr

/-- The item that a REROUTE speaks of (R324). -/
structure LostItem where
  seq : Nat
  kind : LostKind
  deriving DecidableEq, Repr

/-- A CXL port of a module (R414). -/
structure PortId where
  mod : Nat
  port : Nat
  deriving DecidableEq, Repr

/-- A token offered to Uboskir (R435): what it covers, the LMS public key, and its signature. -/
structure Token where
  identity : Word
  nonce : Word
  action : Nat
  pubKey : List Byte
  sig : List Byte
  deriving DecidableEq, Repr

/-- A signed image (R432): its bytes and version, the LMS public key and the signature, and whether it asks for FWVER to be
raised. -/
structure SignedImage where
  data : List Byte
  version : Nat
  pubKey : List Byte
  sig : List Byte
  raise : Bool
  deriving DecidableEq, Repr, Inhabited

/-- Sensor readings of one site (R438). -/
structure Sensors where
  power : Nat
  tdram : Nat
  tbase : Nat
  tcomp : Nat
  deriving DecidableEq, Repr

/-- How an access uses its page (ACCESS codes of R388). -/
inductive Access where
  | read | write | amo | fetch | walker
  deriving DecidableEq, Repr

/-- Who holds or asks for a translation (R388): a context of a core, the NI that sends a context's committed PUT, a hod
request, a bag's part at its owner, or a sequencer node. -/
inductive Agent where
  | ctx (core ctx : Nat)
  | ni (core ctx : Nat)
  | hod (req : HodReq)
  | bag (part : BagState)
  | node (site handle : Nat)
  deriving DecidableEq, Repr

/-- The instructions and steps of the C2480. -/
inductive Instr where
  /-- ADD (R189). -/
  | add (d a b : BitVec 6)
  /-- SUB (R189). -/
  | sub (d a b : BitVec 6)
  /-- AND (R189). -/
  | and (d a b : BitVec 6)
  /-- OR (R189). -/
  | or (d a b : BitVec 6)
  /-- XOR (R189). -/
  | xor (d a b : BitVec 6)
  /-- ANDN (R189). -/
  | andn (d a b : BitVec 6)
  /-- SLL (R189). -/
  | sll (d a b : BitVec 6)
  /-- SRL (R189). -/
  | srl (d a b : BitVec 6)
  /-- SRA (R189). -/
  | sra (d a b : BitVec 6)
  /-- ROR (R189). -/
  | ror (d a b : BitVec 6)
  /-- MIN (R189). -/
  | min (d a b : BitVec 6)
  /-- MAX (R189). -/
  | max (d a b : BitVec 6)
  /-- MINU (R189). -/
  | minu (d a b : BitVec 6)
  /-- MAXU (R189). -/
  | maxu (d a b : BitVec 6)
  /-- SEQ (R189). -/
  | seq (d a b : BitVec 6)
  /-- SNE (R189). -/
  | sne (d a b : BitVec 6)
  /-- SLT (R189). -/
  | slt (d a b : BitVec 6)
  /-- SLTU (R189). -/
  | sltu (d a b : BitVec 6)
  /-- CLZ (R189). -/
  | clz (d a : BitVec 6)
  /-- CTZ (R189). -/
  | ctz (d a : BitVec 6)
  /-- POPC (R189). -/
  | popc (d a : BitVec 6)
  /-- BSWAP (R189). -/
  | bswap (d a : BitVec 6)
  /-- ADDI (R190). -/
  | addi (d a : BitVec 6) (i : BitVec 14)
  /-- ANDI (R190). -/
  | andi (d a : BitVec 6) (i : BitVec 14)
  /-- ORI (R190). -/
  | ori (d a : BitVec 6) (i : BitVec 14)
  /-- XORI (R190). -/
  | xori (d a : BitVec 6) (i : BitVec 14)
  /-- SLLI (R190). -/
  | slli (d a n : BitVec 6)
  /-- SRLI (R190). -/
  | srli (d a n : BitVec 6)
  /-- SRAI (R190). -/
  | srai (d a n : BitVec 6)
  /-- SLTI (R190). -/
  | slti (d a : BitVec 6) (i : BitVec 13)
  /-- SLTUI (R190). -/
  | sltui (d a : BitVec 6) (i : BitVec 13)
  /-- MUL (R191). -/
  | mul (d a b : BitVec 6)
  /-- MULH (R191). -/
  | mulh (d a b : BitVec 6)
  /-- MULHU (R191). -/
  | mulhu (d a b : BitVec 6)
  /-- DIV (R191). -/
  | div (d a b : BitVec 6)
  /-- DIVU (R191). -/
  | divu (d a b : BitVec 6)
  /-- REM (R191). -/
  | rem (d a b : BitVec 6)
  /-- REMU (R191). -/
  | remu (d a b : BitVec 6)
  /-- CBOUND (R194). -/
  | cbound (d a b : BitVec 6)
  /-- CPERM (R195). -/
  | cperm (d a b : BitVec 6)
  /-- CSEAL (R196). -/
  | cseal (d a b : BitVec 6)
  /-- CUNSEAL (R197). -/
  | cunseal (d a b : BitVec 6)
  /-- CINC (R193). -/
  | cinc (d a b : BitVec 6)
  /-- CBASE (R198). -/
  | cbase (d a : BitVec 6)
  /-- CLEN (R198). -/
  | clen (d a : BitVec 6)
  /-- CGPERM (R198). -/
  | cgperm (d a : BitVec 6)
  /-- CTAG (R198). -/
  | ctag (d a : BitVec 6)
  /-- CCLR (R198). -/
  | cclr (d a : BitVec 6)
  /-- CSUB (R199). -/
  | csub (d a b : BitVec 6)
  /-- CINCI (R193). -/
  | cinci (d a : BitVec 6) (i : BitVec 13)
  /-- CBOUNDI (R194). -/
  | cboundi (d a : BitVec 6) (i : BitVec 13)
  /-- TGET (R201). -/
  | tget (d a : BitVec 6)
  /-- TMRG (R202). -/
  | tmrg (d a : BitVec 6)
  /-- TCLR (R203). -/
  | tclr (d : BitVec 6)
  /-- TWAIT (R204). -/
  | twait (a : BitVec 6)
  /-- LDL_D (R182). -/
  | ldlD (d : BitVec 6) (i : BitVec 19)
  /-- LDL_W (R182). -/
  | ldlW (d : BitVec 6) (i : BitVec 19)
  /-- JAL (R206). -/
  | jal (d : BitVec 6) (i : BitVec 20)
  /-- JALR (R207). -/
  | jalr (d a : BitVec 6) (i : BitVec 14)
  /-- BEQ (R205). -/
  | beq (a b : BitVec 6) (i : BitVec 14)
  /-- BNE (R205). -/
  | bne (a b : BitVec 6) (i : BitVec 14)
  /-- BLT (R205). -/
  | blt (a b : BitVec 6) (i : BitVec 14)
  /-- BGE (R205). -/
  | bge (a b : BitVec 6) (i : BitVec 14)
  /-- BLTU (R205). -/
  | bltu (a b : BitVec 6) (i : BitVec 14)
  /-- BGEU (R205). -/
  | bgeu (a b : BitVec 6) (i : BitVec 14)
  /-- REP (R178). -/
  | rep (c : BitVec 6) (l d a b : BitVec 4)
  /-- END (R209). -/
  | endTask
  /-- RELEASE (R210). -/
  | release
  /-- LD_B (R219). -/
  | ldB (t b : BitVec 6) (i : BitVec 10)
  /-- LD_BU (R219). -/
  | ldBu (t b : BitVec 6) (i : BitVec 10)
  /-- LD_H (R219). -/
  | ldH (t b : BitVec 6) (i : BitVec 10)
  /-- LD_HU (R219). -/
  | ldHu (t b : BitVec 6) (i : BitVec 10)
  /-- LD_W (R219). -/
  | ldW (t b : BitVec 6) (i : BitVec 10)
  /-- LD_WU (R219). -/
  | ldWu (t b : BitVec 6) (i : BitVec 10)
  /-- LD_D (R219). -/
  | ldD (t b : BitVec 6) (i : BitVec 10)
  /-- ST_B (R219). -/
  | stB (t b : BitVec 6) (i : BitVec 10)
  /-- ST_H (R219). -/
  | stH (t b : BitVec 6) (i : BitVec 10)
  /-- ST_W (R219). -/
  | stW (t b : BitVec 6) (i : BitVec 10)
  /-- ST_D (R219). -/
  | stD (t b : BitVec 6) (i : BitVec 10)
  /-- LDC (R219). -/
  | ldc (t b : BitVec 6) (i : BitVec 10)
  /-- STC (R219). -/
  | stc (t b : BitVec 6) (i : BitVec 10)
  /-- LDA (R220). -/
  | lda (t b : BitVec 6) (s : BitVec 3) (z : BitVec 2) (x : BitVec 1)
  /-- STL (R220). -/
  | stl (t b : BitVec 6) (s : BitVec 3) (z : BitVec 2)
  /-- FENCE (R135). -/
  | fence (s : BitVec 3)
  /-- FENCE_SS (R135). -/
  | fenceSs (s : BitVec 3)
  /-- PREF (R221). -/
  | pref (a : BitVec 6)
  /-- CFLUSH (R221). -/
  | cflush (a : BitVec 6)
  /-- CINV (R221). -/
  | cinv (a : BitVec 6)
  /-- CZERO (R221). -/
  | czero (a : BitVec 6)
  /-- AADD (R225). -/
  | aadd (d a b : BitVec 6) (v : BitVec 4)
  /-- AAND (R225). -/
  | aand (d a b : BitVec 6) (v : BitVec 4)
  /-- AOR (R225). -/
  | aor (d a b : BitVec 6) (v : BitVec 4)
  /-- AXOR (R225). -/
  | axor (d a b : BitVec 6) (v : BitVec 4)
  /-- AMIN (R225). -/
  | amin (d a b : BitVec 6) (v : BitVec 4)
  /-- AMAX (R225). -/
  | amax (d a b : BitVec 6) (v : BitVec 4)
  /-- AMINU (R225). -/
  | aminu (d a b : BitVec 6) (v : BitVec 4)
  /-- AMAXU (R225). -/
  | amaxu (d a b : BitVec 6) (v : BitVec 4)
  /-- ASWAP (R225). -/
  | aswap (d a b : BitVec 6) (v : BitVec 4)
  /-- ACAS (R225). -/
  | acas (d a b : BitVec 6) (v : BitVec 4)
  /-- AFADD (R225). -/
  | afadd (d a b : BitVec 6) (v : BitVec 4)
  /-- LRW (R228). -/
  | lrw (d a : BitVec 6)
  /-- SC (R229). -/
  | sc (d a b : BitVec 6)
  /-- XBEGIN (R146). -/
  | xbegin (d : BitVec 6)
  /-- XEND (R161). -/
  | xend
  /-- XABORT (R149). -/
  | xabort (k : BitVec 8)
  /-- XTEST (R230). -/
  | xtest (d : BitVec 6)
  /-- XRED_ADD (R231). -/
  | xredAdd (a b : BitVec 6) (w : BitVec 1)
  /-- XRED_FADD (R231). -/
  | xredFadd (a b : BitVec 6) (w : BitVec 1)
  /-- XRED_MIN (R231). -/
  | xredMin (a b : BitVec 6) (w : BitVec 1)
  /-- XRED_MAX (R231). -/
  | xredMax (a b : BitVec 6) (w : BitVec 1)
  /-- SBIND (R236). -/
  | sbind (k n : BitVec 6)
  /-- SBINDR (R237). -/
  | sbindr (k n r : BitVec 6)
  /-- SFIFO_CONS (R238). -/
  | sfifoCons (k n : BitVec 6)
  /-- SFIFO_PROD (R238). -/
  | sfifoProd (k n : BitVec 6)
  /-- SUNBIND (R232). -/
  | sunbind (k : BitVec 6)
  /-- SADV (R240). -/
  | sadv (k : BitVec 6)
  /-- SSTAT (R241). -/
  | sstat (d k : BitVec 6)
  /-- BMOV (R223). -/
  | bmov (d s n : BitVec 6)
  /-- BFILL (R223). -/
  | bfill (d p n : BitVec 6)
  /-- SEND (R245). -/
  | send (n s p : BitVec 6)
  /-- SENDO (R245). -/
  | sendo (n s p : BitVec 6)
  /-- SENDR (R245). -/
  | sendr (n s p : BitVec 6)
  /-- PUT (R246). -/
  | put (d s n : BitVec 6)
  /-- GET (R247). -/
  | get (d a : BitVec 6)
  /-- FLUSHRD (R248). -/
  | flushrd (d a : BitVec 6)
  /-- WAITM (R249). -/
  | waitm (d a : BitVec 6)
  /-- RECVM (R250). -/
  | recvm (d a b : BitVec 6)
  /-- PEEKM (R250). -/
  | peekm (d a : BitVec 6)
  /-- PMCFG (R261). -/
  | pmcfg (d a b : BitVec 6)
  /-- PMPOST (R262). -/
  | pmpost (a : BitVec 6)
  /-- PMDRAIN (R263). -/
  | pmdrain (d a b : BitVec 6)
  /-- HCOPY (R254). -/
  | hcopy (d a : BitVec 6)
  /-- HFILL (R254). -/
  | hfill (d a b : BitVec 6)
  /-- HGATH_SUM (R256). -/
  | hgathSum (d a b : BitVec 6)
  /-- HGATH_MEAN (R256). -/
  | hgathMean (d a b : BitVec 6)
  /-- HSCAT (R257). -/
  | hscat (d a b : BitVec 6)
  /-- DPUSH (R258). -/
  | dpush (d a b : BitVec 6)
  /-- DPOP (R258). -/
  | dpop (d a : BitVec 6)
  /-- DSPLIT (R258). -/
  | dsplit (d a : BitVec 6)
  /-- DSTEAL_CLUSTER (R259). -/
  | dstealCluster (d : BitVec 6)
  /-- DSTEAL_SITE (R259). -/
  | dstealSite (d : BitVec 6)
  /-- DSTEAL_GRID (R259). -/
  | dstealGrid (d : BitVec 6)
  /-- DCOUNT (R258). -/
  | dcount (d : BitVec 6)
  /-- MPATH (R260). -/
  | mpath (d a b : BitVec 6)
  /-- GJOIN (R268). -/
  | gjoin (d a : BitVec 6)
  /-- GLEAVE (R268). -/
  | gleave (d a : BitVec 6)
  /-- BINIT (R265). -/
  | binit (d a b : BitVec 6)
  /-- BARR (R266). -/
  | barr (a b : BitVec 6)
  /-- BWAIT (R267). -/
  | bwait (d : BitVec 6)
  /-- BSTAT (R270). -/
  | bstat (d a : BitVec 6)
  /-- PLREAD (R271). -/
  | plread (d a b : BitVec 6)
  /-- PLCFG (R271). -/
  | plcfg (d a b : BitVec 6)
  /-- GNODE (R273). -/
  | gnode (d a : BitVec 6)
  /-- GDEC (R273). -/
  | gdec (d a : BitVec 6)
  /-- VLD (R281). -/
  | vld (d a : BitVec 6) (m : BitVec 3) (w : BitVec 2)
  /-- VST (R281). -/
  | vst (d a : BitVec 6) (m : BitVec 3) (w : BitVec 2)
  /-- VLDS (R281). -/
  | vlds (d a b : BitVec 6) (m : BitVec 3) (w : BitVec 2)
  /-- VSTS (R281). -/
  | vsts (d a b : BitVec 6) (m : BitVec 3) (w : BitVec 2)
  /-- VGATH (R281). -/
  | vgath (d a b : BitVec 6) (m : BitVec 3) (w : BitVec 2)
  /-- VSCAT (R281). -/
  | vscat (d a b : BitVec 6) (m : BitVec 3) (w : BitVec 2)
  /-- VLDBC (R281). -/
  | vldbc (d a : BitVec 6) (m : BitVec 3) (w : BitVec 2)
  /-- VADD (R283). -/
  | vadd (d a b : BitVec 6) (m : BitVec 3) (w : BitVec 2)
  /-- VSUB (R283). -/
  | vsub (d a b : BitVec 6) (m : BitVec 3) (w : BitVec 2)
  /-- VMUL (R283). -/
  | vmul (d a b : BitVec 6) (m : BitVec 3) (w : BitVec 2)
  /-- VMULH (R283). -/
  | vmulh (d a b : BitVec 6) (m : BitVec 3) (w : BitVec 2)
  /-- VSHL (R283). -/
  | vshl (d a b : BitVec 6) (m : BitVec 3) (w : BitVec 2)
  /-- VSHR (R283). -/
  | vshr (d a b : BitVec 6) (m : BitVec 3) (w : BitVec 2)
  /-- VSRA (R283). -/
  | vsra (d a b : BitVec 6) (m : BitVec 3) (w : BitVec 2)
  /-- VAND (R283). -/
  | vand (d a b : BitVec 6) (m : BitVec 3)
  /-- VOR (R283). -/
  | vor (d a b : BitVec 6) (m : BitVec 3)
  /-- VXOR (R283). -/
  | vxor (d a b : BitVec 6) (m : BitVec 3)
  /-- VFADD (R284). -/
  | vfadd (d a b : BitVec 6) (m : BitVec 3) (t : BitVec 2)
  /-- VFSUB (R284). -/
  | vfsub (d a b : BitVec 6) (m : BitVec 3) (t : BitVec 2)
  /-- VFMUL (R284). -/
  | vfmul (d a b : BitVec 6) (m : BitVec 3) (t : BitVec 2)
  /-- VFMA (R284). -/
  | vfma (d a b : BitVec 6) (m : BitVec 3) (t : BitVec 2)
  /-- VFDIV (R284). -/
  | vfdiv (d a b : BitVec 6) (m : BitVec 3) (t : BitVec 2)
  /-- VFSQRT (R284). -/
  | vfsqrt (d a : BitVec 6) (m : BitVec 3) (t : BitVec 2)
  /-- VFMIN (R284). -/
  | vfmin (d a b : BitVec 6) (m : BitVec 3) (t : BitVec 2)
  /-- VFMAX (R284). -/
  | vfmax (d a b : BitVec 6) (m : BitVec 3) (t : BitVec 2)
  /-- VCVT (R287). -/
  | vcvt (d a : BitVec 6) (k : BitVec 2) (s : BitVec 4) (m : BitVec 3) (x : BitVec 1) (t : BitVec 4)
  /-- VSHUF (R289). -/
  | vshuf (d a b : BitVec 6) (m : BitVec 3) (w : BitVec 2)
  /-- VBCAST (R289). -/
  | vbcast (d a : BitVec 6) (m : BitVec 3) (w : BitVec 2)
  /-- VEXTR (R289). -/
  | vextr (d a b : BitVec 6) (w : BitVec 2)
  /-- VINS (R289). -/
  | vins (d a b : BitVec 6) (m : BitVec 3) (w : BitVec 2)
  /-- VSLIDE (R289). -/
  | vslide (d a b : BitVec 6) (m : BitVec 3) (w : BitVec 2)
  /-- VRED (R290). -/
  | vred (d a : BitVec 6) (o : BitVec 2) (t : BitVec 4) (m : BitVec 3)
  /-- VSCAN (R290). -/
  | vscan (d a : BitVec 6) (o : BitVec 2) (t : BitVec 4) (m : BitVec 3)
  /-- MAND (R291). -/
  | mand (d a b : BitVec 6)
  /-- MOR (R291). -/
  | mor (d a b : BitVec 6)
  /-- MXOR (R291). -/
  | mxor (d a b : BitVec 6)
  /-- MNOT (R291). -/
  | mnot (d a : BitVec 6)
  /-- MPOPC (R291). -/
  | mpopc (d a : BitVec 6)
  /-- MFIRST (R291). -/
  | mfirst (d a : BitVec 6)
  /-- VCMP (R285). -/
  | vcmp (c d : BitVec 3) (a b : BitVec 6) (m t : BitVec 3)
  /-- VSEL (R286). -/
  | vsel (d a b : BitVec 6) (m : BitVec 3) (w : BitVec 2)
  /-- VMIN (R283). -/
  | vmin (d a b : BitVec 6) (m : BitVec 3) (w : BitVec 2)
  /-- VMAX (R283). -/
  | vmax (d a b : BitVec 6) (m : BitVec 3) (w : BitVec 2)
  /-- MDOT (R304). -/
  | mdot (d : BitVec 3) (a b : BitVec 6) (f : BitVec 4) (r : BitVec 3) (x y z : BitVec 1)
  /-- MOPEN (R298). -/
  | mopen (d : BitVec 3) (g : BitVec 6) (r : BitVec 3)
  /-- MCLOSE (R299). -/
  | mclose (d : BitVec 3)
  /-- MZERO (R300). -/
  | mzero (d : BitVec 3)
  /-- MUPROG (R311). -/
  | muprog (g : BitVec 6)
  /-- MRUN (R312). -/
  | mrun (d : BitVec 3) (a b : BitVec 6)
  /-- MRD (R308). -/
  | mrd (d : BitVec 3) (p g : BitVec 6)
  /-- MWR (R308). -/
  | mwr (d : BitVec 3) (p g : BitVec 6)
  /-- MLD (R307). -/
  | mld (d : BitVec 3) (c p : BitVec 6)
  /-- MST (R307). -/
  | mst (d : BitVec 3) (c p : BitVec 6)
  /-- MSUMR (R310). -/
  | msumr (d : BitVec 3) (v : BitVec 5) (r : BitVec 3)
  /-- MSUMC (R310). -/
  | msumc (d : BitVec 3) (v : BitVec 5) (r : BitVec 3)
  /-- MMOV (R309). -/
  | mmov (d s : BitVec 3)
  /-- CSRR (R211). -/
  | csrr (d : BitVec 6) (c : BitVec 12)
  /-- CSRW (R211). -/
  | csrw (s : BitVec 6) (c : BitVec 12)
  /-- SEALROOT (R356). -/
  | sealroot (d a b : BitVec 6)
  /-- TLBINV_PAGE (R392). -/
  | tlbinvPage (d a b : BitVec 6)
  /-- TLBINV_ALL (R392). -/
  | tlbinvAll (d a b : BitVec 6)
  /-- TLBINV_STRIPE (R393). -/
  | tlbinvStripe (d a b : BitVec 6)
  /-- ROWMOVE (R396). -/
  | rowmove (d a b : BitVec 6)
  /-- REGREL (R391). -/
  | regrel (d a : BitVec 6)
  /-- BANKCFG (R357). -/
  | bankcfg (d a b : BitVec 6)
  /-- FREEZE (R358). -/
  | freeze (d a b : BitVec 6)
  /-- THAW (R358). -/
  | thaw (d a b : BitVec 6)
  /-- PREEMPT (R44). -/
  | preempt (d a b : BitVec 6)
  /-- KILL (R57). -/
  | kill (d a b : BitVec 6)
  /-- ERRINJ (R359). -/
  | errinj (d a b : BitVec 6)
  /-- TRAP (R402). -/
  | trap (k : BitVec 12)
  /-- BKPT (R402). -/
  | bkpt
  /-- IDLE (R402). -/
  | idle
  /-- SRSEED_WRITE (R90): A write to SRSEED sets the generator state, storing 1 for zero. -/
  | srseedWrite (v : Word)
  /-- FLTDONE_RETRY (R389): Ends a translation fault so every waiter re-executes with a new walk. -/
  | fltdoneRetry (handle : Nat)
  /-- FLTDONE_FAIL (R389): Ends a translation fault so every waiter takes CAP or stops with UNMAPPED. -/
  | fltdoneFail (handle : Nat)
  /-- MCCNT_READ (R405): Reads the machine-check counters and clears them. -/
  | mccntRead (d : BitVec 6)
  /-- CSR_SPREAD (R360): A partition-wide CSR update arrives at a core within 4,096 cycles. -/
  | csrSpread (core csr : Nat) (v : Word)
  /-- REGISTER_WRITE (R5): A write to a register with no row of its own, by its field access codes. -/
  | registerWrite (mod port off : Nat) (v : Word)
  /-- MESSAGE_ACCEPT (R24): A message arriving at an NI is accepted, refused, forwarded, dropped in a mail drop or discarded. -/
  | messageAccept (m : Message)
  /-- REFUSE (R25): A refusal returns to the sender, which keeps the message in its retry buffer. -/
  | refuse (m : Message) (nolist chain : Bool)
  /-- ROOM_NOTICE (R25): A room notice reaches the sender, which retransmits the listed message. -/
  | roomNotice (core target : Nat) (id : Word)
  /-- ROOM_RESERVATION_LAPSE (R25): An entry reserved by a room notice lapses after 2,048 cycles. -/
  | roomReservationLapse (core : Nat) (id : Word)
  /-- TIMED_RETRY (R26): A NOLIST message is retransmitted after its backoff. -/
  | timedRetry (core : Nat) (id : Word)
  /-- CHAIN_ACK (R27): Acknowledgement of a refused SENDO message lets the sender retransmit its held successors. -/
  | chainAck (core target : Nat)
  /-- DISPATCH (R29): A free context takes the oldest message of the highest class and starts a task. -/
  | dispatch (core : Nat)
  /-- PROMOTION (R378): A queued message waiting 2^16 cycles moves up one class. -/
  | promotion (core : Nat) (id : Word)
  /-- REPLY_DEPOSIT (R31): An arriving reply is deposited into its context or becomes an orphan. -/
  | replyDeposit (r : Reply)
  /-- BUDGET (R43): A task whose count exceeds its budget takes BUDGET at the next boundary. -/
  | budget (core ctx : Nat)
  /-- PARK_RESUME (R33): A parked context resumes when its wait is satisfied. -/
  | parkResume (core ctx : Nat)
  /-- IDLE_WAKE (R402): An IDLE stall ends on its first waking event or after 256 cycles. -/
  | idleWake (core ctx : Nat)
  /-- NI_TRANSMIT (R130): The NI transmits a committed send-buffer entry when the counter has room. -/
  | niTransmit (core ctx : Nat)
  /-- STORE_ACK (R130): An acknowledgement lowers the store-acknowledge counter. -/
  | storeAck (core ctx : Nat)
  /-- FLUSH_RETURN (R134): A zero-length FLUSHRD returns and clears the module's written-peers bit. -/
  | flushReturn (core ctx mod : Nat)
  /-- COMBINE_SEND (R142): A combine-buffer entry is sent 64 cycles after its first constituent. -/
  | combineSend (core idx : Nat)
  /-- REMOTE_COPY_EXPIRY (R126): A remote copy is invalidated 4,096 cycles after its fill. -/
  | remoteCopyExpiry (core line : Nat)
  /-- STORE_PERFORM (R123): A home makes a write the latest of its bytes and invalidates older copies. -/
  | storePerform (core ctx op : Nat)
  /-- REMOTE_REGION_ACCESS (R218): The owning NI serves a load or store to its core's share. -/
  | remoteRegionAccess (core ctx op : Nat)
  /-- HOME_AMO (R226): The hod of the home slice applies an AMO indivisibly. -/
  | homeAmo (req : AmoReq)
  /-- NI_ATOMIC (R251): An NI applies an AMO, counter increment, steal, post or sync operation in source-sequence order. -/
  | niAtomic (owner : Nat) (req : AmoReq) (seq : Option Nat)
  /-- PUT_INCREMENT (R139): The counter of a PUT is incremented once all its data bytes are performed. -/
  | putIncrement (core ctx op : Nat) (req : AmoReq)
  /-- FORWARD_DONE (R252): The forward-done note ends the new owner's holding of direct requests. -/
  | forwardDone (hod : Nat) (highest : List (Nat × Nat))
  /-- TX_ARBITRATION (R156): A transactional request is recorded or settled by ticket age at the tile directory. -/
  | txArbitration (core ctx tile : Nat) (write : Bool)
  /-- ABORT_NOTICE (R157): An abort notice reaches the core and aborts its transaction. -/
  | abortNotice (core ctx code : Nat)
  /-- TX_LOCK (R161): A home locks a committing transaction's written tiles or refuses. -/
  | txLock (core ctx home : Nat)
  /-- TX_INSTALL (R161): At the commit point each home installs the speculative copies and bumps stamps. -/
  | txInstall (core ctx : Nat)
  /-- VERSIONED_EVICTION (R154): A speculative line evicted from L1 goes to versioned ways or causes a capacity abort. -/
  | versionedEviction (core ctx tile : Nat)
  /-- TICKET_BEACON (R155): Every 65,536 cycles a directory sends its counter to the other sites. -/
  | ticketBeacon (site : Nat)
  /-- TICKET_ADVANCE (R155): A directory receiving a later counter value advances its own. -/
  | ticketAdvance (site counter : Nat)
  /-- ROW_READ (R163): A hod reads a row with stamp samples, rereading and holding as needed. -/
  | rowRead (hod : Nat) (tiles : List Nat)
  /-- LRW_ENQUEUE (R228): A reservation request reaches the word's hod and is granted or queued. -/
  | lrwEnqueue (core ctx op : Nat)
  /-- SC_HOME (R229): The hod performs an SC: stores and passes the reservation or fails. -/
  | scHome (core ctx op : Nat)
  /-- LEASE_EXPIRY (R229): A reservation lease ends after 4,096 cycles and passes to the next waiter. -/
  | leaseExpiry (addr : Nat)
  /-- BANK_DRAIN_DONE (R110): A draining bank's last write-back is acknowledged and it starts zeroing. -/
  | bankDrainDone (bank : Nat)
  /-- BANK_ZERO_DONE (R110): After 1,024 cycles of zeroing the target mode is installed. -/
  | bankZeroDone (bank : Nat)
  /-- HOD_REQUEST (R253): A hod starts a copy, fill, gather or scatter request. -/
  | hodRequest (req : HodReq)
  /-- HOD_COMPLETION (R253): A finished hod request sends its completion as a SENDR. -/
  | hodCompletion (req : HodReq) (word : Word)
  /-- HGATH_OWNER (R256): An owner hod reads its rows and forms a partial pooled row. -/
  | hgathOwner (bag : BagState)
  /-- HGATH_COMBINE (R256): The requester combines owner partials in owner order and writes the row. -/
  | hgathCombine (bag : BagState)
  /-- HSCAT_OWNER (R257): An owner hod applies its scatter positions to table rows in bag order. -/
  | hscatOwner (bag : BagState)
  /-- STEAL_REQUEST (R259): A victim NI gives half of its top entry, or refuses. -/
  | stealRequest (victim thief ctx : Nat) (rest : List Nat)
  /-- STEAL_RESPONSE (R259): A steal answer reaches the thief, which pushes the range or asks the next victim. -/
  | stealResponse (thief ctx : Nat) (got : Option (Nat × Nat × Nat)) (rest : List Nat)
  /-- MAILBOX_POST (R262): A post reaches its instance and is inserted, dropped, displaced, late or NOINST. -/
  | mailboxPost (p : MailPost)
  /-- BARRIER_ARRIVAL (R266): An arrival is counted at the block once the conditions of R143 hold. -/
  | barrierArrival (a : Arrival)
  /-- FLAG_NOTICE (R272): A flag notice sets STRAGGLER at the receiving NI. -/
  | flagNotice (core record : Nat)
  /-- CLEAR_NOTICE (R272): A clear notice may clear STRAGGLER at the receiving NI. -/
  | clearNotice (core record : Nat)
  /-- NODE_START (R368): The sequencer starts the next fired node of its ready queue. -/
  | nodeStart (site : Nat)
  /-- NODE_COMPLETE (R368): A node completes and releases its successor list, then rearms or is freed. -/
  | nodeComplete (site handle : Nat)
  /-- WAIT_POLL (R366): A WAIT node reads its word every 1,024 fabric cycles. -/
  | waitPoll (site handle : Nat)
  /-- GRID_COMPLETE (R56): A complete grid's completion word is written and successors released. -/
  | gridComplete (grid : Nat)
  /-- POST_GO (R417): A host GO posts the POSTREC record to a site's sequencer. -/
  | postGo (mod port : Nat)
  /-- POSTSTAT_READ (R416): A read of POSTSTAT returns and clears OVERRUN. -/
  | poststatRead (mod port : Nat)
  /-- TEAM_PLACE (R373): The head of the placement queue is placed on the first fitting rectangle. -/
  | teamPlace (part : Nat)
  /-- SWAP_OUT (R50): A quiescent team's state is saved, its mail drop opened and its rectangle freed. -/
  | swapOut (team : Nat)
  /-- SWAP_IN (R52): A swapped team's state is restored and its mail drop replayed. -/
  | swapIn (team : Nat)
  /-- MAILDROP_APPEND (R377): The drop's hod appends a message to a swapped team's mail drop. -/
  | maildropAppend (team : Nat) (m : Message)
  /-- MAILDROP_CLOSE (R52): The mail drop is closed once empty and the team is PLACED. -/
  | maildropClose (team : Nat)
  /-- SLICE_PREEMPTION (R376): The sequencer pre-empts the longest-placed eligible oversubscribing team. -/
  | slicePreemption (part : Nat)
  /-- RELOCATION_REQUEST (R375): A team is swapped out and placed again elsewhere. -/
  | relocationRequest (team : Nat)
  /-- PAGE_WALK (R386): A walker translates a VA through the page tables, setting A and D. -/
  | pageWalk (agent : Agent) (va : Nat) (acc : Access)
  /-- FIRST_TOUCH (R115): The first access to an unhomed region fixes its home and frame. -/
  | firstTouch (agent : Agent) (va : Nat) (acc : Access)
  /-- TLBINV_COMPLETION (R392): A TLBINV completes and its completion message is sent. -/
  | tlbinvCompletion (part id : Nat)
  /-- AUDIT_APPEND (R364): The site controller appends a revocation failure record to the audit ring. -/
  | auditAppend (core : Nat) (msgid teamid : Word) (slot epoch word : Nat)
  /-- AGEOUTS (R320): A flit reaching AGE 4,095 away from its destination is removed and a REROUTE sent. -/
  | ageouts (site flit : Nat)
  /-- INJECTION_STARVATION (R321): A gateway waiting 64 cycles makes the upstream router free an output. -/
  | injectionStarvation (site plane : Nat)
  /-- REASSEMBLY_DELIVER (R322): A complete message at the gateway is delivered into the mortar mesh. -/
  | reassemblyDeliver (site src seq : Nat)
  /-- LINK_REPLAY (R323): A flit failing CRC is replayed from the link replay buffer. -/
  | linkReplay (link : Nat)
  /-- LINK_DEAD (R323): A link is declared dead; its replay buffers are discarded with REROUTEs. -/
  | linkDead (link : Nat)
  /-- REROUTE (R324): A source retransmits on REROUTE, or sends SKIP and a machine check. -/
  | reroute (agent owner : Nat) (item : LostItem)
  /-- SKIP (R326): An owner marks a skipped SEQ as applied. -/
  | skip (owner src seq : Nat)
  /-- WINDOW_CLOSE_TIMER (R325): After 2^20 quiet cycles a source sends CLOSE to an owner. -/
  | windowCloseTimer (agent owner : Nat)
  /-- CLOSE (R325): An owner frees a sequence window on CLOSE unless reopened later. -/
  | close (owner src seq : Nat)
  /-- LANE_RETIRE (R410): A lane with excess replays is retired to a spare. -/
  | laneRetire (link : Nat)
  /-- LINK_TRAIN (R421): A link trains, negotiates version and exchanges identities at bring-up. -/
  | linkTrain (link partner domain : Nat) (versions : List Nat)
  /-- ECC_ERROR (R404): A read or scrub finds an error, correcting or poisoning it. -/
  | eccError (u : ErrUnit) (correctable : Bool)
  /-- SCRUB (R404): Background scrub checks every array at least once each 2^30 fabric cycles. -/
  | scrub (site : Nat) (found : List (ErrUnit × Bool))
  /-- CORE_LOSS (R408): A failed core ends its contexts and its NI state is copied to the spare. -/
  | coreLoss (core : Nat)
  /-- SPARE_TAKEOVER (R408): The copy ends and the spare takes the coordinate and dispatches. -/
  | spareTakeover (core : Nat)
  /-- SITE_LOSS (R411): A silent or FATAL site is lost; its teams' grids end LOST. -/
  | siteLoss (site : Nat)
  /-- SITE_EVACUATION (R411): Teams on a site are pre-empted and placed on surviving sites. -/
  | siteEvacuation (site : Nat)
  /-- EVACUATION_TIMEOUT (R411): After 2^26 cycles whatever remains on an evacuated site is treated as lost. -/
  | evacuationTimeout (site : Nat)
  /-- DEBUG_ATTACH (R435): A debugger attaches to a partition with INJEN set, setting ATTACHED. -/
  | debugAttach (part : Nat)
  /-- DEBUG_DETACH (R435): A debugger detaches, clearing ATTACHED. -/
  | debugDetach (part : Nat)
  /-- DEBUG_RESUME (R412): The debugger resumes a halted task and thaws its grid. -/
  | debugResume (core ctx : Nat)
  /-- DEBUG_STEP (R412): The debugger steps a halted task one instruction. -/
  | debugStep (core ctx : Nat)
  /-- BREAK (R412): The debugger ends a halted task with cause BREAK. -/
  | breakTask (core ctx : Nat)
  /-- SNPINV (R418): A host SnpInv to a half is recorded, answered and leaves it I. -/
  | snpinv (site half : Nat)
  /-- SNPDATA (R418): A host SnpData is answered, with data from M, and leaves the half S. -/
  | snpdata (site half : Nat)
  /-- SNPCUR (R418): A host SnpCur is recorded and answered. -/
  | snpcur (site half : Nat)
  /-- HOST_READ (R420): A host CXL.mem read of HDM is translated and served. -/
  | hostRead (port : PortId) (hpa len : Nat)
  /-- HOST_WRITE (R420): A host CXL.mem write of HDM is translated and performed. -/
  | hostWrite (port : PortId) (hpa : Nat) (data : List Byte)
  /-- BISNP_RESPONSE (R420): A back-invalidate is answered and the waiting device access proceeds. -/
  | bisnpResponse (site half : Nat) (dirty : Option (List Byte))
  /-- CHECKPOINT_FULL (R423): Quiesces, writes back and streams every frame to the safe tier. -/
  | checkpointFull (mod : Nat)
  /-- CHECKPOINT_INCR (R423): Streams frames with D set, then clears D and invalidates TLBs. -/
  | checkpointIncr (mod : Nat)
  /-- RESTORE (R425): Streams a checkpoint image back into DRAM and restores the tables. -/
  | restore (mod : Nat)
  /-- CHECKPOINT_TIMEOUT (R423): A team not quiescent after 2^26 cycles ends the checkpoint with TIMEOUT. -/
  | checkpointTimeout (mod : Nat)
  /-- CHECKPOINT_COMPLETE (R423): A checkpoint or restore ends, setting CKSTAT and sending MSI-X vector 1. -/
  | checkpointComplete (mod : Nat)
  /-- POWER_ON (R428): Supply rising runs the full reset sequence and wipe. -/
  | powerOn (mod : Nat)
  /-- MODULE_RESET (R428): A module reset runs the full reset sequence and wipe. -/
  | moduleReset (mod : Nat)
  /-- SITE_RESET (R429): A site reset wipes one site and zeroes its key slots. -/
  | siteReset (site : Nat)
  /-- HOD_IMAGE_UPDATE (R354): Firmware replaces the hod image after LMS verification. -/
  | hodImageUpdate (mod : Nat) (img : SignedImage)
  /-- PROVISIONED (R434): Factory programming moves the lifecycle from BLANK to PROVISIONED. -/
  | provisioned (mod : Nat) (fwkey attkey uds : BitVec 256)
  /-- DEPLOYMENT_TOKEN (R434): A signed deployment token moves PROVISIONED to DEPLOYED. -/
  | deploymentToken (mod : Nat) (t : Token)
  /-- UNLOCK_TOKEN (R434): A signed unlock token enters DEBUG by burning a DBGCNT bit. -/
  | unlockToken (mod : Nat) (t : Token)
  /-- RELOCK_TOKEN (R434): A signed relock token leaves DEBUG by burning an RLKCNT bit. -/
  | relockToken (mod : Nat) (t : Token)
  /-- RETURN_TOKEN (R434): A signed return token moves to RETURNED and exhausts attestation. -/
  | returnToken (mod : Nat) (t : Token)
  /-- RETIRE_TOKEN (R434): A signed retire token moves RETURNED to RETIRED. -/
  | retireToken (mod : Nat) (t : Token)
  /-- SESSION (R435): A SESSION token opens an attested debug session on one partition. -/
  | session (mod part : Nat) (t : Token)
  /-- ATTESTATION_REPORT (R433): Uboskir signs and delivers an attestation report with a fresh leaf. -/
  | attestationReport (mod port : Nat) (nonce : Word)
  /-- GET_VERSION (R415): SPDM GET_VERSION request over DOE. -/
  | getVersion (mod port : Nat)
  /-- GET_CAPABILITIES (R415): SPDM GET_CAPABILITIES request. -/
  | getCapabilities (mod port : Nat)
  /-- NEGOTIATE_ALGORITHMS (R415): SPDM algorithm negotiation with SHA-256 and AES-256-GCM. -/
  | negotiateAlgorithms (mod port : Nat) (sha256 aes256gcm : Bool)
  /-- PSK_EXCHANGE (R415): SPDM pre-shared-key session exchange. -/
  | pskExchange (mod port : Nat) (session : Nat)
  /-- PSK_FINISH (R415): SPDM pre-shared-key session finish. -/
  | pskFinish (mod port : Nat) (proof : Word)
  /-- HEARTBEAT (R415): SPDM session heartbeat. -/
  | heartbeat (mod port : Nat)
  /-- END_SESSION (R415): SPDM session end. -/
  | endSession (mod port : Nat)
  /-- VENDOR_DEFINED_REQUEST (R415): SPDM vendor request carrying attestation, tokens or Uboskir status. -/
  | vendorDefinedRequest (mod port kind : Nat) (arg : Word)
  /-- THROTTLE_RAISE (R437): Every 2^20 cycles over power or temperature the throttle level rises. -/
  | throttleRaise (site : Nat)
  /-- THROTTLE_LOWER (R437): After 2^24 cycles below limits the level falls, not below CAPSET. -/
  | throttleLower (site : Nat)
  /-- THERMAL_SHUTDOWN (R437): At 105 °C the site shuts down and reports FATAL. -/
  | thermalShutdown (site : Nat)
  /-- SENSOR_UPDATE (R438): Sensors update every 2^20 fabric cycles. -/
  | sensorUpdate (site : Nat) (r : Sensors)
  /-- CAPSET_WRITE (R438): A write of CAPSET sets the lowest throttle level within 2^20 cycles. -/
  | capsetWrite (site : Nat) (v : Word)
  /-- POWER_LOSS (R430): The supply is lost, stopping the module; the next POWER-ON runs the whole reset sequence again. -/
  | powerLoss (mod : Nat)
  /-- PORT_LOST (R414): A CXL port goes down, so the site agents it served use the lowest-numbered live port and a running checkpoint ends with MEDIA. -/
  | portLost (mod port : Nat)
  /-- PORT_LINK_UP (R415): A CXL port trains and negotiates its CXL version and feature set with its link partner. -/
  | portLinkUp (port : PortId) (width rate cxlMajor cxlMinor : Nat) (features : List PortFeature)
  /-- PORDER_ROUTER_CYCLE (R320): In each fabric cycle a Porder router ages, ranks, ejects, forwards or deflects the flits it holds. -/
  | porderRouterCycle (site : Nat)
  /-- HOST_CACHE_GRANT (R418): The host answers a RdShared or RdOwn of the site's CXL.cache agent, granting the half in S, E or M with its data. -/
  | hostCacheGrant (site half : Nat) (state : Nat) (data : List Byte)
  /-- CXL_IDE_KEY_MANAGEMENT (R415): A CXL IDE key-management message within an SPDM session lets Uboskir set the IDE keys. -/
  | cxlIdeKeyManagement (mod port : Nat) (key : BitVec 256)
  /-- SITE_REJOIN (R427): Firmware adds a site that had a SITE reset to a partition, so it rejoins placement. -/
  | siteRejoin (site part : Nat)
  /-- REGREL_COMPLETE (R391): The region release completes: lines are written back, homes are dropped, the entry becomes RELEASED, stalled accesses proceed and gd receives OK. -/
  | regrelComplete (core ctx region : Nat)
  /-- LINE_FILL (R126): A fill answering a load miss reaches the requester, binds the load and is installed in L1 and the cluster cache unless an invalidation intervened. -/
  | lineFill (core ctx op : Nat)
  deriving DecidableEq, Repr

end Sys2Proof
end

