-- ==== Sys2Proof/Config.lean ====
section
/-!
DEFINITION. What the spec leaves to each device, as free values: constants with no body, so that no proof can
see what they are. Each is named in the assumption log.
-/
namespace Sys2Proof.Config

/-- R105: whether a fetch or literal load of code bytes sees a store made to them since placement (log 5). The arguments
are the counter of free values and the store's place among those made to placed code. -/
opaque codeNew : Nat → Nat → Bool

/-- R405, R324: the syndrome g3 of a machine-check notice, which is "specific to the class" (log 6). The argument
is the counter of free values. -/
opaque syndrome : Nat → Word

/-- R435: the bytes a token's signature is made over: device identity, nonce and action (log 7). -/
opaque tokenBytes : Word → Word → Nat → List Byte

/-- R431: the firmware key hash that a device in service has fused (log 7). -/
opaque fwKeyHash : BitVec 256

/-- R428: the signed site-controller firmware that stands in a module's flash (log 7). -/
opaque flash : SignedImage

/-- R415: whether the proof of a PSK_FINISH is the one the session's keys give (log 7). -/
opaque finishValid : BitVec 256 → Word → Bool

/-- R433, RFC 8554: what the device secret gives to the trees of the attestation key: a tree's identifier, the secret of a chain
of a leaf, and the randomizer of a leaf's signature (log 7). The arguments are UDS, the tree, the leaf and the chain. -/
opaque treeId : BitVec 256 → Nat → BitVec 128
opaque chainSecret : BitVec 256 → Nat → Nat → Nat → BitVec 256
opaque randomizer : BitVec 256 → Nat → Nat → BitVec 256

/-- R431: the device secret and the attestation key hash that a device in service has fused (log 7). -/
opaque uds : BitVec 256
opaque attKeyHash : BitVec 256

/-- R361, R397: bits 47:12 of the root table that firmware gives a partition (log 34). -/
opaque rootTable : Nat → BitVec 36

/-- R423: whether the target of a checkpoint reports a write error (log 102). The argument is the counter of free values. -/
opaque writeError : Nat → Bool

/-- R435: a module's device identity (log 7). -/
opaque identity : Nat → Word

/-- R432, R435: a fresh nonce of Uboskir (log 8). -/
opaque nonce : Nat → Word

/-- R362: a key that Uboskir generates (log 8). -/
opaque key : Nat → BitVec 256

/-- R404: the DRAM row of a storage address, and the bank of a row (log 21). -/
opaque dramRow : Nat → Nat
opaque dramBank : Nat → Nat

/-- R438: bits 47:0 of MODSENSE: coolant flow and temperatures (log 22). -/
opaque coolant : Nat → BitVec 48

/-- R416: the part revision in VERSION (log 27). -/
opaque revision : BitVec 8

end Sys2Proof.Config
end

