-- ==== Sys2Proof/Machine/Event.lean ====
section
/-!
DEFINITION. The machine's own steps as data: what stands on the agenda of the state, in flits and in transmit
stores. One constructor per row of spec/opcode_table.json that has no encoding, with the arguments of the
constructor of `Instr` of the same name. (`Instr` itself has more constructors than compiled code can build.)
-/
namespace Sys2Proof.Machine

/-- A step of the machine's own (spec/95_what_each_step_holds.md). -/
inductive Event where
  | srseedWrite (v : Word)
  | fltdoneRetry (handle : Nat)
  | fltdoneFail (handle : Nat)
  | mccntRead (d : BitVec 6)
  | csrSpread (core csr : Nat) (v : Word)
  | registerWrite (mod port off : Nat) (v : Word)
  | messageAccept (m : Message)
  | refuse (m : Message) (nolist chain : Bool)
  | roomNotice (core target : Nat) (id : Word)
  | roomReservationLapse (core : Nat) (id : Word)
  | timedRetry (core : Nat) (id : Word)
  | chainAck (core target : Nat)
  | dispatch (core : Nat)
  | promotion (core : Nat) (id : Word)
  | replyDeposit (r : Reply)
  | budget (core ctx : Nat)
  | parkResume (core ctx : Nat)
  | idleWake (core ctx : Nat)
  | niTransmit (core ctx : Nat)
  | storeAck (core ctx : Nat)
  | flushReturn (core ctx mod : Nat)
  | combineSend (core idx : Nat)
  | remoteCopyExpiry (core line : Nat)
  | storePerform (core ctx op : Nat)
  | remoteRegionAccess (core ctx op : Nat)
  | homeAmo (req : AmoReq)
  | niAtomic (owner : Nat) (req : AmoReq) (seq : Option Nat)
  | putIncrement (core ctx op : Nat) (req : AmoReq)
  | forwardDone (hod : Nat) (highest : List (Nat × Nat))
  | txArbitration (core ctx tile : Nat) (write : Bool)
  | abortNotice (core ctx code : Nat)
  | txLock (core ctx home : Nat)
  | txInstall (core ctx : Nat)
  | versionedEviction (core ctx tile : Nat)
  | ticketBeacon (site : Nat)
  | ticketAdvance (site counter : Nat)
  | rowRead (hod : Nat) (tiles : List Nat)
  | lrwEnqueue (core ctx op : Nat)
  | scHome (core ctx op : Nat)
  | leaseExpiry (addr : Nat)
  | bankDrainDone (bank : Nat)
  | bankZeroDone (bank : Nat)
  | hodRequest (req : HodReq)
  | hodCompletion (req : HodReq) (word : Word)
  | hgathOwner (bag : BagState)
  | hgathCombine (bag : BagState)
  | hscatOwner (bag : BagState)
  | stealRequest (victim thief ctx : Nat) (rest : List Nat)
  | stealResponse (thief ctx : Nat) (got : Option (Nat × Nat × Nat)) (rest : List Nat)
  | mailboxPost (p : MailPost)
  | barrierArrival (a : Arrival)
  | flagNotice (core record : Nat)
  | clearNotice (core record : Nat)
  | nodeStart (site : Nat)
  | nodeComplete (site handle : Nat)
  | waitPoll (site handle : Nat)
  | gridComplete (grid : Nat)
  | postGo (mod port : Nat)
  | poststatRead (mod port : Nat)
  | teamPlace (part : Nat)
  | swapOut (team : Nat)
  | swapIn (team : Nat)
  | maildropAppend (team : Nat) (m : Message)
  | maildropClose (team : Nat)
  | slicePreemption (part : Nat)
  | relocationRequest (team : Nat)
  | pageWalk (agent : Agent) (va : Nat) (acc : Access)
  | firstTouch (agent : Agent) (va : Nat) (acc : Access)
  | tlbinvCompletion (part id : Nat)
  | auditAppend (core : Nat) (msgid teamid : Word) (slot epoch word : Nat)
  | ageouts (site flit : Nat)
  | injectionStarvation (site plane : Nat)
  | reassemblyDeliver (site src seq : Nat)
  | linkReplay (link : Nat)
  | linkDead (link : Nat)
  | reroute (agent owner : Nat) (item : LostItem)
  | skip (owner src seq : Nat)
  | windowCloseTimer (agent owner : Nat)
  | close (owner src seq : Nat)
  | laneRetire (link : Nat)
  | linkTrain (link partner domain : Nat) (versions : List Nat)
  | eccError (u : ErrUnit) (correctable : Bool)
  | scrub (site : Nat) (found : List (ErrUnit × Bool))
  | coreLoss (core : Nat)
  | spareTakeover (core : Nat)
  | siteLoss (site : Nat)
  | siteEvacuation (site : Nat)
  | evacuationTimeout (site : Nat)
  | debugAttach (part : Nat)
  | debugDetach (part : Nat)
  | debugResume (core ctx : Nat)
  | debugStep (core ctx : Nat)
  | breakTask (core ctx : Nat)
  | snpinv (site half : Nat)
  | snpdata (site half : Nat)
  | snpcur (site half : Nat)
  | hostRead (port : PortId) (hpa len : Nat)
  | hostWrite (port : PortId) (hpa : Nat) (data : List Byte)
  | bisnpResponse (site half : Nat) (dirty : Option (List Byte))
  | checkpointFull (mod : Nat)
  | checkpointIncr (mod : Nat)
  | restore (mod : Nat)
  | checkpointTimeout (mod : Nat)
  | checkpointComplete (mod : Nat)
  | powerOn (mod : Nat)
  | moduleReset (mod : Nat)
  | siteReset (site : Nat)
  | hodImageUpdate (mod : Nat) (img : SignedImage)
  | provisioned (mod : Nat) (fwkey attkey uds : BitVec 256)
  | deploymentToken (mod : Nat) (t : Token)
  | unlockToken (mod : Nat) (t : Token)
  | relockToken (mod : Nat) (t : Token)
  | returnToken (mod : Nat) (t : Token)
  | retireToken (mod : Nat) (t : Token)
  | session (mod part : Nat) (t : Token)
  | attestationReport (mod port : Nat) (nonce : Word)
  | getVersion (mod port : Nat)
  | getCapabilities (mod port : Nat)
  | negotiateAlgorithms (mod port : Nat) (sha256 aes256gcm : Bool)
  | pskExchange (mod port : Nat) (session : Nat)
  | pskFinish (mod port : Nat) (proof : Word)
  | heartbeat (mod port : Nat)
  | endSession (mod port : Nat)
  | vendorDefinedRequest (mod port kind : Nat) (arg : Word)
  | throttleRaise (site : Nat)
  | throttleLower (site : Nat)
  | thermalShutdown (site : Nat)
  | sensorUpdate (site : Nat) (r : Sensors)
  | capsetWrite (site : Nat) (v : Word)
  | powerLoss (mod : Nat)
  | portLost (mod port : Nat)
  | portLinkUp (port : PortId) (width rate cxlMajor cxlMinor : Nat) (features : List PortFeature)
  | porderRouterCycle (site : Nat)
  | hostCacheGrant (site half : Nat) (state : Nat) (data : List Byte)
  | cxlIdeKeyManagement (mod port : Nat) (key : BitVec 256)
  | siteRejoin (site part : Nat)
  | regrelComplete (core ctx region : Nat)
  | lineFill (core ctx op : Nat)
  deriving DecidableEq, Repr

end Sys2Proof.Machine
end

