-- ==== Sys2Proof/Machine/Sparse.lean ====
section
/-!
DEFINITION. Sparse tables as plain data: sorted lists of (key, value) pairs with strictly rising keys.
An absent key reads as the default the reader names. `Mem` is the table of stored bytes (Host.Cell) in the
one canonical form: addresses strictly rising, and no entry equal to zero, which is what an unlisted byte
reads as: every store of the device is zeroed by the wipe (R428, R429).
-/
namespace Sys2Proof.Machine

/-- A table keyed by natural numbers. -/
abbrev Sparse (α : Type) := List (Nat × α)

namespace Sparse

/-- The value at key `k`, or `d` where the key is absent. -/
def get {α : Type} (d : α) : Sparse α → Nat → α
  | [], _ => d
  | (j, x) :: t, k => if j = k then x else get d t k

/-- The value at key `k`, if present. -/
def find {α : Type} : Sparse α → Nat → Option α
  | [], _ => none
  | (j, x) :: t, k => if j = k then some x else find t k

/-- The table with `x` at key `k`. -/
def set {α : Type} : Sparse α → Nat → α → Sparse α
  | [], k, x => [(k, x)]
  | (j, y) :: t, k, x =>
    if k < j then (k, x) :: (j, y) :: t
    else if k = j then (k, x) :: t
    else (j, y) :: set t k x

/-- The table without key `k`. -/
def erase {α : Type} : Sparse α → Nat → Sparse α
  | [], _ => []
  | (j, y) :: t, k => if j = k then erase t k else (j, y) :: erase t k

/-- The keys, rising. -/
def keys {α : Type} (m : Sparse α) : List Nat := m.map (·.1)

/-- The table with every value mapped. -/
def mapVals {α : Type} (f : α → α) (m : Sparse α) : Sparse α := m.map fun p => (p.1, f p.2)

/-- Keys strictly rising, all above `lo`. -/
def sortedFrom {α : Type} : Nat → Sparse α → Bool
  | _, [] => true
  | lo, (j, _) :: t => lo ≤ j && sortedFrom (j + 1) t

end Sparse

/-- Stored bytes by storage address. -/
abbrev Mem := List (Nat × BitVec 8)

namespace Mem

/-- The byte at a storage address. An unlisted byte reads as zero (R428, R429). -/
def read (m : Mem) (a : Nat) : Byte := Sparse.get 0 m a

/-- The memory with byte `b` at address `a`; a zero byte is kept by having no entry. -/
def write (m : Mem) (a : Nat) (b : Byte) : Mem :=
  if b = 0 then Sparse.erase m a else Sparse.set m a b

/-- The canonical form: addresses strictly rising, no zero byte listed. -/
def wf (m : Mem) : Bool := Sparse.sortedFrom 0 m && m.all fun c => c.2 != 0

/-- The memory after a list of byte writes, in order. -/
def writeAll (m : Mem) : List (Nat × Byte) → Mem
  | [] => m
  | (a, b) :: t => writeAll (write m a b) t

/-- The bytes at a list of addresses. -/
def readAll (m : Mem) (as : List Nat) : List Byte := as.map (read m)

end Mem

/-- A sorted list of numbers, used as a set. -/
def insertNat : List Nat → Nat → List Nat
  | [], k => [k]
  | j :: t, k => if k < j then k :: j :: t else if k = j then j :: t else j :: insertNat t k

/-- The set without `k`. -/
def eraseNat (l : List Nat) (k : Nat) : List Nat := l.filter (· != k)

end Sys2Proof.Machine
end

