-- ==== Sys2Proof/Machine/State.lean ====
section
/-!
DEFINITION. The state of the C2480: a domain of modules, as plain data. Cores, sites and modules are tables
keyed by number; core numbers are ((module·24 + site)·32 + row)·32 + col, site numbers module·24 + site
(R9). Storage addresses are 48-bit physical addresses (R382) below 2^48, and 2^48 + bank·2^18 + offset for
cluster SRAM, with bank number (site number·64 + cluster)·16 + bank.
The fields `cur`, `ctx`, `agenda`, `nextCycle`, `stalled` and `free` of `State` are the model's own: which agent
moves next, the steps under way, those that could not be taken in this cycle and are tried in the next, and the counter
of free values.
-/
namespace Sys2Proof.Machine

/-- A general register (R60): value, tag, descriptor, taint mask. -/
structure Reg where
  val : Word := 0
  tag : Bool := false
  desc : Word := 0
  taint : BitVec 8 := 0
  deriving DecidableEq, Repr

/-- A vector register (R60). -/
structure VReg where
  val : VWord := 0
  taint : BitVec 8 := 0
  deriving DecidableEq, Repr

/-- A mask register (R60). -/
structure MReg where
  val : Word := 0
  taint : BitVec 8 := 0
  deriving DecidableEq, Repr

/-- A stream binding (R79, R232): first of its four registers, and the FIFO bank and role if it is one. -/
structure Stream where
  reg : Nat
  fifo : Option (Nat × Bool) := none
  deriving DecidableEq, Repr

/-- The held-B register of R296. -/
structure HeldB where
  bytes : List Byte
  scales : Option (List Byte)
  etype : Nat
  taint : BitVec 8
  deriving DecidableEq, Repr

/-- A PUT as held (R246). Addresses are virtual. -/
structure PutReq where
  dst : Nat
  src : Nat
  len : Nat
  ctr : Nat
  deriving DecidableEq, Repr

/-- A held outbound effect (R36). -/
inductive Effect where
  | msg (m : Message)
  | put (p : PutReq)
  | hod (r : HodReq)
  | fifoHead (bank n : Nat)
  | fifoTail (bank n : Nat)
  deriving DecidableEq, Repr

/-- A send-buffer entry (R36): held until `committed` (R37), then waiting for transmission.
`after` is its number among the operations of the context, which its release point gives it (R131). -/
structure SendEntry where
  eff : Effect
  committed : Bool := false
  after : Nat := 0
  /-- Its task has ended (R47). -/
  ended : Bool := false
  deriving DecidableEq, Repr

/-- Where an access is served (R218). -/
inductive Place where
  | own
  | share (owner : Nat)
  | fifo (bank : Nat)
  | home (site slice : Nat)
  | host (site : Nat)
  deriving DecidableEq, Repr

/-- The register a load or reply writes. -/
inductive Dest where
  | none
  | g (n : Nat)
  | v (n : Nat)
  | a (phys : Nat)
  deriving DecidableEq, Repr

/-- How loaded bytes become a register value. -/
inductive Finish where
  | int (size : Nat) (signed : Bool)
  | cap (keep : Bool)
  | vec (lanes : List Nat) (w : Nat) (bcast : Bool)
  | tile
  deriving DecidableEq, Repr

/-- The kinds of pending memory operation. `fenceSs` is a FENCE.ss that later stores wait for (R135), `arrival` a
barrier arrival that waits for the conditions of R143, `put` a PUT's increment, which waits for its data (R139), `post`
a mailbox post (R262), `clean` the write-back of a dirty line by CFLUSH or CINV, `pref` the fill of a PREF (R221). -/
inductive PendKind where
  | load | store | amo | get | flushrd | lrw | sc | fenceSs | arrival | put | post | clean | pref
  deriving DecidableEq, Repr

/-- A flush of written peers (R134): the modules whose FLUSHRD has not returned, the number of the context's next
operation when it began, and the number below which it covers the context's posted operations. -/
structure Flush where
  mods : List Nat
  since : Nat
  upto : Nat
  deriving DecidableEq, Repr

/-- A memory operation that has issued and is not yet performed (R77, R123, R127, R130). -/
structure PendOp where
  op : Nat
  /-- Its place in the program order of its context: its number, or, for the parts of a PUT, that of the held effect
  (R131). -/
  seq : Nat := 0
  gen : Nat
  kind : PendKind
  /-- Unbound slots of its address, capability and data registers (R77). -/
  deps : BitVec 8 := 0
  /-- The taint slot it holds (R74). -/
  slot : Option Nat := none
  dest : Dest := .none
  /-- The register a reply to it names (R31): a number, or a tile's name. -/
  name : Nat := 0
  /-- The virtual address that its instruction names, 0 where it names a place by another kind of name (R400). -/
  va : Word := 0
  /-- Storage addresses of its bytes, in order. -/
  addrs : List Nat := []
  data : List Byte := []
  /-- Granule tags it writes (R69, R224). -/
  tags : List (Nat × Bool) := []
  fin : Finish := .int 8 false
  place : Place := .own
  /-- Acquire scope (R132) and release scope (R133). -/
  acq : Option Nat := none
  rel : Option Nat := none
  /-- Counted by the store-acknowledge counter (R130). -/
  counted : Bool := false
  /-- The flush a release or FENCE.ss has begun (R133, R134). -/
  flush : Option Flush := none
  req : Option AmoReq := none
  /-- Operations that must be performed first: the data of a PUT. -/
  after : List Nat := []
  arr : Option Arrival := none
  mail : Option MailPost := none
  /-- On its way to its home: its step stands on the agenda. -/
  sent : Bool := false
  /-- A remote-copy invalidation has come since it left: its line is not installed (R126). -/
  stale : Bool := false
  /-- Its deposit has been cancelled: its reply is discarded (R78, R81). -/
  cancelled : Bool := false
  /-- It has reached its home in an earlier cycle and waits there (R228). -/
  waited : Bool := false
  deriving DecidableEq, Repr

/-- An entry of an inbound queue (R24, R378). -/
structure QEntry where
  msg : Message
  cls : Nat
  cls0 : Nat
  reserved : Bool
  /-- Its place in the order of acceptance among the entries the core holds (R378). -/
  accepted : Nat
  /-- Core cycle of its acceptance (R379), at the core that holds it. -/
  arrived : Option Nat := none
  /-- Core cycle from which its wait counts (R378): that of its acceptance or last promotion, by the clock of the core that
  holds it. -/
  moved : Int
  poisoned : Bool := false
  deriving DecidableEq, Repr

/-- A reduction-log entry (R160): address, operation, width flag and operand. -/
structure RedEntry where
  addr : Nat
  op : Nat
  wide : Bool
  opnd : Word
  deriving DecidableEq, Repr

/-- An open transaction (R146 to R161). -/
structure Txn where
  depth : Nat
  ticket : Nat
  dest : Nat
  resume : Word
  snapG : Sparse Reg
  snapS : Sparse Stream
  reads : List Nat := []
  writes : List Nat := []
  /-- Speculative bytes and granule tags of written tiles. -/
  spec : Sparse Byte := []
  specTags : Sparse Bool := []
  /-- Tiles whose speculative copy stands in versioned ways (R154). -/
  versioned : List Nat := []
  log : List RedEntry := []
  /-- Effects held before XBEGIN (R160). -/
  heldBase : Nat := 0
  /-- Code of a home that has removed the transaction (R157). -/
  removed : Option Nat := none
  /-- Homes whose lock has not been granted yet (R161); none before XEND. -/
  locking : Option (List Nat) := none
  deriving DecidableEq, Repr

/-- Why a context is parked (R33). -/
inductive Park where
  | waitm (d h : Nat)
  | bwait (d : Nat)
  | lrw (op : Nat)
  | pop (bank : Nat)
  | append (bank : Nat)
  deriving DecidableEq, Repr

/-- An answer that a stalled context waits for. -/
inductive Wait where
  | steal (d dom : Nat)
  | regrel (d : Nat)
  | xend
  | lrw (op : Nat)
  deriving DecidableEq, Repr

/-- The last BARR of the task (R267): its block and, once known, 0 DONE, 1 BROKEN, 2 REFUSED or 3 POISON. -/
structure BarrRec where
  blk : Word
  op : Nat
  status : Option Nat := none
  deriving DecidableEq, Repr

/-- A repeat frame under way (R178): the body it has captured and the fields of its REP. A translation fault suspends it
until REP issues again (R181). -/
structure Frame where
  words : List (BitVec 32)
  rc : Nat
  len : Nat
  sd : Int
  sa : Int
  sb : Int
  suspended : Bool := false
  deriving DecidableEq, Repr

/-- A message with nothing in it. -/
def noMsg : Message :=
  { id := 0, src := 0, dst := 0, handler := 0, cls := 0, a1 := 0, a2 := 0, a3 := 0, a4 := 0,
    cap := ⟨0, 0, false⟩, payload := [], team := none, pos := (0, 0), ordered := false, release := false, retry := 0,
    timed := 0, orphan := false, counted := none }

/-- A task context (R11, R29, R60, R61, R90, R130, R293, R296). -/
structure Ctx where
  occupied : Bool := false
  gen : Nat := 0
  /-- Core cycle in which its task started, or in which its last one ended (R379, R381). -/
  turned : Option Nat := none
  pc : Word := 0
  g : Sparse Reg := []
  v : Sparse VReg := []
  m : Sparse MReg := []
  streams : Sparse Stream := []
  /-- FPSTAT with SRSTATE in bits 63:32 (R90). -/
  fpstat : Word := 0x0000000100000000
  /-- Tile map: name to physical tile (R293). -/
  tiles : Sparse Nat := []
  heldB : Option HeldB := none
  /-- Inner-loop buffer of MUPROG (R311). -/
  prog : Word := 0
  /-- Taint slots in use, and the count of loads that share slot 7 (R74). -/
  slots : BitVec 8 := 0
  slot7 : Nat := 0
  pend : List PendOp := []
  /-- Number of the next memory operation or committed effect of the context, in program order. -/
  opNo : Nat := 0
  /-- Store-acknowledge counter and written-peers mask (R130). -/
  sack : Nat := 0
  peers : BitVec 8 := 0
  /-- For each other module, the number of the last operation posted to it (R134). -/
  posted : Sparse Nat := []
  /-- The flush of a FENCE, SENDR or hod request under way (R134, R135, R137), and that of a FLUSHRD (R248). -/
  flush : Option Flush := none
  flushrd : Option Flush := none
  send : List SendEntry := []
  /-- The fault handle that holds the sending of a committed PUT (R388, R389). -/
  sendHold : Option Nat := none
  /-- Committed effects that no send-buffer entry holds (R36): DIVERT messages of tasks that have trapped (R41), and
  advances of shared FIFOs (R240). -/
  divert : List SendEntry := []
  msg : Message := noMsg
  /-- Class of the message at dispatch (R214). -/
  dcls : Nat := 0
  /-- The triggering message's queue entry, until a release point frees it (R29). -/
  entry : Option QEntry := none
  taken : List QEntry := []
  window : List Byte := []
  released : Bool := false
  budget : Nat := 0
  retired : Nat := 0
  park : Option Park := none
  /-- Core cycle in which it parked (R249). -/
  parkAt : Nat := 0
  hold : Option Nat := none
  wait : Option Wait := none
  /-- End of an IDLE stall, in core cycles (R402). -/
  idle : Option Nat := none
  halted : Bool := false
  /-- It halted at a BKPT, which a resume skips; a debugger's step of one instruction is under way (R412). -/
  atBkpt : Bool := false
  stepping : Bool := false
  frame : Option Frame := none
  /-- Slots of the elements that the instruction under way has popped, and whether it has read another core's region, a
  release point that it passes once none of its checks can fail (R37, R74, R76). -/
  pops : List Nat := []
  relDue : Bool := false
  /-- The first poisoned byte that the instruction under way has popped: POISON is taken once none of its checks can fail
  (R403). -/
  late : Option Word := none
  /-- A block move is under way, in descending order or not (R223). -/
  blockDesc : Option Bool := none
  txn : Option Txn := none
  /-- The ticket an aborted transaction keeps (R155). -/
  ticket : Option Nat := none
  barr : Option BarrRec := none
  /-- Requests of ended tasks whose reply is still owed, each with its generation (R32). -/
  owed : List PendOp := []
  withheld : Bool := false
  deriving DecidableEq, Repr

/-- An accumulator tile (R293). -/
structure Tile where
  owner : Option Nat := none
  mode : Nat := 0
  cc : Nat := 0
  elems : Sparse Word := []
  taint : BitVec 8 := 0
  /-- Freed in this cycle: it can be opened again from the next (R299). -/
  freed : Bool := false
  deriving DecidableEq, Repr

/-- A retry-buffer entry (R25 to R27). -/
structure RetryEntry where
  msg : Message
  listed : Bool
  due : Option Nat
  chain : Bool
  /-- A SENDO message held behind another of its channel, which has not left yet (R27). -/
  fresh : Bool := false
  deriving DecidableEq, Repr

/-- An entry reserved by a room notice (R25). -/
structure RoomRes where
  id : Word
  cls : Nat
  sender : Nat
  /-- Whether it holds one of the class's four entries or a shared one (R24). -/
  reserved : Bool
  until_ : Nat
  deriving DecidableEq, Repr

/-- A combine-buffer entry (R142): the request, with the intent, and the cycle of its first constituent. -/
structure CombEntry where
  req : AmoReq
  place : Place
  since : Nat
  deriving DecidableEq, Repr

/-- An arrival counted in the open episode (R266). -/
structure Counted where
  core : Nat
  ctx : Nat
  gen : Nat
  op : Nat
  cont : Option Message
  deriving DecidableEq, Repr

/-- A sync block (R264 to R270). -/
structure SyncBlock where
  group : Bool := false
  count : Nat := 0
  episode : Nat := 0
  arrived : Nat := 0
  expected : Nat := 0
  lastBroken : Bool := false
  arrivals : List Counted := []
  members : List Nat := []
  /-- Membership with which the current episode opened, less those that have left since (R269). -/
  roll : List Nat := []
  plumb : Option Nat := none
  /-- Core cycle in which the episode opened (R272), by the clock of the core that holds the block. -/
  openedAt : Int := 0
  frozen : Bool := false
  poisoned : Bool := false
  deriving DecidableEq, Repr

/-- A plumb record (R271, R272). -/
structure Plumb where
  used : Bool := false
  thresh : Nat := 0
  t : Nat := 0
  scored : Nat := 0
  scores : Sparse Nat := []
  lastSite : Nat := 0
  flagged : List Nat := []
  times : Sparse Nat := []
  cur : Sparse Nat := []
  deriving DecidableEq, Repr

/-- A pallet entry (R258). -/
structure PalletEntry where
  lo : Nat
  hi : Nat
  tag : Nat
  deriving DecidableEq, Repr

/-- A mailbox entry (R262). -/
structure MailEntry where
  post : MailPost
  deriving DecidableEq, Repr

/-- A mailbox instance (R261). -/
structure Mailbox where
  depth : Nat := 0
  mode : Nat := 0
  notice : Bool := false
  closed : Bool := false
  entries : List MailEntry := []
  deferred : List (MailPost × Nat) := []
  deriving DecidableEq, Repr

/-- What a transmit store keeps of a request or message sent beyond its site (R324). -/
structure XmitEntry where
  owner : Nat
  seq : Nat
  step : Event
  flits : Nat
  cls : Nat := 0
  opens : Bool := false
  reroutes : Nat := 0
  /-- Whether it has left: a send beyond the limits of R324 and R325 waits. -/
  sent : Bool := true
  /-- A refused message, whose copy is in a retry buffer; its SEQ waits for the retransmission (R326). -/
  refused : Bool := false
  /-- A request refused for want of a window (R325): when it goes again, and its timed retries (R26). -/
  due : Option Nat := none
  timed : Nat := 0
  deriving DecidableEq, Repr

/-- An entry of a sequence window (R326): the request accepted under a SEQ, and once `done` its cached answer (none
where the answer is ACK). -/
structure WinEntry where
  seq : Nat
  step : Option Event
  done : Bool := false
  /-- The age of the flit that brought it (R251). -/
  age : Nat := 0
  /-- A refused one (R326): the REFUSE, and after it the room notice, that its source was last sent. -/
  refusal : Option Event := none
  deriving DecidableEq, Repr

/-- A sequence window of an owner towards one source (R325, R326). -/
structure SeqWindow where
  src : Nat
  base : Nat
  applied : List Nat
  entries : List WinEntry
  opened : Nat
  deriving DecidableEq, Repr

/-- A network interface (R11, R24 to R28, R47, R59, R142, R251 to R272, R324 to R327). -/
structure NI where
  queue : List QEntry := []
  refusals : List (Word × Nat × Nat) := []
  rooms : List RoomRes := []
  retry : List RetryEntry := []
  /-- SENDO channels (by source core) with a refused message outstanding (R27). -/
  chains : List (Nat × Word) := []
  seq : Nat := 0
  combine : List CombEntry := []
  sync : Sparse SyncBlock := []
  plumbs : Sparse Plumb := []
  /-- Messages of its own that wait for a retry entry (R25). -/
  own : List Message := []
  pallet : List PalletEntry := []
  places : Nat := 0
  mail : Sparse Mailbox := []
  /-- Bags that it has split and whose parts have not all come back (R256, R257), and the number of the next. -/
  bags : Sparse BagState := []
  bagNext : Nat := 0
  /-- Groups this core is a member of, with the episode of its last arrival (R268). -/
  groups : List (Word × Nat) := []
  flags : List Nat := []
  ptrCluster : Nat := 0
  ptrSite : Nat := 0
  ptrGrid : Nat := 0
  orphans : Nat := 0
  genhold : Nat := 0
  refused : Nat := 0
  timedretry : Nat := 0
  redirects : Nat := 0
  strays : Nat := 0
  replays : Nat := 0
  torn : Nat := 0
  deriving DecidableEq, Repr

/-- A remote copy of a line (R126): its bytes, the granules of it that are tagged (0 to 7), and the fabric cycle of its
fill, at the site of its cluster. -/
structure RemoteCopy where
  bytes : List Byte
  tags : List Nat
  filled : Nat
  deriving DecidableEq, Repr

/-- A line of the L1 data cache (R104). The value of a line homed in the module stands in the memory of the state,
where every agent of the module sees it at once (R125); a remote copy holds its own. -/
structure L1Line where
  line : Nat
  copy : Option RemoteCopy := none
  deriving DecidableEq, Repr

/-- The states of a line of a cluster cache (R107). -/
inductive Moesi where
  | modified | owned | exclusive | shared
  deriving DecidableEq, Repr

/-- A line of a cluster cache (R107): its way, which is the number of a bank in CACHE mode, and its state. -/
structure ClusterLine where
  line : Nat
  way : Nat
  state : Moesi
  copy : Option RemoteCopy := none
  deriving DecidableEq, Repr

/-- A line of an L2 slice, and whether it is dirty. -/
structure L2Line where
  line : Nat
  dirty : Bool
  deriving DecidableEq, Repr

/-- A region-table entry (R390): 1 HOMED, 2 RELEASED. -/
structure Region where
  state : Nat
  site : Nat
  slice : Nat
  frame : Nat
  deriving DecidableEq, Repr

/-- A translation-buffer entry (R387): the leaf, and for a HOMED page the home of each region it has resolved, by region
number. -/
structure TlbEntry where
  part : Nat
  base : Nat
  size : Nat
  leaf : Word
  homes : Sparse Region := []
  deriving DecidableEq, Repr

/-- A walk under way at a site's walkers (R387): the page it walks, as far as the tables told at its start, and the agents
that wait for it, each with its address and access. -/
structure PageWalk where
  no : Nat
  part : Nat
  base : Nat
  size : Nat
  waiters : List (Agent × Nat × Access)
  deriving DecidableEq, Repr

/-- A core (R11): contexts, tiles, NI, caches, system registers (R360, R397, R405). -/
structure Core where
  cycle : Nat := 0
  ptr : Nat := 0
  ctxs : Sparse Ctx := []
  tiles : Sparse Tile := []
  ni : NI := {}
  /-- L1 data cache (R104) and the lines of the L1 instruction cache (R105), each least recently used first. -/
  l1 : List L1Line := []
  l1i : List Nat := []
  dtlb : List TlbEntry := []
  team : Option Nat := none
  dispatchStop : Bool := false
  /-- Cycle of its last dispatch (R379). -/
  dispatched : Option Nat := none
  frozen : Bool := false
  /-- The POISONED mark of R407. -/
  poisonMark : Bool := false
  /-- Loss of the core (R408): 0 good, 1 copy under way, 2 lost for good. -/
  lost : Nat := 0
  copyStart : Nat := 0
  /-- Partition-wide CSRs whose last write has not arrived here: their number and the value still held (R360). -/
  csrOld : Sparse Word := []
  /-- Transactions that END has discarded (R150); no register shows the count. -/
  discarded : Nat := 0
  /-- Requests that wait while the site controller copies the NI to a spare (R408). -/
  waiting : List Event := []
  trap0 : Word := 0
  trap1 : Word := 0
  trap2 : Word := 0
  trap3 : Word := 0
  deriving DecidableEq, Repr

/-- The modes of a cluster SRAM bank (R106). -/
inductive BankMode where
  | cache | scratch | fifo | draining | zeroing
  deriving DecidableEq, Repr

/-- A cluster SRAM bank (R106, R109, R110). -/
structure Bank where
  mode : BankMode := .cache
  /-- Mode word of the change under way (R357). -/
  target : Word := 0
  since : Nat := 0
  /-- Units of 4 KiB in use: unit number and team. -/
  units : List (Nat × Nat) := []
  owner : Option Nat := none
  shared : Bool := false
  slot : Nat := 0
  depthl : Nat := 0
  head : Nat := 0
  tail : Nat := 0
  /-- Slots by which HEAD advances at the end of this cycle: the bank shows them free from the next (R113). -/
  freeing : Nat := 0
  /-- Units or slots poisoned (R406). -/
  poison : List Nat := []
  /-- Mode word of a BANKCFG accepted in this cycle, which acts from the next (R113). -/
  next : Option Word := none
  /-- Dirty lines of a draining way that are still to be written back (R110). -/
  drain : List Nat := []
  /-- The team whose FIFO it was to be has left while its mode changed: it goes back to CACHE after that (R373, R110). -/
  leaving : Bool := false
  deriving DecidableEq, Repr

/-- A node of a sequencer (R365 to R368). -/
structure Node where
  /-- GRAPH :: INDEX, its handle without the site. -/
  key : Nat
  /-- The eight doublewords of its record. -/
  body : List Word
  argCap : CapVal
  count : Nat
  pending : Nat := 0
  /-- 0 waiting, 1 in the ready queue, 2 running. -/
  phase : Nat := 0
  loop : Nat := 0
  /-- An access that it has started with is still to be made (R439): for a LAUNCH that created no grid, that of its completion
  word, with the STATUS of its outcome (R371). -/
  due : Option Nat := none
  hold : Option Nat := none
  freed : Bool := false
  lastPoll : Nat := 0
  deriving DecidableEq, Repr

/-- A translation-fault handle (R388): the address, the page that it stands for, and what waits. -/
structure FaultRec where
  va : Nat
  part : Nat
  base : Nat
  size : Nat
  cause : Nat
  acc : Access
  waiters : List Agent
  deriving DecidableEq, Repr

/-- An outstanding TLBINV (R392). -/
structure Shoot where
  id : Nat
  op : Nat
  arg : Nat
  status : Nat
  comp : Message
  /-- Whether its items have been removed, and the operations (core, context, number) it then still waits for. -/
  removed : Bool := false
  drain : List (Nat × Nat × Nat) := []
  /-- The bags whose parts it still waits for (core and number), and the walks that were in flight at its issue (site and
  number). -/
  bags : List (Nat × Nat) := []
  walks : List (Nat × Nat) := []
  /-- Forward-done notes to send (R252): old owner, new owner, and the highest number forwarded from each source. -/
  notes : List (Nat × Nat × List (Nat × Nat)) := []
  deriving DecidableEq, Repr

/-- A Porder flit (R317, R318), with the step its message takes at its destination. -/
structure Flit where
  ver : Nat := 1
  age : Nat := 0
  kind : Nat := 0
  fidx : Nat := 0
  flast : Nat := 0
  rerouted : Bool := false
  opens : Bool := false
  cls : Nat := 0
  ctl : Nat := 0
  seq : Nat := 0
  src : Nat := 0
  dst : Nat := 0
  plane : Nat := 0
  /-- Site whose gateway ejects it. -/
  toSite : Nat := 0
  step : Option Event := none
  /-- It stays at a router that received it in an earlier cycle (R320). -/
  kept : Bool := false
  /-- The fabric cycle since which it waits for a free injection slot (R321). -/
  waits : Option Nat := none
  deriving DecidableEq, Repr

/-- A flit in the mortar mesh between its agent's router and the gateway (R316): the router it goes to, and whether it leaves
the site. -/
structure MeshFlit where
  flit : Flit
  goal : Nat × Nat
  leaving : Bool
  deriving DecidableEq, Repr

/-- One of a site's six Porder links (R319, R323, R329, R410). -/
structure Link where
  dead : Bool := false
  up : Bool := false
  version : Nat := 1
  replays : Nat := 0
  spares : Nat := 2
  /-- Flits whose CRC ERRINJ corrupts (R359). -/
  corrupt : Nat := 0
  /-- The replay buffer: flits whose CRC has failed, and copies of those received whose link acknowledgement has not come
  (R323). -/
  replayBuf : List Flit := []
  unacked : List Flit := []
  /-- The flits and replays counted since a fabric cycle (R410). -/
  since : Nat := 0
  carried : Nat := 0
  replayed : Nat := 0
  /-- What the partner sent at bring-up: its module number and domain size (R421). -/
  partner : Nat := 0
  partnerDomain : Nat := 0
  deriving DecidableEq, Repr

/-- A machine check whose equal events are merged (R405): class, severity, agent, address, the syndrome where the class gives
it one, count and first cycle. -/
structure Check where
  cls : Nat
  sev : Nat
  agent : Nat
  pa : Nat
  syn : Option Word := none
  count : Nat
  since : Nat
  deriving DecidableEq, Repr

/-- The first sample of a row that a hod reads (R163): the tiles' commit stamps, whether one was locked, the fabric cycle,
and how often the row has been read again. -/
structure RowSample where
  hod : Nat
  tiles : List Nat
  stamps : List Nat
  locked : Bool
  since : Nat
  rereads : Nat := 0
  deriving DecidableEq, Repr

/-- A site (R9): fabric clock, tickets, sequencer, controller, gateway, CXL agent, sensors. -/
structure Site where
  fab : Nat := 0
  /-- 48-bit ticket counter of its directory (R155). -/
  ticket : Nat := 0
  live : Bool := true
  /-- Needs firmware to rejoin a partition after a SITE reset (R427). -/
  rejoin : Bool := false
  /-- Its DRAM controllers hold the module's key slots (R362, R429). -/
  keyed : Bool := true
  evacuating : Option Nat := none
  /-- Nodes by serial number; freed ones stay while they run (R368). -/
  nodes : Sparse Node := []
  nodeNext : Nat := 0
  ready : List Nat := []
  /-- The fabric cycle of the last start of a node (R368). -/
  started : Option Nat := none
  glostdec : Nat := 0
  pendDec : Sparse Nat := []
  /-- Refused messages of the site's own agents, with the fabric cycle they go again (R26). -/
  resend : List (Message × Nat) := []
  ctlSeq : Nat := 0
  seqSeq : Nat := 0
  hodSeq : Sparse Nat := []
  faults : Sparse FaultRec := []
  faultGen : Nat := 0
  /-- Its 64 walkers' walks (R387), the number of the next, and the misses that wait for a walker. -/
  walks : Sparse PageWalk := []
  walkNext : Nat := 0
  walkQueue : List (Agent × Nat × Access) := []
  /-- Cluster caches (R107), by cluster, and L2 slices, each least recently used first. -/
  clusters : Sparse (List ClusterLine) := []
  l2 : Sparse (List L2Line) := []
  /-- L2 TLBs, by cluster (R387). -/
  l2tlb : Sparse (List TlbEntry) := []
  shoots : List Shoot := []
  shootId : Nat := 0
  mcLost : Nat := 0
  /-- Machine checks being merged into notices (R405). -/
  checks : List Check := []
  /-- Cycles of corrected errors by DRAM row, and spare rows used by bank (R404). -/
  rowErrs : Sparse (List Nat) := []
  spareRows : Sparse Nat := []
  dramc : Nat := 0
  sramc : Nat := 0
  lanes : Nat := 0
  deflects : Nat := 0
  ageouts : Nat := 0
  reroutes : Nat := 0
  seqdup : Nat := 0
  seqstale : Nat := 0
  dupresp : Nat := 0
  badfmt : Nat := 0
  reasmfull : Nat := 0
  rowreread : Nat := 0
  /-- Row reads under way at its hods (R163). -/
  rowReads : List RowSample := []
  forwards : Nat := 0
  flits : List Flit := []
  inject : List Flit := []
  starve : List Nat := []
  reasm : List Flit := []
  /-- The mesh's buffers (R315), by router number · 4 + class. -/
  mesh : Sparse (List MeshFlit) := []
  links : Sparse Link := []
  /-- Transmit stores and windows, by agent identifier (R318, R324, R325). -/
  xmit : Sparse (List XmitEntry) := []
  outSeq : Sparse Nat := []
  quiet : Sparse Nat := []
  windows : Sparse (List SeqWindow) := []
  /-- Forwarded requests that a new owner still waits for (R252), by its hod: old owner, source and number. -/
  fwdHold : Sparse (List (Nat × Nat × Nat)) := []
  /-- Host MESI state of each 64-byte half the CXL agent holds: 1 S, 2 E, 3 M, least recently used first (R418). -/
  halves : List (Nat × Nat) := []
  /-- Halves requested from the host: 0 RdShared, 1 RdOwn. -/
  halfReq : Sparse Nat := []
  /-- HDM halves the host caches, oldest first: 1 shared, 2 it may hold the half modified; and those under
  back-invalidation (R420): 0 BISnpData, 1 BISnpInv. -/
  hdm : List (Nat × Nat) := []
  bisnp : Sparse Nat := []
  /-- Data of the last answer to a host snoop (R418): none where the half was not in M. -/
  snoopData : List Byte := []
  /-- Accesses that wait for the host: for a half, or for a back-invalidate's answer. -/
  hostWait : List Event := []
  level : Nat := 0
  capset : Nat := 0
  sensors : Sensors := ⟨0, 0, 0, 0⟩
  levelSince : Nat := 0
  /-- Spare cores already used, by cluster (R10, R408). -/
  sparesUsed : List Nat := []
  deriving DecidableEq, Repr

/-- A committed HDM decoder of a port (R415, R420): a window of host addresses, interleaved over ports, that belongs to a
partition. -/
structure HdmDecoder where
  base : Nat := 0
  size : Nat := 0
  ways : Nat := 1
  part : Nat := 0
  committed : Bool := false
  deriving DecidableEq, Repr

/-- A CXL port and its post block (R414 to R417, R422), with its SPDM session (R415). -/
structure Port where
  up : Bool := false
  width : Nat := 0
  rate : Nat := 0
  cxlMajor : Nat := 0
  cxlMinor : Nat := 0
  /-- The feature set negotiated at link-up (R415). -/
  features : List PortFeature := []
  /-- Its HDM decoders (R415), by number below 4. -/
  decoders : Sparse HdmDecoder := []
  /-- MSI-X is enabled (R416). -/
  msixOn : Bool := false
  postSite : Nat := 0
  postBusy : Bool := false
  /-- SITE as the post in progress found it. -/
  goSite : Nat := 0
  overrun : Bool := false
  postCode : Nat := 0
  postHandle : Nat := 0
  postrec : Sparse Word := []
  nstat : Word := 0
  msix : List Nat := []
  /-- What the host's last read of POSTSTAT returned. -/
  readData : Word := 0
  /-- SPDM: 0 none, 1 version, 2 capabilities, 3 algorithms, 4 exchange, 5 session. -/
  spdm : Nat := 0
  session : Nat := 0
  ideKey : Option (BitVec 256) := none
  /-- Last response of the DOE mailbox: kind and words. -/
  response : Nat × List Word := (0, [])
  deriving DecidableEq, Repr

/-- A checkpoint under way or done (R422 to R425). -/
structure Checkpoint where
  mode : Nat := 0
  busy : Bool := false
  /-- The operation under way: 0 FULL, 1 INCR, 2 RESTORE. -/
  op : Nat := 0
  /-- The teams that it has begun to quiesce (R423). -/
  quiesced : List Nat := []
  /-- Its work is done, with a result (R423). -/
  done : Bool := false
  result : Nat := 0
  /-- Host writes to HDM that wait for its end (R424). -/
  stalled : List Event := []
  code : Nat := 0
  elapsed : Nat := 0
  base : Nat := 0
  start : Nat := 0
  media : Bool := false
  /-- The image that the module has last written or restored, which an INCR image goes over (R425). -/
  last : Option Nat := none
  deriving DecidableEq, Repr

/-- Uboskir's fuses and counters (R431 to R435). -/
structure Fuses where
  fwkeyh : BitVec 256 := 0
  attkeyh : BitVec 256 := 0
  uds : BitVec 256 := 0
  fwver : Nat := 0
  dbgcnt : Nat := 0
  rlkcnt : Nat := 0
  life : BitVec 8 := 0
  deriving DecidableEq, Repr

/-- A module. -/
structure Module where
  powered : Bool := true
  /-- Step of the reset sequence that has finished (R428); 7 is service. -/
  resetStep : Nat := 7
  /-- Domain size D (R421). -/
  domain : Nat := 1
  ports : Sparse Port := []
  ck : Checkpoint := {}
  /-- The firmware configuration's assignment of key slots to partitions (R362). -/
  slots : Sparse Nat := []
  /-- The key slots that hold a key: partition, and the two halves of the XTS key pair (R362). -/
  keys : Sparse (Nat × BitVec 256 × BitVec 256) := []
  fuses : Fuses := {}
  nonce : Word := 0
  leaf : Nat := 0
  exhausted : Bool := false
  hodImage : BitVec 256 := 0
  /-- A hod image was rejected, which is reported to the host (R354). -/
  hodRejected : Bool := false
  fwImage : BitVec 256 := 0
  /-- The site-controller firmware in flash (R428). -/
  flash : SignedImage := Config.flash
  sessions : List Nat := []
  /-- Result of the last host read of HDM: bytes, and whether marked poisoned (R420). -/
  hdmData : List Byte := []
  hdmPoison : Bool := false
  deriving DecidableEq, Repr

/-- A peer entry of a stripe table (R393). -/
structure StripePeer where
  mod : Nat
  site : Nat
  coff : Nat
  deriving DecidableEq, Repr

/-- An override entry of a stripe table (R394). -/
structure OverrideEntry where
  first : Nat
  lenm1 : Nat
  state : Nat
  npeer : Nat
  nslice : Nat
  nroff : Nat
  cpeer : Nat
  cslice : Nat
  croff : Nat
  deriving DecidableEq, Repr

/-- A stripe table as cached (R393). -/
structure Stripe where
  valid : Bool
  n : Nat
  firstb : Nat
  nblk : Nat
  peers : List StripePeer
  overrides : List OverrideEntry
  deriving DecidableEq, Repr

/-- A partition (R361) and its partition-wide registers (R360, R397). -/
structure Partition where
  mod : Nat
  sx0 : Nat
  sy0 : Nat
  w : Nat
  h : Nat
  sealLo : Nat
  sealHi : Nat
  /-- The runtime image that the firmware configuration names (R352). -/
  runtime : Nat := 1
  troot : Word := 0
  rvkbase : Word := 0
  auditctl : Word := 0
  auditHead : Nat := 0
  auditLost : Nat := 0
  fltdest : Word := 0
  strbase : Word := 0
  mcdest : Word := 0
  attached : Bool := false
  injen : Bool := false
  gridNext : Nat := 1
  queue : List Nat := []
  stripes : Sparse Stripe := []
  deriving DecidableEq, Repr

/-- The states of a team (R375). -/
inductive TeamState where
  | waiting | placing | replay | placed | quiescing | ended
  deriving DecidableEq, Repr

/-- What a swap saves of one core (R50). -/
structure SavedCore where
  queue : List QEntry := []
  sync : Sparse SyncBlock := []
  plumbs : Sparse Plumb := []
  pallet : List PalletEntry := []
  mail : Sparse Mailbox := []
  groups : List (Word × Nat) := []
  poisonMark : Bool := false
  share : List (Nat × Byte) := []
  shareTags : List Nat := []
  /-- FIFO banks: their state, bytes and granule tags. -/
  fifos : List (Bank × List (Nat × Byte) × List Nat) := []
  deriving DecidableEq, Repr

/-- A team image (R45, R187). -/
structure Image where
  /-- Its signature has been verified (R352). -/
  signed : Bool := true
  sup : Bool := false
  hod : Bool := false
  code : List (BitVec 32) := []
  handlers : List Word := []
  /-- Named regions: bytes per core, stack flag, initial bytes. -/
  regions : List (Nat × Bool × List Byte) := []
  /-- FIFOs: slot code, depth, shared. -/
  fifos : List (Nat × Nat × Bool) := []
  groups : Nat := 0
  shape : Option (Nat × Nat) := none
  budget : Nat := 4194304
  park : Nat := 6
  oversub : Bool := false
  orphan : Option Nat := none
  retry : Nat := 0
  divert : Bool := false
  trapHandler : Nat := 0
  trapX : Nat := 0
  trapY : Nat := 0
  /-- Image field `rec` of R45. -/
  recAuth : Bool := false
  /-- 0 none, 1 cluster, 2 site, 3 grid (R259). -/
  steal : Nat := 0
  straggler : Nat := 0
  deriving DecidableEq, Repr

/-- A team (R45, R373, R375). -/
structure Team where
  grid : Nat
  idx : Nat
  part : Nat
  image : Nat
  w : Nat
  h : Nat
  cls : Nat
  state : TeamState := .waiting
  frozen : Bool := false
  site : Nat := 0
  col0 : Nat := 0
  row0 : Nat := 0
  placedAt : Nat := 0
  /-- First byte of its window of virtual addresses. -/
  base : Nat := 0
  codeCap : CapVal := ⟨0, 0, false⟩
  tableCap : CapVal := ⟨0, 0, false⟩
  drop : List Message := []
  dropOpen : Bool := true
  dropSize : Nat := 4096
  saved : Option (Sparse SavedCore) := none
  /-- Messages awaiting retransmission, by sender's coordinate (R50, R52). -/
  retryArea : Sparse (List RetryEntry) := []
  /-- Pallet ranges of a RANGE launch, by coordinate (R372). -/
  start : Sparse PalletEntry := []
  deriving DecidableEq, Repr

/-- A grid (R49, R55, R56). -/
structure Grid where
  part : Nat
  image : Nat
  teams : List Nat
  w : Nat
  h : Nat
  cls : Nat
  oversub : Bool
  /-- Outstanding-work count (R55). -/
  work : Nat := 0
  torn : Nat := 0
  killed : Bool := false
  lost : Bool := false
  status : Option Nat := none
  cwaddr : Nat := 0
  /-- LAUNCH node: site and serial number. -/
  node : Option (Nat × Nat) := none
  deriving DecidableEq, Repr

/-- A range of virtual addresses that placement gives a team (R108, R166, R374). -/
inductive WinKind where
  | code | table | authority
  | share (core : Nat)
  | fifo (core bank : Nat)
  deriving DecidableEq, Repr

/-- A window: virtual base, size, storage base. -/
structure Window where
  part : Nat
  team : Nat
  base : Nat
  size : Nat
  storage : Nat
  kind : WinKind
  deriving DecidableEq, Repr

/-- The overlay of a tile at its tile directory (R152, R161). Holders are (core, context). -/
structure TileDir where
  /-- Its four 256-byte blocks, as storage address div 256 (R152). -/
  blocks : List Nat := []
  readers : List (Nat × Nat) := []
  writer : Option (Nat × Nat) := none
  locked : Bool := false
  stamp : Nat := 0
  /-- Hods whose read hold stands on the tile (R163). -/
  readHolds : List Nat := []
  deriving DecidableEq, Repr

/-- A queued reservation at its hod (R228, R229): (core, context, generation, request). -/
structure Resv where
  holder : Option (Nat × Nat × Nat × Nat) := none
  granted : Nat := 0
  queue : List (Nat × Nat × Nat × Nat) := []
  deriving DecidableEq, Repr

/-- A checkpoint image in the safe tier (R422 to R425): which frames it holds (none: every frame of the module), and
whether a media error or a reset has made it invalid; memory with its tags, region and stripe tables, partition
rectangles with their key slots, and the teams and grids of the placement queues. -/
structure CkImage where
  frames : Option (List Nat)
  valid : Bool
  mem : Mem
  tags : List Nat
  regions : Sparse Region
  parts : Sparse Partition
  /-- The key-slot assignments (R425). -/
  slots : Sparse Nat
  teams : Sparse Team
  grids : Sparse Grid
  images : Sparse Image
  deriving DecidableEq, Repr

/-- The whole machine. -/
structure State where
  cores : Sparse Core
  sites : Sparse Site
  mods : Sparse Module
  banks : Sparse Bank
  mem : Mem
  /-- Tagged granules, as storage address div 16, rising (R69). -/
  tags : List Nat
  /-- Poisoned 128-byte lines of memory, as storage address div 128 (R406). -/
  poison : List Nat
  /-- Bytes of placed code as they stood before any store to them, and the stores made to placed code, oldest first
  (R105). -/
  codeOld : Sparse Byte
  codeStores : List (List (Nat × Byte))
  windows : List Window
  regions : Sparse Region
  /-- Doublewords with bits that ERRINJ has altered and no check has met yet (R359): where each stands, and the mask. -/
  flips : List (ErrUnit × Word) := []
  tileDirs : Sparse TileDir
  resv : Sparse Resv
  parts : Sparse Partition
  images : Sparse Image
  teams : Sparse Team
  grids : Sparse Grid
  teamNext : Nat
  /-- Checkpoint images by module · 2^48 + image window address. -/
  ckImages : Sparse CkImage
  cur : Nat
  ctx : Nat
  agenda : List Event
  nextCycle : List Event
  stalled : Bool
  /-- Core cycles that have passed, and by site their number at its last reset: CYCLE of a core that is not listed (R212). -/
  ticks : Nat := 0
  born : Sparse Nat := []
  free : Nat
  deriving DecidableEq, Repr

/-- Why the machine stops. -/
inductive Fault where
  /-- Raised by `step` alone, where no agent of any module can move: no step is on the agenda and the
  current core's module has no power or has not finished its reset (R428, R430). Safe: the hardware
  stands still too, until an input from outside arrives. -/
  | stopped
  deriving DecidableEq, Repr

/-- Why an instruction has no meaning. -/
inductive Refusal where
  /-- Raised by `exec` alone, for an instruction that has no meaning yet. Safe. -/
  | notModelled (mnemonic : String)
  deriving DecidableEq, Repr

/-- Storage of teams' code and tables (log 11). -/
def teamStore : Nat := 2 ^ 49

/-- First byte of a team's window of virtual addresses: its code section, tables from 2^28, regions from 2^30, FIFOs from 2^31
(log 11). -/
def teamWindow (uid : Nat) : Nat := 2 ^ 47 + uid * 2 ^ 32

/-- The root table that firmware gives a partition (R361, R397), a free value (log 34). -/
def rootWord (part : Nat) : Word := (Config.rootTable part).setWidth 64 <<< 12

/-- The hod team of a partition (R354), image 2: it stands on the hods, and on no core. Its code section is in the window (log 4). -/
def hodTeam (part site : Nat) : Team :=
  { grid := 0, idx := 0, part, image := 2, w := 0, h := 0, cls := 0, state := .placed, site, dropOpen := false }

/-- Where the code of a partition's hod team stands (R354). -/
def hodWindow (part uid : Nat) : Window := ⟨part, uid, teamWindow uid, 2 ^ 28, teamStore + uid * 2 ^ 32, .code⟩

/-- An instance of a partition's runtime image on one core (R352). -/
def runtimeTeam (part image core : Nat) : Team :=
  { grid := 0, idx := 0, part, image, w := 1, h := 1, cls := 0, state := .placed, site := core / 1024
    row0 := core % 1024 / 32, col0 := core % 32, dropOpen := false }

/-- The module right after a MODULE or POWER-ON reset (R428, R429): every store wiped to zero, every bank in
CACHE, service begun. The one partition is the model's own firmware configuration: all 24 sites of module 0,
object types 0x100 to 0xFFF, key slot 0, in lifecycle DEPLOYED (DESIGN CHOICE, log 3), with the fuses and keys of logs 7 and 8.
The hod team is placed, and the site runtime on each site, with images whose code is not in the spec (log 4). Every register's
value is the wipe's zero (R6, R429), or R90's generator state 1. -/
def State.reset : State where
  cores := (List.range 24).map fun n => (n * 1024, { team := some (n + 2) })
  sites := (List.range 24).map fun n => (n, {})
  mods := [(0, { slots := [(0, 0)], keys := [(0, (0, Config.key 0, Config.key 1))],
                 fuses := { fwkeyh := Config.fwKeyHash, attkeyh := Config.attKeyHash, uds := Config.uds, life := 3 } })]
  banks := []
  mem := []
  tags := []
  poison := []
  codeOld := []
  codeStores := []
  windows := [hodWindow 0 1]
  regions := []
  tileDirs := []
  resv := []
  parts := [(0, { mod := 0, sx0 := 0, sy0 := 0, w := 6, h := 4, sealLo := 0x100, sealHi := 0xFFF, troot := rootWord 0 })]
  images := [(1, { sup := true, shape := some (1, 1) }), (2, { sup := true, hod := true })]
  teams := (1, hodTeam 0 0) :: (List.range 24).map fun n => (n + 2, runtimeTeam 0 1 (n * 1024))
  grids := []
  teamNext := 26
  ckImages := []
  cur := 0
  ctx := 0
  agenda := []
  nextCycle := []
  stalled := false
  free := 2

end Sys2Proof.Machine
end

