-- ==== Sys2Proof/Machine/Flags.lean ====
section
/-!
DEFINITION. Floating-point and integer formats, exact arithmetic, rounding and FPSTAT flags (R83 to R94, R287).
A number is decoded to an `Exact` value, operated on without rounding, and rounded once into its format.
-/
namespace Sys2Proof.Machine

/-- How a format uses its all-ones exponent (R83). -/
inductive FmtKind where
  | ieee | e5m2 | e4m3 | e2m1
  deriving DecidableEq, Repr

/-- A floating-point format (R83). -/
structure Fmt where
  exp : Nat
  frac : Nat
  kind : FmtKind := .ieee
  deriving DecidableEq, Repr

/-- What rounding works with besides its operand: the generator state and the flags raised so far (R89, R91). -/
structure FpEnv where
  sr : BitVec 32
  flags : BitVec 5
  deriving DecidableEq, Repr

def fmt64 : Fmt := { exp := 11, frac := 52 }
def fmt32 : Fmt := { exp := 8, frac := 23 }
def fmt16 : Fmt := { exp := 5, frac := 10 }
def fmtBf16 : Fmt := { exp := 8, frac := 7 }
def fmtE4m3 : Fmt := { exp := 4, frac := 3, kind := .e4m3 }
def fmtE5m2 : Fmt := { exp := 5, frac := 2, kind := .e5m2 }
def fmtE2m1 : Fmt := { exp := 2, frac := 1, kind := .e2m1 }

/-- FPSTAT flag bits (R90). -/
def flagNV : BitVec 5 := 16
def flagDZ : BitVec 5 := 8
def flagOF : BitVec 5 := 4
def flagUF : BitVec 5 := 2
def flagNX : BitVec 5 := 1

/-- The bias of a format (R83). -/
def Fmt.bias (f : Fmt) : Int := 2 ^ (f.exp - 1) - 1

/-- The exponent of a format's smallest quantum, 1 − b − m (R88). -/
def Fmt.emin (f : Fmt) : Int := 1 - f.bias - f.frac

/-- Width in bits. -/
def Fmt.bits (f : Fmt) : Nat := f.exp + f.frac + 1

/-- The sign bit of a format. -/
def Fmt.signBit (f : Fmt) (neg : Bool) : Nat := if neg then 2 ^ (f.exp + f.frac) else 0

/-- The canonical NaN (R84); E2M1 has none and takes +0 (R94). -/
def Fmt.nanCode (f : Fmt) : Nat :=
  match f.kind with
  | .e4m3 => 0x7F
  | .e2m1 => 0
  | _ => (2 ^ f.exp - 1) * 2 ^ f.frac + 2 ^ (f.frac - 1)

/-- The code of +∞, where the format has one. -/
def Fmt.infCode (f : Fmt) : Nat := (2 ^ f.exp - 1) * 2 ^ f.frac

/-- The code of the largest finite value (R83). -/
def Fmt.maxCode (f : Fmt) : Nat :=
  match f.kind with
  | .e4m3 => 0x7E
  | .e2m1 => 7
  | _ => f.infCode - 1

/-- The value of a code, and whether it is a signalling NaN (R83, R84). -/
def Fmt.decode (f : Fmt) (code : Nat) : Exact × Bool :=
  let fr := code % 2 ^ f.frac
  let e := code / 2 ^ f.frac % 2 ^ f.exp
  let neg := code / 2 ^ (f.exp + f.frac) % 2 == 1
  let fin : Exact × Bool :=
    if e = 0 then (.fin neg fr f.emin, false) else (.fin neg (2 ^ f.frac + fr) (f.emin + (e - 1 : Nat)), false)
  if e + 1 = 2 ^ f.exp then
    match f.kind with
    | .e2m1 => fin
    | .e4m3 => if fr = 7 then (.nan, false) else fin
    | .e5m2 => if fr = 0 then (.inf neg, false) else (.nan, false)
    | .ieee => if fr = 0 then (.inf neg, false) else (.nan, fr < 2 ^ (f.frac - 1))
  else fin

/-- `n` shifted left by an integer count that is not negative. -/
def shlInt (n : Nat) (k : Int) : Nat := n * 2 ^ k.toNat

/-- One step of the generator (R89). -/
def srNext (x : BitVec 32) : BitVec 32 :=
  let x := x ^^^ (x <<< 13)
  let x := x ^^^ (x >>> 17)
  x ^^^ (x <<< 5)

/-- Whether the significand just below is raised (R87): `rem`/2^`k` of a quantum is cut off from `lo`. -/
def roundUp (mode : Nat) (draw : Nat) (neg : Bool) (lo rem k : Nat) : Bool :=
  if rem = 0 then false
  else match mode with
    | 0 => 2 * rem > 2 ^ k || (2 * rem == 2 ^ k && lo % 2 == 1)
    | 2 => neg
    | 3 => !neg
    | 4 => 2 * rem ≥ 2 ^ k
    | 5 => rem * 2 ^ 24 / 2 ^ k + draw ≥ 2 ^ 24
    | _ => false

/-- `m`·2^`e` rounded to a multiple of 2^`q`: the multiple, and whether it differs (R88). -/
def roundAt (mode draw : Nat) (neg : Bool) (m : Nat) (e q : Int) : Nat × Bool :=
  if q ≤ e then (shlInt m (e - q), false)
  else
    let k := (q - e).toNat
    let lo := m / 2 ^ k
    let rem := m % 2 ^ k
    (if roundUp mode draw neg lo rem k then lo + 1 else lo, rem != 0)

/-- The code of the quantum multiple `n`·2^`q` (R83): `q` is at least `emin`. -/
def Fmt.codeOf (f : Fmt) (n : Nat) (q : Int) : Nat := (q - f.emin).toNat * 2 ^ f.frac + n

/-- A finite value rounded into a format (R88, R94): the code and the flags. -/
def Fmt.roundFin (f : Fmt) (mode : Nat) (sat : Bool) (draw : Nat) (neg : Bool) (m : Nat) (e : Int) :
    Nat × BitVec 5 :=
  if m = 0 then (f.signBit neg, 0)
  else
    let len : Int := m.log2 + 1
    let q' := e + len - (f.frac + 1 : Nat)
    let q := max q' f.emin
    let (n', _) := roundAt mode draw neg m e q'
    let (n, inexact) := roundAt mode draw neg m e q
    -- v′ against the format's range (R88): its exponent of one unit in the last place is q′
    let ovf := f.emin < q' && f.codeOf n' q' > f.maxCode
    let tiny := q' < f.emin && n' < 2 ^ (f.frac + (f.emin - q').toNat)
    if ovf then
      let toMax := f.maxCode + f.signBit neg
      let toInf := if f.kind = .e4m3 then f.nanCode else f.infCode + f.signBit neg
      let code :=
        if sat || f.kind = .e2m1 then toMax
        else match mode with
          | 1 => toMax
          | 2 => if neg then toInf else toMax
          | 3 => if neg then toMax else toInf
          | _ => toInf
      (if f.kind = .e4m3 && !sat then f.nanCode else code, flagOF ||| flagNX)
    else
      let fl := (if inexact then flagNX else 0) ||| (if tiny && inexact then flagUF else 0)
      (f.codeOf n q + f.signBit neg, fl)

/-- One rounding in the context's order (R89): the generator advances once whatever is rounded. `fl` holds the
flags the operation itself raised. Infinities and NaNs follow R92 and R94. -/
def FpEnv.round (env : FpEnv) (f : Fmt) (mode : Nat) (sat : Bool) (v : Exact) (fl : BitVec 5) : Nat × FpEnv :=
  let sr := if mode = 5 then srNext env.sr else env.sr
  let put := fun (code : Nat) (fl' : BitVec 5) => (code, (⟨sr, env.flags ||| fl ||| fl'⟩ : FpEnv))
  match v with
  | .nan => put f.nanCode (if f.kind = .e2m1 then flagNV else 0)
  | .inf neg =>
    if sat || f.kind = .e2m1 then put (f.maxCode + f.signBit neg) flagNX
    else if f.kind = .e4m3 then put f.nanCode flagNV
    else put (f.infCode + f.signBit neg) 0
  | .fin neg m e =>
    let (code, fl') := f.roundFin mode sat (sr.toNat / 2 ^ 8) neg m e
    put code fl'

/-- FPSTAT's part that rounding uses (R90). -/
def FpEnv.of (fpstat : Word) : FpEnv := ⟨fpstat.extractLsb' 32 32, fpstat.extractLsb' 0 5⟩

/-- FPSTAT after the roundings of an instruction. -/
def FpEnv.put (env : FpEnv) (fpstat : Word) : Word :=
  env.sr ++ fpstat.extractLsb' 5 27 ++ env.flags

/-- FPSTAT.RM (R90). -/
def fpMode (fpstat : Word) : Nat := (fpstat.extractLsb' 8 3).toNat

/-- FPSTAT after a CSRW of `w` (R90): SRSTATE written, zero stored as one; RM written unless 6 or 7; flags
cleared where written one. -/
def fpstatWrite (old w : Word) : Word :=
  let sr : BitVec 32 := w.extractLsb' 32 32
  let rm : BitVec 3 := w.extractLsb' 8 3
  (if sr = 0 then 1 else sr) ++ (0 : BitVec 21) ++ (if 6 ≤ rm.toNat then old.extractLsb' 8 3 else rm)
    ++ (0 : BitVec 3) ++ (old.extractLsb' 0 5 &&& ~~~(w.extractLsb' 0 5))

/-- FPSTAT after a write of `w` to SRSEED (R90). -/
def srseedWrite (old w : Word) : Word :=
  let sr : BitVec 32 := w.extractLsb' 0 32
  (if sr = 0 then 1 else sr) ++ old.extractLsb' 0 32

end Sys2Proof.Machine

namespace Sys2Proof.Exact
open Sys2Proof.Machine


/-- −x. -/
def neg : Exact → Exact
  | .nan => .nan
  | .inf n => .inf !n
  | .fin n m e => .fin (!n) m e

/-- The sign of a value. -/
def isNeg : Exact → Bool
  | .nan => false
  | .inf n => n
  | .fin n _ _ => n

/-- A zero of either sign. -/
def isZero : Exact → Bool
  | .fin _ m _ => m == 0
  | _ => false

/-- A finite value as an integer number of units 2^`q`, for `q` no larger than its exponent. -/
def units (q : Int) : Exact → Int
  | .fin n m e => if n then -(shlInt m (e - q) : Int) else shlInt m (e - q)
  | _ => 0

/-- The exponent of a finite value. -/
def expo : Exact → Int
  | .fin _ _ e => e
  | _ => 0

/-- An integer. -/
def ofInt (i : Int) : Exact := .fin (i < 0) i.natAbs 0

/-- The sign of an exact zero sum (R88): both zero with one sign keep it; otherwise +0, −0 in RDN. -/
def zeroSum (mode : Nat) (signs : List Bool) : Bool :=
  if signs.all (· == true) then true
  else if signs.all (· == false) then false
  else mode == 2

/-- The exact sum of a list (R88, R95, R96), with NV for infinities of both signs, beside a NaN too (R92). NaNs give
NaN. -/
def sum (mode : Nat) (xs : List Exact) : Exact × BitVec 5 :=
  let pos := xs.any (· == .inf false)
  let ngt := xs.any (· == .inf true)
  if pos && ngt then (.nan, flagNV)
  else if xs.any (· == .nan) then (.nan, 0)
  else if pos then (.inf false, 0)
  else if ngt then (.inf true, 0)
  else
    let q := xs.foldl (fun q x => min q x.expo) (xs.headD (.fin false 0 0)).expo
    let t : Int := xs.foldl (fun t x => t + x.units q) 0
    if t = 0 then (.fin (zeroSum mode (xs.map isNeg)) 0 q, 0) else (.fin (t < 0) t.natAbs q, 0)

/-- The exact product, with NV for 0 × ∞ (R92). -/
def mul (x y : Exact) : Exact × BitVec 5 :=
  match x, y with
  | .nan, _ => (.nan, 0)
  | _, .nan => (.nan, 0)
  | .fin a m e, .fin b n g => (.fin (a != b) (m * n) (e + g), 0)
  | x, y => if x.isZero || y.isZero then (.nan, flagNV) else (.inf (x.isNeg != y.isNeg), 0)

/-- The quotient, exact or with a sticky last bit 90 places below its leading bit (R92, R284). -/
def div (x y : Exact) : Exact × BitVec 5 :=
  match x, y with
  | .nan, _ => (.nan, 0)
  | _, .nan => (.nan, 0)
  | .inf _, .inf _ => (.nan, flagNV)
  | .inf a, .fin b _ _ => (.inf (a != b), 0)
  | .fin a _ _, .inf b => (.fin (a != b) 0 0, 0)
  | .fin a m e, .fin b n g =>
    if n = 0 then (if m = 0 then (.nan, flagNV) else (.inf (a != b), flagDZ))
    else
      let k := n.log2 + 90
      let q := m * 2 ^ k / n
      let sticky := if m * 2 ^ k % n = 0 then 0 else 1
      (.fin (a != b) (2 * q + sticky) (e - g - k - 1), 0)

/-- The integer square root, one result bit a step from bit `k` down. -/
def isqrt (n : Nat) : Nat → Nat → Nat
  | 0, r => r
  | k + 1, r =>
    let r' := r + 2 ^ k
    isqrt n k (if r' * r' ≤ n then r' else r)

/-- The square root, exact or with a sticky last bit (R92, R284). -/
def sqrt (x : Exact) : Exact × BitVec 5 :=
  match x with
  | .nan => (.nan, 0)
  | .inf n => if n then (.nan, flagNV) else (.inf false, 0)
  | .fin n m e =>
    if m = 0 then (.fin n 0 0, 0)
    else if n then (.nan, flagNV)
    else
      let odd := e % 2 = 1
      let m' := (if odd then 2 * m else m) * 2 ^ 180
      let e' := (if odd then e - 1 else e) - 180
      let r := isqrt m' (m'.log2 / 2 + 1) 0
      (.fin false (2 * r + (if r * r = m' then 0 else 1)) (e' / 2 - 1), 0)

/-- Whether x < y for values that are not NaN; −0 equals +0. -/
def lt (x y : Exact) : Bool :=
  match x, y with
  | .nan, _ => false
  | _, .nan => false
  | .inf a, .inf b => a && !b
  | .inf a, _ => a
  | _, .inf b => !b
  | x, y => let q := min x.expo y.expo; x.units q < y.units q

/-- Whether x = y as numbers; −0 equals +0, and NaN equals nothing. -/
def eq (x y : Exact) : Bool :=
  match x, y with
  | .nan, _ => false
  | _, .nan => false
  | .inf a, .inf b => a == b
  | .inf _, _ => false
  | _, .inf _ => false
  | x, y => let q := min x.expo y.expo; x.units q == y.units q

/-- The integer a finite value rounds to in a mode, and whether it differs (R94). -/
def toInt (mode draw : Nat) (neg : Bool) (m : Nat) (e : Int) : Int × Bool :=
  let (n, d) := roundAt mode draw neg m e 0
  (if neg then -(n : Int) else n, d)

end Sys2Proof.Exact

namespace Sys2Proof.Machine


/-- NV where an operand is a signalling NaN (R92). -/
def snanFlag (sig : Bool) : BitVec 5 := if sig then flagNV else 0

/-- minimumNumber or maximumNumber (R93) on codes of a format. -/
def fpMinMax (f : Fmt) (isMax : Bool) (x y : Nat) : Nat × BitVec 5 :=
  let (a, sa) := f.decode x
  let (b, sb) := f.decode y
  let fl := snanFlag (sa || sb)
  let less := a.lt b || (a.eq b && a.isNeg && !b.isNeg)
  match a, b with
  | .nan, .nan => (f.nanCode, fl)
  | .nan, _ => (y, fl)
  | _, .nan => (x, fl)
  | _, _ => (if isMax then (if less then y else x) else (if less then x else y), fl)

/-- The format of a floating element type (R173). -/
def typeFmt (code : Nat) : Option Fmt :=
  match code with
  | 8 => some fmt64
  | 9 => some fmt32
  | 10 => some fmt16
  | 11 => some fmtBf16
  | 12 => some fmtE4m3
  | 13 => some fmtE5m2
  | 14 => some fmtE2m1
  | _ => none

/-- The bits of an integer element type and whether it is signed (R86, R173). -/
def typeInt (code : Nat) : Option (Nat × Bool) :=
  match code with
  | 0 => some (8, true)
  | 1 => some (8, false)
  | 2 => some (16, true)
  | 3 => some (32, true)
  | 4 => some (64, true)
  | 5 => some (4, true)
  | _ => none

/-- The value of the low `w` bits of `n` as a signed or unsigned integer. -/
def intOf (w : Nat) (signed : Bool) (n : Nat) : Int :=
  let x := n % 2 ^ w
  if signed && 2 ^ (w - 1) ≤ x then (x : Int) - 2 ^ w else x

/-- The low `w` bits of an integer. -/
def natOf (w : Nat) (i : Int) : Nat := (i % (2 ^ w : Int)).toNat

/-- The range of an integer type. -/
def intMin (w : Nat) (signed : Bool) : Int := if signed then -(2 ^ (w - 1)) else 0
def intMax (w : Nat) (signed : Bool) : Int := if signed then 2 ^ (w - 1) - 1 else 2 ^ w - 1

/-- An integer clamped to a type's range (R86). -/
def clampInt (w : Nat) (signed : Bool) (i : Int) : Int := max (intMin w signed) (min (intMax w signed) i)

/-- A floating value converted to an integer type (R94): rounded in the mode, then clamped with NV. -/
def FpEnv.toIntType (env : FpEnv) (w : Nat) (signed : Bool) (mode : Nat) (v : Exact) (fl : BitVec 5) :
    Nat × FpEnv :=
  let sr := if mode = 5 then srNext env.sr else env.sr
  let put := fun (i : Int) (fl' : BitVec 5) => (natOf w i, (⟨sr, env.flags ||| fl ||| fl'⟩ : FpEnv))
  match v with
  | .nan => put 0 flagNV
  | .inf neg => put (if neg then intMin w signed else intMax w signed) flagNV
  | .fin neg m e =>
    let (i, inexact) := Exact.toInt mode (sr.toNat / 2 ^ 8) neg m e
    if clampInt w signed i ≠ i then put (clampInt w signed i) flagNV
    else put i (if inexact then flagNX else 0)

/-- Round to nearest even into a format with no flags kept (R225, R231, R256). -/
def roundPlain (f : Fmt) (v : Exact) : Nat := (FpEnv.round ⟨1, 0⟩ f 0 false v 0).1

/-- The sum of two codes of a format in RNE, with no flags (R225, R231). -/
def fpAddPlain (f : Fmt) (x y : Nat) : Nat :=
  roundPlain f (Exact.sum 0 [(f.decode x).1, (f.decode y).1]).1

/-- The exact value of an E8M0 scale (R85). -/
def scaleVal (b : Byte) : Exact := if b = 0xFF then .nan else .fin false 1 (b.toNat - 127 : Int)

end Sys2Proof.Machine
end

