-- ==== Sys2Proof/Machine/Operands.lean ====
section
/-!
DEFINITION. Operand forms: where a core, context, register, tile and capability field stand in the state, the
capability decode and checks (R63 to R68), destination descriptors (R18) and identifiers (R9, R214).
-/
namespace Sys2Proof.Machine

/-! Places. -/

/-- Site number of a core. -/
def siteOf (core : Nat) : Nat := core / 1024

/-- Module of a core. -/
def modOf (core : Nat) : Nat := core / 1024 / 24

/-- Row of a core in its site. -/
def rowOf (core : Nat) : Nat := core % 1024 / 32

/-- Column of a core in its site. -/
def colOf (core : Nat) : Nat := core % 32

/-- The core at a row and column of a site. -/
def coreAt (site row col : Nat) : Nat := site * 1024 + row * 32 + col

/-- Cluster of a core: 4 × 4 cores, numbered in row-major order (R9). -/
def clusterOf (core : Nat) : Nat := rowOf core / 4 * 8 + colOf core / 4

/-- First storage address of cluster SRAM. -/
def sramBase : Nat := 2 ^ 48

/-- The bank number of bank `b` of a core's cluster. -/
def bankNo (site cluster b : Nat) : Nat := (site * 64 + cluster) * 16 + b

/-- First storage address of a bank. -/
def bankBase (bank : Nat) : Nat := sramBase + bank * 2 ^ 18

/-- The bank of a storage address in cluster SRAM. -/
def bankOf (a : Nat) : Nat := (a - sramBase) / 2 ^ 18

/-- Site number of a bank. -/
def bankSite (bank : Nat) : Nat := bank / 1024

namespace State

/-- A core that is not listed is as its last reset left it but for CYCLE, which has counted since (R212). A core below the one
whose turn it is has had its turn of this cycle. -/
def idleCore (s : State) (k : Nat) : Core :=
  { cycle := s.ticks + (if k < s.cur then 1 else 0) - Sparse.get 0 s.born (siteOf k) }

def core (s : State) (k : Nat) : Core := Sparse.get (s.idleCore k) s.cores k
def setCore (s : State) (k : Nat) (c : Core) : State := { s with cores := Sparse.set s.cores k c }
def mapCore (s : State) (k : Nat) (f : Core → Core) : State := s.setCore k (f (s.core k))

def ctxAt (s : State) (k x : Nat) : Ctx := Sparse.get {} (s.core k).ctxs x
def setCtxAt (s : State) (k x : Nat) (t : Ctx) : State :=
  s.setCore k { s.core k with ctxs := Sparse.set (s.core k).ctxs x t }
def mapCtx (s : State) (k x : Nat) (f : Ctx → Ctx) : State := s.setCtxAt k x (f (s.ctxAt k x))

/-- The issuing core. -/
def here (s : State) : Core := s.core s.cur

/-- The issuing context. -/
def task (s : State) : Ctx := s.ctxAt s.cur s.ctx
def setTask (s : State) (t : Ctx) : State := s.setCtxAt s.cur s.ctx t
def mapTask (s : State) (f : Ctx → Ctx) : State := s.setTask (f s.task)

def site (s : State) (n : Nat) : Site := Sparse.get {} s.sites n
def setSite (s : State) (n : Nat) (t : Site) : State := { s with sites := Sparse.set s.sites n t }
def mapSite (s : State) (n : Nat) (f : Site → Site) : State := s.setSite n (f (s.site n))

def module (s : State) (n : Nat) : Module := Sparse.get { powered := false } s.mods n
def setModule (s : State) (n : Nat) (m : Module) : State := { s with mods := Sparse.set s.mods n m }
def mapModule (s : State) (n : Nat) (f : Module → Module) : State := s.setModule n (f (s.module n))

def mapNi (s : State) (k : Nat) (f : NI → NI) : State := s.mapCore k fun c => { c with ni := f c.ni }

def mapTeam (s : State) (n : Nat) (f : Team → Team) : State :=
  match Sparse.find s.teams n with
  | some t => { s with teams := Sparse.set s.teams n (f t) }
  | none => s

def mapGrid (s : State) (n : Nat) (f : Grid → Grid) : State :=
  match Sparse.find s.grids n with
  | some g => { s with grids := Sparse.set s.grids n (f g) }
  | none => s

def mapPart (s : State) (n : Nat) (f : Partition → Partition) : State :=
  match Sparse.find s.parts n with
  | some p => { s with parts := Sparse.set s.parts n (f p) }
  | none => s

/-- A bank (R106); one that nothing has configured stands in CACHE. -/
def bank (s : State) (n : Nat) : Bank := Sparse.get {} s.banks n
def setBank (s : State) (n : Nat) (b : Bank) : State := { s with banks := Sparse.set s.banks n b }
def mapBank (s : State) (n : Nat) (f : Bank → Bank) : State := s.setBank n (f (s.bank n))

/-- The team placed on a core. -/
def teamAt (s : State) (k : Nat) : Option Team := (s.core k).team.bind (Sparse.find s.teams)

/-- The image of a team. -/
def imageOf (s : State) (t : Team) : Image := Sparse.get {} s.images t.image

/-- The image of the team placed on a core. -/
def imageAt (s : State) (k : Nat) : Image :=
  match s.teamAt k with
  | some t => s.imageOf t
  | none => {}

/-- Whether a team is an instance of the site runtime: its image is the one that the partition's firmware configuration names
(R352). -/
def isRuntime (s : State) (t : Team) : Bool := (Sparse.find s.parts t.part).any fun p => p.runtime == t.image
def runtimeAt (s : State) (k : Nat) : Bool := (s.teamAt k).any s.isRuntime

/-- Whether tasks of a core run at supervisor level (R352). -/
def supAt (s : State) (k : Nat) : Bool := (s.imageAt k).sup

/-- The partition number of a core: that of its team, else the first whose rectangle holds its site. -/
def partAt (s : State) (k : Nat) : Nat :=
  match s.teamAt k with
  | some t => t.part
  | none =>
    let st := siteOf k
    match s.parts.find? fun (_, p) =>
      p.mod == st / 24 && p.sx0 ≤ st % 24 % 6 && st % 24 % 6 < p.sx0 + p.w
        && p.sy0 ≤ st % 24 / 6 && st % 24 / 6 < p.sy0 + p.h with
    | some (n, _) => n
    | none => 0

/-- A partition; absent ones read as an empty rectangle. -/
def part (s : State) (n : Nat) : Partition :=
  Sparse.get { mod := 0, sx0 := 0, sy0 := 0, w := 0, h := 0, sealLo := 0, sealHi := 0 } s.parts n

/-- The value a core holds of a partition-wide CSR (R360): the partition's, unless its last write has not arrived. -/
def csrAt (s : State) (k csr : Nat) : Word :=
  match Sparse.find (s.core k).csrOld csr with
  | some v => v
  | none =>
    let p := s.part (s.partAt k)
    match csr with
    | 0x802 => p.rvkbase
    | 0x803 => p.auditctl
    | 0x813 => p.fltdest
    | 0x814 => p.strbase
    | _ => p.mcdest

/-- The sites of a partition, ascending (R361). -/
def partSites (s : State) (n : Nat) : List Nat :=
  let p := s.part n
  (List.range p.h).flatMap fun y =>
    (List.range p.w).map fun x => p.mod * 24 + (p.sy0 + y) * 6 + p.sx0 + x

/-- The cores of a team in row-major order. -/
def teamCores (t : Team) : List Nat :=
  (List.range t.h).flatMap fun y => (List.range t.w).map fun x => coreAt t.site (t.row0 + y) (t.col0 + x)

/-- Whether a team holds a rectangle (R375). -/
def holdsCores (t : Team) : Bool :=
  t.state == .placed || t.state == .replay || t.state == .quiescing || t.state == .placing

/-- The cores a team holds: none while it waits for a place, and none once it has ended. -/
def heldCores (t : Team) : List Nat := if holdsCores t then teamCores t else []

/-- Append a step to the agenda. -/
def push (s : State) (e : Event) : State := { s with agenda := s.agenda ++ [e] }
def pushAll (s : State) (es : List Event) : State := { s with agenda := s.agenda ++ es }

/-- A step that cannot be taken yet is tried again in the next cycle. -/
def again (s : State) (e : Event) : State := { s with nextCycle := s.nextCycle ++ [e] }

/-- The step leaves the context where it is: its turn passes to the next ready one (R380). -/
def stalling (s : State) : State := { s with stalled := true }

/-- A fresh index into the free values. -/
def bump (s : State) : State := { s with free := s.free + 1 }

end State

/-- A stall (R33, R380): the instruction is not ready in this cycle and changes no architectural state. -/
def stall (s : State) : Host.Outcome State Fault Refusal := .next s.stalling

/-! Registers. -/

namespace Ctx

/-- gn as it stands (R60): g0 reads as untagged, untainted zero. -/
def gr (t : Ctx) (n : Nat) : Reg := if n = 0 then {} else Sparse.get {} t.g n
def putG (t : Ctx) (n : Nat) (r : Reg) : Ctx := if n = 0 then t else { t with g := Sparse.set t.g n r }
def vr (t : Ctx) (n : Nat) : VReg := Sparse.get {} t.v n
def putV (t : Ctx) (n : Nat) (r : VReg) : Ctx := { t with v := Sparse.set t.v n r }

/-- mn (R60): m0 reads as all ones, untainted. -/
def mr (t : Ctx) (n : Nat) : MReg := if n = 0 then ⟨BitVec.allOnes 64, 0⟩ else Sparse.get {} t.m n
def putM (t : Ctx) (n : Nat) (r : MReg) : Ctx := if n = 0 then t else { t with m := Sparse.set t.m n r }

/-- Whether a register awaits a value (R81). -/
def busy (t : Ctx) (d : Dest) : Bool := t.pend.any fun p => p.dest == d

/-- The taint of the registers and held-B register without slot `n` (R76). -/
def clearTaint (t : Ctx) (b : BitVec 8) : Ctx :=
  { t with
    g := Sparse.mapVals (fun r => { r with taint := r.taint &&& ~~~b }) t.g
    v := Sparse.mapVals (fun r => { r with taint := r.taint &&& ~~~b }) t.v
    m := Sparse.mapVals (fun r => { r with taint := r.taint &&& ~~~b }) t.m
    heldB := t.heldB.map fun h => { h with taint := h.taint &&& ~~~b }
    pend := t.pend.map fun p => { p with deps := p.deps &&& ~~~b } }

/-- The slot a new load takes (R74): the lowest free of 0 to 6, else 7. -/
def slotFor (t : Ctx) : Nat :=
  match (List.range 7).find? fun i => !t.slots.getLsbD i with
  | some i => i
  | none => 7

/-- The context with slot `n` taken (R74). -/
def takeSlot (t : Ctx) (n : Nat) : Ctx :=
  { t with slots := t.slots ||| 1#8 <<< n, slot7 := if n = 7 then t.slot7 + 1 else t.slot7 }

/-- The taint left by a load that binds as it issues (R74, R76): none, unless it shares slot 7 with loads that are not
bound yet. -/
def momentTaint (t : Ctx) : BitVec 8 := if t.slotFor = 7 ∧ 0 < t.slot7 then 1#8 <<< 7 else 0

/-- A taint without the slots that have been bound between two states of a context (R76): `t` is the earlier. -/
def liveTaint (t t' : Ctx) (b : BitVec 8) : BitVec 8 := b &&& ~~~(t.slots &&& ~~~t'.slots)

end Ctx

/-- The one-bit mask of a slot. -/
def slotBit (n : Nat) : BitVec 8 := 1#8 <<< n

namespace State

/-- The general register a field names. -/
def g (s : State) (r : BitVec 6) : Reg := s.task.gr r.toNat
def v (s : State) (n : Nat) : VReg := s.task.vr n
def m (s : State) (n : Nat) : MReg := s.task.mr n

/-- Whether a general register awaits a deposit (R81). -/
def busyG (s : State) (r : BitVec 6) : Bool := s.task.busy (.g r.toNat)
def busyV (s : State) (n : Nat) : Bool := s.task.busy (.v n)

/-- A slot becomes bound (R76): its bit clears in every register, mask, stream binding and tile of the context.
Slot 7 does so with its last load. -/
def bindSlot (s : State) (k x n : Nat) : State :=
  let t := s.ctxAt k x
  if n = 7 && 1 < t.slot7 then s.setCtxAt k x { t with slot7 := t.slot7 - 1 }
  else
    let t' := { t.clearTaint (slotBit n) with slots := t.slots &&& ~~~slotBit n, slot7 := if n = 7 then 0 else t.slot7 }
    let c := s.core k
    s.setCore k { c with
      ctxs := Sparse.set c.ctxs x t'
      tiles := Sparse.mapVals (fun a => if a.owner = some x then { a with taint := a.taint &&& ~~~slotBit n } else a)
        c.tiles }

/-- The deposits pending on a destination are cancelled, and their slots bound (R81). -/
def cancel (s : State) (d : Dest) : State :=
  let hit := s.task.pend.filter fun p => p.dest == d
  if hit.isEmpty then s
  else
    let s := s.mapTask fun t =>
      { t with pend := t.pend.map fun p => if p.dest == d then { p with dest := .none, slot := none, cancelled := true } else p }
    (hit.filterMap (·.slot)).foldl (fun s n => s.bindSlot s.cur s.ctx n) s

/-- A taint gathered before the deposits pending on a destination were cancelled, without the slots that this has
bound (R76, R81). -/
def cancelTaint (s : State) (d : Dest) (b : BitVec 8) : BitVec 8 := s.task.liveTaint (s.cancel d).task b

/-- WriteG (R183): discards a write to g0, and cancels a pending deposit. -/
def writeG (s : State) (n : Nat) (r : Reg) : State :=
  if n = 0 then s
  else (s.cancel (.g n)).mapTask fun t => t.putG n { r with taint := s.cancelTaint (.g n) r.taint }

/-- An integer result: untagged, with a zero descriptor (R63, R188). -/
def writeInt (s : State) (d : BitVec 6) (val : Word) (taint : BitVec 8) : State :=
  s.writeG d.toNat { val, taint }

def writeV (s : State) (n : Nat) (r : VReg) : State :=
  (s.cancel (.v n)).mapTask fun t => t.putV n { r with taint := s.cancelTaint (.v n) r.taint }
def writeM (s : State) (n : Nat) (r : MReg) : State := s.mapTask fun t => t.putM n r

/-- An operation of the issuing context's registers, done for context `x` of core `k`. -/
def asCtx (s : State) (k x : Nat) (f : State → State) : State :=
  { f { s with cur := k, ctx := x } with cur := s.cur, ctx := s.ctx }

/-- The repeat frame that a context's instructions come from (R178, R181). -/
def runningFrame (t : Ctx) : Option Frame := t.frame.filter (!·.suspended)

/-- The next PC (R43, R178, R181): four bytes on, or, in a repeat frame, the next body instruction, with NEXT
and COUNT kept in rc; the frame's end continues after the body. -/
def advance (s : State) : State :=
  match runningFrame s.task with
  | none => s.mapTask fun t => { t with pc := t.pc + 4, retired := t.retired + 1 }
  | some f =>
    let r := s.task.gr f.rc
    let count : BitVec 32 := r.val.extractLsb' 0 32
    let next := (r.val.extractLsb' 32 4).toNat + 1
    let last := next = f.len
    let count' := if last then count - 1 else count
    let next' : BitVec 4 := if last then 0 else BitVec.ofNat 4 next
    let s := s.mapTask fun t =>
      { t.putG f.rc { r with val := (0 : BitVec 28) ++ next' ++ count', tag := false, desc := 0 } with
        retired := t.retired + 1 }
    if last && count' = 0 then
      s.mapTask fun t => { t with pc := t.pc + 4 + 4 * BitVec.ofNat 64 f.len, frame := none }
    else s

end State

/-- The instruction retires: the PC moves on. -/
def retire (s : State) : Host.Outcome State Fault Refusal := .next s.advance

/-! Capabilities. -/

/-- Permission bits, as bits of PERMS (R64). -/
def pLD : Nat := 11
def pST : Nat := 10
def pLDC : Nat := 9
def pSTC : Nat := 8
def pEXEC : Nat := 7
def pSEAL : Nat := 6
def pUNSEAL : Nat := 5
def pSYNC : Nat := 4
def pSENDABS : Nat := 3
def pREC : Nat := 2
def pGLOBAL : Nat := 1
def pSYS : Nat := 0

/-- Descriptor fields (R63). -/
def capPerms (d : Word) : BitVec 12 := d.extractLsb' 52 12
def capOtype (d : Word) : BitVec 12 := d.extractLsb' 40 12
def capE (d : Word) : Nat := (d.extractLsb' 34 6).toNat
def capB (d : Word) : Nat := (d.extractLsb' 17 17).toNat
def capT (d : Word) : Nat := (d.extractLsb' 0 17).toNat

/-- A descriptor from its fields (R63). -/
def mkDesc (perms : BitVec 12) (otype : BitVec 12) (e : Nat) (b t : Nat) : Word :=
  perms ++ otype ++ BitVec.ofNat 6 e ++ BitVec.ofNat 17 b ++ BitVec.ofNat 17 t

/-- PERMS with the named permissions. -/
def permSet (ps : List Nat) : BitVec 12 := ps.foldl (fun a p => a ||| 1#12 <<< p) 0

/-- Whether a descriptor holds a permission. -/
def hasPerm (d : Word) (p : Nat) : Bool := (capPerms d).getLsbD p

/-- The bounds decode of R65: base and top of a descriptor at a cursor. -/
def capBounds (d a : Word) : Nat × Nat :=
  let e := capE d
  let b := capB d
  let t := capT d
  if 47 < e then (0, 0)
  else
    let w := e + 17
    let rb := (b + 2 ^ 17 - 0x1000) % 2 ^ 17
    let amid := a.toNat / 2 ^ e % 2 ^ 17
    let ia : Int := if amid < rb then 1 else 0
    let ib : Int := if b < rb then 1 else 0
    let it : Int := if t < rb then 1 else 0
    let hi : Int := if w = 64 then 0 else ((a.toNat / 2 ^ w : Nat) : Int)
    let base := (((hi + ib - ia) * 2 ^ w + b * 2 ^ e) % (2 ^ 64 : Int)).toNat
    let top := (((hi + it - ia) * 2 ^ w + t * 2 ^ e) % (2 ^ 65 : Int)).toNat
    if e = 47 && b = t then (base, base + 2 ^ 64) else (base, top)

/-- R66: the cursor `v` is representable for the capability. -/
def representable (c : Reg) (v : Word) : Bool := capBounds c.desc v == capBounds c.desc c.val

/-- A capability value as a register. -/
def capReg (c : CapVal) : Reg := { val := c.val, desc := c.desc, tag := c.tag }
def Reg.toCap (r : Reg) : CapVal := ⟨r.val, r.desc, r.tag⟩

/-- The register with its cursor moved, its tag kept while representable (R66). -/
def Reg.move (r : Reg) (v : Word) : Reg := { r with val := v, tag := r.tag && representable r v }

/-- Trap causes (R399). -/
def cILLEGAL : Nat := 1
def cCAP : Nat := 2
def cALIGN : Nat := 3
def cBUDGET : Nat := 4
def cBREAK : Nat := 5
def cTRAP : Nat := 6
def cSENDFAIL : Nat := 7
def cPARKLIMIT : Nat := 8
def cPOISON : Nat := 9
def cMCHECK : Nat := 10

/-- Tag, seal and permission (R68), with SYS only for supervisor tasks (R353). -/
def capHolds (sup : Bool) (c : Reg) (perms : List Nat) : Bool :=
  c.tag && capOtype c.desc == 0 && perms.all (hasPerm c.desc) && (sup || !hasPerm c.desc pSYS)

/-- An access of `n` bytes at `x` lies within the bounds (R65). -/
def inBounds (c : Reg) (x : Word) (n : Nat) : Bool :=
  let (base, top) := capBounds c.desc c.val
  base ≤ x.toNat && x.toNat + n ≤ top

/-- CapCheck (R183): the first failing condition of R68, as a trap cause. -/
def capFault (sup : Bool) (c : Reg) (x : Word) (n : Nat) (perms : List Nat) (align : Nat) : Option Nat :=
  if !capHolds sup c perms || !inBounds c x n then some cCAP
  else if x.toNat % align ≠ 0 then some cALIGN
  else none

/-- The bounds of a set of bytes exactly, where a descriptor encodes them with E = 0 or a coarser granule. -/
def capOver (perms : List Nat) (lo size : Nat) : CapVal :=
  let e := (List.range 48).find? fun e =>
    (lo + size + 2 ^ e - 1) / 2 ^ e - lo / 2 ^ e ≤ 0x1EFFF
  let e := e.getD 47
  ⟨BitVec.ofNat 64 lo, mkDesc (permSet perms) 0 e (lo / 2 ^ e) ((lo + size + 2 ^ e - 1) / 2 ^ e), true⟩

/-! Bytes. -/

/-- Little-endian bytes of a number. -/
def bytesOf : Nat → Nat → List Byte
  | 0, _ => []
  | k + 1, n => BitVec.ofNat 8 n :: bytesOf k (n / 256)

/-- The number little-endian bytes hold. -/
def ofBytes : List Byte → Nat
  | [] => 0
  | b :: t => b.toNat + 256 * ofBytes t

/-- `n` consecutive addresses. -/
def addrRange (a n : Nat) : List Nat := (List.range n).map (a + ·)

/-- Sign extension of the low `w` bits to 64 (R183). -/
def sext64 {w : Nat} (x : BitVec w) : Word := x.signExtend 64

/-! Identifiers and descriptors. -/

/-- MSGID of a message of a core's NI (R214). -/
def coreMsgId (core seq : Nat) : Word :=
  BitVec.ofNat 64 (modOf core * 2 ^ 40 + siteOf core % 24 * 2 ^ 32 + rowOf core * 2 ^ 24 + colOf core * 2 ^ 16
    + seq % 2 ^ 16)

/-- MSGID of another agent of a site (R214): SRC 1 a hod of a slice, 2 the sequencer, 3 the site controller. -/
def siteMsgId (src site slice seq : Nat) : Word :=
  BitVec.ofNat 64 (site / 24 * 2 ^ 40 + site % 24 * 2 ^ 32 + src * 2 ^ 30 + slice * 2 ^ 16 + seq % 2 ^ 16)

/-- What a destination descriptor resolves to (R19). -/
inductive Resolved where
  | trap (cause : Nat)
  | core (k : Nat) (team : Option (Nat × Nat))
  deriving DecidableEq, Repr

/-- Fields of a destination descriptor (R18). -/
def dMode (d : Word) : Nat := (d.extractLsb' 62 2).toNat
def dClass (d : Word) : Nat := (d.extractLsb' 60 2).toNat
def dWrap (d : Word) : Bool := d.getLsbD 59
def dTeam (d : Word) : Nat := (d.extractLsb' 40 16).toNat
def dModule (d : Word) : Nat := (d.extractLsb' 37 3).toNat
def dSite (d : Word) : Nat := (d.extractLsb' 32 5).toNat
def dHandler (d : Word) : Nat := (d.extractLsb' 16 12).toNat
def dY (d : Word) : BitVec 6 := d.extractLsb' 6 6
def dX (d : Word) : BitVec 6 := d.extractLsb' 0 6

/-- R19, first group: the form of the descriptor. -/
def dFormBad (d : Word) : Bool :=
  dMode d == 3 || d.extractLsb' 56 3 != 0 || d.extractLsb' 28 4 != 0 || d.extractLsb' 12 4 != 0
    || (dWrap d && dMode d != 0) || (dTeam d != 0 && dMode d != 1)
    || ((dModule d != 0 || dSite d != 0) && dMode d != 2)

/-- A team of a grid by its index. -/
def State.teamOfGrid (s : State) (grid idx : Nat) : Option Team :=
  (s.teams.find? fun (_, t) => t.grid == grid && t.idx == idx).map (·.2)

/-- The coordinate of a core of a team in team coordinates. -/
def teamPos (t : Team) (k : Nat) : Nat × Nat := (colOf k - t.col0, rowOf k - t.row0)

/-- The core a team's coordinate names, where the team stands now. -/
def teamCore (t : Team) (x y : Nat) : Nat := coreAt t.site (t.row0 + y) (t.col0 + x)

/-- Resolution of a descriptor for a task of core `k` (R19), with `auth` the capability that authorises
absolute mode. Team and grid targets keep their grid and team index (R20). -/
def State.resolve (s : State) (k : Nat) (auth : Reg) (d : Word) : Resolved :=
  if dFormBad d then .trap cSENDFAIL
  else match s.teamAt k, dMode d with
    | some t, 0 =>
      let (tx, ty) := teamPos t k
      let x : Int := tx + (dX d).toInt
      let y : Int := ty + (dY d).toInt
      if dWrap d then .core (teamCore t (x % t.w).toNat (y % t.h).toNat) (some (t.grid, t.idx))
      else if 0 ≤ x && x < t.w && 0 ≤ y && y < t.h then .core (teamCore t x.toNat y.toNat) (some (t.grid, t.idx))
      else .trap cSENDFAIL
    | some t, 1 =>
      match Sparse.find s.grids t.grid with
      | none => .trap cSENDFAIL
      | some gr =>
        if dTeam d < gr.teams.length && (dX d).toNat < gr.w && (dY d).toNat < gr.h then
          match s.teamOfGrid t.grid (dTeam d) with
          | some u => .core (teamCore u (dX d).toNat (dY d).toNat) (some (t.grid, dTeam d))
          | none => .trap cSENDFAIL
        else .trap cSENDFAIL
    | _, 2 =>
      if !(auth.tag && capOtype auth.desc == 0 && hasPerm auth.desc pSENDABS) then .trap cCAP
      else
        let site := dModule d * 24 + dSite d
        if 23 < dSite d || (dX d).getLsbD 5 || (dY d).getLsbD 5 || (s.module (modOf k)).domain ≤ dModule d
            || (dModule d == modOf k && !(s.partSites (s.partAt k)).contains site) then .trap cSENDFAIL
        else .core (coreAt site (dY d).toNat (dX d).toNat) none
    | _, _ => .trap cSENDFAIL

end Sys2Proof.Machine
end

