-- ==== Sys2Proof/Machine/Storage.lean ====
section
/-!
DEFINITION. Storage: performing writes with their tags, poison and stale code bytes (R69, R105, R406), and the
translation of virtual addresses (R382 to R394): windows of placed teams, translation buffers, page walks, the
region table and the stripe tables.
-/
namespace Sys2Proof.Machine

/-- Leaf and table-entry fields (R384). -/
def pteValid (e : Word) : Bool := e.getLsbD 0
def pteLeaf (e : Word) : Bool := e.getLsbD 1
def pteSpan (e : Word) : Bool := e.getLsbD 2
def pteW (e : Word) : Bool := e.getLsbD 4
def pteSup (e : Word) : Bool := e.getLsbD 5
def pteD (e : Word) : Bool := e.getLsbD 8
def pteMtype (e : Word) : Nat := (e.extractLsb' 9 3).toNat
def pteAddr (e : Word) : Nat := (e.extractLsb' 12 36).toNat * 4096
def pteKey (e : Word) : Nat := (e.extractLsb' 48 8).toNat
def pteStripe (e : Word) : Nat := (e.extractLsb' 56 8).toNat

/-- Site number, slice and channel offset of a device DRAM address (R382). -/
def paSite (a : Nat) : Nat := a / 2 ^ 42 % 8 * 24 + a / 2 ^ 37 % 32
def paSlice (a : Nat) : Nat := a / 2 ^ 31 % 64
def mkPa (site slice off : Nat) : Nat := site / 24 * 2 ^ 42 + site % 24 * 2 ^ 37 + slice * 2 ^ 31 + off

/-- R382: a reserved SPACE, a SITE above 23 or an OFFSET beyond the channel. -/
def paBad (a : Nat) : Bool :=
  2 ≤ a / 2 ^ 45 || (a / 2 ^ 45 == 0 && (24 ≤ a / 2 ^ 37 % 32 || 0x60000000 ≤ a % 2 ^ 31))

/-- How an access is served (R218), or what it waits for. -/
inductive Xlate where
  | ok (addr : Nat) (place : Place)
  | walk
  | touch
  | wait
  | unmapped
  deriving DecidableEq, Repr

/-- The result of a page walk (R386): the leaf with its page, or a fault cause (R388). -/
inductive Walk where
  | leaf (entry : Nat) (leaf : Word) (base size : Nat)
  | fault (cause : Nat)
  deriving DecidableEq, Repr

/-- What a translation answers for a bank in transition: no fault, the access waits (R112). -/
def fWAIT : Nat := 0

/-- Fault causes (R388). -/
def fNOTVALID : Nat := 1
def fPROT : Nat := 2
def fMTYPE : Nat := 3
def fKEY : Nat := 4
def fNONCANON : Nat := 5
def fBADPTE : Nat := 6
def fNOFRAME : Nat := 7
def fREGFULL : Nat := 8
def fSTRIPE : Nat := 9

/-- Whether an access writes (R386). -/
def accWrites : Access → Bool
  | .write => true
  | .amo => true
  | _ => false

/-- The least number not in a list. -/
def leastFree (used : List Nat) : Nat := ((List.range (used.length + 1)).find? fun n => !used.contains n).getD 0

/-- A sparse range moved: cells of [`src`, `src` + n) re-addressed to `dst`, over what stood there. -/
def moveCells (m : Mem) (src dst n : Nat) : Mem :=
  let out := m.filter fun c => !(dst ≤ c.1 && c.1 < dst + n)
  Mem.writeAll out ((m.filter fun c => src ≤ c.1 && c.1 < src + n).map fun c => (dst + (c.1 - src), c.2))

/-- A sorted set with a range cleared. -/
def dropRange (l : List Nat) (lo n : Nat) : List Nat := l.filter fun x => !(lo ≤ x && x < lo + n)

/-- The members of a range of a set, re-based. -/
def moveSet (l : List Nat) (src dst n : Nat) : List Nat :=
  ((l.filter fun x => src ≤ x && x < src + n).map fun x => dst + (x - src)).foldl insertNat (dropRange l dst n)

/-- How a bank serves a unit of a named region or a slot (R112): now, once a change of its mode is over, or not at all. -/
inductive Serves where
  | now | later | never
  deriving DecidableEq, Repr

namespace State

/-- A store to placed code is remembered for fetch (R105), with the bytes as they stood before any. -/
def keepCode (s : State) (ws : List (Nat × Byte)) : State :=
  let code := s.windows.filter fun w => w.kind == .code
  let hit := ws.filter fun (a, _) => code.any fun w => w.storage ≤ a && a < w.storage + w.size
  if hit.isEmpty then s
  else { s with
    codeOld := hit.foldl (fun m (a, _) => if (Sparse.find m a).isNone then Sparse.set m a (Mem.read s.mem a) else m) s.codeOld
    codeStores := s.codeStores ++ [hit] }

/-- Stores to placed code are forgotten where the bytes are placed afresh (R105). -/
def forgetCode (s : State) (placed : Nat → Bool) : State :=
  { s with
    codeOld := s.codeOld.filter fun (a, _) => !placed a
    codeStores := (s.codeStores.map fun ws => ws.filter fun (a, _) => !placed a).filter fun ws => !ws.isEmpty }

/-- A code byte as a fetch finds it (R105): each store since placement is seen or not, by a free choice. -/
def codeByte (s : State) (a : Nat) : Byte :=
  let base := (Sparse.find s.codeOld a).getD (Mem.read s.mem a)
  s.codeStores.zipIdx.foldl (fun v (ws, i) => match ws.find? fun w => w.1 == a with
    | some (_, b) => if Config.codeNew s.free i then b else v
    | none => v) base

/-- The storage address of a doubleword that ERRINJ alters (R359). -/
def flipAddr : ErrUnit → Nat
  | .line a => a
  | .l2 a => a
  | .cluster _ a => a
  | _ => 0

/-- Writes performed at once (R123): every granule touched loses its tag (R69), a line written whole loses its
poison (R406), and a doubleword written whole its altered bits (R413). -/
def writeMem (s : State) (ws : List (Nat × Byte)) : State :=
  let as := ws.map (·.1)
  let s := s.keepCode ws
  { s with
    mem := Mem.writeAll s.mem ws
    tags := s.tags.filter fun gr => !as.any (fun a => a / 16 == gr)
    poison := if as.length < 128 then s.poison
      else s.poison.filter fun l => !(addrRange (l * 128) 128).all (fun a => as.contains a)
    flips := s.flips.filter fun (u, _) => !(addrRange (flipAddr u) 8).all (fun a => as.contains a) }

/-- A granule's tag set or cleared (R69). -/
def setTag (s : State) (gr : Nat) (tg : Bool) : State :=
  { s with tags := if tg then insertNat s.tags gr else eraseNat s.tags gr }

/-- Whether a granule is tagged. -/
def tagAt (s : State) (a : Nat) : Bool := s.tags.contains (a / 16)

def readMem (s : State) (as : List Nat) : List Byte := Mem.readAll s.mem as

/-- A doubleword of storage. -/
def readWord (s : State) (a : Nat) : Word := BitVec.ofNat 64 (ofBytes (s.readMem (addrRange a 8)))

/-- A range copied with its granule tags (R70) and poison, source and destination 128-byte aligned. -/
def copyRange (s : State) (src dst n : Nat) : State :=
  { s with mem := moveCells s.mem src dst n, tags := moveSet s.tags (src / 16) (dst / 16) (n / 16)
           poison := moveSet s.poison (src / 128) (dst / 128) (n / 128) }

/-- Where a storage address is homed (R114, R218), for an access from site `from`. -/
def placeOf (s : State) (frm a : Nat) : Place :=
  if a < 2 ^ 45 then .home (paSite a) (paSlice a)
  else if a < sramBase then .host frm
  else if a < teamStore then .fifo (bankOf a)
  else .home (Sparse.find s.teams ((a - teamStore) / 2 ^ 32) |>.map (·.site) |>.getD frm) 0

/-- Every step under way mapped, wherever it stands: on the agenda, in flits, in transmit stores and windows, or waiting. -/
def mapSteps (s : State) (ev : Event → Event) : State :=
  let core := fun (c : Core) => if c.waiting.isEmpty then c else { c with waiting := c.waiting.map ev }
  let flit := fun (t : Flit) => { t with step := t.step.map ev }
  let xm := fun (x : XmitEntry) => { x with step := ev x.step }
  let ent := fun (x : WinEntry) => { x with step := x.step.map ev }
  let win := fun (w : SeqWindow) => { w with entries := w.entries.map ent }
  let link := fun (l : Link) => { l with replayBuf := l.replayBuf.map flit, unacked := l.unacked.map flit }
  let site := fun (t : Site) => { t with flits := t.flits.map flit, inject := t.inject.map flit, reasm := t.reasm.map flit
                                         mesh := Sparse.mapVals (fun ms => ms.map fun m => { m with flit := flit m.flit }) t.mesh
                                         links := Sparse.mapVals link t.links, hostWait := t.hostWait.map ev
                                         xmit := Sparse.mapVals (fun xs => xs.map xm) t.xmit
                                         windows := Sparse.mapVals (fun ws => ws.map win) t.windows }
  { s with cores := Sparse.mapVals core s.cores, agenda := s.agenda.map ev, nextCycle := s.nextCycle.map ev
           sites := Sparse.mapVals site s.sites }

/-- Operations on their way to a range of storage follow it to another place (R117, R120, R396): pending operations,
combine-buffer entries, AMOs under way and reservations on its words. -/
def forwardRange (s : State) (src dst n : Nat) : State :=
  let f := fun (a : Nat) => if src ≤ a ∧ a < src + n then dst + (a - src) else a
  let hit := fun (a : Nat) => decide (src ≤ a ∧ a < src + n)
  let req := fun (r : AmoReq) => { r with addr := f r.addr }
  let ev := fun (e : Event) => match e with
    | .homeAmo r => .homeAmo (req r)
    | .putIncrement k x n r => .putIncrement k x n (req r)
    | e => e
  let op := fun (k : Nat) (p : PendOp) =>
    { p with addrs := p.addrs.map f, req := p.req.map req
             place := if p.addrs.any hit then s.placeOf (siteOf k) (f (p.addrs.headD 0)) else p.place }
  let ctx := fun (k : Nat) (t : Ctx) => { t with pend := t.pend.map (op k) }
  let ni := fun (k : Nat) (c : Core) => c.ni.combine.map fun (e : CombEntry) =>
    { e with req := req e.req, place := if hit e.req.addr then s.placeOf (siteOf k) (f e.req.addr) else e.place }
  let core := fun (k : Nat) (c : Core) => { c with ctxs := Sparse.mapVals (ctx k) c.ctxs, ni := { c.ni with combine := ni k c } }
  let resv := (s.resv.filter fun (a, _) => hit a).foldl (fun (m : Sparse Resv) (a, r) => Sparse.set m (f a) r)
    (s.resv.filter fun (a, _) => !hit a)
  { s with cores := s.cores.map fun (k, c) => (k, core k c), resv }.mapSteps ev

/-- An address of a reserved space (R382): what a placement beyond a site or a channel answers. -/
def noPa : Nat := 2 ^ 46

/-- The placement of a striped block by R394: its physical address, or none for a STRIPE fault. -/
def stripePa (st : Stripe) (va : Nat) : Option Nat :=
  let b := va / 256
  let n := st.n
  if !st.valid || b < st.firstb then none
  else
    let at_ := fun (p sl off : Nat) => (st.peers[p]?).map fun peer =>
      if 0x60000000 ≤ off || 24 ≤ peer.site then noPa else mkPa (peer.mod * 24 + peer.site) sl off + va % 256
    match st.overrides.find? fun o => (o.state == 1 || o.state == 2) && o.first ≤ b && b ≤ o.first + o.lenm1
        && o.cpeer != 0xFF with
    | some o => at_ o.cpeer o.cslice (256 * (o.croff + b - o.first))
    | none =>
      let p := if n &&& (n - 1) = 0 then (b ^^^ (b / 128) ^^^ (b / 16384)) % n else b % n
      let q := b / (64 * n) - st.firstb / (64 * n)
      if st.nblk ≤ q then none
      else (st.peers[p]?).bind fun peer => at_ p (b / n % 64) (65536 * peer.coff + 256 * q)

/-- Key of the region-table entry of an address (R390). -/
def regionKey (part va : Nat) : Nat := part * 2 ^ 32 + va / 65536

/-- An address of a region with a home (R390). -/
def homePa (r : Region) (va : Nat) : Xlate :=
  .ok (mkPa r.site r.slice (r.frame * 65536 + va % 65536)) (.home r.site r.slice)

/-- The home of a region, if it has one (R390). -/
def regionHome (s : State) (part va : Nat) : Option Region :=
  (Sparse.find s.regions (regionKey part va)).filter (·.state == 1)

/-- The frame of a translated page by its memory type (R386): the storage address. A walk that produces none (R382, R394)
faults. -/
def leafXlate (s : State) (frm part : Nat) (leaf : Word) (base va : Nat) : Xlate :=
  match pteMtype leaf with
  | 0 =>
    match s.regionHome part va with
    | some r => homePa r va
    | none => .touch
  | 1 =>
    match (Sparse.find (s.part part).stripes (pteStripe leaf)).bind (stripePa · va) with
    | some a => if paBad a then .walk else .ok a (s.placeOf frm a)
    | none => .walk
  | _ =>
    let a := pteAddr leaf + (va - base)
    if paBad a then .walk else .ok a (s.placeOf frm a)

/-- Whether a translation-buffer entry covers an address. -/
def tlbCovers (part va : Nat) (e : TlbEntry) : Bool := e.part == part && e.base ≤ va && va < e.base + e.size

/-- A cached translation of a core (R387): fetch and LDL translate through the L2 TLB alone. -/
def tlbFind (s : State) (k part va : Nat) (acc : Access := .read) : Option TlbEntry :=
  match if acc = .fetch then none else (s.core k).dtlb.find? (tlbCovers part va) with
  | some e => some e
  | none => (Sparse.get [] (s.site (siteOf k)).l2tlb (clusterOf k)).find? (tlbCovers part va)

/-- The address by a cached translation (R387): a region whose home it does not hold is looked up. -/
def entryXlate (s : State) (frm part : Nat) (e : TlbEntry) (va : Nat) : Xlate :=
  if pteMtype e.leaf ≠ 0 then s.leafXlate frm part e.leaf e.base va
  else match Sparse.find e.homes (va / 65536) with
    | some r => homePa r va
    | none => .touch

/-- The window of a placed team that holds an address (log 11). -/
def findWindow (s : State) (part va : Nat) : Option Window :=
  s.windows.find? fun w => w.part == part && w.base ≤ va && va < w.base + w.size

/-- How the storage address of a request that reaches its home is served (R112). -/
def serves (s : State) (a : Nat) : Serves :=
  if sramBase ≤ a && a < teamStore then
    let b := s.bank (bankOf a)
    match b.mode with
    | .scratch => if b.units.any (·.1 == (a - bankBase (bankOf a)) / 4096) then .now else .never
    | .fifo => .now
    | .cache => .never
    | .draining => .later
    | .zeroing => .later
  else .now

/-- An address of a window: named regions and FIFOs stand in their banks (R108, R112, R218). A unit or a FIFO that a
switch has released is unmapped (R110, R112). -/
def windowXlate (s : State) (k : Nat) (w : Window) (va : Nat) : Xlate :=
  let a := w.storage + (va - w.base)
  let b := s.bank (bankOf a)
  match w.kind with
  | .share c =>
    match b.mode with
    | .scratch =>
      if b.units.contains ((a - bankBase (bankOf a)) / 4096, w.team) then .ok a (if c = k then .own else .share c)
      else .unmapped
    | .draining => .wait
    | .zeroing => .wait
    | _ => .unmapped
  | .fifo _ bk =>
    match b.mode with
    | .fifo => if b.owner = some w.team then .ok a (.fifo bk) else .unmapped
    | .draining => .wait
    | .zeroing => .wait
    | _ => .unmapped
  | _ => .ok a (s.placeOf (siteOf k) a)

/-- Translation of an access by a task of core `k` (R386, R387). -/
def xlate (s : State) (k va : Nat) (acc : Access) : Xlate :=
  let part := s.partAt k
  if 2 ^ 48 ≤ va then .walk
  else match s.findWindow part va with
    | some w => s.windowXlate k w va
    | none =>
      match s.tlbFind k part va acc with
      | none => .walk
      | some e =>
        if (pteSup e.leaf && !s.supAt k) || (accWrites acc && (!pteW e.leaf || !pteD e.leaf)) then .walk
        else s.entryXlate (siteOf k) part e va

/-- The translation of an access that fixes no home (R115, R221): a region that has one is served there. -/
def xlateHomed (s : State) (k va : Nat) (acc : Access) : Xlate :=
  match s.xlate k va acc with
  | .touch => ((s.regionHome (s.partAt k) va).map (homePa · va)).getD .touch
  | x => x

/-- A leaf's page (R383): size and base. -/
def pageSize (level : Nat) (span : Bool) : Nat :=
  let sz := 2 ^ (12 + 9 * level)
  if span then sz * (if level = 0 then 16 else 32) else sz

/-- R384: a leaf that breaks the entry's rules. -/
def leafBad (level : Nat) (e : Word) : Bool :=
  let size := pageSize level (pteSpan e)
  let pinned := pteMtype e = 2 || pteMtype e = 3
  e.getLsbD 3 || e.getLsbD 6 || level == 3
    || (pteMtype e < 2 && pteAddr e != 0) || (pinned && pteAddr e % size != 0)
    || (pteMtype e != 1 && pteStripe e != 0) || (pinned && paBad (pteAddr e))
    || (pteMtype e == 2 && pteAddr e / 2 ^ 45 != 0) || (pteMtype e == 3 && pteAddr e / 2 ^ 45 != 1)

/-- Whether a key slot is assigned to a partition (R362). -/
def keyOk (s : State) (part key : Nat) : Bool :=
  (Sparse.find (s.module (s.part part).mod).keys key).map (·.1) == some part

/-- The walk of R386 from level `l` of the table at `t`, with the leaf's checks. A table stands in the DRAM of the
partition's module (R383). -/
def walkFrom (s : State) (part : Nat) (sup : Bool) (va : Nat) (acc : Access) : Nat → Nat → Walk
  | l, t =>
    let ea := t + 8 * (va / 2 ^ (12 + 9 * l) % 512)
    let e := s.readWord ea
    if paBad t || t / 2 ^ 42 ≠ (s.part part).mod then .fault fBADPTE
    else if !pteValid e then .fault fNOTVALID
    else if pteLeaf e then
      if leafBad l e then .fault fBADPTE
      else if pteSup e && !sup then .fault fPROT
      else if accWrites acc && !pteW e then .fault fPROT
      else if !s.keyOk part (pteKey e) then .fault fKEY
      else if 4 ≤ pteMtype e then .fault fMTYPE
      else
        let size := pageSize l (pteSpan e)
        .leaf ea e (va - va % size) size
    else match l with
      | 0 => .fault fBADPTE
      | l' + 1 =>
        if e &&& 0xFFFF000000000FFC#64 ≠ 0 then .fault fBADPTE
        else walkFrom s part sup va acc l' (pteAddr e)

/-- The root of a partition's tables (R397). -/
def tableRoot (s : State) (part : Nat) : Nat := ((s.part part).troot.extractLsb' 12 36).toNat * 4096

/-- A page walk for a partition (R386). -/
def walk (s : State) (part : Nat) (sup : Bool) (va : Nat) (acc : Access) : Walk :=
  if 2 ^ 48 ≤ va then .fault fNONCANON
  else s.walkFrom part sup va acc 3 (s.tableRoot part)

/-- The page of an address by the tables, whatever its leaf allows: its first byte and size. Where no leaf maps the address it
is the smallest page (DEDUCED, log 101). -/
def pageFrom (s : State) (va : Nat) : Nat → Nat → Nat × Nat
  | l, t =>
    let e := s.readWord (t + 8 * (va / 2 ^ (12 + 9 * l) % 512))
    let small := (va / 4096 * 4096, 4096)
    if !pteValid e then small
    else if pteLeaf e then (let size := pageSize l (pteSpan e); (va - va % size, size))
    else match l with
      | 0 => small
      | l' + 1 => pageFrom s va l' (pteAddr e)

def pageOf (s : State) (part va : Nat) : Nat × Nat :=
  if 2 ^ 48 ≤ va then (va / 4096 * 4096, 4096) else s.pageFrom va 3 (s.tableRoot part)

/-- The lookup directory of a region (R390): its site among the partition's sites. -/
def lookupSite (s : State) (part r : Nat) : Nat :=
  let sites := s.partSites part
  sites.getD (r / 64 % max 1 sites.length) 0

/-- Mesh hops between the routers of two slices (R9, R314). -/
def sliceHops (a b : Nat) : Nat :=
  let d := fun (x y : Nat) => if x ≤ y then y - x else x - y
  d (a % 8 / 2) (b % 8 / 2) + d (a / 8 / 2) (b / 8 / 2)

/-- Frames in use in a slice's channel. -/
def framesUsed (s : State) (site slice : Nat) : List Nat :=
  (s.regions.filter fun (_, r) => r.site == site && r.slice == slice && r.state != 0).map fun (_, r) => r.frame

/-- The slice whose channel backs a first touch (R115): the home slice, else the nearest of its site with a free
frame, the lower index winning a tie. -/
def frameSlice (s : State) (site slice : Nat) : Option Nat :=
  let free := (List.range 64).filter fun sl => (s.framesUsed site sl).length < 24576
  if free.contains slice then some slice
  else free.foldl (fun best sl => match best with
    | none => some sl
    | some b => if sliceHops slice sl < sliceHops slice b then some sl else some b) none

/-- The site that serves for one (R411, R430): itself, or the next of the partition where it is lost, being evacuated, or reset and
not yet back in a partition. -/
def liveSite (s : State) (part site : Nat) : Nat :=
  let up := fun (st : Nat) => (s.site st).live && (s.site st).evacuating.isNone && !(s.site st).rejoin
  let all := s.partSites part
  let i := all.idxOf site
  if up site then site else ((all.drop (i + 1) ++ all.take i).find? up).getD site

/-- First touch of a region (R115 to R117) by an agent that would home it at a site and slice: the new state, or
a fault cause. A released region whose frame changes is copied first (R117). -/
def homeRegion (s : State) (part va site slice : Nat) : State ⊕ Nat :=
  let site := s.liveSite part site
  let key := regionKey part va
  let old := Sparse.find s.regions key
  let r := va / 65536
  let load := (s.regions.filter fun (j, e) => j / 2 ^ 32 == part && e.state != 0 && j % 2 ^ 32 % 64 == r % 64
    && s.lookupSite part (j % 2 ^ 32) == s.lookupSite part r).length
  if old.isNone && 32768 ≤ load then .inr fREGFULL
  else
    let keep := old.any fun e => e.site == site && e.slice == slice
    if keep then
      .inl { s with regions := Sparse.set s.regions key { (old.getD ⟨0, 0, 0, 0⟩) with state := 1 } }
    else match s.frameSlice site slice with
      | none => .inr fNOFRAME
      | some sl =>
        let fr := leastFree (s.framesUsed site sl)
        let s' := { s with regions := Sparse.set s.regions key ⟨1, site, sl, fr⟩ }
        match old with
        | some e =>
          let src := mkPa e.site e.slice (e.frame * 65536)
          let dst := mkPa site sl (fr * 65536)
          .inl ((s'.copyRange src dst 65536).forwardRange src dst 65536)
        | none => .inl s'

/-- The tile a storage address belongs to (R103, R152): the one recorded over its block, else the aligned one; where that
one is recorded over other blocks (STRIPED memory), the block stands by itself. -/
def tileOf (s : State) (a : Nat) : Nat :=
  let group := a / 1024 * 4
  match s.tileDirs.find? fun (_, d) => d.blocks.contains (a / 256) with
  | some (key, _) => key
  | none => if (Sparse.find s.tileDirs group).all fun d => d.blocks.isEmpty then group else a / 256

end State

end Sys2Proof.Machine
end

