-- ==== Sys2Proof/Machine/Route.lean ====
section
/-!
DEFINITION. Steps on their way: requests and answers between agents, inside a site and over Porder (R315, R318,
R324 to R327), messages of NIs, site controllers, hods and sequencers (R17, R214, R405), and the counters of R59.
-/
namespace Sys2Proof.Machine

/-- Agent identifiers (R318). -/
def agentNi (core : Nat) : Nat :=
  modOf core * 2 ^ 29 + siteOf core % 24 * 2 ^ 24 + rowOf core * 32 + colOf core
def agentHod (site slice : Nat) : Nat := site / 24 * 2 ^ 29 + site % 24 * 2 ^ 24 + 2 ^ 22 + slice
def agentDir (site slice : Nat) : Nat := site / 24 * 2 ^ 29 + site % 24 * 2 ^ 24 + 2 * 2 ^ 22 + slice
def agentGw (site : Nat) : Nat := site / 24 * 2 ^ 29 + site % 24 * 2 ^ 24 + 3 * 2 ^ 22

/-- The mortar router (x, y) of an agent's cluster or slice (R314); a gateway has none. -/
def agentRouter (a : Nat) : Option (Nat × Nat) :=
  match a / 2 ^ 22 % 4 with
  | 0 => some (a % 32 / 8, a / 32 % 32 / 8)
  | 3 => none
  | _ => some (a % 8 / 2, a % 64 / 8 / 2)

/-- The central router that joins the gateway for the traffic of a router (R316). -/
def gateRouter (r : Nat × Nat) : Nat × Nat := (max 1 (min 2 r.1), max 1 (min 2 r.2))

/-- The next router on the way to another: first along X, then along Y (R314). -/
def meshHop (r goal : Nat × Nat) : Nat × Nat :=
  let toward := fun (a b : Nat) => if a < b then a + 1 else a - 1
  if r.1 ≠ goal.1 then (toward r.1 goal.1, r.2) else if r.2 ≠ goal.2 then (r.1, toward r.2 goal.2) else r

/-- A flit waits in the buffer of its class at a mortar router (R315). -/
def meshPut (mesh : Sparse (List MeshFlit)) (r : Nat × Nat) (m : MeshFlit) : Sparse (List MeshFlit) :=
  let key := (r.2 * 4 + r.1) * 4 + m.flit.cls % 4
  Sparse.set mesh key (Sparse.get [] mesh key ++ [m])

/-- Site number of an agent. -/
def agentSite (a : Nat) : Nat := a / 2 ^ 29 * 24 + a / 2 ^ 24 % 32

/-- Saturating 32-bit and 16-bit counts. -/
def sat32 (n : Nat) : Nat := min n 0xFFFFFFFF
def sat16 (n : Nat) : Nat := min n 0xFFFF

/-- Key of a (source, owner) pair. -/
def pairKey (src owner : Nat) : Nat := src * 2 ^ 32 + owner

/-- Flits of a message on Porder (R17). -/
def msgFlits (m : Message) : Nat :=
  if m.payload.isEmpty then 1 else if m.payload.length ≤ 128 then 2 else 3

/-- Flits that `n` bytes of data add to an item (R17, R317). -/
def dataFlits (n : Nat) : Nat := min 2 ((n + 127) / 128)

/-- Flits of an answer (R317). -/
def answerFlits : Event → Nat
  | .replyDeposit r => 1 + dataFlits r.bytes.length
  | _ => 1

/-- The kind of source of a message (R214): 0 a core's NI. -/
def msgSrc (m : Message) : Nat := (m.id.extractLsb' 30 2).toNat

/-- Updates that an owner applies in the order of their source's numbers (R251, R252, R257). -/
def ordStep : Event → Bool
  | .niAtomic _ r _ => !(r.comm || r.stat)
  | .homeAmo r => !(r.comm || r.stat)
  | .putIncrement _ _ _ _ => true
  | .hscatOwner b => !b.owners.isEmpty
  | _ => false

/-- The key of a core of a team in what a swap saves (R50). -/
def savedKey (t : Team) (x y : Nat) : Nat := y * t.w + x

namespace State

/-- A step added to the agenda unless it already stands there, or is to be tried again. -/
def pushOnce (s : State) (e : Event) : State := if s.agenda.contains e || s.nextCycle.contains e then s else s.push e

/-- An agent's flits on their way to its site's injection queue, through the mesh from the agent's router (R316). -/
def leave (s : State) (src : Nat) (fs : List Flit) : State :=
  let st := agentSite src
  (s.mapSite st fun t => match agentRouter src with
    | none => { t with inject := t.inject ++ fs }
    | some r => { t with mesh := fs.foldl (fun m f => meshPut m r ⟨f, gateRouter r, true⟩) t.mesh }).pushOnce (.porderRouterCycle st)

/-- The flits of one item leave their agent (R317, R318). -/
def inject (s : State) (src dst flits cls seq : Nat) (rerouted opens : Bool) (e : Option Event) : State :=
  let mk : Nat → Flit := fun i => { kind := if i = 0 then 0 else 1, fidx := i, flast := flits - 1, rerouted, opens, cls,
                                    seq, src, dst, toSite := agentSite dst, step := e }
  s.leave src ((List.range flits).map mk)

/-- A control flit put in at a site (R318): CTL code, and the agents and SEQ it speaks of. A REFUSE, ROOM or REROUTE carries
the step its destination takes. One that an agent of the site sends leaves as its other flits do; a REROUTE is the router's
own. What answers a request travels as a response does. -/
def injectCtl (s : State) (st ctl src dst seq : Nat) (e : Option Event) : State :=
  let f : Flit := { kind := 2, ctl, cls := if ctl < 4 then 1 else 0, seq, src, dst, toSite := agentSite dst, step := e }
  if ctl ≠ 4 ∧ agentSite src = st then s.leave src [f]
  else (s.mapSite st fun t => { t with inject := t.inject ++ [f] }).pushOnce (.porderRouterCycle st)

/-- The transmit store of an agent (R324). -/
def xmitOf (s : State) (a : Nat) : List XmitEntry := Sparse.get [] (s.site (agentSite a)).xmit a
def setXmit (s : State) (a : Nat) (xs : List XmitEntry) : State :=
  s.mapSite (agentSite a) fun t => { t with xmit := Sparse.set t.xmit a xs }

/-- Whether SEQ `seq` may be sent to an owner (R324, R325): the store has room, and SEQ − 64 is answered. -/
def mayGo (xs : List XmitEntry) (owner seq : Nat) : Bool :=
  (xs.filter fun x => x.sent && !x.refused).length < 64
    && !xs.any fun x => x.owner == owner && 64 ≤ (seq + 65536 - x.seq) % 65536 && (seq + 65536 - x.seq) % 65536 < 32768

/-- A request or message from one agent to its owner: at once within a site, else with the source's next
sequence number, a copy kept in the transmit store until it is answered (R324, R325). One that the store or the
window limit holds back waits there unsent. -/
def route (s : State) (src owner flits cls : Nat) (e : Event) : State :=
  if agentSite src = agentSite owner then s.push e
  else
    let st := s.site (agentSite src)
    let key := pairKey src owner
    let seq := Sparse.get 0 st.outSeq key
    let opens := (Sparse.find st.quiet key).isNone
    let mine := Sparse.get [] st.xmit src
    let go := mayGo mine owner seq
    let st' := { st with
      outSeq := Sparse.set st.outSeq key ((seq + 1) % 65536)
      quiet := Sparse.set st.quiet key st.fab
      xmit := Sparse.set st.xmit src (mine ++ [{ owner, seq, step := e, flits, cls, opens, sent := go }]) }
    let s := s.setSite (agentSite src) st'
    if go then s.inject src owner flits cls seq false opens (some e) else s

/-- Whether an agent's next request to an owner may leave at once (R324, R325): a send that finds the transmit store full, or
the owner's window not moved on, stalls. -/
def mayRoute (s : State) (src owner : Nat) : Bool :=
  agentSite src == agentSite owner
    || ((s.xmitOf src).all (fun x => x.sent || x.refused || x.due.isSome)
      && mayGo (s.xmitOf src) owner (Sparse.get 0 (s.site (agentSite src)).outSeq (pairKey src owner)))

/-- A request that is not repeated while it is under way or waits for its answer. -/
def routeOnce (s : State) (src owner flits cls : Nat) (e : Event) : State :=
  if s.agenda.contains e || s.nextCycle.contains e || (s.xmitOf src).any (·.step == e) then s
  else s.route src owner flits cls e

/-- Sends that the limits held back leave as they may, in order (R324, R325). -/
def sendNext (s : State) (a : Nat) : State :=
  (s.xmitOf a).foldl (fun s x =>
    let xs := s.xmitOf a
    if !x.sent && !x.refused && x.due.isNone && mayGo xs x.owner x.seq then
      (s.setXmit a (xs.map fun y => if y.owner = x.owner ∧ y.seq = x.seq then { y with sent := true } else y)).inject
        a x.owner x.flits x.cls x.seq false x.opens (some x.step)
    else s) s

/-- A transmit entry goes: its request is answered or given up (R324). -/
def freeXmit (s : State) (a owner seq : Nat) : State :=
  let s := s.setXmit a ((s.xmitOf a).filter fun x => !(x.owner == owner && x.seq == seq))
  let s := s.mapSite (agentSite a) fun t => { t with quiet := Sparse.set t.quiet (pairKey a owner) t.fab }
  s.sendNext a

/-- The window entry of a request under way at another site's agent: owner, source and SEQ. -/
def windowOf (s : State) (req : Event) : Option (Nat × Nat × Nat) :=
  s.sites.findSome? fun (_, t) => t.windows.findSome? fun (o, ws) => ws.findSome? fun w =>
    (w.entries.find? fun x => !x.done && x.step == some req).map fun x => (o, w.src, x.seq)

/-- The windows of an owner towards one source, mapped. -/
def mapWindow (s : State) (owner src : Nat) (f : SeqWindow → SeqWindow) : State :=
  s.mapSite (agentSite owner) fun t =>
    { t with windows := Sparse.set t.windows owner ((Sparse.get [] t.windows owner).map fun w => if w.src = src then f w else w) }

/-- A step that waits where it stands: on the agenda, for the next cycle, for the host, or for a core's NI. -/
def underWay (s : State) (e : Event) : Bool :=
  s.agenda.contains e || s.nextCycle.contains e || s.sites.any (fun (_, t) => t.hostWait.contains e)
    || s.cores.any fun (_, c) => c.waiting.contains e

/-- The updates that an owner has received from a source and not applied. -/
def heldSteps (s : State) (hit : Nat → Nat → Bool) : List Event :=
  s.sites.flatMap fun (_, t) => t.windows.flatMap fun (o, ws) => ws.flatMap fun w =>
    if hit o w.src then w.entries.filterMap fun x => if x.done then none else x.step.filter ordStep else []

/-- Updates that were held back go on. -/
def resume (s : State) (es : List Event) : State := es.foldl (fun s e => if s.underWay e then s else s.push e) s

/-- A number counts as applied at its owner (R326), a new owner no longer waits for it (R252), and the updates that wait
in sequence behind it go on (R251, R252). -/
def markApplied (s : State) (owner src n : Nat) : State :=
  let drop := fun (l : List (Nat × Nat × Nat)) => l.filter (· != (owner, src, n))
  let s := s.mapWindow owner src fun w => { w with applied := insertNat w.applied n }
  let s := { s with sites := Sparse.mapVals (fun t => if t.fwdHold.isEmpty then t else
    { t with fwdHold := Sparse.mapVals drop t.fwdHold }) s.sites }
  s.resume (s.heldSteps fun _ a => a == src)

/-- An entry's answer is cached (R326): its request is applied. -/
def cacheAnswer (s : State) (owner src seq : Nat) (e : Option Event) : State :=
  (s.mapWindow owner src fun w =>
    { w with entries := w.entries.map fun x => if x.seq = seq then { x with step := e, done := true } else x }).markApplied owner src seq

/-- A request goes on as another step, under its number. -/
def restep (s : State) (old new : Event) : State :=
  match s.windowOf old with
  | some (o, src, n) => s.mapWindow o src fun w =>
      { w with entries := w.entries.map fun x => if x.seq = n then { x with step := some new } else x }
  | none => s

/-- The number of an operation is its source's lowest that is not applied yet (R251). -/
def inSequence (s : State) (owner src n : Nat) : Bool :=
  (Sparse.get [] (s.site (agentSite owner)).windows owner).all fun w =>
    w.src != src || (List.range ((n + 65536 - w.base) % 65536)).all fun i => w.applied.contains ((w.base + i) % 65536)

/-- An update waits at its owner `hod`: for its source's lower numbers (R251, R257), or, after a migration, for lower numbers
that the old owner has still to forward (R252). -/
def heldBack (s : State) (hod : Nat) (e : Event) : Bool :=
  match s.windowOf e with
  | some (o, src, n) => ordStep e && (!s.inSequence o src n
      || (Sparse.get [] (s.site (agentSite hod)).fwdHold hod).any fun (_, a, m) =>
          a == src && m != n && (n + 65536 - m) % 65536 < 32768)
  | none => false

/-- An answer from an owner to the source of a request (R326, R327): at once within a site, else kept in the window's
entry and sent. -/
def answer (s : State) (req e : Event) : State :=
  match s.windowOf req with
  | some (o, src, n) => (s.cacheAnswer o src n (some e)).inject o src (answerFlits e) 1 n false false (some e)
  | none => s.push e

/-- A request that returns nothing is acknowledged to its transmit store (R318, R324). -/
def ack (s : State) (req : Event) : State :=
  match s.windowOf req with
  | some (o, src, n) => (s.cacheAnswer o src n none).injectCtl (agentSite o) 1 o src n none
  | none => s

/-- The grid's outstanding-work count rises or falls (R55). A count at zero may complete the grid. -/
def workUp (s : State) (gr : Option Nat) : State :=
  match gr with
  | some n => s.mapGrid n fun x => { x with work := x.work + 1 }
  | none => s

def workDown (s : State) (gr : Option Nat) : State :=
  match gr with
  | some n => (s.mapGrid n fun x => { x with work := x.work - 1 }).push (.gridComplete n)
  | none => s

/-- The NI's next message number (R214). -/
def takeSeq (s : State) (k : Nat) : State × Nat :=
  let n := (s.core k).ni.seq
  (s.mapNi k fun ni => { ni with seq := (ni.seq + 1) % 65536 }, n)

/-- The team coordinates of a resolved target, (0, 0) without a team (R51, R52). -/
def posOf (s : State) (team : Option (Nat × Nat)) (k : Nat) : Nat × Nat :=
  match team.bind fun (g, i) => s.teamOfGrid g i with
  | some t => teamPos t k
  | none => (0, 0)

/-- A message with the team coordinates of its target, taken as its target is resolved. -/
def posed (s : State) (m : Message) : Message := { m with pos := s.posOf m.team m.dst }

/-- Two SENDO messages of one channel (R27): one target, by team coordinate where they name a team. -/
def sameChannel (a b : Message) : Bool :=
  a.ordered && b.ordered && (a.dst == b.dst || (a.team.isSome && a.team == b.team && a.pos == b.pos))

/-- The messages of a core that wait in its team's swap area (R50, R52). -/
def areaOf (s : State) (k : Nat) : List RetryEntry :=
  match s.teamAt k with
  | some t => Sparse.get [] t.retryArea (savedKey t (teamPos t k).1 (teamPos t k).2)
  | none => []

/-- A core's retry buffer changed; while its team is being swapped out, the team's swap area stands in for it (R50). -/
def mapRetry (s : State) (k : Nat) (f : List RetryEntry → List RetryEntry) : State :=
  match (s.core k).team, s.teamAt k with
  | some uid, some t =>
    if t.state = .quiescing then
      let key := savedKey t (teamPos t k).1 (teamPos t k).2
      s.mapTeam uid fun t => { t with retryArea := Sparse.set t.retryArea key (f (Sparse.get [] t.retryArea key)) }
    else s.mapNi k fun ni => { ni with retry := f ni.retry }
  | _, _ => s.mapNi k fun ni => { ni with retry := f ni.retry }

/-- Whether a SENDO message waits behind another of its channel (R27, R52): one that was refused and is not accepted yet,
or, beyond the site, one whose answer has not come. -/
def sendoWaits (s : State) (k : Nat) (m : Message) : Bool :=
  ((s.core k).ni.retry ++ s.areaOf k).any (fun r => sameChannel r.msg m)
    || (siteOf k != siteOf m.dst && (s.xmitOf (agentNi k)).any fun x => match x.step with
      | .messageAccept o => o.src == k && sameChannel o m
      | _ => false)

/-- The messages of a core's NI that are on their way: a refusal of them may still come back (R25, R50). -/
def messagesOut (s : State) (k : Nat) : List Word :=
  let mine := fun (m : Message) => if msgSrc m == 0 && m.src == k then some m.id else none
  let ofStep := fun (e : Event) => match e with
    | .messageAccept m => mine m
    | .maildropAppend _ m => mine m
    | .refuse m _ _ => mine m
    | _ => none
  let sent := s.sites.flatMap fun (_, t) => t.xmit.flatMap fun (_, xs) => (xs.filter (!·.refused)).map (·.step)
  let here := s.agenda ++ s.nextCycle ++ s.cores.flatMap fun (_, c) => c.waiting
  ((here ++ sent).filterMap ofStep).eraseDups

/-- Room in a core's retry buffer of 16 entries (R25): a message on its way has one kept for it (DESIGN CHOICE, log 88). -/
def retryRoom (s : State) (k : Nat) : Nat := 16 - ((s.core k).ni.retry.length + (s.messagesOut k).length)

/-- A message of a core's NI gets its identity (R17, R214), and counts as work (R55). A message counts as sent to a grid
where its destination is team- or grid-relative; an absolute one to a core of a grid does not (DESIGN CHOICE, log 92). -/
def stamped (s : State) (k : Nat) (m : Message) : State × Message :=
  let (s, n) := s.takeSeq k
  let m := { m with id := coreMsgId k n, src := k, counted := m.team.map (·.1) }
  (s.workUp m.counted, m)

/-- A core's NI transmits a message that has its identity: behind others of its SENDO channel where such wait. -/
def transmit (s : State) (k : Nat) (m : Message) : State :=
  if m.ordered && s.sendoWaits k m then s.mapRetry k fun l => l ++ [⟨m, false, none, true, true⟩]
  else s.route (agentNi k) (agentNi m.dst) (msgFlits m) 3 (.messageAccept m)

/-- A core's NI sends a message of a task (R17, R214). -/
def niSend (s : State) (k : Nat) (m : Message) : State := let (s, m) := s.stamped k m; s.transmit k m

/-- Whether the NI may transmit a message now (R25, R28, R324): a retry entry is free for it, and its transmit store takes
it. -/
def maySend (s : State) (k : Nat) (m : Message) : Bool := 0 < s.retryRoom k && s.mayRoute (agentNi k) (agentNi m.dst)

/-- A core's NI sends a message of its own: a notice, a continuation, an orphan. It waits for a retry entry as others do
(R25, R28). -/
def niOwn (s : State) (k : Nat) (m : Message) : State :=
  let (s, m) := s.stamped k m
  if (s.core k).ni.own.isEmpty && s.maySend k m then s.transmit k m else s.mapNi k fun ni => { ni with own := ni.own ++ [m] }

/-- Messages of its own that an NI has held leave, in order, as entries free. -/
def sendOwn (s : State) (k : Nat) : State :=
  (s.core k).ni.own.foldl (fun s m =>
    if (s.core k).ni.own.head? == some m && s.maySend k m then
      (s.mapNi k fun ni => { ni with own := ni.own.drop 1 }).transmit k m
    else s) s

/-- A refused message goes again (R25, R26): under the SEQ it was refused with where one is kept (R326). -/
def retransmit (s : State) (a : Nat) (m : Message) : State :=
  let mine := fun (x : XmitEntry) => x.refused && (match x.step with
    | .messageAccept o => o.id == m.id
    | _ => false)
  match (s.xmitOf a).find? mine with
  | some x =>
    let go := mayGo (s.xmitOf a) x.owner x.seq
    let y := { x with step := .messageAccept m, refused := false, sent := go }
    let s := s.setXmit a ((s.xmitOf a).map fun z => if mine z then y else z)
    if go then s.inject a x.owner x.flits x.cls x.seq false x.opens (some y.step) else s
  | none => s.route a (agentNi m.dst) (msgFlits m) 3 (.messageAccept m)

/-- A refused message leaves its agent for good: the SEQ it kept is skipped (R326). -/
def giveUp (s : State) (a : Nat) (id : Word) : State :=
  (s.xmitOf a).foldl (fun s x => match x.step with
    | .messageAccept o =>
      if x.refused && o.id == id then (s.freeXmit a x.owner x.seq).injectCtl (agentSite a) 5 a x.owner x.seq none else s
    | _ => s) s

/-- The window entry of a refused message at its owner (R326): the source and SEQ. -/
def refusedAt (s : State) (owner : Nat) (id : Word) : Option (Nat × Nat) :=
  let is := fun (e : Option Event) => match e with
    | some (.refuse m _ _) => m.id == id
    | some (.roomNotice _ _ i) => i == id
    | _ => false
  (Sparse.get [] (s.site (agentSite owner)).windows owner).findSome? fun w =>
    (w.entries.find? fun x => is x.refusal).map fun x => (w.src, x.seq)

/-- A room notice goes to the NI, or the agent of its site, that sends a message again (R25): beyond the site as a ROOM flit
under the message's SEQ (R318). -/
def sendRoom (s : State) (k sender : Nat) (id : Word) : State :=
  let e := Event.roomNotice sender k id
  if siteOf k = siteOf sender then s.push e
  else match s.refusedAt (agentNi k) id with
    | some (src, n) =>
      if agentSite src = siteOf sender then
        (s.mapWindow (agentNi k) src fun w => { w with entries := w.entries.map fun x =>
          if x.seq = n then { x with refusal := some e } else x }).injectCtl (siteOf k) 3 (agentNi k) src n (some e)
      else s.injectCtl (siteOf k) 3 (agentNi k) (agentNi sender) 0 (some e)
    | none => s.injectCtl (siteOf k) 3 (agentNi k) (agentNi sender) 0 (some e)

/-- The TEAMID word of a team (R213). -/
def teamIdWord (t : Team) : Word := BitVec.ofNat 64 (t.grid % 2 ^ 32 * 2 ^ 16 + t.idx)

/-- An absolute descriptor of a system register resolved for a site controller (R19, R388, R405): a target in its own module
lies in its site's partition (R361). -/
def resolveAbs (s : State) (site : Nat) (d : Word) : Option Nat :=
  let target := dModule d * 24 + dSite d
  if dFormBad d || dMode d != 2 || 23 < dSite d || (dX d).getLsbD 5 || (dY d).getLsbD 5
      || (s.module (site / 24)).domain ≤ dModule d
      || (target / 24 == site / 24 && !(s.parts.any fun (n, _) => (s.partSites n).contains site && (s.partSites n).contains target))
    then none
  else some (coreAt target (dY d).toNat (dX d).toNat)

/-- A site controller sends a class 3 message to an absolute descriptor (R214, R388, R405). One that does not
resolve is counted in MCCNT.LOST. -/
def ctlSend (s : State) (site : Nat) (d a1 a2 a3 a4 : Word) (payload : List Byte) : State :=
  match s.resolveAbs site d with
  | none => s.mapSite site fun t => { t with mcLost := sat16 (t.mcLost + 1) }
  | some k =>
    let n := (s.site site).ctlSeq
    let s := s.mapSite site fun t => { t with ctlSeq := (t.ctlSeq + 1) % 65536 }
    let m : Message := { noMsg with id := siteMsgId 3 site 0 n, src := site * 1024, dst := k, handler := dHandler d,
                                    cls := 3, a1, a2, a3, a4, payload }
    s.route (agentGw site) (agentNi k) (msgFlits m) 3 (.messageAccept m)

/-- The partition of a site, if any. -/
def partOfSite (s : State) (site : Nat) : Option Nat :=
  (s.parts.find? fun (n, _) => (s.partSites n).contains site).map (·.1)

/-- A machine check (R405): it joins an equal event of the last 2^20 fabric cycles, or opens a notice, with g3 where the spec
gives it (R439). -/
def machineCheckWith (s : State) (site cls sev agent pa : Nat) (syn : Option Word) : State :=
  let same := fun (c : Check) => c.cls == cls && c.agent == agent && c.pa == pa
  s.mapSite site fun t =>
    if t.checks.any same then { t with checks := t.checks.map fun c => if same c then { c with count := c.count + 1 } else c }
    else { t with checks := t.checks ++ [{ cls, sev, agent, pa, syn, count := 1, since := t.fab }] }

/-- A machine check whose syndrome the spec leaves open (log 6). -/
def machineCheck (s : State) (site cls sev agent pa : Nat) : State := s.machineCheckWith site cls sev agent pa none

/-- The machine-check notice of a merged event (R405): KIND 1, class, severity, agent; the syndrome is open (log 6). -/
def sendCheck (s : State) (site : Nat) (c : Check) : State :=
  let d := match s.partOfSite site with
    | some p => (s.part p).mcdest
    | none => 0
  let g1 := BitVec.ofNat 64 (2 ^ 56 + c.cls * 2 ^ 40 + c.sev * 2 ^ 32 + c.agent)
  (s.ctlSend site d g1 (BitVec.ofNat 64 c.pa) (c.syn.getD (Config.syndrome s.free)) (BitVec.ofNat 64 c.count) []).bump

/-- Notices whose time for merging is over are sent (R405, log 20). -/
def sendChecks (s : State) (site : Nat) : State :=
  let due := fun (c : Check) => c.since + 2 ^ 20 ≤ (s.site site).fab
  let go := (s.site site).checks.filter due
  go.foldl (fun s c => s.sendCheck site c) (s.mapSite site fun t => { t with checks := t.checks.filter fun c => !due c })

/-- A hod's completion message (R253), sent with the hod's identity. -/
def hodSend (s : State) (site slice : Nat) (m : Message) : State :=
  let n := Sparse.get 0 (s.site site).hodSeq slice
  let s := s.mapSite site fun t => { t with hodSeq := Sparse.set t.hodSeq slice ((n + 1) % 65536) }
  let m := { m with id := siteMsgId 1 site slice n, src := site * 1024, counted := m.team.map (·.1) }
  (s.workUp m.counted).route (agentHod site slice) (agentNi m.dst) (msgFlits m) 3 (.messageAccept m)

/-- The host notification of a graph (R416): a W1C bit of NSTAT at the site's port, and MSI-X vector 0 when it
rises. With no live port it is dropped (R414). -/
def portOf (s : State) (site : Nat) : Option Nat :=
  let m := s.module (site / 24)
  let up := fun k => (Sparse.get {} m.ports k : Port).up
  if up (site % 24 / 3) then some (site % 24 / 3) else (List.range 8).find? up

end State

end Sys2Proof.Machine
end

