-- ==== Sys2Proof/Machine/Cache.lean ====
section
/-!
DEFINITION. The caches: the L1 data and instruction caches (R104, R105), the cluster caches over the banks in CACHE mode
(R107, R110), the L2 slices, and remote copies (R126). They hold which lines are where, in what state and order; the
value of a line of the module stands in memory, once (R125). Which line an L2 slice replaces, and that a store which
misses the cluster cache allocates no line there, are the model's choice (log 76).
-/
namespace Sys2Proof.Machine

/-- The line of a storage address (R103). -/
def lineOf (a : Nat) : Nat := a / 128

/-- The lines of some addresses, each once: of memory, since no cache holds cluster SRAM (R107, R112). -/
def linesOf (as : List Nat) : List Nat := ((as.filter (· < sramBase)).map lineOf).foldl insertNat []

/-- The set of an L1 cache that a line falls in (R104, R105): its number modulo 32 (DESIGN CHOICE, log 76). -/
def l1Set (line : Nat) : Nat := line % 32

/-- Lines of one set of a cluster cache (R107): address bits 17:7. -/
def clusterSet (line : Nat) : Nat := line % 2048

/-- Lines of an L2 slice: 3 MiB. -/
def l2Lines : Nat := 3 * 2 ^ 20 / 128

/-- A list with an entry moved to its end, the most recently used place. -/
def toBack {α : Type} (p : α → Bool) (l : List α) : List α := l.filter (fun x => !p x) ++ l.filter p

/-- A state from which a line that leaves is written back. -/
def Moesi.isDirty : Moesi → Bool
  | .modified => true
  | .owned => true
  | _ => false

/-- A holder's state once another cluster reads the line. -/
def Moesi.read : Moesi → Moesi
  | .modified => .owned
  | .exclusive => .shared
  | m => m

namespace State

/-- The banks of a cluster in CACHE mode (R106), by their number in it. -/
def cacheWays (s : State) (site cl : Nat) : List Nat :=
  (List.range 16).filter fun b => (s.bank (bankNo site cl b)).mode == .cache && (s.bank (bankNo site cl b)).next.isNone

/-- Banks of a cluster in CACHE, by bank number. -/
def cacheBanks (s : State) (site cl : Nat) : List Nat := (s.cacheWays site cl).map (bankNo site cl)

/-- The lines of a cluster's cache. -/
def clusterLines (s : State) (site cl : Nat) : List ClusterLine := Sparse.get [] (s.site site).clusters cl
def setClusterLines (s : State) (site cl : Nat) (ls : List ClusterLine) : State :=
  s.mapSite site fun t => { t with clusters := Sparse.set t.clusters cl ls }

/-- A line of the cache of a core's cluster. -/
def clusterFind (s : State) (k line : Nat) : Option ClusterLine :=
  (s.clusterLines (siteOf k) (clusterOf k)).find? (·.line == line)

/-- A line takes its place in its L2 slice; one that no channel of the domain backs has none. -/
def l2Touch (s : State) (line : Nat) (dirty : Bool) : State :=
  if 2 ^ 45 ≤ line * 128 then s
  else s.mapSite (paSite (line * 128)) fun t =>
    let old := Sparse.get [] t.l2 (paSlice (line * 128))
    let was := old.any fun l => l.line == line && l.dirty
    let ls := old.filter (·.line != line) ++ [⟨line, dirty || was⟩]
    { t with l2 := Sparse.set t.l2 (paSlice (line * 128)) (if l2Lines < ls.length then ls.drop 1 else ls) }

/-- Whether a core's transaction has written a line, which L1 then holds as a speculative one (R104, R154): one that its homes
have not aborted, which discards its speculative copies (R156). -/
def specLine (s : State) (k line : Nat) : Bool :=
  let tile := s.tileOf (line * 128)
  (s.core k).ctxs.any fun (_, t) => t.txn.any fun tx => tx.removed.isNone && tx.writes.contains tile

/-- A line leaves the L1 data caches of the cores that `at_` selects, but for speculative lines (R104). -/
def dropL1 (s : State) (at_ : Nat → Bool) (gone : L1Line → Bool) : State :=
  { s with cores := s.cores.map fun (k, c) =>
      (k, if at_ k then { c with l1 := c.l1.filter fun l => !gone l || s.specLine k l.line } else c) }

/-- Whether a core belongs to a cluster of a site. -/
def inCluster (site cl k : Nat) : Bool := siteOf k == site && clusterOf k == cl

/-- A line leaves a cluster's cache: the cluster's L1 caches hold it no longer (R107), and a dirty one goes to L2. -/
def evictLine (s : State) (site cl : Nat) (e : ClusterLine) : State :=
  let s := s.setClusterLines site cl ((s.clusterLines site cl).filter (·.line != e.line))
  let s := s.dropL1 (inCluster site cl) (·.line == e.line)
  if e.state.isDirty then s.l2Touch e.line true else s

/-- A line takes a way of a cluster's cache (R107): a bank in CACHE mode whose set has room, else that of the line of the
set that was filled or written longest ago (DESIGN CHOICE, log 76). -/
def clusterInstall (s : State) (site cl line : Nat) (st : Moesi) (copy : Option RemoteCopy) : State :=
  let ls := s.clusterLines site cl
  match ls.find? (·.line == line) with
  | some e => s.setClusterLines site cl (ls.filter (·.line != line) ++ [{ e with state := if e.state.isDirty then e.state else st, copy }])
  | none =>
    let set := ls.filter fun e => clusterSet e.line == clusterSet line
    match (s.cacheWays site cl).find? fun w => !set.any (·.way == w) with
    | some w => s.setClusterLines site cl (ls ++ [⟨line, w, st, copy⟩])
    | none => match set with
      | [] => s
      | out :: _ =>
        let s := s.evictLine site cl out
        s.setClusterLines site cl (s.clusterLines site cl ++ [⟨line, out.way, st, copy⟩])

/-- Other clusters of a module that hold a line, with their entries. -/
def holders (s : State) (mod site cl line : Nat) : List (Nat × Nat × ClusterLine) :=
  s.sites.flatMap fun (n, t) =>
    if n / 24 ≠ mod then []
    else t.clusters.flatMap fun (c, ls) =>
      if n = site ∧ c = cl then [] else (ls.filter fun e => e.line == line && e.copy.isNone).map fun e => (n, c, e)

/-- A line read through a core's cluster cache: other holders share it, and L2 holds what they have not changed. -/
def clusterRead (s : State) (k line : Nat) (copy : Option RemoteCopy) : State :=
  let site := siteOf k
  let cl := clusterOf k
  let hs := if copy.isSome then [] else s.holders (modOf k) site cl line
  let share := fun (ls : List ClusterLine) => ls.map fun e => if e.line = line then { e with state := e.state.read } else e
  let s := hs.foldl (fun s (n, c, _) => s.setClusterLines n c (share (s.clusterLines n c))) s
  let s := if copy.isSome then s else s.l2Touch line false
  s.clusterInstall site cl line (if hs.isEmpty && copy.isNone then .exclusive else .shared) copy

/-- A line's place in a core's L1 (R104): the least recently used line of a full set of eight leaves; a speculative line
that leaves goes to the versioned ways (R154). -/
def l1Install (s : State) (k line : Nat) (copy : Option RemoteCopy) : State :=
  let l1 := (s.core k).l1.filter (·.line != line) ++ [⟨line, copy⟩]
  let set := l1.filter fun l => l1Set l.line == l1Set line
  if set.length ≤ 8 then s.mapCore k fun c => { c with l1 }
  else
    let out := (set.headD ⟨line, none⟩).line
    let s := s.mapCore k fun c => { c with l1 := l1.filter (·.line != out) }
    let tile := s.tileOf (out * 128)
    ((s.core k).ctxs.filter fun (_, t) => t.txn.any fun tx => tx.writes.contains tile).foldl
      (fun s (x, _) => s.pushOnce (.versionedEviction k x tile)) s

/-- A line brought into a core's L1 and its cluster's cache (R104, R107). -/
def fillLine (s : State) (k line : Nat) (copy : Option RemoteCopy) : State :=
  (s.clusterRead k line copy).l1Install k line copy

/-- A hit makes a line the most recently used one of its L1 set. -/
def l1Touch (s : State) (k line : Nat) : State :=
  s.mapCore k fun c => { c with l1 := toBack (·.line == line) c.l1 }

/-- The L1 instruction cache takes the line of a fetch or literal load (R105), through the cluster cache; a full set loses its
least recently used line (DESIGN CHOICE, log 76). -/
def fetchLine (s : State) (k line : Nat) : State :=
  let l1i := (s.core k).l1i.filter (· != line) ++ [line]
  let set := l1i.filter fun l => l1Set l == l1Set line
  let out := if set.length ≤ 8 then none else set.head?
  let hit := (s.core k).l1i.contains line
  let s := s.mapCore k fun c => { c with l1i := l1i.filter fun l => some l != out }
  if hit then s else s.clusterRead k line none

/-- A line is written at its home (R123): every other copy of its module is invalidated first. The writer's cluster
keeps the line, modified, where it holds it, the most recently used one of its L1 set too (R104); else the line stands in
L2. -/
def wroteLine (s : State) (writer : Option Nat) (line : Nat) : State :=
  let mine := writer.bind fun k => (s.clusterFind k line).bind fun e => if e.copy.isNone then some k else none
  let mod := if line * 128 < 2 ^ 45 then paSite (line * 128) / 24 else (writer.map modOf).getD 0
  let s := s.dropL1 (fun k => modOf k == mod && writer != some k) fun l => l.line == line && l.copy.isNone
  let others := match mine with
    | some k => s.holders mod (siteOf k) (clusterOf k) line
    | none => s.holders mod (mod * 24 + 24) 0 line
  let s := others.foldl (fun s (n, c, _) => s.evictLine n c ⟨line, 0, .shared, none⟩) s
  match mine with
  | some k =>
    (s.l1Touch k line).setClusterLines (siteOf k) (clusterOf k) (toBack (·.line == line) ((s.clusterLines (siteOf k) (clusterOf k)).map fun e =>
      if e.line = line then { e with state := .modified } else e))
  | none => (s.dropL1 (fun k => writer == some k) fun l => l.line == line && l.copy.isNone).l2Touch line true

/-- A line leaves the L1 and cluster cache of a core's cluster (R221). -/
def dropLine (s : State) (k line : Nat) : State :=
  match s.clusterFind k line with
  | some e => s.evictLine (siteOf k) (clusterOf k) e
  | none => s.dropL1 (inCluster (siteOf k) (clusterOf k)) (·.line == line)

/-- Lines invalidated in every cache of some sites, with nothing written back. -/
def forgetLines (s : State) (at_ : Nat → Bool) (gone : Nat → Bool) : State :=
  let s := s.dropL1 (fun k => at_ (siteOf k)) fun l => gone l.line && l.copy.isNone
  { s with sites := s.sites.map fun (n, t) =>
      (n, if at_ n then { t with clusters := Sparse.mapVals (fun ls => ls.filter fun e => !(gone e.line && e.copy.isNone)) t.clusters }
          else t) }

/-- The halves of a HOST line go back to the host, by DirtyEvict or CleanEvict, and with them the site's copies of it (R418). -/
def evictHalves (s : State) (site line : Nat) : State :=
  if !(s.site site).halves.any fun (h, _) => h / 2 == line then s
  else (s.mapSite site fun t => { t with halves := t.halves.filter fun (h, _) => h / 2 != line }).forgetLines (· == site) (· == line)

/-- Whether an L2 slice holds a line that it has not written to DRAM yet. -/
def l2Dirty (s : State) (line : Nat) : Bool :=
  (Sparse.get [] (s.site (paSite (line * 128))).l2 (paSlice (line * 128))).any fun l => l.line == line && l.dirty

/-- Lines that leave an L2 slice for the DRAM behind it. -/
def l2Forget (s : State) (gone : Nat → Bool) : State :=
  { s with sites := Sparse.mapVals (fun t => { t with l2 := Sparse.mapVals (fun ls => ls.filter fun l => !gone l.line) t.l2 }) s.sites }

/-- Every dirty line of a module's cluster caches and L2 slices is written to DRAM (R423). -/
def writeBackAll (s : State) (mod : Nat) : State :=
  let tidy := fun (e : ClusterLine) => if e.state.isDirty then { e with state := .shared } else e
  let clean := fun (t : Site) => { t with
    clusters := Sparse.mapVals (List.map tidy) t.clusters
    l2 := Sparse.mapVals (List.map fun l => { l with dirty := false }) t.l2 }
  { s with sites := s.sites.map fun (n, t) => (n, if n / 24 = mod then clean t else t) }

/-! Remote copies (R126). -/

/-- The copy a core's L1 holds of a line. -/
def copyOf (s : State) (k line : Nat) : Option RemoteCopy := ((s.core k).l1.find? (·.line == line)).bind (·.copy)

/-- Whether a line of memory is homed in another module than a core's (R126). -/
def farLine (k line : Nat) : Bool := line * 128 < 2 ^ 45 && paSite (line * 128) / 24 != modOf k

/-- A remote copy of a line as its home holds it now. -/
def copyNow (s : State) (k line : Nat) : RemoteCopy :=
  { bytes := s.readMem (addrRange (line * 128) 128), tags := (List.range 8).filter fun i => s.tags.contains (line * 8 + i)
    filled := (s.site (siteOf k)).fab }

/-- Fills of a line under way to the cores of a core's cluster answer their loads but are not installed. -/
def staleFills (s : State) (k : Nat) (hit : Nat → Bool) : State :=
  let late := fun (t : Ctx) => { t with pend := t.pend.map fun p =>
    { p with stale := p.stale || (p.sent && (p.kind == .load || p.kind == .pref) && p.addrs.any fun a => hit (lineOf a)) } }
  { s with cores := s.cores.map fun (j, c) =>
      (j, if inCluster (siteOf k) (clusterOf k) j then { c with ctxs := Sparse.mapVals late c.ctxs } else c) }

/-- An operation that only reads. -/
def opReads : PendKind → Bool
  | .load => true
  | .get => true
  | .flushrd => true
  | _ => false

/-- Whether a core of the cluster has an operation under way that writes a line of another module: a copy read before it
would be older (R124). -/
def lineWritten (s : State) (k line : Nat) : Bool :=
  s.cores.any fun (j, c) => inCluster (siteOf k) (clusterOf k) j && c.ctxs.any fun (_, t) => t.pend.any fun q =>
    !opReads q.kind && q.kind != .pref && q.addrs.any fun a => lineOf a == line

/-- The lines of an access brought into a core's L1 (R104): a hit is touched, and a line that its cluster holds comes from
there (R107); a line homed in another module comes as a remote copy (R126), unless a write to it is under way, which the copy
would lack (R124). -/
def loadLines (s : State) (k : Nat) (far : Bool) (as : List Nat) : State :=
  (linesOf as).foldl (fun s l =>
    if (s.core k).l1.any (·.line == l) then s.l1Touch k l
    else match s.clusterFind k l with
      | some e => s.l1Install k l e.copy
      | none => if far && s.lineWritten k l then s else s.fillLine k l (if far then some (s.copyNow k l) else none)) s

/-- Remote copies leave the L1 and the cluster cache of a core (R126), and with them, since the cluster cache is
inclusive, those of the cluster's other L1 caches (R107). Fills under way are not installed. -/
def dropCopiesOf (s : State) (k : Nat) (hit : Nat → Bool) : State :=
  let site := siteOf k
  let cl := clusterOf k
  let s := (s.staleFills k hit).dropL1 (inCluster site cl) fun l => hit l.line && l.copy.isSome
  if (s.clusterLines site cl).isEmpty then s
  else s.setClusterLines site cl ((s.clusterLines site cl).filter fun e => !(hit e.line && e.copy.isSome))

/-- A remote-copy invalidation (R126): every remote copy of the core goes. -/
def dropCopies (s : State) (k : Nat) : State := s.dropCopiesOf k fun _ => true

/-- A remote copy with some bytes stored over; a granule stored to is untagged unless the store tags it. -/
def overlay (c : RemoteCopy) (line : Nat) (ws : List (Nat × Byte)) (tags : List (Nat × Bool)) : RemoteCopy :=
  let mine := ws.filter fun w => lineOf w.1 == line
  { c with
    bytes := mine.foldl (fun bs (a, b) => bs.set (a % 128) b) c.bytes
    tags := tags.foldl (fun m (g, b) => if b && g / 8 == line then insertNat m (g % 8) else m)
      (c.tags.filter fun i => !mine.any fun w => w.1 % 128 / 16 == i) }

/-- A store to remote memory updates the copies that its core and cluster hold (R126), and its lines become the most recently
used ones (R104). -/
def storeCopies (s : State) (k : Nat) (ws : List (Nat × Byte)) (tags : List (Nat × Bool)) : State :=
  let site := siteOf k
  let cl := clusterOf k
  let mine := linesOf (ws.map (·.1))
  let s := s.mapCore k fun c => { c with
    l1 := toBack (fun l => mine.contains l.line) (c.l1.map fun l => { l with copy := l.copy.map fun r => overlay r l.line ws tags }) }
  if (s.clusterLines site cl).isEmpty then s
  else s.setClusterLines site cl ((s.clusterLines site cl).map fun e => { e with copy := e.copy.map fun r => overlay r e.line ws tags })

/-! Draining ways (R110). -/

/-- The lines of a bank that leaves CACHE mode: none is found any more, remote copies are gone, and the dirty ones are
to be written back. -/
def drainWay (s : State) (bk : Nat) : State × List Nat :=
  let site := bankSite bk
  let cl := bk / 16 % 64
  let mine := (s.clusterLines site cl).filter fun e => e.way == bk % 16
  let s := if mine.isEmpty then s
    else (s.dropL1 (inCluster site cl) fun l => mine.any fun e => e.line == l.line).setClusterLines site cl
      ((s.clusterLines site cl).filter fun e => e.way != bk % 16)
  (s, (mine.filter fun e => e.state.isDirty).map (·.line))

/-! Poison and altered bits. -/

/-- How many of a doubleword's bytes, the symbols of the DRAM's code, a mask alters (R404). -/
def symbols (m : Word) : Nat := ((List.range 8).filter fun i => m.extractLsb' (8 * i) 8 != 0#8).length

/-- How many of a doubleword's bits a mask alters. -/
def bitsSet (m : Word) : Nat := ((List.range 64).filter fun i => m.getLsbD i).length

/-- Whether altered bits are more than the code of their store corrects (R404): one symbol in 64 bytes of DRAM, one bit in a
doubleword of SRAM. -/
def flipBad (s : State) (u : ErrUnit) (m : Word) : Bool :=
  match u with
  | .line a => 1 < ((s.flips.filter fun (v, _) => match v with
      | .line b => b / 64 == a / 64
      | _ => false).map fun (_, n) => symbols n).sum
  | _ => 1 < bitsSet m

/-- Whether a read of a storage address checks a doubleword that is altered. -/
def flipMet (u : ErrUnit) (a : Nat) : Bool :=
  match u with
  | .line b => a / 64 == b / 64
  | u => a / 8 == flipAddr u / 8

/-- Whether the check of an altered doubleword finds data lost (R404): in DRAM, and in a dirty line of a cache, since a clean one
is fetched again. -/
def flipLoses (s : State) (u : ErrUnit) (m : Word) : Bool :=
  s.flipBad u m && (match u with
    | .line _ => true
    | .l2 b => s.l2Dirty (lineOf b)
    | .cluster k b => (s.clusterFind k (lineOf b)).any (·.state.isDirty)
    | _ => false)

/-- The first poisoned byte of a list of storage addresses (R406). Everything on a lost site is poisoned (R411). -/
def poisonedByte (s : State) (as : List Nat) : Option Nat :=
  as.find? fun a =>
    (if sramBase ≤ a && a < teamStore then
      let b := s.bank (bankOf a)
      let off := a - bankBase (bankOf a)
      !(s.site (bankSite (bankOf a))).live
        || b.poison.contains (if b.mode = .fifo then off / 2 ^ (5 + b.slot) else off / 4096)
    else s.poison.contains (a / 128) || (a < 2 ^ 45 && !(s.site (paSite a)).live))
      || s.flips.any fun (u, m) => flipMet u a && s.flipLoses u m

/-- A read checks what it reads (R404): altered bits that it meets are corrected or contained. -/
def checkRead (s : State) (as : List Nat) : State :=
  let hits := s.flips.filter fun (u, _) => as.any (flipMet u)
  if hits.isEmpty then s
  else { s with flips := s.flips.filter fun (u, _) => !as.any (flipMet u) }.pushAll
    (hits.map fun (u, m) => .eccError u (!s.flipBad u m))

/-- A whole slot written to a FIFO loses its poison (R406). -/
def clearSlots (s : State) (p : Place) (as : List Nat) : State :=
  match p with
  | .fifo bk =>
    let b := s.bank bk
    let size := 2 ^ (5 + b.slot)
    if b.poison.isEmpty then s
    else s.mapBank bk fun b => { b with poison := b.poison.filter fun i => !(addrRange (bankBase bk + i * size) size).all as.contains }
  | _ => s

/-- Whether a line's write-back from a draining way is still to be acknowledged (R112). -/
def lineDraining (s : State) (line : Nat) : Bool := s.banks.any fun (_, b) => b.mode == .draining && b.drain.contains line

end State

end Sys2Proof.Machine
end

