-- ==== Sys2Proof/Machine/Ops.lean ====
section
/-!
DEFINITION. The operations instructions and steps share: transactions at their homes and cores (R147 to R161),
pending memory operations with their orders (R77, R123 to R135), held effects and release points (R36, R37),
queue entries (R24, R25), reservations (R229), the end of a task, and TAKING A TRAP (R39, R41, R399 to R401).
-/
namespace Sys2Proof.Machine

/-! Queue entries. -/

/-- Every queue entry a core's NI holds: waiting, or kept by a running task (R29, R249). -/
def Core.entries (c : Core) : List QEntry :=
  c.ni.queue ++ c.ctxs.flatMap fun (_, t) => t.entry.toList ++ t.taken

/-- The place of the next accepted message in the order of acceptance (R378): behind every entry the core holds. -/
def Core.nextAccept (c : Core) : Nat := (c.entries.map (·.accepted)).foldl max 0 + 1

/-- Entries of class `cls` in use: the class's own four, with those a room notice reserves (R24, R25). -/
def Core.ownUsed (c : Core) (cls : Nat) : Nat :=
  (c.entries.filter fun e => e.reserved && e.cls0 == cls).length
    + (c.ni.rooms.filter fun r => r.reserved && r.cls == cls).length

/-- Shared entries in use. -/
def Core.sharedUsed (c : Core) : Nat :=
  (c.entries.filter fun e => !e.reserved).length + (c.ni.rooms.filter fun r => !r.reserved).length

/-- The entry a message of class `cls` would take (R24): its class's own, else a shared one. -/
def Core.freeEntry (c : Core) (cls : Nat) : Option Bool :=
  if c.ownUsed cls < 4 then some true else if c.sharedUsed < 48 then some false else none

namespace State

/-- A mail drop whose replay waits for room goes on (R52). -/
def replayOn (s : State) (k : Nat) : State :=
  match (s.core k).team, s.teamAt k with
  | some uid, some t => if t.state = .replay then s.pushOnce (.maildropClose uid) else s
  | _, _ => s

/-- A team that is quiescing (R50), or that has been killed and still holds its rectangle, is looked at again. -/
def quietOn (s : State) (k : Nat) : State :=
  match (s.core k).team, s.teamAt k with
  | some uid, some t =>
    if t.state = .quiescing then s.pushOnce (.swapOut uid)
    else if t.state = .ended then s.pushOnce (.teamPlace t.part) else s
  | _, _ => s

/-- An entry has freed: it is reserved for the oldest listed message of a suitable class, and that message's NI
gets a room notice (R25). -/
def entryFreed (s : State) (k : Nat) : State :=
  let s := s.replayOn k
  let c := s.core k
  let listed := c.ni.refusals.find? fun (id, cls, _) =>
    (c.freeEntry cls).isSome && !c.ni.rooms.any (fun r => r.id == id)
  match listed with
  | none => s
  | some (id, cls, sender) =>
    let s := s.mapNi k fun ni =>
      { ni with rooms := ni.rooms ++ [⟨id, cls, sender, (c.freeEntry cls).getD false, c.cycle + 2048⟩] }
    s.sendRoom k sender id

/-- A message leaves the machine with its work done (R55). -/
def consume (s : State) (m : Message) : State := s.workDown m.counted

/-- A message that is refused no longer, since core `at_` has accepted it or since it is discarded: the NIs that refused it
forget its listing and its reservation, and acknowledge the end of its chain to the sending NI (R25, R27). -/
def settleMsg (s : State) (at_ : Option Nat) (m : Message) : State :=
  let knows := fun (ni : NI) => ni.refusals.any (·.1 == m.id) || ni.rooms.any (·.id == m.id) || ni.chains.any (·.2 == m.id)
  ((s.cores.filter fun (_, c) => knows c.ni).map fun (k, c) => (k, c.ni)).foldl (fun s (k, ni) =>
    let s := s.mapNi k fun ni =>
      { ni with refusals := ni.refusals.filter (·.1 != m.id), rooms := ni.rooms.filter (·.id != m.id)
                chains := ni.chains.filter (·.2 != m.id) }
    let s := if ni.chains.any (·.2 == m.id) then s.route (agentNi k) (agentNi m.src) 1 0 (.chainAck m.src k) else s
    if ni.rooms.any (·.id == m.id) && at_ != some k then s.entryFreed k else s) s

/-- A message is discarded at a core's NI and counted in STRAYS (R20, R51, R57). -/
def stray (s : State) (k : Nat) (m : Message) : State :=
  ((s.mapNi k fun ni => { ni with strays := sat32 (ni.strays + 1) }).workDown m.counted).settleMsg none m

/-- A core's queue and refusal list emptied, with a room notice to every sender on the list (R25, R50). -/
def noticeAll (s : State) (k : Nat) : State :=
  let rs := (s.core k).ni.refusals
  let s := s.mapNi k fun ni => { ni with refusals := [], rooms := [], queue := [] }
  rs.foldl (fun s (id, _, sender) => s.sendRoom k sender id) s

/-- A queued message is discarded, and its entry frees (R406). -/
def discardEntry (s : State) (k : Nat) (e : QEntry) : State :=
  ((s.mapNi k fun ni => { ni with queue := ni.queue.erase e }).stray k e.msg).entryFreed k

/-! Transactions. -/

/-- The tiles of some storage addresses. -/
def tilesOf (s : State) (as : List Nat) : List Nat := (as.map s.tileOf).foldl insertNat []

/-- The holders of a tile (R156). -/
def tileHolders (d : TileDir) : List (Nat × Nat) := d.readers ++ d.writer.toList

/-- A tile without one transaction (R157, R161). -/
def tileDrop (d : TileDir) (h : Nat × Nat) : TileDir :=
  { d with readers := d.readers.filter (· != h), writer := if d.writer = some h then none else d.writer,
           locked := d.locked && d.writer != some h }

/-- An abort notice leaves a tile's directory (R157) with the directory's counter, which a directory of another site takes
over if it is later (R155). -/
def notice (s : State) (tile : Nat) (h : Nat × Nat) (code : Nat) : State :=
  let home := paSite (tile * 256)
  let dir := agentDir home (paSlice (tile * 256))
  let s := s.routeOnce dir (agentNi h.1) 1 2 (.abortNotice h.1 h.2 code)
  if home = siteOf h.1 then s
  else s.routeOnce dir (agentDir (siteOf h.1) (paSlice (tile * 256))) 1 2 (.ticketAdvance (siteOf h.1) (s.site home).ticket)

/-- Transactions removed from tiles at their homes with a code (R157): each gets an abort notice. -/
def removeHolders (s : State) (tiles : List Nat) (code : Nat) (keep : Option (Nat × Nat)) : State :=
  let hit := tiles.flatMap fun t => ((tileHolders (Sparse.get {} s.tileDirs t)).filter fun h => some h != keep).map fun h => (t, h)
  hit.foldl (fun s (tile, h) =>
    let s := { s with tileDirs := s.tileDirs.map fun (t, d) => (t, if tiles.contains t then tileDrop d h else d) }
    let s := s.mapCtx h.1 h.2 fun c =>
      { c with txn := c.txn.map fun x => if x.removed.isSome then x else { x with removed := some code } }
    s.notice tile h code) s

/-- A transaction dropped at every home (R147, R157). -/
def dropTxn (s : State) (k x : Nat) : State :=
  { s with tileDirs := s.tileDirs.map fun (t, d) => (t, tileDrop d (k, x)) }

/-- The abort word (R148). -/
def abortWord (held : Bool) (depth arg code : Nat) : Word :=
  BitVec.ofNat 64 ((if held then 2 ^ 20 else 0) + (if code = 1 ∨ code = 6 ∨ code = 9 ∨ code = 10 then 2 ^ 19 else 0)
    + depth * 2 ^ 16 + arg * 2 ^ 8 + code)

/-- No taint stands on the tiles of a context: all its slots are bound or freed (R76, R78). -/
def clearTiles (s : State) (k x : Nat) : State :=
  s.mapCore k fun c => { c with
    tiles := Sparse.mapVals (fun a => if a.owner = some x then { a with taint := 0 } else a) c.tiles }

/-- The speculative lines of a transaction leave L1 (R104, R147). -/
def dropSpec (s : State) (k : Nat) (tx : Txn) : State :=
  let gone := linesOf (tx.spec.map (·.1))
  if gone.isEmpty then s else s.mapCore k fun c => { c with l1 := c.l1.filter fun l => !gone.contains l.line }

/-- A context's misses leave the walks they wait for: the instruction that missed is given up (R35, R147). -/
def leaveWalks (s : State) (k x : Nat) : State :=
  let stays := fun (m : Agent × Nat × Access) => m.1 != .ctx k x
  let t := s.site (siteOf k)
  if t.walks.isEmpty then s
  else s.mapSite (siteOf k) fun t =>
    { t with walks := Sparse.mapVals (fun w => { w with waiters := w.waiters.filter stays }) t.walks
             walkQueue := t.walkQueue.filter stays }

/-- A transaction aborts (R147): speculation, log and held effects go, unbound loads and deposits are cancelled,
the snapshot is restored, and the task resumes after the outermost XBEGIN with its ticket kept (R155). -/
def abortTxn (s : State) (k x code arg : Nat) (held : Bool) : State :=
  match (s.ctxAt k x).txn with
  | none => s
  | some tx =>
    let s := (((s.dropTxn k x).clearTiles k x).dropSpec k tx).leaveWalks k x
    s.mapCtx k x fun t =>
      let kept := (t.send.filter (·.committed)) ++ (t.send.filter (!·.committed)).take tx.heldBase
      let t := { t with
        g := Sparse.mapVals (fun r => { r with taint := 0 }) tx.snapG
        streams := tx.snapS, send := kept, txn := none, ticket := some tx.ticket, frame := none, pc := tx.resume
        pend := t.pend.filterMap fun (p : PendOp) => match p.kind with
          | .load => none
          | .get => none
          | .pref => none
          | _ => some { p with dest := .none, slot := none, deps := 0, cancelled := p.dest != Dest.none || p.cancelled }
        slots := 0, slot7 := 0, wait := none, park := none, idle := none, flush := none, flushrd := none, blockDesc := none
        pops := [], relDue := false }
      (t.clearTaint 0xFF).putG tx.dest { val := abortWord held tx.depth arg code }

/-- Speculative bytes seen by their writer (R152, R154). -/
def specByte (s : State) (t : Ctx) (a : Nat) : Byte :=
  match t.txn.bind fun tx => Sparse.find tx.spec a with
  | some b => b
  | none => Mem.read s.mem a

/-! Pending operations. -/

def findOp (s : State) (k x op : Nat) : Option PendOp := (s.ctxAt k x).pend.find? (·.op == op)

def dropOp (s : State) (k x op : Nat) : State :=
  s.mapCtx k x fun t => { t with pend := t.pend.filter (·.op != op) }

def mapOp (s : State) (k x op : Nat) (f : PendOp → PendOp) : State :=
  s.mapCtx k x fun t => { t with pend := t.pend.map fun p => if p.op = op then f p else p }

/-- How an access to a named region under way is served (R112): a bank that has become a FIFO backs no unit any more. -/
def regionServes (s : State) (a : Nat) : Serves :=
  if sramBase ≤ a && a < teamStore && (s.bank (bankOf a)).mode == .fifo then .never else s.serves a

/-- How an access to a place is served at an address (R112). -/
def placeServes (s : State) (p : Place) (a : Nat) : Serves :=
  match p with
  | .own => s.regionServes a
  | .share _ => s.regionServes a
  | _ => s.serves a

/-- A store that goes through L1 (R104). -/
def throughL1 (p : PendOp) : Bool :=
  p.kind == .store && (match p.place with
    | .home _ _ => true
    | .host _ => true
    | _ => false)

/-- Whether any of the addresses lies in a tile locked by a commit (R158, R161). -/
def tileLocked (s : State) (as : List Nat) : Bool :=
  s.tileDirs.any fun (_, d) => d.locked && as.any fun a => d.blocks.contains (a / 256)

/-- The committed effect of a context that goes next: the oldest in its program order (R130). -/
def nextOut (t : Ctx) : Option SendEntry :=
  match t.divert.head?, t.send.find? (·.committed) with
  | some d, some e => if d.after < e.after then some d else some e
  | some d, none => some d
  | none, e => e

/-- The waits of a release, fence or barrier at place `n` in program order (R131, R133): earlier counted operations
acknowledged, earlier committed effects transmitted. -/
def countedDone (t : Ctx) (n : Nat) : Bool :=
  t.sack ≤ (t.pend.filter fun q => q.counted && n ≤ q.seq).length
    && !(t.divert ++ t.send).any fun e => e.committed && e.after < n

/-- A flush that has not begun is not needed while no module is marked; one that has begun is over once every module
has returned (R134). -/
def flushOver (t : Ctx) (f : Option Flush) : Bool :=
  match f with
  | some f => f.mods.isEmpty
  | none => t.peers == 0

/-- The flush of an operation that needs one is done (R134). -/
def flushDone (t : Ctx) (p : PendOp) : Bool := p.rel.all (· < 4) || flushOver t p.flush

/-- An AMO of an intent that same-location order leaves alone (R141): stat, or comm against comm. -/
def looseAmo (q p : PendOp) : Bool :=
  match q.req, p.req with
  | some a, some b => a.stat || b.stat || (a.comm && b.comm)
  | some a, none => a.stat
  | none, some b => b.stat
  | none, none => false

/-- An operation may be performed now: no earlier operation of its context that the kept orders (R124, R127,
R128, R132, R133, R135) put before it is outstanding, L1 has written through the stores before it (R104), and its bank is not
in transition (R112). A load takes its own context's earlier stores from where they wait, one at a time. -/
def opReady (s : State) (t : Ctx) (p : PendOp) : Bool :=
  let before := t.pend.filter fun q => q.seq < p.seq
  !p.sent && p.deps == 0 && !s.tileLocked p.addrs && !p.after.any (fun n => t.pend.any (·.op == n))
    && !p.addrs.any (fun a => s.serves a == .later)
    && (p.kind == .pref || before.all fun q => q.kind == .pref || (q.acq.isNone
        && ((q.kind != .fenceSs && q.rel.isNone) || q.kind == .arrival || opReads p.kind)
        && (!q.addrs.any p.addrs.contains || looseAmo q p || (q.kind == .store && p.kind == .load))))
    && !(throughL1 p && before.any fun q => throughL1 q && !q.sent)
    && ((p.rel.isNone && p.kind != .fenceSs) || (countedDone t p.seq && flushDone t p))

/-- An operation on bytes that a PUT before it in its context's program order, committed and still to leave, will write (R124):
the PUT's write comes first. -/
def behindPut (s : State) (k : Nat) (t : Ctx) (p : PendOp) : Bool :=
  (t.divert ++ t.send).any fun e => e.committed && e.after < p.seq && (match e.eff with
    | .put q => (List.range ((q.dst % 256 + q.len + 255) / 256)).any fun i =>
      let lo := if i = 0 then q.dst else q.dst / 256 * 256 + 256 * i
      let n := min (q.dst + q.len) (q.dst / 256 * 256 + 256 * (i + 1)) - lo
      match s.xlate k lo .write with
      | .ok a _ => p.addrs.any fun b => a ≤ b && b < a + n
      | _ => false
    | _ => false)

/-- The core that owns the block a name word names (R264) for a core of its partition, as a grid-relative destination. -/
def syncOwner (s : State) (k : Nat) (w : Word) : Option Nat :=
  (s.teams.find? fun (_, t) => t.part == s.partAt k && t.grid % 2 ^ 32 == (w.extractLsb' 32 32).toNat
    && t.idx == (w.extractLsb' 16 16).toNat).map fun (_, t) =>
      teamCore t (w.extractLsb' 6 5).toNat (w.extractLsb' 11 5).toNat

/-- The module a place belongs to. -/
def placeMod (k : Nat) : Place → Nat
  | .share o => modOf o
  | .home site _ => site / 24
  | _ => modOf k

/-- The agent that serves an operation (R218, R226). -/
def placeAgent (k : Nat) (amo : Bool) : Place → Nat
  | .share o => agentNi o
  | .home site slice => if amo then agentHod site slice else agentDir site slice
  | .host site => agentGw site
  | _ => agentNi k

/-- Whether every line of some addresses is in a core's L1 (R104), or in its cluster's cache (R107). -/
def l1Hit (s : State) (k : Nat) (as : List Nat) : Bool :=
  as.all fun a => (s.core k).l1.any fun l => l.line == lineOf a
def clusterHit (s : State) (k : Nat) (as : List Nat) : Bool := as.all fun a => (s.clusterFind k (lineOf a)).isSome

/-- A load that bypasses remote copies (R132): an acquire at DOMAIN or SYSTEM. -/
def bypasses (p : PendOp) : Bool := (p.kind != .load && p.kind != .pref) || p.acq.any (4 ≤ ·)

/-- The context's own latest earlier store, not performed yet, to an address that `hit` selects (R124). -/
def ownStore (t : Ctx) (p : PendOp) (hit : Nat → Bool) : Option PendOp :=
  (t.pend.filter fun q => q.seq < p.seq && q.kind == .store && q.addrs.any hit).getLast?

/-- A byte as a load of the context finds it (R124, R126): its own latest earlier store, a remote copy, or the
home. -/
def loadByte (s : State) (k : Nat) (t : Ctx) (p : PendOp) (a : Nat) : Byte :=
  match ownStore t p (· == a) with
  | some q => q.data.getD (q.addrs.idxOf a) 0
  | none => match s.copyOf k (lineOf a) with
    | some c => if bypasses p then Mem.read s.mem a else c.bytes.getD (a % 128) 0
    | none => Mem.read s.mem a

/-- A granule's tag as a load of the context finds it (R69, R126), where its bytes come from. -/
def granTag (s : State) (k : Nat) (t : Ctx) (p : PendOp) (gr : Nat) : Bool :=
  match ownStore t p (fun a => a / 16 == gr) with
  | some q => q.tags.any fun (g, b) => g == gr && b
  | none => match s.copyOf k (gr / 8) with
    | some c => if bypasses p then s.tags.contains gr else c.tags.contains (gr % 8)
    | none => s.tags.contains gr

/-- The tag a capability load finds (R69). -/
def loadTag (s : State) (k : Nat) (t : Ctx) (p : PendOp) : Bool := s.granTag k t p (p.addrs.headD 0 / 16)

/-- A vector value with some lanes replaced by consecutive runs of bytes. -/
def putLanes (v : VWord) (w : Nat) (lanes : List Nat) (bytes : List Byte) : VWord :=
  (lanes.zipIdx.foldl (fun (v : Nat) (lane, i) =>
    let x := ofBytes ((bytes.drop (i * (w / 8))).take (w / 8))
    v - v / 2 ^ (lane * w) % 2 ^ w * 2 ^ (lane * w) + x * 2 ^ (lane * w)) v.toNat) |> BitVec.ofNat 512

/-- A value reaches its destination (R76, R81): the register is written, the operation ends, its slot binds. -/
def deposit (s : State) (k x : Nat) (p : PendOp) (bytes : List Byte) (tg : Bool) : State :=
  let s := s.dropOp k x p.op
  let s := match p.dest, p.fin with
    | .g n, .int size sgn =>
      let raw := ofBytes (bytes.take size)
      let val := if sgn then BitVec.ofInt 64 (intOf (8 * size) true raw) else BitVec.ofNat 64 raw
      s.mapCtx k x fun t => t.putG n { val, taint := (t.gr n).taint }
    | .g n, .cap keep =>
      s.mapCtx k x fun t => t.putG n
        { val := BitVec.ofNat 64 (ofBytes (bytes.take 8)), desc := BitVec.ofNat 64 (ofBytes ((bytes.drop 8).take 8)),
          tag := tg && keep, taint := (t.gr n).taint }
    | .v n, .vec lanes w bcast =>
      let bytes := if bcast then (List.replicate lanes.length (bytes.take (w / 8))).flatten else bytes
      s.mapCtx k x fun t => t.putV n { t.vr n with val := putLanes (t.vr n).val w lanes bytes }
    | .a n, _ =>
      s.mapCore k fun c =>
        let tl : Tile := Sparse.get {} c.tiles n
        let elems := (List.range 256).foldl (fun m i =>
          Sparse.set m i (BitVec.ofNat 64 (ofBytes ((bytes.drop (8 * i)).take 8)))) []
        { c with tiles := Sparse.set c.tiles n { tl with elems } }
    | _, _ => s
  match p.slot with
  | some n => s.bindSlot k x n
  | none => s

/-- A byte as a load finds it where it is served: zero where its bank backs it no more (log 78). -/
def foundByte (s : State) (k : Nat) (t : Ctx) (p : PendOp) (a : Nat) : Byte :=
  if s.placeServes p.place a == .now then s.loadByte k t p a else 0

/-- A load binds from what it finds (R76), its lines the most recently used ones (R104). An acquire at DOMAIN or SYSTEM
invalidates remote copies (R132), and an IDLE context wakes (R402). -/
def bindLoad (s : State) (k x : Nat) (p : PendOp) : State :=
  let t := s.ctxAt k x
  let bytes := p.addrs.map (s.foundByte k t p)
  let tg := s.loadTag k t p
  let s := (linesOf p.addrs).foldl (fun s l => if s.l1Hit k [l * 128] then s.l1Touch k l else s) (s.deposit k x p bytes tg)
  let s := if p.acq.any (4 ≤ ·) then s.dropCopies k else s
  if t.idle.isSome then s.pushOnce (.idleWake k x) else s

/-- Lines that hit in the cluster's cache come into L1, remote copies with the time of their fill (R107, R126). -/
def fillFromCluster (s : State) (k : Nat) (as : List Nat) : State :=
  (linesOf as).foldl (fun s l => match s.clusterFind k l with
    | some e => if s.l1Hit k [l * 128] then s else s.l1Install k l e.copy
    | none => s) s

/-- The entry of the combine buffer an AMO merges into (R142). -/
def combineFind (ni : NI) (r : AmoReq) (place : Place) : Option Nat :=
  ni.combine.findIdx? fun e => e.req.addr == r.addr && e.req.op == r.op && e.req.comm == r.comm && e.req.stat == r.stat
    && e.req.scope == r.scope && e.place == place

/-- The combined operand of two merged AMOs (R142). -/
def combineOp (op : Nat) (a b : Word) : Word :=
  let lo := fun (w : Word) => w.toNat % 2 ^ 32
  match op with
  | 0 => a + b
  | 1 => a &&& b
  | 2 => a ||| b
  | 3 => a ^^^ b
  | 4 => if a.slt b then a else b
  | 5 => if a.slt b then b else a
  | 6 => if a.ult b then a else b
  | 7 => if a.ult b then b else a
  | 10 => BitVec.ofNat 64 (fpAddPlain fmt64 a.toNat b.toNat)
  | 16 => BitVec.ofNat 64 ((lo a + lo b) % 2 ^ 32)
  | 17 => BitVec.ofNat 64 (fpAddPlain fmt32 (lo a) (lo b))
  | 18 => if intOf 32 true a.toNat < intOf 32 true b.toNat then a else b
  | 19 => if intOf 32 true a.toNat < intOf 32 true b.toNat then b else a
  | _ => b

/-- An AMO's new value (R225, R231): `op` as in `AmoReq`. -/
def amoResult (op : Nat) (m o e : Word) : Word :=
  match op with
  | 8 => o
  | 9 => if m = e then o else m
  | 16 => m.extractLsb' 32 32 ++ ((combineOp 16 m o).extractLsb' 0 32 : BitVec 32)
  | 17 => m.extractLsb' 32 32 ++ ((combineOp 17 m o).extractLsb' 0 32 : BitVec 32)
  | 18 => m.extractLsb' 32 32 ++ ((combineOp 18 m o).extractLsb' 0 32 : BitVec 32)
  | 19 => m.extractLsb' 32 32 ++ ((combineOp 19 m o).extractLsb' 0 32 : BitVec 32)
  | op => combineOp op m o

/-- An AMO sent to its home (R226): the owning NI for a named region, else the home hod or the CXL agent. -/
def sendAmo (s : State) (k : Nat) (r : AmoReq) (place : Place) : State :=
  match place with
  | .own => s.push (.niAtomic k r none)
  | .share o => s.route (agentNi k) (agentNi o) 1 0 (.niAtomic o r none)
  | p => s.route (agentNi k) (placeAgent k true p) 1 0 (.homeAmo r)

/-- A combine-buffer entry is sent (R142). -/
def combineSend (s : State) (k i : Nat) : State :=
  match (s.core k).ni.combine[i]? with
  | none => s
  | some e => (s.mapNi k fun ni => { ni with combine := ni.combine.eraseIdx i }).sendAmo k e.req e.place

/-- A comm or stat AMO without return enters the combine buffer (R142): it merges, or takes a place, sending the
oldest entry when there is none. -/
def combineEnter (s : State) (k : Nat) (r : AmoReq) (place : Place) : State :=
  let ni := (s.core k).ni
  match combineFind ni r place with
  | some i =>
    s.mapNi k fun ni => { ni with combine := ni.combine.modify i fun e =>
      { e with req := { e.req with opnd := combineOp e.req.op e.req.opnd r.opnd, acks := e.req.acks ++ r.acks } } }
  | none =>
    let s := if 16 ≤ ni.combine.length then s.combineSend k 0 else s
    s.mapNi k fun ni => { ni with combine := ni.combine ++ [⟨r, place, (s.core k).cycle⟩] }

/-- Every comm entry that holds a counted operation of the context before place `n` in its program order is sent, for
a release, fence, SENDR or arrival that waits on the count (R142). -/
def combineFlush (s : State) (k x n : Nat) : State :=
  let waits := fun (op : Nat) => (s.ctxAt k x).pend.any fun p => p.op == op && p.counted && p.seq < n
  ((s.core k).ni.combine.filter fun e => e.req.comm && e.req.acks.any fun (y, op) => y == x && waits op).foldl (fun s e =>
    match (s.core k).ni.combine.findIdx? (· == e) with
    | some i => s.combineSend k i
    | none => s) s

/-- The step that reads at the home for GET and FLUSHRD (R247, R248). -/
def homeRead (k x : Nat) (p : PendOp) : Event :=
  match p.place with
  | .own => .remoteRegionAccess k x p.op
  | .share _ => .remoteRegionAccess k x p.op
  | _ => .lineFill k x p.op

/-- The step that performs a store at its home (R218). -/
def storeReq (k x : Nat) (p : PendOp) : Event :=
  match p.place with
  | .share _ => .remoteRegionAccess k x p.op
  | _ => .storePerform k x p.op

/-- Bytes and tags written at their home (R123): copies that would return an older value are invalidated. `writer` is
the core whose store it is. -/
def writeHome (s : State) (ws : List (Nat × Byte)) (tags : List (Nat × Bool)) (writer : Option Nat) : State :=
  let s := tags.foldl (fun s (g, b) => s.setTag g b) (s.writeMem ws)
  (linesOf ((ws.map (·.1)).filter fun a => a < sramBase)).foldl (fun s l => s.wroteLine writer l) s

/-- A write is performed at its home (R123), and transactions that hold its tiles abort with code 6 (R158). -/
def performWrite (s : State) (ws : List (Nat × Byte)) (tags : List (Nat × Bool)) (writer : Option Nat := none) : State :=
  (s.removeHolders (s.tilesOf (ws.map (·.1))) 6 none).writeHome ws tags writer

/-- A context without a task has nothing outstanding any more: its grid may be complete (R144), and its team leave (R50, R57). -/
def settled (s : State) (k x : Nat) : State :=
  let t := s.ctxAt k x
  if t.occupied || !t.pend.isEmpty || t.sack != 0 then s
  else match s.teamAt k with
    | some tm => (s.push (.gridComplete tm.grid)).quietOn k
    | none => s

/-- An operation of a context is acknowledged (R130): the step travels back to the core. -/
def ackStore (s : State) (k x : Nat) (p : PendOp) : State :=
  if p.counted then s.answer (storeReq k x p) (.storeAck k x) else (s.ack (storeReq k x p)).settled k x

/-- A posted write has been performed: fills of its lines that its core's cluster has under way may lack it, and so may the
copies held, which a store has updated at its issue (R124, R126). -/
def afterPosted (s : State) (k : Nat) (p : PendOp) : State :=
  let hit := fun (l : Nat) => p.addrs.any fun a => lineOf a == l
  if placeMod k p.place = modOf k then s
  else if p.kind = .store then s.staleFills k hit else s.dropCopiesOf k hit

/-- The writes of a pending store made (R123); one to a unit that its bank has stopped backing is lost (R112). A FIFO slot written
whole loses its poison (R406). -/
def storeDone (s : State) (k x : Nat) (p : PendOp) : State :=
  let ws := (p.addrs.zip p.data).filter fun w => s.placeServes p.place w.1 == .now
  let s := ((s.performWrite ws (p.tags.filter fun g => s.placeServes p.place (g.1 * 16) == .now) (some k)).clearSlots p.place
    (ws.map (·.1))).dropOp k x p.op
  (s.afterPosted k p).ackStore k x p

/-- Accesses of a core's own bank ports, which come before those of NIs in a cycle (R113). -/
def localPlace : Place → Bool
  | .own => true
  | .fifo _ => true
  | _ => false

/-- An operation that is ready goes to its home (R218). -/
def launch (s : State) (k x : Nat) (p : PendOp) : State :=
  let sent := s.mapOp k x p.op fun q => { q with sent := true }
  let go := fun (owner : Nat) (e : Event) =>
    if s.mayRoute (agentNi k) owner then sent.route (agentNi k) owner (1 + dataFlits p.data.length) 0 e else s
  let byRoute := go (placeAgent k false p.place)
  match p.kind with
  | .load =>
    match p.place with
    | .own => s.bindLoad k x p
    | .fifo _ => s.bindLoad k x p
    | .share _ => byRoute (.remoteRegionAccess k x p.op)
    | _ =>
      if bypasses p then byRoute (.lineFill k x p.op)
      else if s.l1Hit k p.addrs then s.bindLoad k x p
      else if s.clusterHit k p.addrs then (s.fillFromCluster k p.addrs).bindLoad k x p
      else byRoute (.lineFill k x p.op)
  | .pref => if s.l1Hit k p.addrs then s.dropOp k x p.op else byRoute (.lineFill k x p.op)
  | .get => byRoute (homeRead k x p)
  | .flushrd => byRoute (homeRead k x p)
  | .store => if localPlace p.place then s.storeDone k x p else byRoute (storeReq k x p)
  | .clean => byRoute (.storePerform k x p.op)
  | .amo =>
    match p.req with
    | none => s
    | some r =>
      if r.ret.isNone && (r.comm || r.stat) then (if r.stat then s.dropOp k x p.op else sent).combineEnter k r p.place
      else if s.mayRoute (agentNi k) (placeAgent k true p.place) then sent.sendAmo k r p.place
      else s
  | .lrw => byRoute (.lrwEnqueue k x p.op)
  | .sc => byRoute (.scHome k x p.op)
  | .put =>
    match p.req with
    | none => s
    | some r => match p.place with
      | .share o => go (agentNi o) (.putIncrement k x p.op r)
      | .own => byRoute (.putIncrement k x p.op r)
      | _ => go (placeAgent k true p.place) (.putIncrement k x p.op r)
  | .post =>
    match p.mail with
    | none => s
    | some m => go (agentNi m.dst) (.mailboxPost m)
  | .fenceSs => s.dropOp k x p.op
  | .arrival =>
    match p.arr with
    | none => s
    | some a =>
      let owner := agentNi (s.syncOwner k a.blk |>.getD k)
      if s.mayRoute (agentNi k) owner then (s.dropOp k x p.op).route (agentNi k) owner 1 0 (.barrierArrival a) else s

/-- The modules of a written-peers mask (R130). -/
def peersOf (m : BitVec 8) : List Nat := (List.range 8).filter fun i => m.getLsbD i

/-- A flush of the modules whose bit is set (R134), which covers the operations before place `upto`. -/
def newFlush (t : Ctx) (mods : List Nat) (upto : Nat) : Flush := ⟨mods, t.opNo, upto⟩

/-- A FLUSHRD to each of some modules (R134): for another module it goes to the gateway of the same site there. -/
def askFlush (s : State) (k x : Nat) (mods : List Nat) : State :=
  mods.foldl (fun s m =>
    s.routeOnce (agentNi k) (agentGw (if m = modOf k then siteOf k else m * 24 + siteOf k % 24)) 1 0 (.flushReturn k x m)) s

/-- A release or FENCE.ss at DOMAIN or SYSTEM whose other waits are over starts its flush (R133, R134). -/
def startFlush (s : State) (k x : Nat) (p : PendOp) : State :=
  let t := s.ctxAt k x
  if p.rel.any (4 ≤ ·) && p.flush.isNone && t.peers != 0 && countedDone t p.seq then
    (s.mapOp k x p.op fun q => { q with flush := some (newFlush t (peersOf t.peers) p.seq) }).askFlush k x (peersOf t.peers)
  else s

/-- The modules that flushes of a context have under way. -/
def flushMods (t : Ctx) : List Nat := (t.flush.toList ++ t.flushrd.toList ++ t.pend.filterMap (·.flush)).flatMap (·.mods)

/-- Pending operations of a context that have become ready go on, in program order; its flushes are looked at
again, and so are its committed effects. -/
def kick (s : State) (k x : Nat) : State :=
  let s := ((s.ctxAt k x).pend.map (·.op)).foldl (fun s op =>
    match s.findOp k x op with
    | none => s
    | some p =>
      let s := if p.rel.isSome then (s.startFlush k x p).combineFlush k x p.seq else s
      if s.opReady (s.ctxAt k x) p && !s.behindPut k (s.ctxAt k x) p then s.launch k x p else s) s
  let t := s.ctxAt k x
  let onWay := fun (m : Nat) => (s.xmitOf (agentNi k)).any (·.step == .flushReturn k x m)
  let s := ((flushMods t).filter (!onWay ·)).foldl (fun s m => s.pushOnce (.flushReturn k x m)) s
  if (nextOut t).isSome then s.pushOnce (.niTransmit k x) else s

/-- Every context of a site that waits on a store is looked at again. -/
def kickAll (s : State) : State :=
  (s.cores.flatMap fun (k, c) => (c.ctxs.filter fun (_, t) => !t.pend.isEmpty).map fun (x, _) => (k, x)).foldl
    (fun s kx => s.kick kx.1 kx.2) s

/-- The name a reply gives its destination (R31): a register's number, or the name of a tile. -/
def destName (c : Core) (t : Ctx) : Dest → Nat
  | .g n => n
  | .v n => n
  | .a n => if (Sparse.find c.tiles n).isSome then ((t.tiles.find? fun (_, q) => q == n).map (·.1)).getD 0 else 0
  | .none => 0

/-- An operation of the issuing context takes the next place in its program order. -/
def addOp (s : State) (p : PendOp) : State :=
  let name := destName s.here s.task p.dest
  s.mapTask fun t => { t with opNo := t.opNo + 1, pend := t.pend ++ [{ p with op := t.opNo, seq := t.opNo, gen := t.gen, name }] }

/-- An operation of the issuing context is counted, or posted to module `m`, whose bit it sets (R130). -/
def countOp (s : State) (m : Nat) : State :=
  s.mapTask fun t =>
    if m = modOf s.cur then { t with sack := t.sack + 1 }
    else { t with peers := t.peers ||| 1#8 <<< m, posted := Sparse.set t.posted m t.opNo }

/-- A load issues (R74, R75, R77): a slot for a register destination, the destination's taint, and the operation. The
slot is taken before deposits pending on the destination are cancelled, which binds theirs (R74, R81). `keep` is taint
that joins the destination's without being waited for. -/
def issueLoad (s : State) (dest : Dest) (p : PendOp) (taint : BitVec 8) (keep : BitVec 8 := 0) : State :=
  match dest with
  | .none => (s.addOp { p with dest := .none, deps := taint }).kick s.cur s.ctx
  | d =>
    let n := s.task.slotFor
    let s := s.mapTask fun t => t.takeSlot n
    let deps := s.cancelTaint d taint
    let tn := slotBit n ||| s.cancelTaint d (taint ||| keep)
    let s := s.cancel d
    let s := match d with
      | .g r => s.mapTask fun t => t.putG r { t.gr r with taint := tn }
      | .v r => s.mapTask fun t => t.putV r { t.vr r with taint := tn }
      | .a r => s.mapCore s.cur fun c =>
          { c with tiles := Sparse.set c.tiles r { (Sparse.get {} c.tiles r : Tile) with taint := tn } }
      | .none => s
    (s.addOp { p with dest := d, slot := some n, deps }).kick s.cur s.ctx

/-- A store issues (R130): counted when homed in the module, else posted with its target's bit set, and the remote copies
of its core and cluster take the bytes at once (R126). -/
def issueStore (s : State) (p : PendOp) : State :=
  let m := placeMod s.cur p.place
  let own := m == modOf s.cur
  let s := s.countOp m
  let s := if own then s else s.storeCopies s.cur (p.addrs.zip p.data) p.tags
  (s.addOp { p with counted := own }).kick s.cur s.ctx

/-- A pending store is performed (R123, R133). -/
def performStore (s : State) (k x : Nat) (p : PendOp) : State := (s.storeDone k x p).kick k x

/-! The host's copies. -/

/-- The 64-byte halves of some storage addresses (R418, R420). -/
def halvesOf (as : List Nat) : List Nat := (as.map (· / 64)).foldl insertNat []

/-- A site's host MESI state of a half: 0 I, 1 S, 2 E, 3 M (R418). -/
def halfState (s : State) (site h : Nat) : Nat := (((s.site site).halves.find? (·.1 == h)).map (·.2)).getD 0

/-- An access that must wait for the host, with what it asks of the host: the halves of a HOST line its CXL agent
lacks (R418), or a back-invalidate of halves of device memory that the host holds (R420). None where it need not. A
step `e` waits beside it. -/
def hostAsk (s : State) (site : Nat) (as : List Nat) (write : Bool) (e : Option Event) : Option State :=
  let hs := halvesOf as
  let held := hs.filter fun h => h < 2 ^ 39
    && (s.site (paSite (h * 64))).hdm.any fun (j, v) => j == h && (write || v == 2)
  let need := (if write then hs else halvesOf (as.flatMap fun a => [a / 128 * 128, a / 128 * 128 + 64])).filter fun h =>
    2 ^ 39 ≤ h && h < 2 ^ 42
  let lack := need.filter fun h => s.halfState site h < (if write then 2 else 1)
  let wait := fun (s : State) (st : Nat) =>
    s.mapSite st fun t => { t with hostWait := (e.toList.filter fun e => !t.hostWait.contains e).foldl (fun l e => l ++ [e]) t.hostWait }
  let want := if write then 1 else 0
  match held, lack with
  | h :: _, _ =>
    let s := held.foldl (fun s h => s.mapSite (paSite (h * 64)) fun t =>
      { t with bisnp := Sparse.set t.bisnp h (max want (Sparse.get 0 t.bisnp h)) }) s
    some (wait s (paSite (h * 64)))
  | [], _ :: _ =>
    some (wait (lack.foldl (fun s h => s.mapSite site fun t =>
      { t with halfReq := Sparse.set t.halfReq h (max want (Sparse.get 0 t.halfReq h)) }) s) site)
  | [], [] => none

/-- A step that must wait for the host. -/
def hostHold (s : State) (site : Nat) (as : List Nat) (write : Bool) (e : Event) : Option State :=
  s.hostAsk site as write (some e)

/-- A HOST access that is served: its halves become the most recently used, and those it writes M (R418). -/
def hostUse (s : State) (site : Nat) (as : List Nat) (write : Bool) : State :=
  let hs := (halvesOf as).filter fun h => 2 ^ 39 ≤ h && h < 2 ^ 42
  hs.foldl (fun s h =>
    let v := if write then 3 else s.halfState site h
    s.mapSite site fun t => { t with halves := t.halves.filter (·.1 != h) ++ [(h, v)] }) s

/-! Translation for agents that are no core. -/

/-- The walker sets A, and D before a first write, with an ord AOR at the entry's home (R384, R385). -/
def walkUpdate (s : State) (entry : Nat) (leaf : Word) (acc : Access) : State :=
  let w := leaf ||| 0x80#64 ||| (if accWrites acc then 0x100#64 else 0)
  if w = leaf then s else s.performWrite ((addrRange entry 8).zip (bytesOf 8 w.toNat)) []

/-- Where an agent outside the module, or the sequencer, homes a region (R115). -/
def outsideHome (s : State) (part va : Nat) : Nat × Nat := (s.lookupSite part (va / 65536), va / 65536 % 64)

/-- A field of a doubleword of storage. -/
def fieldAt (s : State) (a lo n : Nat) : Nat := s.readMem (addrRange a 8) |> ofBytes |> (· / 2 ^ lo % 2 ^ n)

/-- The physical address of a stripe descriptor (R393). -/
def stripeDesc (s : State) (part i : Nat) : Nat :=
  ((s.part part).strbase.extractLsb' 13 35).toNat * 8192 + 32 * i

/-- A peer entry as stored (R393): whether it is valid, and the peer. -/
def peerAt (s : State) (a : Nat) : Bool × StripePeer :=
  (s.fieldAt a 63 1 == 1, ⟨s.fieldAt a 29 3, s.fieldAt a 24 5, s.fieldAt a 0 15⟩)

/-- An override entry as stored (R394). -/
def overrideAt (s : State) (a : Nat) : OverrideEntry :=
  { first := s.fieldAt (a + 8) 24 40, lenm1 := s.fieldAt (a + 8) 16 8, state := s.fieldAt (a + 8) 14 2
    npeer := s.fieldAt (a + 8) 2 8, nslice := s.fieldAt (a + 8) 0 2 * 16 + s.fieldAt a 60 4, nroff := s.fieldAt a 37 23
    cpeer := s.fieldAt a 29 8, cslice := s.fieldAt a 23 6, croff := s.fieldAt a 0 23 }

/-- A stripe table as the store holds it (R393): its descriptor, peer entries and override entries. -/
def readStripe (s : State) (part i : Nat) : Stripe :=
  let d := s.stripeDesc part i
  let n := s.fieldAt d 0 8
  let peers := s.fieldAt (d + 16) 0 64
  let ovr := s.fieldAt (d + 24) 0 64
  { valid := s.fieldAt d 63 1 == 1, n, firstb := s.fieldAt (d + 8) 0 40, nblk := s.fieldAt (d + 8) 40 24
    peers := (List.range n).map fun j => (s.peerAt (peers + 8 * j)).2
    overrides := (List.range (s.fieldAt d 16 13)).map fun j => s.overrideAt (ovr + 16 * j) }

/-- A striped page's table is cached before its use (R387, R394). -/
def loadStripe (s : State) (part : Nat) (leaf : Word) : State :=
  let i := pteStripe leaf
  if pteMtype leaf ≠ 1 || (Sparse.find (s.part part).stripes i).isSome then s
  else s.mapPart part fun p => { p with stripes := Sparse.set p.stripes i (s.readStripe part i) }

/-- The cause of a fault on a page whose frame is not found (R382, R393, R394). -/
def stripeFault (s : State) (part : Nat) (leaf : Word) (va : Nat) : Nat :=
  if pteMtype leaf ≠ 1 then fBADPTE else match (Sparse.find (s.part part).stripes (pteStripe leaf)).bind (stripePa · va) with
  | some _ => fBADPTE
  | none => fSTRIPE

/-- A DRAM site whose controllers hold no key slots since a SITE reset (R362, R429). -/
def unkeyed (s : State) (a : Nat) : Bool := a < 2 ^ 45 && !(s.site (paSite a)).keyed

/-- Whether a walk can set A, and D before a first write (R384, R385): an ord AOR waits for a locked tile (R158), and for a
half of the entry that the host may hold (R420). Asks the host where it must. -/
def walkHeld (s : State) (entry : Nat) (leaf : Word) (acc : Access) : Option State :=
  if leaf.getLsbD 7 && (pteD leaf || !accWrites acc) then none
  else if s.tileLocked (addrRange entry 8) then some s
  else s.hostAsk (paSite entry) (addrRange entry 8) true none

/-- Translation for an agent that is no core (R366, R420, R439): the address, or a fault cause; a unit in a bank that
changes its mode waits, and one that its bank no longer backs is not valid (R112, log 78). A first touch homes the region at `home`, the site and slice R115 gives for the agent.
Such an agent has no buffers: it walks within its own step (DESIGN CHOICE, log 67). A and D are set once the frame is found (R384). -/
def agentXlate (s : State) (part : Nat) (sup : Bool) (frm : Nat) (home : Nat × Nat) (va : Nat) (acc : Access) : State × (Nat ⊕ Nat) :=
  match s.findWindow part va with
  | some w =>
    let a := w.storage + (va - w.base)
    (s, match s.serves a with
      | .now => .inl a
      | .later => .inr fWAIT
      | .never => .inr fNOTVALID)
  | none =>
    match s.walk part sup va acc with
    | .fault c => (s, .inr c)
    | .leaf entry leaf base _ =>
      let s := s.loadStripe part leaf
      let use := fun (s : State) (a : Nat) =>
        if s.unkeyed a then (s, .inr fKEY)
        else match s.walkHeld entry leaf acc with
          | some s => (s, .inr fWAIT)
          | none => (s.walkUpdate entry leaf acc, .inl a)
      match s.leafXlate frm part leaf base va with
      | .ok a _ => use s a
      | .touch =>
        match s.homeRegion part va home.1 home.2 with
        | .inr c => (s, .inr c)
        | .inl s =>
          match s.leafXlate frm part leaf base va with
          | .ok a _ => use s a
          | _ => (s, .inr fBADPTE)
      | _ => (s, .inr (s.stripeFault part leaf va))

/-! Held effects and release points. -/

/-- Effects of the context still held (R36, R214). -/
def heldCount (t : Ctx) : Nat := (t.send.filter (!·.committed)).length

/-- Held effects committed (R37), each with the next number in the context's program order (R131). -/
def commitAll (n : Nat) : List SendEntry → List SendEntry
  | [] => []
  | e :: es => if e.committed then e :: commitAll n es else { e with committed := true, after := n } :: commitAll (n + 1) es

/-- A release point is passed (R37): held effects are committed in program order, the queue entries of the
message and of messages taken free, the messages are consumed, and the task counts as released (R39). -/
def release (s : State) (k x : Nat) : State :=
  let t := s.ctxAt k x
  let gone := t.taken ++ t.entry.toList
  let s := s.mapCtx k x fun t =>
    { t with
      send := commitAll t.opNo t.send, opNo := t.opNo + heldCount t
      entry := none, taken := [], released := true }
  let s := gone.foldl (fun s e => (s.consume e.msg).entryFreed k) s
  if t.send.isEmpty then s else s.pushOnce (.niTransmit k x)

/-- Hold(e) (R36, R37, R150): outside a transaction a 33rd effect commits the others first; the instruction
stalls while the buffer has no free entry. Inside one it aborts with code 2. `done` continues after the entry. -/
def hold (s : State) (e : Effect) (done : State → Host.Outcome State Fault Refusal) :
    Host.Outcome State Fault Refusal :=
  let t := s.task
  if heldCount t = 32 then
    match t.txn with
    | some _ => .next (s.abortTxn s.cur s.ctx 2 0 false)
    | none => stall (s.release s.cur s.ctx)
  else if 32 ≤ t.send.length then stall (s.pushOnce (.niTransmit s.cur s.ctx))
  else done (s.mapTask fun t => { t with send := t.send ++ [{ eff := e }] })

/-! Reservations. -/

/-- The operation of an ended task that is still owed its reply (R32), or of the context's task. -/
def askedOp (s : State) (k x op : Nat) : Option PendOp :=
  match (s.ctxAt k x).owed.find? (·.op == op) with
  | some p => some p
  | none => s.findOp k x op

/-- The kind of reply an operation waits for (R31). -/
def replyKind (p : PendOp) : ReplyKind :=
  match p.kind, p.fin with
  | .get, _ => .get
  | .flushrd, _ => .flushrd
  | .amo, _ => .amo
  | .lrw, _ => .grant
  | .sc, _ => .sc
  | _, .vec _ _ _ => .vload
  | _, .tile => .tload
  | _, _ => .load

/-- A reply with an operation's reply address (R30). -/
def replyTo (k x : Nat) (p : PendOp) (kind : ReplyKind) (bytes : List Byte) (tg : Bool) : Reply :=
  { core := k, ctx := x, gen := p.gen, op := p.op, kind, dest := p.name
    val := BitVec.ofNat 64 (ofBytes (bytes.take 8)), desc := BitVec.ofNat 64 (ofBytes ((bytes.drop 8).take 8)), tag := tg
    bytes }

/-- A reservation is granted (R228, R159): transactions that hold its tile abort with code 9, and the word goes to
the holder. -/
def grant (s : State) (addr : Nat) (h : Nat × Nat × Nat × Nat) : State :=
  let (k, x, _, op) := h
  let s := s.removeHolders [s.tileOf addr] 9 none
  let r : Resv := { (Sparse.get {} s.resv addr) with holder := some h, granted := (s.site (paSite addr)).fab }
  let s := { s with resv := Sparse.set s.resv addr r }
  match s.askedOp k x op with
  | none => s
  | some p => s.answer (.lrwEnqueue k x op) (.replyDeposit (replyTo k x p .grant (s.readMem (addrRange addr 8)) false))

/-- A reservation passes to the next waiter, or frees (R229). -/
def passResv (s : State) (addr : Nat) : State :=
  let r := Sparse.get {} s.resv addr
  match r.queue with
  | [] => { s with resv := Sparse.erase s.resv addr }
  | h :: rest => ({ s with resv := Sparse.set s.resv addr { r with holder := none, queue := rest } }).grant addr h

/-- The reservations of a context go on (R209, R229), and its queued requests leave (R35). -/
def dropResv (s : State) (k x : Nat) : State :=
  let mine := fun (h : Nat × Nat × Nat × Nat) => h.1 == k && h.2.1 == x
  let s := { s with resv := Sparse.mapVals (fun r => { r with queue := r.queue.filter fun h => !mine h }) s.resv }
  (s.resv.filter fun (_, r) => r.holder.any mine).foldl (fun s (a, _) => s.passResv a) s

/-! The end of a task. -/

/-- Operations that a reply answers (R30). -/
def replies (p : PendOp) : Bool :=
  match p.kind with
  | .load => (match p.place with | .share _ => true | _ => false)
  | .get => true
  | .amo => p.req.any fun r => r.ret.isSome
  | .lrw => true
  | .sc => true
  | .flushrd => p.dest != Dest.none || p.cancelled
  | _ => false

/-- Operations whose reply is still owed when their task ends (R30, R32): they are performed all the same (R209). A cancelled
reply is discarded (R81). -/
def owesReply (p : PendOp) : Bool := replies p && !p.cancelled

/-- An operation that stays with the context after its task (R130): one that answers nobody, until it is performed. -/
def outlives (p : PendOp) : Bool :=
  match p.kind with
  | .store => true
  | .fenceSs => true
  | .arrival => true
  | .put => true
  | .post => true
  | .clean => true
  | .amo => p.req.any fun r => r.ret.isNone || p.cancelled
  | .sc => p.cancelled
  | _ => false

/-- The address of the instruction a context is at: in a repeat frame, that of the body instruction (R178). -/
def instrPc (t : Ctx) : Word :=
  match runningFrame t with
  | none => t.pc
  | some f => t.pc + 4 + 4 * ((t.gr f.rc).val.extractLsb' 32 4 : BitVec 4).setWidth 64

/-- A context is left empty (R47, R61, R209, R295): streams, registers, slots, tiles and held effects go,
reservations pass on, and replies still owed will find no task (R31). What stays is the core's bookkeeping: the
generation, operations not performed yet with their counts (R130), and what is committed for transmission. An operation
that waited for a taint slot of the task waits for it no more (DESIGN CHOICE, log 77). -/
def endCtx (s : State) (k x : Nat) : State :=
  let t := s.ctxAt k x
  let queued := fun (p : PendOp) => p.kind == .lrw && s.resv.any fun (_, r) => r.queue.contains (k, x, p.gen, p.op)
  let gone := t.pend.filter queued
  let owing := t.pend.filter fun p => owesReply p && !gone.contains p
  let s := gone.foldl (fun s p => s.ack (.lrwEnqueue k x p.op)) ((s.dropResv k x).leaveWalks k x)
  let s := s.mapCore k fun c => { c with tiles := Sparse.mapVals (fun a => if a.owner = some x then { freed := true } else a) c.tiles }
  let s := s.setCtxAt k x
    { gen := t.gen, turned := some (s.core k).cycle, opNo := t.opNo, sack := t.sack, peers := t.peers, posted := t.posted, divert := t.divert
      pend := (t.pend.filter fun p => outlives p || owing.contains p).map fun p =>
        { p with deps := 0, slot := none, dest := .none, acq := none }
      send := (t.send.filter (·.committed)).map fun e => { e with ended := true }
      sendHold := t.sendHold, owed := t.owed ++ owing }
  let leave : FaultRec → FaultRec := fun f => { f with waiters := f.waiters.filter (· != .ctx k x) }
  let s := { s with sites := Sparse.mapVals (fun st => { st with faults := Sparse.mapVals leave st.faults }) s.sites }
  let s := (s.kick k x).push (.dispatch k)
  match s.teamAt k with
  | some tm => (s.push (.gridComplete tm.grid)).quietOn k
  | none => s

/-- A bank begins a change of mode (R110): a CACHE bank drains first, and another's units or FIFO state are released. -/
def switchBank (s : State) (bk : Nat) (word : Word) : State :=
  let b := s.bank bk
  let since := (s.site (bankSite bk)).fab
  let s := s.mapSite (bankSite bk) id
  if b.mode = .cache then
    let (s, dirty) := s.drainWay bk
    s.setBank bk { b with mode := .draining, target := word, since, units := [], next := none, drain := dirty }
  else s.setBank bk { mode := .zeroing, target := word, since }

/-! Teams that leave their rectangle. -/

/-- A team's rectangle is freed (R375, R50): its cores, windows, banks and NI objects. SCRATCH banks left with no
unit, and the team's FIFO banks, go back to CACHE (R373); one whose mode is changing does so after that (R110). -/
def unplace (s : State) (uid : Nat) (t : Team) : State :=
  let s := (teamCores t).foldl (fun s k => s.mapCore k fun c =>
    { c with team := none, dispatchStop := false, frozen := false, poisonMark := false
             ni := { c.ni with sync := [], plumbs := [], pallet := [], places := 0, mail := [], groups := [], flags := [] } }) s
  let mine := s.banks.filter fun (_, b) => b.owner == some uid || b.units.any (·.2 == uid)
  let s := s.forgetCode fun a => teamStore + uid * 2 ^ 32 ≤ a && a < teamStore + (uid + 1) * 2 ^ 32
  let s := { s with
    windows := s.windows.filter (·.team != uid)
    banks := Sparse.mapVals (fun b => { b with units := b.units.filter (·.2 != uid),
                                               owner := if b.owner = some uid then none else b.owner }) s.banks }
  mine.foldl (fun s (bk, old) =>
    let b := s.bank bk
    if b.mode = .draining ∨ b.mode = .zeroing then
      if old.owner == some uid then s.setBank bk { b with leaving := true } else s
    else if old.owner == some uid || (b.mode = .scratch && b.units.isEmpty) then s.switchBank bk 0 else s) s

/-- A placement queue with a team entered behind those of its class (R373). -/
def queueInsert (cls : Nat → Nat) (q : List Nat) (uid : Nat) : List Nat :=
  q.takeWhile (fun u => cls uid ≤ cls u) ++ uid :: q.dropWhile (fun u => cls uid ≤ cls u)

def enqueueTeam (s : State) (uid : Nat) : State :=
  let cls := fun u => ((Sparse.find s.teams u).map (·.cls)).getD 0
  match Sparse.find s.teams uid with
  | none => s
  | some t => (s.mapPart t.part fun p => { p with queue := queueInsert cls p.queue uid }).pushOnce (.teamPlace t.part)

/-- A team that has been swapped out enters the placement queue (R375). The teams of a gang stand there as one entry (R373):
they enter when none of them is still quiescing. -/
def enterQueue (s : State) (uid gk : Nat) : State :=
  let is := fun (u : Nat) (st : TeamState) => (Sparse.find s.teams u).any fun t => t.state == st
  let enter := fun (s : State) (u : Nat) => if is u .waiting then s.enqueueTeam u else s
  match Sparse.find s.grids gk with
  | none => enter s uid
  | some g =>
    if g.oversub then enter s uid
    else if g.teams.any (is · .quiescing) then s
    else (g.teams.filter fun u => !(s.part g.part).queue.contains u).foldl enter s

/-- The plumb records of a team end with it, and flag no site any more (R272). -/
def forgetFlags (s : State) (t : Team) : State :=
  let mine := fun (w : Nat) => w / 2 ^ 32 == t.grid % 2 ^ 32 && w / 2 ^ 16 % 2 ^ 16 == t.idx
  (((s.cores.filter fun (_, c) => c.ni.flags.any mine).map (·.1)).filter fun k => s.partAt k == t.part).foldl (fun s k =>
    s.mapNi k fun ni => { ni with flags := ni.flags.filter fun w => !mine w }) s

/-- A task of a killed team ends (R57): as by a terminating trap, with no redispatch. Its triggering message is consumed, and
counted in no STRAYS; messages it took by WAITM before any release are back in the queue (R249). -/
def killTask (s : State) (t : Team) (k x : Nat) (c : Ctx) : State :=
  let s := s.dropTxn k x
  let s := s.mapNi k fun ni => if c.released then { ni with torn := sat32 (ni.torn + 1) }
    else { ni with replays := sat32 (ni.replays + 1), queue := c.taken ++ ni.queue }
  let s := if c.released then s.mapGrid t.grid fun g => { g with torn := sat32 (g.torn + 1) } else s
  let s := ((if c.released then c.taken else []) ++ c.entry.toList).foldl (fun s e => s.consume e.msg) s
  (s.mapCtx k x fun c => { c with entry := none, taken := [] }).endCtx k x

/-- KILL of a team (R57): its tasks end with no redispatch, its queued, dropped and saved messages are discarded,
and every later message to it will be. What the triggering messages of its unreleased tasks become, and that its rectangle
is freed once its committed effects have left, are the model's choice (DESIGN CHOICE, log 83). -/
def killTeam (s : State) (uid : Nat) : State :=
  match Sparse.find s.teams uid with
  | none => s
  | some t =>
    if t.state = .ended then s
    else
      let cores := if t.state = .waiting then [] else teamCores t
      let s := cores.foldl (fun s k =>
        let s := ((s.core k).ctxs.filter fun (_, c) => c.occupied).foldl (fun s (x, c) => s.killTask t k x c) s
        let queued := (s.core k).ni.queue
        queued.foldl (fun s e => s.stray k e.msg) (s.noticeAll k)) s
      let lost := t.drop ++ ((t.saved.getD []).flatMap fun (_, c) => c.queue.map (·.msg))
        ++ t.retryArea.flatMap fun (_, rs) => rs.map (·.msg)
      let s := lost.foldl (fun s m => (s.consume m).settleMsg none m) s
      let s := (s.forgetFlags t).mapTeam uid fun t => { t with state := .ended, drop := [], saved := none, retryArea := [], frozen := false }
      let s := s.mapPart t.part fun p => { p with queue := p.queue.filter (· != uid) }
      ((s.mapGrid t.grid fun g => { g with killed := true }).enterQueue uid t.grid).pushAll [.gridComplete t.grid, .teamPlace t.part]

/-! Traps. -/

/-- The trap record (R400). -/
def trapRecord (t : Ctx) (x cause code : Nat) (pc addr : Word) : List Word :=
  [t.msg.id,
   BitVec.ofNat 64 (code * 2 ^ 52 + t.msg.payload.length * 2 ^ 43 + x * 2 ^ 40 + t.gen * 2 ^ 32 + t.msg.retry * 2 ^ 28
     + t.msg.handler * 2 ^ 16 + (if t.txn.isSome then 2 ^ 9 else 0) + (if t.released then 2 ^ 8 else 0) + cause),
   pc, addr]

/-- The final action of R41 and R401: DIVERT sends the arguments, the capability and the record to the team's
trap handler, as a SENDR; KILL ends the team, with a kill notice. A trap in the trap handler takes KILL. -/
def finalAction (s : State) (k x : Nat) (t : Ctx) (rec4 : List Word) : State :=
  match (s.core k).team, s.teamAt k with
  | some uid, some tm =>
    let img := s.imageOf tm
    let home := teamCore tm img.trapX img.trapY
    if img.divert && !(t.msg.handler == img.trapHandler && home == k) then
      let m : Message := { t.msg with
        dst := home, pos := (img.trapX, img.trapY), handler := img.trapHandler, payload := (rec4.flatMap fun w => bytesOf 8 w.toNat) ++ t.msg.payload.take 224
        team := some (tm.grid, tm.idx), ordered := false, release := true, retry := 0, timed := 0, orphan := false }
      (s.mapCtx k x fun c =>
        { c with divert := c.divert ++ [{ eff := .msg m, committed := true, after := c.opNo }], opNo := c.opNo + 1 }).push
        (.niTransmit k x)
    else
      let d := (s.part tm.part).mcdest
      let agent := BitVec.ofNat 64 (2 * 2 ^ 56 + agentNi k)
      (s.ctlSend (siteOf k) d agent (teamIdWord tm) 0 1 (rec4.flatMap fun w => bytesOf 8 w.toNat)).killTeam uid
  | _, _ => s

/-- TAKING A TERMINATING TRAP (R39, R41, R399 to R401), at context `x` of core `k`: the record is written, held
effects are discarded, an unreleased task's messages return to the head of their class with the retry count
raised (`keepCount`: not raised, R408), a released one is torn; the final action follows where the policy or
the cause says so. A transaction is discarded first (R162). A message that returns wakes no WAITM that is parked for its
handler (R249; DESIGN CHOICE, log 107). -/
def takeTrap (s : State) (k x cause code : Nat) (pc addr : Word) (keepCount : Bool) : State :=
  let t := s.ctxAt k x
  let r := trapRecord t x cause code pc addr
  let s := s.dropTxn k x
  let s := s.mapCore k fun c =>
    { c with trap0 := r.getD 0 0, trap1 := r.getD 1 0, trap2 := r.getD 2 0, trap3 := r.getD 3 0 }
  let count := if keepCount then t.msg.retry else t.msg.retry + 1
  if t.released then
    let s := s.mapNi k fun ni => { ni with torn := sat32 (ni.torn + 1) }
    let s := match s.teamAt k with
      | some tm => s.mapGrid tm.grid fun g => { g with torn := sat32 (g.torn + 1) }
      | none => s
    let s := t.taken.foldl (fun s e => (s.consume e.msg).entryFreed k) s
    (s.endCtx k x).finalAction k x t r
  else
    let s := s.mapNi k fun ni => { ni with replays := sat32 (ni.replays + 1) }
    let final := cause = cPOISON || (!keepCount && (s.imageAt k).retry < count)
    let back := if final then t.taken
      else t.taken ++ t.entry.toList.map fun e => { e with msg := { e.msg with retry := count } }
    let s := s.mapNi k fun ni => { ni with queue := back ++ ni.queue }
    let s := s.mapCtx k x fun c => { c with entry := none, taken := [] }
    if final then
      let s := t.entry.toList.foldl (fun s e => (s.consume e.msg).entryFreed k) s
      (s.endCtx k x).finalAction k x t r
    else s.endCtx k x

end State

/-- Requests to a core whose NI state is being copied to a spare wait in the mesh (R408). -/
def unlessCopied (k : Nat) (e : Event) (s : State) (ok : Host.Outcome State Fault Refusal) :
    Host.Outcome State Fault Refusal :=
  if (s.core k).lost = 1 then .next (s.mapCore k fun c => { c with waiting := c.waiting ++ [e] }) else ok

/-- Trap(k) in the issuing context (R183). -/
def trap (cause : Nat) (addr : Word) (s : State) : Host.Outcome State Fault Refusal :=
  .next (s.takeTrap s.cur s.ctx cause 0 (State.instrPc s.task) addr false)

/-- The checks of R68 on an access, each a trap with the address (R399, R400). -/
def checked (c : Reg) (x : Word) (n : Nat) (perms : List Nat) (align : Nat) (s : State)
    (ok : State → Host.Outcome State Fault Refusal) : Host.Outcome State Fault Refusal :=
  match capFault (s.supAt s.cur) c x n perms align with
  | some cause => trap cause x s
  | none => ok s

/-- As many contexts of the core are parked as its team's limit allows (R34). -/
def State.parkFull (s : State) : Bool := (s.imageAt s.cur).park ≤ (s.here.ctxs.filter fun (_, t) => t.park.isSome).length

/-- An instruction that parks (R33, R34): PARK_LIMIT before it has any effect, when the team's limit is reached. -/
def parkHere (p : Park) (s : State) : Host.Outcome State Fault Refusal :=
  if s.parkFull then trap cPARKLIMIT 0 s
  else .next (s.mapTask fun t => { t with park := some p, parkAt := s.here.cycle })

/-- An instruction that aborts its transaction (R149). -/
def abort (code arg : Nat) (s : State) : Host.Outcome State Fault Refusal :=
  .next (s.abortTxn s.cur s.ctx code arg false)

/-- An instruction that R150 lists: inside a transaction it aborts with code 5, before any check. -/
def noTxn (s : State) (ok : State → Host.Outcome State Fault Refusal) : Host.Outcome State Fault Refusal :=
  if s.task.txn.isSome then abort 5 0 s else ok s

/-- A miss is put to a site's walkers (R387): it joins the walk of its page, starts one on the lowest free walker
(DESIGN CHOICE, log 12), or waits in arrival order. -/
def State.startWalk (s : State) (st part : Nat) (m : Agent × Nat × Access) : State :=
  let t := s.site st
  let covers := fun (w : PageWalk) => w.part == part && w.base ≤ m.2.1 && m.2.1 < w.base + w.size
  match t.walks.find? (covers ·.2) with
  | some (i, w) =>
    if w.waiters.length < 256 then
      s.setSite st { t with walks := Sparse.set t.walks i { w with waiters := w.waiters ++ [m] } }
    else s.setSite st { t with walkQueue := t.walkQueue ++ [m] }
  | none => match (List.range 64).find? fun i => (Sparse.find t.walks i).isNone with
    | none => s.setSite st { t with walkQueue := t.walkQueue ++ [m] }
    | some i =>
      let (base, size) := s.pageOf part m.2.1
      (s.setSite st { t with walks := Sparse.set t.walks i ⟨t.walkNext, part, base, size, [m]⟩
                             walkNext := t.walkNext + 1 }).pushOnce (.pageWalk m.1 m.2.1 m.2.2)

/-- A core's miss (R387), once for each try of its instruction. -/
def State.missWalk (s : State) (k x va : Nat) (acc : Access) : State :=
  let m := (Agent.ctx k x, va, acc)
  let t := s.site (siteOf k)
  if t.walkQueue.contains m || t.walks.any fun (_, w) => w.waiters.contains m then s
  else s.startWalk (siteOf k) (s.partAt k) m

/-- Where an access of the issuing core is served; a miss starts the step that resolves it, and stalls (R42, R115,
R387). An address no unit backs takes CAP (R112). -/
def located (va : Word) (acc : Access) (s : State) (ok : Nat → Place → Host.Outcome State Fault Refusal) :
    Host.Outcome State Fault Refusal :=
  match s.xlate s.cur va.toNat acc with
  | .ok a p => ok a p
  | .walk => stall (s.missWalk s.cur s.ctx va.toNat acc)
  | .touch => stall (s.pushOnce (.firstTouch (.ctx s.cur s.ctx) va.toNat acc))
  | .wait => stall s
  | .unmapped => trap cCAP va s

/-- The storage addresses of `n` bytes that may cross one 256-byte block, with the place of the first. -/
def locatedRange (va : Word) (n : Nat) (acc : Access) (s : State)
    (ok : List Nat → Place → Host.Outcome State Fault Refusal) : Host.Outcome State Fault Refusal :=
  let n1 := min n (256 - va.toNat % 256)
  located va acc s fun a p =>
    if n1 = n then ok (addrRange a n) p
    else located (va + BitVec.ofNat 64 n1) acc s fun b _ => ok (addrRange a n1 ++ addrRange b (n - n1)) p

/-- Data is read only if no unit it touches is poisoned (R406). -/
def unpoisoned (as : List Nat) (va : Word) (s : State) (ok : State → Host.Outcome State Fault Refusal) :
    Host.Outcome State Fault Refusal :=
  match s.poisonedByte as with
  | some a => trap cPOISON (va + BitVec.ofNat 64 (as.idxOf a)) (s.checkRead as)
  | none => ok (s.checkRead as)

/-- HOST memory needs a live port (R414). -/
def hostReachable (p : Place) (va : Word) (s : State) (ok : State → Host.Outcome State Fault Refusal) :
    Host.Outcome State Fault Refusal :=
  match p with
  | .host st => if (s.portOf st).isSome then ok s else trap cCAP va s
  | _ => ok s

/-- Whether a place's accesses are tracked in a transaction (R151, R153). -/
def tracked : Place → Bool
  | .home _ _ => true
  | .host _ => true
  | _ => false

/-- The blocks of the tile of an address, as far as they are translated; one homed in another module lies outside every
set (R152). -/
def State.tileBlocks (s : State) (va : Word) : List Nat :=
  let t := va.toNat / 1024 * 1024
  (List.range 4).filterMap fun i => match s.xlate s.cur (t + 256 * i) .read with
    | .ok a p => if State.placeMod s.cur p = modOf s.cur then some (a / 256) else none
    | _ => none

/-- A tracked access of a transaction (R151): abort with code 5 for HOST memory, 4 for memory or a tile directory
in another module, 2 past a set's limit; an unrecorded tile is first arbitrated at its directory. A read of a written
tile joins the read set with no request. -/
def track (va : Word) (p : Place) (write : Bool) (s : State) (ok : State → Host.Outcome State Fault Refusal) :
    Host.Outcome State Fault Refusal :=
  match s.task.txn with
  | none => ok s
  | some tx =>
    match p with
    | .host _ => abort 5 0 s
    | .home st _ =>
      if st / 24 ≠ modOf s.cur then abort 4 0 s
      else
        let first := BitVec.ofNat 64 (va.toNat / 1024 * 1024)
        located first .read s fun a q =>
          match q with
          | .home st' _ =>
            if st' / 24 ≠ modOf s.cur then abort 4 0 s
            else
              let tile := a / 256
              if (if write then tx.writes else tx.reads).contains tile then ok s
              else if (if write then 256 ≤ tx.writes.length else 1024 ≤ tx.reads.length) then abort 2 0 s
              else if tx.writes.contains tile then
                ok (s.mapTask fun t => { t with txn := t.txn.map fun x => { x with reads := insertNat x.reads tile } })
              else
                let d : TileDir := Sparse.get {} s.tileDirs tile
                let bs := (s.tileBlocks va).foldl insertNat d.blocks
                stall ({ s with tileDirs := Sparse.set s.tileDirs tile { d with blocks := bs } }.routeOnce
                  (agentNi s.cur) (agentDir (paSite a) (paSlice a)) 1 0 (.txArbitration s.cur s.ctx tile write))
          | _ => abort 4 0 s
    | _ => ok s

end Sys2Proof.Machine
end

