-- ==== Sys2Proof/Machine/Alu.lean ====
section
/-!
DEFINITION. The integer ALU (R188, R189).
-/
namespace Sys2Proof.Machine

/-- A shift count, b<5:0> (R189). -/
def shiftCount (b : Word) : Nat := (b.extractLsb' 0 6).toNat

/-- 1 or 0. -/
def flag (c : Bool) : Word := if c then 1 else 0

/-- Leading zero bits, 64 for zero (R189). -/
def leadingZeros (a : Word) : Nat := if a = 0 then 64 else 63 - a.toNat.log2

/-- Trailing zero bits, 64 for zero (R189). -/
def trailingZeros (a : Word) : Nat := ((List.range 64).find? fun i => a.getLsbD i).getD 64

/-- One bits (R189). -/
def onesCount (a : Word) : Nat := ((List.range 64).filter fun i => a.getLsbD i).length

/-- The eight bytes in reverse order (R189). -/
def byteSwap (a : Word) : Word := BitVec.ofNat 64 (ofBytes (bytesOf 8 a.toNat).reverse)

/-- An operation on two registers (R188): a busy source stalls; the result is untagged, with the union of the
sources' taints. -/
def aluOp (f : Word → Word → Word) (d a b : BitVec 6) (s : State) : Host.Outcome State Fault Refusal :=
  if s.busyG a || s.busyG b then stall s
  else retire (s.writeInt d (f (s.g a).val (s.g b).val) ((s.g a).taint ||| (s.g b).taint))

/-- An operation on one register (R188). -/
def aluOp1 (f : Word → Word) (d a : BitVec 6) (s : State) : Host.Outcome State Fault Refusal :=
  if s.busyG a then stall s else retire (s.writeInt d (f (s.g a).val) (s.g a).taint)

/-- ADD (R189). -/
def execAdd (d a b : BitVec 6) (s : State) : Host.Outcome State Fault Refusal :=
  aluOp (fun a b => a + b) d a b s

/-- SUB (R189). -/
def execSub (d a b : BitVec 6) (s : State) : Host.Outcome State Fault Refusal :=
  aluOp (fun a b => a - b) d a b s

/-- AND (R189). -/
def execAnd (d a b : BitVec 6) (s : State) : Host.Outcome State Fault Refusal :=
  aluOp (fun a b => a &&& b) d a b s

/-- OR (R189). -/
def execOr (d a b : BitVec 6) (s : State) : Host.Outcome State Fault Refusal :=
  aluOp (fun a b => a ||| b) d a b s

/-- XOR (R189). -/
def execXor (d a b : BitVec 6) (s : State) : Host.Outcome State Fault Refusal :=
  aluOp (fun a b => a ^^^ b) d a b s

/-- ANDN (R189). -/
def execAndn (d a b : BitVec 6) (s : State) : Host.Outcome State Fault Refusal :=
  aluOp (fun a b => a &&& ~~~b) d a b s

/-- SLL (R189). -/
def execSll (d a b : BitVec 6) (s : State) : Host.Outcome State Fault Refusal :=
  aluOp (fun a b => a <<< shiftCount b) d a b s

/-- SRL (R189). -/
def execSrl (d a b : BitVec 6) (s : State) : Host.Outcome State Fault Refusal :=
  aluOp (fun a b => a >>> shiftCount b) d a b s

/-- SRA (R189). -/
def execSra (d a b : BitVec 6) (s : State) : Host.Outcome State Fault Refusal :=
  aluOp (fun a b => a.sshiftRight (shiftCount b)) d a b s

/-- ROR (R189). -/
def execRor (d a b : BitVec 6) (s : State) : Host.Outcome State Fault Refusal :=
  aluOp (fun a b => a.rotateRight (shiftCount b)) d a b s

/-- MIN (R189). -/
def execMin (d a b : BitVec 6) (s : State) : Host.Outcome State Fault Refusal :=
  aluOp (fun a b => if a.slt b then a else b) d a b s

/-- MAX (R189). -/
def execMax (d a b : BitVec 6) (s : State) : Host.Outcome State Fault Refusal :=
  aluOp (fun a b => if a.slt b then b else a) d a b s

/-- MINU (R189). -/
def execMinu (d a b : BitVec 6) (s : State) : Host.Outcome State Fault Refusal :=
  aluOp (fun a b => if a.ult b then a else b) d a b s

/-- MAXU (R189). -/
def execMaxu (d a b : BitVec 6) (s : State) : Host.Outcome State Fault Refusal :=
  aluOp (fun a b => if a.ult b then b else a) d a b s

/-- SEQ (R189). -/
def execSeq (d a b : BitVec 6) (s : State) : Host.Outcome State Fault Refusal :=
  aluOp (fun a b => flag (a == b)) d a b s

/-- SNE (R189). -/
def execSne (d a b : BitVec 6) (s : State) : Host.Outcome State Fault Refusal :=
  aluOp (fun a b => flag (a != b)) d a b s

/-- SLT (R189). -/
def execSlt (d a b : BitVec 6) (s : State) : Host.Outcome State Fault Refusal :=
  aluOp (fun a b => flag (a.slt b)) d a b s

/-- SLTU (R189). -/
def execSltu (d a b : BitVec 6) (s : State) : Host.Outcome State Fault Refusal :=
  aluOp (fun a b => flag (a.ult b)) d a b s

/-- CLZ (R189). -/
def execClz (d a : BitVec 6) (s : State) : Host.Outcome State Fault Refusal :=
  aluOp1 (fun a => BitVec.ofNat 64 (leadingZeros a)) d a s

/-- CTZ (R189). -/
def execCtz (d a : BitVec 6) (s : State) : Host.Outcome State Fault Refusal :=
  aluOp1 (fun a => BitVec.ofNat 64 (trailingZeros a)) d a s

/-- POPC (R189). -/
def execPopc (d a : BitVec 6) (s : State) : Host.Outcome State Fault Refusal :=
  aluOp1 (fun a => BitVec.ofNat 64 (onesCount a)) d a s

/-- BSWAP (R189). -/
def execBswap (d a : BitVec 6) (s : State) : Host.Outcome State Fault Refusal :=
  aluOp1 (fun a => byteSwap a) d a s

end Sys2Proof.Machine
end

