-- ==== Sys2Proof/Machine/Cap.lean ====
section
/-!
DEFINITION. The capability instructions (R192 to R199) and the taint instructions (R200 to R204).
-/
namespace Sys2Proof.Machine

/-- A capability result of two registers (R192): stalls while a source is busy; the taint is the sources' union. -/
def capOp (f : Reg → Reg → Reg) (d a b : BitVec 6) (s : State) : Host.Outcome State Fault Refusal :=
  if s.busyG a || s.busyG b then stall s
  else retire (s.writeG d.toNat { f (s.g a) (s.g b) with taint := (s.g a).taint ||| (s.g b).taint })

/-- A capability result of one register. -/
def capOp1 (f : Reg → Reg) (d a : BitVec 6) (s : State) : Host.Outcome State Fault Refusal :=
  if s.busyG a then stall s else retire (s.writeG d.toNat { f (s.g a) with taint := (s.g a).taint })

/-- CINC and CINCI (R193): a move by zero keeps any tag; another needs an unsealed, representable result. -/
def cincReg (c : Reg) (n : Word) : Reg :=
  let v := c.val + n
  { val := v, desc := c.desc, tag := c.tag && (n == 0 || (capOtype c.desc == 0 && representable c v)) }

/-- The exponent CBOUND chooses (R194). -/
def boundE (lo hi : Nat) : Nat :=
  ((List.range 47).find? fun e => (hi + 2 ^ e - 1) / 2 ^ e - lo / 2 ^ e ≤ 0x1EFFF).getD 47

/-- CBOUND and CBOUNDI (R194): bounds rounded outward to the granule; tagged only inside the old bounds. -/
def cboundReg (c : Reg) (len : Nat) : Reg :=
  let lo := c.val.toNat
  let hi := lo + len
  let e := boundE lo hi
  let gb := lo / 2 ^ e
  let gt := (hi + 2 ^ e - 1) / 2 ^ e
  let (pb, pt) := capBounds c.desc c.val
  let ok := c.tag && capOtype c.desc == 0 && gt - gb ≤ 0x1EFFF && pb ≤ gb * 2 ^ e && gt * 2 ^ e ≤ pt
  { val := c.val, desc := mkDesc (capPerms c.desc) (capOtype c.desc) e (gb % 2 ^ 17) (gt % 2 ^ 17), tag := ok }

/-- A descriptor with its permissions and object type replaced. -/
def reDesc (d : Word) (perms otype : BitVec 12) : Word := perms ++ otype ++ d.extractLsb' 0 40

/-- CPERM (R195). -/
def cpermReg (c b : Reg) : Reg :=
  { val := c.val, desc := reDesc c.desc (capPerms c.desc &&& b.val.extractLsb' 0 12) (capOtype c.desc),
    tag := c.tag && capOtype c.desc == 0 }

/-- CSEAL (R196). -/
def csealReg (c b : Reg) : Reg :=
  let t := b.val.toNat
  let (sb, st) := capBounds b.desc b.val
  let ok := c.tag && capOtype c.desc == 0 && b.tag && capOtype b.desc == 0 && hasPerm b.desc pSEAL
    && sb ≤ t && t < st && (t == 1 || (0x100 ≤ t && t ≤ 0xFFF))
  { val := c.val, desc := reDesc c.desc (capPerms c.desc) (b.val.extractLsb' 0 12), tag := ok }

/-- CUNSEAL (R197): GLOBAL stays only where the authority holds it. -/
def cunsealReg (c b : Reg) : Reg :=
  let (sb, st) := capBounds b.desc b.val
  let ok := c.tag && capOtype c.desc != 0 && b.tag && capOtype b.desc == 0 && hasPerm b.desc pUNSEAL
    && b.val == (capOtype c.desc).setWidth 64 && sb ≤ b.val.toNat && b.val.toNat < st
  let perms := if hasPerm b.desc pGLOBAL then capPerms c.desc else capPerms c.desc &&& ~~~permSet [pGLOBAL]
  { val := c.val, desc := reDesc c.desc perms 0, tag := ok }

/-- CLEN (R198), saturated for the whole space. -/
def capLen (c : Reg) : Word :=
  let (b, t) := capBounds c.desc c.val
  if 2 ^ 64 ≤ t - b then BitVec.allOnes 64 else BitVec.ofInt 64 ((t : Int) - b)

/-- CSUB (R199): whether `b` is a subset of `a`. -/
def capSubset (a b : Reg) : Bool :=
  let (ab, at_) := capBounds a.desc a.val
  let (bb, bt) := capBounds b.desc b.val
  a.tag && b.tag && capOtype a.desc == capOtype b.desc && capPerms b.desc &&& ~~~capPerms a.desc == 0
    && ab ≤ bb && bt ≤ at_

/-- CBOUND (R194). -/
def execCbound (d a b : BitVec 6) (s : State) : Host.Outcome State Fault Refusal :=
  capOp (fun c n => cboundReg c n.val.toNat) d a b s

/-- CPERM (R195). -/
def execCperm (d a b : BitVec 6) (s : State) : Host.Outcome State Fault Refusal := capOp cpermReg d a b s

/-- CSEAL (R196). -/
def execCseal (d a b : BitVec 6) (s : State) : Host.Outcome State Fault Refusal := capOp csealReg d a b s

/-- CUNSEAL (R197). -/
def execCunseal (d a b : BitVec 6) (s : State) : Host.Outcome State Fault Refusal := capOp cunsealReg d a b s

/-- CINC (R193). -/
def execCinc (d a b : BitVec 6) (s : State) : Host.Outcome State Fault Refusal :=
  capOp (fun c n => cincReg c n.val) d a b s

/-- CBASE (R198). -/
def execCbase (d a : BitVec 6) (s : State) : Host.Outcome State Fault Refusal :=
  capOp1 (fun c => { val := BitVec.ofNat 64 (capBounds c.desc c.val).1 }) d a s

/-- CLEN (R198). -/
def execClen (d a : BitVec 6) (s : State) : Host.Outcome State Fault Refusal :=
  capOp1 (fun c => { val := capLen c }) d a s

/-- CGPERM (R198): PERMS in bits 11:0, OTYPE in bits 23:12. -/
def execCgperm (d a : BitVec 6) (s : State) : Host.Outcome State Fault Refusal :=
  capOp1 (fun c => { val := (0 : BitVec 40) ++ capOtype c.desc ++ capPerms c.desc }) d a s

/-- CTAG (R198). -/
def execCtag (d a : BitVec 6) (s : State) : Host.Outcome State Fault Refusal :=
  capOp1 (fun c => { val := flag c.tag }) d a s

/-- CCLR (R198): value and descriptor kept, tag 0. -/
def execCclr (d a : BitVec 6) (s : State) : Host.Outcome State Fault Refusal :=
  capOp1 (fun c => { c with tag := false }) d a s

/-- CSUB (R199). -/
def execCsub (d a b : BitVec 6) (s : State) : Host.Outcome State Fault Refusal :=
  capOp (fun x y => { val := flag (capSubset x y) }) d a b s

/-- CINCI (R193). -/
def execCinci (d a : BitVec 6) (i : BitVec 13) (s : State) : Host.Outcome State Fault Refusal :=
  capOp1 (fun c => cincReg c (sext64 i)) d a s

/-- CBOUNDI (R194). -/
def execCboundi (d a : BitVec 6) (i : BitVec 13) (s : State) : Host.Outcome State Fault Refusal :=
  capOp1 (fun c => cboundReg c i.toNat) d a s

/-- TGET (R201): the mask as it stands once a deposit into gd is cancelled (R81), without waiting for ga. -/
def execTget (d a : BitVec 6) (s : State) : Host.Outcome State Fault Refusal :=
  retire (s.writeInt d ((s.cancelTaint (.g d.toNat) (s.g a).taint).setWidth 64) 0)

/-- TMRG (R202): stalls while either register is busy; no deposit is cancelled. -/
def execTmrg (d a : BitVec 6) (s : State) : Host.Outcome State Fault Refusal :=
  if s.busyG d || s.busyG a then stall s
  else retire (s.mapTask fun t =>
    t.putG d.toNat { t.gr d.toNat with taint := (t.gr d.toNat).taint ||| (t.gr a.toNat).taint })

/-- TCLR (R203): stalls until a pending deposit is made. -/
def execTclr (d : BitVec 6) (s : State) : Host.Outcome State Fault Refusal :=
  if s.busyG d then stall s else retire (s.mapTask fun t => t.putG d.toNat { t.gr d.toNat with taint := 0 })

/-- TWAIT (R204): stalls until every slot named by ga<7:0> is free. -/
def execTwait (a : BitVec 6) (s : State) : Host.Outcome State Fault Refusal :=
  if s.busyG a || (s.g a).val.extractLsb' 0 8 &&& s.task.slots != 0 then stall s else retire s

end Sys2Proof.Machine
end

