-- ==== Sys2Proof/Machine/Mem.lean ====
section
/-!
DEFINITION. Loads and stores, ordered accesses, fences, cache operations and block moves (R217 to R224).
-/
namespace Sys2Proof.Machine

/-- Whether an address lies in the named regions of the issuing core's own team (R71). -/
def State.inTeamRegions (s : State) (k : Nat) (va : Nat) : Bool :=
  match s.findWindow (s.partAt k) va with
  | some w => (match w.kind with | .share _ => true | _ => false) && (s.core k).team == some w.team
  | none => false

/-- Whether a load from this place is a release point (R37): another core's region. -/
def remoteShare : Place → Bool
  | .share _ => true
  | _ => false

/-- A release point passed by the issuing instruction; inside a transaction there is none (R150). -/
def State.releasePoint (s : State) : State := if s.task.txn.isSome then s else s.release s.cur s.ctx

/-- A load that binds as it issues, as an operation of its context. -/
def nowLoad (t : Ctx) : PendOp := { op := t.opNo, seq := t.opNo, gen := t.gen, kind := .load }

/-- A load of `as` that binds as it issues waits for a pending acquire (R132), for pending operations of its context
on the same bytes, but for stores, whose data it takes, and stat AMOs (R124, R141), and for the write-back of its lines from a
draining way (R112). -/
def bindReady (as : List Nat) (s : State) (ok : State → Host.Outcome State Fault Refusal) :
    Host.Outcome State Fault Refusal :=
  let before := fun (q : PendOp) => q.acq.isSome
    || (q.kind != .store && q.kind != .pref && !q.req.any (·.stat) && q.addrs.any as.contains)
  if s.task.pend.any before || (linesOf as).any s.lineDraining then stall s else ok s

/-- The value a load brings (R76): `deposit` of the finished bytes, for a load that binds as it issues; it leaves the
taint of slot 7 where it shares that slot (R74). -/
def State.bindNow (s : State) (dest : Dest) (fin : Finish) (taint : BitVec 8) (bytes : List Byte) (tg : Bool) :
    State :=
  let taint := s.cancelTaint dest (taint ||| s.task.momentTaint)
  let s := s.cancel dest
  let p : PendOp := { op := s.task.opNo, gen := s.task.gen, kind := .load, dest := dest, fin := fin }
  let s := match dest with
    | .g r => s.mapTask fun t => t.putG r { t.gr r with taint := taint }
    | .v r => s.mapTask fun t => t.putV r { t.vr r with taint := taint }
    | .a r => s.mapCore s.cur fun c =>
        { c with tiles := Sparse.set c.tiles r { (Sparse.get {} c.tiles r : Tile) with taint := taint } }
    | .none => s
  s.deposit s.cur s.ctx p bytes tg

/-- A granule's tag as a transaction sees it. -/
def State.specTag (s : State) (gr : Nat) : Bool :=
  match s.task.txn.bind fun tx => Sparse.find tx.specTags gr with
  | some b => b
  | none => s.granTag s.cur s.task (nowLoad s.task) gr

/-- A read that binds at once from memory waits for what the host holds of it (R418, R420). -/
def hostServed (p : Place) (as : List Nat) (s : State) (ok : State → Host.Outcome State Fault Refusal) :
    Host.Outcome State Fault Refusal :=
  let gate := fun (site : Nat) => match s.hostAsk site as false none with
    | some s => stall s
    | none => ok (s.hostUse site as false)
  match p with
  | .home st _ => gate st
  | .host st => gate st
  | _ => ok s

/-- A load of `n` bytes at `va` through `c`, its checks made (R217 to R219): translation, poison (R406), release
point (R37), transactional tracking with binding from the tile's speculative copy (R151), or issue. -/
def loadFrom (dest : Dest) (fin : Finish) (c : Reg) (va : Word) (n : Nat) (acq : Option Nat) (s : State) :
    Host.Outcome State Fault Refusal :=
  located va .read s fun a p =>
    let as := addrRange a n
    hostReachable p va s fun s => unpoisoned as va s fun s =>
      if s.task.txn.isSome && tracked p then
        track va p false s fun s => hostServed p as s fun s => bindReady as s fun s =>
          if c.taint != 0 then stall s
          else retire ((s.loadLines s.cur false as).bindNow dest fin 0 (as.map (s.specByte s.task)) (s.specTag (a / 16)))
      else
        let s := if remoteShare p then s.releasePoint else s
        retire (s.issueLoad dest
          { op := 0, gen := 0, kind := .load, va, addrs := as, fin, place := p, acq } c.taint)

/-- The register a load names: none for g0 (R74). -/
def gDest (t : BitVec 6) : Dest := if t = 0 then .none else .g t.toNat

/-- The address of a format M access (R217). -/
def dispAddr (c : Reg) (n : Nat) (i : BitVec 10) : Word := c.val + BitVec.ofNat 64 n * sext64 i

/-- LD (R219). -/
def loadInt (n : Nat) (sgn : Bool) (t b : BitVec 6) (i : BitVec 10) (s : State) : Host.Outcome State Fault Refusal :=
  if s.busyG b then stall s
  else
    let c := s.g b
    let va := dispAddr c n i
    checked c va n [pLD] n s fun s => loadFrom (gDest t) (.int n sgn) c va n none s

/-- Speculative stores of a transaction (R151): their lines stand in L1 (R104, R154). -/
def State.specWrite (s : State) (ws : List (Nat × Byte)) (tags : List (Nat × Bool)) : State :=
  let s := (linesOf (ws.map (·.1))).foldl (fun s l => s.l1Install s.cur l none) s
  s.mapTask fun t => { t with txn := t.txn.map fun tx => { tx with
    spec := ws.foldl (fun m (a, b) => Sparse.set m a b) tx.spec
    specTags := tags.foldl (fun m (g, b) => Sparse.set m g b)
      (ws.foldl (fun m (a, _) => Sparse.set m (a / 16) false) tx.specTags) } }

/-- R130: an operation homed in the module stalls at issue while the counter stands at 64. -/
def State.counterFull (s : State) (p : Place) : Bool := placeMod s.cur p == modOf s.cur && 64 ≤ s.task.sack

/-- A store of some bytes at `as`, translated and with `taint` the taint it waits for, issued under R130. `done`
continues after it. -/
def storePlain (va : Word) (as : List Nat) (p : Place) (data : List Byte) (tags : List (Nat × Bool)) (taint : BitVec 8)
    (rel : Option Nat) (s : State) (done : State → Host.Outcome State Fault Refusal) :
    Host.Outcome State Fault Refusal :=
  hostReachable p va s fun s =>
    if s.counterFull p then stall s
    else done (s.issueStore
      { op := 0, gen := 0, kind := .store, va, addrs := as, data, tags, place := p, deps := taint, rel })

/-- A store that a transaction tracks (R151): speculative there where its memory is tracked. -/
def storeTo (va : Word) (as : List Nat) (p : Place) (data : List Byte) (tags : List (Nat × Bool)) (taint : BitVec 8)
    (rel : Option Nat) (s : State) (done : State → Host.Outcome State Fault Refusal) :
    Host.Outcome State Fault Refusal :=
  if s.task.txn.isSome && tracked p then
    hostReachable p va s fun s => track va p true s fun s =>
      if taint != 0 then stall s else done (s.specWrite (as.zip data) tags)
  else storePlain va as p data tags taint rel s done

/-- ST (R219). -/
def storeInt (n : Nat) (t b : BitVec 6) (i : BitVec 10) (s : State) : Host.Outcome State Fault Refusal :=
  if s.busyG b || s.busyG t then stall s
  else
    let c := s.g b
    let v := s.g t
    let va := dispAddr c n i
    checked c va n [pST] n s fun s => located va .write s fun a p =>
      storeTo va (addrRange a n) p (bytesOf n v.val.toNat) [] (c.taint ||| v.taint) none s retire

/-- LD.b (R219). -/
def execLdB (t b : BitVec 6) (i : BitVec 10) (s : State) : Host.Outcome State Fault Refusal := loadInt 1 true t b i s
/-- LD.bu (R219). -/
def execLdBu (t b : BitVec 6) (i : BitVec 10) (s : State) : Host.Outcome State Fault Refusal := loadInt 1 false t b i s
/-- LD.h (R219). -/
def execLdH (t b : BitVec 6) (i : BitVec 10) (s : State) : Host.Outcome State Fault Refusal := loadInt 2 true t b i s
/-- LD.hu (R219). -/
def execLdHu (t b : BitVec 6) (i : BitVec 10) (s : State) : Host.Outcome State Fault Refusal := loadInt 2 false t b i s
/-- LD.w (R219). -/
def execLdW (t b : BitVec 6) (i : BitVec 10) (s : State) : Host.Outcome State Fault Refusal := loadInt 4 true t b i s
/-- LD.wu (R219). -/
def execLdWu (t b : BitVec 6) (i : BitVec 10) (s : State) : Host.Outcome State Fault Refusal := loadInt 4 false t b i s
/-- LD.d (R219). -/
def execLdD (t b : BitVec 6) (i : BitVec 10) (s : State) : Host.Outcome State Fault Refusal := loadInt 8 false t b i s
/-- ST.b (R219). -/
def execStB (t b : BitVec 6) (i : BitVec 10) (s : State) : Host.Outcome State Fault Refusal := storeInt 1 t b i s
/-- ST.h (R219). -/
def execStH (t b : BitVec 6) (i : BitVec 10) (s : State) : Host.Outcome State Fault Refusal := storeInt 2 t b i s
/-- ST.w (R219). -/
def execStW (t b : BitVec 6) (i : BitVec 10) (s : State) : Host.Outcome State Fault Refusal := storeInt 4 t b i s
/-- ST.d (R219). -/
def execStD (t b : BitVec 6) (i : BitVec 10) (s : State) : Host.Outcome State Fault Refusal := storeInt 8 t b i s

/-- LDC (R219): the granule's sixteen bytes, tagged only where the granule is and the capability has LDC. -/
def execLdc (t b : BitVec 6) (i : BitVec 10) (s : State) : Host.Outcome State Fault Refusal :=
  if s.busyG b then stall s
  else
    let c := s.g b
    let va := dispAddr c 16 i
    checked c va 16 [pLD] 16 s fun s => loadFrom (gDest t) (.cap (hasPerm c.desc pLDC)) c va 16 none s

/-- STC (R219, R71): a tagged value needs STC, and GLOBAL outside the team's regions. -/
def execStc (t b : BitVec 6) (i : BitVec 10) (s : State) : Host.Outcome State Fault Refusal :=
  if s.busyG b || s.busyG t then stall s
  else
    let c := s.g b
    let v := s.g t
    let va := dispAddr c 16 i
    checked c va 16 [pST] 16 s fun s =>
      if v.tag && (!hasPerm c.desc pSTC || (!hasPerm v.desc pGLOBAL && !s.inTeamRegions s.cur va.toNat)) then
        trap cCAP va s
      else located va .write s fun a p =>
        storeTo va (addrRange a 16) p (bytesOf 8 v.val.toNat ++ bytesOf 8 v.desc.toNat) [(a / 16, v.tag)]
          (c.taint ||| v.taint) none s retire

/-- LDA (R220): an acquire; `x` makes the sizes b, h and w sign-extend. Inside a transaction a scope of DOMAIN or
SYSTEM aborts with code 4 before any check. -/
def execLda (t b : BitVec 6) (sc : BitVec 3) (z : BitVec 2) (x : BitVec 1) (s : State) :
    Host.Outcome State Fault Refusal :=
  if s.task.txn.isSome && 4 ≤ sc.toNat then abort 4 0 s
  else if s.busyG b then stall s
  else
    let n := 2 ^ z.toNat
    let c := s.g b
    checked c c.val n [pLD] n s fun s => loadFrom (gDest t) (.int n (x == 1)) c c.val n (some sc.toNat) s

/-- STL (R220): a release; inside a transaction a tracked store whose release is the commit. -/
def execStl (t b : BitVec 6) (sc : BitVec 3) (z : BitVec 2) (s : State) : Host.Outcome State Fault Refusal :=
  if s.task.txn.isSome && 4 ≤ sc.toNat then abort 4 0 s
  else if s.busyG b || s.busyG t then stall s
  else
    let n := 2 ^ z.toNat
    let c := s.g b
    let v := s.g t
    checked c c.val n [pST] n s fun s => located c.val .write s fun a p =>
      storeTo c.val (addrRange a n) p (bytesOf n v.val.toNat) [] (c.taint ||| v.taint) (some sc.toNat) s retire

/-- A pending operation whose value is not bound yet (R135). -/
def unboundOp (p : PendOp) : Bool :=
  match p.kind with
  | .store => false
  | .arrival => false
  | .fenceSs => false
  | .put => false
  | .post => false
  | .clean => false
  | .pref => false
  | .amo => p.req.any fun r => r.ret.isSome && !r.stat
  | _ => true

/-- What FENCE and SENDR wait for besides the flush (R135, R137): committed effects transmitted, the counter zero. -/
def drained (t : Ctx) : Bool := t.sack == 0 && (State.nextOut t).isNone

/-- A flush of the written peers of a context begins, for its operations before place `upto` (R134). -/
def State.beginFlush (s : State) (k x upto : Nat) : State :=
  let t := s.ctxAt k x
  (s.mapCtx k x fun t => { t with flush := some (State.newFlush t (State.peersOf t.peers) upto) }).askFlush k x
    (State.peersOf t.peers)

/-- FENCE.scope (R135): stalls until its waits are over. Inside a transaction, DOMAIN and SYSTEM abort with code 4
(R150). -/
def execFence (sc : BitVec 3) (s : State) : Host.Outcome State Fault Refusal :=
  let far := 4 ≤ sc.toNat
  if s.task.txn.isSome && far then abort 4 0 s
  else
    let s := s.combineFlush s.cur s.ctx s.task.opNo
    let t := s.task
    if t.pend.any (fun p => unboundOp p || p.kind == .fenceSs) || !drained t then
      stall (if (State.nextOut t).isSome then s.pushOnce (.niTransmit s.cur s.ctx) else s)
    else if far && !State.flushOver t t.flush then stall (if t.flush.isNone then s.beginFlush s.cur s.ctx t.opNo else s)
    else
      let s := s.mapTask fun t => { t with flush := none }
      retire (if far then s.dropCopies s.cur else s)

/-- FENCE.ss.scope (R135): a place in the order of later stores and effects; later loads are not held. -/
def execFenceSs (sc : BitVec 3) (s : State) : Host.Outcome State Fault Refusal :=
  if s.task.txn.isSome && 4 ≤ sc.toNat then abort 4 0 s
  else
    let s := s.addOp { op := 0, gen := 0, kind := .fenceSs, rel := some sc.toNat }
    retire (s.kick s.cur s.ctx)

/-- PREF (R221): never traps; what cannot be fetched is discarded. Its check asks LD for the byte at the cursor (DESIGN
CHOICE, log 79). -/
def execPref (a : BitVec 6) (s : State) : Host.Outcome State Fault Refusal :=
  if s.busyG a then stall s
  else if s.task.txn.isSome then retire s
  else
    let c := s.g a
    if (capFault (s.supAt s.cur) c c.val 1 [pLD] 1).isSome then retire s
    else match s.xlateHomed s.cur c.val.toNat .read with
      | .ok b p =>
        let as := addrRange (lineOf b * 128) 128
        let reach := match p with
          | .home _ _ => true
          | .host st => (s.portOf st).isSome
          | _ => false
        if reach && (s.poisonedByte as).isNone then
          retire ((s.addOp { op := 0, gen := 0, kind := .pref, va := c.val, addrs := as, place := p, deps := c.taint }).kick s.cur s.ctx)
        else retire s
      | _ => retire s

/-- CFLUSH and CINV (R221): LD for one byte, no alignment. A dirty line is written back, which counts as a store does
(R130); the line leaves the caches of the cluster, and the halves of a HOST line go back to the host (R418). -/
def cacheOp (a : BitVec 6) (s : State) : Host.Outcome State Fault Refusal :=
  if s.task.txn.isSome then retire s
  else if s.busyG a then stall s
  else
    let c := s.g a
    checked c c.val 1 [pLD] 1 s fun s =>
      if c.taint != 0 then stall s
      else match s.xlateHomed s.cur c.val.toNat .read with
        | .touch => retire s
        | _ => located c.val .read s fun b p =>
          if !tracked p then retire s
          else
          let gone := fun (s : State) => (s.dropLine s.cur (lineOf b)).evictHalves (siteOf s.cur) (lineOf b)
          if !(s.clusterFind s.cur (lineOf b)).any (·.state.isDirty) then retire (gone s)
          else if s.counterFull p then stall s
          else
            let s := (gone s).countOp (modOf s.cur)
            retire ((s.addOp { op := 0, gen := 0, kind := .clean, place := p, counted := true }).kick s.cur s.ctx)

/-- CFLUSH (R221). -/
def execCflush (a : BitVec 6) (s : State) : Host.Outcome State Fault Refusal := cacheOp a s

/-- CINV (R221). -/
def execCinv (a : BitVec 6) (s : State) : Host.Outcome State Fault Refusal := cacheOp a s

/-- CZERO (R221): the whole line within bounds, with ST; its granule tags clear. -/
def execCzero (a : BitVec 6) (s : State) : Host.Outcome State Fault Refusal :=
  if s.busyG a then stall s
  else
    let c := s.g a
    let va := BitVec.ofNat 64 (c.val.toNat / 128 * 128)
    checked c va 128 [pST] 1 s fun s => located va .write s fun b p =>
      storeTo va (addrRange b 128) p (List.replicate 128 0) [] c.taint none s retire

/-- A piece of an access: its virtual address and its bytes, none crossing a 256-byte block. -/
abbrev Piece := Word × Nat

/-- A piece with its storage address and where it is served. -/
structure Located where
  va : Word
  len : Nat
  addr : Nat
  place : Place
  deriving DecidableEq, Repr

/-- Every piece translated before any is performed (R42, R281). -/
def locatePieces (acc : Access) (xs : List Piece) (s : State) (ok : List Located → Host.Outcome State Fault Refusal) :
    Host.Outcome State Fault Refusal :=
  match xs with
  | [] => ok []
  | (x, n) :: t => located x acc s fun a p => locatePieces acc t s fun r => ok (⟨x, n, a, p⟩ :: r)

/-- A step over every piece, in order. -/
def eachPiece (f : Located → State → (State → Host.Outcome State Fault Refusal) → Host.Outcome State Fault Refusal)
    (ls : List Located) (s : State) (ok : State → Host.Outcome State Fault Refusal) : Host.Outcome State Fault Refusal :=
  (ls.foldr (fun l (k : State → Host.Outcome State Fault Refusal) s => f l s k) ok) s

/-- The storage addresses of a piece. -/
def Located.bytes (l : Located) : List Nat := addrRange l.addr l.len

/-- A piece is tracked by the issuing context's transaction (R151). -/
def State.tracks (s : State) (l : Located) : Bool := s.task.txn.isSome && tracked l.place

/-- The byte that a load which binds at once finds (R76): the speculative copy of a tracked tile (R151), else as any load
of the context. -/
def State.byteNow (s : State) (spec : Bool) (a : Nat) : Byte :=
  if spec then s.specByte s.task a else s.loadByte s.cur s.task (nowLoad s.task) a

/-- Data that an instruction pops: a poisoned byte is noted, and POISON follows the checks that are still to come (R403). -/
def notePoison (as : List Nat) (va : Word) (s : State) (ok : State → Host.Outcome State Fault Refusal) :
    Host.Outcome State Fault Refusal :=
  match s.poisonedByte as with
  | some a => ok ((s.checkRead as).mapTask fun t => { t with late := some (t.late.getD (va + BitVec.ofNat 64 (as.idxOf a))) })
  | none => ok (s.checkRead as)

/-- Pieces read at once, after every check of every piece: reachability, then poison as `guard` says (R406), pending operations
(R124, R132), what the host holds, and tracking, where `trk` says so, or a locked tile (R158). Then a read of another core's
region is a release point where `rel` says so (R37), which `rollback` makes, and lines come into L1 (R104). -/
def readPiecesBy (guard : List Nat → Word → State → (State → Host.Outcome State Fault Refusal) → Host.Outcome State Fault Refusal)
    (ls : List Located) (rel trk : Bool) (s : State)
    (ok : List Nat → List Byte → State → Host.Outcome State Fault Refusal) : Host.Outcome State Fault Refusal :=
  eachPiece (fun l s k => hostReachable l.place l.va s k) ls s fun s =>
  eachPiece (fun l s k => guard l.bytes l.va s fun s => bindReady l.bytes s fun s => hostServed l.place l.bytes s k) ls s fun s =>
    eachPiece (fun l s k => if trk && s.tracks l then track l.va l.place false s k
      else if s.tileLocked l.bytes then stall s else k s) ls s fun s =>
      let s := if rel && s.task.txn.isNone && ls.any (remoteShare ·.place) then s.mapTask fun t => { t with relDue := true } else s
      let s := ls.foldl (fun s l => if tracked l.place then
        s.loadLines s.cur (State.placeMod s.cur l.place != modOf s.cur) l.bytes else s) s
      ok (ls.flatMap Located.bytes) (ls.flatMap fun l => l.bytes.map (s.byteNow (trk && s.tracks l))) s

/-- Pieces read at once, of which a poisoned one traps (R406). -/
def readPieces (ls : List Located) (rel trk : Bool) (s : State)
    (ok : List Nat → List Byte → State → Host.Outcome State Fault Refusal) : Host.Outcome State Fault Refusal :=
  readPiecesBy unpoisoned ls rel trk s ok

/-- The parts of a range by 256-byte blocks: address, offset and length of each. -/
def blockParts (va : Word) (n : Nat) : List (Word × Nat × Nat) :=
  let o := va.toNat % 256
  (List.range (if n = 0 then 0 else (o + n + 255) / 256)).map fun i =>
    let lo := if i = 0 then 0 else 256 * i - o
    (va + BitVec.ofNat 64 lo, lo, min n (256 * (i + 1) - o) - lo)

/-- The pieces of a range. -/
def pieces (va : Word) (n : Nat) : List Piece := (blockParts va n).map fun (x, _, len) => (x, len)

/-- A read of a range that binds at once. -/
def readNow (va : Word) (n : Nat) (rel trk : Bool) (s : State)
    (ok : List Nat → List Byte → State → Host.Outcome State Fault Refusal) : Host.Outcome State Fault Refusal :=
  locatePieces .read (pieces va n) s fun ls => readPieces ls rel trk s ok

/-- A store of a range as plain stores, one for each 256-byte block it touches, with `trk` as for `readPiece`. -/
def storeSpan (va : Word) (data : List Byte) (taint : BitVec 8) (trk : Bool) (s : State)
    (done : State → Host.Outcome State Fault Refusal) : Host.Outcome State Fault Refusal :=
  (blockParts va data.length).foldr (fun (x, lo, len) (k : State → Host.Outcome State Fault Refusal) s =>
    located x .write s fun a p =>
      (if trk then storeTo else storePlain) x (addrRange a len) p ((data.drop lo).take len) [] taint none s k) done s

/-- The steps that a stalled instruction has asked for and that stand although it executes again. -/
def Event.asked : Event → Bool
  | .pageWalk _ _ _ => true
  | .firstTouch _ _ _ => true
  | .txArbitration _ _ _ _ => true
  | .combineSend _ _ => true
  | .niTransmit _ _ => true
  | .porderRouterCycle _ => true
  | _ => false

/-- The release point that a read of the instruction under way is (R37). -/
def State.dueRelease (s : State) : State :=
  if s.task.relDue then (s.mapTask fun t => { t with relDue := false }).releasePoint else s

/-- The instruction under way retires: its release point is passed, and the slots of what it popped are bound (R76). -/
def State.popsDone (s : State) : State :=
  let s := s.dueRelease
  let ns := s.task.pops
  if ns.isEmpty then s else ns.foldl (fun s n => s.bindSlot s.cur s.ctx n) (s.mapTask fun t => { t with pops := [] })

/-- The POISON that an instruction takes which has popped poisoned data, now that every check of it has passed (R403): it runs
to its end, and no other trap or abort has ended it. -/
def State.latePoison (s s' : State) : Option Word :=
  if s.task.late.isNone && s'.task.occupied && s'.task.gen == s.task.gen && s'.task.hold.isNone && !s'.stalled && s'.task.txn.isSome == s.task.txn.isSome then s'.task.late
  else none

/-- An instruction of several accesses that stalls or parks on one of them: its registers stand as before it, so that
it executes again whole (R42, R80). What it has asked of walkers, directories and the host stands, and so does a release made
for want of a send-buffer entry (R37). One that has popped poisoned
data has no effect but its trap. -/
def rollback (s : State) (o : Host.Outcome State Fault Refusal) : Host.Outcome State Fault Refusal :=
  match o with
  | .next s' =>
    let parked := s'.task.park.isSome && s.task.park.isNone && s'.task.gen == s.task.gen
    match s.latePoison s' with
    | some a => trap cPOISON a s
    | none =>
    if s'.stalled || parked then
      let b := if s'.task.send == s.task.send then s else s.release s.cur s.ctx
      .next ({ b with agenda := b.agenda ++ (s'.agenda.drop s.agenda.length).filter fun (e : Event) => e.asked && !b.agenda.contains e
                      sites := s'.sites, tileDirs := s'.tileDirs, stalled := s'.stalled }.mapTask fun t =>
        { t with park := s'.task.park, parkAt := s'.task.parkAt })
    else .next (s'.popsDone.mapTask fun t => { t with late := none })
  | o => o

/-- The element a block move makes next (R223): its first destination byte, its length, and whether the
direction is descending. -/
def blockElem (n d : Nat) (desc : Bool) : Nat × Nat :=
  if desc then
    let lo := max d ((d + n - 1) / 128 * 128)
    (lo, d + n - lo)
  else (d, min n (d / 128 * 128 + 128 - d))

/-- An element of a block move retires (R223): gn falls, ascending cursors move; the move ends with gn = 0, and until then
keeps its direction. -/
def blockRetire (moves : List (BitVec 6)) (n : BitVec 6) (left len : Nat) (desc : Bool) (s : State) :
    Host.Outcome State Fault Refusal :=
  let s := s.writeG n.toNat { val := BitVec.ofNat 64 (left - len), taint := 0 }
  let s := if desc then s else moves.foldl (fun s r =>
    s.writeG r.toNat { s.g r with val := (s.g r).val + BitVec.ofNat 64 len }) s
  let s := s.mapTask fun t => { t with blockDesc := if left = len then none else some desc }
  if left = len then retire s else .next s

/-- The granule tags an element of BMOV writes (R224). -/
def State.blockTags (s : State) (cd cs : Reg) (lo : Word) (src dst : List Nat) : List (Nat × Bool) :=
  let byte := fun (a : Nat) => s.byteNow ((s.task.txn.bind fun tx => Sparse.find tx.spec a).isSome) a
  ((List.range dst.length).filter fun i => dst.getD i 0 % 16 == 0 && i + 16 ≤ dst.length).map fun i =>
    let a := src.getD i 0
    let whole := a % 16 == 0 && i + 16 ≤ src.length
    let d := BitVec.ofNat 64 (ofBytes ((addrRange (a + 8) 8).map byte))
    (dst.getD i 0 / 16,
      whole && hasPerm cs.desc pLDC && hasPerm cd.desc pSTC && s.specTag (a / 16)
        && (hasPerm d pGLOBAL || s.inTeamRegions s.cur (lo.toNat + i)))

/-- BMOV (R222 to R224): one element a step; re-issue continues from the registers. Its element reads are no loads, and so no
release points (R37; DEDUCED, log 103). -/
def execBmov (d r n : BitVec 6) (s : State) : Host.Outcome State Fault Refusal :=
  if s.busyG d || s.busyG r || s.busyG n then stall s
  else
    let cd := s.g d
    let cs := s.g r
    let left := (s.g n).val.toNat
    let dd := cd.val.toNat
    let ss := cs.val.toNat
    if left = 0 then retire s
    else
      let desc := s.task.blockDesc.getD (decide (ss < dd ∧ dd < ss + left))
      let (lo, len) := blockElem left dd desc
      let lo64 := BitVec.ofNat 64 lo
      let from_ := cs.val + BitVec.ofNat 64 (lo - dd)
      checked cs from_ len [pLD] 1 s fun s => checked cd lo64 len [pST] 1 s fun s =>
        if cd.taint ||| cs.taint ||| (s.g n).taint != 0 then stall s
        else located lo64 .write s fun b dp => readNow from_ len false true s fun src bytes s =>
          let dst := addrRange b len
          storeTo lo64 dst dp bytes (s.blockTags cd cs lo64 src dst) 0 none s (blockRetire [d, r] n left len desc)

/-- The bytes BFILL writes: byte y mod 8 of the pattern at each address y (R223). -/
def fillBytes (pat : Word) (lo len : Nat) : List Byte :=
  (List.range len).map fun i => pat.extractLsb' (8 * ((lo + i) % 8)) 8

/-- BFILL (R222 to R224): one element a step. -/
def execBfill (d p n : BitVec 6) (s : State) : Host.Outcome State Fault Refusal :=
  if s.busyG d || s.busyG p || s.busyG n then stall s
  else
    let cd := s.g d
    let left := (s.g n).val.toNat
    if left = 0 then retire s
    else
      let (lo, len) := blockElem left cd.val.toNat false
      let lo64 := BitVec.ofNat 64 lo
      checked cd lo64 len [pST] 1 s fun s =>
        if cd.taint ||| (s.g p).taint ||| (s.g n).taint != 0 then stall s
        else located lo64 .write s fun b dp =>
          storeTo lo64 (addrRange b len) dp (fillBytes (s.g p).val lo len) [] 0 none s
            (blockRetire [d] n left len false)

end Sys2Proof.Machine
end

