-- ==== Sys2Proof/Machine/Amo.lean ====
section
/-!
DEFINITION. Atomics, reservations and reductions (R141, R142, R225 to R229, R231).
-/
namespace Sys2Proof.Machine

/-- The scope an AMO variant names (R172), 0 without a qualifier. -/
def amoScope (v : Nat) : Nat := if v % 4 = 0 then 0 else v % 4 + 2

/-- The acquire scope of an AMO variant (R132, R172): .acq and .ar. -/
def amoAcq (v : Nat) : Option Nat := if (1 ≤ v && v ≤ 3) || (9 ≤ v && v ≤ 11) then some (amoScope v) else none

/-- The release scope of an AMO variant (R133, R172): .rel, .ar and comm.rel. -/
def amoRel (v : Nat) : Option Nat :=
  if (5 ≤ v && v ≤ 7) || (9 ≤ v && v ≤ 11) || 13 ≤ v then some (amoScope v) else none

/-- Intents comm and stat (R141, R172). -/
def amoComm (v : Nat) : Bool := v == 8 || 13 ≤ v
def amoStat (v : Nat) : Bool := v == 12

/-- A little-endian number of speculative bytes. -/
def State.specNat (s : State) (as : List Nat) : Nat := ofBytes (as.map (s.specByte s.task))

/-- An AMO on its way (R225, R226, R130): one with return takes a slot unless its intent is stat, makes its
destination busy, and is a release point (R37); one without return is counted or posted, but for stat ones (R141). Copies
that the core and its cluster hold of a remote line are dropped, since later loads of the context may not return an older
value (R124). -/
def State.issueAmo (s : State) (dest : Dest) (p : PendOp) (r : AmoReq) (taint : BitVec 8) (ret : Bool) : State :=
  let m := placeMod s.cur p.place
  let own := m == modOf s.cur
  let s := if own || r.stat then s else s.dropCopiesOf s.cur (· == lineOf r.addr)
  if ret then
    let s := s.releasePoint
    let n := s.task.slotFor
    let s := if r.stat then s else s.mapTask fun t => t.takeSlot n
    let taint := s.cancelTaint dest taint
    let deps := s.cancelTaint dest p.deps
    let s := s.cancel dest
    let s := match dest with
      | .g d => s.mapTask fun t => t.putG d { t.gr d with taint := if r.stat then taint else slotBit n ||| taint }
      | _ => s
    let d := match dest with
      | .g d => d
      | _ => 0
    let r := { r with ret := some (s.ctx, s.task.gen, s.task.opNo, d), acks := [] }
    (s.addOp { p with dest, deps, slot := if r.stat then none else some n, req := some r }).kick s.cur s.ctx
  else
    let r := { r with acks := [(s.ctx, s.task.opNo)] }
    let s := if r.stat then s else s.countOp m
    (s.addOp { p with counted := own && !r.stat, req := some r }).kick s.cur s.ctx

/-- R151, R150, R153: what an untracked atomic may reach inside a transaction. -/
def txnReach (p : Place) (s : State) (ok : State → Host.Outcome State Fault Refusal) :
    Host.Outcome State Fault Refusal :=
  if s.task.txn.isNone then ok s
  else match p with
    | .host _ => abort 5 0 s
    | p => if State.placeMod s.cur p ≠ modOf s.cur then abort 4 0 s else ok s

/-- An AMO (R225, R226): inside a transaction, an ord AMO and every AMO with return to tracked memory is a read and
a write of its tile (R150, R151); comm and stat AMOs without return stay untracked (R153). -/
def amo (op : Nat) (d a b : BitVec 6) (v : BitVec 4) (s : State) : Host.Outcome State Fault Refusal :=
  let cas := op == 9
  if s.busyG a || s.busyG b || (cas && s.busyG d) then stall s
  else
    let c := s.g a
    let o := s.g b
    let e : Reg := if cas then s.g d else {}
    let ret := d != 0
    let vn := v.toNat
    let deps := c.taint ||| o.taint ||| e.taint
    checked c c.val 8 [pLD, pST] 8 s fun s => located c.val .amo s fun x p =>
      match p with
      | .fifo _ => trap cCAP c.val s
      | p =>
        let as := addrRange x 8
        hostReachable p c.val s fun s => unpoisoned as c.val s fun s =>
          if s.task.txn.isSome && tracked p && (ret || !(amoComm vn || amoStat vn)) then
            track c.val p false s fun s => track c.val p true s fun s => bindReady as s fun s =>
              if deps != 0 then stall s
              else
                let m := BitVec.ofNat 64 (s.specNat as)
                let w := State.amoResult op m o.val e.val
                let taint := if amoStat vn then 0 else s.task.momentTaint
                retire ((s.specWrite (as.zip (bytesOf 8 w.toNat)) []).writeInt d m taint)
          else txnReach p s fun s =>
            let r : AmoReq := { core := s.cur, addr := x, op, opnd := o.val, cmp := e.val, comm := amoComm vn,
                                stat := amoStat vn, scope := amoScope vn, ret := none, acks := [] }
            let pend : PendOp := { op := 0, gen := 0, kind := .amo, deps, va := c.val, addrs := as, place := p,
                                   acq := amoAcq vn, rel := amoRel vn }
            if !ret && !r.stat && s.counterFull p then stall s
            else retire (s.issueAmo (gDest d) pend r c.taint ret)

/-- AADD (R225). -/
def execAadd (d a b : BitVec 6) (v : BitVec 4) (s : State) : Host.Outcome State Fault Refusal := amo 0 d a b v s
/-- AAND (R225). -/
def execAand (d a b : BitVec 6) (v : BitVec 4) (s : State) : Host.Outcome State Fault Refusal := amo 1 d a b v s
/-- AOR (R225). -/
def execAor (d a b : BitVec 6) (v : BitVec 4) (s : State) : Host.Outcome State Fault Refusal := amo 2 d a b v s
/-- AXOR (R225). -/
def execAxor (d a b : BitVec 6) (v : BitVec 4) (s : State) : Host.Outcome State Fault Refusal := amo 3 d a b v s
/-- AMIN (R225). -/
def execAmin (d a b : BitVec 6) (v : BitVec 4) (s : State) : Host.Outcome State Fault Refusal := amo 4 d a b v s
/-- AMAX (R225). -/
def execAmax (d a b : BitVec 6) (v : BitVec 4) (s : State) : Host.Outcome State Fault Refusal := amo 5 d a b v s
/-- AMINU (R225). -/
def execAminu (d a b : BitVec 6) (v : BitVec 4) (s : State) : Host.Outcome State Fault Refusal := amo 6 d a b v s
/-- AMAXU (R225). -/
def execAmaxu (d a b : BitVec 6) (v : BitVec 4) (s : State) : Host.Outcome State Fault Refusal := amo 7 d a b v s
/-- ASWAP (R225). -/
def execAswap (d a b : BitVec 6) (v : BitVec 4) (s : State) : Host.Outcome State Fault Refusal := amo 8 d a b v s
/-- ACAS (R225): gd holds the compare value, zero for g0. -/
def execAcas (d a b : BitVec 6) (v : BitVec 4) (s : State) : Host.Outcome State Fault Refusal := amo 9 d a b v s
/-- AFADD (R225): binary64 in RNE, with no flag. -/
def execAfadd (d a b : BitVec 6) (v : BitVec 4) (s : State) : Host.Outcome State Fault Refusal := amo 10 d a b v s

/-- The word of a reservation (R227): HOMED, STRIPED or PINNED memory, else CAP. -/
def resvWord (c : Reg) (perms : List Nat) (acc : Access) (s : State)
    (ok : Nat → Place → State → Host.Outcome State Fault Refusal) : Host.Outcome State Fault Refusal :=
  checked c c.val 8 perms 8 s fun s => located c.val acc s fun x p =>
    match p with
    | .home _ _ => ok x p s
    | _ => trap cCAP c.val s

/-- LRW (R227, R228): the request goes to the word's home, and the context waits for its decision: a grant deposits the
word; a request that must queue parks the context, PARK_LIMIT first (R34). -/
def execLrw (d a : BitVec 6) (s : State) : Host.Outcome State Fault Refusal :=
  noTxn s fun s =>
    if s.busyG a then stall s
    else
      let c := s.g a
      resvWord c [pLD] .read s fun x p s =>
        if c.taint != 0 then stall s
        else unpoisoned (addrRange x 8) c.val s fun s =>
          let op := s.task.opNo
          let pend : PendOp := { op := 0, gen := 0, kind := .lrw, va := c.val, addrs := addrRange x 8, place := p, acq := some 4 }
          .next ((s.issueLoad (gDest d) pend 0).mapTask fun t => { t with wait := some (.lrw op) })

/-- SC (R227, R229): the destination is busy until the home's answer; no slot. -/
def execSc (d a b : BitVec 6) (s : State) : Host.Outcome State Fault Refusal :=
  noTxn s fun s =>
    if s.busyG a || s.busyG b then stall s
    else
      let c := s.g a
      let v := s.g b
      resvWord c [pLD, pST] .write s fun x p s =>
        if c.taint ||| v.taint != 0 then stall s
        else
          let s := (s.cancel (gDest d)).mapTask fun t => t.putG d.toNat { t.gr d.toNat with taint := 0 }
          retire ((s.addOp { op := 0, gen := 0, kind := .sc, dest := gDest d, va := c.val, addrs := addrRange x 8,
                             data := bytesOf 8 v.val.toNat, place := p }).kick s.cur s.ctx)

/-- The AMO code of an XRED operation and width (R231). -/
def redOp (op : Nat) (wide : Bool) : Nat :=
  if wide then (match op with | 0 => 0 | 1 => 10 | 2 => 4 | _ => 5) else 16 + op

/-- An entry joins a reduction log (R160): it merges as combine-buffer entries do. None where the log is full. -/
def redLog (log : List RedEntry) (e : RedEntry) : Option (List RedEntry) :=
  match log.findIdx? fun q => q.addr == e.addr && q.op == e.op && q.wide == e.wide with
  | some i => some (log.modify i fun q => { q with opnd := State.combineOp (redOp e.op e.wide) q.opnd e.opnd })
  | none => if 64 ≤ log.length then none else some (log ++ [e])

/-- XRED (R231): inside a transaction an entry of the reduction log; outside, the comm AMO of the same operation and
width. -/
def xred (op : Nat) (a b : BitVec 6) (w : BitVec 1) (s : State) : Host.Outcome State Fault Refusal :=
  if s.busyG a || s.busyG b then stall s
  else
    let c := s.g a
    let o := s.g b
    let wide := w == 1
    let n := if wide then 8 else 4
    let opnd := if wide then o.val else BitVec.ofNat 64 (o.val.toNat % 2 ^ 32)
    checked c c.val n [pLD, pST] n s fun s => located c.val .amo s fun x p =>
      match p with
      | .fifo _ => trap cCAP c.val s
      | p =>
        hostReachable p c.val s fun s => unpoisoned (addrRange x n) c.val s fun s =>
          if c.taint ||| o.taint != 0 then stall s
          else match s.task.txn with
            | some tx =>
              txnReach p s fun s =>
                match redLog tx.log ⟨x, op, wide, opnd⟩ with
                | none => abort 2 0 s
                | some log => retire (s.mapTask fun t => { t with txn := some { tx with log } })
            | none =>
              if s.counterFull p then stall s
              else
                let r : AmoReq := { core := s.cur, addr := x, op := redOp op wide, opnd, cmp := 0, comm := true,
                                    stat := false, scope := 0, ret := none, acks := [] }
                retire (s.issueAmo .none { op := 0, gen := 0, kind := .amo, va := c.val, addrs := addrRange x n, place := p } r 0
                  false)

/-- XRED add (R231). -/
def execXredAdd (a b : BitVec 6) (w : BitVec 1) (s : State) : Host.Outcome State Fault Refusal := xred 0 a b w s
/-- XRED fadd (R231). -/
def execXredFadd (a b : BitVec 6) (w : BitVec 1) (s : State) : Host.Outcome State Fault Refusal := xred 1 a b w s
/-- XRED min (R231). -/
def execXredMin (a b : BitVec 6) (w : BitVec 1) (s : State) : Host.Outcome State Fault Refusal := xred 2 a b w s
/-- XRED max (R231). -/
def execXredMax (a b : BitVec 6) (w : BitVec 1) (s : State) : Host.Outcome State Fault Refusal := xred 3 a b w s

end Sys2Proof.Machine
end

