-- ==== Sys2Proof/Machine/Txn.lean ====
section
/-!
DEFINITION. Tile transactions: XBEGIN to XTEST (R146 to R150, R230), and the steps of their homes: arbitration,
abort notices, lock and install, versioned ways, ticket counters and row reads (R154 to R163).
-/
namespace Sys2Proof.Machine

/-- R155: ticket a is older than ticket b. -/
def older (a b : Nat) : Bool :=
  if a / 32 ≠ b / 32 then 2 ^ 47 ≤ (a / 32 + 2 ^ 48 - b / 32) % 2 ^ 48 else a % 32 < b % 32

/-- R155: counter value `c` is later than `own`. -/
def later (c own : Nat) : Bool := c ≠ own && (c + 2 ^ 48 - own) % 2 ^ 48 < 2 ^ 47

/-- XBEGIN (R146, R78, R155): waits for bound slots, for a pending acquire (R132) and a zero store-acknowledge counter; an
eighth level aborts with code 8. -/
def execXbegin (d : BitVec 6) (s : State) : Host.Outcome State Fault Refusal :=
  let t := s.task
  if t.slots != 0 || t.sack != 0 || t.pend.any (·.acq.isSome) then stall s
  else match t.txn with
    | some tx =>
      if tx.depth = 7 then abort 8 0 s
      else retire ((s.mapTask fun t => { t with txn := some { tx with depth := tx.depth + 1 } }).writeInt d 0 0)
    | none =>
      let st := siteOf s.cur
      let (s, ticket) := match t.ticket with
        | some n => (s, n)
        | none => (s.mapSite st fun x => { x with ticket := (x.ticket + 1) % 2 ^ 48 },
                   (s.site st).ticket * 32 + st % 24)
      let tx : Txn := { depth := 1, ticket, dest := d.toNat, resume := t.pc + 4, snapG := t.g, snapS := t.streams,
                        heldBase := State.heldCount t }
      retire ((s.mapTask fun t => { t with txn := some tx, ticket := some ticket }).writeInt d 0 0)

/-- The homes that record tiles of a transaction (R152, R161): site · 64 + slice. -/
def tileHome (tile : Nat) : Nat := paSite (tile * 256) * 64 + paSlice (tile * 256)
def txnHomes (tx : Txn) : List Nat := ((tx.reads ++ tx.writes).map tileHome).foldl insertNat []

/-- XEND (R146, R161): an inner level closes; the outermost waits for its loads and the counter, with what was committed
before it transmitted (R130), then sends its lock requests and waits for the commit. -/
def execXend (s : State) : Host.Outcome State Fault Refusal :=
  match s.task.txn with
  | none => trap cILLEGAL 0 s
  | some tx =>
    if tx.depth ≠ 1 then
      retire (s.mapTask fun t => { t with txn := some { tx with depth := tx.depth - 1 } })
    else
      let s := s.combineFlush s.cur s.ctx s.task.opNo
      if s.task.pend.any unboundOp || !drained s.task then
        stall (if (State.nextOut s.task).isSome then s.pushOnce (.niTransmit s.cur s.ctx) else s)
      else
        let homes := txnHomes tx
        let s := s.mapTask fun t => { t with wait := some .xend, txn := some { tx with locking := some homes } }
        stall (if homes.isEmpty then s.push (.txInstall s.cur s.ctx)
               else homes.foldl (fun s h => s.route (agentNi s.cur) (agentDir (h / 64) (h % 64)) 1 0 (.txLock s.cur s.ctx h)) s)

/-- XABORT (R149): code 3 with its argument; nothing outside a transaction. -/
def execXabort (k : BitVec 8) (s : State) : Host.Outcome State Fault Refusal :=
  if s.task.txn.isSome then abort 3 k.toNat s else retire s

/-- XTEST (R146, R230): the depth, untagged and untainted. -/
def execXtest (d : BitVec 6) (s : State) : Host.Outcome State Fault Refusal :=
  retire (s.writeInt d (BitVec.ofNat 64 ((s.task.txn.map (·.depth)).getD 0)) 0)

namespace State

/-- A directory sees a counter value from another site (R155). -/
def advanceTicket (s : State) (site c : Nat) : State :=
  s.mapSite site fun t => if later c t.ticket then { t with ticket := c } else t

/-- The ticket of a context's transaction. -/
def ticketOf (s : State) (h : Nat × Nat) : Nat := ((s.ctxAt h.1 h.2).txn.map (·.ticket)).getD 0

/-- A home aborts one holder of a tile, or a requester, with a code (R157). -/
def abortHolder (s : State) (tile : Nat) (h : Nat × Nat) (code : Nat) : State :=
  let s := { s with tileDirs := s.tileDirs.map fun (t, d) => (t, if t = tile then tileDrop d h else d) }
  let s := s.mapCtx h.1 h.2 fun c =>
    { c with txn := c.txn.map fun x => if x.removed.isSome then x else { x with removed := some code } }
  s.notice tile h code

/-- The request is recorded at the tile and in the transaction's sets (R151, R156). -/
def recordTile (s : State) (h : Nat × Nat) (tile : Nat) (write : Bool) : State :=
  let d : TileDir := Sparse.get {} s.tileDirs tile
  let d := if write then { d with writer := some h }
    else if d.readers.contains h then d else { d with readers := d.readers ++ [h] }
  let s := { s with tileDirs := Sparse.set s.tileDirs tile d }
  s.mapCtx h.1 h.2 fun c => { c with txn := c.txn.map fun x =>
    if write then { x with writes := insertNat x.writes tile } else { x with reads := insertNat x.reads tile } }

/-- The oldest or youngest of some transactions is found by pairwise comparison of tickets (R155). -/
def youngest (s : State) : List (Nat × Nat) → Option (Nat × Nat)
  | [] => none
  | h :: t => match youngest s t with
    | none => some h
    | some y => if older (s.ticketOf y) (s.ticketOf h) then some h else some y

/-- Whether a granted reservation stands on a word of a tile (R159). -/
def tileReserved (s : State) (d : TileDir) : Bool :=
  s.resv.any fun (a, r) => r.holder.isSome && d.blocks.contains (a / 256)

/-- Arbitration of R156 for a request of `q` on an unlocked tile. -/
def arbitrate (s : State) (q : Nat × Nat) (tile : Nat) (write : Bool) : State :=
  let d : TileDir := Sparse.get {} s.tileDirs tile
  let wins := fun h => older (s.ticketOf q) (s.ticketOf h)
  match d.writer with
  | some h =>
    if h = q then s.recordTile q tile write
    else if wins h then (s.abortHolder tile h 1).recordTile q tile write
    else s.abortHolder tile q 1
  | none =>
    let others := d.readers.filter (· != q)
    if write then
      if others.all wins then (others.foldl (fun s h => s.abortHolder tile h 1) s).recordTile q tile true
      else s.abortHolder tile q 1
    else if d.readers.contains q || others.length < 8 then s.recordTile q tile false
    else match s.youngest (q :: others) with
      | some y => if y = q then s.abortHolder tile q 2 else (s.abortHolder tile y 2).recordTile q tile false
      | none => s

end State

/-- TX_ARBITRATION (R156, R159). A locked tile leaves the request to be made again after the install. -/
def execTxArbitration (core ctx tile : Nat) (write : Bool) (s : State) : Host.Outcome State Fault Refusal :=
  match (s.ctxAt core ctx).txn with
  | none => .next s
  | some tx =>
    if tx.removed.isSome then .next s
    else
      let home := paSite (tile * 256)
      let s := if home = siteOf core then s else s.advanceTicket home (tx.ticket / 32)
      let d : TileDir := Sparse.get {} s.tileDirs tile
      let as := d.blocks.flatMap fun b => [b * 256, b * 256 + 64, b * 256 + 128, b * 256 + 192]
      match s.hostHold home as write (.txArbitration core ctx tile write) with
      | some s => .next s
      | none =>
      if d.locked then .next s
      else if s.tileReserved d then .next (s.abortHolder tile (core, ctx) 9)
      else .next (s.arbitrate (core, ctx) tile write)

/-- ABORT_NOTICE (R157, R162): a context held for a translation fault is aborted when its hold ends. -/
def execAbortNotice (core ctx code : Nat) (s : State) : Host.Outcome State Fault Refusal :=
  let t := s.ctxAt core ctx
  match t.txn.bind (·.removed) with
  | none => .next s
  | some c => if t.hold.isSome then .next s else if c = code then .next (s.abortTxn core ctx code 0 false) else .next s

/-- TX_LOCK (R161): the home locks the transaction's written tiles and drops its reads, or refuses; a read hold
(R163) makes it wait. Plain writes of the same cycle have been settled before it (R165). The last grant is the commit point. -/
def execTxLock (core ctx home : Nat) (s : State) : Host.Outcome State Fault Refusal :=
  match (s.ctxAt core ctx).txn with
  | none => .next s
  | some tx =>
    match tx.removed, tx.locking with
    | some c, some _ => .next (s.abortTxn core ctx c 0 false)
    | none, some homes =>
      if !homes.contains home then .next s
      else
        let mine := fun t => tileHome t == home
        let ws := tx.writes.filter mine
        if ws.any fun t => !(Sparse.get {} s.tileDirs t : TileDir).readHolds.isEmpty then .next (s.again (.txLock core ctx home))
        else
          let lock := fun (t : Nat) (d : TileDir) =>
            { d with readers := d.readers.filter (· != (core, ctx)), locked := d.locked || ws.contains t }
          let s := { s with tileDirs := s.tileDirs.map fun (t, d) => (t, if mine t then lock t d else d) }
          let rest := homes.filter (· != home)
          let s := s.mapCtx core ctx fun c => { c with txn := some { tx with locking := some rest } }
          .next (if rest.isEmpty then s.push (.txInstall core ctx) else s)
    | _, _ => .next s

/-- One entry of the reduction log applied as a comm AMO without return (R161, R231). -/
def State.applyRed (s : State) (k x : Nat) (e : RedEntry) (p : Place) : State :=
  let r : AmoReq := { core := k, addr := e.addr, op := redOp e.op e.wide, opnd := e.opnd, cmp := 0, comm := true,
                      stat := false, scope := 0, ret := none, acks := [] }
  s.asCtx k x fun s => s.issueAmo .none
    { op := 0, gen := 0, kind := .amo, addrs := addrRange e.addr (if e.wide then 8 else 4), place := p } r 0 false

/-- Where a reduction-log address is homed: the core's own share, another's, or memory. -/
def State.redPlace (s : State) (k a : Nat) : Place :=
  match s.windows.find? fun w => w.storage ≤ a && a < w.storage + w.size with
  | some w => (match w.kind with
    | .share c => if c = k then .own else .share c
    | _ => s.placeOf (siteOf k) a)
  | none => s.placeOf (siteOf k) a

/-- The lines of some tiles. -/
def State.tileLines (s : State) (tiles : List Nat) : List Nat :=
  tiles.flatMap fun t => (Sparse.get {} s.tileDirs t : TileDir).blocks.flatMap fun b => [2 * b, 2 * b + 1]

/-- Every copy of some lines in the module goes, but that the core which wrote them keeps its L1 lines as shared
copies (R161). -/
def State.installLines (s : State) (k : Nat) (lines : List Nat) : State :=
  let kept := lines.filter fun l => (s.core k).l1.any (·.line == l)
  let s := lines.foldl (fun s l => s.wroteLine none l) s
  kept.foldl (fun s l => (s.clusterInstall (siteOf k) (clusterOf k) l .shared none).l1Install k l none) s

/-- TX_INSTALL (R161): the speculative copies become the committed ones with their stamps raised, the tiles are
free, other copies of their lines are invalidated, the reduction log is applied, held effects are committed, and XEND
retires. -/
def execTxInstall (core ctx : Nat) (s : State) : Host.Outcome State Fault Refusal :=
  match (s.ctxAt core ctx).txn with
  | none => .next s
  | some tx =>
    if tx.locking ≠ some [] then .next s
    else
      let s := s.writeMem tx.spec
      let s := tx.specTags.foldl (fun s (g, b) => s.setTag g b) s
      let s := { s with tileDirs := s.tileDirs.map fun (t, d) =>
        (t, if tx.writes.contains t then
              { State.tileDrop d (core, ctx) with locked := false, stamp := (d.stamp + 1) % 2 ^ 16 }
            else State.tileDrop d (core, ctx)) }
      let s := s.mapCtx core ctx fun c =>
        { c with txn := none, ticket := none, wait := none, pc := c.pc + 4, retired := c.retired + 1 }
      let s := s.installLines core (s.tileLines tx.writes)
      let s := tx.log.foldl (fun s e => s.applyRed core ctx e (s.redPlace core e.addr)) s
      .next (s.release core ctx).kickAll

/-- VERSIONED_EVICTION (R154): a speculative line that leaves L1 takes a versioned way, or the younger of its
transaction and the slice's youngest aborts with code 2. -/
def execVersionedEviction (core ctx tile : Nat) (s : State) : Host.Outcome State Fault Refusal :=
  match (s.ctxAt core ctx).txn with
  | none => .next s
  | some tx =>
    if !tx.writes.contains tile || tx.versioned.contains tile then .next s
    else
      let home := tileHome tile
      let holders := s.cores.flatMap fun (k, c) => c.ctxs.flatMap fun (x, t) =>
        ((t.txn.map fun y => y.versioned.filter fun v => tileHome v == home).getD []).map fun _ => (k, x)
      let take := fun (s : State) => s.mapCtx core ctx fun c =>
        { c with txn := c.txn.map fun y => { y with versioned := insertNat y.versioned tile } }
      if holders.length < 1024 then .next (take s)
      else match s.youngest holders with
        | none => .next s
        | some y =>
          if older tx.ticket (s.ticketOf y) then
            let vs := ((s.ctxAt y.1 y.2).txn.map fun z => z.versioned.filter fun v => tileHome v == home).getD []
            let s := vs.foldl (fun s v => s.abortHolder v y 2) s
            let s := s.mapCtx y.1 y.2 fun c => { c with txn := c.txn.map fun z => { z with versioned := [] } }
            .next (take s)
          else .next (s.abortHolder tile (core, ctx) 2)

/-- TICKET_BEACON (R155): the counter goes to the other 23 sites of the module. -/
def execTicketBeacon (site : Nat) (s : State) : Host.Outcome State Fault Refusal :=
  let m := site / 24
  .next ((((List.range 24).map fun i => m * 24 + i).filter (· != site)).foldl (fun s t =>
    s.route (agentDir site 0) (agentDir t 0) 1 2 (.ticketAdvance t (s.site site).ticket)) s)

/-- TICKET_ADVANCE (R155). -/
def execTicketAdvance (site counter : Nat) (s : State) : Host.Outcome State Fault Refusal :=
  .next (s.advanceTicket site counter)

namespace State

/-- A tile's directory entry. -/
def dirOf (s : State) (tile : Nat) : TileDir := Sparse.get {} s.tileDirs tile

/-- The commit stamps of some tiles as they stand. -/
def stamps (s : State) (tiles : List Nat) : List Nat := tiles.map fun t => (s.dirOf t).stamp

/-- The sample a hod has taken of a row. -/
def rowSample (s : State) (hod : Nat) (tiles : List Nat) : Option RowSample :=
  (s.site (agentSite hod)).rowReads.find? fun r => r.hod == hod && r.tiles == tiles

/-- A sample of a row, taken in place of the one before. -/
def sampleRow (s : State) (hod : Nat) (tiles : List Nat) (rereads : Nat) : State :=
  s.mapSite (agentSite hod) fun t => { t with
    rowReads := t.rowReads.filter (fun r => !(r.hod == hod && r.tiles == tiles)) ++
      [{ hod, tiles, stamps := s.stamps tiles, locked := tiles.any fun t => (s.dirOf t).locked, since := t.fab, rereads }] }

/-- The row must be read again (R163): against its first sample a stamp differs, a tile was or is locked, or more than
2^16 fabric cycles have passed. -/
def rowStale (s : State) (r : RowSample) : Bool :=
  r.locked || (r.tiles.any fun t => (s.dirOf t).locked) || s.stamps r.tiles != r.stamps
    || r.since + 2 ^ 16 < (s.site (agentSite r.hod)).fab

/-- A hod's read hold on some tiles set or released. -/
def holdRow (s : State) (hod : Nat) (tiles : List Nat) (on : Bool) : State :=
  let hold := fun (d : TileDir) =>
    { d with readHolds := if on then insertNat d.readHolds hod else d.readHolds.filter (· != hod) }
  { s with tileDirs := if on then tiles.foldl (fun m t => Sparse.set m t (hold (s.dirOf t))) s.tileDirs
                       else s.tileDirs.map fun (t, d) => (t, if tiles.contains t then hold d else d) }

/-- A row read is over: its sample and its read hold go. -/
def endRow (s : State) (hod : Nat) (tiles : List Nat) : State :=
  (s.mapSite (agentSite hod) fun t =>
    { t with rowReads := t.rowReads.filter fun r => !(r.hod == hod && r.tiles == tiles) }).holdRow hod tiles false

/-- The row reads of a hod are given up. -/
def endRows (s : State) (hod : Nat) : State :=
  ((s.site (agentSite hod)).rowReads.filter (·.hod == hod)).foldl (fun s r => s.endRow hod r.tiles) s

end State

/-- ROW_READ (R163): the hod samples the commit stamps of a row's tiles. A row it has sampled before is read again, which
ROWREREAD counts; after eight rereads a read hold stands on its tiles, under which it is read once more. -/
def execRowRead (hod : Nat) (tiles : List Nat) (s : State) : Host.Outcome State Fault Refusal :=
  match s.rowSample hod tiles with
  | none => .next (s.sampleRow hod tiles 0)
  | some r =>
    let s := (s.sampleRow hod tiles (r.rereads + 1)).mapSite (agentSite hod) fun t =>
      { t with rowreread := sat32 (t.rowreread + 1) }
    .next (if r.rereads = 8 then s.holdRow hod tiles true else s)

end Sys2Proof.Machine
end

