-- ==== Sys2Proof/Machine/Stream.lean ====
section
/-!
DEFINITION. Streams: binding, pops, appends, consumer advances (R79, R80, R232 to R241), operand records (R73).
-/
namespace Sys2Proof.Machine

/-- Fields of a layout word (R233). -/
def loType (w : Word) : Nat := (w.extractLsb' 60 4).toNat
def loScaled (w : Word) : Bool := w.getLsbD 59
def loRunsl (w : Word) : Nat := (w.extractLsb' 52 3).toNat
def loEsz (w : Word) : Bool := w.getLsbD 51
def loEstride (w : Word) : Word := (w.extractLsb' 24 24).signExtend 64
def loRstride (w : Word) : Word := (w.extractLsb' 0 24).signExtend 64

/-- R236: the layout word is valid. -/
def layoutOk (w : Word) : Bool :=
  let t := loType w
  t != 6 && t != 7 && t != 15 && w.extractLsb' 55 4 == 0 && loRunsl w ≤ 4 && w.extractLsb' 48 3 == 0
    && (!loScaled w || t == 12 || t == 13 || t == 14)

/-- Elements that share a scale record (R234). -/
def scaleGroup (w : Word) : Nat := if loType w = 14 then 2 else 4

/-- Bytes of an element and of one of its runs (R233). -/
def loSize (w : Word) : Nat := if loEsz w then 128 else 64
def loRun (w : Word) : Nat := loSize w / 2 ^ loRunsl w

/-- R79: the group of registers a binding may name: a multiple of 4 from 8 to 52, overlapping no other binding. -/
def State.bindOk (s : State) (k n : Nat) : Bool :=
  n % 4 == 0 && 8 ≤ n && n ≤ 52 && !s.task.streams.any fun (j, b) => j != k && b.reg == n

def State.bindStream (s : State) (k : Nat) (b : Stream) : State :=
  s.mapTask fun t => { t with streams := Sparse.set t.streams k b }

/-- SBIND (R236): the layout word and the count are checked; no capability is. -/
def execSbind (k n : BitVec 6) (s : State) : Host.Outcome State Fault Refusal :=
  let r := n.toNat
  if !s.bindOk k.toNat r then trap cILLEGAL 0 s
  else if s.busyG (n + 1) || s.busyG (n + 2) then stall s
  else
    let w := (s.g (n + 1)).val
    if !layoutOk w || (loScaled w && (s.g (n + 2)).val.toNat % scaleGroup w != 0) then trap cILLEGAL 0 s
    else retire (s.bindStream k.toNat { reg := r })

/-- The bytes of runs 0 and last of elements 0 and count − 1 (R237), as addresses of runs. -/
def extentRuns (c w : Word) (count : Nat) : List Word :=
  [0, count - 1].flatMap fun e => [0, 2 ^ loRunsl w - 1].map fun j =>
    c + BitVec.ofNat 64 e * loEstride w + BitVec.ofNat 64 j * loRstride w

/-- A capability read from memory bytes with its granule's tag. -/
def regOfBytes (bs : List Byte) (tg : Bool) : Reg :=
  { val := BitVec.ofNat 64 (ofBytes (bs.take 8)), desc := BitVec.ofNat 64 (ofBytes ((bs.drop 8).take 8)), tag := tg }

/-- The team's record authority (R22), as it stands in its authority block. -/
def State.recAuth (s : State) (k : Nat) : Reg :=
  match s.windows.find? fun w => w.kind == .authority && (s.core k).team == some w.team with
  | some w => regOfBytes (s.readMem (addrRange w.storage 16)) (s.tagAt w.storage)
  | none => {}

/-- Check 2 of R73. -/
def recAuthOk (r : Reg) : Bool :=
  let (b, t) := capBounds r.desc r.val
  r.tag && capOtype r.desc == 0 && hasPerm r.desc pUNSEAL && r.val == 1 && b ≤ 1 && 1 < t

/-- Checks 5 and 6 of R73, and the layout check of R237. -/
def recordOk (sup : Bool) (weight scale : Reg) (w : Word) (count : Nat) : Bool :=
  capHolds sup weight [pLD]
    && (count == 0 || (extentRuns weight.val w count).all fun x => inBounds weight x (loRun w))
    && layoutOk w
    && (!loScaled w || (count % scaleGroup w == 0 && capHolds sup scale [pLD]
      && (count == 0 || inBounds scale scale.val (16 * (count / scaleGroup w)))))

/-- SBINDR (R73, R237): the checks in their order; a stale revocation word is audited (R364). The reads are bound
before the registers are written, that of the table's word as its home serves it (R363). -/
def execSbindr (k n r : BitVec 6) (s : State) : Host.Outcome State Fault Refusal :=
  if !s.bindOk k.toNat n.toNat then trap cILLEGAL 0 s
  else if s.busyG r || s.busyG (n + 2) then stall s
  else
    let c := s.g r
    let x := c.val
    let (base, top) := capBounds c.desc x
    let unsealed := { c with desc := c.desc &&& ~~~(0xFFF#64 <<< 40) }
    let s := s.mapTask fun t => { t with streams := t.streams.filter (·.1 != k.toNat) }
    if !(c.tag && capOtype c.desc == 1 && hasPerm c.desc pREC) || !recAuthOk (s.recAuth s.cur) then trap cCAP x s
    else if !(base ≤ x.toNat && x.toNat + 64 ≤ top) || (hasPerm unsealed.desc pSYS && !s.supAt s.cur) then trap cCAP x s
    else if x.toNat % 64 ≠ 0 then trap cALIGN x s
    else if c.taint != 0 then stall s
    else rollback s (readNow x 64 true true s fun as bs s =>
      let word := fun i => BitVec.ofNat 64 (ofBytes ((bs.drop (8 * i)).take 8))
      let tg := fun i => s.specTag (as.getD i 0 / 16)
      let weight := regOfBytes bs (tg 0)
      let scale := regOfBytes (bs.drop 16) (tg 16)
      let layout : Word := word 4
      let rvk : Word := word 5
      let slot := (rvk.extractLsb' 32 16).toNat
      let epoch := (rvk.extractLsb' 0 32).toNat
      let rva := ((s.csrAt s.cur 0x802).extractLsb' 18 30).toNat * 2 ^ 18 + 4 * slot
      match s.agentXlate (s.partAt s.cur) true (siteOf s.cur) (siteOf s.cur, clusterOf s.cur) rva .read with
      | (s, .inr c) => stall (if c = fWAIT then s else s.missWalk s.cur s.ctx rva .walker)
      | (s, .inl ra) =>
        let as := addrRange ra 4
        unpoisoned as (BitVec.ofNat 64 rva) s fun s =>
        if s.tileLocked as then stall s
        else hostServed (s.placeOf (siteOf s.cur) ra) as s fun s =>
        let now := ofBytes (s.readMem as)
        if now ≠ epoch then
          let tid := ((s.teamAt s.cur).map State.teamIdWord).getD 0
          trap cCAP x (s.push (.auditAppend s.cur s.task.msg.id tid slot epoch now))
        else
          let count := (s.g (n + 2)).val.toNat
          if !recordOk (s.supAt s.cur) weight scale layout count then trap cCAP x s
          else
            let s := (s.writeG n.toNat weight).writeInt (n + 1) layout 0
            let s := s.writeG (n + 3).toNat (if loScaled layout then scale else {})
            retire (s.bindStream k.toNat { reg := n.toNat }))

/-- Slot bytes and slot count of a FIFO bank (R109). -/
def slotBytes (b : Bank) : Nat := 2 ^ (5 + b.slot)
def slotCount (b : Bank) : Nat := 2 ^ b.depthl

/-- A FIFO bank's state word (R109). -/
def fifoWord (b : Bank) : Word :=
  BitVec.ofNat 64 ((if b.shared then 2 ^ 63 else 0) + b.slot * 2 ^ 60 + b.depthl * 2 ^ 56 + b.head * 2 ^ 14 + b.tail)

/-- FIFO information in gN+3 (R238). -/
def fifoInfo (prod : Bool) (mark idx : Nat) : Word :=
  BitVec.ofNat 64 ((if prod then 2 ^ 63 else 0) + mark * 2 ^ 16 + idx)
def infoMark (w : Word) : Nat := (w.extractLsb' 16 14).toNat
def infoIdx (w : Word) : Nat := (w.extractLsb' 0 14).toNat

/-- The FIFO bank a capability covers (R238): that of the window at its base. -/
def State.fifoOf (s : State) (c : Reg) : Option Nat :=
  match s.findWindow (s.partAt s.cur) (capBounds c.desc c.val).1 with
  | some w => (match w.kind with
    | .fifo _ b => if (s.bank b).mode = .fifo then some b else none
    | _ => none)
  | none => none

/-- The address of a slot of a FIFO bank (R239), from the first of the bank. -/
def State.slotAddr (s : State) (bk i : Nat) : Word :=
  let base := (s.windows.find? fun w => (match w.kind with
    | .fifo _ b => b == bk
    | _ => false)).map (·.base)
  BitVec.ofNat 64 (base.getD 0 + i % slotCount (s.bank bk) * slotBytes (s.bank bk))

/-- SFIFO (R238): binds to the FIFO bank covered by gN, and writes its information and cursor. A bind through a register
that is no unsealed capability takes CAP (R67, R353); LD or ST is checked at each pop or append. -/
def sfifo (prod : Bool) (k n : BitVec 6) (s : State) : Host.Outcome State Fault Refusal :=
  if !s.bindOk k.toNat n.toNat then trap cILLEGAL 0 s
  else if s.busyG n || s.busyG (n + 1) then stall s
  else
    let c := s.g n
    if (s.g (n + 1)).val.extractLsb' 0 60 != 0 then trap cILLEGAL 0 s
    else if !capHolds (s.supAt s.cur) c [] then trap cCAP c.val s
    else match s.fifoOf c with
      | none => trap cCAP c.val s
      | some bk =>
        let b := s.bank bk
        let idx := if prod then b.tail else b.head
        let info := n.toNat + 3
        let s := s.writeG info { val := fifoInfo prod (if prod then 0 else idx) idx, taint := (s.task.gr info).taint }
        let s := s.writeG n.toNat { c.move (s.slotAddr bk idx) with taint := (s.g n).taint }
        retire (s.bindStream k.toNat { reg := n.toNat, fifo := some (bk, prod) })

/-- SFIFO.cons (R238). -/
def execSfifoCons (k n : BitVec 6) (s : State) : Host.Outcome State Fault Refusal := sfifo false k n s
/-- SFIFO.prod (R238). -/
def execSfifoProd (k n : BitVec 6) (s : State) : Host.Outcome State Fault Refusal := sfifo true k n s

/-- SUNBIND (R232): the registers stay; an unbound stream is no error. -/
def execSunbind (k : BitVec 6) (s : State) : Host.Outcome State Fault Refusal :=
  retire (s.mapTask fun t => { t with streams := t.streams.filter (·.1 != k.toNat) })

/-- Contexts that wait on a FIFO bank are looked at again (R33). -/
def State.wakeFifo (s : State) (bk : Nat) : State :=
  s.pushAll (s.cores.flatMap fun (k, c) => (c.ctxs.filter fun (_, t) =>
    t.park == some (.pop bk) || t.park == some (.append bk)).map fun (x, _) => .parkResume k x)

/-- Contexts that look at a FIFO bank whose HEAD or TAIL has moved go on: an IDLE context with a binding to it wakes
(R402), as do those that wait on it. -/
def State.fifoOn (s : State) (bk : Nat) : State :=
  let s := s.pushAll (s.cores.flatMap fun (k, c) => (c.ctxs.filter fun (_, t) =>
    t.idle.isSome && t.streams.any fun (_, st) => st.fifo.any (·.1 == bk)).map fun (x, _) => .idleWake k x)
  s.wakeFifo bk

/-- A FIFO's TAIL moves at once, and its HEAD as the cycle ends (R40, R109, R113, R240). -/
def State.moveFifo (s : State) (bk : Nat) (isHead : Bool) (n : Nat) : State :=
  let b := s.bank bk
  if isHead then s.setBank bk { b with freeing := b.freeing + n }
  else (s.setBank bk { b with tail := (b.tail + n) % (2 * slotCount b) }).fifoOn bk

/-- The HEAD of a FIFO with the advances of the cycle that ends (R113). -/
def State.settleFifo (s : State) (bk : Nat) : State :=
  let b := s.bank bk
  if b.freeing = 0 then s
  else (s.setBank bk { b with head := (b.head + b.freeing) % (2 * slotCount b), freeing := 0 }).fifoOn bk

/-- SADV (R240): the consumer advance of a FIFO stream. -/
def execSadv (k : BitVec 6) (s : State) : Host.Outcome State Fault Refusal :=
  noTxn s fun s =>
    match Sparse.find s.task.streams k.toNat with
    | some { reg := n, fifo := some (bk, false) } =>
      let r := BitVec.ofNat 6 (n + 3)
      if s.busyG r then stall s
      else
        let b := s.bank bk
        let w := (s.g r).val
        let a := (infoIdx w + 2 * slotCount b - infoMark w) % (2 * slotCount b)
        let mark := fun (s : State) => s.mapTask fun t =>
          t.putG (n + 3) { t.gr (n + 3) with val := fifoInfo false (infoIdx w) (infoIdx w), tag := false, desc := 0 }
        if b.shared then
          let s := s.release s.cur s.ctx
          let go := fun (t : Ctx) => if a = 0 then t else
            { t with divert := t.divert ++ [{ eff := .fifoHead bk a, committed := true, after := t.opNo }], opNo := t.opNo + 1 }
          retire (mark ((s.mapTask go).pushOnce (.niTransmit s.cur s.ctx)))
        else if a = 0 then retire (mark s)
        else State.hold s (.fifoHead bk a) fun s => retire (mark s)
    | _ => trap cILLEGAL 0 s

/-- SSTAT (R241). -/
def execSstat (d k : BitVec 6) (s : State) : Host.Outcome State Fault Refusal :=
  match Sparse.find s.task.streams k.toNat with
  | none => trap cILLEGAL 0 s
  | some b =>
    match b.fifo with
    | some (bk, _) => retire (s.writeInt d (fifoWord (s.bank bk)) 0)
    | none =>
      let r := BitVec.ofNat 6 (b.reg + 2)
      if s.busyG r then stall s else retire (s.writeInt d (s.g r).val 0)

/-- A popped element: its bytes, its scale record and its taint. -/
structure Elem where
  bytes : List Byte
  scales : Option (List Byte) := none
  taint : BitVec 8 := 0
  deriving DecidableEq, Repr

/-! What a stream operand asks before any operand of its instruction is read. -/

/-- The registers a stream works with (R79, R234): gN+3 only where it holds a scale capability or FIFO information. -/
def Ctx.streamRegs (t : Ctx) (b : Stream) : List Nat :=
  [b.reg, b.reg + 1, b.reg + 2] ++ if b.fifo.isSome || loScaled (t.gr (b.reg + 1)).val then [b.reg + 3] else []

/-- The taint of a stream's registers (R75). -/
def Ctx.streamTaint (t : Ctx) (b : Stream) : BitVec 8 := (t.streamRegs b).foldl (fun m n => m ||| (t.gr n).taint) 0

/-- Whether a stream's registers await a value (R81). -/
def Ctx.streamBusy (t : Ctx) (b : Stream) : Bool := (t.streamRegs b).any fun n => t.busy (.g n)

/-- R233, R235, R239: a source stream that is unbound, a producer, or of a form its operand does not take. -/
def popIllegal (t : Ctx) (wide : Bool) (k : Nat) : Bool :=
  match Sparse.find t.streams k with
  | none => true
  | some b => match b.fifo with
    | some (_, prod) => prod
    | none =>
      let w := (t.gr (b.reg + 1)).val
      !layoutOk w || (!wide && (loEsz w || loScaled w))

/-- R80, R233: a destination stream that is no producer. -/
def appendIllegal (t : Ctx) (k : Nat) : Bool := !(Sparse.find t.streams k).any fun b => b.fifo.any (·.2)

/-- Whether a FIFO stream would park as it stands (R239). -/
def State.wouldPark (s : State) (k : Nat) : Bool :=
  (Sparse.find s.task.streams k).any fun b => b.fifo.any fun (bk, prod) =>
    let q := s.bank bk
    let i := infoIdx (s.task.gr (b.reg + 3)).val
    let m := 2 * slotCount q
    (s.task.gr (b.reg + 2)).val != 0 && (if prod then (i + m - q.head) % m == slotCount q else i == q.tail)

/-- The streams among an instruction's operands (R276): those it pops, and the one it appends to. -/
def streamsOf (fs : List (BitVec 6)) : List Nat :=
  (fs.filter fun f => 32 ≤ f.toNat && f.toNat < 40).map fun f => f.toNat - 32

/-- An instruction with stream operands: before anything is popped, their registers must hold values, an illegal
operand takes ILLEGAL (R235, R276), and inside a transaction one that would park aborts with code 5 before any check
(R150). -/
def streaming (pops : List Nat) (app : Option Nat) (wide : Bool) (s : State) (run : Host.Outcome State Fault Refusal) :
    Host.Outcome State Fault Refusal :=
  let t := s.task
  let ks := pops ++ app.toList
  if ks.any fun k => (Sparse.find t.streams k).any t.streamBusy then stall s
  else if pops.any (popIllegal t wide) || app.any (appendIllegal t) then trap cILLEGAL 0 s
  else if t.txn.isSome && ks.any s.wouldPark then abort 5 0 s
  else rollback s run

/-! Pops and appends. -/

/-- Ranges of a capability checked in order, each aligned to its size (R217, R233); the first failure traps. -/
def checkedAll (c : Reg) (xs : List Piece) (s : State) (ok : State → Host.Outcome State Fault Refusal) :
    Host.Outcome State Fault Refusal :=
  match xs.findSome? fun (x, n) => (capFault (s.supAt s.cur) c x n [pLD] n).map fun cause => (cause, x) with
  | some (cause, x) => trap cause x s
  | none => ok s

/-- An element is popped: it takes a slot (R74), which is bound as the instruction retires (R76). -/
def State.popSlot (s : State) : State × BitVec 8 :=
  let n := s.task.slotFor
  (s.mapTask fun t => { t.takeSlot n with pops := t.pops ++ [n] }, slotBit n)

/-- A pop of a memory-bound stream (R233, R234): the element, with gN, gN+2 and gN+3 moved. From another core's region it is a
release point where `rel` says so (R37). -/
def popMemory (b : Stream) (rel : Bool) (s : State) (ok : Elem → State → Host.Outcome State Fault Refusal) :
    Host.Outcome State Fault Refusal :=
  let n := b.reg
  let t := s.task
  let c := t.gr n
  let w := (t.gr (n + 1)).val
  let count := (t.gr (n + 2)).val
  let sc := t.gr (n + 3)
  let taint := t.streamTaint b
  if count = 0 then
    ok { bytes := List.replicate (loSize w) 0, taint, scales := if loScaled w then some (List.replicate 16 0x7F) else none } s
  else if taint != 0 then stall s
  else
    let runs := (List.range (2 ^ loRunsl w)).map fun j => (c.val + BitVec.ofNat 64 j * loRstride w, loRun w)
    let scale := if loScaled w then [(sc.val, 16)] else []
    checkedAll c runs s fun s => checkedAll sc scale s fun s =>
      locatePieces .read ((runs ++ scale).flatMap fun (x, len) => pieces x len) s fun ls => readPiecesBy notePoison ls rel true s fun _ bs s =>
        let (s, bit) := s.popSlot
        let left := count - 1
        let s := s.mapTask fun t =>
          let t := (t.putG n (c.move (c.val + loEstride w))).putG (n + 2) { val := left }
          if loScaled w && left.toNat % scaleGroup w == 0 then t.putG (n + 3) (sc.move (sc.val + 16)) else t
        ok { bytes := bs.take (loSize w), scales := if loScaled w then some (bs.drop (loSize w)) else none, taint := bit } s

/-- A context that waits on a FIFO parks (R33, R239); inside a transaction it aborts with code 5 (R150). -/
def fifoWait (p : Park) (s : State) : Host.Outcome State Fault Refusal := noTxn s (parkHere p)

/-- gN and gN+2, gN+3 after a pop or an append of a FIFO stream (R239). -/
def fifoMoved (n bk : Nat) (prod : Bool) (s : State) : State :=
  s.mapTask fun t =>
    let w := (t.gr (n + 3)).val
    let i := (infoIdx w + 1) % (2 * slotCount (s.bank bk))
    let c := t.gr n
    ((t.putG n (c.move (s.slotAddr bk i))).putG (n + 2) { val := (t.gr (n + 2)).val - 1 }).putG (n + 3)
      { val := fifoInfo prod (infoMark w) i }

/-- A pop of a FIFO stream (R239): the slot's first 64 bytes, or for X-format the whole slot where it is wider. -/
def popFifo (b : Stream) (bk : Nat) (wide : Bool) (s : State) (ok : Elem → State → Host.Outcome State Fault Refusal) :
    Host.Outcome State Fault Refusal :=
  let n := b.reg
  let t := s.task
  let q := s.bank bk
  let i := infoIdx (t.gr (n + 3)).val
  let size := if wide then max 64 (min 128 (slotBytes q)) else 64
  let taint := t.streamTaint b
  if (t.gr (n + 2)).val = 0 then ok { bytes := List.replicate size 0, taint } s
  else if taint != 0 then stall s
  else
    let x := s.slotAddr bk i
    checkedAll (t.gr n) [(x, slotBytes q)] s fun s =>
      if i = q.tail then fifoWait (.pop bk) s
      else locatePieces .read (pieces x (slotBytes q)) s fun ls => readPiecesBy notePoison ls false true s fun _ bs s =>
        let (s, bit) := s.popSlot
        ok { bytes := (bs ++ List.replicate 128 0).take size, taint := bit } (fifoMoved n bk false s)

/-- A pop of stream `k` (R80, R233, R239); `wide` for X-format operands, whose instructions are no release points (R304; for
MRUN DEDUCED, log 95). -/
def pop (k : Nat) (wide : Bool) (s : State) (ok : Elem → State → Host.Outcome State Fault Refusal) :
    Host.Outcome State Fault Refusal :=
  match Sparse.find s.task.streams k with
  | none => trap cILLEGAL 0 s
  | some b => match b.fifo with
    | none => popMemory b (!wide) s ok
    | some (bk, _) => popFifo b bk wide s ok

/-- An append to stream `k` (R80, R239): a plain store of the slot, which waits for the taint of its data (R77), and a held
advance of TAIL. What the instruction has read of another core's region is its release point first (R37). -/
def append (k : Nat) (bytes : List Byte) (taint : BitVec 8) (s : State) (ok : State → Host.Outcome State Fault Refusal) :
    Host.Outcome State Fault Refusal :=
  match Sparse.find s.task.streams k with
  | some { reg := n, fifo := some (bk, true) } =>
    let t := s.task
    let b := s.bank bk
    let i := infoIdx (t.gr (n + 3)).val
    if (t.gr (n + 2)).val = 0 then ok s
    else if t.streamTaint { reg := n, fifo := some (bk, true) } != 0 then stall s
    else
      let x := s.slotAddr bk i
      let m := 2 * slotCount b
      checked (t.gr n) x (slotBytes b) [pST] (slotBytes b) s fun s =>
        if (i + m - b.head) % m = slotCount b then fifoWait (.append bk) s
        else located x .write s fun a p =>
          storePlain x (addrRange a (slotBytes b)) p ((bytes ++ List.replicate 256 0).take (slotBytes b)) [] taint none
            s.dueRelease fun s => State.hold s (.fifoTail bk 1) fun s => ok (fifoMoved n bk true s)
  | _ => trap cILLEGAL 0 s

end Sys2Proof.Machine
end

