-- ==== Sys2Proof/Machine/Msg.lean ====
section
/-!
DEFINITION. Sending, GET and FLUSHRD, and receiving (R243 to R250).
-/
namespace Sys2Proof.Machine

/-- The registers of a list are busy, or their taint. -/
def State.anyBusy (s : State) (rs : List (BitVec 6)) : Bool := rs.any s.busyG
def State.taintOf (s : State) (rs : List (BitVec 6)) : BitVec 8 := rs.foldl (fun t r => t ||| (s.g r).taint) 0

/-- Operands are read when no register of them is busy and their taint is bound (R244). -/
def operands (rs : List (BitVec 6)) (s : State) (ok : State → Host.Outcome State Fault Refusal) :
    Host.Outcome State Fault Refusal :=
  if s.anyBusy rs || s.taintOf rs != 0 then stall s else ok s

/-- The send window (R62, R245). -/
def windowRegs : List (BitVec 6) := [56, 57, 58, 59, 60]

/-- g60 is read only to authorise an absolute descriptor (R19). -/
def absRegs (d : Word) : List (BitVec 6) := if dMode d = 2 then [60] else []

/-- Whether a resolved target lies in the sender's own team (R71). -/
def State.ownTeam (s : State) (k : Nat) (team : Option (Nat × Nat)) : Bool :=
  match s.teamAt s.cur, team with
  | some t, some (g, i) => t.grid == g && t.idx == i
  | some t, none => (State.teamCores t).contains k
  | none, _ => false

/-- The resolution of a descriptor for the issuing task (R19), authorised by g60. -/
def resolved (d : Word) (s : State) (ok : Nat → Option (Nat × Nat) → State → Host.Outcome State Fault Refusal) :
    Host.Outcome State Fault Refusal :=
  match s.resolve s.cur (s.g 60) d with
  | .trap cause => trap cause 0 s
  | .core k team => ok k team s

/-- SEND, SENDO and SENDR (R245): the message is formed from the send window and held. -/
def sendMsg (ordered rel : Bool) (n d p : BitVec 6) (s : State) : Host.Outcome State Fault Refusal :=
  let regs := [d, p, n] ++ windowRegs
  if s.anyBusy regs then stall s
  else
    let len := (s.g n).val.toNat
    let c := s.g 60
    if 256 < len || (p == 0 && len != 0) then trap cSENDFAIL 0 s
    else resolved (s.g d).val s fun k team s =>
      if c.tag && !hasPerm c.desc pGLOBAL && !s.ownTeam k team then trap cCAP 0 s
      else
        let go := fun s =>
          if s.taintOf regs != 0 then stall s
          else readNow (s.g p).val len false true s fun _ payload s =>
            State.hold s (.msg <| s.posed { noMsg with
              src := s.cur, dst := k, handler := dHandler (s.g d).val, cls := dClass (s.g d).val
              a1 := (s.g 56).val, a2 := (s.g 57).val, a3 := (s.g 58).val, a4 := (s.g 59).val
              cap := if c.tag then c.toCap else ⟨0, 0, false⟩
              payload, team, ordered, release := rel }) retire
        if len = 0 then go s else checked (s.g p) (s.g p).val len [pLD] 1 s go

/-- SEND (R245). -/
def execSend (n d p : BitVec 6) (s : State) : Host.Outcome State Fault Refusal := sendMsg false false n d p s
/-- SENDO (R245, R27). -/
def execSendo (n d p : BitVec 6) (s : State) : Host.Outcome State Fault Refusal := sendMsg true false n d p s
/-- SENDR (R245, R137). -/
def execSendr (n d p : BitVec 6) (s : State) : Host.Outcome State Fault Refusal := sendMsg false true n d p s

/-- The size of the page or window that maps an address, and whether it is HOST memory or a FIFO bank. -/
def State.mapKind (s : State) (part : Nat) (sup : Bool) (va : Nat) : Nat × Bool :=
  match s.findWindow part va with
  | some w => (w.base + w.size - va, match w.kind with | .fifo _ _ => true | _ => false)
  | none => match s.walk part sup va .read with
    | .leaf _ leaf base size => (base + size - va, pteMtype leaf == 3)
    | .fault _ => (4096 - va % 4096, false)

/-- Whether a range holds an address in a FIFO bank or in HOST memory (R246, R253), page by page. -/
def State.hostOrFifo (s : State) (part : Nat) (sup : Bool) : Nat → Nat → Nat → Bool
  | 0, _, _ => false
  | fuel + 1, va, n =>
    if n = 0 then false
    else
      let (size, bad) := s.mapKind part sup va
      bad || hostOrFifo s part sup fuel (va + size) (n - size)

/-- A range of a PUT or hod request that no FIFO bank or HOST page holds, else CAP (R246, R253). -/
def noHostFifo (va : Word) (n : Nat) (s : State) (ok : State → Host.Outcome State Fault Refusal) :
    Host.Outcome State Fault Refusal :=
  if s.hostOrFifo (s.partAt s.cur) (s.supAt s.cur) (n / 4096 + 2) va.toNat n then trap cCAP va s else ok s

/-- PUT (R246): checked at issue and held; the source is read at transmission. -/
def execPut (d r n : BitVec 6) (s : State) : Host.Outcome State Fault Refusal :=
  let regs := [d, r, n, 60]
  if s.anyBusy regs then stall s
  else
    let cd := s.g d
    let cs := s.g r
    let cc := s.g 60
    let len := (s.g n).val.toNat
    let finish := fun s => checked cc cc.val 8 [pLD, pST] 8 s fun s => noHostFifo cc.val 8 s fun s =>
      if s.taintOf regs != 0 then stall s
      else State.hold s (.put ⟨cd.val.toNat, cs.val.toNat, len, cc.val.toNat⟩) retire
    if 65536 < len then trap cSENDFAIL 0 s
    else if len = 0 then finish s
    else checked cd cd.val len [pST] 1 s fun s => checked cs cs.val len [pLD] 1 s fun s =>
      noHostFifo cd.val len s fun s => noHostFifo cs.val len s finish

/-- The checks of GET on the place it reads (R247, R406, R414). -/
def getChecks (c : Reg) (s : State) (ok : Nat → Place → State → Host.Outcome State Fault Refusal) :
    Host.Outcome State Fault Refusal :=
  located c.val .read s fun a p =>
    match p with
    | .fifo _ => trap cCAP c.val s
    | p => hostReachable p c.val s fun s => unpoisoned (addrRange a 8) c.val s (ok a p)

/-- The read of GET (R247): a release point, and the request to the home. -/
def getIssue (kind : PendKind) (d : BitVec 6) (c : Reg) (a : Nat) (p : Place) (s : State) :
    Host.Outcome State Fault Refusal :=
  retire (s.releasePoint.issueLoad (gDest d)
    { op := 0, gen := 0, kind, va := c.val, addrs := addrRange a 8, fin := .int 8 false, place := p } c.taint)

/-- GET (R247). -/
def execGet (d a : BitVec 6) (s : State) : Host.Outcome State Fault Refusal :=
  if s.busyG a then stall s
  else
    let c := s.g a
    checked c c.val 8 [pLD] 8 s fun s => getChecks c s (getIssue .get d c)

/-- The wait of FLUSHRD (R248): a release point, then every operation of the context posted to the module performed. -/
def flushWait (p : Place) (s : State) (done : State → Host.Outcome State Fault Refusal) : Host.Outcome State Fault Refusal :=
  let m := State.placeMod s.cur p
  match s.task.flushrd with
  | none =>
    let s := s.release s.cur s.ctx
    stall ((s.mapTask fun t => { t with flushrd := some (State.newFlush t [m] t.opNo) }).askFlush s.cur s.ctx [m])
  | some f => if f.mods.isEmpty then done (s.mapTask fun t => { t with flushrd := none }) else stall s

/-- FLUSHRD (R248): once its checks are made, a release point; the context stalls until the module's posted operations are
performed, then the reading form reads as GET does. -/
def execFlushrd (d a : BitVec 6) (s : State) : Host.Outcome State Fault Refusal :=
  noTxn s fun s =>
    if s.busyG a then stall s
    else
      let c := s.g a
      if d = 0 then
        if !capHolds (s.supAt s.cur) c [pLD] then trap cCAP c.val s
        else if c.taint != 0 then stall s
        else located c.val .read s fun _ p => flushWait p s retire
      else checked c c.val 8 [pLD] 8 s fun s =>
        if c.taint != 0 then stall s
        else getChecks c s fun x p s => flushWait p s (getIssue .flushrd d c x p)

namespace State

/-- The message of handler `h` that WAITM takes (R249): the oldest of the highest class holding one. -/
def waitmPick (q : List QEntry) (h : Nat) : Option QEntry :=
  [3, 2, 1, 0].findSome? fun c => q.find? fun e => e.msg.handler == h && e.cls == c

/-- The issuing task takes a message (R249): its words and capability go to gd to gd+4, its payload to the window;
a SENDR message's ordering comes with it (R143). -/
def takeMsg (s : State) (d : Nat) (e : QEntry) : State :=
  let m := e.msg
  let s := s.mapNi s.cur fun ni => { ni with queue := ni.queue.erase e }
  let s := s.mapTask fun t => { t with taken := t.taken ++ [e], window := m.payload, park := none }
  let s := [(0, m.a1), (1, m.a2), (2, m.a3), (3, m.a4)].foldl (fun s (i, v) => s.writeG (d + i) { val := v }) s
  let s := s.writeG (d + 4) (if m.cap.tag then capReg m.cap else {})
  if m.release then s.dropCopies s.cur else s

end State

/-- WAITM (R249). A message in a poisoned entry is discarded where it is found (R406). -/
def execWaitm (d a : BitVec 6) (s : State) : Host.Outcome State Fault Refusal :=
  noTxn s fun s => operands [a] s fun s =>
    let h := ((s.g a).val.extractLsb' 0 12).toNat
    match State.waitmPick s.here.ni.queue h with
    | some e =>
      if e.poisoned then stall (s.discardEntry s.cur e) else retire (s.takeMsg d.toNat e)
    | none => parkHere (.waitm d.toNat h) s

/-- RECVM (R250): plain stores of the open window. -/
def execRecvm (d a b : BitVec 6) (s : State) : Host.Outcome State Fault Refusal :=
  operands [a, b] s fun s =>
    let w := s.task.window
    let k := min (s.g b).val.toNat w.length
    let done := fun (s : State) => retire (s.writeInt d (BitVec.ofNat 64 k) 0)
    if k = 0 then done s
    else checked (s.g a) (s.g a).val k [pST] 1 s fun s =>
      rollback s (storeSpan (s.g a).val (w.take k) 0 false s done)

/-- PEEKM (R250): the doubleword at a window offset, zero beyond the payload, with ga's taint. -/
def execPeekm (d a : BitVec 6) (s : State) : Host.Outcome State Fault Refusal :=
  if s.busyG a then stall s
  else
    let o := (s.g a).val.toNat
    if o % 8 ≠ 0 then trap cALIGN (s.g a).val s
    else
      let v := if 256 ≤ o then 0 else ofBytes ((s.task.window.drop o).take 8)
      retire (s.writeInt d (BitVec.ofNat 64 v) (s.g a).taint)

end Sys2Proof.Machine
end

