-- ==== Sys2Proof/Machine/Mailbox.lean ====
section
/-!
DEFINITION. Priority mailboxes (R261 to R263).
-/
namespace Sys2Proof.Machine

/-- The modes of an instance (R261): 0 KEEP, 1 RANK, 2 ARRIVAL. -/
def mailArrival (b : Mailbox) : Bool := b.mode == 2

/-- PMCFG (R261): the configuration's status, and the instance set up afresh on OK. -/
def pmStatus (ni : NI) (inst : Nat) (w : Word) : Nat :=
  let depth := w.toNat % 512
  let others := (ni.mail.filter fun (i, _) => i != inst).foldl (fun n (_, b) => n + b.depth) 0
  if w.toNat / 2 ^ 12 ≠ 0 || w.extractLsb' 9 2 == 3 || 256 < depth then 2
  else if 256 < others + depth then 1
  else 0

/-- PMCFG (R261). -/
def execPmcfg (d a b : BitVec 6) (s : State) : Host.Outcome State Fault Refusal :=
  operands [a, b] s fun s =>
    let inst := (s.g a).val.toNat % 64
    let w := (s.g b).val
    let st := pmStatus s.here.ni inst w
    let depth := w.toNat % 512
    let box : Mailbox := { depth, mode := (w.extractLsb' 9 2).toNat, notice := w.getLsbD 11 }
    let s := if st ≠ 0 then s else s.mapNi s.cur fun ni =>
      { ni with mail := if depth = 0 then Sparse.erase ni.mail inst else Sparse.set ni.mail inst box }
    retire (s.writeInt d (BitVec.ofNat 64 st) 0)

/-- PMPOST (R262): the target and the notice descriptors are resolved, then the post is counted or posted as an AMO
without return is (R130) and goes to its instance. -/
def execPmpost (a : BitVec 6) (s : State) : Host.Outcome State Fault Refusal :=
  let d := (s.g a).val
  let nd := (s.g 58).val
  let regs := [a, 56, 57, 58, 59] ++ absRegs d ++ absRegs nd
  if s.anyBusy regs then stall s
  else if d.extractLsb' 22 6 != 0 then trap cSENDFAIL 0 s
  else resolved d s fun k team s => resolved nd s fun nk nteam s =>
    if s.taintOf regs != 0 || s.counterFull (.share k) then stall s
    else
      let own := modOf k == modOf s.cur
      let p : MailPost :=
        { core := s.cur, ctx := s.ctx, op := s.task.opNo, counted := own, dst := k, team, pos := s.posOf team k
          inst := (d.extractLsb' 16 6).toNat
          key := (s.g 56).val.extractLsb' 32 32, tie := (s.g 56).val.extractLsb' 0 32, value := (s.g 57).val
          notice := s.posed { noMsg with dst := nk, team := nteam, handler := dHandler nd, cls := dClass nd }
          garg := (s.g 59).val }
      let s := s.countOp (modOf k)
      retire ((s.addOp { op := 0, gen := 0, kind := .post, place := .share k, counted := own, mail := some p }).kick s.cur s.ctx)

/-- R262: entry `x` ranks above entry `y`. -/
def ranksAbove (x y : MailPost) : Bool :=
  y.key.toNat < x.key.toNat
    || (x.key == y.key && (x.tie.toNat < y.tie.toNat || (x.tie == y.tie && x.value.toNat < y.value.toNat)))

/-- The highest-ranked entry of a list. -/
def mailBest (es : List MailEntry) : Option MailEntry :=
  es.foldl (fun b e => match b with
    | none => some e
    | some b => if ranksAbove e.post b.post then some e else some b) none

/-- The lowest-ranked entry. -/
def mailWorst (es : List MailEntry) : Option MailEntry :=
  es.foldl (fun b e => match b with
    | none => some e
    | some b => if ranksAbove b.post e.post then some e else some b) none

/-- A notice message (R262): causes 1 DROPPED, 2 DISPLACED, 3 LATE, 4 NOINST. -/
def State.mailNotice (s : State) (k inst : Nat) (p : MailPost) (cause : Nat) : State :=
  s.niOwn k { p.notice with
    a1 := p.value, a2 := p.key ++ p.tie, a3 := BitVec.ofNat 64 (inst * 256 + cause), a4 := p.garg }

/-- The outcome of a post at its instance (R262): the instance, and the notice owed now. -/
def mailInsert (b : Mailbox) (p : MailPost) : Mailbox × Option (MailPost × Nat) :=
  let lost := fun (b : Mailbox) (q : MailPost) (cause : Nat) =>
    if !b.notice then (b, none)
    else if b.mode = 1 && cause ≠ 3 then ({ b with deferred := b.deferred ++ [(q, cause)] }, none)
    else (b, some (q, cause))
  if b.entries.any fun e => e.post.key == p.key && e.post.tie == p.tie && e.post.value == p.value then (b, none)
  else if b.closed then lost b p 3
  else if b.entries.length < b.depth then ({ b with entries := b.entries ++ [⟨p⟩] }, none)
  else if mailArrival b then lost b p 1
  else match mailWorst b.entries with
    | none => lost b p 1
    | some w =>
      if ranksAbove p w.post then lost { b with entries := b.entries.erase w ++ [⟨p⟩] } w.post 2
      else lost b p 1

namespace State

/-- The team and team coordinates that a post names (R20): those of its descriptor, or, for an absolute one, of the core it
reaches. -/
def postTeam (s : State) (p : MailPost) : Option (Nat × Team × Nat × Nat) :=
  match p.team with
  | some (g, i) => (s.teams.find? fun (_, t) => t.grid == g && t.idx == i).map fun (u, t) => (u, t, p.pos.1, p.pos.2)
  | none => match (s.core p.dst).team, s.teamAt p.dst with
    | some u, some t => some (u, t, teamPos t p.dst)
    | _, _ => none

/-- The mailboxes that a post is for: those of its team's core, where the team stands now or in its swap area (R50). A
team that has ended, and one that was never placed, has none. -/
def mailAt (s : State) (p : MailPost) : Sparse Mailbox :=
  match s.postTeam p with
  | none => []
  | some (_, t, x, y) =>
    match t.saved with
    | some sv => (Sparse.get {} sv (y * t.w + x) : SavedCore).mail
    | none => if t.state = .ended ∨ t.state = .waiting then [] else (s.core (teamCore t x y)).ni.mail

def putMail (s : State) (p : MailPost) (inst : Nat) (b : Mailbox) : State :=
  match s.postTeam p with
  | none => s
  | some (uid, t, x, y) =>
    match t.saved with
    | some sv =>
      let c : SavedCore := Sparse.get {} sv (y * t.w + x)
      s.mapTeam uid fun t => { t with saved := some (Sparse.set sv (y * t.w + x) { c with mail := Sparse.set c.mail inst b }) }
    | none => s.mapNi (teamCore t x y) fun ni => { ni with mail := Sparse.set ni.mail inst b }

/-- A posted or counted operation of a context is performed at a core's NI: the step `e` is answered, and a counted one
acknowledged (R130). -/
def performed (s : State) (k x op : Nat) (counted : Bool) (e : Event) : State :=
  match s.findOp k x op with
  | none => if counted then s.answer e (.storeAck k x) else s.ack e
  | some p =>
    let s := s.dropOp k x op
    if counted then (s.answer e (.storeAck k x)).kick k x else (((s.afterPosted k p).ack e).settled k x).kick k x

end State

/-- MAILBOX_POST (R262): a post reaches its instance, that of its team's core wherever the team stands (R20). An instance
that does not exist is NOINST. -/
def execMailboxPost (p : MailPost) (s : State) : Host.Outcome State Fault Refusal :=
  let e := Event.mailboxPost p
  unlessCopied p.dst e s <|
    let s := if p.tie = BitVec.allOnes 32 then s
      else match Sparse.find (s.mailAt p) p.inst with
        | none => s.mailNotice p.dst p.inst p 4
        | some b =>
          let (b, n) := mailInsert b p
          let s := s.putMail p p.inst b
          match n with
          | none => s
          | some (q, cause) => s.mailNotice p.dst p.inst q cause
    .next (s.performed p.core p.ctx p.op p.counted e)

/-- PMDRAIN (R263): the highest-ranked entry, or in ARRIVAL mode the earliest, leaves; the first drain closes a
window and sends its deferred notices, and one that leaves the instance empty reopens it. -/
def execPmdrain (d a b : BitVec 6) (s : State) : Host.Outcome State Fault Refusal :=
  operands [a] s fun s =>
    let inst := (s.g a).val.toNat % 64
    match Sparse.find s.here.ni.mail inst with
    | none => retire ((s.writeInt d 0 0).writeInt b (BitVec.allOnes 64) 0)
    | some box =>
      let window := box.mode = 1 || box.mode = 2
      let s := if window && !box.closed then
        box.deferred.foldl (fun s (q, cause) => s.mailNotice s.cur inst q cause) s else s
      let out := if mailArrival box then box.entries.head? else mailBest box.entries
      let left := match out with
        | some e => box.entries.erase e
        | none => []
      let box := { box with entries := left, closed := window && !left.isEmpty, deferred := [] }
      let s := s.mapNi s.cur fun ni => { ni with mail := Sparse.set ni.mail inst box }
      match out with
      | some e => retire ((s.writeInt d e.post.value 0).writeInt b (e.post.key ++ e.post.tie) 0)
      | none => retire ((s.writeInt d 0 0).writeInt b (BitVec.allOnes 64) 0)

end Sys2Proof.Machine
end

