-- ==== Sys2Proof/Machine/Walk.lean ====
section
/-!
DEFINITION. Translation faults: holding an agent under a handle and the message to FLTDEST (R42, R388, R439).
-/
namespace Sys2Proof.Machine

/-- Codes of the fault word's ACCESS field (R388). -/
def accCode : Access → Nat
  | .read => 0
  | .write => 1
  | .amo => 2
  | .fetch => 3
  | .walker => 4

/-- The site and slice of the hod that runs a request (R253): the home slice of the first byte it names. Where that
byte has no home yet, a COPY node's is chosen by R115, and a core's is the core's own slice (log 25). -/
def State.hodHome (s : State) (r : HodReq) : Nat × Nat :=
  let mine := if r.node.isSome then s.outsideHome r.part r.dst else (siteOf r.core, clusterOf r.core)
  if r.hod.isSome then r.hod.getD (0, 0)
  else match s.findWindow r.part r.dst with
  | some w => (match w.kind with
    | .share c => (siteOf c, clusterOf c)
    | _ => mine)
  | none =>
    match s.walk r.part r.sup r.dst .read with
    | .fault _ => mine
    | .leaf _ leaf base _ =>
      match s.leafXlate (siteOf r.core) r.part leaf base r.dst with
      | .ok _ (.home st sl) => (st, sl)
      | _ => mine

/-- The owner of a bag's part (R256). -/
def bagOwner (b : BagState) : Nat := (b.owners.headD (0, [])).1

/-- The site that holds an agent's fault, and its partition. -/
def State.agentPlace (s : State) : Agent → Nat × Nat
  | .ctx k _ => (siteOf k, s.partAt k)
  | .ni k _ => (siteOf k, s.partAt k)
  | .hod r => ((s.hodHome r).1, r.part)
  | .bag b => (match b.owners with
    | [] => (s.hodHome b.req).1
    | p :: _ => agentSite p.1, b.req.part)
  | .node st _ => (st, (s.partOfSite st).getD 0)

/-- The fields of a fault word that name its first waiter (R388). COL has five bits and takes the low ones of a hod's slice
(DESIGN CHOICE, log 110). -/
def State.waiterField (s : State) : Agent → Nat
  | .ctx k _ => siteOf k % 24 * 2 ^ 27 + rowOf k * 2 ^ 22 + colOf k * 2 ^ 17
  | .ni k _ => siteOf k % 24 * 2 ^ 27 + rowOf k * 2 ^ 22 + colOf k * 2 ^ 17
  | .hod r => (s.hodHome r).1 % 24 * 2 ^ 27 + (s.hodHome r).2 % 32 * 2 ^ 17 + 2 ^ 16
  | .bag b =>
    let (st, sl) := match b.owners with
      | [] => s.hodHome b.req
      | p :: _ => (agentSite p.1, p.1 % 64)
    st % 24 * 2 ^ 27 + sl % 32 * 2 ^ 17 + 2 ^ 16
  | .node st _ => st % 24 * 2 ^ 27 + 2 ^ 15

namespace State

/-- The transmitted effect of a context is gone (R36): the next one follows. -/
def sent (s : State) (k x : Nat) : State :=
  let s := s.mapCtx k x fun t =>
    if t.divert.head? == nextOut t then { t with divert := t.divert.drop 1 } else { t with send := t.send.eraseP (·.committed) }
  if (nextOut (s.ctxAt k x)).isSome then s.pushOnce (.niTransmit k x) else (s.quietOn k).settled k x

/-- Whether the effect that a context's NI sends next is of the task that holds the context. -/
def sendsOwn (t : Ctx) : Bool := t.occupied && (nextOut t).any (!·.ended)

/-- An agent is held (R42, R439). A hod's request or part is held by its entry in the handle alone. A task whose committed PUT
faults is held with it. -/
def holdAgent (s : State) (a : Agent) (h : Nat) : State :=
  match a with
  | .ctx k x => s.mapCtx k x fun t => { t with hold := some h, blockDesc := none }
  | .ni k x => s.mapCtx k x fun t => { t with sendHold := some h, hold := if sendsOwn t then some (t.hold.getD h) else t.hold }
  | .hod _ => s
  | .bag _ => s
  | .node st n => s.mapSite st fun t => { t with nodes := t.nodes.map fun (j, d) =>
      (j, if j = n then { d with hold := some h } else d) }

/-- The open handle of an address's page at a site (R388). -/
def openHandle (s : State) (st part va : Nat) : Option (Nat × FaultRec) :=
  (s.site st).faults.find? fun (_, f) => f.part == part && f.base ≤ va && va < f.base + f.size

/-- Whether an address's page has an open handle (R388): a miss joins it. -/
def faultOpen (s : State) (st part va : Nat) : Bool := (s.openHandle st part va).isSome

/-- Whether an agent waits already: a context that is held or that has ended, or a node that is held. -/
def agentHeld (s : State) : Agent → Bool
  | .ctx k x => (s.ctxAt k x).hold.isSome || !(s.ctxAt k x).occupied
  | .ni k x => (s.ctxAt k x).sendHold.isSome
  | .hod _ => false
  | .bag _ => false
  | .node st n => (Sparse.find (s.site st).nodes n).all fun d => d.hold.isSome

/-- A faulting translation holds its agent, and `more` that have faulted in the same walk (R388): they join the open handle of
the page, or open one and tell the runtime how many wait; with no FLTDEST that resolves, the fault ends at once as by FAIL. A
handle is SITE, walker and generation, below the module's number. -/
def openFault (s : State) (a : Agent) (va cause : Nat) (acc : Access) (more : List Agent := []) (walker : Nat := 0) : State :=
  let (st, part) := s.agentPlace a
  let site := s.site st
  let all := a :: more
  match s.openHandle st part va with
  | some (h, f) =>
    all.foldl (fun s a => s.holdAgent a (st / 24 * 2 ^ 32 + h))
      (s.mapSite st fun t => { t with faults := Sparse.set t.faults h { f with waiters := f.waiters ++ all } })
  | none =>
    let h := st % 24 * 2 ^ 27 + walker % 64 * 2 ^ 21 + site.faultGen % 2 ^ 21
    let full := st / 24 * 2 ^ 32 + h
    let (base, size) := s.pageOf part va
    let s := s.mapSite st fun t =>
      { t with faults := Sparse.set t.faults h { va, part, base, size, cause, acc, waiters := all }
               faultGen := (t.faultGen + 1) % 2 ^ 21 }
    let s := all.foldl (fun s a => s.holdAgent a full) s
    let d := (s.part part).fltdest
    let word := min 256 all.length * 2 ^ 32 + s.waiterField a + accCode acc * 2 ^ 8 + cause
    let lost := (s.resolveAbs st d).isNone
    let s := s.ctlSend st d (BitVec.ofNat 64 va) (BitVec.ofNat 64 word) (BitVec.ofNat 64 h) 0 []
    if lost then s.push (.fltdoneFail full) else s

end State

end Sys2Proof.Machine
end

