-- ==== Sys2Proof/Machine/Hod.lean ====
section
/-!
DEFINITION. Hod requests: HCOPY, HFILL, HGATH and HSCAT at issue and at the hods (R253 to R257).
-/
namespace Sys2Proof.Machine

/-- Bytes of one hod request's largest range (R254). -/
def hodLimit : Nat := 2 ^ 36

/-- A hod request with its completion message (R253) and nothing else set. -/
def State.newHodReq (s : State) (kind : HodKind) (comp : Message) : HodReq :=
  { kind, core := s.cur, part := s.partAt s.cur, sup := s.supAt s.cur, dst := 0, src := 0, len := 0, pattern := 0,
    tags := false, inTeam := false, table := 0, tableBase := 0, tableTop := 0, etype := 9, rlen := 0, idxs := [],
    weights := [], valid := 0, dropped := 0, comp, node := none, hod := none }

/-- The completion message of a hod request (R253), without its g1. -/
def State.compMsg (s : State) (k : Nat) (team : Option (Nat × Nat)) : Message :=
  let d := (s.g 56).val
  s.posed { noMsg with dst := k, team, handler := dHandler d, cls := dClass d, release := true
                       a2 := (s.g 57).val, a3 := (s.g 58).val, a4 := (s.g 59).val }

/-- The start every hod request shares (R253): its registers readable, its completion descriptor resolved. `ok` gets
the registers to wait for. -/
def hodIssue (kind : HodKind) (rs : List (BitVec 6)) (s : State)
    (ok : HodReq → List (BitVec 6) → State → Host.Outcome State Fault Refusal) : Host.Outcome State Fault Refusal :=
  let regs := rs ++ [56, 57, 58, 59] ++ absRegs (s.g 56).val
  if s.anyBusy regs then stall s
  else resolved (s.g 56).val s fun k team s => ok (s.newHodReq kind (s.compMsg k team)) regs s

/-- A hod request's registers are bound, and it is held (R36, R253). -/
def hodHold (regs : List (BitVec 6)) (r : HodReq) (s : State) : Host.Outcome State Fault Refusal :=
  if s.taintOf regs != 0 then stall s else State.hold s (.hod r) retire

/-- A range of a hod request: its capability and its kind of memory (R253). -/
def hodRange (c : Reg) (n : Nat) (perms : List Nat) (s : State) (ok : State → Host.Outcome State Fault Refusal) :
    Host.Outcome State Fault Refusal :=
  checked c c.val n perms 1 s fun s => noHostFifo c.val n s ok

/-- HCOPY (R254): the extent of ga from its cursor. -/
def execHcopy (d a : BitVec 6) (s : State) : Host.Outcome State Fault Refusal :=
  hodIssue .copy [d, a] s fun r regs s =>
    let cd := s.g d
    let ca := s.g a
    let n := (capBounds ca.desc ca.val).2 - ca.val.toNat
    if hodLimit < n then trap cSENDFAIL 0 s
    else hodRange cd n [pST] s fun s => hodRange ca n [pLD] s fun s =>
      hodHold regs { r with
        dst := cd.val.toNat, src := ca.val.toNat, len := n, tags := hasPerm ca.desc pLDC && hasPerm cd.desc pSTC
        inTeam := s.inTeamRegions s.cur cd.val.toNat && s.inTeamRegions s.cur (cd.val.toNat + (n - 1)) } s

/-- HFILL (R254). -/
def execHfill (d a b : BitVec 6) (s : State) : Host.Outcome State Fault Refusal :=
  hodIssue .fill [d, a, b] s fun r regs s =>
    let cd := s.g d
    let n := (s.g b).val.toNat
    if hodLimit < n then trap cSENDFAIL 0 s
    else hodRange cd n [pST] s fun s =>
      hodHold regs { r with dst := cd.val.toNat, len := n, pattern := (s.g a).val } s

/-- Fields of a bag header (R255). -/
def bagType (h : Word) : Nat := (h.extractLsb' 56 4).toNat
def bagRlen (h : Word) : Nat := (h.extractLsb' 32 10).toNat
def bagCount (h : Word) : Nat := (h.extractLsb' 0 24).toNat
def bagWeighted (h : Word) : Bool := h.getLsbD 63

/-- R255: a header with no reserved value. -/
def bagOk (scatter : Bool) (h : Word) : Bool :=
  let t := bagType h
  h.extractLsb' 60 3 == 0 && h.extractLsb' 42 14 == 0 && h.extractLsb' 24 8 == 0 && 1 ≤ bagRlen h && bagRlen h ≤ 256
    && (if scatter then t == 9 else 9 ≤ t && t ≤ 11)

/-- Bytes from a bag's cursor to its weights, and to its end (R255). -/
def bagWeightOff (h : Word) : Nat := (8 + 4 * bagCount h + 7) / 8 * 8
def bagSize (h : Word) : Nat :=
  if bagWeighted h then bagWeightOff h + 4 * bagCount h else 8 + 4 * bagCount h

/-- Little-endian 32-bit words of some bytes. -/
def words32 (n : Nat) (bs : List Byte) : List (BitVec 32) :=
  (List.range n).map fun i => BitVec.ofNat 32 (ofBytes ((bs.drop (4 * i)).take 4))

/-- Bytes of a row element (R173). -/
def rowElem (t : Nat) : Nat := if t = 9 then 4 else 2

/-- Whether an index is valid (R255). -/
def rowValid (r : HodReq) (i : BitVec 32) : Bool :=
  let rb := r.rlen * rowElem r.etype
  i != BitVec.allOnes 32 && r.tableBase ≤ r.table + i.toNat * rb && r.table + (i.toNat + 1) * rb ≤ r.tableTop

/-- The virtual address of a row. -/
def rowVa (r : HodReq) (i : Nat) : Nat := r.table + i * (r.rlen * rowElem r.etype)

/-- The valid rows of a bag lie in no FIFO bank and no HOST page, else CAP (R253). -/
def noHostFifoRows (r : HodReq) (s : State) (ok : State → Host.Outcome State Fault Refusal) : Host.Outcome State Fault Refusal :=
  let n := r.rlen * rowElem r.etype
  let bad := fun (i : BitVec 32) => s.hostOrFifo r.part r.sup (n / 4096 + 2) (rowVa r i.toNat) n
  match (r.idxs.filter (rowValid r)).find? bad with
  | some i => trap cCAP (BitVec.ofNat 64 (rowVa r i.toNat)) s
  | none => ok s

/-- The bag of a request (R255): header and extent are checked against the capability, and read at issue. -/
def readBag (scatter : Bool) (c : Reg) (s : State) (ok : Word → List Byte → State → Host.Outcome State Fault Refusal) :
    Host.Outcome State Fault Refusal :=
  checked c c.val 8 [pLD] 8 s fun s => noHostFifo c.val 8 s fun s =>
    if c.taint != 0 then stall s
    else readNow c.val 8 false false s fun _ hb s =>
      let h := BitVec.ofNat 64 (ofBytes hb)
      if !bagOk scatter h then trap cCAP c.val s
      else checked c c.val (bagSize h) [pLD] 8 s fun s => noHostFifo c.val (bagSize h) s fun s =>
        readNow c.val (bagSize h) false false s fun _ bs s => ok h bs s

/-- A request with the bag's positions and its table (R255). -/
def bagReq (r : HodReq) (ct : Reg) (h : Word) (bs : List Byte) : HodReq :=
  let (base, top) := capBounds ct.desc ct.val
  let n := bagCount h
  let r := { r with
    table := ct.val.toNat, tableBase := base, tableTop := top, etype := bagType h, rlen := bagRlen h
    idxs := words32 n (bs.drop 8)
    weights := if bagWeighted h then words32 n (bs.drop (bagWeightOff h)) else List.replicate n 0x3F800000 }
  let valid := (r.idxs.filter (rowValid r)).length
  { r with valid, dropped := n - valid }

/-- HGATH (R255, R256). -/
def hgath (kind : HodKind) (d a b : BitVec 6) (s : State) : Host.Outcome State Fault Refusal :=
  rollback s (hodIssue kind [d, a, b] s fun r regs s =>
    readBag false (s.g b) s fun h bs s =>
      hodRange (s.g d) (4 * bagRlen h) [pST] s fun s =>
        if !capHolds (s.supAt s.cur) (s.g a) [pLD] then trap cCAP (s.g a).val s
        else
          let r := bagReq r (s.g a) h bs
          noHostFifoRows r s (hodHold regs { r with dst := (s.g d).val.toNat, len := 4 * bagRlen h }))

/-- HGATH.sum (R256). -/
def execHgathSum (d a b : BitVec 6) (s : State) : Host.Outcome State Fault Refusal := hgath .gatherSum d a b s
/-- HGATH.mean (R256). -/
def execHgathMean (d a b : BitVec 6) (s : State) : Host.Outcome State Fault Refusal := hgath .gatherMean d a b s

/-- HSCAT (R255, R257): the table is gd, the source rows stand at ga. -/
def execHscat (d a b : BitVec 6) (s : State) : Host.Outcome State Fault Refusal :=
  rollback s (hodIssue .scatter [d, a, b] s fun r regs s =>
    readBag true (s.g b) s fun h bs s =>
      if !capHolds (s.supAt s.cur) (s.g d) [pLD, pST] then trap cCAP (s.g d).val s
      else hodRange (s.g a) (bagCount h * 4 * bagRlen h) [pLD] s fun s =>
        let r := bagReq r (s.g d) h bs
        noHostFifoRows r s (hodHold regs { r with
          dst := (s.g d).val.toNat, src := (s.g a).val.toNat, len := bagCount h * 4 * bagRlen h }))

/-! At the hods. -/

/-- The completion word (R253). -/
def compWord (r : HodReq) (status : Nat) : Word :=
  match r.kind with
  | .copy => BitVec.ofNat 64 status
  | .fill => BitVec.ofNat 64 status
  | _ => BitVec.ofNat 64 (r.valid * 2 ^ 40 + r.dropped * 2 ^ 16 + status)

/-- HOD_COMPLETION (R253): the completion message, or the end of a COPY node (R366). -/
def execHodCompletion (req : HodReq) (word : Word) (s : State) : Host.Outcome State Fault Refusal :=
  match req.node with
  | some (st, h) =>
    .next ((s.mapSite st fun t => { t with nodes := t.nodes.map fun (j, d) =>
      (j, if j = h then { d with loop := word.toNat % 256 } else d) }).push (.nodeComplete st h))
  | none =>
    let (site, slice) := s.hodHome req
    .next (s.hodSend site slice { req.comp with a1 := word })

/-- A translation at a hod for agent `g`, in step `e`, that may fault: a fault ends the step and holds the agent (R388); for a
bank that changes its mode, or a walk that must wait, the step is taken again (R112, R385). -/
def hodXlate (e : Event) (g : Agent) (r : HodReq) (site slice va : Nat) (acc : Access) (s : State)
    (ok : Nat → State → Host.Outcome State Fault Refusal) : Host.Outcome State Fault Refusal :=
  let fault := fun (s : State) (c : Nat) => Host.Outcome.next ((s.endRows (agentHod site slice)).openFault g va c acc)
  let (st, part) := s.agentPlace g
  if s.faultOpen st part va then fault s 0
  else match s.agentXlate r.part r.sup site (site, slice) va acc with
  | (s, .inl a) => ok a s
  | (s, .inr c) => if c = fWAIT then .next (s.again e) else fault s c

/-- A range of a hod, block by block, as storage addresses. -/
def hodAddrs (e : Event) (g : Agent) (r : HodReq) (site slice va n : Nat) (acc : Access) (s : State)
    (ok : List Nat → State → Host.Outcome State Fault Refusal) : Host.Outcome State Fault Refusal :=
  (blockParts (BitVec.ofNat 64 va) n).foldr
    (fun (x, _, len) (k : List Nat → State → Host.Outcome State Fault Refusal) as s =>
      hodXlate e g r site slice x.toNat acc s fun a s => k (as ++ addrRange a len) s) ok [] s

/-- Bytes of the next part of a copy or fill: up to a line of the destination (R406). -/
def hodPart (r : HodReq) : Nat := min r.len (128 - r.dst % 128)

/-- A part of a copy or fill is done, and the rest goes on. -/
def hodRest (r : HodReq) (n : Nat) (s : State) : State :=
  s.push (.hodRequest { r with dst := r.dst + n, src := r.src + n, len := r.len - n })

/-- The tags a part of HCOPY writes (R224, R254). -/
def State.hodTags (s : State) (r : HodReq) (src dst : List Nat) : List (Nat × Bool) :=
  ((List.range dst.length).filter fun i => dst.getD i 0 % 16 == 0 && i + 16 ≤ dst.length).map fun i =>
    let a := src.getD i 0
    let d := s.readWord (a + 8)
    (dst.getD i 0 / 16, a % 16 == 0 && r.tags && s.tags.contains (a / 16) && (hasPerm d pGLOBAL || r.inTeam))

/-- One part of a copy or fill (R254): lines in ascending order (log 13). -/
def hodMove (r : HodReq) (site slice : Nat) (s : State) : Host.Outcome State Fault Refusal :=
  let n := hodPart r
  let e := Event.hodRequest r
  if r.len = 0 then .next (s.push (.hodCompletion r (compWord r 0)))
  else
    let write := fun (src : List Nat) (bytes : List Byte) (s : State) =>
      hodAddrs e (.hod r) r site slice r.dst n .write s fun dst s =>
        if s.tileLocked dst then .next (s.again e)
        else match s.hostHold site dst true e with
        | some s => .next s
        | none => .next (hodRest r n (s.performWrite (dst.zip bytes) (if r.kind = .copy then s.hodTags r src dst else [])))
    match r.kind with
    | .copy => hodAddrs e (.hod r) r site slice r.src n .read s fun src s =>
        if (s.poisonedByte src).isSome then .next ((s.checkRead src).push (.hodCompletion r (compWord r 1)))
        else if s.tileLocked src then .next (s.again e)
        else match s.hostHold site src false e with
        | some s => .next s
        | none => write src (s.readMem src) (s.checkRead src)
    | _ => write [] (fillBytes r.pattern r.dst n) s

/-- The valid positions of a bag: position, index and weight. -/
def bagPositions (r : HodReq) : List (Nat × Nat × Exact) :=
  ((r.idxs.zip r.weights).zipIdx.filter fun ((i, _), _) => rowValid r i).map fun ((i, w), j) =>
    (j, i.toNat, (fmt32.decode w.toNat).1)

/-- R256: distinct indices in order of first appearance, each with the exact sum of its weights. -/
def mergeIndices (ps : List (Nat × Nat × Exact)) : List (Nat × Nat × Exact) :=
  ps.foldl (fun acc (j, i, w) =>
    if acc.any fun (_, i', _) => i' == i then
      acc.map fun (j', i', w') => if i' = i then (j', i', (Exact.sum 0 [w', w]).1) else (j', i', w')
    else acc ++ [(j, i, w)]) []

/-- The owner of a row (R256): the hod of the home slice of its first byte. -/
def State.rowOwner (s : State) (r : HodReq) (a : Nat) : Nat :=
  match s.placeOf (siteOf r.core) a with
  | .home st sl => agentHod st sl
  | .fifo bk => agentHod (bankSite bk) (bk / 16 % 64)
  | _ => agentHod (siteOf r.core) (clusterOf r.core)

/-- The positions grouped by owner, ascending in (module, site, slice) (R256). -/
def groupOwners (ps : List (Nat × (Nat × Nat × Exact))) : List (Nat × List (Nat × Nat × Exact)) :=
  ps.foldl (fun m (o, p) => Sparse.set m o (Sparse.get [] m o ++ [p])) []

/-- The step in which the owner of a bag's part goes on with it, or the requester with a whole gather (R256, R257). -/
def partStep (b : BagState) : Event :=
  if b.req.kind = .scatter then .hscatOwner b else if b.owners.isEmpty then .hgathCombine b else .hgathOwner b

/-- The bag is split among its owners at the requesting NI (R256, R257): every row is translated, and a fault holds
the request. Each owner is sent its part; the NI waits for them all. -/
def hodSplit (r : HodReq) (s : State) : Host.Outcome State Fault Refusal :=
  let site := siteOf r.core
  let slice := clusterOf r.core
  let scatter := r.kind = .scatter
  let ps := if scatter then bagPositions r else mergeIndices (bagPositions r)
  let rb := r.rlen * rowElem r.etype
  let e := Event.hodRequest r
  let rows := ps.foldr
    (fun p (k : List (Nat × (Nat × Nat × Exact)) → State → Host.Outcome State Fault Refusal) acc s =>
      hodAddrs e (.hod r) r site slice (rowVa r p.2.1) rb (if scatter then .write else .read) s fun as s =>
        let own := s.rowOwner r (as.headD 0)
        if scatter then
          hodAddrs e (.hod r) r site slice (r.src + p.1 * 4 * r.rlen) (4 * r.rlen) .read s fun _ s => k (acc ++ [(own, p)]) s
        else k (acc ++ [(own, p)]) s)
    fun acc s =>
      let n := (s.core r.core).ni.bagNext
      let bag : BagState := { req := r, owners := groupOwners acc, partials := [], no := n }
      if bag.owners.isEmpty then .next (s.push (if scatter then .hodCompletion r (compWord r 0) else .hgathCombine bag))
      else
        let s := s.mapNi r.core fun ni => { ni with bags := Sparse.set ni.bags n bag, bagNext := n + 1 }
        .next (bag.owners.foldl (fun s p => s.route (agentNi r.core) p.1 1 0 (partStep { bag with owners := [p] })) s)
  rows [] s

/-- A part of a bag is over at its owner, with a status: what it has pooled goes back to the requesting NI (R256). Rows that a
migration has moved meanwhile are forwarded to their new owner (R120). A whole gather that ends so has failed. -/
def State.endPart (s : State) (b : BagState) (status : Nat) : State :=
  match b.owners with
  | [] => s.push (.hodCompletion b.req (compWord b.req status))
  | (o, _) :: rest =>
    let s := if b.req.kind = .scatter then s.ack (.hscatOwner b) else s
    let s := s.route o (agentNi b.req.core) 1 0 (.hgathCombine { b with owners := [(o, [])], status })
    match rest with
    | [] => s
    | p :: _ => s.route o p.1 1 0 (partStep { b with owners := rest, pool := none })

/-- HOD_REQUEST (R253). -/
def execHodRequest (req : HodReq) (s : State) : Host.Outcome State Fault Refusal :=
  let (site, slice) := s.hodHome req
  match req.kind with
  | .copy => hodMove req site slice s
  | .fill => hodMove req site slice s
  | _ => hodSplit req s

/-- A row read (R163) in step `e`: the hod samples the row's stamps, reads it, and compares them; a row that has changed is
sampled and read again in a later cycle. -/
def wholeRow (o : Nat) (as : List Nat) (e : Event) (s : State) (ok : State → Host.Outcome State Fault Refusal) :
    Host.Outcome State Fault Refusal :=
  let tiles := s.tilesOf as
  match s.rowSample o tiles with
  | none => .next (s.pushAll [.rowRead o tiles, e])
  | some r =>
    if s.rowStale r then .next ((s.again (.rowRead o tiles)).again e)
    else match s.hostHold (agentSite o) as false e with
    | some s => .next s
    | none => ok (s.endRow o tiles)

/-- The elements of a row as exact values. -/
def rowVals (t n : Nat) (bs : List Byte) : List Exact :=
  let f := (typeFmt t).getD fmt32
  let w := rowElem t
  (List.range n).map fun i => (f.decode (ofBytes ((bs.drop (w * i)).take w))).1

/-- Round32 of a value, as a binary32 code. -/
def round32 (v : Exact) : BitVec 32 := BitVec.ofNat 32 (roundPlain fmt32 v)
def val32 (c : BitVec 32) : Exact := (fmt32.decode c.toNat).1

/-- R256: P + Round32(W · row), rounded, element by element. -/
def addScaled (p : List (BitVec 32)) (w : Exact) (row : List Exact) : List (BitVec 32) :=
  (p.zip row).map fun (c, x) => round32 (Exact.sum 0 [val32 c, val32 (round32 (Exact.mul w x).1)]).1

/-- HGATH_OWNER (R256): the owner of a part pools its next row into its partial row, which is whole after the last. -/
def execHgathOwner (bag : BagState) (s : State) : Host.Outcome State Fault Refusal :=
  let r := bag.req
  match bag.owners with
  | [] => .next s
  | (_, []) :: _ => .next (s.endPart bag 0)
  | (o, p :: ps) :: rest =>
    let e := Event.hgathOwner bag
    hodAddrs e (.bag bag) r (agentSite o) (o % 64) (rowVa r p.2.1) (r.rlen * rowElem r.etype) .read s fun as s =>
      wholeRow o as e s fun s =>
        if (s.poisonedByte as).isSome then .next ((s.checkRead as).endPart bag 1)
        else
          let s := s.checkRead as
          let pool := addScaled (bag.pool.getD (List.replicate r.rlen 0)) p.2.2 (rowVals r.etype r.rlen (s.readMem as))
          .next (s.push (.hgathOwner { bag with owners := (o, ps) :: rest, pool := some pool }))

/-- The sum of the partial rows in owner order, divided for a mean (R256). -/
def bagRow (bag : BagState) : List (BitVec 32) :=
  let r := bag.req
  let sums := match bag.partials.map (·.2) with
    | [] => List.replicate r.rlen (0 : BitVec 32)
    | p :: ps => ps.foldl (fun acc q => (acc.zip q).map fun (a, b) => round32 (Exact.sum 0 [val32 a, val32 b]).1) p
  if r.kind = .gatherMean && r.valid ≠ 0 then sums.map fun c => round32 (Exact.div (val32 c) (.ofInt r.valid)).1 else sums

/-- A bag with one more part back (R256): its partial row takes its place in owner order. -/
def bagBack (bag part : BagState) : BagState :=
  let o := bagOwner part
  let row := part.pool.getD (List.replicate bag.req.rlen 0)
  { bag with
    owners := bag.owners.eraseP (·.1 == o), status := max bag.status part.status
    partials := bag.partials.takeWhile (·.1 ≤ o) ++ (o, row) :: bag.partials.dropWhile (·.1 ≤ o) }

/-- HGATH_COMBINE (R256, R257): a part comes back to the requesting NI. When all have, a scatter is finished; the partial rows
of a gather are added in owner order, divided for a mean, and written. -/
def execHgathCombine (bag : BagState) (s : State) : Host.Outcome State Fault Refusal :=
  let r := bag.req
  match bag.owners with
  | _ :: _ =>
    match Sparse.find (s.core r.core).ni.bags bag.no with
    | none => .next s
    | some whole =>
      let whole := bagBack whole bag
      if !whole.owners.isEmpty then .next (s.mapNi r.core fun ni => { ni with bags := Sparse.set ni.bags bag.no whole })
      else
        let s := s.mapNi r.core fun ni => { ni with bags := Sparse.erase ni.bags bag.no }
        .next (s.push (if r.kind = .scatter || whole.status ≠ 0 then .hodCompletion r (compWord r whole.status)
          else .hgathCombine whole))
  | [] =>
    let (site, slice) := s.hodHome r
    let e := Event.hgathCombine bag
    hodAddrs e (.bag bag) r site slice r.dst (4 * r.rlen) .write s fun as s =>
      if s.tileLocked as then .next (s.again e)
      else match s.hostHold site as true e with
      | some s => .next s
      | none =>
        let s := s.performWrite (as.zip ((bagRow bag).flatMap fun c => bytesOf 4 c.toNat)) []
        .next (s.push (.hodCompletion r (compWord r 0)))

/-- HSCAT_OWNER (R257): the owner of a part applies its next position as one indivisible write of the row, its
part in the sequence of its source (R251, R252). -/
def execHscatOwner (bag : BagState) (s : State) : Host.Outcome State Fault Refusal :=
  let r := bag.req
  let e := Event.hscatOwner bag
  match bag.owners with
  | [] => .next (s.ack e)
  | (_, []) :: _ => .next (s.endPart bag 0)
  | (o, p :: ps) :: rest =>
    let site := agentSite o
    let slice := o % 64
    let rb := 4 * r.rlen
    hodAddrs e (.bag bag) r site slice (rowVa r p.2.1) rb .write s fun as s =>
      if s.heldBack (s.rowOwner r (as.headD 0)) e then .next s
      else hodAddrs e (.bag bag) r site slice (r.src + p.1 * rb) rb .read s fun src s =>
        if s.tileLocked (as ++ src) then .next (s.again e)
        else if (s.poisonedByte (as ++ src)).isSome then .next ((s.checkRead (as ++ src)).endPart bag 1)
        else match s.hostHold site src false e with
        | some s => .next s
        | none => match s.hostHold site as true e with
          | some s => .next s
          | none =>
            let s := s.checkRead (as ++ src)
            let row := words32 r.rlen (s.readMem as)
            let out := addScaled row p.2.2 (rowVals 9 r.rlen (s.readMem src))
            let s := s.performWrite (as.zip (out.flatMap fun c => bytesOf 4 c.toNat)) []
            let next := Event.hscatOwner { bag with owners := (o, ps) :: rest }
            .next ((s.restep e next).push next)

end Sys2Proof.Machine
end

