-- ==== Sys2Proof/Machine/Pallet.lean ====
section
/-!
DEFINITION. Pallets, stealing and merge-path search (R258 to R260). A pallet's list runs from its top to its bottom.
-/
namespace Sys2Proof.Machine

/-- Whether DPUSH and DSPLIT see the pallet full (R258). -/
def palletFull (ni : NI) : Bool := 64 ≤ ni.pallet.length + ni.places

/-- A range as a register value (R258): hi :: lo. -/
def rangeWord (e : PalletEntry) : Word := BitVec.ofNat 64 (e.hi * 2 ^ 32 + e.lo)

/-- DPUSH (R258). An empty range gives 2 also where the pallet is full (DESIGN CHOICE, log 104). -/
def execDpush (d a b : BitVec 6) (s : State) : Host.Outcome State Fault Refusal :=
  operands [a, b] s fun s =>
    let w := (s.g a).val
    let e : PalletEntry :=
      ⟨(w.extractLsb' 0 32).toNat, (w.extractLsb' 32 32).toNat, ((s.g b).val.extractLsb' 0 32).toNat⟩
    if e.hi ≤ e.lo then retire (s.writeInt d 2 0)
    else if palletFull s.here.ni then retire (s.writeInt d 0 0)
    else retire ((s.mapNi s.cur fun ni => { ni with pallet := ni.pallet ++ [e] }).writeInt d 1 0)

/-- DPOP (R258): ga takes the tag, then gd the range. -/
def execDpop (d a : BitVec 6) (s : State) : Host.Outcome State Fault Refusal :=
  match s.here.ni.pallet.getLast? with
  | none => retire ((s.writeInt a 0 0).writeInt d 0 0)
  | some e =>
    let s := s.mapNi s.cur fun ni => { ni with pallet := ni.pallet.dropLast }
    retire ((s.writeInt a (BitVec.ofNat 64 e.tag) 0).writeInt d (rangeWord e) 0)

/-- DSPLIT (R258). -/
def execDsplit (d a : BitVec 6) (s : State) : Host.Outcome State Fault Refusal :=
  operands [a] s fun s =>
    let k := (s.g a).val.toNat
    match s.here.ni.pallet.getLast? with
    | none => retire (s.writeInt d 0 0)
    | some e =>
      if 1 ≤ k && k < e.hi - e.lo && !palletFull s.here.ni then
        let parts := [{ e with lo := e.lo + k }, { e with hi := e.lo + k }]
        retire ((s.mapNi s.cur fun ni => { ni with pallet := ni.pallet.dropLast ++ parts }).writeInt d 1 0)
      else retire (s.writeInt d 0 0)

/-- DCOUNT (R258). -/
def execDcount (d : BitVec 6) (s : State) : Host.Outcome State Fault Refusal :=
  let p := s.here.ni.pallet
  let total := p.foldl (fun n e => n + (e.hi - e.lo)) 0
  retire (s.writeInt d (BitVec.ofNat 64 (sat32 total * 2 ^ 32 + p.length)) 0)

/-- The cores of a DSTEAL domain (R259), by site, team, ty and tx: 1 cluster, 2 site, 3 grid. -/
def State.stealDomain (s : State) (k dom : Nat) : List Nat :=
  match s.teamAt k with
  | none => []
  | some me =>
    let teams := (s.teams.filter fun (_, t) => t.grid == me.grid && t.state == .placed).map (·.2)
    let sites := (teams.map (·.site)).foldl insertNat []
    sites.flatMap fun st =>
      let here := teams.filter fun t => t.site == st
      ((here.map (·.idx)).foldl insertNat []).flatMap fun i =>
        (here.filter fun t => t.idx == i).flatMap fun t => (State.teamCores t).filter fun c =>
          dom == 3 || (siteOf c == siteOf k && (dom == 2 || clusterOf c == clusterOf k))

/-- The rotating pointer of a domain (R259). -/
def stealPtr (ni : NI) (dom : Nat) : Nat :=
  match dom with
  | 1 => ni.ptrCluster
  | 2 => ni.ptrSite
  | _ => ni.ptrGrid

/-- The pointer set just after the core asked. -/
def State.stealAsk (s : State) (k dom victim : Nat) : State :=
  let n := (s.stealDomain k dom).idxOf victim + 1
  s.mapNi k fun ni => match dom with
    | 1 => { ni with ptrCluster := n }
    | 2 => { ni with ptrSite := n }
    | _ => { ni with ptrGrid := n }

/-- DSTEAL (R259): a place is reserved, the victims are chosen, and the first is asked. -/
def dsteal (dom : Nat) (d : BitVec 6) (s : State) : Host.Outcome State Fault Refusal :=
  let cores := s.stealDomain s.cur dom
  let p := stealPtr s.here.ni dom % max 1 cores.length
  let victims := ((cores.drop p ++ cores.take p).filter (· != s.cur)).take 8
  if (s.imageAt s.cur).steal < dom || palletFull s.here.ni then retire (s.writeInt d 0 0)
  else match victims with
    | [] => retire (s.writeInt d 0 0)
    | v :: rest =>
      let s := (s.mapNi s.cur fun ni => { ni with places := ni.places + 1 }).stealAsk s.cur dom v
      let s := s.mapTask fun t => { t with wait := some (.steal d.toNat dom) }
      .next (s.route (agentNi s.cur) (agentNi v) 1 0 (.stealRequest v s.cur s.ctx rest))

/-- DSTEAL.cluster (R259). -/
def execDstealCluster (d : BitVec 6) (s : State) : Host.Outcome State Fault Refusal := dsteal 1 d s
/-- DSTEAL.site (R259). -/
def execDstealSite (d : BitVec 6) (s : State) : Host.Outcome State Fault Refusal := dsteal 2 d s
/-- DSTEAL.grid (R259). -/
def execDstealGrid (d : BitVec 6) (s : State) : Host.Outcome State Fault Refusal := dsteal 3 d s

/-- STEAL_REQUEST (R259): the victim gives the larger half of its top entry, or the whole of one of length 1; on
another site it answers only while its STRAGGLER flag is set. While the victim's NI is copied to a spare it waits (R408). -/
def execStealRequest (victim thief ctx : Nat) (rest : List Nat) (s : State) : Host.Outcome State Fault Refusal :=
  unlessCopied victim (.stealRequest victim thief ctx rest) s <|
  let ni := (s.core victim).ni
  let same := ((s.teamAt victim).map (·.grid)) == ((s.teamAt thief).map (·.grid)) && (s.teamAt victim).isSome
  let answers := same && (siteOf victim == siteOf thief || !ni.flags.isEmpty)
  let reply := fun (s : State) got => .next (s.route (agentNi victim) (agentNi thief) 1 0 (.stealResponse thief ctx got rest))
  match ni.pallet with
  | [] => reply s none
  | e :: tl =>
    if !answers then reply s none
    else
      let len := e.hi - e.lo
      let mid := e.lo + len / 2
      let keep := if 2 ≤ len then { e with hi := mid } :: tl else tl
      reply (s.mapNi victim fun ni => { ni with pallet := keep }) (some (mid, e.hi, e.tag))

/-- The end of a DSTEAL: its context goes on with gd. -/
def State.stealEnd (s : State) (thief ctx : Nat) (v : Word) : State :=
  match (s.ctxAt thief ctx).wait with
  | some (.steal d _) =>
    s.asCtx thief ctx fun s =>
      ((s.mapTask fun t => { t with wait := none }).writeInt (BitVec.ofNat 6 d) v 0).advance
  | _ => s

/-- STEAL_RESPONSE (R259): the range goes to the thief's bottom, or the next victim is asked. -/
def execStealResponse (thief ctx : Nat) (got : Option (Nat × Nat × Nat)) (rest : List Nat) (s : State) :
    Host.Outcome State Fault Refusal :=
  match got with
  | some (lo, hi, tag) =>
    let s := s.mapNi thief fun ni => { ni with places := ni.places - 1, pallet := ni.pallet ++ [⟨lo, hi, tag⟩] }
    .next (s.stealEnd thief ctx 1)
  | none =>
    match rest, (s.ctxAt thief ctx).wait with
    | v :: vs, some (.steal _ dom) =>
      .next ((s.stealAsk thief dom v).route (agentNi thief) (agentNi v) 1 0 (.stealRequest v thief ctx vs))
    | _, _ => .next ((s.mapNi thief fun ni => { ni with places := ni.places - 1 }).stealEnd thief ctx 0)

/-- The search loop of R260: `rp` reads a row pointer, `fuel` bounds the halvings. -/
def mpathLoop (rp : Nat → State → (Nat → State → Host.Outcome State Fault Refusal) → Host.Outcome State Fault Refusal)
    (rp0 d : Nat) : Nat → Nat → Nat → State → (Nat → State → Host.Outcome State Fault Refusal) →
    Host.Outcome State Fault Refusal
  | 0, lo, _, s, ok => ok lo s
  | fuel + 1, lo, hi, s, ok =>
    if hi ≤ lo then ok lo s
    else
      let mid := (lo + hi) / 2
      rp (mid + 1) s fun x s =>
        if (x : Int) - rp0 ≤ (d : Int) - 1 - mid then mpathLoop rp rp0 d fuel (mid + 1) hi s ok
        else mpathLoop rp rp0 d fuel lo mid s ok

/-- MPATH (R260). Row pointers that do not rise are clipped to [0, m] × [0, nnz]. -/
def execMpath (d a b : BitVec 6) (s : State) : Host.Outcome State Fault Refusal :=
  operands [a, b] s fun s =>
    let c := s.g a
    let w := (s.g b).val
    let m := (w.extractLsb' 32 32).toNat
    checked c c.val (4 * (m + 1)) [pLD] 4 s fun s =>
      let rp := fun (i : Nat) (s : State) (ok : Nat → State → Host.Outcome State Fault Refusal) =>
        readNow (c.val + BitVec.ofNat 64 (4 * i)) 4 false false s fun _ bs s => ok (ofBytes bs) s
      rollback s (rp 0 s fun r0 s => rp m s fun rm s =>
        let nnz := rm - r0
        let dg := min (w.extractLsb' 0 32).toNat (m + nnz)
        mpathLoop rp r0 dg 33 (dg - nnz) (min dg m) s fun lo s =>
          retire (s.writeInt d (BitVec.ofNat 64 ((dg - lo) * 2 ^ 32 + lo)) s.task.momentTaint))

end Sys2Proof.Machine
end

