-- ==== Sys2Proof/Machine/Sync.lean ====
section
/-!
DEFINITION. Sync blocks, barriers, groups and plumb records (R264 to R272).
-/
namespace Sys2Proof.Machine

/-- A team and its number, by the grid number and index it has in the issuing core's partition (R264, R371). -/
def State.teamUid (s : State) (grid idx : Nat) : Option (Nat × Team) :=
  s.teams.find? fun (_, t) => t.part == s.partAt s.cur && t.grid % 2 ^ 32 == grid && t.idx == idx

/-- Fields of a name word (R264). -/
def blkGrid (w : Word) : Nat := (w.extractLsb' 32 32).toNat
def blkTeam (w : Word) : Nat := (w.extractLsb' 16 16).toNat
def blkY (w : Word) : Nat := (w.extractLsb' 11 5).toNat
def blkX (w : Word) : Nat := (w.extractLsb' 6 5).toNat
def blkIdx (w : Word) : Nat := (w.extractLsb' 0 5).toNat

/-- The sync blocks and plumb records of the core a name word names, in its NI or in its team's swap area. -/
def State.syncStore (s : State) (w : Word) : Option (Sparse SyncBlock × Sparse Plumb) :=
  match s.teamUid (blkGrid w) (blkTeam w) with
  | none => none
  | some (_, t) =>
    if w.getLsbD 5 || t.w ≤ blkX w || t.h ≤ blkY w || t.state == .ended then none
    else match t.saved with
      | some sv =>
        let c : SavedCore := Sparse.get {} sv (savedKey t (blkX w) (blkY w))
        some (c.sync, c.plumbs)
      | none =>
        let ni := (s.core (teamCore t (blkX w) (blkY w))).ni
        some (ni.sync, ni.plumbs)

def State.putSyncStore (s : State) (w : Word) (b : Sparse SyncBlock) (p : Sparse Plumb) : State :=
  match s.teamUid (blkGrid w) (blkTeam w) with
  | none => s
  | some (uid, t) =>
    match t.saved with
    | some sv =>
      let key := savedKey t (blkX w) (blkY w)
      let c : SavedCore := Sparse.get {} sv key
      s.mapTeam uid fun t => { t with saved := some (Sparse.set sv key { c with sync := b, plumbs := p }) }
    | none => s.mapNi (teamCore t (blkX w) (blkY w)) fun ni => { ni with sync := b, plumbs := p }

/-- The block a name word names. -/
def State.blockAt (s : State) (w : Word) : Option SyncBlock :=
  (s.syncStore w).bind fun (bs, _) => Sparse.find bs (blkIdx w)

def State.putBlock (s : State) (w : Word) (b : SyncBlock) : State :=
  match s.syncStore w with
  | some (bs, ps) => s.putSyncStore w (Sparse.set bs (blkIdx w) b) ps
  | none => s

/-- The plumb record of a block. -/
def State.plumbAt (s : State) (w : Word) (b : SyncBlock) : Option Plumb :=
  b.plumb.bind fun i => (s.syncStore w).bind fun (_, ps) => Sparse.find ps i

def State.putPlumb (s : State) (w : Word) (i : Nat) (p : Plumb) : State :=
  match s.syncStore w with
  | some (bs, ps) => s.putSyncStore w bs (Sparse.set ps i p)
  | none => s

/-- The owner core of a block, for times and messages; the issuing core while its team is swapped out. -/
def State.blockOwner (s : State) (w : Word) : Nat := (s.syncOwner s.cur w).getD s.cur

/-- A core as a member of groups: grid, team and team coordinate (R53). -/
def State.memberKey (s : State) (k : Nat) : Nat :=
  match s.teamAt k with
  | some t => (t.grid * 2 ^ 16 + t.idx) * 1024 + (teamPos t k).2 * 32 + (teamPos t k).1
  | none => 0

/-- A SYNC capability (R264). -/
def syncCapOk (c : Reg) : Bool := c.tag && capOtype c.desc == 2 && hasPerm c.desc pSYNC

/-- The capability of a block (R264). -/
def syncReg (w : Word) (glob : Bool) : Reg :=
  { val := w, desc := mkDesc (permSet (pSYNC :: (if glob then [pGLOBAL] else []))) 2 0 (w.toNat % 2 ^ 17) (w.toNat % 2 ^ 17)
    tag := true }

/-- The block of a SYNC capability, else CAP (R264). -/
def syncBlock (c : Reg) (s : State) (ok : SyncBlock → State → Host.Outcome State Fault Refusal) :
    Host.Outcome State Fault Refusal :=
  if !syncCapOk c then trap cCAP c.val s
  else match s.blockAt c.val with
    | some b => ok b s
    | none => trap cCAP c.val s

/-- The BSTAT word (R270). -/
def bstatWord (b : SyncBlock) : Word :=
  BitVec.ofNat 64 (b.episode % 2 ^ 24 * 2 ^ 40 + (if b.plumb.isSome then 2 ^ 35 else 0) + (if b.group then 2 ^ 34 else 0)
    + (if b.lastBroken then 2 ^ 33 else 0) + b.arrived % 2 ^ 16 * 2 ^ 16 + b.expected % 2 ^ 16)

/-- The teams of a grid of the issuing core's partition. -/
def State.gridTeams (s : State) (g : Nat) : List Team :=
  (s.teams.filter fun (_, t) => t.part == s.partAt s.cur && t.grid % 2 ^ 32 == g).map (·.2)

/-- Whether any team of the block's grid is frozen (R272). -/
def State.gridFrozen (s : State) (g : Nat) : Bool := (s.gridTeams g).any (·.frozen)

/-- The status of a BARR reaches its context (R267), which may be parked. -/
def State.barrStatus (s : State) (c : Counted) (blk : Word) (st : Nat) : State :=
  let t := s.ctxAt c.core c.ctx
  match t.barr with
  | some b =>
    if t.gen = c.gen ∧ b.op = c.op ∧ b.blk = blk then
      let s := s.mapCtx c.core c.ctx fun t => { t with barr := some { b with status := some st } }
      if t.park.isSome then s.push (.parkResume c.core c.ctx) else s
    else s
  | none => s

/-- An episode ends (R265, R266): statuses go out, continuations are sent, and the next episode opens. -/
def State.endEpisode (s : State) (w : Word) (b : SyncBlock) (broken : Bool) (expected : Nat) : State :=
  let own := s.blockOwner w
  let word := bstatWord { b with lastBroken := broken }
  let s := b.arrivals.foldl (fun s c =>
    let s := match c.cont with
      | some m => s.niOwn own { m with a1 := word }
      | none => s
    s.barrStatus c w (if broken then 1 else 0)) s
  s.putBlock w { b with
    episode := (b.episode + 1) % 2 ^ 24, arrived := 0, expected, lastBroken := broken, arrivals := [], roll := b.members
    openedAt := (s.core own).cycle, frozen := s.gridFrozen (blkGrid w) }

/-- Whether a team stands in a rectangle. -/
def standing (t : Team) : Bool := t.state == .placed || t.state == .replay || t.state == .quiescing

/-- Notices of a site's flag to every core of the grid on that site (R272), each with the owning NI's identity (R214). -/
def State.flagNotices (s : State) (w : Word) (site : Nat) (on : Bool) : State :=
  let own := s.blockOwner w
  let cores := ((s.gridTeams (blkGrid w)).filter fun t => standing t && t.site % 24 == site).flatMap State.teamCores
  cores.foldl (fun s k => (s.takeSeq own).1.route (agentNi own) (agentNi k) 1 0
    (if on then .flagNotice k w.toNat else .clearNotice k w.toNat)) s

/-- The lower median of a list of times (R272). -/
def lowerMedian (ts : List Nat) : Nat := (ts.mergeSort (· ≤ ·)).getD ((ts.length - 1) / 2) 0

/-- A record after an episode that is scored (R272): `site` completed it. -/
def plumbScore (p : Plumb) (site : Nat) : Plumb :=
  let m := lowerMedian (p.times.map (·.2))
  let late := m + p.thresh < Sparse.get 0 p.times site
  let score := fun i =>
    let x := Sparse.get 0 p.scores i
    if i = site then (if late then min 255 (x + 8) else x) else x - 1
  let scores := (List.range 24).map fun i => (i, score i)
  let flagged := (List.range 24).filter fun i =>
    p.t ≤ score i || (p.flagged.contains i && p.t / 2 ≤ score i)
  { p with scores := scores.filter fun (_, x) => x != 0, scored := min (p.scored + 1) (2 ^ 24 - 1), flagged }

/-- The plumb record at completion (R272): arrival times are recorded, scores change unless the grid was frozen. -/
def State.scorePlumb (s : State) (w : Word) (b : SyncBlock) (site : Nat) : State :=
  match b.plumb, s.plumbAt w b with
  | some i, some p =>
    let p0 := { p with times := p.cur, cur := [] }
    let p' := if b.frozen || s.gridFrozen (blkGrid w) then p0 else plumbScore p0 site
    let s := s.putPlumb w i p'
    let s := (p'.flagged.filter fun j => !p.flagged.contains j).foldl (fun s j => s.flagNotices w j true) s
    (p.flagged.filter fun j => !p'.flagged.contains j).foldl (fun s j => s.flagNotices w j false) s
  | _, _ => s

/-- An episode that has become complete ends (R266). -/
def State.completeIf (s : State) (w : Word) (site : Nat) : State :=
  match s.blockAt w with
  | some b =>
    if b.expected ≤ b.arrived && 1 ≤ b.arrived then
      (s.scorePlumb w b site).endEpisode w b false (if b.group then b.members.length else b.expected)
    else s
  | none => s

/-- The name word of a team's block (R264). -/
def blkName (t : Team) (x y i : Nat) : Word :=
  BitVec.ofNat 64 (t.grid % 2 ^ 32 * 2 ^ 32 + t.idx * 2 ^ 16 + y * 2 ^ 11 + x * 2 ^ 6 + i)

/-- The records of a core's blocks that flag a site (R272), by the names of their blocks. -/
def flaggedBy (t : Team) (x y : Nat) (sync : Sparse SyncBlock) (plumbs : Sparse Plumb) (site : Nat) : List Nat :=
  (sync.filter fun (_, b) => b.plumb.any fun i => (Sparse.get {} plumbs i : Plumb).flagged.contains site).map fun (i, _) =>
    (blkName t x y i).toNat

/-- The records of a grid that flag a site, where its teams stand or in their swap areas (R272). -/
def State.flagsOn (s : State) (grid site : Nat) : List Nat :=
  (s.teams.filter fun (_, t) => t.grid == grid && t.state != .ended).flatMap fun (_, t) =>
    match t.saved with
    | some sv => sv.flatMap fun (key, c) => flaggedBy t (key % t.w) (key / t.w) c.sync c.plumbs site
    | none => if standing t then (State.teamCores t).flatMap fun k =>
        flaggedBy t (teamPos t k).1 (teamPos t k).2 (s.core k).ni.sync (s.core k).ni.plumbs site
      else []

/-- BINIT's name for a new block (R264): the free block of the issuing core with the lowest index. -/
def State.freeBlock (s : State) : Option Word :=
  match s.teamAt s.cur, (List.range 32).find? fun i => (Sparse.find s.here.ni.sync i).isNone with
  | some t, some i =>
    let (x, y) := teamPos t s.cur
    some (blkName t x y i)
  | _, _ => none

/-- BINIT (R265). Set up again with no arrival counted, a group's episode is that of the members of the moment; a break that
changes KIND shows the new KIND in the word of its continuations (DESIGN CHOICE, log 105). -/
def execBinit (d a b : BitVec 6) (s : State) : Host.Outcome State Fault Refusal :=
  operands [a, b] s fun s =>
    let c := s.g a
    let w := (s.g b).val
    let count := (w.extractLsb' 0 16).toNat
    let group := w.getLsbD 16
    let bad := w.extractLsb' 17 47 != 0 || (!group && count == 0)
    let none_ := fun (s : State) => retire (s.writeG d.toNat {})
    let glob := hasPerm c.desc pGLOBAL
    if c.tag && capOtype c.desc == 0 && hasPerm c.desc pSYNC then
      match s.freeBlock with
      | none => none_ s
      | some name =>
        if bad then none_ s
        else
          let blk : SyncBlock := { group, count, expected := if group then 0 else count, openedAt := s.here.cycle
                                   frozen := s.gridFrozen (blkGrid name) }
          retire ((s.putBlock name blk).writeG d.toNat (syncReg name glob))
    else syncBlock c s fun blk s =>
      if bad then none_ s
      else
        let members := if group && blk.group then blk.members else []
        let expected := if group then members.length else count
        let blk' := { blk with group, count, members }
        let s :=
          if blk.arrived = 0 then s.putBlock c.val { blk' with expected, roll := members }
          else
            let s := match blk.plumb, s.plumbAt c.val blk with
              | some i, some p => s.putPlumb c.val i { p with cur := [] }
              | _, _ => s
            s.endEpisode c.val blk' true expected
        retire (s.writeG d.toNat (syncReg c.val glob))

/-- The first BARR or BWAIT of a core of a POISONED team takes POISON (R407), once its own checks are made (R403). -/
def unmarked (s : State) (ok : State → Host.Outcome State Fault Refusal) : Host.Outcome State Fault Refusal :=
  if s.here.poisonMark then trap cPOISON 0 (s.mapCore s.cur fun c => { c with poisonMark := false }) else ok s

/-- BARR (R266): the arrival is a release at SYSTEM scope (R143) and stands from here on. -/
def execBarr (a b : BitVec 6) (s : State) : Host.Outcome State Fault Refusal :=
  noTxn s fun s =>
    let w := (s.g b).val
    let cont := w.getLsbD 63
    let regs := [a, b] ++ (if cont then [56, 57, 58] else [])
    if s.anyBusy regs then stall s
    else if w.extractLsb' 14 49 != 0 then trap cILLEGAL 0 s
    else syncBlock (s.g a) s fun blk s => unmarked s fun s =>
      if blk.poisoned then trap cPOISON (s.g a).val s
      else if s.taintOf regs != 0 then stall s
      else
        let name := (s.g a).val
        let team := (s.teamAt s.cur).map fun t => (t.grid, t.idx)
        let msg := s.posed { noMsg with dst := s.cur, team, handler := (w.extractLsb' 0 12).toNat
                                        cls := (w.extractLsb' 12 2).toNat, release := true
                                        a2 := (s.g 56).val, a3 := (s.g 57).val, a4 := (s.g 58).val }
        let op := s.task.opNo
        let arr : Arrival := { blk := name, core := s.cur, ctx := s.ctx, gen := s.task.gen, op
                               cont := if cont then some msg else none }
        let s := s.mapTask fun t => { t with barr := some { blk := name, op } }
        retire ((s.addOp { op := 0, gen := 0, kind := .arrival, rel := some 5, arr := some arr }).kick s.cur s.ctx)

/-- An arrival of the issuing context reaches its block (R266, R269): it is counted, refused, or meets a poisoned block. -/
def State.arrive (s : State) (a : Arrival) : State :=
  let c : Counted := ⟨a.core, a.ctx, a.gen, a.op, a.cont⟩
  match s.blockAt a.blk with
  | none => s
  | some b =>
    let key := s.memberKey a.core
    if b.poisoned then s.barrStatus c a.blk 3
    else if b.group && !b.roll.contains key then s.barrStatus c a.blk 2
    else
      let site := siteOf a.core % 24
      let time := sat32 (((s.core (s.blockOwner a.blk)).cycle : Int) - b.openedAt).toNat
      let s := s.mapNi a.core fun ni => { ni with groups := ni.groups.map fun (g, e) =>
        if g = a.blk then (g, b.episode + 1) else (g, e) }
      let s := match b.plumb, s.plumbAt a.blk b with
        | some i, some p => s.putPlumb a.blk i { p with cur := Sparse.set p.cur site time, lastSite := site }
        | _, _ => s
      (s.putBlock a.blk { b with arrived := b.arrived + 1, arrivals := b.arrivals ++ [c] }).completeIf a.blk site

/-- BARRIER_ARRIVAL (R266). -/
def execBarrierArrival (a : Arrival) (s : State) : Host.Outcome State Fault Refusal :=
  unlessCopied ((s.syncOwner a.core a.blk).getD a.core) (.barrierArrival a) s (.next (s.asCtx a.core a.ctx (·.arrive a)))

/-- BWAIT's result (R267): DONE is an acquire at DOMAIN scope (R143). -/
def State.bwaitDone (s : State) (d st : Nat) : State :=
  let s := if st = 0 then s.dropCopies s.cur else s
  (s.writeInt (BitVec.ofNat 6 d) (BitVec.ofNat 64 st) 0).advance

/-- BWAIT (R267). -/
def execBwait (d : BitVec 6) (s : State) : Host.Outcome State Fault Refusal :=
  noTxn s fun s =>
    match s.task.barr with
    | none => trap cILLEGAL 0 s
    | some b =>
      if b.status.isNone && s.parkFull then trap cPARKLIMIT 0 s
      else unmarked s fun s => if (s.blockAt b.blk).any (·.poisoned) || b.status == some 3 then trap cPOISON b.blk s
      else match b.status with
        | some st => .next (s.bwaitDone d.toNat st)
        | none => parkHere (.bwait d.toNat) s

/-- BSTAT (R270). -/
def execBstat (d a : BitVec 6) (s : State) : Host.Outcome State Fault Refusal :=
  operands [a] s fun s => syncBlock (s.g a) s fun b s =>
    if b.poisoned then trap cPOISON (s.g a).val s else retire (s.writeInt d (bstatWord b) 0)

/-- A group block, else CAP (R268). -/
def groupBlock (c : Reg) (s : State) (ok : SyncBlock → State → Host.Outcome State Fault Refusal) :
    Host.Outcome State Fault Refusal :=
  syncBlock c s fun b s => if b.group then ok b s else trap cCAP c.val s

/-- GJOIN (R268): a join counts from the next episode. -/
def execGjoin (d a : BitVec 6) (s : State) : Host.Outcome State Fault Refusal :=
  noTxn s fun s => operands [a] s fun s => groupBlock (s.g a) s fun b s =>
    let key := s.memberKey s.cur
    let w := (s.g a).val
    if b.members.contains key then retire (s.writeInt d 0 0)
    else if 32 ≤ s.here.ni.groups.length then retire (s.writeInt d 2 0)
    else
      let s := s.mapNi s.cur fun ni => { ni with groups := ni.groups ++ [(w, 0)] }
      retire ((s.putBlock w { b with members := b.members ++ [key] }).writeInt d 1 0)

/-- GLEAVE (R268): from the next episode where the core has arrived in this one, else at once, which may complete
the episode, with the leaving core's site as the completing one (R272; DESIGN CHOICE, log 106). -/
def execGleave (d a : BitVec 6) (s : State) : Host.Outcome State Fault Refusal :=
  noTxn s fun s => operands [a] s fun s => groupBlock (s.g a) s fun b s =>
    let key := s.memberKey s.cur
    let w := (s.g a).val
    if !b.members.contains key then retire (s.writeInt d 0 0)
    else
      let arrived := s.here.ni.groups.any fun (g, e) => g == w && e == b.episode + 1
      let now := !arrived && b.roll.contains key
      let b' := { b with members := b.members.filter (· != key), roll := b.roll.filter (· != key)
                         expected := if now then b.expected - 1 else b.expected }
      let s := s.mapNi s.cur fun ni => { ni with groups := ni.groups.filter fun (g, _) => g != w }
      let s := s.putBlock w b'
      retire ((if now then s.completeIf w (siteOf s.cur % 24) else s).writeInt d 1 0)

/-- PLCFG (R271). Sites that the record had flagged get a clear notice; a record attached already loses its counts of
scored episodes too, and keeps its arrival times and last site (DESIGN CHOICE, log 106). -/
def execPlcfg (d a b : BitVec 6) (s : State) : Host.Outcome State Fault Refusal :=
  operands [a, b] s fun s => syncBlock (s.g a) s fun blk s =>
    let w := (s.g a).val
    let cfg := (s.g b).val
    let t := (cfg.extractLsb' 0 8).toNat
    let thresh := (cfg.extractLsb' 8 32).toNat
    let old := s.plumbAt w blk
    let clear := fun (s : State) => ((old.map (·.flagged)).getD []).foldl (fun s j => s.flagNotices w j false) s
    let free := match blk.plumb with
      | some i => some i
      | none => (List.range 4).find? fun i => !((s.syncStore w).any fun (_, ps) => (Sparse.get {} ps i : Plumb).used)
    if cfg.extractLsb' 40 24 != 0 then retire (s.writeInt d 2 0)
    else if t = 0 then
      let s := clear s
      let s := match blk.plumb with
        | some i => s.putPlumb w i {}
        | none => s
      retire ((s.putBlock w { blk with plumb := none }).writeInt d 0 0)
    else match free with
      | none => retire (s.writeInt d 1 0)
      | some i =>
        let p : Plumb := { (old.getD {}) with used := true, thresh, t, scored := 0, scores := [], flagged := [] }
        retire ((((clear s).putPlumb w i p).putBlock w { blk with plumb := some i }).writeInt d 0 0)

/-- A word of a plumb record (R271). -/
def plumbWord (p : Plumb) (i : Nat) : Word :=
  if i = 0 then BitVec.ofNat 64 (p.thresh * 2 ^ 32 + p.t * 2 ^ 24 + p.scored)
  else if i ≤ 3 then
    BitVec.ofNat 64 ((List.range 8).foldl (fun n j => n + Sparse.get 0 p.scores (8 * (i - 1) + j) * 2 ^ (8 * j)) 0)
  else if i = 4 then BitVec.ofNat 64 (p.lastSite * 2 ^ 40 + p.flagged.foldl (fun n j => n + 2 ^ j) 0)
  else
    let time := fun j => Sparse.get 0xFFFFFFFF p.times j
    BitVec.ofNat 64 (time (2 * (i - 5) + 1) * 2 ^ 32 + time (2 * (i - 5)))

/-- PLREAD (R271). -/
def execPlread (d a b : BitVec 6) (s : State) : Host.Outcome State Fault Refusal :=
  operands [a, b] s fun s => syncBlock (s.g a) s fun blk s =>
    let i := (s.g b).val.toNat
    let v := match s.plumbAt (s.g a).val blk with
      | some p => if 16 < i then 0 else plumbWord p i
      | none => 0
    retire (s.writeInt d v 0)

/-- FLAG_NOTICE (R272). -/
def execFlagNotice (core record : Nat) (s : State) : Host.Outcome State Fault Refusal :=
  .next (s.mapNi core fun ni => { ni with flags := insertNat ni.flags record })

/-- CLEAR_NOTICE (R272). -/
def execClearNotice (core record : Nat) (s : State) : Host.Outcome State Fault Refusal :=
  .next (s.mapNi core fun ni => { ni with flags := eraseNat ni.flags record })

end Sys2Proof.Machine
end

