-- ==== Sys2Proof/Machine/Teams.lean ====
section
/-!
DEFINITION. Placement, swapping, relocation, mail drops and bank switches (R49 to R52, R108, R110, R373 to R377).
-/
namespace Sys2Proof.Machine

/-! Bank switches. -/

/-- The mode a mode word names (R357). -/
def wordMode (w : Word) : BankMode :=
  match (w.extractLsb' 0 3).toNat with
  | 1 => .scratch
  | 2 => .fifo
  | _ => .cache

/-- A cycle of a bank ends (R110, R113): its FIFO's HEAD has moved, a change of mode accepted in it begins, and a draining
way writes back its next dirty line, until every one is acknowledged. -/
def State.bankCycle (s : State) (bk : Nat) : State :=
  let s := s.settleFifo bk
  let b := s.bank bk
  match b.next, b.mode, b.drain with
  | some w, _, _ => s.switchBank bk w
  | none, .draining, l :: rest => (s.setBank bk { b with drain := rest }).l2Touch l true
  | none, .draining, [] => s.pushOnce (.bankDrainDone bk)
  | none, _, _ => s

/-- BANK_DRAIN_DONE (R110): the last write-back is acknowledged. -/
def execBankDrainDone (bank : Nat) (s : State) : Host.Outcome State Fault Refusal :=
  let b := s.bank bank
  if b.mode ≠ .draining || !b.drain.isEmpty then .next s
  else .next (s.setBank bank { b with mode := .zeroing, since := (s.site (bankSite bank)).fab })

/-- The partitions of a site, each looked at again for placement. -/
def State.placeAgain (s : State) (site : Nat) : State :=
  match s.partOfSite site with
  | some p => s.pushOnce (.teamPlace p)
  | none => s

/-- BANK_ZERO_DONE (R110): 1,024 core cycles after zeroing began the bank is zero and stands in its target mode, a
FIFO empty. One whose team has left meanwhile is switched back to CACHE (R373). -/
def execBankZeroDone (bank : Nat) (s : State) : Host.Outcome State Fault Refusal :=
  let b := s.bank bank
  if b.mode ≠ .zeroing || (s.site (bankSite bank)).fab < b.since + 2048 then .next s
  else
    let lo := bankBase bank
    let s := { s with mem := s.mem.filter fun c => !(lo ≤ c.1 && c.1 < lo + 2 ^ 18)
                      tags := dropRange s.tags (lo / 16) (2 ^ 14) }
    let w := b.target
    let s := s.setBank bank { mode := wordMode w, units := b.units, owner := b.owner, shared := w.getLsbD 12
                              slot := (w.extractLsb' 3 2).toNat, depthl := (w.extractLsb' 8 4).toNat }
    .next ((if b.leaving then s.switchBank bank 0 else s).placeAgain (bankSite bank))

/-! Where a team's parts stand. -/

/-- Bytes of a share (R108): its regions, each rounded up to 4 KiB. -/
def shareBytes (img : Image) : Nat := img.regions.foldl (fun n (b, _, _) => n + (b + 4095) / 4096 * 4096) 0

/-- The virtual addresses of a team's parts in its window (log 11). -/
def tableVa (uid : Nat) : Nat := teamWindow uid + 2 ^ 28
def shareVa (uid key : Nat) : Nat := teamWindow uid + 2 ^ 30 + key * 2 ^ 18
def fifoVa (uid cluster f : Nat) : Nat := teamWindow uid + 2 ^ 31 + (cluster * 16 + f) * 2 ^ 18

/-- Bytes of a handler table, and of the table with its authority block (R22). -/
def tableBytes (img : Image) : Nat := (img.handlers.length * 8 + 63) / 64 * 64

/-! Placement. -/

/-- The first run of `n` free units of a bank. -/
def bankRun (b : Bank) (n : Nat) : Option Nat :=
  (List.range (65 - n)).find? fun u => (List.range n).all fun i => !b.units.any (·.1 == u + i)

/-- A CACHE bank of a cluster is switched, unless it is the last (R111, R373). -/
def State.takeCache (s : State) (site cl : Nat) (word : Word) : Option (State × Nat) :=
  match s.cacheBanks site cl with
  | bk :: _ :: _ => some (s.switchBank bk word, bk)
  | _ => none

/-- A core's share is allocated in one bank of its cluster (R108): the lowest-numbered one with room, in its first run of free
units (DESIGN CHOICE, log 11). -/
def State.allocShare (s : State) (uid site cl key core n : Nat) : Option State :=
  let open_ := ((List.range 16).map (bankNo site cl)).find? fun bk =>
    let b := s.bank bk
    (b.mode == .scratch || ((b.mode == .draining || b.mode == .zeroing) && wordMode b.target == .scratch))
      && b.poison.isEmpty && (bankRun b n).isSome
  let found := match open_ with
    | some bk => some (s, bk)
    | none => s.takeCache site cl 1
  match found with
  | none => none
  | some (s, bk) =>
    let u := (bankRun (s.bank bk) n).getD 0
    let s := s.mapBank bk fun b => { b with units := b.units ++ (List.range n).map fun i => (u + i, uid) }
    some { s with windows := s.windows ++ [⟨((Sparse.find s.teams uid).map (·.part)).getD 0, uid, shareVa uid key, n * 4096,
                                           bankBase bk + u * 4096, .share core⟩] }

/-- A FIFO bank for each .fifo in a cluster (R373). -/
def State.allocFifos (s : State) (uid part site cl core : Nat) (fs : List (Nat × Nat × Bool)) : Option State :=
  fs.zipIdx.foldl (fun os ((slot, depthl, shared), f) => os.bind fun s =>
    let word := BitVec.ofNat 64 ((if shared then 2 ^ 12 else 0) + depthl * 2 ^ 8 + slot * 2 ^ 3 + 2)
    (s.takeCache site cl word).map fun (s, bk) =>
      let s := s.mapBank bk fun b => { b with owner := some uid }
      { s with windows := s.windows ++ [⟨part, uid, fifoVa uid cl f, 2 ^ 18, bankBase bk, .fifo core bk⟩] }) (some s)

/-- A rectangle is taken for a team (R373), if its cores are free and its clusters can supply its banks. -/
def State.takeRect (s : State) (uid : Nat) (t : Team) (site row0 col0 : Nat) : Option State :=
  let t := { t with site, row0, col0 }
  let cores := State.teamCores t
  let img := s.imageOf t
  let n := shareBytes img / 4096
  if 32 < row0 + t.h || 32 < col0 + t.w || cores.any fun k => (s.core k).team.isSome || (s.core k).lost ≠ 0 then none
  else if 64 < n then none
  else
    let s1 := cores.foldl (fun os k => os.bind fun s =>
      if n = 0 then some s
      else s.allocShare uid site (clusterOf k) (savedKey t (colOf k - col0) (rowOf k - row0)) k n) (some s)
    let clusters := (cores.map clusterOf).foldl insertNat []
    let s2 := clusters.foldl (fun os cl => os.bind fun s =>
      s.allocFifos uid t.part site cl ((cores.find? fun k => clusterOf k == cl).getD 0) img.fifos) s1
    s2.map fun s => cores.foldl (fun s k => s.mapCore k fun c => { c with team := some uid })
      (s.mapTeam uid fun _ => { t with state := .placing })

/-- The first rectangle of a partition that a team fits (R373), if its image's signature, which fixes its level, is good
(R352). -/
def State.placeTeam (s : State) (uid : Nat) : Option State :=
  match Sparse.find s.teams uid with
  | none => none
  | some t =>
    if !(s.imageOf t).signed then none
    else
    let sites := (s.partSites t.part).filter fun st =>
      let x := s.site st
      x.live && !x.rejoin && x.evacuating.isNone
    sites.findSome? fun st => (List.range 32).findSome? fun r => (List.range 32).findSome? fun c =>
      s.takeRect uid t st r c

/-- Whether every bank of a placing team is ready. -/
def State.banksReady (s : State) (uid : Nat) : Bool :=
  s.windows.all fun w => w.team != uid || (match w.kind with
    | .share _ => (s.bank (bankOf w.storage)).mode == .scratch
    | .fifo _ _ => (s.bank (bankOf w.storage)).mode == .fifo
    | _ => true)

/-- Bytes written with no effect on transactions: what placement loads. -/
def State.load (s : State) (a : Nat) (bs : List Byte) : State := s.writeMem ((addrRange a bs.length).zip bs)

/-- A capability stored with its tag. -/
def State.loadCap (s : State) (a : Nat) (c : CapVal) : State :=
  (s.load a (bytesOf 8 c.val.toNat ++ bytesOf 8 c.desc.toNat)).setTag (a / 16) c.tag

/-- The record authority placement gives (R22): SEALROOT's capability for type 1 without SEAL, or untagged zero. -/
def recAuthCap (img : Image) : CapVal :=
  if img.recAuth then ⟨1, mkDesc (permSet [pUNSEAL, pGLOBAL]) 0 0 1 2, true⟩ else ⟨0, 0, false⟩

/-- The initial bytes of a share (R45, R108). -/
def shareImage (img : Image) : List Byte :=
  img.regions.flatMap fun (b, _, bs) => (bs ++ List.replicate ((b + 4095) / 4096 * 4096 - bs.length) 0)

/-- The FIFO capabilities of R374 for one core, in declaration order: each over a bank (R103). -/
def fifoCaps (uid cl : Nat) (img : Image) : List CapVal :=
  (List.range img.fifos.length).map fun f => capOver [pLD, pST] (fifoVa uid cl f) (2 ^ 18)

/-- NI counters zeroed at each placement (R215). -/
def NI.zeroed (ni : NI) : NI :=
  { ni with orphans := 0, genhold := 0, refused := 0, timedretry := 0, redirects := 0, strays := 0, replays := 0, torn := 0 }

/-- A range of storage left as zeros, with no tag and no poison. -/
def State.clearRange (s : State) (lo n : Nat) : State :=
  { s with mem := s.mem.filter fun c => !(lo ≤ c.1 && c.1 < lo + n)
           tags := dropRange s.tags (lo / 16) (n / 16), poison := dropRange s.poison (lo / 128) (n / 128) }

/-- Times by a core's clock, carried over from or to a count from zero (R272, R378). -/
def shiftEntry (by_ : Int) (e : QEntry) : QEntry := { e with arrived := none, moved := e.moved + by_ }
def shiftBlock (by_ : Int) (b : SyncBlock) : SyncBlock := { b with openedAt := b.openedAt + by_ }

/-- One core of a team that takes its place (R375): contents of its share, FIFO capabilities, NI objects, with the flags that
stand for its site (R272), and no instruction lines (R105). -/
def State.placeCore (s : State) (uid : Nat) (t : Team) (img : Image) (flags : List Nat) (k : Nat) : State :=
  let (x, y) := teamPos t k
  let key := savedKey t x y
  let share := s.windows.find? fun w => w.team == uid && w.kind == .share k
  let sv : Option SavedCore := t.saved.map fun m => Sparse.get {} m key
  let s : State := match share, sv with
    | some w, none => s.load w.storage (shareImage img)
    | some w, some c =>
      let s := s.clearRange w.storage w.size
      let s := { s with mem := Mem.writeAll s.mem (c.share.map fun (o, b) => (w.storage + o, b)) }
      c.shareTags.foldl (fun s g => s.setTag (w.storage / 16 + g) true) s
    | none, _ => s
  let s : State := match share with
    | some w => (fifoCaps uid (clusterOf k) img).zipIdx.foldl (fun (s : State) (ci : CapVal × Nat) => s.loadCap (w.storage + 16 * ci.2) ci.1) s
    | none => s
  s.mapCore k fun c =>
    { c with
      dispatchStop := false, frozen := t.frozen, poisonMark := (sv.map (·.poisonMark)).getD false, l1i := []
      ni := match sv with
        | some v => { c.ni.zeroed with queue := v.queue.map (shiftEntry c.cycle)
                                       sync := Sparse.mapVals (shiftBlock c.cycle) v.sync, plumbs := v.plumbs, pallet := v.pallet,
                                       mail := v.mail, groups := v.groups, flags, places := 0 }
        | none => { c.ni.zeroed with queue := [], sync := [], plumbs := [], mail := [], groups := [], flags,
                                     pallet := (Sparse.find t.start key).toList, places := 0 } }

/-- Sync blocks of the image's .group directives, four to a core in row-major order from the team's first, so that each has
a plumb record of its NI; any beyond the team's last core are there without one (R271, log 14). -/
def State.placeGroups (s : State) (t : Team) (img : Image) : State :=
  (List.range (t.w * t.h)).foldl (fun s c =>
    let n := if c + 1 = t.w * t.h then img.groups - 4 * c else min 4 (img.groups - 4 * c)
    let k := teamCore t (c % t.w) (c / t.w)
    let scored := fun (i : Nat) => i < 4 && img.straggler != 0
    let block := fun (i : Nat) => ({ group := true, plumb := if scored i then some i else none, openedAt := (s.core k).cycle
                                     frozen := t.frozen } : SyncBlock)
    if n = 0 then s
    else s.mapNi k fun ni => { ni with sync := (List.range n).map fun i => (i, block i)
                                       plumbs := ((List.range n).filter scored).map fun i =>
                                         (i, ({ used := true, t := img.straggler } : Plumb)) }) s

/-- FIFO banks of a swap image restored (R52), by cluster in the order saved. -/
def State.placeFifos (s : State) (uid : Nat) (t : Team) : State :=
  let ws := s.windows.filter fun w => w.team == uid && (match w.kind with | .fifo _ _ => true | _ => false)
  let kept := (t.saved.getD []).flatMap fun (_, c) => c.fifos
  (ws.zip kept).foldl (fun s (w, (b, cells, tags)) =>
    let s := s.mapBank (bankOf w.storage) fun c => { c with head := b.head, tail := b.tail }
    let s := { s with mem := Mem.writeAll s.mem (cells.map fun (o, x) => (w.storage + o, x)) }
    tags.foldl (fun s g => s.setTag (w.storage / 16 + g) true) s) s

/-- A placing team whose banks are ready takes its place (R375): PLACED, or with a swap image in REPLAY. Its mail drop is
replayed next (R52, R372). The code capability is
bounded exactly where a descriptor can do so; a fetch past the section's end takes CAP in any case (DESIGN CHOICE, log 84). -/
def State.finishPlace (s : State) (uid : Nat) : State :=
  match Sparse.find s.teams uid with
  | none => s
  | some t =>
    if t.state ≠ .placing || !s.banksReady uid then s
    else
      let img := s.imageOf t
      let store := teamStore + uid * 2 ^ 32
      let code := img.code.flatMap fun w => bytesOf 4 w.toNat
      let table := img.handlers.flatMap fun w => bytesOf 8 w.toNat
      let size := tableBytes img
      let s := if t.saved.isNone then (s.load store code).load (store + 2 ^ 28) table else s
      let s := s.loadCap (store + 2 ^ 28 + size) (recAuthCap img)
      let s := s.load (store + 2 ^ 28 + size + 16) (List.replicate 48 0)
      let flags := s.flagsOn t.grid (t.site % 24)
      let s := s.forgetCode fun a => store ≤ a && a < store + 2 ^ 32
      let s : State := { s with
        windows := s.windows ++
          [⟨t.part, uid, teamWindow uid, code.length, store, .code⟩,
           ⟨t.part, uid, tableVa uid, img.handlers.length * 8, store + 2 ^ 28, .table⟩,
           ⟨t.part, uid, tableVa uid + size, 64, store + 2 ^ 28 + size, .authority⟩] }
      let s := (State.teamCores t).foldl (fun s k => s.placeCore uid t img flags k) s
      let s := if t.saved.isNone then s.placeGroups t img else s.placeFifos uid t
      let s := s.mapTeam uid fun t => { t with
        state := if t.saved.isNone then .placed else .replay, saved := none, start := [], placedAt := (s.core (teamCore t 0 0)).cycle, base := teamWindow uid
        codeCap := capOver [pEXEC] (teamWindow uid) code.length
        tableCap := capOver [pLD] (tableVa uid) (img.handlers.length * 8) }
      s.push (.maildropClose uid)

/-- The teams placed with the head of a queue (R373): its whole grid where the grid is a gang. -/
def State.headTeams (s : State) (part : Nat) : List Nat :=
  match (s.part part).queue with
  | [] => []
  | u :: rest =>
    match (Sparse.find s.teams u).bind fun t => Sparse.find s.grids t.grid, Sparse.find s.teams u with
    | some g, some t => if g.oversub then [u]
        else u :: rest.filter fun v => (Sparse.find s.teams v).any fun x => x.grid == t.grid
    | _, _ => [u]

/-- The head of the queue placed, if it fits. -/
def State.placeHead (s : State) (part : Nat) : Option State :=
  match s.headTeams part with
  | [] => none
  | us =>
    (us.foldl (fun os u => os.bind (·.placeTeam u)) (some s)).map fun s =>
      s.mapPart part fun p => { p with queue := p.queue.filter fun u => !us.contains u }

/-- Whether a checkpoint stops the sequencers of a module (R423). -/
def State.paused (s : State) (mod : Nat) : Bool := (s.module mod).ck.busy && (s.module mod).ck.op < 2

/-- Whether a team holds its rectangle. -/
def State.holdsRect (s : State) (uid : Nat) (t : Team) : Bool :=
  t.state != .waiting && (s.core (teamCore t 0 0)).team == some uid

/-- Whether a context keeps its team from quiescence (R50): a task, a reply outstanding, an effect to transmit, or an
operation that its grid's completion waits for (R144; DEDUCED, log 93). -/
def ctxBusy (t : Ctx) : Bool :=
  t.occupied || !t.owed.isEmpty || (State.nextOut t).isSome || !t.pend.isEmpty || t.sack != 0

/-- The rectangles of killed teams of a partition are freed once what their tasks had committed has left and what they had
under way is done (R39, R57, R144). -/
def State.freeKilled (s : State) (part : Nat) : State :=
  let left := fun (t : Team) => (State.teamCores t).all fun k => (s.core k).ctxs.all fun (_, c) => !ctxBusy c
  (s.teams.filter fun (u, t) => t.part == part && t.state == .ended && s.holdsRect u t && left t).foldl
    (fun s (u, t) => s.unplace u t) s

/-- SCRATCH banks of a partition whose units are all free go back to CACHE (R373). -/
def State.freeBanks (s : State) (part : Nat) : State :=
  let mine := s.banks.filter fun (bk, b) =>
    b.mode == .scratch && b.units.isEmpty && b.next.isNone && (s.partSites part).contains (bankSite bk)
  mine.foldl (fun s (bk, _) => s.switchBank bk 0) s

/-- TEAM_PLACE (R373): placing teams whose banks are ready take their places, then the head of the queue is placed on
the first rectangle that fits; while it does not fit, no later team is placed. SCRATCH banks left without a unit go back to
CACHE. -/
def execTeamPlace (part : Nat) (s : State) : Host.Outcome State Fault Refusal :=
  let s := s.freeKilled part
  let s := (s.teams.filter fun (_, t) => t.part == part && t.state == .placing).foldl (fun s (u, _) => s.finishPlace u) s
  if s.paused (s.part part).mod then .next s
  else match s.placeHead part with
    | some s => .next (s.push (.teamPlace part))
    | none => .next (if (s.part part).queue.isEmpty then s.freeBanks part else (s.freeBanks part).pushOnce (.slicePreemption part))

/-! Mail drops and replay. -/

/-- A message as its team stands now (R51): its target is the core that holds its team coordinate. -/
def State.redirected (t : Team) (m : Message) : Message := { m with dst := teamCore t m.pos.1 m.pos.2 }

/-- The parked WAITM that a message is for: the one that parked first (R249). -/
def State.waitmFor (s : State) (k h : Nat) : Option Nat :=
  let ws := (s.core k).ctxs.filter fun (_, t) => match t.park with
    | some (.waitm _ h') => h' == h
    | _ => false
  (ws.foldl (fun b (x, t) => match b with
    | none => some (x, t.parkAt)
    | some (y, n) => if t.parkAt < n then some (x, t.parkAt) else some (y, n)) none).map (·.1)

/-- A WAITM parked for a handler goes on where a message of it waits (R249). -/
def State.wakeWaitm (s : State) (k h : Nat) : State :=
  match State.waitmPick (s.core k).ni.queue h, s.waitmFor k h with
  | some _, some x => s.pushOnce (.parkResume k x)
  | _, _ => s

/-- A queue entry a core's NI accepts (R24); IDLE contexts and a waiting WAITM wake (R402, R249). -/
def State.enqueue (s : State) (k : Nat) (m : Message) (reserved : Bool) : State :=
  let e : QEntry := { msg := m, cls := m.cls, cls0 := m.cls, reserved, accepted := (s.core k).nextAccept
                      arrived := some (s.core k).cycle, moved := (s.core k).cycle }
  let s := (s.mapNi k fun ni => { ni with queue := ni.queue ++ [e] }).push (.dispatch k)
  let s := s.pushAll (((s.core k).ctxs.filter fun (_, t) => t.idle.isSome).map fun (x, _) => .idleWake k x)
  s.wakeWaitm k m.handler

/-- A refused message's sender has moved to core `k`: the NI that lists it, reserves for it or has its chain answers there. -/
def State.moveListing (s : State) (id : Word) (k : Nat) : State :=
  let move := fun (ni : NI) => { ni with
    refusals := ni.refusals.map fun (i, c, o) => if i = id then (i, c, k) else (i, c, o)
    rooms := ni.rooms.map fun r => if r.id = id then { r with sender := k } else r
    chains := ni.chains.map fun (o, i) => if i = id then (k, i) else (o, i) }
  { s with cores := Sparse.mapVals (fun c => { c with ni := move c.ni }) s.cores }

/-- A refused message's place among retry entries: ahead of those of its SENDO channel that have not left yet (R27, R52,
R138). -/
def retryInsert (r : RetryEntry) (l : List RetryEntry) : List RetryEntry :=
  let later := fun (q : RetryEntry) => q.fresh && State.sameChannel q.msg r.msg
  l.takeWhile (fun q => !later q) ++ r :: l.dropWhile (fun q => !later q)

/-- A retry entry goes back to the NI that now stands at its sender's coordinate, while it has room, and goes again at once
(R52). -/
def State.restoreRetry (s : State) (uid : Nat) (t : Team) : State :=
  t.retryArea.foldl (fun s (key, rs) =>
    let k := teamCore t (key % t.w) (key / t.w)
    let n := s.retryRoom k
    let mine := fun (r : RetryEntry) => { r with chain := true, msg := { r.msg with src := k } }
    let s := s.mapNi k fun ni => { ni with retry := (rs.take n).foldl (fun l r => retryInsert (mine r) l) ni.retry }
    let s := (rs.take n).foldl (fun s r => (s.moveListing r.msg.id k).push (.timedRetry k r.msg.id)) s
    s.mapTeam uid fun t => { t with retryArea :=
      if (rs.drop n).isEmpty then Sparse.erase t.retryArea key else Sparse.set t.retryArea key (rs.drop n) }) s

/-- Whether a team's messages go through its mail drop (R51, R52, R372): it has no place, or its drop is not empty yet. -/
def Team.byDrop (t : Team) : Bool :=
  match t.state with
  | .placed => !t.drop.isEmpty
  | .quiescing => !t.drop.isEmpty
  | .ended => false
  | _ => true

/-- MAILDROP_CLOSE (R52): the oldest message of the drop goes to its core's queue when it has room; the drop is
closed once it is empty, and the team is PLACED. -/
def execMaildropClose (team : Nat) (s : State) : Host.Outcome State Fault Refusal :=
  match Sparse.find s.teams team with
  | none => .next s
  | some t =>
    if t.state ≠ .replay ∧ t.state ≠ .placed then .next s
    else
      let s := s.restoreRetry team t
      match t.drop with
      | [] =>
        let s := s.mapTeam team fun t => { t with state := .placed, dropOpen := false }
        .next (s.pushAll ((State.teamCores t).map .dispatch))
      | m :: rest =>
        let m := State.redirected t m
        match (s.core m.dst).freeEntry m.cls with
        | none => .next s
        | some r =>
          let s := (s.mapTeam team fun t => { t with drop := rest }).enqueue m.dst m r
          .next (s.push (.maildropClose team))

/-- A refused message of a hod, sequencer or site controller stays with its agent and goes again after the timed
delay (R26). -/
def State.resendLater (s : State) (m : Message) : State :=
  let st := m.src / 1024
  let due := (s.site st).fab + 2 * (256 * 2 ^ min m.timed 5)
  s.mapSite st fun t => { t with resend := t.resend ++ [({ m with timed := m.timed + 1 }, due)] }

/-- A refusal goes back to the agent that sent the message (R25), whose SEQ stays not applied; its entry keeps the refusal,
should that be lost (R324, R326). Agents that are no core keep the message for a timed retry. -/
def State.sendRefusal (s : State) (m : Message) (nolist chain : Bool) : State :=
  match s.windowOf (.messageAccept m) with
  | some (o, src, n) =>
    let e := Event.refuse m nolist chain
    (s.mapWindow o src fun w =>
      { w with applied := w.applied.filter (· != n), entries := w.entries.map fun x =>
          if x.seq = n then { x with step := none, refusal := some e } else x }).injectCtl (agentSite o) 2 o src n (some e)
  | none => if msgSrc m = 0 then s.push (.refuse m nolist chain) else s.resendLater m

/-- A message refused at a core (R25 to R27), counted in REFUSED: listed where `list` says so and the list has room, else
NOLIST; a refused SENDO message begins a chain. A chain refusal does no more than go back. -/
def State.refuseAt (s : State) (k : Nat) (m : Message) (chain list : Bool) : State :=
  let s := s.mapNi k fun ni => { ni with refused := sat32 (ni.refused + 1) }
  if chain then s.sendRefusal m false true
  else
    let ni := (s.core k).ni
    let listed := list && ni.refusals.any (·.1 == m.id)
    let room := list && (listed || ni.refusals.length < 32)
    let s := s.mapNi k fun ni =>
      { ni with
        refusals := if listed || !room then ni.refusals else ni.refusals ++ [(m.id, m.cls, m.src)]
        chains := if m.ordered && !ni.chains.any (·.1 == m.src) then ni.chains ++ [(m.src, m.id)] else ni.chains }
    s.sendRefusal m (!room) false

/-- MAILDROP_APPEND (R51, R377): appended in the order the drop's hod receives, which the NI that the message reached counts in
REDIRECTS; a full drop refuses with NOLIST, which that NI counts in REFUSED (DESIGN CHOICE, log 85), and a SENDO message so
refused begins a chain there (R27). A drop that has closed in the meantime leaves the message to the team's core. -/
def execMaildropAppend (team : Nat) (m : Message) (s : State) : Host.Outcome State Fault Refusal :=
  let viaNi := msgSrc m != 2
  let count := fun (s : State) (f : NI → NI) => if viaNi then s.mapNi m.dst f else s
  let away := fun (s : State) =>
    count (s.ack (.messageAccept m)) fun ni => { ni with redirects := sat32 (ni.redirects + 1) }
  match Sparse.find s.teams team with
  | none => .next ((s.ack (.messageAccept m)).stray m.dst m)
  | some t =>
    if t.state = .ended then .next (if viaNi then (s.ack (.messageAccept m)).stray m.dst m else s.consume m)
    else if !t.byDrop then
      let m' := State.redirected t m
      .next ((away s).route (agentNi m.dst) (agentNi m'.dst) (msgFlits m) 3 (.messageAccept m'))
    else if viaNi && m.ordered && (s.core m.dst).ni.chains.any (fun (src, id) => src == m.src && id != m.id) then
      .next (s.refuseAt m.dst m true false)
    else if t.dropSize ≤ t.drop.length then
      .next (if viaNi then s.refuseAt m.dst m false false else s.sendRefusal m true false)
    else
      let s := (away s).settleMsg none m
      let s := s.mapTeam team fun t => { t with drop := t.drop ++ [m] }
      .next (if t.state = .replay ∨ t.state = .placed then s.pushOnce (.maildropClose team) else s)

/-! Swapping. -/

/-- Dispatch to a team stops (R44, R50), unless it is frozen (R375): its messages awaiting retransmission go to its swap area. -/
def State.beginQuiesce (s : State) (uid : Nat) : State :=
  match Sparse.find s.teams uid with
  | none => s
  | some t =>
    if (t.state ≠ .placed && t.state ≠ .replay) || t.frozen then s
    else
      let s := (State.teamCores t).foldl (fun s k =>
        let (x, y) := teamPos t k
        let rs := (s.core k).ni.retry
        let s := s.mapCore k fun c => { c with dispatchStop := true, ni := { c.ni with retry := [] } }
        let s := rs.foldl (fun s r => s.giveUp (agentNi k) r.msg.id) s
        let add := fun (t : Team) => Sparse.set t.retryArea (savedKey t x y) (Sparse.get [] t.retryArea (savedKey t x y) ++ rs)
        if rs.isEmpty then s else s.mapTeam uid fun t => { t with retryArea := add t }) s
      (s.mapTeam uid fun t => { t with state := .quiescing }).push (.swapOut uid)

/-- What a swap saves of one core (R50). -/
def State.saveCore (s : State) (uid k : Nat) : SavedCore :=
  let ni := (s.core k).ni
  let share := s.windows.find? fun w => w.team == uid && w.kind == .share k
  let cells := fun (lo n : Nat) => (s.mem.filter fun c => lo ≤ c.1 && c.1 < lo + n).map fun c => (c.1 - lo, c.2)
  let tags := fun (w : Window) =>
    (s.tags.filter fun g => w.storage / 16 ≤ g && g < (w.storage + w.size) / 16).map (· - w.storage / 16)
  let fifos := (s.windows.filter fun w => w.team == uid && (match w.kind with | .fifo c _ => c == k | _ => false)).map
    fun w => (s.bank (bankOf w.storage), cells w.storage w.size, tags w)
  let back := -((s.core k).cycle : Int)
  { queue := ni.queue.map (shiftEntry back), sync := Sparse.mapVals (shiftBlock back) ni.sync, plumbs := ni.plumbs
    poisonMark := (s.core k).poisonMark, pallet := ni.pallet, mail := ni.mail, groups := ni.groups,
    share := ((share : Option Window).map fun w => cells w.storage w.size).getD [],
    shareTags := (share.map tags).getD []
    fifos }

/-- Context and number of a request that a reply answers (R30). -/
def repliedOp : Event → Option (Nat × Nat)
  | .remoteRegionAccess _ x op => some (x, op)
  | .lineFill _ x op => some (x, op)
  | .lrwEnqueue _ x op => some (x, op)
  | .scHome _ x op => some (x, op)
  | .homeAmo r => r.ret.map fun (x, _, op, _) => (x, op)
  | .niAtomic _ r _ => r.ret.map fun (x, _, op, _) => (x, op)
  | _ => none

/-- Requests of a core that await retransmission after their task has ended are given up and counted in ORPHANS (R50). -/
def State.giveUpOwed (s : State) (k : Nat) : State :=
  (s.xmitOf (agentNi k)).foldl (fun s x => match x.due, repliedOp x.step with
    | some _, some (c, op) =>
      if (s.ctxAt k c).owed.any (·.op == op) then
        let s := (s.freeXmit (agentNi k) x.owner x.seq).injectCtl (siteOf k) 5 (agentNi k) x.owner x.seq none
        let s := s.mapCtx k c fun t =>
          { t with owed := t.owed.filter (·.op != op), pend := t.pend.filter (·.op != op) }
        s.mapNi k fun ni => { ni with orphans := sat32 (ni.orphans + 1) }
      else s
    | _, _ => s) s

/-- SWAP_OUT (R50, R375): a quiescent team's state is saved, its mail drop opened and its rectangle freed; it waits at
the queue's tail, a gang's teams as one. Its messages under way are answered first (DEDUCED, log 86). -/
def execSwapOut (team : Nat) (s : State) : Host.Outcome State Fault Refusal :=
  match Sparse.find s.teams team with
  | none => .next s
  | some t =>
    let cores := State.teamCores t
    let s := if t.state = .quiescing then cores.foldl (fun s k => s.giveUpOwed k) s else s
    let busy := cores.any fun k => (s.core k).ctxs.any fun (_, c) => ctxBusy c
    if t.state ≠ .quiescing || t.frozen || busy then .next s
    else if cores.any fun k => !(s.messagesOut k).isEmpty || !(s.core k).ni.own.isEmpty then .next (s.again (.swapOut team))
    else
      let saved := cores.foldl (fun m k =>
        let (x, y) := teamPos t k
        Sparse.set m (savedKey t x y) (s.saveCore team k)) []
      let s := cores.foldl (fun s k => s.noticeAll k) s
      let s := (s.unplace team t).mapTeam team fun t =>
        { t with state := .waiting, saved := some saved, dropOpen := true }
      .next (s.enterQueue team t.grid)

/-- SWAP_IN (R52): a placing team whose banks are ready takes its place with its saved state. -/
def execSwapIn (team : Nat) (s : State) : Host.Outcome State Fault Refusal := .next (s.finishPlace team)

/-- SLICE_PREEMPTION (R376): of the oversubscribing teams that may give way, the one placed longest ago. -/
def execSlicePreemption (part : Nat) (s : State) : Host.Outcome State Fault Refusal :=
  match (s.part part).queue with
  | [] => .next s
  | u :: _ =>
    let cls := ((Sparse.find s.teams u).map (·.cls)).getD 0
    let held := fun (t : Team) => (s.core (teamCore t 0 0)).cycle - t.placedAt
    let ok := s.teams.filter fun (_, t) =>
      t.part == part && (t.state == .placed || t.state == .replay) && t.cls ≤ cls && 2 ^ 24 ≤ held t && !t.frozen
        && (Sparse.find s.grids t.grid).any (·.oversub)
    if (s.placeHead part).isSome || s.paused (s.part part).mod then .next s
    else match ok.foldl (fun b (v, t) => match b with
        | none => some (v, t)
        | some (w, y) => if held y < held t then some (v, t) else some (w, y)) none with
      | some (v, _) => .next (s.beginQuiesce v)
      | none => .next s

/-- RELOCATION_REQUEST (R375): a swap-out, then a placement. -/
def execRelocationRequest (team : Nat) (s : State) : Host.Outcome State Fault Refusal := .next (s.beginQuiesce team)

end Sys2Proof.Machine
end

