-- ==== Sys2Proof/Machine/Graph.lean ====
section
/-!
DEFINITION. The Herset sequencer: node records and their posts, firing and completion of nodes, launches, grid
completion (R56, R144, R273, R365 to R372, R416, R417, R439), and the end of a translation fault (R389).
-/
namespace Sys2Proof.Machine

/-! Records. -/

/-- Header fields (R365). -/
def nodeKind (h : Word) : Nat := (h.extractLsb' 60 4).toNat
def nodeRearm (h : Word) : Bool := h.getLsbD 59
def nodeKey (h : Word) : Nat := (h.extractLsb' 32 16).toNat * 2048 + (h.extractLsb' 48 11).toNat
def nodePreset (h : Word) : Nat := (h.extractLsb' 16 16).toNat
def nodeInit (h : Word) : Nat := (h.extractLsb' 0 16).toNat

/-- Doubleword D`i` of a record. -/
def nodeD (n : Node) (i : Nat) : Word := n.body.getD i 0
def nodeHead (n : Node) : Word := nodeD n 0

/-- The successor entries of a doubleword (R365). -/
def entries16 (w : Word) : List Nat := (List.range 4).map fun i => (w.extractLsb' (16 * i) 16).toNat

/-- Lists A and B, each to its first 0xFFFF. -/
def listA (n : Node) : List Nat := (entries16 (nodeD n 6)).takeWhile (· != 0xFFFF)
def listB (n : Node) : List Nat := (entries16 (nodeD n 7)).takeWhile (· != 0xFFFF)

/-- The list that a node releases as it completes (R366): B where a COND's mask finds nothing or a LOOP is over. -/
def releases (n : Node) : List Nat :=
  let k := nodeKind (nodeHead n)
  if (k = 2 && n.loop = 1) || (k = 3 && n.loop = 0) then listB n else listA n

/-- A SIGNAL with FREEG (R366). -/
def freesGraph (n : Node) : Bool := nodeKind (nodeHead n) == 4 && (nodeD n 4).getLsbD 0

/-- LAUNCH fields (R370). -/
def launchImage (n : Node) : Nat := ((nodeD n 1).extractLsb' 0 32).toNat
def launchUnits (n : Node) : Nat := ((nodeD n 1).extractLsb' 32 32).toNat
def launchTeams (n : Node) : Nat := ((nodeD n 4).extractLsb' 48 16).toNat
def launchDrop (n : Node) : Nat :=
  let d := ((nodeD n 4).extractLsb' 32 16).toNat
  if d = 0 then 4096 else d
def launchClass (n : Node) : Nat := ((nodeD n 4).extractLsb' 30 2).toNat
def launchRange (n : Node) : Bool := (nodeD n 4).getLsbD 29
def launchW (n : Node) (img : Image) : Nat :=
  let w := ((nodeD n 4).extractLsb' 0 6).toNat
  if w = 0 then (img.shape.map (·.1)).getD 0 else w
def launchH (n : Node) (img : Image) : Nat :=
  let h := ((nodeD n 4).extractLsb' 6 6).toNat
  if h = 0 then (img.shape.map (·.2)).getD 0 else h

/-- The post checks of a LAUNCH body (R370). -/
def State.launchOk (s : State) (n : Node) (runtime : Bool) : Bool :=
  match Sparse.find s.images (launchImage n) with
  | none => false
  | some img =>
    (!img.sup || runtime) && 1 ≤ launchTeams n && (nodeD n 4).extractLsb' 12 17 == 0
      && 1 ≤ launchW n img && launchW n img ≤ 32 && 1 ≤ launchH n img && launchH n img ≤ 32
      && (nodeD n 5).extractLsb' 0 3 == 0

/-- R367: the checks of a post that look at the record alone, and at the image table. -/
def State.recordValid (s : State) (n : Node) (runtime : Bool) : Bool :=
  let h := nodeHead n
  let k := nodeKind h
  let aligned := fun i => (nodeD n i).extractLsb' 0 3 == 0
  let zero := fun i => nodeD n i == 0
  k ≤ 5 && !(nodeRearm h && nodePreset h == 0)
    && (entries16 (nodeD n 6) ++ entries16 (nodeD n 7)).all (fun e => e == 0xFFFF || e < 2048)
    && (k == 2 || k == 3 || (listB n).isEmpty)
    && (match k with
      | 0 => s.launchOk n runtime
      | 1 => aligned 1 && aligned 2 && (nodeD n 3).toNat ≤ 2 ^ 36 && zero 4 && aligned 5
      | 2 => aligned 1 && zero 3 && zero 4 && zero 5
      | 3 => (nodeD n 1).extractLsb' 32 32 == 0 && !zero 1 && zero 2 && zero 3 && zero 4 && zero 5
      | 4 => aligned 1 && (nodeD n 3).toNat ≤ 1 && (nodeD n 4).extractLsb' 2 62 == 0 && zero 5
      | _ => aligned 1 && zero 4 && zero 5)

/-! Counts. -/

namespace State

def nodeAt (s : State) (site n : Nat) : Option Node := Sparse.find (s.site site).nodes n

def mapNode (s : State) (site n : Nat) (f : Node → Node) : State :=
  s.mapSite site fun t => { t with nodes := t.nodes.map fun (j, d) => (j, if j = n then f d else d) }

/-- The live node of a key. -/
def liveNode (s : State) (site key : Nat) : Option (Nat × Node) :=
  (s.site site).nodes.find? fun (_, d) => d.key == key && !d.freed

/-- A node fires (R368): it enters the ready queue. -/
def fire (s : State) (site n : Nat) : State :=
  ((s.mapNode site n fun d => { d with phase := 1 }).mapSite site fun t => { t with ready := t.ready ++ [n] }).push
    (.nodeStart site)

def lostDec (s : State) (site n : Nat) : State :=
  s.mapSite site fun t => { t with glostdec := sat32 (t.glostdec + n) }

/-- A count set at post or rearm (R368): less the pending decrements, the excess lost; a zero count fires. -/
def setCount (s : State) (site n base pend : Nat) : State :=
  let s := s.lostDec site (pend - base)
  let s := s.mapNode site n fun d => { d with count := base - pend, pending := 0, phase := 0 }
  if base ≤ pend then s.fire site n else s

/-- A decrement by a predecessor's release (R368). -/
def decrement (s : State) (site key : Nat) : State :=
  match s.liveNode site key with
  | none => s.mapSite site fun t => { t with pendDec := Sparse.set t.pendDec key (Sparse.get 0 t.pendDec key + 1) }
  | some (n, d) =>
    if d.phase = 0 && d.count ≠ 0 then
      let s := s.mapNode site n fun d => { d with count := d.count - 1 }
      if d.count = 1 then s.fire site n else s
    else s.mapNode site n fun d => { d with pending := d.pending + 1 }

/-- A post (R367, R273): the handle, 0xFFFF_FFFE where it is rejected, 0xFFFF_FFFF where the store is full. -/
def postNode (s : State) (site : Nat) (n : Node) (runtime : Bool) : State × Nat :=
  let st := s.site site
  if !s.recordValid n runtime || (s.liveNode site (nodeKey (nodeHead n))).isSome then (s, 0xFFFFFFFE)
  else if 65536 ≤ (st.nodes.filter fun (_, d) => !d.freed).length then (s, 0xFFFFFFFF)
  else
    let key := nodeKey (nodeHead n)
    let serial := st.nodeNext
    let pend := Sparse.get 0 st.pendDec key
    let s := s.mapSite site fun t =>
      { t with nodes := Sparse.set t.nodes serial { n with key }, nodeNext := serial + 1
               pendDec := Sparse.erase t.pendDec key }
    (s.setCount site serial (nodeInit (nodeHead n)) pend, site % 24 * 2 ^ 27 + key)

/-- FREEG (R368, R369): a node whose completion stands behind it releases nothing either, and its decrements count as lost. -/
def freeGraph (s : State) (site graph : Nat) : State :=
  let mine := fun key => key / 2048 == graph
  let runs := fun (d : Node) => d.phase = 2 && nodeKind (nodeHead d) ≤ 1
  let st := s.site site
  let lost := (st.nodes.filter fun (_, d) => mine d.key).foldl (fun n (_, d) => n + d.pending) 0
    + (st.pendDec.filter fun (k, _) => mine k).foldl (fun n (_, p) => n + p) 0
    + (st.nodes.filter fun (j, d) => mine d.key && !runs d && (s.agenda ++ s.nextCycle).contains (.nodeComplete site j)).foldl
        (fun n (_, d) => n + (releases d).length) 0
  let gone := (st.nodes.filter fun (_, d) => mine d.key && !runs d).map (·.1)
  (s.mapSite site fun t =>
    { t with
      nodes := (t.nodes.filter fun (j, _) => !gone.contains j).map fun (j, d) =>
        (j, if mine d.key then { d with freed := true, pending := 0 } else d)
      ready := t.ready.filter fun j => !gone.contains j
      pendDec := t.pendDec.filter fun (k, _) => !mine k }).lostDec site lost

/-- A node completes (R368): its list is released, then it is armed again or freed. -/
def endNode (s : State) (site n : Nat) (d : Node) (list : List Nat) : State :=
  if d.freed then (s.mapSite site fun t => { t with nodes := Sparse.erase t.nodes n }).lostDec site list.length
  else
    let graph := d.key / 2048
    let s := list.foldl (fun s i => s.decrement site (graph * 2048 + i)) s
    let h := nodeHead d
    if freesGraph d then
      (s.freeGraph site graph).mapSite site fun t => { t with nodes := Sparse.erase t.nodes n }
    else if nodeRearm h then
      let pend := ((s.nodeAt site n).map (·.pending)).getD 0
      s.setCount site n (nodePreset h) pend
    else
      let pend := ((s.nodeAt site n).map (·.pending)).getD 0
      s.mapSite site fun t => { t with nodes := Sparse.erase t.nodes n
                                       pendDec := if pend = 0 then t.pendDec
                                         else Sparse.set t.pendDec d.key (Sparse.get 0 t.pendDec d.key + pend) }

end State

/-! GNODE and GDEC. -/

/-- A node of a record's doublewords. -/
def nodeOf (ws : List Word) (c : CapVal) : Node := { key := 0, body := ws, argCap := c, count := 0 }

/-- GNODE (R273). ARGCAP's tag is kept where the capability holds LDC (R370). -/
def execGnode (d a : BitVec 6) (s : State) : Host.Outcome State Fault Refusal :=
  operands [a] s fun s =>
    let c := s.g a
    checked c c.val 64 [pLD] 64 s fun s => readNow c.val 64 false false s fun as bs s =>
      let ws := (List.range 8).map fun i => BitVec.ofNat 64 (ofBytes ((bs.drop (8 * i)).take 8))
      let tg := hasPerm c.desc pLDC && s.granTag s.cur s.task (nowLoad s.task) (as.getD 16 0 / 16)
      let n := nodeOf ws ⟨ws.getD 2 0, ws.getD 3 0, tg⟩
      let (s, h) := s.postNode (siteOf s.cur) n (s.runtimeAt s.cur)
      retire (s.writeInt d (BitVec.ofNat 64 h) 0)

/-- GDEC (R273). -/
def execGdec (d a : BitVec 6) (s : State) : Host.Outcome State Fault Refusal :=
  operands [a] s fun s =>
    let h := ((s.g a).val.extractLsb' 0 32).toNat
    let site := modOf s.cur * 24 + h / 2 ^ 27
    let no := fun (s : State) => retire (s.writeInt d 0xFFFFFFFF 0)
    if !(s.partSites (s.partAt s.cur)).contains site then no s
    else match s.liveNode site (h % 2 ^ 27) with
      | none => no s
      | some (n, x) =>
        if x.count = 0 || x.phase ≠ 0 then no s
        else retire ((s.decrement site (h % 2 ^ 27)).writeInt d (BitVec.ofNat 64 (((s.nodeAt site n).map (·.count - 1)).getD 0)) 0)

/-! Launches. -/

/-- The completion word (R56). -/
def cwWord (torn status : Nat) : Word := BitVec.ofNat 64 (sat32 torn * 2 ^ 32 + status)

/-- A held node whose access is abandoned (R439): its graph is freed, with a machine check of class GRAPH. The decrements that
a COND or LOOP gives up are counted as those of list A (DEDUCED, log 57). -/
def State.nodeFail (s : State) (site n va : Nat) : State :=
  match s.nodeAt site n with
  | none => s
  | some d =>
    let s := s.freeGraph site (d.key / 2048)
    let s := { s with grids := s.grids.filter fun (_, g) => g.node != some (site, n) }
    let s := (s.mapSite site fun t => { t with nodes := Sparse.erase t.nodes n }).lostDec site (listA d).length
    s.machineCheckWith site 8 1 (agentGw site) va (some (BitVec.ofNat 64 (site % 24 * 2 ^ 27 + d.key)))

/-- An access of the sequencer (R439): a fault holds its node. One that waits for a locked tile (R158) or for the host (R418,
R420) goes on with `again`. One of HOST memory that no live port reaches (R414), which has no task to take CAP, ends as by
FAIL, with `fail` (log 99). -/
def seqAccess (site n : Nat) (va : Word) (acc : Access) (again : Event) (s : State)
    (ok : Nat → State → Host.Outcome State Fault Refusal) : Host.Outcome State Fault Refusal :=
  let part := (s.partOfSite site).getD 0
  if s.faultOpen site part va.toNat then .next (s.openFault (.node site n) va.toNat 0 acc)
  else match s.agentXlate part true site (s.outsideHome part va.toNat) va.toNat acc with
  | (s, .inl a) =>
    let as := addrRange a 8
    if 2 ^ 45 ≤ a && a < 2 ^ 48 && (s.portOf site).isNone then .next (s.nodeFail site n va.toNat)
    else if s.tileLocked as then .next (s.again again)
    else match s.hostHold site as (accWrites acc) again with
    | some s => .next s
    | none => ok a (s.hostUse site as (accWrites acc))
  | (s, .inr c) => .next (if c = fWAIT then s.again again else s.openFault (.node site n) va.toNat c acc)

/-- A doubleword written by the sequencer. -/
def State.seqWrite (s : State) (a : Nat) (w : Word) : State := s.performWrite ((addrRange a 8).zip (bytesOf 8 w.toNat)) []

/-- A message of the sequencer to a core of a grid (R372). -/
def State.startMsg (s : State) (site gk idx x y cls : Nat) (g1 : Word) (c : CapVal) : State × Message :=
  let n := (s.site site).seqSeq
  (s.mapSite site fun t => { t with seqSeq := (t.seqSeq + 1) % 65536 },
   { noMsg with id := siteMsgId 2 site 0 n, src := site * 1024, cls, a1 := g1, cap := if c.tag then c else ⟨0, 0, false⟩
                team := some (gk, idx), pos := (x, y), release := true, counted := some gk })

/-- A new team of a grid, waiting with its mail drop open (R372). -/
def newTeam (gk idx part image w h cls drop : Nat) : Team :=
  { grid := gk, idx, part, image, w, h, cls, dropSize := drop }

/-- Whether the partition holds the teams of a gang even when empty (R49). -/
def State.gangFits (s : State) (part : Nat) (uids : List Nat) : Bool :=
  let placed := s.teams.filter fun (u, t) => t.part == part && s.holdsRect u t && !(s.imageOf t).hod && !s.isRuntime t
  let s := placed.foldl (fun s (u, t) => s.unplace u t) s
  let empty := fun (b : Bank) =>
    if b.mode == BankMode.fifo || (b.mode == BankMode.scratch && !b.units.isEmpty) then b
    else { b with mode := BankMode.cache, units := [] }
  let s := { s with banks := Sparse.mapVals empty s.banks }
  (uids.foldl (fun os u => os.bind (·.placeTeam u)) (some s)).isSome

/-- The initial work of a grid (R372): its messages, each to the mail drop of its team, and the ranges of its pallets. -/
def State.startGrid (s : State) (site gk : Nat) (n : Node) (first w h : Nat) : State :=
  let units := launchUnits n
  let cores := launchTeams n * w * h
  let count := if launchRange n then cores else units
  let s := if !launchRange n then s else (List.range cores).foldl (fun s k =>
    let lo := k * units / cores
    let hi := (k + 1) * units / cores
    if hi ≤ lo then s
    else s.mapTeam (first + k / (w * h)) fun t => { t with start := Sparse.set t.start (k % (w * h)) ⟨lo, hi, 0⟩ }) s
  (List.range count).foldl (fun s u =>
    let k := u % cores
    let i := k % (w * h)
    let (s, m) := s.startMsg site gk (k / (w * h)) (i % w) (i / w) (launchClass n) (BitVec.ofNat 64 u) n.argCap
    (s.workUp (some gk)).push (.maildropAppend (first + k / (w * h)) m)) s

/-- A LAUNCH fires (R371): EMPTY, RANGE, UNPLACEABLE, or a new grid in the placement queue. -/
def State.launchNode (s : State) (site serial : Nat) (n : Node) : State × Option Nat :=
  let img : Image := Sparse.get {} s.images (launchImage n)
  let w := launchW n img
  let h := launchH n img
  let part := (s.partOfSite site).getD 0
  if launchUnits n = 0 then (s, some 1)
  else if 2 ^ 24 < launchUnits n then (s, some 2)
  else
    let gk := part * 2 ^ 32 + (s.part part).gridNext
    let first := s.teamNext
    let uids := (List.range (launchTeams n)).map (first + ·)
    let g : Grid := { part, image := launchImage n, teams := uids, w, h, cls := launchClass n, oversub := img.oversub
                      cwaddr := (nodeD n 5).toNat, node := some (site, serial) }
    let s' := { s with
      grids := Sparse.set s.grids gk g
      teamNext := first + launchTeams n
      teams := (List.range (launchTeams n)).foldl (fun m i =>
        Sparse.set m (first + i) (newTeam gk i part (launchImage n) w h (launchClass n) (launchDrop n))) s.teams }
    if !img.oversub && !s'.gangFits part uids then (s, some 4)
    else
      let s := s'.mapPart part fun p => { p with gridNext := (p.gridNext + 1) % 2 ^ 32 }
      let s := s.startGrid site gk n first w h
      (uids.foldl (fun s u => s.enqueueTeam u) s, none)

/-! Nodes that run. -/

/-- An MSI-X vector sent by a port, if MSI-X is enabled (R416). -/
def Port.interrupt (p : Port) (v : Nat) : Port := if p.msixOn then { p with msix := p.msix ++ [v] } else p

/-- The host notification of a graph (R416): an NSTAT bit at the port that serves the site, with MSI-X vector 0 when it
rises; dropped with no live port (R414). -/
def State.notify (s : State) (site graph : Nat) : State :=
  match s.portOf site with
  | none => s
  | some k =>
    s.mapModule (site / 24) fun m =>
      let p : Port := Sparse.get {} m.ports k
      let bit := (1 : Word) <<< (graph % 64)
      let p' := { (if p.nstat &&& bit = 0 then p.interrupt 0 else p) with nstat := p.nstat ||| bit }
      { m with ports := Sparse.set m.ports k p' }

/-- The access that a started node makes (R366, R371, R439), repeated until it is made: the completion word of a LAUNCH that
created no grid, the predicate of a COND, the word of a SIGNAL or WAIT. -/
def nodeAccess (site n : Nat) (d : Node) (s : State) : Host.Outcome State Fault Refusal :=
  let again := Event.waitPoll site n
  let done := fun (s : State) => Host.Outcome.next
    ((s.mapNode site n fun d => { d with due := none }).push (.nodeComplete site n))
  match nodeKind (nodeHead d) with
  | 0 => seqAccess site n (nodeD d 5) .write again s fun a s => done (s.seqWrite a (cwWord 0 (d.due.getD 0)))
  | 2 => seqAccess site n (nodeD d 1) .read again s fun a s =>
      let w := s.readWord a
      done (s.mapNode site n fun d => { d with loop := if w &&& nodeD d 2 = 0 then 1 else 0 })
  | 4 => seqAccess site n (nodeD d 1) (if nodeD d 3 = 0 then .write else .amo) again s fun a s =>
      let s := s.seqWrite a (if nodeD d 3 = 0 then nodeD d 2 else s.readWord a + nodeD d 2)
      done (if (nodeD d 4).getLsbD 1 then s.notify site (d.key / 2048) else s)
  | _ =>
    let s := s.mapNode site n fun d => { d with lastPoll := (s.site site).fab }
    seqAccess site n (nodeD d 1) .read again s fun a s =>
      if s.readWord a &&& nodeD d 2 = nodeD d 3 then done s else .next s

/-- What a started node does (R366). -/
def runNode (site n : Nat) (d : Node) (s : State) : Host.Outcome State Fault Refusal :=
  let done := fun (s : State) => .next (s.push (.nodeComplete site n))
  let access := fun (d : Node) (s : State) => nodeAccess site n d (s.mapNode site n fun e => { e with due := d.due })
  match nodeKind (nodeHead d) with
  | 0 =>
    match s.launchNode site n d with
    | (s, none) => .next s
    | (s, some st) => if nodeD d 5 = 0 then done s else access { d with due := some st } s
  | 1 =>
    let r : HodReq := { (s.newHodReq .copy noMsg) with
      core := site * 1024, part := (s.partOfSite site).getD 0, sup := true, dst := (nodeD d 2).toNat
      src := (nodeD d 1).toNat, len := (nodeD d 3).toNat, node := some (site, n) }
    let (hs, hl) := s.hodHome r
    .next (s.route (agentGw site) (agentHod hs hl) 1 0 (.hodRequest { r with hod := some (hs, hl) }))
  | 3 =>
    let c := d.loop + 1
    done (s.mapNode site n fun d => { d with loop := if c < (nodeD d 1).toNat then c else 0 })
  | _ => access { d with due := some 0 } s

/-- NODE_START (R368): the first node of the ready queue starts, at most one every 16 fabric cycles, unless a checkpoint stops
the sequencer (R423). -/
def execNodeStart (site : Nat) (s : State) : Host.Outcome State Fault Refusal :=
  let t := s.site site
  if s.paused (site / 24) || !t.live then .next s
  else match t.ready with
    | [] => .next s
    | n :: rest =>
      if t.started.any (t.fab < · + 16) then .next (s.again (.nodeStart site))
      else
      let s := s.mapSite site fun t => { t with ready := rest, started := some t.fab }
      let s := if rest.isEmpty then s else s.pushOnce (.nodeStart site)
      match s.nodeAt site n with
      | none => .next s
      | some d => runNode site n d (s.mapNode site n fun d => { d with phase := 2 })

/-- WAIT_POLL (R366, R439): the access of a started node that is still to be made: a WAIT's read of its word every 1,024 fabric
cycles, or an access that has waited or faulted. -/
def execWaitPoll (site handle : Nat) (s : State) : Host.Outcome State Fault Refusal :=
  match s.nodeAt site handle with
  | none => .next s
  | some d => if d.due.isNone || d.phase ≠ 2 || d.hold.isSome then .next s else nodeAccess site handle d s

/-- NODE_COMPLETE (R368): a COPY writes its status doubleword first (R366). -/
def execNodeComplete (site handle : Nat) (s : State) : Host.Outcome State Fault Refusal :=
  match s.nodeAt site handle with
  | none => .next s
  | some d =>
    if d.phase ≠ 2 || d.hold.isSome then .next s
    else
      let fin := fun (s : State) => .next (s.endNode site handle d (releases d))
      if nodeKind (nodeHead d) = 1 && nodeD d 5 ≠ 0 then
        seqAccess site handle (nodeD d 5) .write (.nodeComplete site handle) s fun a s =>
          fin (s.seqWrite a (BitVec.ofNat 64 d.loop))
      else fin s

/-! Grids. -/

/-- A grid is complete (R55, R144): no work, no task, no outstanding operation, no pallet entry. -/
def State.gridDone (s : State) (gk : Nat) (g : Grid) : Bool :=
  let quiet := fun (c : Ctx) => !c.occupied && c.pend.isEmpty && c.sack == 0 && (State.nextOut c).isNone
  g.work == 0 && (s.teams.filter fun (_, t) => t.grid == gk).all fun (u, t) =>
    (t.state == .ended || (t.start.isEmpty && (t.saved.getD []).all fun (_, c) => c.pallet.isEmpty))
      && (!s.holdsRect u t || (State.teamCores t).all fun k =>
        (t.state == .ended || ((s.core k).ni.pallet.isEmpty && (s.core k).ni.places == 0))
          && (s.core k).ctxs.all fun (_, c) => quiet c)

/-- The teams of a complete grid end (R375). -/
def State.endGrid (s : State) (gk : Nat) (g : Grid) : State :=
  let mine := s.teams.filter fun (_, t) => t.grid == gk
  let s := mine.foldl (fun s (u, t) =>
    let s := s.forgetFlags t
    if !s.holdsRect u t then s
    else
      let s := (State.teamCores t).foldl (fun s k =>
        let q := (s.core k).ni.queue
        q.foldl (fun s e => s.stray k e.msg) (s.noticeAll k)) s
      s.unplace u t) s
  let s := { s with teams := s.teams.filter fun (_, t) => t.grid != gk }
  (s.mapPart g.part fun p => { p with queue := p.queue.filter fun u => !(mine.any fun (v, _) => v == u) }).push
    (.teamPlace g.part)

/-- GRID_COMPLETE (R55, R56): a complete grid's teams end, its completion word is written, and its node completes. A grid that
has lost a team is LOST, even where another was killed (DESIGN CHOICE, log 83). -/
def execGridComplete (grid : Nat) (s : State) : Host.Outcome State Fault Refusal :=
  match Sparse.find s.grids grid with
  | none => .next s
  | some g =>
    if g.status.isNone && !s.gridDone grid g then .next s
    else
      let st := g.status.getD (if g.lost then 5 else if g.killed then 3 else 0)
      let s := if g.status.isSome then s
        else (s.endGrid grid g).mapGrid grid fun g => { g with status := some st }
      let fin := fun (s : State) =>
        let s := { s with grids := Sparse.erase s.grids grid }
        match g.node with
        | some (site, n) => .next (s.push (.nodeComplete site n))
        | none => .next s
      match g.node with
      | some (site, n) =>
        if g.cwaddr = 0 then fin s
        else if (s.nodeAt site n).any (·.hold.isSome) then .next s
        else seqAccess site n (BitVec.ofNat 64 g.cwaddr) .write (.gridComplete grid) s fun a s =>
          fin (s.seqWrite a (cwWord g.torn st))
      | none => fin s

/-! Posts by the host. -/

/-- ARGCAP of a posted LAUNCH (R417): bounded and narrowed from the partition's root; none where the bounds are not
exact. -/
def postCap (base d3 : Word) : Option CapVal :=
  let len := (d3.extractLsb' 0 48).toNat
  let root : Reg := { val := base, desc := mkDesc (BitVec.allOnes 12) 0 47 0 0, tag := true }
  let c := cboundReg root len
  let perms := d3.extractLsb' 52 12 &&& ~~~permSet [pSYS, pSEAL, pUNSEAL, pSENDABS]
  if c.tag && capBounds c.desc c.val == (base.toNat, base.toNat + len) then
    some ⟨c.val, reDesc c.desc perms 0, true⟩
  else none

/-- The node of a posted record: LAUNCH bodies name their argument capability by base, length and permissions. -/
def postedNode (ws : List Word) : Option Node :=
  if nodeKind (ws.getD 0 0) ≠ 0 then some (nodeOf ws ⟨0, 0, false⟩)
  else if (ws.getD 3 0).extractLsb' 48 4 != 0 then none
  else (postCap (ws.getD 2 0) (ws.getD 3 0)).map (nodeOf ws)

def State.mapPort (s : State) (mod k : Nat) (f : Port → Port) : State :=
  s.mapModule mod fun m => { m with ports := Sparse.set m.ports k (f (Sparse.get {} m.ports k)) }

def State.port (s : State) (mod k : Nat) : Port := Sparse.get {} (s.module mod).ports k

/-- Host writes to a module's memory that are not performed yet: a GO waits for those that came before it (R417). -/
def State.hostWritesDue (s : State) (mod : Nat) : Bool :=
  (s.agenda ++ s.nextCycle ++ (s.module mod).ck.stalled).any fun e => match e with
    | .hostWrite p _ _ => p.mod == mod
    | _ => false

/-- POST_GO (R416, R417): once the host's writes have been performed the record of POSTREC is posted to the sequencer of SITE,
and POSTSTAT tells the outcome. -/
def execPostGo (mod port : Nat) (s : State) : Host.Outcome State Fault Refusal :=
  let p := s.port mod port
  let site := mod * 24 + p.goSite
  let fin := fun (s : State) (code handle : Nat) =>
    .next (s.mapPort mod port fun p => { p with postBusy := false, postCode := code, postHandle := handle })
  if !p.postBusy then .next s
  else if s.hostWritesDue mod then .next (s.again (.postGo mod port))
  else if 24 ≤ p.goSite || (s.partOfSite site).isNone || !(s.site site).live then fin s 2 0
  else match postedNode ((List.range 8).map fun i => Sparse.get 0 p.postrec i) with
    | none => fin s 1 0
    | some n =>
      match s.postNode site n false with
      | (s, h) => if h = 0xFFFFFFFE then fin s 1 0 else if h = 0xFFFFFFFF then fin s 3 0 else fin s 0 h

/-! The end of a translation fault. -/

/-- A held node whose access is repeated (R439). -/
def State.nodeRetry (s : State) (site n : Nat) : State :=
  match s.nodeAt site n with
  | none => s
  | some d =>
    let s := s.mapNode site n fun d => { d with hold := none }
    match nodeKind (nodeHead d), s.grids.find? fun (_, g) => g.node == some (site, n) with
    | 0, some (gk, _) => s.push (.gridComplete gk)
    | 1, _ => s.push (.nodeComplete site n)
    | _, _ => s.push (.waitPoll site n)

/-- The PUT that a context's NI sends next is given up: its task, where it still runs, takes CAP. -/
def State.dropPut (s : State) (k x va : Nat) : State :=
  let t := s.ctxAt k x
  let s' := s.sent k x
  if State.sendsOwn t then s'.takeTrap k x cCAP 0 (State.instrPc t) (BitVec.ofNat 64 va) false else s'

/-- A context's NI goes on sending (R389): its PUT again, or, after FAIL, what follows it. The PUT's task, where it still runs,
takes CAP; a PUT whose task has ended is given up (DESIGN CHOICE, log 111). -/
def State.endPut (s : State) (k x va : Nat) (handle : Nat) (ok : Bool) : State :=
  let s := s.mapCtx k x fun t => { t with sendHold := none, hold := if t.hold == some handle then none else t.hold }
  if ok then s.kick k x else s.dropPut k x va

/-- Every waiter of a handle goes on (R389): RETRY repeats, FAIL takes CAP with the faulting address. A transaction that a
conflict has removed meanwhile aborts instead, with HELD (R162). A handle that is not open is ignored. -/
def State.endFault (s : State) (handle : Nat) (ok : Bool) : State :=
  let st := handle / 2 ^ 32 * 24 + handle % 2 ^ 32 / 2 ^ 27
  match Sparse.find (s.site st).faults (handle % 2 ^ 32) with
  | none => s
  | some f =>
    let s := s.mapSite st fun t => { t with faults := Sparse.erase t.faults (handle % 2 ^ 32) }
    f.waiters.foldl (fun s a => match a with
      | .ctx k x =>
        let s := s.mapCtx k x fun t => { t with hold := none }
        let t := s.ctxAt k x
        match t.txn.bind (·.removed) with
        | some c => (s.abortTxn k x c 0 true).kick k x
        | none =>
          if ok then s.kick k x
          else if t.occupied then s.takeTrap k x cCAP 0 (State.instrPc t) (BitVec.ofNat 64 f.va) false
          else s
      | .ni k x => s.endPut k x f.va handle ok
      | .hod r => s.push (if ok then .hodRequest r else .hodCompletion r (compWord r 2))
      | .bag b => if ok then s.push (partStep b) else s.endPart b 2
      | .node site n => if ok then s.nodeRetry site n else s.nodeFail site n f.va) s

/-- FLTDONE with RETRY (R389); the handle has the module's number above it. -/
def execFltdoneRetry (handle : Nat) (s : State) : Host.Outcome State Fault Refusal := .next (s.endFault handle true)

/-- FLTDONE with FAIL (R389). -/
def execFltdoneFail (handle : Nat) (s : State) : Host.Outcome State Fault Refusal := .next (s.endFault handle false)

end Sys2Proof.Machine
end

