-- ==== Sys2Proof/Machine/Vec.lean ====
section
/-!
DEFINITION. Vector operands, lane-wise integer instructions, VSEL, permutations and mask instructions (R275 to R279,
R283, R286, R289, R291).
-/
namespace Sys2Proof.Machine

/-! Lanes. -/

/-- Lane width in bits of a width code (R170). -/
def laneBits (w : BitVec 2) : Nat := 8 * 2 ^ w.toNat

/-- Lane `i` of `w` bits. -/
def lane (w : Nat) (v : VWord) (i : Nat) : Nat := v.toNat / 2 ^ (w * i) % 2 ^ w

/-- Every lane of a vector, from lane 0. -/
def lanes (w : Nat) (v : VWord) : List Nat := (List.range (512 / w)).map (lane w v)

/-- The vector with the given lanes. -/
def ofLanes (w : Nat) (xs : List Nat) : VWord := BitVec.ofNat 512 (xs.foldr (fun x n => x % 2 ^ w + 2 ^ w * n) 0)

/-- The bytes of a vector, from the lowest. -/
def vecBytes (v : VWord) : List Byte := bytesOf 64 v.toNat

/-- A vector of 64 bytes. -/
def vecOf (bs : List Byte) : VWord := BitVec.ofNat 512 (ofBytes bs)

/-- A vector source (R175, R276): a register, which must not be busy, or a pop. -/
def vsrc (f : BitVec 6) (s : State) (ok : VReg → State → Host.Outcome State Fault Refusal) :
    Host.Outcome State Fault Refusal :=
  if f.toNat < 32 then
    if s.busyV f.toNat then stall s else ok (s.v f.toNat) s
  else pop (f.toNat - 32) false s fun e s => ok { val := vecOf e.bytes, taint := e.taint } s

/-- A vector result (R275, R276): active lanes of a register are written, and a stream gets the whole vector with zeros
in inactive lanes. `merge` says that the destination's previous taint joins the new one. -/
def vdst (d : BitVec 6) (w : Nat) (mask : MReg) (merge : Bool) (new : List Nat) (taint : BitVec 8) (s : State) :
    Host.Outcome State Fault Refusal :=
  let pick := fun (old : List Nat) => (old.zip new).zipIdx.map fun ((o, n), i) => if mask.val.getLsbD i then n else o
  let taint := taint ||| mask.taint
  if d.toNat < 32 then
    let old := s.v d.toNat
    retire (s.writeV d.toNat
      { val := ofLanes w (pick (lanes w old.val)), taint := if merge then taint ||| old.taint else taint })
  else append (d.toNat - 32) (vecBytes (ofLanes w (pick (List.replicate (512 / w) 0)))) taint s retire

/-- A vector instruction of some sources, and of a destination where that is a vector field. -/
def vrun (srcs : List (BitVec 6)) (dst : Option (BitVec 6)) (s : State) (run : Host.Outcome State Fault Refusal) :
    Host.Outcome State Fault Refusal :=
  streaming (streamsOf srcs) (streamsOf dst.toList).head? false s run

/-- A lane-wise instruction of two vector sources (R275). -/
def vop2 (w : Nat) (f : Nat → Nat → Nat) (d a b : BitVec 6) (m : BitVec 3) (s : State) :
    Host.Outcome State Fault Refusal :=
  vrun [a, b] (some d) s (vsrc a s fun x s => vsrc b s fun y s =>
    vdst d w (s.m m.toNat) (m != 0) (((lanes w x.val).zip (lanes w y.val)).map fun (p, q) => f p q) (x.taint ||| y.taint) s)

/-- A signed lane. -/
def sLane (w n : Nat) : Int := intOf w true n

/-! Integer lanes (R283). -/

/-- VADD (R283). -/
def execVadd (d a b : BitVec 6) (m : BitVec 3) (w : BitVec 2) (s : State) : Host.Outcome State Fault Refusal :=
  vop2 (laneBits w) (fun x y => (x + y) % 2 ^ laneBits w) d a b m s
/-- VSUB (R283). -/
def execVsub (d a b : BitVec 6) (m : BitVec 3) (w : BitVec 2) (s : State) : Host.Outcome State Fault Refusal :=
  vop2 (laneBits w) (fun x y => (x + 2 ^ laneBits w - y) % 2 ^ laneBits w) d a b m s
/-- VMUL (R283). -/
def execVmul (d a b : BitVec 6) (m : BitVec 3) (w : BitVec 2) (s : State) : Host.Outcome State Fault Refusal :=
  vop2 (laneBits w) (fun x y => x * y % 2 ^ laneBits w) d a b m s
/-- VMULH (R283): the high half of the signed product. -/
def execVmulh (d a b : BitVec 6) (m : BitVec 3) (w : BitVec 2) (s : State) : Host.Outcome State Fault Refusal :=
  let n := laneBits w
  vop2 n (fun x y => natOf n (sLane n x * sLane n y / 2 ^ n)) d a b m s
/-- VSHL (R283). -/
def execVshl (d a b : BitVec 6) (m : BitVec 3) (w : BitVec 2) (s : State) : Host.Outcome State Fault Refusal :=
  vop2 (laneBits w) (fun x y => x * 2 ^ (y % laneBits w) % 2 ^ laneBits w) d a b m s
/-- VSHR (R283). -/
def execVshr (d a b : BitVec 6) (m : BitVec 3) (w : BitVec 2) (s : State) : Host.Outcome State Fault Refusal :=
  vop2 (laneBits w) (fun x y => x / 2 ^ (y % laneBits w)) d a b m s
/-- VSRA (R283). -/
def execVsra (d a b : BitVec 6) (m : BitVec 3) (w : BitVec 2) (s : State) : Host.Outcome State Fault Refusal :=
  let n := laneBits w
  vop2 n (fun x y => natOf n (sLane n x / 2 ^ (y % n))) d a b m s
/-- VAND (R283): 64-bit lanes. -/
def execVand (d a b : BitVec 6) (m : BitVec 3) (s : State) : Host.Outcome State Fault Refusal :=
  vop2 64 (fun x y => x &&& y) d a b m s
/-- VOR (R283). -/
def execVor (d a b : BitVec 6) (m : BitVec 3) (s : State) : Host.Outcome State Fault Refusal :=
  vop2 64 (fun x y => x ||| y) d a b m s
/-- VXOR (R283). -/
def execVxor (d a b : BitVec 6) (m : BitVec 3) (s : State) : Host.Outcome State Fault Refusal :=
  vop2 64 (fun x y => x ^^^ y) d a b m s
/-- VMIN (R283): signed. -/
def execVmin (d a b : BitVec 6) (m : BitVec 3) (w : BitVec 2) (s : State) : Host.Outcome State Fault Refusal :=
  let n := laneBits w
  vop2 n (fun x y => if sLane n y < sLane n x then y else x) d a b m s
/-- VMAX (R283): signed. -/
def execVmax (d a b : BitVec 6) (m : BitVec 3) (w : BitVec 2) (s : State) : Host.Outcome State Fault Refusal :=
  let n := laneBits w
  vop2 n (fun x y => if sLane n x < sLane n y then y else x) d a b m s

/-- VSEL (R286): every lane is written, and the mask only selects. -/
def execVsel (d a b : BitVec 6) (m : BitVec 3) (w : BitVec 2) (s : State) : Host.Outcome State Fault Refusal :=
  let n := laneBits w
  vrun [a, b] (some d) s (vsrc a s fun x s => vsrc b s fun y s =>
    let k := s.m m.toNat
    let out := ((lanes n x.val).zip (lanes n y.val)).zipIdx.map fun ((p, q), i) => if k.val.getLsbD i then p else q
    vdst d n ⟨BitVec.allOnes 64, k.taint⟩ false out (x.taint ||| y.taint) s)

/-! Permutations (R289). -/

/-- VSHUF (R289). -/
def execVshuf (d a b : BitVec 6) (m : BitVec 3) (w : BitVec 2) (s : State) : Host.Outcome State Fault Refusal :=
  let n := laneBits w
  vrun [a, b] (some d) s (vsrc a s fun x s => vsrc b s fun y s =>
    vdst d n (s.m m.toNat) true ((lanes n y.val).map fun k => (lanes n x.val).getD k 0) (x.taint ||| y.taint) s)

/-- VBCAST (R289). -/
def execVbcast (d a : BitVec 6) (m : BitVec 3) (w : BitVec 2) (s : State) : Host.Outcome State Fault Refusal :=
  let n := laneBits w
  if s.busyG a then stall s
  else vrun [] (some d) s (vdst d n (s.m m.toNat) true (List.replicate (512 / n) ((s.g a).val.toNat % 2 ^ n)) (s.g a).taint s)

/-- VEXTR (R289): the lane zero-extended into gd; gb is read before a pop of va moves its stream's registers (R80). -/
def execVextr (d a b : BitVec 6) (w : BitVec 2) (s : State) : Host.Outcome State Fault Refusal :=
  let n := laneBits w
  let c := s.g b
  if s.busyG b then stall s
  else vrun [a] none s (vsrc a s fun x s =>
    retire (s.writeInt d (BitVec.ofNat 64 (lane n x.val (c.val.toNat % (512 / n)))) (x.taint ||| c.taint)))

/-- VINS (R289): one lane, where the mask allows it; vd is read, and is no stream. -/
def execVins (d a b : BitVec 6) (m : BitVec 3) (w : BitVec 2) (s : State) : Host.Outcome State Fault Refusal :=
  let n := laneBits w
  if s.busyV d.toNat || s.busyG a || s.busyG b then stall s
  else
    let k := s.m m.toNat
    let i := (s.g b).val.toNat % (512 / n)
    let only : MReg := ⟨if k.val.getLsbD i then (1 : Word) <<< i else 0, k.taint⟩
    vdst d n only true (List.replicate (512 / n) ((s.g a).val.toNat % 2 ^ n)) ((s.g a).taint ||| (s.g b).taint) s

/-- VSLIDE (R289), with gb as at issue. -/
def execVslide (d a b : BitVec 6) (m : BitVec 3) (w : BitVec 2) (s : State) : Host.Outcome State Fault Refusal :=
  let n := laneBits w
  let c := s.g b
  if s.busyG b then stall s
  else vrun [a] (some d) s (vsrc a s fun x s =>
    let k := c.val.toInt
    let xs := lanes n x.val
    let out := (List.range (512 / n)).map fun i => if 0 ≤ (i : Int) + k then xs.getD ((i : Int) + k).toNat 0 else 0
    vdst d n (s.m m.toNat) true out (x.taint ||| c.taint) s)

/-! Masks (R291). -/

/-- A mask result of two masks. -/
def maskOp (f : Word → Word → Word) (d a b : BitVec 6) (s : State) : Host.Outcome State Fault Refusal :=
  let x := s.m a.toNat
  let y := s.m b.toNat
  retire (s.writeM d.toNat ⟨f x.val y.val, x.taint ||| y.taint⟩)

/-- MAND (R291). -/
def execMand (d a b : BitVec 6) (s : State) : Host.Outcome State Fault Refusal := maskOp (· &&& ·) d a b s
/-- MOR (R291). -/
def execMor (d a b : BitVec 6) (s : State) : Host.Outcome State Fault Refusal := maskOp (· ||| ·) d a b s
/-- MXOR (R291). -/
def execMxor (d a b : BitVec 6) (s : State) : Host.Outcome State Fault Refusal := maskOp (· ^^^ ·) d a b s

/-- MNOT (R291). -/
def execMnot (d a : BitVec 6) (s : State) : Host.Outcome State Fault Refusal :=
  retire (s.writeM d.toNat ⟨~~~(s.m a.toNat).val, (s.m a.toNat).taint⟩)

/-- MPOPC (R291). -/
def execMpopc (d a : BitVec 6) (s : State) : Host.Outcome State Fault Refusal :=
  let x := s.m a.toNat
  retire (s.writeInt d (BitVec.ofNat 64 ((List.range 64).filter fun i => x.val.getLsbD i).length) x.taint)

/-- MFIRST (R291). -/
def execMfirst (d a : BitVec 6) (s : State) : Host.Outcome State Fault Refusal :=
  let x := s.m a.toNat
  retire (s.writeInt d (BitVec.ofNat 64 (((List.range 64).find? fun i => x.val.getLsbD i).getD 64)) x.taint)

end Sys2Proof.Machine
end

