-- ==== Sys2Proof/Machine/VecFloat.lean ====
section
/-!
DEFINITION. Vector floating point, compare, conversion, reductions and scans (R101, R102, R278, R284, R285, R287,
R288, R290).
-/
namespace Sys2Proof.Machine

/-- The type of a floating-point lane operation (R284). -/
def laneFmt (t : BitVec 2) : Fmt :=
  match t.toNat with
  | 0 => fmt64
  | 1 => fmt32
  | 2 => fmt16
  | _ => fmtBf16

/-- Lanes rounded in ascending order (R278, R89): an inactive lane takes no part. -/
def roundLanes (f : Fmt) (mode : Nat) (sat : Bool) : List (Option (Exact × BitVec 5)) → FpEnv → List Nat × FpEnv
  | [], env => ([], env)
  | none :: t, env =>
    let (xs, env) := roundLanes f mode sat t env
    (0 :: xs, env)
  | some (v, fl) :: t, env =>
    let (c, env) := env.round f mode sat v fl
    let (xs, env) := roundLanes f mode sat t env
    (c :: xs, env)

/-- FPSTAT after an instruction's roundings. -/
def State.putFp (s : State) (env : FpEnv) : State := s.mapTask fun t => { t with fpstat := env.put t.fpstat }

/-- Whether lane `i` is active under a mask. -/
def active (m : MReg) (i : Nat) : Bool := m.val.getLsbD i

/-- A lane-wise floating operation of two sources and, with `fma`, the destination (R284). -/
def fop (f : Fmt) (op : Exact → Exact → Exact → Exact × BitVec 5) (fma : Bool) (d a b : BitVec 6) (m : BitVec 3) (s : State) :
    Host.Outcome State Fault Refusal :=
  let w := f.bits
  if fma && s.busyV d.toNat then stall s
  else vrun [a, b] (some d) s (vsrc a s fun x s => vsrc b s fun y s =>
    let k := s.m m.toNat
    let z := if fma then (s.v d.toNat).val else 0
    let ins := (List.range (512 / w)).map fun i =>
      if active k i then
        let (u, su) := f.decode (lane w x.val i)
        let (v, sv) := f.decode (lane w y.val i)
        let (c, sc) := f.decode (lane w z i)
        let (r, fl) := op u v c
        let sig := su || sv || (fma && sc)
        some (if sig then .nan else r, fl ||| snanFlag sig)
      else none
    let mode := fpMode s.task.fpstat
    let (out, env) := roundLanes f mode false ins (FpEnv.of s.task.fpstat)
    vdst d w k (m != 0 || fma) out (x.taint ||| y.taint) (s.putFp env))

/-- VFADD (R284). -/
def execVfadd (d a b : BitVec 6) (m : BitVec 3) (t : BitVec 2) (s : State) : Host.Outcome State Fault Refusal :=
  fop (laneFmt t) (fun x y _ => Exact.sum (fpMode s.task.fpstat) [x, y]) false d a b m s
/-- VFSUB (R284). -/
def execVfsub (d a b : BitVec 6) (m : BitVec 3) (t : BitVec 2) (s : State) : Host.Outcome State Fault Refusal :=
  fop (laneFmt t) (fun x y _ => Exact.sum (fpMode s.task.fpstat) [x, y.neg]) false d a b m s
/-- VFMUL (R284). -/
def execVfmul (d a b : BitVec 6) (m : BitVec 3) (t : BitVec 2) (s : State) : Host.Outcome State Fault Refusal :=
  fop (laneFmt t) (fun x y _ => Exact.mul x y) false d a b m s
/-- VFMA (R284): one rounding of the exact a × b + d; 0 × ∞ raises NV whatever d is. -/
def execVfma (d a b : BitVec 6) (m : BitVec 3) (t : BitVec 2) (s : State) : Host.Outcome State Fault Refusal :=
  fop (laneFmt t) (fun x y z =>
    let (p, fl) := Exact.mul x y
    let (r, fl') := Exact.sum (fpMode s.task.fpstat) [p, z]
    (r, fl ||| fl')) true d a b m s
/-- VFDIV (R284). -/
def execVfdiv (d a b : BitVec 6) (m : BitVec 3) (t : BitVec 2) (s : State) : Host.Outcome State Fault Refusal :=
  fop (laneFmt t) (fun x y _ => Exact.div x y) false d a b m s

/-- VFSQRT (R284). -/
def execVfsqrt (d a : BitVec 6) (m : BitVec 3) (t : BitVec 2) (s : State) : Host.Outcome State Fault Refusal :=
  let f := laneFmt t
  let w := f.bits
  vrun [a] (some d) s (vsrc a s fun x s =>
    let k := s.m m.toNat
    let ins := (List.range (512 / w)).map fun i =>
      if active k i then
        let (u, su) := f.decode (lane w x.val i)
        let (r, fl) := Exact.sqrt u
        some (if su then .nan else r, fl ||| snanFlag su)
      else none
    let (out, env) := roundLanes f (fpMode s.task.fpstat) false ins (FpEnv.of s.task.fpstat)
    vdst d w k (m != 0) out x.taint (s.putFp env))

/-- Flags raised with no rounding (R91). -/
def State.raise (s : State) (fl : BitVec 5) : State :=
  s.putFp { FpEnv.of s.task.fpstat with flags := (FpEnv.of s.task.fpstat).flags ||| fl }

/-- VFMIN and VFMAX (R93): no rounding. -/
def fminmax (isMax : Bool) (d a b : BitVec 6) (m : BitVec 3) (t : BitVec 2) (s : State) : Host.Outcome State Fault Refusal :=
  let f := laneFmt t
  let w := f.bits
  vrun [a, b] (some d) s (vsrc a s fun x s => vsrc b s fun y s =>
    let k := s.m m.toNat
    let rs := (List.range (512 / w)).map fun i =>
      if active k i then fpMinMax f isMax (lane w x.val i) (lane w y.val i) else (0, 0)
    vdst d w k (m != 0) (rs.map (·.1)) (x.taint ||| y.taint) (s.raise (rs.foldl (fun a r => a ||| r.2) 0)))

/-- VFMIN (R284). -/
def execVfmin (d a b : BitVec 6) (m : BitVec 3) (t : BitVec 2) (s : State) : Host.Outcome State Fault Refusal :=
  fminmax false d a b m t s
/-- VFMAX (R284). -/
def execVfmax (d a b : BitVec 6) (m : BitVec 3) (t : BitVec 2) (s : State) : Host.Outcome State Fault Refusal :=
  fminmax true d a b m t s

/-! Compare (R285). -/

/-- An integer condition: 0 EQ, 1 NE, 2 LT, 3 LE, 4 GT, 5 GE, 6 LTU, 7 GEU. -/
def icmp (c w x y : Nat) : Bool :=
  match c with
  | 0 => x == y
  | 1 => x != y
  | 2 => sLane w x < sLane w y
  | 3 => sLane w x ≤ sLane w y
  | 4 => sLane w y < sLane w x
  | 5 => sLane w y ≤ sLane w x
  | 6 => x < y
  | _ => y ≤ x

/-- A floating condition with its flags: 6 is UN. -/
def fcmp (f : Fmt) (c x y : Nat) : Bool × BitVec 5 :=
  let (u, su) := f.decode x
  let (v, sv) := f.decode y
  let nan := u == .nan || v == .nan
  let fl := if su || sv || (nan && 2 ≤ c && c ≤ 5) then flagNV else 0
  let r := match c with
    | 0 => !nan && u.eq v
    | 1 => nan || !u.eq v
    | 2 => !nan && u.lt v
    | 3 => !nan && (u.lt v || u.eq v)
    | 4 => !nan && v.lt u
    | 5 => !nan && (v.lt u || u.eq v)
    | _ => nan
  (r, fl)

/-- The lane width of a VCMP type, and its format where it is a float (R285). -/
def cmpType (t : BitVec 3) : Nat × Option Fmt :=
  match t.toNat with
  | 0 => (8, none)
  | 1 => (16, none)
  | 2 => (32, none)
  | 3 => (64, none)
  | 4 => (64, some fmt64)
  | 5 => (32, some fmt32)
  | 6 => (16, some fmt16)
  | _ => (16, some fmtBf16)

/-- VCMP (R285): bits of inactive lanes, and those beyond the lanes, are zero. -/
def execVcmp (c d : BitVec 3) (a b : BitVec 6) (m t : BitVec 3) (s : State) : Host.Outcome State Fault Refusal :=
  let (w, f) := cmpType t
  vrun [a, b] none s (vsrc a s fun x s => vsrc b s fun y s =>
    let k := s.m m.toNat
    let rs := (List.range (512 / w)).map fun i =>
      if !active k i then (false, 0)
      else match f with
        | none => (icmp c.toNat w (lane w x.val i) (lane w y.val i), 0)
        | some f => fcmp f c.toNat (lane w x.val i) (lane w y.val i)
    let bits := rs.zipIdx.foldl (fun n (r, i) => if r.1 then n + 2 ^ i else n) 0
    let s := s.raise (rs.foldl (fun a r => a ||| r.2) 0)
    retire (s.writeM d.toNat ⟨BitVec.ofNat 64 bits, x.taint ||| y.taint ||| k.taint⟩))

/-! Conversion (R287, R288). -/

/-- Width in bits of an element type (R287). -/
def typeBits (t : Nat) : Nat :=
  match t with
  | 0 => 8
  | 1 => 8
  | 2 => 16
  | 3 => 32
  | 4 => 64
  | 5 => 4
  | 8 => 64
  | 9 => 32
  | 10 => 16
  | 11 => 16
  | 12 => 8
  | 13 => 8
  | _ => 4

/-- Whether a floating conversion can overflow (R288): some finite value of the source exceeds the target's largest. -/
def canOverflow (f g : Fmt) : Bool := (g.decode g.maxCode).1.lt (f.decode f.maxCode).1

/-- One converted element (R288). -/
def convert (src dst : Nat) (sat : Bool) (mode code : Nat) (env : FpEnv) : Nat × FpEnv :=
  match typeFmt src, typeInt src, typeFmt dst, typeInt dst with
  | some f, _, some g, _ =>
    let (v, sig) := f.decode code
    env.round g mode (sat && canOverflow f g) v (snanFlag sig)
  | some f, _, none, some (w, sgn) =>
    let (v, sig) := f.decode code
    env.toIntType w sgn mode v (snanFlag sig)
  | none, some (w, sgn), some g, _ => env.round g mode sat (.ofInt (intOf w sgn code)) 0
  | none, some (w, sgn), none, some (w', sgn') =>
    let i := intOf w sgn code
    (natOf w' (if sat then clampInt w' sgn' i else i), env)
  | _, _, _, _ => (0, env)

/-- The elements of a conversion in order, with the state of the generator. -/
def convertAll (src dst : Nat) (sat : Bool) (mode : Nat) : List (Option Nat) → FpEnv → List Nat × FpEnv
  | [], env => ([], env)
  | none :: t, env =>
    let (xs, env) := convertAll src dst sat mode t env
    (0 :: xs, env)
  | some c :: t, env =>
    let (x, env) := convert src dst sat mode c env
    let (xs, env) := convertAll src dst sat mode t env
    (x :: xs, env)

/-- VCVT (R287, R288). Destination elements outside the group or masked off keep their values. -/
def execVcvt (d a : BitVec 6) (k : BitVec 2) (src : BitVec 4) (m : BitVec 3) (x : BitVec 1) (t : BitVec 4) (s : State) :
    Host.Outcome State Fault Refusal :=
  let ws := typeBits src.toNat
  let wd := typeBits t.toNat
  let ns := 512 / ws
  let nd := 512 / wd
  let g := min ns nd
  let merge := m != 0 || g < nd
  vrun [a] (some d) s (vsrc a s fun v s =>
    let mask := s.m m.toNat
    let on := fun j => active mask (if ws = 4 && wd = 4 then j / 2 else j)
    let sOff := if ws < wd then k.toNat * g else 0
    let dOff := if wd < ws then k.toNat * g else 0
    let ins := (List.range g).map fun j => if on j then some (lane ws v.val (sOff + j)) else none
    let (out, env) := convertAll src.toNat t.toNat (x == 1) (fpMode s.task.fpstat) ins (FpEnv.of s.task.fpstat)
    let old : VWord := if d.toNat < 32 then (s.v d.toNat).val else 0
    let elems := (lanes wd old).zipIdx.map fun (o, i) =>
      if dOff ≤ i && i < dOff + g && on (i - dOff) then out.getD (i - dOff) 0 else o
    vdst d 64 ⟨BitVec.allOnes 64, mask.taint⟩ merge (lanes 64 (ofLanes wd elems)) v.taint (s.putFp env))

/-! Reductions and scans (R290, R101, R102). -/

/-- One combine of two present operands (R101, R290): 0 add, 1 min, 2 max. A floating one is a rounding, which advances
the generator in SR mode (R89). -/
def combine1 (t op mode x y : Nat) (env : FpEnv) : Nat × FpEnv :=
  match typeFmt t, typeInt t with
  | some f, _ =>
    if op = 0 then
      let (u, su) := f.decode x
      let (v, sv) := f.decode y
      let (r, fl) := Exact.sum mode [u, v]
      env.round f mode false (if su || sv then .nan else r) (fl ||| snanFlag (su || sv))
    else
      let (r, fl) := fpMinMax f (op == 2) x y
      (r, { flags := env.flags ||| fl, sr := if mode = 5 then srNext env.sr else env.sr })
  | none, some (w, sgn) =>
    let i := intOf w sgn x
    let j := intOf w sgn y
    (natOf w (if op = 0 then i + j else if op = 1 then min i j else max i j), env)
  | none, none => (0, env)

/-- A combine where an operand may be absent (R101). -/
def combineO (t op mode : Nat) (x y : Option Nat) (env : FpEnv) : Option Nat × FpEnv :=
  match x, y with
  | some x, some y =>
    let (r, env) := combine1 t op mode x y env
    (some r, env)
  | some x, none => (some x, env)
  | none, y => (y, env)

/-- One round of the tree: adjacent pairs combined in ascending order. -/
def treeRound (t op mode : Nat) : List (Option Nat) → FpEnv → List (Option Nat) × FpEnv
  | x :: y :: rest, env =>
    let (r, env) := combineO t op mode x y env
    let (rs, env) := treeRound t op mode rest env
    (r :: rs, env)
  | xs, env => (xs, env)

/-- R101: `rounds` rounds of the tree. -/
def treeReduce (t op mode : Nat) : Nat → List (Option Nat) → FpEnv → Option Nat × FpEnv
  | 0, xs, env => (xs.headD none, env)
  | n + 1, xs, env =>
    let (xs, env) := treeRound t op mode xs env
    treeReduce t op mode n xs env

/-- The identity of an empty reduction (R101, R290). -/
def redIdentity (t op : Nat) : Nat :=
  match typeFmt t, typeInt t with
  | some f, _ => if op = 0 then 0 else if op = 1 then f.infCode else f.infCode + f.signBit true
  | none, some (w, sgn) => if op = 0 then 0 else natOf w (if op = 1 then intMax w sgn else intMin w sgn)
  | none, none => 0

/-- VRED (R290): the result in lane 0, zeros elsewhere; it does not merge. -/
def execVred (d a : BitVec 6) (o : BitVec 2) (t : BitVec 4) (m : BitVec 3) (s : State) : Host.Outcome State Fault Refusal :=
  let w := typeBits t.toNat
  vrun [a] (some d) s (vsrc a s fun v s =>
    let k := s.m m.toNat
    let xs := (lanes w v.val).zipIdx.map fun (x, i) => if active k i then some x else none
    let (r, env) := treeReduce t.toNat o.toNat (fpMode s.task.fpstat) (Nat.log2 (512 / w)) xs (FpEnv.of s.task.fpstat)
    let r := r.getD (redIdentity t.toNat o.toNat)
    vdst d w ⟨BitVec.allOnes 64, k.taint⟩ false (r :: List.replicate (512 / w - 1) 0) v.taint (s.putFp env))

/-- One round of a scan (R102): lane j ≥ d takes Combine(t<j−d>, t<j>), with its flags and its draw from the generator also
where lane j is inactive as a destination (R290; DEDUCED, log 108). -/
def scanRound (t op mode d : Nat) (xs : List (Option Nat)) (env : FpEnv) : List (Option Nat) × FpEnv :=
  let go := xs.zipIdx.foldl (fun (acc : List (Option Nat) × FpEnv) (y, j) =>
    if j < d then (acc.1 ++ [y], acc.2)
    else
      let (r, env) := combineO t op mode (xs.getD (j - d) none) y acc.2
      (acc.1 ++ [r], env)) ([], env)
  go

/-- VSCAN (R290, R102): it merges, and inactive lanes keep their values. -/
def execVscan (d a : BitVec 6) (o : BitVec 2) (t : BitVec 4) (m : BitVec 3) (s : State) : Host.Outcome State Fault Refusal :=
  let w := typeBits t.toNat
  vrun [a] (some d) s (vsrc a s fun v s =>
    let k := s.m m.toNat
    let xs := (lanes w v.val).zipIdx.map fun (x, i) => if active k i then some x else none
    let mode := fpMode s.task.fpstat
    let (out, env) := (List.range (Nat.log2 (512 / w))).foldl (fun (acc : List (Option Nat) × FpEnv) i =>
      scanRound t.toNat o.toNat mode (2 ^ i) acc.1 acc.2) (xs, FpEnv.of s.task.fpstat)
    vdst d w k true (out.map fun x => x.getD 0) v.taint (s.putFp env))

end Sys2Proof.Machine
end

