-- ==== Sys2Proof/Machine/VecMem.lean ====
section
/-!
DEFINITION. Vector memory (R280 to R282), and the accesses of several pieces that it shares with MLD and MST.
-/
namespace Sys2Proof.Machine

/-- Every piece checked in order; the first failure traps (R281, R307). -/
def checkPieces (c : Reg) (perm align : Nat) (xs : List Piece) (s : State)
    (ok : State → Host.Outcome State Fault Refusal) : Host.Outcome State Fault Refusal :=
  match xs.findSome? fun (x, n) => (capFault (s.supAt s.cur) c x n [perm] align).map fun cause => (cause, x) with
  | some (cause, x) => trap cause x s
  | none => ok s

/-- The place a load of several pieces is sent to: another core's share first (R281), else the first in memory. -/
def piecesPlace (ls : List Located) : Place :=
  match ls.find? fun l => remoteShare l.place with
  | some l => l.place
  | none => match ls.find? fun l => tracked l.place with
    | some l => l.place
    | none => (ls.head?.map (·.place)).getD .own

/-- A load of located pieces into `dest` (R281, R307): tracked pieces of a transaction bind at once from the tile's
speculative copy (R151); otherwise it issues as one load. `keep` is the destination's previous taint where it
merges. -/
def loadPieces (dest : Dest) (fin : Finish) (ls : List Located) (deps keep : BitVec 8) (s : State) :
    Host.Outcome State Fault Refusal :=
  if s.task.txn.isSome && ls.any fun l => tracked l.place then
    readPieces ls false true s fun _ bytes s =>
      if deps != 0 then stall s else retire (s.bindNow dest fin keep bytes false)
  else
    eachPiece (fun l s k => hostReachable l.place l.va s fun s => unpoisoned l.bytes l.va s k) ls s fun s =>
        let s := if ls.any fun l => remoteShare l.place then s.releasePoint else s
        retire (s.issueLoad dest
          { op := 0, gen := 0, kind := .load, va := (ls.head?.map (·.va)).getD 0, addrs := ls.flatMap Located.bytes, fin, place := piecesPlace ls } deps keep)

/-- The cells of a store of several pieces: where pieces share a byte the last piece's stands (R282). -/
def pieceCells (ws : List (Located × List Byte)) : List (Nat × Byte × Place) :=
  ws.foldl (fun m (l, bs) => (l.bytes.zip bs).foldl (fun m (a, b) => Sparse.set m a (b, l.place)) m) []

/-- A store of located pieces (R281, R282, R307): one operation for each 128-byte line it writes. -/
def storePieces (ws : List (Located × List Byte)) (deps : BitVec 8) (s : State) : Host.Outcome State Fault Refusal :=
  let trk := fun (l : Located) => s.task.txn.isSome && tracked l.place
  let ls := ws.map (·.1)
  eachPiece (fun l s k => hostReachable l.place l.va s fun s =>
      if trk l then track l.va l.place true s k else k s) ls s fun s =>
    if (ls.any trk) && deps != 0 then stall s
    else
      let spec := pieceCells (ws.filter fun w => trk w.1)
      let cells := pieceCells (ws.filter fun w => !trk w.1)
      let lines := (cells.map fun (a, _) => a / 128).foldl insertNat []
      let lineOf := fun (n : Nat) => cells.filter fun (a, _) => a / 128 == n
      let placeAt := fun (n : Nat) => ((lineOf n).head?.map fun (_, _, p) => p).getD .own
      let homed := (lines.filter fun n => State.placeMod s.cur (placeAt n) == modOf s.cur).length
      if 64 < s.task.sack + homed then stall s
      else
        let s := if spec.isEmpty then s else s.specWrite (spec.map fun (a, b, _) => (a, b)) []
        retire (lines.foldl (fun s n =>
          let cs := lineOf n
          s.issueStore { op := 0, gen := 0, kind := .store, va := (ls.head?.map (·.va)).getD 0, addrs := cs.map (·.1), data := cs.map fun (_, b, _) => b,
                         place := placeAt n, deps }) s)

/-- The active lanes of a mask with their addresses (R280). -/
def activeLanes (k : MReg) (w : Nat) (addr : Nat → Word) : List (Nat × Word) :=
  ((List.range (512 / w)).filter fun i => active k i).map fun i => (i, addr i)

/-- A vector load (R281). With no active lane nothing is accessed, and vd stays as it is (R275). -/
def vload (d a : BitVec 6) (m : BitVec 3) (w : Nat) (taint : BitVec 8) (bcast : Bool) (addr : Nat → Word) (s : State) :
    Host.Outcome State Fault Refusal :=
  let c := s.g a
  let k := s.m m.toNat
  let deps := c.taint ||| taint ||| k.taint
  let keep := if m = 0 then 0 else (s.v d.toNat).taint
  let ls := activeLanes k w addr
  let pieces : List Piece := (if bcast then ls.take 1 else ls).map fun (_, x) => (x, w / 8)
  if ls.isEmpty then retire s
  else checkPieces c pLD (w / 8) pieces s fun s => locatePieces .read pieces s fun l =>
    loadPieces (.v d.toNat) (.vec (ls.map (·.1)) w bcast) l deps keep s

/-- A vector store (R281). -/
def vstore (d a : BitVec 6) (m : BitVec 3) (w : Nat) (taint : BitVec 8) (addr : Nat → Word) (s : State) :
    Host.Outcome State Fault Refusal :=
  let c := s.g a
  let k := s.m m.toNat
  let v := s.v d.toNat
  let ls := activeLanes k w addr
  let pieces : List Piece := ls.map fun (_, x) => (x, w / 8)
  checkPieces c pST (w / 8) pieces s fun s => locatePieces .write pieces s fun l =>
    storePieces (l.zip (ls.map fun (i, _) => bytesOf (w / 8) (lane w v.val i))) (c.taint ||| taint ||| k.taint ||| v.taint) s

/-- Lane addresses of VLD and VST (R280). -/
def unitAddr (c : Reg) (w i : Nat) : Word := c.val + BitVec.ofNat 64 (i * (w / 8))
/-- Lane addresses of VLDS and VSTS (R280). -/
def strideAddr (c b : Reg) (i : Nat) : Word := c.val + BitVec.ofNat 64 i * b.val
/-- Lane addresses of VGATH and VSCAT (R280). -/
def indexAddr (c : Reg) (v : VReg) (w i : Nat) : Word :=
  c.val + BitVec.ofInt 64 ((w / 8 : Nat) * intOf w true (lane w v.val i))

/-- VLD (R280, R281). -/
def execVld (d a : BitVec 6) (m : BitVec 3) (w : BitVec 2) (s : State) : Host.Outcome State Fault Refusal :=
  if s.busyG a then stall s
  else vload d a m (laneBits w) 0 false (unitAddr (s.g a) (laneBits w)) s

/-- VST (R280, R281). -/
def execVst (d a : BitVec 6) (m : BitVec 3) (w : BitVec 2) (s : State) : Host.Outcome State Fault Refusal :=
  if s.busyG a || s.busyV d.toNat then stall s
  else vstore d a m (laneBits w) 0 (unitAddr (s.g a) (laneBits w)) s

/-- VLDS (R280, R281). -/
def execVlds (d a b : BitVec 6) (m : BitVec 3) (w : BitVec 2) (s : State) : Host.Outcome State Fault Refusal :=
  if s.busyG a || s.busyG b then stall s
  else vload d a m (laneBits w) (s.g b).taint false (strideAddr (s.g a) (s.g b)) s

/-- VSTS (R280, R281). -/
def execVsts (d a b : BitVec 6) (m : BitVec 3) (w : BitVec 2) (s : State) : Host.Outcome State Fault Refusal :=
  if s.busyG a || s.busyG b || s.busyV d.toNat then stall s
  else vstore d a m (laneBits w) (s.g b).taint (strideAddr (s.g a) (s.g b)) s

/-- VGATH (R280, R281). -/
def execVgath (d a b : BitVec 6) (m : BitVec 3) (w : BitVec 2) (s : State) : Host.Outcome State Fault Refusal :=
  if s.busyG a || s.busyV b.toNat then stall s
  else vload d a m (laneBits w) (s.v b.toNat).taint false (indexAddr (s.g a) (s.v b.toNat) (laneBits w)) s

/-- VSCAT (R280, R281). -/
def execVscat (d a b : BitVec 6) (m : BitVec 3) (w : BitVec 2) (s : State) : Host.Outcome State Fault Refusal :=
  if s.busyG a || s.busyV b.toNat || s.busyV d.toNat then stall s
  else vstore d a m (laneBits w) (s.v b.toNat).taint (indexAddr (s.g a) (s.v b.toNat) (laneBits w)) s

/-- VLDBC (R280, R281): one access, its value in every active lane. -/
def execVldbc (d a : BitVec 6) (m : BitVec 3) (w : BitVec 2) (s : State) : Host.Outcome State Fault Refusal :=
  if s.busyG a then stall s
  else vload d a m (laneBits w) 0 true (fun _ => (s.g a).val) s

end Sys2Proof.Machine
end

