-- ==== Sys2Proof/Machine/Mat.lean ====
section
/-!
DEFINITION. Matrix instructions (R95 to R100, R293 to R313): tiles and their names, MDOT, moving tile contents,
checksums and microprogrammed steps.
-/
namespace Sys2Proof.Machine

/-! Tiles and names (R293, R294). -/

/-- The physical tile a name of the issuing context is bound to. -/
def State.tileName (s : State) (n : Nat) : Option Nat := Sparse.find s.task.tiles n

def State.tileAt (s : State) (p : Nat) : Tile := Sparse.get {} s.here.tiles p
def State.putTile (s : State) (p : Nat) (t : Tile) : State := s.mapCore s.cur fun c => { c with tiles := Sparse.set c.tiles p t }

/-- R294: an instruction that names a closed tile takes ILLEGAL as it issues. -/
def openTile (n : BitVec 3) (s : State) (ok : Nat → Host.Outcome State Fault Refusal) : Host.Outcome State Fault Refusal :=
  match s.tileName n.toNat with
  | none => trap cILLEGAL 0 s
  | some p => ok p

/-- R307: an instruction that reads a busy tile stalls. -/
def readTile (p : Nat) (s : State) (ok : Tile → Host.Outcome State Fault Refusal) : Host.Outcome State Fault Refusal :=
  if s.task.busy (.a p) then stall s else ok (s.tileAt p)

/-- Element (i, j), index 16·i + j. -/
def Tile.elem (t : Tile) (n : Nat) : Word := Sparse.get 0 t.elems n

/-- Contents from a list of 256 elements. -/
def tileOf256 (xs : List Word) : Sparse Word := xs.zipIdx.map fun (x, i) => (i, x)

/-- A rounding code of an instruction; 6 is FPSTAT.RM (R91). -/
def State.modeOf (s : State) (r : BitVec 3) : Nat := if r = 6 then fpMode s.task.fpstat else r.toNat

/-- The lowest-numbered free physical tile (R298); one freed in this cycle is not (R299). -/
def State.freeTile (s : State) : Option Nat := (List.range 8).find? fun p => (s.tileAt p).owner.isNone && !(s.tileAt p).freed

/-- MOPEN (R298). -/
def execMopen (d : BitVec 3) (g : BitVec 6) (r : BitVec 3) (s : State) : Host.Outcome State Fault Refusal :=
  match s.tileName d.toNat, s.freeTile with
  | some p, _ => retire (s.writeInt g (BitVec.ofNat 64 (p * 256 + 2)) 0)
  | none, none => retire (s.writeInt g 0 0)
  | none, some p =>
    let s := s.putTile p { owner := some s.ctx, mode := s.modeOf r }
    let s := s.mapTask fun t => { t with tiles := Sparse.set t.tiles d.toNat p }
    retire (s.writeInt g (BitVec.ofNat 64 (p * 256 + 1)) 0)

/-- MCLOSE (R299): the contents are lost, and a pending deposit is discarded. -/
def execMclose (d : BitVec 3) (s : State) : Host.Outcome State Fault Refusal :=
  match s.tileName d.toNat with
  | none => retire s
  | some p =>
    let s := s.cancel (.a p)
    let s := s.putTile p { freed := true }
    retire (s.mapTask fun t => { t with tiles := Sparse.erase t.tiles d.toNat })

/-- MZERO (R300). -/
def execMzero (d : BitVec 3) (s : State) : Host.Outcome State Fault Refusal :=
  openTile d s fun p =>
    let s := s.cancel (.a p)
    retire (s.putTile p { s.tileAt p with elems := [], cc := 0, taint := 0 })

/-! Operands of steps (R301 to R303). -/

/-- Operand types and rank of an MDOT format (R174, R301). -/
def mdotFmt (f : Nat) : Nat × Nat × Nat :=
  match f with
  | 0 => (11, 11, 4)
  | 1 => (10, 10, 4)
  | 2 => (12, 12, 8)
  | 3 => (13, 13, 8)
  | 4 => (12, 13, 8)
  | 5 => (13, 12, 8)
  | 6 => (14, 14, 16)
  | 7 => (9, 9, 1)
  | 8 => (0, 0, 8)
  | 9 => (1, 1, 8)
  | 10 => (0, 1, 8)
  | _ => (1, 0, 8)

/-- A step's operand: its bytes, scales and taint. -/
structure Opnd where
  bytes : List Byte
  scales : Option (List Byte) := none
  taint : BitVec 8 := 0
  deriving DecidableEq, Repr

/-- The conditions of R302 on a stream or on held B. -/
def State.selOk (s : State) (sel : BitVec 6) (typ size : Nat) (scaled : Bool) : Bool :=
  if sel.toNat ≤ 7 then
    match Sparse.find s.task.streams sel.toNat with
    | none => false
    | some b =>
      let w := (s.task.gr (b.reg + 1)).val
      loType w == typ && (match b.fifo with
        | none => layoutOk w && loEsz w == (size == 128) && loScaled w == scaled
        | some _ => !scaled)
  else if sel = 48 then s.task.heldB.any fun h => h.etype == typ && h.scales.isSome == scaled
  else true

/-- Whether registers that an operand reads await a value (R81). -/
def State.selBusy (s : State) (sel : BitVec 6) (size : Nat) : Bool :=
  if sel.toNat ≤ 7 then (Sparse.find s.task.streams sel.toNat).any s.task.streamBusy
  else if sel = 48 then false
  else s.busyV (sel.toNat - 16) || (size == 128 && s.busyV ((sel.toNat - 15) % 32))

/-- A stream, pair or held-B operand of `size` bytes (R302). -/
def opnd (sel : BitVec 6) (size : Nat) (s : State) (ok : Opnd → State → Host.Outcome State Fault Refusal) :
    Host.Outcome State Fault Refusal :=
  if sel.toNat ≤ 7 then
    pop sel.toNat true s fun e s =>
      ok { bytes := (e.bytes ++ List.replicate 128 0).take size, scales := e.scales, taint := e.taint } s
  else if sel = 48 then
    match s.task.heldB with
    | some h => ok { bytes := h.bytes, scales := h.scales, taint := h.taint } s
    | none => trap cILLEGAL 0 s
  else
    let x := s.v (sel.toNat - 16)
    let y := s.v ((sel.toNat - 15) % 32)
    if size = 64 then ok { bytes := vecBytes x.val, taint := x.taint } s
    else ok { bytes := vecBytes x.val ++ vecBytes y.val, taint := x.taint ||| y.taint } s

/-- The stream that an operand selector names. -/
def selStream (sel : BitVec 6) : List Nat := if sel.toNat ≤ 7 then [sel.toNat] else []

/-- The tile an A selector names (R175). -/
def selTile (a : BitVec 6) : Option (BitVec 3) :=
  if 8 ≤ a.toNat ∧ a.toNat ≤ 15 then some (a.extractLsb' 0 3) else none

/-- The values of an element, counted from byte 0 (R301, R86). -/
def values (w n : Nat) (bytes : List Byte) : List Nat :=
  let x := ofBytes bytes
  (List.range n).map fun i => x / 2 ^ (w * i) % 2 ^ w

/-- A scale of a row or column: 1 where the operand has none (R304). -/
def scaleOf (sc : Option (List Byte)) (i : Nat) : Exact :=
  match sc with
  | some bs => scaleVal (bs.getD i 0)
  | none => .fin false 1 0

/-- Exact products of one element's step, and the NV they raise (R95, R96). -/
def dotTerms (sa sb : Exact) (as bs : List (Exact × Bool)) : List Exact × BitVec 5 :=
  (as.zip bs).foldr (fun ((x, sx), (y, sy)) (ts, fl) =>
    let (p, f1) := Exact.mul sa x
    let (p, f2) := Exact.mul p sb
    let (p, f3) := Exact.mul p y
    (p :: ts, fl ||| f1 ||| f2 ||| f3 ||| snanFlag (sx || sy))) ([], 0)

/-- The floating-point step before rounding (R95, R96), element by element. -/
def dotSums (t : Tile) (fa fb : Fmt) (r : Nat) (va vb : List Nat) (sa sb : Option (List Byte)) :
    List (Option (Exact × BitVec 5)) :=
  let as := va.map fa.decode
  let bs := vb.map fb.decode
  (List.range 256).map fun n =>
    let i := n / 16
    let j := n % 16
    let (c, sc) := fmt64.decode (t.elem n).toNat
    let (ts, fl) := dotTerms (scaleOf sa i) (scaleOf sb j) ((as.drop (i * r)).take r)
      ((List.range r).map fun k => bs.getD (16 * k + j) (.nan, false))
    let (v, fl') := Exact.sum t.mode (c :: ts)
    some (if sc then .nan else v, fl ||| fl' ||| snanFlag sc)

/-- The integer step (R97). -/
def dotInts (t : Tile) (ta tb : Nat) (va vb : List Nat) : List Word :=
  let as := va.map (intOf 8 (ta == 0))
  let bs := vb.map (intOf 8 (tb == 0))
  (List.range 256).map fun n =>
    let terms := (List.range 8).map fun k => as.getD (n / 16 * 8 + k) 0 * bs.getD (16 * k + n % 16) 0
    t.elem n + BitVec.ofInt 64 (terms.foldl (· + ·) 0)

/-- The A values a tile gives through the down-converter (R303), with the generator and flags after them. A CC that leaves
less than the rank in the row reads on into the next row's elements (DESIGN CHOICE, log 109). -/
def downConvert (t : Tile) (ta r mode : Nat) (sat : Bool) (env : FpEnv) : List Nat × FpEnv :=
  convertAll 8 ta sat mode ((List.range (16 * r)).map fun n => some (t.elem (16 * (n / r) + t.cc + n % r)).toNat) env

/-- The end of a step (R304): the tile written with the sources' taint, the source tile's CC advanced, held B loaded. -/
def stepDone (p : Nat) (elems : List Word) (taint : BitVec 8) (src : Option Nat) (adv : Nat) (b : BitVec 6) (bo : Opnd)
    (tb : Nat) (s : State) : Host.Outcome State Fault Refusal :=
  let t := s.tileAt p
  let s := s.putTile p { t with elems := tileOf256 elems, taint := t.taint ||| taint }
  let s := match src with
    | some q => s.putTile q { s.tileAt q with cc := ((s.tileAt q).cc + adv) % 16 }
    | none => s
  retire (if b = 48 then s else s.mapTask fun c =>
    { c with heldB := some { bytes := bo.bytes, scales := bo.scales, etype := tb, taint := bo.taint } })

/-- The tiles and operands of a step, A then B (R302). `ok` gets the A operand or the tile it is read from, then B. -/
def stepOpnds (d : BitVec 3) (a b : BitVec 6) (ta tb sizeA sizeB : Nat) (sca scb : Bool) (s : State)
    (ok : Nat → Opnd ⊕ Nat → Opnd → State → Host.Outcome State Fault Refusal) : Host.Outcome State Fault Refusal :=
  openTile d s fun p =>
    if s.task.busy (.a p) || s.selBusy b sizeB || (selTile a == none && s.selBusy a sizeA) then stall s
    else if !s.selOk b tb sizeB scb || (selTile a == none && !s.selOk a ta sizeA sca) then trap cILLEGAL 0 s
    else match selTile a with
      | some n => openTile n s fun q => readTile q s fun _ =>
        streaming (selStream b) none true s (opnd b sizeB s fun y s => ok p (.inr q) y s)
      | none =>
        streaming (selStream a ++ selStream b) none true s
          (opnd a sizeA s fun x s => opnd b sizeB s fun y s => ok p (.inl x) y s)

/-- MDOT (R301 to R304). -/
def execMdot (d : BitVec 3) (a b : BitVec 6) (f : BitVec 4) (r : BitVec 3) (x y z : BitVec 1) (s : State) :
    Host.Outcome State Fault Refusal :=
  let (ta, tb, rank) := mdotFmt f.toNat
  let size := if ta = 9 then 64 else 128
  stepOpnds d a b ta tb size size (y == 1) (z == 1) s fun p ao bo s =>
    let t := s.tileAt p
    let env := FpEnv.of s.task.fpstat
    let (va, sa, taintA, src, env) := match ao with
      | .inl o => (values (typeBits ta) (16 * rank) o.bytes, o.scales, o.taint, none, env)
      | .inr q =>
        let (v, env) := downConvert (s.tileAt q) ta rank (s.modeOf r) (x == 1) env
        (v, none, (s.tileAt q).taint, some q, env)
    let vb := values (typeBits tb) (16 * rank) bo.bytes
    match typeFmt ta, typeFmt tb with
    | some fa, some fb =>
      let (out, env) := roundLanes fmt64 t.mode false (dotSums t fa fb rank va vb sa bo.scales) env
      stepDone p (out.map (BitVec.ofNat 64)) (taintA ||| bo.taint) src rank b bo tb (s.putFp env)
    | _, _ => stepDone p (dotInts t ta tb va vb) (taintA ||| bo.taint) src rank b bo tb s

/-! Microprogrammed steps (R311, R312). -/

/-- The fields of an operation word (R311): OPC, D, S1, S2, S3. -/
def opWord (g : Word) (n : Nat) : Nat × Nat × Nat × Nat × Nat :=
  let w := g.extractLsb' (16 * n) 16
  ((w.extractLsb' 12 4).toNat, (w.extractLsb' 10 2).toNat, (w.extractLsb' 7 3).toNat, (w.extractLsb' 4 3).toNat,
   (w.extractLsb' 1 3).toNat)

/-- R311: no operation word holds a reserved value. -/
def progOk (g : Word) : Bool :=
  (List.range 4).all fun n =>
    let (opc, d, a, b, c) := opWord g n
    let w := g.extractLsb' (16 * n) 16
    opc ≤ 10 && d ≤ 2 && a ≤ 5 && b ≤ 5 && c ≤ 5 && !w.getLsbD 0 && (opc == 6 || c == 0) && (opc != 0 || w == 0)

/-- MUPROG (R311): the tag and the taint of ga are ignored. -/
def execMuprog (g : BitVec 6) (s : State) : Host.Outcome State Fault Refusal :=
  if s.busyG g then stall s
  else if progOk (s.g g).val then retire (s.mapTask fun t => { t with prog := (s.g g).val })
  else trap cILLEGAL 0 s

/-- The values an element's program works on (R312): C, X, Y, T, U. -/
structure ProgVals where
  c : Nat
  x : Nat
  y : Nat
  t : Nat := 0
  u : Nat := 0
  deriving DecidableEq, Repr

/-- A source of an operation word. -/
def ProgVals.get (v : ProgVals) (n : Nat) : Nat :=
  match n with
  | 0 => v.c
  | 1 => v.x
  | 2 => v.y
  | 3 => v.t
  | 4 => v.u
  | _ => 0

/-- A destination of an operation word. -/
def ProgVals.put (v : ProgVals) (d n : Nat) : ProgVals :=
  match d with
  | 0 => { v with c := n }
  | 1 => { v with t := n }
  | _ => { v with u := n }

/-- A rounding operation of two binary64 patterns (R100). -/
def round2 (op : Exact → Exact → Exact × BitVec 5) (mode a b : Nat) (env : FpEnv) : Nat × FpEnv :=
  let (u, su) := fmt64.decode a
  let (v, sv) := fmt64.decode b
  let (r, fl) := op u v
  env.round fmt64 mode false (if su || sv then .nan else r) (fl ||| snanFlag (su || sv))

/-- Flags raised with no rounding. -/
def FpEnv.raise (env : FpEnv) (fl : BitVec 5) : FpEnv := { env with flags := env.flags ||| fl }

/-- One operation word (R311, R312). -/
def progOp (mode : Nat) (w : Nat × Nat × Nat × Nat × Nat) (v : ProgVals) (env : FpEnv) : ProgVals × FpEnv :=
  let (opc, d, s1, s2, s3) := w
  let a := v.get s1
  let b := v.get s2
  let rnd := fun (op : Exact → Exact → Exact × BitVec 5) =>
    let (r, env) := round2 op mode a b env
    (v.put d r, env)
  let pick := fun (isMax : Bool) =>
    let (r, fl) := fpMinMax fmt64 isMax a b
    (v.put d r, env.raise fl)
  match opc with
  | 1 => rnd fun x y => Exact.sum mode [x, y]
  | 2 => rnd fun x y => Exact.sum mode [x, y.neg]
  | 3 => rnd Exact.mul
  | 4 => pick false
  | 5 => pick true
  | 6 =>
    let (less, fl) := fcmp fmt64 2 a b
    (if less then v.put d (v.get s3) else v, env.raise fl)
  | 7 => (v.put d (a &&& b), env)
  | 8 => (v.put d (a ||| b), env)
  | 9 => (v.put d (a ^^^ b), env)
  | 10 => (v.put d (a &&& (2 ^ 64 - 1 - b)), env)
  | _ => (v, env)

/-- The whole program on one element (R312). -/
def progElem (mode : Nat) (prog : Word) (v : ProgVals) (env : FpEnv) : Nat × FpEnv :=
  let (v, env) := (List.range 4).foldl (fun (acc : ProgVals × FpEnv) n => progOp mode (opWord prog n) acc.1 acc.2) (v, env)
  (v.c, env)

/-- The program on the elements in ascending index. -/
def progAll (mode : Nat) (prog : Word) : List ProgVals → FpEnv → List Nat × FpEnv
  | [], env => ([], env)
  | v :: t, env =>
    let (c, env) := progElem mode prog v env
    let (cs, env) := progAll mode prog t env
    (c :: cs, env)

/-- MRUN (R312). -/
def execMrun (d : BitVec 3) (a b : BitVec 6) (s : State) : Host.Outcome State Fault Refusal :=
  stepOpnds d a b 8 8 128 128 false false s fun p ao bo s =>
    let t := s.tileAt p
    let (va, taintA, src) := match ao with
      | .inl o => (values 64 16 o.bytes, o.taint, none)
      | .inr q => ((List.range 16).map fun i => ((s.tileAt q).elem (16 * i + (s.tileAt q).cc)).toNat, (s.tileAt q).taint, some q)
    let vb := values 64 16 bo.bytes
    let ins := (List.range 256).map fun n =>
      ({ c := (t.elem n).toNat, x := va.getD (n / 16) 0, y := vb.getD (n % 16) 0 } : ProgVals)
    let (out, env) := progAll t.mode s.task.prog ins (FpEnv.of s.task.fpstat)
    stepDone p (out.map (BitVec.ofNat 64)) (taintA ||| bo.taint) src 1 b bo 8 (s.putFp env)

/-! Rows and columns (R308), whole tiles (R307, R309) and checksums (R310). -/

/-- The element indices of the row or column that gi names (R308). -/
def lineElems (g : Word) : List Nat :=
  let n := (g.extractLsb' 0 4).toNat
  (List.range 16).map fun m => if g.getLsbD 4 then 16 * m + n else 16 * n + m

/-- MRD (R308). -/
def execMrd (d : BitVec 3) (p g : BitVec 6) (s : State) : Host.Outcome State Fault Refusal :=
  openTile d s fun q => readTile q s fun t =>
    if s.busyG g then stall s
    else
      let xs := (lineElems (s.g g).val).map fun n => (t.elem n).toNat
      let k := p.toNat - 16
      let s := (s.cancel (.v k)).cancel (.v ((k + 1) % 32))
      let taint := (s.tileAt q).taint ||| (s.g g).taint
      let s := s.writeV k ⟨ofLanes 64 (xs.take 8), taint⟩
      retire (s.writeV ((k + 1) % 32) ⟨ofLanes 64 (xs.drop 8), taint⟩)

/-- MWR (R308). -/
def execMwr (d : BitVec 3) (p g : BitVec 6) (s : State) : Host.Outcome State Fault Refusal :=
  openTile d s fun q => readTile q s fun t =>
    let k := p.toNat - 16
    let k2 := (k + 1) % 32
    if s.busyG g || s.busyV k || s.busyV k2 then stall s
    else
      let xs := (lanes 64 (s.v k).val ++ lanes 64 (s.v k2).val).map (BitVec.ofNat 64)
      let elems := ((lineElems (s.g g).val).zip xs).foldl (fun m (n, x) => Sparse.set m n x) t.elems
      retire (s.putTile q { t with elems, taint := t.taint ||| (s.v k).taint ||| (s.v k2).taint ||| (s.g g).taint })

/-- The rows of MLD and MST (R307). -/
def tileRows (c p : Reg) (pitch128 : Bool) : List Word :=
  (List.range 16).map fun i => c.val + BitVec.ofNat 64 i * (if pitch128 then 128 else p.val)

/-- The pieces of a tile's rows: each by 256-byte blocks. -/
def rowPieces (rows : List Word) : List Piece := rows.flatMap fun x => (blockParts x 128).map fun (a, _, n) => (a, n)

/-- The checks of MLD and MST (R307): each row in order, then the alignment of the cursor and the pitch. -/
def tileAccess (c : Reg) (rows : List Word) (perm : Nat) (acc : Access) (s : State)
    (ok : List Located → State → Host.Outcome State Fault Refusal) : Host.Outcome State Fault Refusal :=
  checkPieces c perm 1 (rows.map fun x => (x, 128)) s fun s =>
    match rows.find? fun x => x.toNat % 8 != 0 with
    | some x => trap cALIGN x s
    | none => locatePieces acc (rowPieces rows) s fun ls => ok ls s

/-- MLD (R307): a load; a pending deposit into the tile is cancelled. -/
def execMld (d : BitVec 3) (c p : BitVec 6) (s : State) : Host.Outcome State Fault Refusal :=
  openTile d s fun q =>
    if s.busyG c || s.busyG p then stall s
    else tileAccess (s.g c) (tileRows (s.g c) (s.g p) (p == 0)) pLD .read s fun ls s =>
      loadPieces (.a q) .tile ls ((s.g c).taint ||| (s.g p).taint) 0 s

/-- The bytes of a tile, row by row. -/
def Tile.bytes (t : Tile) : List Byte := (List.range 256).flatMap fun n => bytesOf 8 (t.elem n).toNat

/-- Bytes dealt out to pieces in order. -/
def dealBytes : List Located → List Byte → List (Located × List Byte)
  | [], _ => []
  | l :: t, bs => (l, bs.take l.len) :: dealBytes t (bs.drop l.len)

/-- MST (R307): a store, which waits on the taint of gc, gp and the tile. -/
def execMst (d : BitVec 3) (c p : BitVec 6) (s : State) : Host.Outcome State Fault Refusal :=
  openTile d s fun q => readTile q s fun t =>
    if s.busyG c || s.busyG p then stall s
    else tileAccess (s.g c) (tileRows (s.g c) (s.g p) (p == 0)) pST .write s fun ls s =>
      storePieces (dealBytes ls t.bytes) ((s.g c).taint ||| (s.g p).taint ||| t.taint) s

/-- The checksum of a row or a column before rounding (R310). -/
def lineSum (t : Tile) (mode : Nat) (idx : List Nat) : Option (Exact × BitVec 5) :=
  let es := idx.map fun n => fmt64.decode (t.elem n).toNat
  let (v, fl) := Exact.sum mode (es.map (·.1))
  some (v, fl ||| snanFlag (es.any (·.2)))

/-- Row or column checksums (R310). -/
def checksums (d : BitVec 3) (v : BitVec 5) (r : BitVec 3) (idx : Nat → Nat → Nat) (s : State) :
    Host.Outcome State Fault Refusal :=
  openTile d s fun q => readTile q s fun t =>
    let mode := s.modeOf r
    let ins := (List.range 16).map fun i => lineSum t mode ((List.range 16).map (idx i))
    let (out, env) := roundLanes fmt32 mode false ins (FpEnv.of s.task.fpstat)
    retire ((s.putFp env).writeV v.toNat ⟨ofLanes 32 out, t.taint⟩)

/-- MSUMR (R310). -/
def execMsumr (d : BitVec 3) (v : BitVec 5) (r : BitVec 3) (s : State) : Host.Outcome State Fault Refusal :=
  checksums d v r (fun i j => 16 * i + j) s
/-- MSUMC (R310). -/
def execMsumc (d : BitVec 3) (v : BitVec 5) (r : BitVec 3) (s : State) : Host.Outcome State Fault Refusal :=
  checksums d v r (fun i j => 16 * j + i) s

/-- MMOV (R309): contents and taint, unconverted; neither CC changes. -/
def execMmov (d r : BitVec 3) (s : State) : Host.Outcome State Fault Refusal :=
  openTile d s fun p => openTile r s fun q =>
    if d = r then retire s
    else readTile q s fun t =>
      let s := s.cancel (.a p)
      retire (s.putTile p { s.tileAt p with elems := t.elems, taint := (s.tileAt q).taint })

end Sys2Proof.Machine
end

