-- ==== Sys2Proof/Machine/System.lean ====
section
/-!
DEFINITION. CSRs (R90, R211 to R215, R328, R360, R397, R405), the privileged functions (R355 to R359, R391, R392),
TRAP, BKPT and IDLE (R402).
-/
namespace Sys2Proof.Machine

/-! CSRs. -/

/-- The position of the running task in its team (R213). -/
def State.teamPosWord (s : State) (k : Nat) : Word :=
  match s.teamAt k with
  | none => 0
  | some t =>
    let (x, y) := teamPos t k
    BitVec.ofNat 64 (t.h * 2 ^ 24 + t.w * 2 ^ 16 + y * 2 ^ 8 + x)

/-- TEAMORG (R213). -/
def teamOrgWord (t : Team) : Word :=
  BitVec.ofNat 64 (t.site / 24 * 2 ^ 24 + t.site % 24 * 2 ^ 16 + t.row0 * 2 ^ 8 + t.col0)

/-- TASKINFO (R214). -/
def taskInfo (t : Ctx) (x : Nat) : Word :=
  BitVec.ofNat 64 (t.window.length * 2 ^ 40 + t.msg.retry * 2 ^ 32 + t.gen * 2 ^ 24 + x * 2 ^ 16
    + (if t.msg.orphan then 2 ^ 14 else 0) + t.dcls * 2 ^ 12 + t.msg.handler)

/-- NISTAT (R214). -/
def niStat (t : Ctx) : Word :=
  BitVec.ofNat 64 (t.slots.toNat * 2 ^ 32 + (if t.released then 2 ^ 24 else 0) + State.heldCount t * 2 ^ 16
    + t.peers.toNat * 2 ^ 8 + t.sack)

/-- PARTINFO (R360). -/
def partInfo (n : Nat) (p : Partition) : Word :=
  BitVec.ofNat 64 (n % 256 * 2 ^ 56 + p.sealHi * 2 ^ 44 + p.sealLo * 2 ^ 32 + p.mod * 2 ^ 24 + p.h * 2 ^ 16 + p.w * 2 ^ 8
    + p.sy0 * 2 ^ 3 + p.sx0)

/-- PRIVINFO (R360). -/
def privInfo (img : Image) (runtime : Bool) : Word :=
  BitVec.ofNat 64 ((if img.sup then 4 else 0) + (if img.hod then 2 else 0) + (if runtime then 1 else 0))

/-- MCCNT (R405). -/
def mcCnt (t : Site) : Word := BitVec.ofNat 64 (t.mcLost * 2 ^ 48 + t.dramc * 2 ^ 32 + t.sramc * 2 ^ 16 + t.lanes)

/-- The CSRs a user task may name (R212). -/
def userCsr (s : State) (n : Nat) : Option Word :=
  let t := s.task
  let ni := s.here.ni
  match n with
  | 0x001 => some t.fpstat
  | 0x002 => some 0
  | 0x010 => some (s.teamPosWord s.cur)
  | 0x011 => some (((s.teamAt s.cur).map teamOrgWord).getD 0)
  | 0x012 => some (((s.teamAt s.cur).map State.teamIdWord).getD 0)
  | 0x013 => some (taskInfo t s.ctx)
  | 0x014 => some t.msg.id
  | 0x018 => some (BitVec.ofNat 64 t.budget)
  | 0x019 => some (BitVec.ofNat 64 (s.imageAt s.cur).budget)
  | 0x020 => some (BitVec.ofNat 64 s.here.cycle)
  | 0x021 => some (BitVec.ofNat 64 t.retired)
  | 0x028 => some (niStat t)
  | 0x030 => some (BitVec.ofNat 64 ni.orphans)
  | 0x031 => some (BitVec.ofNat 64 ni.genhold)
  | 0x032 => some (BitVec.ofNat 64 ni.refused)
  | 0x033 => some (BitVec.ofNat 64 ni.timedretry)
  | 0x034 => some (BitVec.ofNat 64 ni.redirects)
  | 0x035 => some (BitVec.ofNat 64 ni.strays)
  | 0x036 => some (BitVec.ofNat 64 ni.replays)
  | 0x037 => some (BitVec.ofNat 64 ni.torn)
  | _ => none

/-- The CSRs of a supervisor task (R360, R397, R405). -/
def supCsr (s : State) (n : Nat) : Option Word :=
  let pn := s.partAt s.cur
  let p := s.part pn
  let st := s.site (siteOf s.cur)
  let c := s.here
  match n with
  | 0x800 => some (privInfo (s.imageAt s.cur) (s.runtimeAt s.cur))
  | 0x801 => some (partInfo pn p)
  | 0x802 => some (s.csrAt s.cur n)
  | 0x803 => some (s.csrAt s.cur n)
  | 0x804 => some (BitVec.ofNat 64 (p.auditLost * 2 ^ 32 + p.auditHead))
  | 0x805 => some (BitVec.ofNat 64 ((if p.attached then 4 else 0) + (if p.injen then 2 else 0)))
  | 0x810 => some p.troot
  | 0x812 => some 0
  | 0x813 => some (s.csrAt s.cur n)
  | 0x814 => some (s.csrAt s.cur n)
  | 0x820 => some c.trap0
  | 0x821 => some c.trap1
  | 0x822 => some c.trap2
  | 0x823 => some c.trap3
  | 0x824 => some (s.csrAt s.cur n)
  | 0x825 => some (mcCnt st)
  | 0x830 => some (BitVec.ofNat 64 st.deflects)
  | 0x831 => some (BitVec.ofNat 64 st.ageouts)
  | 0x832 => some (BitVec.ofNat 64 st.reroutes)
  | 0x833 => some (BitVec.ofNat 64 st.seqdup)
  | 0x834 => some (BitVec.ofNat 64 st.seqstale)
  | 0x835 => some (BitVec.ofNat 64 st.dupresp)
  | 0x836 => some (BitVec.ofNat 64 st.badfmt)
  | 0x837 => some (BitVec.ofNat 64 st.reasmfull)
  | _ => none

/-- The value a CSRR reads at the task's level, if the number is assigned (R211). -/
def csrRead (s : State) (n : Nat) : Option Word :=
  if n < 0x800 then userCsr s n else if s.supAt s.cur then supCsr s n else none

/-- CSRs with an RW or WO field (R211). -/
def csrWritable (n : Nat) : Bool := [0x001, 0x002, 0x802, 0x803, 0x812, 0x813, 0x814, 0x824].contains n

/-- A partition-wide CSR as stored from a written value (R360, R397). -/
def csrStored (n : Nat) (v : Word) : Word :=
  match n with
  | 0x802 => v &&& 0x0000FFFFFFFC0000#64
  | 0x803 =>
    let l := (v.extractLsb' 52 4).toNat
    (v &&& 0x0000FFFFFFFFFFE0#64) ||| BitVec.ofNat 64 (if l < 5 then 0 else l * 2 ^ 52)
  | 0x814 => v &&& 0x0000FFFFFFFFE000#64
  | _ => v

/-- A partition with a partition-wide CSR written. -/
def Partition.putCsr (p : Partition) (n : Nat) (v : Word) : Partition :=
  match n with
  | 0x802 => { p with rvkbase := v }
  | 0x803 => { p with auditctl := v }
  | 0x813 => { p with fltdest := v }
  | 0x814 => { p with strbase := v }
  | _ => { p with mcdest := v }

/-- Whether a step brings an earlier write of a partition-wide CSR to a core of a partition. -/
def State.spreads (s : State) (pn n : Nat) : Event → Bool
  | .csrSpread k m _ => m == n && s.partAt k == pn
  | _ => false

/-- A write of a partition-wide CSR (R360): it stands at the writing core at once, and spreads to the others, which
hold the old value until it arrives. An earlier write still under way arrives nowhere any more. -/
def State.spreadCsr (s : State) (n : Nat) (v : Word) : State :=
  let pn := s.partAt s.cur
  let s := { s with agenda := s.agenda.filter (!s.spreads pn n ·), nextCycle := s.nextCycle.filter (!s.spreads pn n ·) }
  let others := (s.cores.map (·.1)).filter fun k => k != s.cur && s.partAt k == pn
  let old := others.map fun k => (k, s.csrAt k n)
  let s := s.mapPart pn fun p => p.putCsr n v
  let s := s.mapCore s.cur fun c => { c with csrOld := Sparse.erase c.csrOld n }
  let s := old.foldl (fun (s : State) (k, w) => s.mapCore k fun c => { c with csrOld := Sparse.set c.csrOld n w }) s
  s.pushAll (others.map fun k => .csrSpread k n v)

/-- CSR_SPREAD (R360): the update arrives at a core. -/
def execCsrSpread (core csr : Nat) (v : Word) (s : State) : Host.Outcome State Fault Refusal :=
  let now := { s with cores := Sparse.set s.cores core { s.core core with csrOld := Sparse.erase (s.core core).csrOld csr } }
  .next (if now.csrAt core csr = v then now
         else s.mapCore core fun c => { c with csrOld := Sparse.set c.csrOld csr v })

/-- SRSEED_WRITE (R90): the generator state of the issuing context. -/
def execSrseedWrite (v : Word) (s : State) : Host.Outcome State Fault Refusal :=
  .next (s.mapTask fun t => { t with fpstat := srseedWrite t.fpstat v })

/-- MCCNT_READ (R405): the counters are read into gd and cleared. -/
def execMccntRead (d : BitVec 6) (s : State) : Host.Outcome State Fault Refusal :=
  let st := siteOf s.cur
  let v := mcCnt (s.site st)
  let s := s.mapSite st fun t => { t with mcLost := 0, dramc := 0, sramc := 0, lanes := 0 }
  retire (s.writeInt d v 0)

/-- CSRR (R211): untagged and untainted. -/
def execCsrr (d : BitVec 6) (c : BitVec 12) (s : State) : Host.Outcome State Fault Refusal :=
  match csrRead s c.toNat with
  | none => trap cILLEGAL 0 s
  | some v => if c = 0x825 then execMccntRead d s else retire (s.writeInt d v 0)

/-- CSRW (R211): the tag and the taint of gs are ignored. -/
def execCsrw (g : BitVec 6) (c : BitVec 12) (s : State) : Host.Outcome State Fault Refusal :=
  let n := c.toNat
  if (csrRead s n).isNone || !csrWritable n then trap cILLEGAL 0 s
  else if s.busyG g then stall s
  else
    let v := (s.g g).val
    match n with
    | 0x001 => retire (s.mapTask fun t => { t with fpstat := fpstatWrite t.fpstat v })
    | 0x002 => retire (s.mapTask fun t => { t with fpstat := srseedWrite t.fpstat v })
    | 0x812 =>
      let h := modOf s.cur * 2 ^ 32 + (v.extractLsb' 0 32).toNat
      match (v.extractLsb' 32 2).toNat with
      | 0 => retire (s.push (.fltdoneRetry h))
      | 1 => retire (s.push (.fltdoneFail h))
      | _ => retire s
    | _ => retire (s.spreadCsr n (csrStored n v))

/-! Privileged functions. -/

/-- R355: the level, no transaction, no repeat body; then the operands, with their taint waited for (R77). -/
def priv (sup : Bool) (rs : List (BitVec 6)) (s : State) (ok : State → Host.Outcome State Fault Refusal) :
    Host.Outcome State Fault Refusal :=
  if (sup && !s.supAt s.cur) || s.task.txn.isSome || s.task.frame.isSome then trap cILLEGAL 0 s else operands rs s ok

/-- SEALROOT (R356). -/
def execSealroot (d a b : BitVec 6) (s : State) : Host.Outcome State Fault Refusal :=
  priv true [a, b] s fun s =>
    let lo := (s.g a).val.toNat
    let n := (s.g b).val.toNat
    let p := s.part (s.partAt s.cur)
    let ok := 1 ≤ n && lo + n ≤ 0x1000 && ((lo == 1 && n == 1) || (p.sealLo ≤ lo && lo + n - 1 ≤ p.sealHi))
    retire (s.writeG d.toNat
      { val := BitVec.ofNat 64 lo, desc := mkDesc (permSet [pSEAL, pUNSEAL, pGLOBAL]) 0 0 lo (lo + n), tag := ok })

/-- The status of a TLBINV (R392): 2 BADOP, 1 BUSY, else accepted. -/
def State.tlbinvStatus (s : State) (a op : Word) : Nat :=
  let bad := op.extractLsb' 2 62 != 0 || (match (op.extractLsb' 0 2).toNat with
    | 0 => a.extractLsb' 48 16 != 0
    | 1 => a != 0
    | 2 => a.extractLsb' 8 56 != 0
    | _ => a.extractLsb' 20 44 != 0)
  if bad then 2 else if 16 ≤ (s.site (siteOf s.cur)).shoots.length then 1 else 0

/-- TLBINV (R392): accepted, it goes on by itself and ends with its completion message. -/
def tlbinv (d a b : BitVec 6) (s : State) : Host.Outcome State Fault Refusal :=
  priv true ([a, b, 56, 57, 58, 59] ++ absRegs (s.g 56).val) s fun s =>
    if s.task.sack != 0 then stall s
    else resolved (s.g 56).val s fun k team s =>
      let st := siteOf s.cur
      let op := (s.g b).val
      match s.tlbinvStatus (s.g a).val op with
      | 0 =>
        let id := (s.site st).shootId
        let dest := (s.g 56).val
        let m := s.posed { noMsg with
          src := s.cur, dst := k, handler := dHandler dest, cls := dClass dest, a2 := (s.g 57).val, a3 := (s.g 58).val
          a4 := (s.g 59).val, team }
        let shoot : Shoot := { id, op := (op.extractLsb' 0 2).toNat, arg := (s.g a).val.toNat, status := 0, comp := m }
        let s := s.mapSite st fun t => { t with shoots := t.shoots ++ [shoot], shootId := t.shootId + 1 }
        retire ((s.push (.tlbinvCompletion (s.partAt s.cur) (st * 2 ^ 32 + id))).writeInt d 0 0)
      | n => retire (s.writeInt d (BitVec.ofNat 64 n) 0)

/-- TLBINV PAGE (R392). The four operations share their words; gb tells them apart. -/
def execTlbinvPage (d a b : BitVec 6) (s : State) : Host.Outcome State Fault Refusal := tlbinv d a b s
/-- TLBINV ALL (R392). -/
def execTlbinvAll (d a b : BitVec 6) (s : State) : Host.Outcome State Fault Refusal := tlbinv d a b s
/-- TLBINV STRIPE (R392, R393). -/
def execTlbinvStripe (d a b : BitVec 6) (s : State) : Host.Outcome State Fault Refusal := tlbinv d a b s
/-- TLBINV ROWMOVE (R395, R396). -/
def execRowmove (d a b : BitVec 6) (s : State) : Host.Outcome State Fault Refusal := tlbinv d a b s

/-- Whether an address stands in a HOMED page (R391), as far as it is translated. -/
def State.homedPage (s : State) (k va : Nat) : Bool :=
  (s.findWindow (s.partAt k) va).isNone && (s.tlbFind k (s.partAt k) va).any fun e => pteMtype e.leaf == 0

/-- REGREL (R391): ST over the whole region, an aligned cursor, and a translation, which writes nothing (R386); then the
context stalls until the release completes. -/
def execRegrel (d a : BitVec 6) (s : State) : Host.Outcome State Fault Refusal :=
  priv false [a] s fun s =>
    let c := s.g a
    checked c (BitVec.ofNat 64 (c.val.toNat / 65536 * 65536)) 65536 [pST] 1 s fun s =>
      if c.val.toNat % 65536 ≠ 0 then trap cALIGN c.val s
      else if s.task.sack != 0 then stall s
      else
        let go := fun (s : State) =>
          let r := c.val.toNat / 65536
          .next ((s.mapTask fun t => { t with wait := some (.regrel d.toNat) }).push (.regrelComplete s.cur s.ctx r))
        match s.xlate s.cur c.val.toNat .read with
        | .touch => go s
        | _ => located c.val .read s fun _ _ => go s

/-- The status of R111 for a mode word on a bank of the issuing site. Where several causes hold at once, BADMODE comes first,
then BUSY, the mode the bank stands in, NOCACHE and INUSE (DESIGN CHOICE, log 82: R111 gives no order). -/
def State.bankStatus (s : State) (ga w : Word) : Nat :=
  let bk := bankNo (siteOf s.cur) (ga.extractLsb' 4 6).toNat (ga.extractLsb' 0 4).toNat
  let b := s.bank bk
  let mode := (w.extractLsb' 0 3).toNat
  let depthl := (w.extractLsb' 8 4).toNat
  let slot := (w.extractLsb' 3 2).toNat
  let bound := s.cores.any fun (_, c) => c.ctxs.any fun (_, t) =>
    (t.occupied && t.streams.any fun (_, st) => st.fifo.any (·.1 == bk)) || t.park == some (.pop bk)
      || t.park == some (.append bk)
  if ga.extractLsb' 10 54 != 0 || w.extractLsb' 13 51 != 0 || w.extractLsb' 5 3 != 0 || 3 ≤ mode
      || (mode == 2 && (depthl < 4 || 13 < depthl || 18 < depthl + 5 + slot)) then 4
  else if b.mode == .draining || b.mode == .zeroing || b.next.isSome then 1
  else if b.mode == wordMode w then 0
  else if b.mode == .cache && (s.cacheBanks (siteOf s.cur) (ga.extractLsb' 4 6).toNat).length ≤ 1 then 2
  else if b.mode == .fifo && bound then 3
  else 0

/-- BANKCFG (R357, R110, R111): a bank that stands in the mode already keeps its contents. The change acts from the next
cycle (R113). -/
def execBankcfg (d a b : BitVec 6) (s : State) : Host.Outcome State Fault Refusal :=
  priv true [a, b] s fun s =>
    let ga := (s.g a).val
    let w := (s.g b).val
    let bk := bankNo (siteOf s.cur) (ga.extractLsb' 4 6).toNat (ga.extractLsb' 0 4).toNat
    match s.bankStatus ga w with
    | 0 => retire ((if (s.bank bk).mode == wordMode w then s else s.mapBank bk fun b => { b with next := some w }).writeInt d 0 0)
    | n => retire (s.writeInt d (BitVec.ofNat 64 n) 0)

/-! TEAMCTL. -/

/-- The open episodes of the blocks of a grid are marked as frozen ones (R272, R412). -/
def State.markFrozen (s : State) (grid : Nat) : State :=
  let cores := (s.teams.filter fun (_, t) => t.grid == grid).flatMap fun (_, t) => State.heldCores t
  let mark : Sparse SyncBlock → Sparse SyncBlock := Sparse.mapVals fun b => { b with frozen := true }
  let s := cores.foldl (fun s k => s.mapNi k fun ni => { ni with sync := mark ni.sync }) s
  let kept := fun (t : Team) => t.saved.map (Sparse.mapVals fun c => { c with sync := mark c.sync })
  { s with teams := Sparse.mapVals (fun t => if t.grid = grid then { t with saved := kept t } else t) s.teams }

/-- FREEZE of a team (R358). -/
def State.freezeTeam (s : State) (uid : Nat) : State :=
  match Sparse.find s.teams uid with
  | none => s
  | some t =>
    let s := (State.heldCores t).foldl (fun s k => s.mapCore k fun c => { c with frozen := true }) s
    (s.mapTeam uid fun t => { t with frozen := true }).markFrozen t.grid

/-- THAW of a team (R358): its tasks and its dispatch go on, and its parked BWAITs look again (R412). -/
def State.thawTeam (s : State) (uid : Nat) : State :=
  match Sparse.find s.teams uid with
  | none => s
  | some t =>
    let s := (State.heldCores t).foldl (fun s k => s.mapCore k fun c => { c with frozen := false }) s
    let s := s.mapTeam uid fun t => { t with frozen := false }
    let s := if t.state = .quiescing then s.pushOnce (.swapOut uid) else s
    let parked := fun (k : Nat) => ((s.core k).ctxs.filter fun (_, t) => t.park.isSome).map fun (x, _) => Event.parkResume k x
    s.pushAll ((State.heldCores t).flatMap fun k => .dispatch k :: parked k)

/-- PREEMPT (R44, R375): every team of a grid that is not oversubscribing. -/
def State.preemptTeam (s : State) (uid : Nat) : State :=
  match Sparse.find s.teams uid with
  | none => s
  | some t =>
    if (Sparse.find s.grids t.grid).any (·.oversub) then s.beginQuiesce uid
    else (s.teams.filter fun (_, v) => v.grid == t.grid).foldl (fun s (v, _) => s.beginQuiesce v) s

/-- The placed team of the caller's partition that a TEAMID names; the hod team is none (R358). -/
def State.teamNamed (s : State) (w : Word) : Option (Nat × Team) :=
  if w.extractLsb' 48 16 != 0 then none
  else
    let part := s.partAt s.cur
    s.teams.find? fun (_, t) =>
      t.part == part && t.grid % 2 ^ 32 == (w.extractLsb' 16 32).toNat && t.idx == (w.extractLsb' 0 16).toNat
        && standing t && !(s.imageOf t).hod

/-- TEAMCTL (R358). -/
def teamctl (d a b : BitVec 6) (s : State) : Host.Outcome State Fault Refusal :=
  priv true [a, b] s fun s =>
    let op := (s.g b).val
    let fin := fun (s : State) (n : Nat) => retire (s.writeInt d (BitVec.ofNat 64 n) 0)
    if op.extractLsb' 2 62 != 0 then fin s 3
    else match s.teamNamed (s.g a).val with
      | none => fin s 1
      | some (uid, t) =>
        match (op.extractLsb' 0 2).toNat with
        | 0 => if t.frozen then fin s 2 else fin (s.freezeTeam uid) 0
        | 1 => if t.frozen then fin (s.thawTeam uid) 0 else fin s 2
        | 2 => fin (s.preemptTeam uid) 0
        | _ => .next ((s.writeInt d 0 0).advance.killTeam uid)

/-- TEAMCTL FREEZE (R358). The four operations share their words; gb tells them apart. -/
def execFreeze (d a b : BitVec 6) (s : State) : Host.Outcome State Fault Refusal := teamctl d a b s
/-- TEAMCTL THAW (R358). -/
def execThaw (d a b : BitVec 6) (s : State) : Host.Outcome State Fault Refusal := teamctl d a b s
/-- TEAMCTL PREEMPT (R44, R358). -/
def execPreempt (d a b : BitVec 6) (s : State) : Host.Outcome State Fault Refusal := teamctl d a b s
/-- TEAMCTL KILL (R57, R358). -/
def execKill (d a b : BitVec 6) (s : State) : Host.Outcome State Fault Refusal := teamctl d a b s

/-! ERRINJ. -/

/-- ERRINJ on a tile element of this site (R359): status and state. -/
def State.injectTile (s : State) (ga mask : Word) : State × Nat :=
  let k := coreAt (siteOf s.cur) (ga.extractLsb' 19 5).toNat (ga.extractLsb' 14 5).toNat
  let p := (ga.extractLsb' 11 3).toNat
  let n := (ga.extractLsb' 0 8).toNat
  if ga.extractLsb' 24 36 != 0 || ga.extractLsb' 8 3 != 0 then (s, 2)
  else
    let t : Tile := Sparse.get {} (s.core k).tiles p
    let ok := match t.owner with
      | none => true
      | some x => (s.part (s.partAt s.cur)).attached && (s.ctxAt k x).halted
    if !ok then (s, 1)
    else (s.mapCore k fun c =>
      { c with tiles := Sparse.set c.tiles p { t with elems := Sparse.set t.elems n (t.elem n ^^^ mask) } }, 0)

/-- ERRINJ on stored data (R359): the bits are altered where they stand, in the cluster cache of the issuing core's cluster, in
L2 or in DRAM, until a check meets them (R404). Bits of a line that such a cache does not hold change nothing (log 98). -/
def State.injectData (s : State) (unit : Nat → ErrUnit) (ga mask : Word) : State × Nat :=
  let a := (ga.extractLsb' 0 48).toNat
  if ga.extractLsb' 48 12 != 0 || a % 8 ≠ 0 || paBad a || 2 ^ 45 ≤ a then (s, 2)
  else
    let m := ((s.flips.find? (·.1 == unit a)).map (·.2)).getD 0 ^^^ mask
    let rest := s.flips.filter (·.1 != unit a)
    ({ s with flips := if m = 0 then rest else rest ++ [(unit a, m)] }, 0)

/-- ERRINJ on a link of this site (R359). -/
def State.injectLink (s : State) (ga gb : Word) : State × Nat :=
  let i := (ga.extractLsb' 0 3).toNat
  let st := siteOf s.cur
  let l : Link := Sparse.get {} (s.site st).links i
  if ga.extractLsb' 3 57 != 0 || 6 ≤ i || gb.toNat = 0 || 255 < gb.toNat then (s, 2)
  else if l.dead || (4 ≤ i && !l.up) then (s, 1)
  else (s.mapSite st fun t => { t with links := Sparse.set t.links i { l with corrupt := gb.toNat } }, 0)

/-- ERRINJ (R359): only while INJEN is set (R355). -/
def execErrinj (d a b : BitVec 6) (s : State) : Host.Outcome State Fault Refusal :=
  if !(s.part (s.partAt s.cur)).injen then trap cILLEGAL 0 s
  else priv true [a, b] s fun s =>
    let ga := (s.g a).val
    let gb := (s.g b).val
    let (s, n) := match (ga.extractLsb' 60 4).toNat with
      | 0 => s.injectTile ga gb
      | 1 => s.injectData (.cluster s.cur ·) ga gb
      | 2 => s.injectData .l2 ga gb
      | 3 => s.injectData .line ga gb
      | 4 => s.injectLink ga gb
      | _ => (s, 2)
    retire (s.writeInt d (BitVec.ofNat 64 n) 0)

/-! TRAP, BKPT and IDLE (R402). -/

/-- TRAP (R402): the terminating trap with its CODE. -/
def execTrap (k : BitVec 12) (s : State) : Host.Outcome State Fault Refusal :=
  .next (s.takeTrap s.cur s.ctx cTRAP k.toNat (State.instrPc s.task) 0 false)

/-- Every team of a core's grid frozen (R412). -/
def State.freezeGrid (s : State) (k : Nat) : State :=
  match s.teamAt k with
  | none => s
  | some t => (s.teams.filter fun (_, v) => v.grid == t.grid && v.state != .ended).foldl (fun s (u, _) => s.freezeTeam u) s

/-- BKPT (R402, R412): with a debugger attached the context halts at the BKPT and its grid is frozen; in a transaction
it aborts with code 10 first, and halts after XBEGIN (R162). -/
def execBkpt (s : State) : Host.Outcome State Fault Refusal :=
  if !(s.part (s.partAt s.cur)).attached then retire s
  else
    let inside := s.task.txn.isSome
    let s := if inside then s.abortTxn s.cur s.ctx 10 0 false else s
    .next ((s.mapTask fun t => { t with halted := true, atBkpt := !inside }).freezeGrid s.cur)

/-- IDLE (R402): a stall of up to 256 cycles, ended by IDLE_WAKE. -/
def execIdle (s : State) : Host.Outcome State Fault Refusal :=
  .next (s.mapTask fun t => { t with idle := some (s.here.cycle + 256) })

end Sys2Proof.Machine
end

