-- ==== Sys2Proof/Machine/Home.lean ====
section
/-!
DEFINITION. What happens at the home of an access, and what comes back: stores, loads and atomics performed
(R123 to R126, R218, R226, R247, R251), reservations (R228, R229), flushes, the combine buffer and remote copies
(R134, R142, R126), and the deposit of replies (R31, R32, R81).
-/
namespace Sys2Proof.Machine

/-! Loads and stores. -/

/-- The site whose CXL agent or home serves an operation of core `k`. -/
def opSite (k : Nat) : Place → Nat
  | .host st => st
  | .home st _ => st
  | _ => siteOf k

/-- The core whose NI serves an operation of core `k`. -/
def opOwner (k : Nat) : Place → Nat
  | .share o => o
  | _ => k

/-- The agent that applies an operation of core `k` on a word (R226, R246): the owning NI for a named region, the home's
hod, or the site's CXL agent. -/
def opAgent (k : Nat) (p : Place) : Nat := State.placeAgent k true p

/-- A step that a home takes on some bytes: in a later cycle where a commit has locked their tile (R161), a switching bank
holds them (R112), or a draining way still has to write their line back (R112), and once the host has answered for the
halves it holds (R418, R420). -/
def homeStep (e : Event) (site : Nat) (as : List Nat) (write : Bool) (s : State)
    (ok : State → Host.Outcome State Fault Refusal) : Host.Outcome State Fault Refusal :=
  if s.tileLocked as || as.any (fun a => s.serves a == .later) || (linesOf as).any s.lineDraining then .next (s.again e)
  else match s.hostHold site as write e with
    | some s => .next s
    | none => ok (s.hostUse site as write)

/-- STORE_PERFORM (R123): a home makes a write the latest of its bytes. The write-back of a dirty line (R221) leaves its
value as it is. -/
def execStorePerform (core ctx op : Nat) (s : State) : Host.Outcome State Fault Refusal :=
  let e := Event.storePerform core ctx op
  match s.findOp core ctx op with
  | none => .next (s.ack e)
  | some p =>
    if p.kind = .clean then .next (s.performed core ctx op p.counted e)
    else homeStep e (opSite core p.place) p.addrs true s fun s => .next (s.performStore core ctx p)

/-- REMOTE_REGION_ACCESS (R218, R113): an access to a core's share, performed by the owning NI. -/
def execRemoteRegionAccess (core ctx op : Nat) (s : State) : Host.Outcome State Fault Refusal :=
  let e := Event.remoteRegionAccess core ctx op
  match s.askedOp core ctx op with
  | none => .next (s.ack e)
  | some p =>
    unlessCopied (opOwner core p.place) e s <| homeStep e (siteOf core) p.addrs (p.kind == .store) s fun s =>
      if p.kind = .store then .next (s.performStore core ctx p)
      else
        let tg := s.loadTag core (s.ctxAt core ctx) p
        .next (s.answer e (.replyDeposit (State.replyTo core ctx p (State.replyKind p) (p.addrs.map (s.foundByte core (s.ctxAt core ctx) p)) tg)))

/-- The remote copies a fill brings (R126): for each line its bytes, and a byte of its granule tags. -/
def State.fillCopies (s : State) (k : Nat) (as : List Nat) : List Byte :=
  (linesOf as).flatMap fun l =>
    let c := s.copyNow k l
    c.bytes ++ [BitVec.ofNat 8 ((c.tags.map (2 ^ ·)).sum)]

/-- A remote copy as a fill brings it, filled now. -/
def State.copyFrom (s : State) (k : Nat) (bs : List Byte) : RemoteCopy :=
  { s.copyNow k 0 with bytes := bs.take 128, tags := (List.range 8).filter fun i => (bs.getD 128 0).getLsbD i }

/-- A load or PREF from memory that misses in L1 and the cluster cache is served at its home, and its lines are cached
(R104, R118); beyond the module they are remote copies (R126). GET, FLUSHRD and an acquire at DOMAIN or SYSTEM read at the
home and cache nothing (R132, R247). Lines of HOST memory come through the CXL agent of the core's site (R414). -/
def execLineFill (core ctx op : Nat) (s : State) : Host.Outcome State Fault Refusal :=
  let e := Event.lineFill core ctx op
  match s.askedOp core ctx op with
  | none => .next (s.ack e)
  | some p => homeStep e (siteOf core) p.addrs false s fun s =>
    let t := s.ctxAt core ctx
    let far := (linesOf p.addrs).any (State.farLine core)
    let fills := !State.bypasses p
    let bytes := p.addrs.map (s.loadByte core t { p with kind := .get })
    let s := ((linesOf p.addrs).filter fun l => State.farLine core l || !fills).foldl (fun s l => s.l2Touch l false) s
    let r := State.replyTo core ctx p (if fills then .fill else State.replyKind p) bytes (s.granTag core t { p with kind := .get } (p.addrs.headD 0 / 16))
    .next (s.answer e (.replyDeposit (if fills then
      { r with val := 0, desc := 0, bytes := if far then bytes ++ s.fillCopies core p.addrs else bytes } else r)))

/-! Atomics. -/

/-- The width of an AMO in bytes (R225, R231). -/
def amoSize (op : Nat) : Nat := if 16 ≤ op then 4 else 8

/-- The bytes of an AMO. -/
def amoBytes (r : AmoReq) : List Nat := addrRange r.addr (amoSize r.op)

/-- An atomic read-modify-write of some bytes (R225): the old value, and the state after. Transactions that hold its
tile abort with code 6 for an ord operation; a comm or stat one is also applied to the writer's speculative bytes
(R158). A unit that its bank backs no more reads as zero and takes no write (log 78). -/
def State.amoApply (s : State) (r : AmoReq) : State × Word :=
  let as := amoBytes r
  let old := BitVec.ofNat 64 (ofBytes (s.readMem as))
  let new := fun (w : Word) => bytesOf (amoSize r.op) (State.amoResult r.op w r.opnd r.cmp).toNat
  if as.any fun a => s.serves a != .now then (s, 0)
  else if r.comm || r.stat then
    let d : TileDir := Sparse.get {} s.tileDirs (s.tileOf r.addr)
    let s' := s.writeHome (as.zip (new old)) [] none
    match d.writer with
    | none => (s', old)
    | some (k, x) =>
      let t := s.ctxAt k x
      let spec := BitVec.ofNat 64 (ofBytes (as.map (s.specByte t)))
      let held := t.txn.any fun tx => as.any fun a => (Sparse.find tx.spec a).isSome
      let put := fun (tx : Txn) => { tx with spec := (as.zip (new spec)).foldl (fun m (a, b) => Sparse.set m a b) tx.spec }
      (if held then s'.mapCtx k x fun c => { c with txn := c.txn.map put } else s', old)
  else (s.performWrite (as.zip (new old)) [], old)

/-- Operations of a core that one request has performed (R130): each ends, and those the core counts are acknowledged to
it from `owner`. -/
def State.endOps (s : State) (owner k : Nat) (req : Event) (ops : List (Nat × Nat)) : State :=
  match ops with
  | [] => s.ack req
  | (x, op) :: more =>
    let counted := fun (s : State) (y : Nat × Nat) => (s.findOp k y.1 y.2).all (·.counted)
    let s' := more.foldl (fun s y =>
      let own := counted s y
      let s := match s.findOp k y.1 y.2 with
        | none => s
        | some p => (s.dropOp k y.1 y.2).afterPosted k p
      if own then s.route owner (agentNi k) 1 0 (.storeAck k y.1) else (s.settled k y.1).kick k y.1) s
    s'.performed k x op (counted s (x, op)) req

/-- What an AMO sends back (R226, R130): its old value, or the end of each operation it performs. -/
def State.amoAnswer (s : State) (owner : Nat) (req : Event) (r : AmoReq) (old : Word) : State :=
  match r.ret with
  | some (x, gen, op, d) =>
    s.answer req (.replyDeposit { core := r.core, ctx := x, gen, op, kind := .amo, dest := d, val := old, desc := 0
                                  tag := false, bytes := bytesOf 8 old.toNat })
  | none => if r.stat then s.ack req else s.endOps owner r.core req r.acks

/-- An AMO that acquires at SYSTEM scope (R132). -/
def State.acquires (s : State) (r : AmoReq) : Bool :=
  match r.ret with
  | some (x, _, op, _) => (s.findOp r.core x op).any fun p => p.acq == some 5
  | none => r.acks.any fun (x, op) => (s.findOp r.core x op).any fun p => p.acq == some 5

/-- An AMO on HOST memory that acquires at SYSTEM scope waits until both halves of its line are held (R419). -/
def State.amoHold (s : State) (st : Nat) (r : AmoReq) (e : Event) : Option State :=
  if 2 ^ 45 ≤ r.addr && s.acquires r then s.hostHold st (addrRange (r.addr / 128 * 128) 128) false e else none

/-- HOME_AMO (R226): the hod of the home slice, or the site's CXL agent for HOST memory. An ord one of another site waits
for its source's sequence, and for what a migration has still to forward (R251, R252). One on HOST memory that no port reaches any
more has been given up at the core (R414). -/
def execHomeAmo (req : AmoReq) (s : State) : Host.Outcome State Fault Refusal :=
  let e := Event.homeAmo req
  let owner := agentHod (paSite req.addr) (paSlice req.addr)
  let st := if req.addr < 2 ^ 45 then paSite req.addr else siteOf req.core
  if s.heldBack owner e then .next s
  else if 2 ^ 45 ≤ req.addr ∧ req.addr < 2 ^ 48 ∧ (s.portOf st).isNone then .next (s.ack e)
  else match s.amoHold st req e with
  | some s => .next s
  | none => homeStep e st (amoBytes req) true s fun s =>
    let (s, old) := s.amoApply req
    .next (s.amoAnswer (if req.addr < 2 ^ 45 then owner else agentGw st) e req old)

/-- NI_ATOMIC (R226, R251): an AMO on a named region, applied by the owning NI; ord operations of a source from
another site in ascending sequence. -/
def execNiAtomic (owner : Nat) (req : AmoReq) (seq : Option Nat) (s : State) : Host.Outcome State Fault Refusal :=
  let e := Event.niAtomic owner req seq
  unlessCopied owner e s <|
    if s.heldBack (agentNi owner) e || (seq.isSome && (s.windowOf e).isNone) then .next s
    else homeStep e (siteOf owner) (amoBytes req) true s fun s =>
      let (s, old) := if (amoBytes req).all (s.regionServes · == .now) then s.amoApply req else (s, 0)
      .next (s.amoAnswer (agentNi owner) e req old)

/-- PUT_INCREMENT (R139, R246, R251): the counter's home adds one once every byte of the data is performed. -/
def execPutIncrement (core ctx op : Nat) (req : AmoReq) (s : State) : Host.Outcome State Fault Refusal :=
  let e := Event.putIncrement core ctx op req
  match s.findOp core ctx op with
  | none => .next (s.ack e)
  | some p => unlessCopied (opOwner core p.place) e s <|
    if s.heldBack (opAgent core p.place) e then .next s
    else homeStep e (opSite core p.place) (amoBytes req) true s fun s =>
      let s := if (amoBytes req).all (s.placeServes p.place · == .now) then (s.amoApply req).1 else s
      .next (s.performed core ctx op p.counted e)

/-! Reservations. -/

/-- A lease has run out (R229). -/
def State.lapsed (s : State) (a : Nat) (r : Resv) : Bool := r.holder.isSome && r.granted + 8192 ≤ (s.site (paSite a)).fab

/-- LEASE_EXPIRY (R229): a lease of 8,192 fabric cycles ends, and the reservation passes on. -/
def execLeaseExpiry (addr : Nat) (s : State) : Host.Outcome State Fault Refusal :=
  .next (if s.lapsed addr (Sparse.get {} s.resv addr) then s.passResv addr else s)

/-- A request for a reservation that another task holds (R228): its context parks, PARK_LIMIT first (R34), and it joins the
queue. The home's decision is known at the core at once (DESIGN CHOICE, log 87). -/
def State.parkLrw (s : State) (k x a : Nat) (p : PendOp) : State :=
  if (s.imageAt k).park ≤ ((s.core k).ctxs.filter fun (_, t) => t.park.isSome).length then
    ((s.dropOp k x p.op).ack (.lrwEnqueue k x p.op)).takeTrap k x cPARKLIMIT 0 (State.instrPc (s.ctxAt k x)) 0 false
  else
    let r : Resv := Sparse.get {} s.resv a
    let s := { s with resv := Sparse.set s.resv a { r with queue := r.queue ++ [(k, x, p.gen, p.op)] } }
    s.mapCtx k x fun t => { t with wait := none, park := some (.lrw p.op), parkAt := (s.core k).cycle }

/-- LRW_ENQUEUE (R228): at the word's home a free reservation is granted, the holder's second request is answered
with the lease unchanged, and any other joins the queue. One whose task has ended gets its reply and no reservation
(R35). -/
def execLrwEnqueue (core ctx op : Nat) (s : State) : Host.Outcome State Fault Refusal :=
  let e := Event.lrwEnqueue core ctx op
  match s.askedOp core ctx op with
  | none => .next (s.ack e)
  | some p =>
    let a := p.addrs.headD 0
    let reply := fun (s : State) =>
      Host.Outcome.next (s.answer e (.replyDeposit (State.replyTo core ctx p .grant (s.readMem p.addrs) false)))
    homeStep e (opSite core p.place) p.addrs false (s.mapOp core ctx op fun q => { q with waited := true }) fun s =>
      if (s.ctxAt core ctx).owed.any (·.op == op) then reply s
      else
        let s := if s.lapsed a (Sparse.get {} s.resv a) then s.passResv a else s
        match (Sparse.get {} s.resv a : Resv).holder with
        | none => .next (s.grant a (core, ctx, p.gen, op))
        | some (k, x, gen, _) =>
          if k = core ∧ x = ctx ∧ gen = p.gen then reply s else .next (s.parkLrw core ctx a p)

/-- SC_HOME (R229): the holder's store is performed before the reservation passes on; any other SC stores nothing. -/
def execScHome (core ctx op : Nat) (s : State) : Host.Outcome State Fault Refusal :=
  let e := Event.scHome core ctx op
  match s.askedOp core ctx op with
  | none => .next (s.ack e)
  | some p =>
    let a := p.addrs.headD 0
    homeStep e (opSite core p.place) p.addrs true s fun s =>
      let s := if s.lapsed a (Sparse.get {} s.resv a) then s.passResv a else s
      let holds := (Sparse.get {} s.resv a : Resv).holder.any fun (k, x, gen, _) => k == core && x == ctx && gen == p.gen
      let s := if holds then (s.performWrite (p.addrs.zip p.data) []).passResv a else s
      .next (s.answer e (.replyDeposit (State.replyTo core ctx p .sc (bytesOf 8 (if holds then 1 else 0)) false)))

/-! What comes back. -/

/-- STORE_ACK (R130): an acknowledgement lowers the store-acknowledge counter; releases that wait on it go on
(R133, R145). -/
def execStoreAck (core ctx : Nat) (s : State) : Host.Outcome State Fault Refusal :=
  .next (((s.mapCtx core ctx fun t => { t with sack := t.sack - 1 }).kick core ctx).settled core ctx)

/-- An operation posted to module `m` that is not performed yet (R130, R134). -/
def postedTo (k m : Nat) (p : PendOp) : Bool :=
  !p.counted && State.placeMod k p.place == m && (match p.kind with
    | .store => true
    | .put => true
    | .post => true
    | .amo => p.req.any fun r => r.ret.isNone && !r.stat
    | _ => false)

/-- Whether every operation of a context posted to module `m` before place `upto` in its program order is performed: a
committed PUT that has not left yet may reach any module (R134, R248). -/
def postedDone (k m : Nat) (t : Ctx) (upto : Nat) : Bool :=
  !t.pend.any (fun p => p.seq < upto && postedTo k m p)
    && !t.send.any fun e => e.committed && e.after < upto && (match e.eff with
      | .put _ => true
      | _ => false)

/-- A flush without the module `m`, where it has returned from there. -/
def Flush.returned (f : Flush) (k m : Nat) (t : Ctx) : Flush :=
  if postedDone k m t f.upto then { f with mods := f.mods.filter (· != m) } else f

/-- FLUSH_RETURN (R134, R248): the zero-length FLUSHRD to a module returns once every operation posted to it before is
performed; the module's bit clears unless one was posted after the flush began. -/
def execFlushReturn (core ctx mod : Nat) (s : State) : Host.Outcome State Fault Refusal :=
  let t := s.ctxAt core ctx
  let fs := (t.flush.toList ++ t.flushrd.toList ++ t.pend.filterMap (·.flush)).filter fun f =>
    f.mods.contains mod && postedDone core mod t f.upto
  if fs.isEmpty then .next s
  else
    let back := fun (f : Flush) => f.returned core mod t
    let stays := t.pend.any (postedTo core mod) || fs.all fun f => f.since ≤ Sparse.get 0 t.posted mod
    .next ((s.mapCtx core ctx fun t =>
      { t with pend := t.pend.map fun p => { p with flush := p.flush.map back }
               flush := t.flush.map back, flushrd := t.flushrd.map back
               peers := if stays then t.peers else t.peers &&& ~~~(1#8 <<< mod) }).kick core ctx)

/-- COMBINE_SEND (R142): an entry whose 64 cycles are over is sent; the next oldest may be due as well. -/
def execCombineSend (core idx : Nat) (s : State) : Host.Outcome State Fault Refusal :=
  let due := fun (s : State) (i : Nat) => ((s.core core).ni.combine[i]?).any fun e => e.since + 64 ≤ (s.core core).cycle
  if !due s idx then .next s
  else
    let s := s.combineSend core idx
    .next (if due s 0 then s.push (.combineSend core 0) else s)

/-- A remote copy whose time is over (R126): 4,096 core cycles, which are 8,192 fabric cycles, after its fill. -/
def copyOver (now : Nat) (c : Option RemoteCopy) : Bool := c.any fun r => r.filled + 8192 ≤ now

/-- REMOTE_COPY_EXPIRY (R126): a core's remote copy of a line whose time is over is invalidated, and that of its cluster,
with the copies of the cluster's other L1 caches (R107). -/
def execRemoteCopyExpiry (core line : Nat) (s : State) : Host.Outcome State Fault Refusal :=
  let now := (s.site (siteOf core)).fab
  let s := s.dropL1 (· == core) fun l => l.line == line && copyOver now l.copy
  .next (match s.clusterFind core line with
    | some e => if copyOver now e.copy then s.evictLine (siteOf core) (clusterOf core) e else s
    | none => s)

/-- FORWARD_DONE (R252): the holding of direct requests at a new owner ends, and they are performed. -/
def execForwardDone (hod : Nat) (highest : List (Nat × Nat)) (s : State) : Host.Outcome State Fault Refusal :=
  let ended := fun (h : Nat × Nat × Nat) => highest.any fun (a, top) => a == h.2.1 && (top + 65536 - h.2.2) % 65536 < 32768
  let s := s.mapSite (agentSite hod) fun t =>
    { t with fwdHold := Sparse.set t.fwdHold hod ((Sparse.get [] t.fwdHold hod).filter fun h => !ended h) }
  .next (s.resume (s.heldSteps fun o _ => o == hod))

/-! Replies. -/

/-- The code of a reply kind (R31); a line fill is none. -/
def kindCode : ReplyKind → Nat
  | .load => 1
  | .get => 2
  | .amo => 3
  | .flushrd => 4
  | .grant => 5
  | .sc => 6
  | .vload => 7
  | .tload => 8
  | .fill => 0

/-- The message an orphan becomes (R31): class 0, to its own core, for the team's orphan handler. -/
def orphanMsg (k : Nat) (t : Team) (h : Nat) (p : PendOp) (r : Reply) : Message :=
  let whole := match p.fin with
    | .vec lanes w bcast =>
      let bytes := if bcast then (List.replicate lanes.length r.bytes).flatten else r.bytes
      bytesOf 64 (State.putLanes 0 w lanes bytes).toNat
    | _ => []
  let val := match p.fin with
    | .int size sgn =>
      let raw := ofBytes (r.bytes.take size)
      if sgn then BitVec.ofInt 64 (intOf (8 * size) true raw) else BitVec.ofNat 64 raw
    | _ => r.val
  let tagged := r.tag && (match p.fin with
    | .cap keep => keep
    | _ => false)
  let plain := r.kind != .vload && r.kind != .tload
  { noMsg with
    dst := k, pos := teamPos t k, team := some (t.grid, t.idx), handler := h, cls := 0, orphan := true
    a1 := if plain then val else 0, a2 := BitVec.ofNat 64 (r.dest * 256 + kindCode r.kind)
    a3 := BitVec.ofNat 64 (r.ctx * 256 + r.gen), cap := if tagged && plain then ⟨r.val, r.desc, true⟩ else ⟨0, 0, false⟩
    payload := if r.kind = .vload then whole else [] }

/-- An orphan reply (R31, R32): counted, and turned into a message where the team has an orphan handler. The context's
generation is free again, and its grid may be complete (R144). -/
def State.orphan (s : State) (p : PendOp) (r : Reply) : State :=
  let s := s.mapCtx r.core r.ctx fun t =>
    { t with owed := t.owed.filter (·.op != r.op), pend := t.pend.filter (·.op != r.op) }
  let s := s.mapNi r.core fun ni => { ni with orphans := sat32 (ni.orphans + 1) }
  let s := (s.push (.dispatch r.core)).quietOn r.core
  let s := match s.teamAt r.core, (s.imageAt r.core).orphan with
    | some t, some h => s.niOwn r.core (orphanMsg r.core t h p r)
    | _, _ => s
  s.settled r.core r.ctx

/-- The lines a fill brings are cached (R104, R107). A remote copy is not where a remote-copy invalidation or a write has
come in between (R126, R124), and it makes older fills of its line under way stale. -/
def State.installFill (s : State) (k : Nat) (p : PendOp) (extra : List Byte) : State :=
  (linesOf p.addrs).zipIdx.foldl (fun s (l, i) =>
    if !State.farLine k l then s.fillLine k l none
    else if p.stale || s.lineWritten k l then s
    else (s.staleFills k (· == l)).fillLine k l (some (s.copyFrom k ((extra.drop (129 * i)).take 129)))) s

/-- What a reply does to the caches of its core (R104, R126, R124): a fill is installed; any other read of another module's
home leaves no copy of its line that may be older; a grant, or an acquire at DOMAIN or SYSTEM, invalidates remote copies
(R132, R228). -/
def State.replyCaches (s : State) (k : Nat) (p : PendOp) (r : Reply) : State :=
  if p.acq.any (4 ≤ ·) then s.dropCopies k
  else if r.kind = .fill then s.installFill k p (r.bytes.drop p.addrs.length)
  else if State.placeMod k p.place = modOf k then s
  else s.dropCopiesOf k fun l => p.addrs.any fun a => lineOf a == l

/-- REPLY_DEPOSIT (R31, R81): a reply is deposited into the task that asked, else it is an orphan; one whose deposit was
cancelled is discarded. A context that waits for
its LRW's grant goes on (R228), and an IDLE one wakes (R402). -/
def execReplyDeposit (r : Reply) (s : State) : Host.Outcome State Fault Refusal :=
  let t := s.ctxAt r.core r.ctx
  let mine := fun (p : PendOp) => p.op == r.op && p.gen == r.gen
  match t.owed.find? mine, t.pend.find? mine with
  | some p, _ => .next (s.orphan p r)
  | none, none => .next s
  | none, some p =>
    if !(t.occupied && t.gen == r.gen) then .next (((s.dropOp r.core r.ctx r.op).quietOn r.core).settled r.core r.ctx)
    else
    let s := (s.deposit r.core r.ctx p r.bytes r.tag).replyCaches r.core p r
    let t := s.ctxAt r.core r.ctx
    let s := if t.park = some (.lrw r.op) ∨ t.wait = some (.lrw r.op) then
        s.asCtx r.core r.ctx fun s => (s.mapTask fun t => { t with park := none, wait := none }).advance
      else s
    let s := if (s.ctxAt r.core r.ctx).idle.isSome && !p.cancelled then s.pushOnce (.idleWake r.core r.ctx) else s
    .next (s.kick r.core r.ctx)

end Sys2Proof.Machine
end

