-- ==== Sys2Proof/Machine/Inbound.lean ====
section
/-!
DEFINITION. The network interface: messages accepted, refused, forwarded and retried (R20, R24 to R28, R51),
dispatch and promotion (R23, R29, R30, R32, R61, R378, R379), wakes (R33, R402), BUDGET (R43), and the transmission
of committed effects (R28, R36, R130, R137, R140, R246).
-/
namespace Sys2Proof.Machine

/-! Acceptance. -/

/-- The team a message names (R20). -/
def State.msgTeam (s : State) (m : Message) : Option (Nat × Team) :=
  m.team.bind fun (g, i) => s.teams.find? fun (_, t) => t.grid == g && t.idx == i

/-- The entry a message may take (R24, R25): the one a room notice reserves for it, else a free one. -/
def State.entryFor (s : State) (k : Nat) (m : Message) : Option Bool :=
  match (s.core k).ni.rooms.find? (·.id == m.id) with
  | some r => some r.reserved
  | none => (s.core k).freeEntry m.cls

/-- A message accepted at a core (R24 to R27): its listing, its reservation and its chain end, and it is queued. -/
def State.acceptAt (s : State) (k : Nat) (m : Message) (reserved : Bool) : State :=
  ((s.ack (.messageAccept m)).settleMsg (some k) m).enqueue k m reserved

/-- A message at the core it is for (R24, R27); one whose NI is being copied to a spare, or is lost, refuses with NOLIST
(R408). -/
def State.inbound (s : State) (k : Nat) (m : Message) : State :=
  if m.ordered && (s.core k).ni.chains.any (fun (src, id) => src == m.src && id != m.id) then s.refuseAt k m true false
  else if (s.core k).lost ≠ 0 then s.refuseAt k m false false
  else match s.entryFor k m with
    | some r => s.acceptAt k m r
    | none => s.refuseAt k m false true

/-- A translation-fault message that is discarded at its target ends its fault (R388). -/
def State.strayFault (s : State) (m : Message) : State :=
  let st := m.src / 1024
  let open_ := (Sparse.find (s.site st).faults m.a3.toNat).any fun f => f.va == m.a1.toNat
  if msgSrc m = 3 && open_ then
    (s.mapSite st fun t => { t with mcLost := sat16 (t.mcLost + 1) }).push (.fltdoneFail (st / 24 * 2 ^ 32 + m.a3.toNat))
  else s

/-- MESSAGE_ACCEPT (R20, R24, R51): an absolute message is for the team placed here, any other for its own team,
wherever that stands: at another core, or, while the team has no place or its mail drop is not empty, in that drop. -/
def execMessageAccept (m : Message) (s : State) : Host.Outcome State Fault Refusal :=
  let k := m.dst
  let e := Event.messageAccept m
  let drop := ((s.ack e).stray k m).strayFault m
  match m.team with
  | none => .next (match s.teamAt k with
    | some t => if t.state = .placing || t.state = .ended then drop else s.inbound k m
    | none => drop)
  | some _ =>
    match s.msgTeam m with
    | none => .next drop
    | some (uid, t) =>
      let here := teamCore t m.pos.1 m.pos.2
      let placed :=
        if here = k then s.inbound k m
        else if m.ordered && (s.core k).ni.chains.any (fun (src, id) => src == m.src && id != m.id) then s.refuseAt k m true false
        else ((s.ack e).mapNi k fun ni => { ni with redirects := sat32 (ni.redirects + 1) }).route (agentNi k) (agentNi here)
          (msgFlits m) 3 (.messageAccept { m with dst := here })
      if t.state = .ended then .next drop
      else if t.byDrop then execMaildropAppend uid m s
      else .next placed

/-! Retransmission. -/

/-- R26: the delay of a timed retry, in core cycles. -/
def timedDelay (m : Message) : Nat := 256 * 2 ^ min m.timed 5

/-- A retry entry has freed (R28, R52): the NI goes on transmitting, and messages saved by a swap enter. -/
def State.retryFreed (s : State) (k : Nat) : State :=
  let s := match (s.core k).team, s.teamAt k with
    | some uid, some t => if t.retryArea.isEmpty ∨ (t.state ≠ TeamState.placed ∧ t.state ≠ TeamState.replay) then s else s.restoreRetry uid t
    | _, _ => s
  ((s.core k).ctxs.filter fun (_, t) => (State.nextOut t).isSome).foldl (fun s (x, _) => s.pushOnce (.niTransmit k x)) s

/-- A message leaves the retry buffer and goes again. -/
def State.sendAgain (s : State) (k : Nat) (old m : Message) : State :=
  let s := s.mapNi k fun ni => { ni with retry := ni.retry.filter (·.msg.id != old.id) }
  (s.retransmit (agentNi k) m).retryFreed k

/-- REFUSE (R25, R26, R50): the refusal reaches the sending NI, which keeps the message; a team that is being swapped
out takes it to its swap area. -/
def execRefuse (m : Message) (nolist chain : Bool) (s : State) : Host.Outcome State Fault Refusal :=
  let k := m.src
  let r : RetryEntry := { msg := m, listed := !nolist && !chain, chain
                          due := if nolist then some ((s.core k).cycle + timedDelay m) else none }
  let keep := fun (s : State) => s.mapRetry k fun l => retryInsert r (l.filter (·.msg.id != m.id))
  .next (if (s.teamAt k).any (·.state == .quiescing) then (keep (s.giveUp (agentNi k) m.id)).quietOn k else keep s)

/-- The agent that sends a message (R214, R318). -/
def srcAgent (m : Message) : Nat :=
  match msgSrc m with
  | 0 => agentNi m.src
  | 1 => agentHod (m.src / 1024) (m.id.extractLsb' 16 6).toNat
  | _ => agentGw (m.src / 1024)

/-- A refused message of a site's own agents goes again: the sequencer's to its team's mail drop, where it was refused. -/
def State.resendAgain (s : State) (site : Nat) (m : Message) : State :=
  let s := s.mapSite site fun t => { t with resend := t.resend.filter fun (x, _) => x.id != m.id }
  if msgSrc m ≠ 2 then s.retransmit (srcAgent m) m
  else match s.msgTeam m with
    | some (uid, _) => s.push (.maildropAppend uid m)
    | none => s.consume m

/-- ROOM_NOTICE (R25): an entry is reserved, and the sender retransmits. -/
def execRoomNotice (core _target : Nat) (id : Word) (s : State) : Host.Outcome State Fault Refusal :=
  match (s.core core).ni.retry.find? (·.msg.id == id) with
  | some r => .next (s.sendAgain core r.msg r.msg)
  | none =>
    match (s.site (siteOf core)).resend.find? fun (m, _) => m.id == id with
    | some (m, _) => .next (s.resendAgain (siteOf core) m)
    | none => .next s

/-- ROOM_RESERVATION_LAPSE (R25): after 2,048 cycles the reservation and the listing go, and the sender falls back to
timed retry. -/
def execRoomReservationLapse (core : Nat) (id : Word) (s : State) : Host.Outcome State Fault Refusal :=
  match (s.core core).ni.rooms.find? (·.id == id) with
  | none => .next s
  | some r =>
    if (s.core core).cycle < r.until_ then .next s
    else
      let s := s.mapNi core fun ni =>
        { ni with rooms := ni.rooms.filter (·.id != id), refusals := ni.refusals.filter (·.1 != id) }
      let now := (s.core r.sender).cycle
      let late := fun (e : RetryEntry) =>
        if e.msg.id = id then { e with listed := false, due := some (now + timedDelay e.msg) } else e
      .next ((s.mapNi r.sender fun ni => { ni with retry := ni.retry.map late }).entryFreed core)

/-- TIMED_RETRY (R26, R52): a message whose delay is over goes again, counted in TIMEDRETRY; one that a swap-in
returned goes at once, uncounted. -/
def execTimedRetry (core : Nat) (id : Word) (s : State) : Host.Outcome State Fault Refusal :=
  match (s.core core).ni.retry.find? (·.msg.id == id) with
  | none => .next s
  | some r =>
    if r.chain then .next (s.sendAgain core r.msg r.msg)
    else match r.due with
      | none => .next s
      | some d =>
        if (s.core core).cycle < d then .next s
        else
          let s := s.mapNi core fun ni => { ni with timedretry := sat32 (ni.timedretry + 1) }
          .next (s.sendAgain core r.msg { r.msg with timed := r.msg.timed + 1 })

/-- A SENDO message that has not left yet may do so (R27, R52): nothing of its channel is ahead of it in the retry buffer or in
the swap area, its target has no refused message of the channel, and beyond the site none is unanswered. -/
def State.freshReady (s : State) (k : Nat) (r : RetryEntry) : Bool :=
  let same := fun (q : RetryEntry) => State.sameChannel q.msg r.msg
  let targets := r.msg.dst :: ((s.msgTeam r.msg).map fun (_, t) => teamCore t r.msg.pos.1 r.msg.pos.2).toList
  r.fresh && !((s.core k).ni.retry.takeWhile (· != r)).any same && !(s.areaOf k).any same
    && !targets.any (fun o => (s.core o).ni.chains.any (·.1 == k))
    && (siteOf k == siteOf r.msg.dst || !(s.xmitOf (agentNi k)).any fun x => match x.step with
      | .messageAccept o => o.src == k && State.sameChannel o r.msg
      | _ => false)

/-- What an NI has held goes on as it may (R25, R27, R52): saved messages enter its retry buffer, its own messages and SENDO
messages that have not left yet are sent. -/
def State.coreSends (s : State) (k : Nat) : State :=
  let ni := (s.core k).ni
  let s := if (s.areaOf k).isEmpty then s else s.retryFreed k
  let s := if ni.own.isEmpty then s else s.sendOwn k
  (ni.retry.filter (·.fresh)).foldl (fun s r => if s.freshReady k r then s.sendAgain k r.msg r.msg else s) s

/-- CHAIN_ACK (R27): the refused message of a channel is accepted, and the messages held behind it go, in sequence;
beyond the site one at a time, the next when this one is answered. One that has not left yet lets those of its channel in the
swap area go first (R52). -/
def execChainAck (core target : Nat) (s : State) : Host.Outcome State Fault Refusal :=
  let forIt := fun (m : Message) => m.ordered && (m.dst == target || (s.msgTeam m).any fun (_, t) =>
    teamCore t m.pos.1 m.pos.2 == target)
  let held := (s.core core).ni.retry.filter fun r =>
    r.chain && forIt r.msg && !(r.fresh && (s.areaOf core).any fun q => State.sameChannel q.msg r.msg)
  let go := if siteOf core = siteOf target then held else held.take 1
  .next (go.foldl (fun s r => s.sendAgain core r.msg r.msg) s)

/-! Dispatch. -/

/-- An entry put ahead of every entry of its class accepted later (R378). -/
def placeByAge (e : QEntry) : List QEntry → List QEntry
  | [] => [e]
  | q :: qs => if q.cls = e.cls ∧ e.accepted < q.accepted then e :: q :: qs else q :: placeByAge e qs

/-- PROMOTION (R378): after 2^16 core cycles in a class below 3 a message moves up one, ahead of the class's younger ones. -/
def execPromotion (core : Nat) (id : Word) (s : State) : Host.Outcome State Fault Refusal :=
  let now := (s.core core).cycle
  let q := (s.core core).ni.queue
  let up := match q.find? (·.msg.id == id) with
    | none => q
    | some e => if e.cls < 3 ∧ e.moved + 65536 ≤ now then placeByAge { e with cls := e.cls + 1, moved := now } (q.erase e) else q
  .next ((s.mapNi core fun ni => { ni with queue := up }).push (.dispatch core))

/-- The message to dispatch (R29, R378): the oldest of the highest class, but for handlers a parked WAITM waits for
(R249), and for one accepted in this cycle (R379). -/
def Core.pick (c : Core) : Option QEntry :=
  let waited := fun (h : Nat) => c.ctxs.any fun (_, t) => match t.park with
    | some (.waitm _ h') => h' == h
    | _ => false
  [3, 2, 1, 0].findSome? fun cls => c.ni.queue.find? fun e => e.cls == cls && e.arrived != some c.cycle && !waited e.msg.handler

/-- A context is withheld while its next generation has a reply outstanding (R32). -/
def genHeld (t : Ctx) : Bool := t.owed.any fun p => p.gen == (t.gen + 1) % 256

/-- Free contexts that R32 withholds are counted once for each period (R59). -/
def State.markHeld (s : State) (k : Nat) : State :=
  (List.range 8).foldl (fun s x =>
    let t := s.ctxAt k x
    if !t.occupied && genHeld t && !t.withheld then
      (s.setCtxAt k x { t with withheld := true }).mapNi k fun ni => { ni with genhold := sat32 (ni.genhold + 1) }
    else s) s

/-- The lowest-numbered free context that is not withheld (R379); one freed in this cycle can be taken in the next (R381). -/
def State.freeCtx (s : State) (k : Nat) : Option Nat :=
  (List.range 8).find? fun x =>
    let t := s.ctxAt k x
    !t.occupied && !genHeld t && t.turned != some (s.core k).cycle

/-- Offset and bytes of a core's share of the stack region (R61, R108). -/
def stackOf : List (Nat × Bool × List Byte) → Nat → Option (Nat × Nat)
  | [], _ => none
  | (b, st, _) :: t, o => if st then some (o, b) else stackOf t (o + (b + 4095) / 4096 * 4096)

/-- The general registers at task start (R29, R61): g61 covers an eighth of the stack region's share, as rounded up (R108). -/
def startRegs (img : Image) (t : Team) (m : Message) (va x : Nat) : Sparse Reg :=
  let n := shareBytes img
  let stack := match stackOf img.regions 0 with
    | none => []
    | some (o, b) =>
      let n := (b + 4095) / 4096 * 512
      let lo := va + o + x * n
      [(61, { capReg (capOver [pLD, pST, pLDC, pSTC] lo n) with val := BitVec.ofNat 64 (lo + n) })]
  [(1, { val := m.a1 }), (2, { val := m.a2 }), (3, { val := m.a3 }), (4, { val := m.a4 }),
   (5, if m.cap.tag then capReg m.cap else {}), (6, capReg t.tableCap),
   (7, capReg (capOver [pLD, pST, pLDC, pSTC, pSYNC] va n))] ++ stack

/-- The context of a new task (R29, R30, R61): what is left of the context before is the core's bookkeeping (R47). -/
def startCtx (old : Ctx) (e : QEntry) (pc : Word) (g : Sparse Reg) (now : Nat) : Ctx :=
  { occupied := true, gen := (old.gen + 1) % 256, turned := some now, pc, g, msg := e.msg, dcls := e.cls, entry := some e
    window := e.msg.payload, opNo := old.opNo, sack := old.sack, peers := old.peers, posted := old.posted, pend := old.pend
    send := old.send, sendHold := old.sendHold, divert := old.divert, owed := old.owed }

/-- A task starts in a context (R23, R29): the handler table gives its PC; a handler that is none takes ILLEGAL with PC
zero. A SENDR message does its remote-copy invalidation first (R137). -/
def State.startTask (s : State) (k x uid : Nat) (t : Team) (e : QEntry) : State :=
  let img := s.imageOf t
  let m := e.msg
  let (tx, ty) := teamPos t k
  let w := s.readWord (teamStore + uid * 2 ^ 32 + 2 ^ 28 + 8 * m.handler)
  let ok := m.handler < img.handlers.length && w.getLsbD 63
  let pc := if ok then BitVec.ofNat 64 (t.base + 4 * (w.extractLsb' 0 32).toNat) else 0
  let g := startRegs img t m (shareVa uid (savedKey t tx ty)) x
  let s := s.mapNi k fun ni => { ni with queue := ni.queue.erase e }
  let s := (s.setCtxAt k x (startCtx (s.ctxAt k x) e pc g (s.core k).cycle)).mapCore k fun c => { c with dispatched := some c.cycle }
  let s := if m.release then s.dropCopies k else s
  if ok then s else s.takeTrap k x cILLEGAL 0 0 0 false

/-- DISPATCH (R29, R379): one message, into the lowest free context, at most once in a cycle. A poisoned one is discarded
(R406). -/
def execDispatch (core : Nat) (s : State) : Host.Outcome State Fault Refusal :=
  let c := s.core core
  match c.team, s.teamAt core with
  | some uid, some t =>
    if c.dispatchStop || c.frozen || c.lost ≠ 0 || c.dispatched = some c.cycle || (t.state ≠ .placed && t.state ≠ .replay) then .next s
    else
      let s := s.markHeld core
      match c.pick with
      | none => .next s
      | some e =>
        if e.poisoned then
          .next ((s.discardEntry core e).push (.dispatch core))
        else match s.freeCtx core with
          | none => .next s
          | some x => .next (s.startTask core x uid t e)
  | _, _ => .next s

/-- BUDGET (R43, R162): a task whose count exceeds its budget takes the trap, except while its XEND commits. -/
def execBudget (core ctx : Nat) (s : State) : Host.Outcome State Fault Refusal :=
  let t := s.ctxAt core ctx
  if !t.occupied || t.budget ≤ (s.imageAt core).budget || t.hold.isSome || t.wait == some .xend then .next s
  else .next (s.takeTrap core ctx cBUDGET 0 (State.instrPc t) 0 false)

/-! Wakes. -/

/-- PARK_RESUME (R33, R249, R267): a parked wait that is satisfied ends: WAITM and BWAIT complete, a stream wait is
tried again. A BWAIT of a frozen team stays parked (R412). -/
def execParkResume (core ctx : Nat) (s : State) : Host.Outcome State Fault Refusal :=
  let t := s.ctxAt core ctx
  let awake := s.mapCtx core ctx fun t => { t with park := none }
  match t.park with
  | some (.waitm d h) =>
    match State.waitmPick (s.core core).ni.queue h with
    | none => .next s
    | some e =>
      if e.poisoned then
        .next ((s.discardEntry core e).push (.parkResume core ctx))
      else .next ((s.asCtx core ctx fun s => (s.takeMsg d e).advance).wakeWaitm core h)
  | some (.bwait d) =>
    let poison := fun (s : State) => .next (s.takeTrap core ctx cPOISON 0 (State.instrPc t)
      ((t.barr.map (·.blk)).getD 0) false)
    if (s.core core).frozen then .next s
    else if (s.core core).poisonMark then poison (awake.mapCore core fun c => { c with poisonMark := false })
    else match t.barr.bind (·.status) with
      | none => .next s
      | some 3 => poison awake
      | some st => .next (awake.asCtx core ctx fun s => s.bwaitDone d st)
  | some (.pop _) => .next awake
  | some (.append _) => .next awake
  | _ => .next s

/-- IDLE_WAKE (R402). -/
def execIdleWake (core ctx : Nat) (s : State) : Host.Outcome State Fault Refusal :=
  .next (if (s.ctxAt core ctx).idle.isNone then s
    else s.asCtx core ctx fun s => (s.mapTask fun t => { t with idle := none }).advance)

/-! Transmission. -/

/-- Translation for a core's NI (R246): where a byte stands and is served, or a fault cause. -/
def State.niXlate (s : State) (k va : Nat) (acc : Access) : State × ((Nat × Place) ⊕ Nat) :=
  match s.xlate k va acc with
  | .ok a p => (s, .inl (a, p))
  | _ =>
    match s.agentXlate (s.partAt k) (s.supAt k) (siteOf k) (siteOf k, clusterOf k) va acc with
    | (s, .inl a) => (s, .inl (a, s.placeOf (siteOf k) a))
    | (s, .inr c) => (s, .inr c)

/-- A range translated for a core's NI, in parts that cross no 256-byte block; or the first fault. -/
def State.niRange (s : State) (k va n : Nat) (acc : Access) : State × (List (List Nat × Place) ⊕ (Nat × Nat)) :=
  (blockParts (BitVec.ofNat 64 va) n).foldl (fun (st, out) (x, _, len) =>
    match out with
    | .inr e => (st, .inr e)
    | .inl parts =>
      match st.niXlate k x.toNat acc with
      | (st, .inl (a, p)) => (st, .inl (parts ++ [(addrRange a len, p)]))
      | (st, .inr c) => (st, .inr (x.toNat, c))) (s, .inl [])

/-- The operations of a PUT (R246): a store for each part of its destination, and the increment that follows them all. Its
place in program order is that of the held effect (R131). -/
def putOps (k : Nat) (t : Ctx) (seq : Nat) (data : List Byte) (dst : List (List Nat × Place)) (ctr : Nat) (p : Place) :
    List PendOp :=
  let own := (p :: dst.map (·.2)).all fun q => State.placeMod k q == modOf k
  let offs := dst.foldl (fun (acc : List Nat × Nat) d => (acc.1 ++ [acc.2], acc.2 + d.1.length)) ([], 0)
  let stores := (dst.zip offs.1).zipIdx.map fun ((d, o), i) =>
    ({ op := t.opNo + i, seq, gen := t.gen, kind := .store, addrs := d.1, data := (data.drop o).take d.1.length
       place := d.2 } : PendOp)
  let req : AmoReq := { core := k, addr := ctr, op := 0, opnd := 1, cmp := 0, comm := false, stat := false, scope := 0
                        ret := none, acks := [] }
  stores ++ [{ op := t.opNo + dst.length, seq, gen := t.gen, kind := .put, addrs := addrRange ctr 8, place := p
               counted := own, req := some req, after := stores.map (·.op) }]

/-- A PUT that an earlier operation of its context on its source still waits for (R124). -/
def putWaits (t : Ctx) (seq : Nat) (src : List Nat) : Bool :=
  t.pend.any fun q => q.seq < seq && (q.kind == .amo || q.kind == .put || q.kind == .sc) && !q.req.any (·.stat)
    && q.addrs.any src.contains

/-- A PUT leaves (R246, R130, R139): its source is read now, its bytes become stores, and its increment follows them. A
PUT all of whose parts are homed in the module is counted, and waits while the counter stands at 64; else the modules it
reaches are marked, and the remote copies that its core holds take its bytes (R124, R126). -/
def State.sendPut (s : State) (k x seq : Nat) (q : PutReq) : State :=
  let e := Event.niTransmit k x
  let stop := fun (s : State) (va c : Nat) (a : Access) => if c = fWAIT then s.again e else s.openFault (.ni k x) va c a
  match s.niRange k q.src q.len .read with
  | (s, .inr (va, c)) => stop s va c .read
  | (s, .inl src) => match s.niRange k q.dst q.len .write with
    | (s, .inr (va, c)) => stop s va c .write
    | (s, .inl dst) => match s.niXlate k q.ctr .amo with
      | (s, .inr c) => stop s q.ctr c .amo
      | (s, .inl (a, p)) =>
        let t := s.ctxAt k x
        let from_ := src.flatMap (·.1)
        let read : PendOp := { op := t.opNo, seq, gen := t.gen, kind := .get }
        let ops := putOps k t seq (from_.map (s.loadByte k t read)) dst a p
        let own := ops.any (·.counted)
        let host := ((src ++ dst).map (·.2) ++ [p]).any fun q => match q with
          | .host _ => true
          | _ => false
        if host && (s.portOf (siteOf k)).isNone then s.dropPut k x q.dst
        else if s.tileLocked from_ then s.again e
        else if putWaits t seq from_ || (own && 64 ≤ t.sack) then s
        else
          let far := ((ops.map fun o => State.placeMod k o.place).foldl insertNat []).filter (· != modOf k)
          let s := s.mapCtx k x fun t =>
            { t with opNo := t.opNo + ops.length, pend := t.pend ++ ops, sack := if own then t.sack + 1 else t.sack
                     peers := far.foldl (fun b m => b ||| 1#8 <<< m) t.peers
                     posted := far.foldl (fun l m => Sparse.set l m t.opNo) t.posted }
          let away := ops.filter fun o => o.kind == .store && State.placeMod k o.place != modOf k
          let s := away.foldl (fun s o => s.storeCopies k (o.addrs.zip o.data) []) s
          (s.sent k x).kick k x

/-- What a SENDR and a hod request at place `after` wait for (R137, R140): the counter at zero for what comes before them,
and the written peers flushed; a flush that has not begun begins. -/
def State.sendrReady (s : State) (k x after : Nat) : State × Bool :=
  let s := s.combineFlush k x after
  let t := s.ctxAt k x
  if !State.countedDone t after then (s, false)
  else if State.flushOver t t.flush then (s.mapCtx k x fun t => { t with flush := none }, true)
  else (if t.flush.isNone then s.beginFlush k x after else s, false)

/-- NI_TRANSMIT (R28, R36, R130, R136, R324): the oldest committed effect of a context leaves once every fence and release
before it is complete, unless the retry buffer or the transmit store has no room for it or a fault holds it. A bag is split here, and any
other hod request goes to its hod (R253, R256). -/
def execNiTransmit (core ctx : Nat) (s : State) : Host.Outcome State Fault Refusal :=
  let t := s.ctxAt core ctx
  match State.nextOut t with
  | none => .next s
  | some ⟨eff, _, after, _⟩ =>
    let waits := t.pend.any fun p => p.seq < after && (p.rel.isSome || p.kind == .fenceSs || p.acq.isSome)
    if waits || s.retryRoom core = 0 || t.sendHold.isSome then .next s
    else match eff with
      | .fifoHead bk n => .next ((s.moveFifo bk true n).sent core ctx)
      | .fifoTail bk n => .next ((s.moveFifo bk false n).sent core ctx)
      | .put q => .next (s.sendPut core ctx after q)
      | .msg m =>
        if !s.mayRoute (agentNi core) (agentNi m.dst) then .next s
        else if !m.release then .next ((s.niSend core m).sent core ctx)
        else match s.sendrReady core ctx after with
          | (s, true) => .next ((s.niSend core m).sent core ctx)
          | (s, false) => .next s
      | .hod r =>
        match s.sendrReady core ctx after with
        | (s, true) =>
          let (hs, hl) := s.hodHome r
          if r.kind != .copy && r.kind != .fill then
            .next ((s.push (.hodRequest { r with hod := some (hs, hl) })).sent core ctx)
          else if !s.mayRoute (agentNi core) (agentHod hs hl) then .next s
          else .next ((s.route (agentNi core) (agentHod hs hl) 1 0 (.hodRequest { r with hod := some (hs, hl) })).sent core ctx)
        | (s, false) => .next s

end Sys2Proof.Machine
end

