-- ==== Sys2Proof/Machine/Fabric.lean ====
section
/-!
DEFINITION. The Porder fabric (R314 to R331, R410, R421): routers and links, reassembly, sequence windows, transmit
stores, retransmission, and the cancelling of requests that cannot be answered (R409).
-/
namespace Sys2Proof.Machine

/-! Links. Directions are 0 X+, 1 X−, 2 Y+, 3 Y−, 4 Z+, 5 Z−; a link's number is site · 6 + direction (log 23). -/

/-- The site at the other end of a link (R9, R319, R421): a 6 × 4 torus in each module, and a ring of modules. -/
def State.neighbour (s : State) (st dir : Nat) : Nat :=
  let m := st / 24
  let x := st % 24 % 6
  let y := st % 24 / 6
  let d := max 1 (s.module m).domain
  match dir with
  | 0 => m * 24 + y * 6 + (x + 1) % 6
  | 1 => m * 24 + y * 6 + (x + 5) % 6
  | 2 => m * 24 + (y + 1) % 4 * 6 + x
  | 3 => m * 24 + (y + 3) % 4 * 6 + x
  | 4 => (m + 1) % d * 24 + st % 24
  | _ => (m + d - 1) % d * 24 + st % 24

/-- The same link's direction at its other end. -/
def backDir (dir : Nat) : Nat := if dir % 2 = 0 then dir + 1 else dir - 1

def State.link (s : State) (st dir : Nat) : Link := Sparse.get {} (s.site st).links dir
def State.mapLink (s : State) (st dir : Nat) (f : Link → Link) : State :=
  s.mapSite st fun t => { t with links := Sparse.set t.links dir (f (Sparse.get {} t.links dir)) }

/-- A link that carries flits: not dead, and for Z trained at both ends (R323, R421). -/
def State.liveLink (s : State) (st dir : Nat) : Bool :=
  let l := s.link st dir
  !l.dead && (dir < 4 || (l.up && (s.link (s.neighbour st dir) (backDir dir)).up && 2 ≤ (s.module (st / 24)).domain))

/-- Neighbours over live links. -/
def State.liveNext (s : State) (st : Nat) : List Nat :=
  ((List.range 6).filter (s.liveLink st)).map (s.neighbour st)

/-- Hops from a frontier of sites to a target over live links, if any path of at most `fuel` exists. -/
def State.search (s : State) (target : Nat) : Nat → List Nat → List Nat → Nat → Option Nat
  | 0, _, _, _ => none
  | fuel + 1, front, seen, d =>
    if front.contains target then some d
    else
      let next := (front.flatMap s.liveNext).filter fun x => !seen.contains x
      match next with
      | [] => none
      | _ => search s target fuel (next.foldl insertNat []) (next.foldl insertNat seen) (d + 1)

/-- Hops between two sites over live links. -/
def State.hops (s : State) (a b : Nat) : Option Nat := s.search b 200 [a] [a] 0

/-! Answers and requests at their agents. -/

/-- The core of an NI's agent identifier (R318). -/
def agentCore (a : Nat) : Nat := agentSite a * 1024 + a % 1024
def agentIsNi (a : Nat) : Bool := a / 2 ^ 22 % 4 == 0

/-- An agent's transmit store has changed: what its core waits for is looked at again (R134, R50). -/
def State.xmitOn (s : State) (a : Nat) : State :=
  if !agentIsNi a then s
  else
    let k := agentCore a
    ((s.core k).ctxs.foldl (fun s (x, _) => s.kick k x) s).quietOn k

/-- The transmit entry a source holds under a SEQ (R327). -/
def State.xmitAt (s : State) (a owner seq : Nat) : Option XmitEntry :=
  (s.xmitOf a).find? fun x => x.owner == owner && x.seq == seq && x.sent && !x.refused

def State.dupResp (s : State) (a : Nat) : State :=
  s.mapSite (agentSite a) fun t => { t with dupresp := sat32 (t.dupresp + 1) }

/-- The next SENDO message of a channel may follow one that is answered (R27). -/
def State.chainOn (s : State) : Event → State
  | .messageAccept m => if m.ordered then s.push (.chainAck m.src m.dst) else s
  | _ => s

/-- An answer reaches its source (R324, R327): the transmit entry goes, and the answer's step follows. -/
def State.takeAnswer (s : State) (a owner seq : Nat) (e : Option Event) : State :=
  match s.xmitAt a owner seq with
  | none => s.dupResp a
  | some x =>
    let s := (s.freeXmit a owner seq).chainOn x.step
    (match e with
      | some e => s.push e
      | none => s).xmitOn a

/-- A refusal reaches its source (R25, R324). A message's SEQ is kept for its retransmission; one that a core had
forwarded goes back to its sender (R51). A request refused for want of a window waits for a timed retry (R325). -/
def State.takeRefusal (s : State) (a owner seq : Nat) (e : Option Event) : State :=
  match s.xmitAt a owner seq with
  | none => s.dupResp a
  | some x =>
    let put := fun (s : State) (y : XmitEntry) =>
      s.setXmit a ((s.xmitOf a).map fun z => if z.owner = owner ∧ z.seq = seq then y else z)
    match e with
    | some (.refuse m nolist chain) =>
      if srcAgent m = a then
        let s := (put s { x with refused := true }).sendNext a
        if msgSrc m = 0 then s.push (.refuse m nolist chain) else s.resendLater m
      else
        let s := (s.freeXmit a owner seq).injectCtl (agentSite a) 5 a owner seq none
        if msgSrc m = 0 then s.route a (agentNi m.src) 1 0 (.refuse m nolist chain) else s.resendLater m
    | _ =>
      (put s { x with sent := false, timed := x.timed + 1
                      due := some ((s.site (agentSite a)).fab + 2 * (256 * 2 ^ min x.timed 5)) }).xmitOn a

/-- Steps that answer their own request; any other is acknowledged as it is delivered. -/
def answersItself : Event → Bool
  | .messageAccept _ => true
  | .storePerform _ _ _ => true
  | .remoteRegionAccess _ _ _ => true
  | .lineFill _ _ _ => true
  | .lrwEnqueue _ _ _ => true
  | .scHome _ _ _ => true
  | .homeAmo _ => true
  | .niAtomic _ _ _ => true
  | .putIncrement _ _ _ _ => true
  | .mailboxPost _ => true
  | .hscatOwner _ => true
  | _ => false

/-- The step of a request as its owner takes it: an ord atomic on a named region keeps its number (R251). -/
def numbered (e : Event) (seq : Nat) : Event :=
  match e with
  | .niAtomic o r none => if r.comm || r.stat then e else .niAtomic o r (some seq)
  | e => e

/-- A request performed under its SEQ (R326): its entry is made, in place of that of a refused one, and its step follows. -/
def State.performReq (s : State) (f : Flit) (e : Event) : State :=
  let e := numbered e f.seq
  let own := answersItself e
  let x : WinEntry := { seq := f.seq, step := if own then some e else none, done := !own, age := f.age }
  let s := s.mapWindow f.dst f.src fun w => { w with entries := w.entries.filter (·.seq != f.seq) ++ [x] }
  let s := if ordStep e then s else s.markApplied f.dst f.src f.seq
  let s := if own then s else s.injectCtl (agentSite f.dst) 1 f.dst f.src f.seq none
  s.push e

/-- The cached answer of an applied entry is sent again, or ACK (R326); for a refused one its REFUSE or ROOM. -/
def State.answerAgain (s : State) (o src seq : Nat) (w : SeqWindow) (rerouted : Bool) : State :=
  match w.entries.find? (·.seq == seq) with
  | none => s.injectCtl (agentSite o) 1 o src seq none
  | some x => match x.done, x.step, x.refusal with
    | true, some e, _ => s.inject o src (answerFlits e) 1 seq rerouted false (some e)
    | true, none, _ => s.injectCtl (agentSite o) 1 o src seq none
    | false, _, some (.roomNotice k t id) => s.injectCtl (agentSite o) 3 o src seq (some (.roomNotice k t id))
    | false, _, some e => s.injectCtl (agentSite o) 2 o src seq (some e)
    | false, _, none => s

/-- The last 64 numbers of a window (R326), with what lies before it forgotten. -/
def SeqWindow.moveTo (w : SeqWindow) (base : Nat) : SeqWindow :=
  let inside := fun n => (n + 65536 - base) % 65536 < 64
  { w with base, applied := w.applied.filter inside, entries := w.entries.filter fun x => inside x.seq }

/-- A window as its first request opens it (R325): everything below counts as applied. -/
def openWindow (src seq : Nat) : SeqWindow :=
  { src, base := (seq + 65536 - 63) % 65536, entries := [], opened := seq
    applied := ((List.range 63).map fun i => (seq + 65536 - 63 + i) % 65536).foldl insertNat [] }

/-- A window opened at an owner (R325): what has come before it is delivered (log 19). -/
def State.openFor (s : State) (owner : Nat) (w : SeqWindow) : State :=
  let st := agentSite owner
  let s := s.mapSite st fun t => { t with windows := Sparse.set t.windows owner (Sparse.get [] t.windows owner ++ [w]) }
  let held := (s.site st).reasm.filter fun g => g.src == w.src && g.dst == owner && g.cls != 1 && g.fidx == 0
  s.pushAll (held.map fun g => .reassemblyDeliver st g.src g.seq)

/-- Loads, stores and atomics, which a module takes only from modules of its own domain (R421). -/
def loadStore : Event → Bool
  | .storePerform _ _ _ => true
  | .remoteRegionAccess _ _ _ => true
  | .lineFill _ _ _ => true
  | .lrwEnqueue _ _ _ => true
  | .scHome _ _ _ => true
  | .homeAmo _ => true
  | .niAtomic _ _ _ => true
  | .putIncrement _ _ _ _ => true
  | _ => false

/-- Two modules of one domain (R421): their domain sizes agree, and both numbers lie in the domain. -/
def State.sameDomain (s : State) (m n : Nat) : Bool :=
  let d := (s.module m).domain
  m == n || ((s.module n).domain == d && m < d && n < d)

/-- A message of SEQ decides by its window whether it is performed (R325, R326). A core's NI counts one that it refuses for
want of a window (R59). -/
def State.windowArrive (s : State) (f : Flit) (e : Event) : State :=
  let st := agentSite f.dst
  let ws := Sparse.get [] (s.site st).windows f.dst
  if loadStore e && !s.sameDomain (st / 24) (agentSite f.src / 24) then s
  else match ws.find? (·.src == f.src) with
  | none =>
    if !f.opens then s.mapSite st fun t => { t with seqstale := sat32 (t.seqstale + 1) }
    else if 1024 ≤ ws.length then
      match e with
      | .messageAccept m => (s.mapNi (agentCore f.dst) fun ni => { ni with refused := sat32 (ni.refused + 1) }).injectCtl st 2
          f.dst f.src f.seq (some (.refuse m true false))
      | _ => s.injectCtl st 2 f.dst f.src f.seq none
    else
      (s.openFor f.dst (openWindow f.src f.seq)).performReq f e
  | some w =>
    let s := if f.opens then s.mapWindow f.dst f.src fun w => { w with opened := f.seq } else s
    let d := (f.seq + 65536 - w.base) % 65536
    if d < 64 then
      if w.applied.contains f.seq || w.entries.any (fun x => x.seq == f.seq && x.refusal.isNone) then
        (s.mapSite st fun t => { t with seqdup := sat32 (t.seqdup + 1) }).answerAgain f.dst f.src f.seq w false
      else s.performReq f e
    else if d < 32768 then (s.mapWindow f.dst f.src fun w => w.moveTo ((f.seq + 65536 - 63) % 65536)).performReq f e
    else s.mapSite st fun t => { t with seqstale := sat32 (t.seqstale + 1) }

/-! Reassembly. -/

/-- Two flits of one item: the source, owner and SEQ, and whether it is an answer (log 24). -/
def sameItem (f g : Flit) : Bool := f.src == g.src && f.dst == g.dst && f.seq == g.seq && (f.cls == 1) == (g.cls == 1)

/-- Flits 0 to FLAST of an item are all present (R322). -/
def itemWhole (fs : List Flit) (f : Flit) : Bool :=
  (List.range (f.flast + 1)).all fun i => fs.any fun g => sameItem f g && g.fidx == i

/-- A whole item reaches its agent: an answer its source, a request its owner's window. -/
def State.deliverItem (s : State) (f : Flit) : State :=
  if f.cls = 1 then s.takeAnswer f.dst f.src f.seq f.step
  else match f.step with
    | some e => s.windowArrive f e
    | none => s

/-- A control flit reaches its agent (R318). -/
def State.takeControl (s : State) (f : Flit) : State :=
  match f.ctl with
  | 1 => s.takeAnswer f.dst f.src f.seq none
  | 2 => s.takeRefusal f.dst f.src f.seq f.step
  | 3 => match f.step with
    | some e => s.push e
    | none => s
  | 4 => match f.step with
    | some e => s.push e
    | none => s
  | 5 => s.push (.skip f.dst f.src f.seq)
  | 6 => s.push (.close f.dst f.src f.seq)
  | _ => s

/-- One hop of what a site's mesh carries to and from its gateway (R314, R316): a flit that leaves waits there for
injection, and an item or control flit that enters is its agent's. -/
def State.meshCycle (s : State) (site : Nat) : State :=
  (s.site site).mesh.foldl (fun s (key, ms) => ms.foldl (fun s m =>
    let at_ := (key / 4 % 4, key / 16)
    if at_ ≠ m.goal then s.mapSite site fun t => { t with mesh := meshPut t.mesh (meshHop at_ m.goal) m }
    else if m.leaving then s.mapSite site fun t => { t with inject := t.inject ++ [m.flit] }
    else if m.flit.kind = 2 then s.takeControl m.flit
    else s.deliverItem m.flit) s) (s.mapSite site fun t => { t with mesh := [] })

/-- A flit enters its site: through the mesh where its agent is not the gateway's own (R316). -/
def State.enter (s : State) (site : Nat) (f : Flit) : State :=
  match agentRouter f.dst with
  | none => if f.kind = 2 then s.takeControl f else s.deliverItem f
  | some r => (s.mapSite site fun t => { t with mesh := meshPut t.mesh (gateRouter r) ⟨f, r, false⟩ }).pushOnce
      (.porderRouterCycle site)

/-- An item that waits in its slots (log 19): a request that comes before the one that opens its window. -/
def State.awaitsOpen (s : State) (site : Nat) (f : Flit) : Bool :=
  f.cls != 1 && !f.opens && !(Sparse.get [] (s.site site).windows f.dst).any (·.src == f.src)

/-- REASSEMBLY_DELIVER (R322): a complete item leaves its slots for its agent. -/
def execReassemblyDeliver (site src seq : Nat) (s : State) : Host.Outcome State Fault Refusal :=
  let fs := (s.site site).reasm
  match fs.find? fun f => f.src == src && f.seq == seq && f.fidx == 0 && itemWhole fs f && !s.awaitsOpen site f with
  | none => .next s
  | some f =>
    let s := s.mapSite site fun t => { t with reasm := t.reasm.filter fun g => !sameItem f g }
    .next (s.enter site f)

/-- A flit the format does not allow (R329). -/
def badFlit (f : Flit) : Bool := 2 ≤ f.ver || 3 ≤ f.kind || (f.kind == 2 && (f.ctl == 0 || 7 ≤ f.ctl))

/-! The flit header. -/

/-- The reply address of a context (R30, R318). -/
def replyAddr (k x gen : Nat) : Nat :=
  modOf k * 2 ^ 29 + siteOf k % 24 * 2 ^ 24 + rowOf k * 2 ^ 19 + colOf k * 2 ^ 14 + x * 2 ^ 11 + gen

/-- The reply address that a step carries, zero where it is no request that expects a reply (R30). -/
def State.stepReply (s : State) (e : Event) : Nat :=
  let op := fun (k x n : Nat) => ((s.askedOp k x n).map fun p => if State.replies p then replyAddr k x p.gen else 0).getD 0
  let amo := fun (r : AmoReq) => (r.ret.map fun (x, gen, _, _) => replyAddr r.core x gen).getD 0
  match e with
  | .remoteRegionAccess k x n => op k x n
  | .lineFill k x n => op k x n
  | .lrwEnqueue k x n => op k x n
  | .scHome k x n => op k x n
  | .homeAmo r => amo r
  | .niAtomic _ r _ => amo r
  | .replyDeposit r => replyAddr r.core r.ctx r.gen
  | _ => 0

/-- The payload bytes of the message that a step brings (R17, R318). -/
def stepPayload (e : Event) : Nat :=
  match e with
  | .messageAccept m => m.payload.length
  | _ => 0

/-- A message's descriptor in the form its target is resolved to (R18, R19; DEDUCED, log 94): grid-relative for a target
in a team, else absolute. -/
def msgDesc (m : Message) : Nat :=
  let low := m.cls % 4 * 2 ^ 60 + m.handler % 2 ^ 12 * 2 ^ 16
  match m.team with
  | some (_, i) => 2 ^ 62 + i % 2 ^ 16 * 2 ^ 40 + m.pos.2 * 2 ^ 6 + m.pos.1 + low
  | none => 2 ^ 63 + modOf m.dst * 2 ^ 37 + siteOf m.dst % 24 * 2 ^ 32 + rowOf m.dst * 2 ^ 6 + colOf m.dst + low

/-- The data that a step brings, which its payload flits carry (R317). -/
def State.stepData (s : State) (e : Event) : List Byte :=
  let op := fun (k x n : Nat) => ((s.askedOp k x n).map (·.data)).getD []
  match e with
  | .messageAccept m => m.payload
  | .storePerform k x n => op k x n
  | .remoteRegionAccess k x n => op k x n
  | .scHome k x n => op k x n
  | .replyDeposit r => r.bytes
  | _ => []

/-- The 128 payload bytes of a flit (R317): bytes 0 to 63 of a message's head flit carry its descriptor, argument words and
capability image with the tag; a payload flit carries its part of the data. Zero bytes fill the rest. -/
def State.flitBytes (s : State) (f : Flit) : List Byte :=
  let data := (f.step.map s.stepData).getD []
  let bytes := if f.fidx = 0 then match f.step with
      | some (.messageAccept m) => bytesOf 8 (msgDesc m) ++ bytesOf 8 m.a1.toNat ++ bytesOf 8 m.a2.toNat ++ bytesOf 8 m.a3.toNat
          ++ bytesOf 8 m.a4.toNat ++ bytesOf 8 m.cap.val.toNat ++ bytesOf 8 m.cap.desc.toNat ++ bytesOf 8 (if m.cap.tag then 1 else 0)
      | _ => []
    else (data.drop (128 * (f.fidx - 1))).take 128
  bytes ++ List.replicate (128 - bytes.length) 0

/-- The header of a flit (R318), with the age field of its format version (R329). -/
def State.flitHeader (s : State) (f : Flit) : BitVec 256 :=
  let bit := fun (b : Bool) => if b then 1 else 0
  let of := fun (g : Event → Nat) => (f.step.map g).getD 0
  BitVec.ofNat 256 (f.ver * 2 ^ 254 + (if f.ver = 0 then f.age * 2 ^ 246 else f.age * 2 ^ 242) + f.kind * 2 ^ 240
    + f.fidx * 2 ^ 238 + f.flast * 2 ^ 236 + bit f.rerouted * 2 ^ 235 + bit f.opens * 2 ^ 234 + f.cls * 2 ^ 232
    + f.ctl * 2 ^ 224 + f.seq % 65536 * 2 ^ 208 + f.src * 2 ^ 176 + f.dst * 2 ^ 144 + of s.stepReply * 2 ^ 112
    + of stepPayload * 2 ^ 103)

/-! Routers. -/

/-- R320: the flit that ranks first. -/
def ranksFirst (f g : Flit) : Bool :=
  g.age < f.age || (f.age == g.age && (f.src < g.src || (f.src == g.src
    && (f.seq < g.seq || (f.seq == g.seq && f.fidx ≤ g.fidx)))))

def rankInsert (f : Flit) : List Flit → List Flit
  | [] => [f]
  | g :: t => if ranksFirst f g then f :: g :: t else g :: rankInsert f t

/-- What a removed flit was part of (R324): ACK, REFUSE and ROOM are answers. -/
def lostKind (f : Flit) : LostKind :=
  if f.kind = 2 then (if f.ctl < 4 then .answer else .control) else if f.cls = 1 then .answer else .request

/-- REROUTE from a router's gateway for a flit that is removed (R320, R323), to its source. -/
def State.rerouteFlit (s : State) (site : Nat) (f : Flit) : State :=
  s.injectCtl site 4 (agentGw site) f.src f.seq (some (.reroute f.src f.dst ⟨f.seq, lostKind f⟩))

/-- The lane count of R410 goes on, or begins anew after 2^24 fabric cycles within the limit. -/
def Link.count (l : Link) (fab flits replays : Nat) : Link :=
  if l.since + 2 ^ 24 ≤ fab then { l with since := fab, carried := flits, replayed := replays }
  else { l with carried := l.carried + flits, replayed := l.replayed + replays }

/-- A lane of the link is to be retired (R410): over 2^24 fabric cycles its replays exceed one in 2^20 flits. -/
def Link.worn (l : Link) (fab : Nat) : Bool := l.since + 2 ^ 24 ≤ fab && l.carried < l.replayed * 2 ^ 20

/-- A link's count at its next flit or replay; a worn lane keeps it until it is retired. -/
def State.countLink (s : State) (st dir flits replays : Nat) : State :=
  let fab := (s.site st).fab
  s.mapLink st dir fun l => if l.worn fab then l else l.count fab flits replays

/-- A link's acknowledgements are lost (R323): flits the other way fail. -/
def State.ackLost (s : State) (st dir : Nat) : Bool :=
  let back := s.link (s.neighbour st dir) (backDir dir)
  0 < back.corrupt || !back.replayBuf.isEmpty

/-- A flit leaves a router by a link (R319, R323): onto the neighbour's router, unless its CRC fails (R359) and it
waits in the replay buffer, or its age is the limit of a version-0 link (R329). A copy stays while its link acknowledgement is
lost. -/
def State.sendFlit (s : State) (st dir plane : Nat) (f : Flit) : State :=
  let l := s.link st dir
  let f := { f with plane, kept := false, waits := none }
  if l.version = 0 && 255 ≤ f.age then
    (s.mapSite st fun t => { t with ageouts := sat32 (t.ageouts + 1) }).rerouteFlit st f
  else
    let s := s.countLink st dir 1 0
    if 0 < l.corrupt then
      (s.mapLink st dir fun l => { l with corrupt := l.corrupt - 1, replayBuf := l.replayBuf ++ [f] }).push
        (.linkReplay (st * 6 + dir))
    else
      let nb := s.neighbour st dir
      let s := if s.ackLost st dir then s.mapLink st dir fun l => { l with unacked := l.unacked ++ [f] } else s
      (s.mapSite nb fun t => { t with flits := t.flits ++ [{ f with ver := l.version }] }).pushOnce (.porderRouterCycle nb)

/-- Copies whose link acknowledgement has come leave a site's replay buffers (R323). -/
def State.acked (s : State) (st : Nat) : State :=
  (s.site st).links.foldl (fun s (dir, l) =>
    if l.unacked.isEmpty || s.ackLost st dir then s else s.mapLink st dir fun l => { l with unacked := [] }) s

/-- The plane an output of a direction has: eight for X and Y, one for Z (R319). -/
def outPlane (dir plane : Nat) : Nat := if dir < 4 then plane else 0

/-- Outputs of a router that a flit on a plane may take, productive ones first (R320). `top` is the highest-ranked
flit; others leave free the output a starving neighbour asks for (R321). -/
def State.outputs (s : State) (st plane dst : Nat) (used : List (Nat × Nat)) (top : Bool) : List Nat × List Nat :=
  let free := (List.range 6).filter fun d => s.liveLink st d && (s.link st d).replayBuf.isEmpty
    && !used.contains (d, outPlane d plane) && (top || d != 0 || !(s.site st).starve.contains plane)
  let here := (s.hops st dst).getD 1000
  free.partition fun d => ((s.hops (s.neighbour st d) dst).getD 1000) < here

/-- A flit at its destination's gateway takes a reassembly slot (R322): none where no slot is free. A control flit, whole by
itself, leaves its slot at once. -/
def State.eject (s : State) (st : Nat) (f : Flit) : Option State :=
  let f := { f with kept := false, waits := none }
  if f.kind = 2 then if (s.site st).reasm.length < 960 then some (s.enter st f) else none
  else
    let fs := (s.site st).reasm
    let dup := fs.any fun g => sameItem f g && g.fidx == f.fidx
    let holds := fs.any (sameItem f)
    if dup then some s
    else if fs.length < 960 || (fs.length < 1024 && holds) then
      let s := s.mapSite st fun t => { t with reasm := t.reasm ++ [f] }
      some (if itemWhole (fs ++ [f]) f then s.push (.reassemblyDeliver st f.src f.seq) else s)
    else none

/-- A router's work on one ranked flit: the state, the outputs used, and the flits that stay. -/
def State.routeFlit (st : Nat) (top : Bool) (acc : State × List (Nat × Nat) × List Flit) (f : Flit) :
    State × List (Nat × Nat) × List Flit :=
  let (s, used, kept) := acc
  let out := fun (s : State) =>
    let (good, other) := s.outputs st f.plane f.toSite used top
    match good, other with
    | d :: _, _ => (s.sendFlit st d f.plane f, (d, outPlane d f.plane) :: used, kept)
    | [], d :: _ =>
      let s := s.mapSite st fun t => { t with deflects := sat32 (t.deflects + 1) }
      (s.sendFlit st d f.plane f, (d, outPlane d f.plane) :: used, kept)
    | [], [] => (s, used, kept ++ [{ f with kept := true }])
  if f.toSite = st then
    match s.eject st f with
    | some s => (s, (6, used.length) :: used, kept)
    | none => out (s.mapSite st fun t => { t with reasmfull := sat32 (t.reasmfull + 1) })
  else out s

/-- A gateway's flit is put on the lowest-numbered plane with a free output (R319). -/
def State.injectFlit (st : Nat) (acc : State × List (Nat × Nat) × List Flit) (f : Flit) :
    State × List (Nat × Nat) × List Flit :=
  let (s, used, kept) := acc
  let wait := { f with waits := some (f.waits.getD (s.site st).fab) }
  if f.toSite = st then
    match s.eject st f with
    | some s => (s, (6, used.length) :: used, kept)
    | none => (s, used, kept ++ [wait])
  else
    let pick := (List.range 8).findSome? fun p =>
      match s.outputs st p f.toSite used false with
      | (d :: _, _) => some (p, d)
      | ([], d :: _) => some (p, d)
      | ([], []) => none
    match pick with
    | some (p, d) => (s.sendFlit st d p f, (d, outPlane d p) :: used, kept)
    | none => (s, used, kept ++ [wait])

/-- PORDER_ROUTER_CYCLE (R316, R319 to R322, R329): the mesh brings what it carries one hop on; the flits a router has
received age, but for those of version 0 at its limit, which are removed, and in rank order are ejected, sent on or deflected; then its gateway injects. -/
def execPorderRouterCycle (site : Nat) (s : State) : Host.Outcome State Fault Refusal :=
  let s := (s.acked site).meshCycle site
  let t := s.site site
  let (bad, good) := t.flits.partition badFlit
  let (spent, young) := good.partition fun f => f.ver == 0 && !f.kept && 255 ≤ f.age
  let aged := young.map fun f => if f.kept then f else { f with age := min 4095 (f.age + 1) }
  let (old, go) := aged.partition fun f => f.age == 4095 && f.toSite != site
  let ranked := go.foldr rankInsert []
  let s := s.mapSite site fun t =>
    { t with flits := [], inject := [], badfmt := sat32 (t.badfmt + bad.length), ageouts := sat32 (t.ageouts + spent.length) }
  let s := spent.foldl (fun s f => s.rerouteFlit site f) s
  let (s, used, kept) := match ranked with
    | [] => (s, [], [])
    | f :: fs => fs.foldl (State.routeFlit site false) (State.routeFlit site true (s, [], []) f)
  let (s, used, left) := t.inject.foldl (State.injectFlit site) (s, used, [])
  let s := s.mapSite site fun t =>
    { t with flits := old ++ kept ++ t.flits, inject := left ++ t.inject
             starve := t.starve.filter fun p => used.contains (0, p) }
  let s := if old.isEmpty then s else s.push (.ageouts site 0)
  let s := if left.any fun f => f.waits.any (· + 64 ≤ t.fab) then s.push (.injectionStarvation site 0) else s
  let u := s.site site
  .next (if !u.mesh.isEmpty || (!used.isEmpty && (!kept.isEmpty || !u.inject.isEmpty)) then s.pushOnce (.porderRouterCycle site) else s)

/-- AGEOUTS (R320): a flit that has travelled 4,095 hops is removed, and its source told. -/
def execAgeouts (site flit : Nat) (s : State) : Host.Outcome State Fault Refusal :=
  let fs := (s.site site).flits
  match fs[flit]? with
  | none => .next s
  | some f =>
    if f.age ≠ 4095 || f.toSite = site then .next s
    else
      let s := s.mapSite site fun t => { t with flits := t.flits.eraseIdx flit, ageouts := sat32 (t.ageouts + 1) }
      let s := s.rerouteFlit site f
      .next (match (s.site site).flits.findIdx? fun g => g.age == 4095 && g.toSite != site with
        | some i => s.push (.ageouts site i)
        | none => s)

/-- INJECTION_STARVATION (R321): the upstream router, the one whose X+ output leads here (log 23), leaves that output
free in its next cycle. -/
def execInjectionStarvation (site plane : Nat) (s : State) : Host.Outcome State Fault Refusal :=
  let up := s.neighbour site 1
  .next ((s.mapSite up fun t => { t with starve := insertNat t.starve plane }).mapSite site fun t =>
    { t with inject := t.inject.map fun f => { f with waits := none } })

/-! Link faults. -/

/-- LINK_REPLAY (R323): the first flit of a link's replay buffer is sent again; the eighth failure in a row kills the
link. -/
def execLinkReplay (link : Nat) (s : State) : Host.Outcome State Fault Refusal :=
  let st := link / 6
  let dir := link % 6
  let l := s.link st dir
  match l.replayBuf with
  | [] => .next s
  | f :: rest =>
    if l.dead then .next s
    else if 0 < l.corrupt then
      let s := (s.countLink st dir 0 1).mapLink st dir fun l => { l with corrupt := l.corrupt - 1, replays := l.replays + 1 }
      .next (s.push (if l.replays + 1 < 8 then .linkReplay link else .linkDead link))
    else
      let s := (s.countLink st dir 0 1).mapLink st dir fun l => { l with replays := 0, replayBuf := rest }
      let s := s.sendFlit st dir f.plane f
      .next (if rest.isEmpty then s else s.push (.linkReplay link))

/-- A dead link's end discards its replay buffer, with one REROUTE for each item in it (R323). -/
def State.killEnd (s : State) (st dir : Nat) : State :=
  let fs := (s.link st dir).replayBuf ++ (s.link st dir).unacked
  let s := s.mapLink st dir fun l => { l with dead := true, replayBuf := [], unacked := [], corrupt := 0, replays := 0 }
  let firsts := fs.foldl (fun (acc : List Flit) f =>
    if acc.any (fun g => lostKind f == lostKind g && (f.kind == 2) == (g.kind == 2) && sameItem f g) then acc else acc ++ [f]) []
  firsts.foldl (fun s f => s.rerouteFlit st f) s

/-- LINK_DEAD (R323, R405): dead in both directions, with a notice of class LINK. -/
def execLinkDead (link : Nat) (s : State) : Host.Outcome State Fault Refusal :=
  let st := link / 6
  let dir := link % 6
  if (s.link st dir).dead then .next s
  else
    let nb := s.neighbour st dir
    let s := s.killEnd st dir
    let s := if nb = st then s else s.killEnd nb (backDir dir)
    .next (s.machineCheck st 5 2 (agentGw st) 0)

/-- LANE_RETIRE (R410): a worn lane's traffic moves to a spare; with none left the link dies. Replays are counted for the link,
whose lanes the model does not tell apart (log 32). -/
def execLaneRetire (link : Nat) (s : State) : Host.Outcome State Fault Refusal :=
  let st := link / 6
  let dir := link % 6
  let l := s.link st dir
  if l.dead || !l.worn (s.site st).fab then .next s
  else if 0 < l.spares then
    let s := (s.mapLink st dir fun l =>
      { l with spares := l.spares - 1, since := (s.site st).fab, carried := 0, replayed := 0 }).mapSite st fun t => { t with lanes := sat16 (t.lanes + 1) }
    .next (s.machineCheck st 5 2 (agentGw st) 0)
  else .next (s.push (.linkDead link))

/-- LINK_TRAIN (R329, R421): a link takes the highest version common to its ends; a Z link also needs its ring
neighbour's module number and the same domain size, and with D = 1 stays down. -/
def execLinkTrain (link partner domain : Nat) (versions : List Nat) (s : State) : Host.Outcome State Fault Refusal :=
  let st := link / 6
  let dir := link % 6
  let m := st / 24
  let d := (s.module m).domain
  let best := if versions.contains 1 then some 1 else if versions.contains 0 then some 0 else none
  let down := fun (s : State) => s.mapLink st dir fun l => { l with up := false }
  if 4 ≤ dir && d = 1 then .next (down s)
  else
    let ring := dir < 4 || (partner == s.neighbour st dir / 24 && domain == d)
    match best with
    | some v => if ring then .next (s.mapLink st dir fun l => { l with
                    up := true, version := v, dead := false, replays := 0, partner, partnerDomain := domain })
                else .next ((down s).machineCheck st 6 2 (agentGw st) 0)
    | none => .next ((if dir < 4 then s.mapLink st dir fun l => { l with dead := true } else down s).machineCheck st 6 2
        (agentGw st) 0)

/-! Retransmission. -/

/-- A pending operation that fails with a cause: its context traps, with the address that the operation names as ADDR, or
the identifier of the agent it was for where it names none (R400, log 96); one that nobody waits for ends, and its count with
it. -/
def State.failOp (s : State) (cause target k x op : Nat) : State :=
  let t := s.ctxAt k x
  match s.findOp k x op with
  | none => s
  | some p =>
    if t.owed.any (·.op == op) then
      (((s.dropOp k x op).mapCtx k x fun t => { t with owed := t.owed.filter (·.op != op) }).quietOn k).settled k x
    else if t.occupied && !p.cancelled && (State.replies p || p.kind == .load || cause == cCAP) then
      (s.dropOp k x op).takeTrap k x cause 0 (State.instrPc t)
        (if p.va = 0 then BitVec.ofNat 64 target else p.va) false
    else
      let s := (s.dropOp k x op).kick k x
      if p.counted then s.push (.storeAck k x) else s.settled k x

/-- A pending operation whose answer can no longer come (R409): its context takes MCHECK. -/
def State.cancelOp (s : State) (target k x op : Nat) : State := s.failOp cMCHECK target k x op

/-- A context that waits for a steal's answer takes MCHECK (R409). -/
def State.cancelSteal (s : State) (target k x : Nat) : State :=
  let t := s.ctxAt k x
  match t.wait with
  | some (.steal _ _) =>
    (s.mapNi k fun ni => { ni with places := ni.places - 1 }).takeTrap k x cMCHECK 0 (State.instrPc t)
      (BitVec.ofNat 64 target) false
  | _ => s

/-- A context that waits for a flush or a home's answer takes MCHECK (R409). -/
def State.cancelWait (s : State) (target k x : Nat) : State :=
  let t := s.ctxAt k x
  if t.occupied then s.takeTrap k x cMCHECK 0 (State.instrPc t) (BitVec.ofNat 64 target) false else s

/-- The operations of an AMO on its way are cancelled. -/
def State.cancelAmo (s : State) (target : Nat) (r : AmoReq) : State :=
  match r.ret with
  | some (x, _, op, _) => s.cancelOp target r.core x op
  | none => if r.stat then s else r.acks.foldl (fun s (x, op) => s.cancelOp target r.core x op) s

/-- A message is given up (R409): its work is done, and the core that sent it counts it in STRAYS (DESIGN CHOICE, log 97). -/
def State.loseMsg (s : State) (m : Message) : State :=
  let s := s.consume m
  if msgSrc m = 0 then s.mapNi m.src fun ni => { ni with strays := sat32 (ni.strays + 1) } else s

/-- R409: a request whose answer agent `target` can no longer produce is cancelled. -/
def State.cancelStep (s : State) (target : Nat) (e : Event) : State :=
  match e with
  | .messageAccept m => (s.loseMsg m).chainOn e
  | .storePerform k x op => s.cancelOp target k x op
  | .remoteRegionAccess k x op => s.cancelOp target k x op
  | .lineFill k x op => s.cancelOp target k x op
  | .lrwEnqueue k x op => s.cancelOp target k x op
  | .scHome k x op => s.cancelOp target k x op
  | .putIncrement k x op _ => s.cancelOp target k x op
  | .homeAmo r => s.cancelAmo target r
  | .niAtomic _ r _ => s.cancelAmo target r
  | .mailboxPost p => s.cancelOp target p.core p.ctx p.op
  | .flushReturn k x _ => s.cancelWait target k x
  | .txArbitration k x _ _ => s.cancelWait target k x
  | .txLock k x _ => s.cancelWait target k x
  | .stealRequest _ k x _ => s.cancelSteal target k x
  | .stealResponse k x _ _ => s.cancelSteal target k x
  | _ => s

/-- REROUTE (R323, R324): the source sends its request again, or the owner its answer; another control flit's source has
nothing to send. After the third, or with no live route, the request is given up: SKIP where a route exists, a machine check of
class FABRIC, and R409. -/
def execReroute (agent owner : Nat) (item : LostItem) (s : State) : Host.Outcome State Fault Refusal :=
  let seq := item.seq
  let st := agentSite agent
  let s := s.mapSite st fun t => { t with reroutes := sat32 (t.reroutes + 1) }
  if item.kind = .control then .next s
  else if item.kind = .answer then
    match (Sparse.get [] (s.site st).windows agent).find? (·.src == owner) with
    | some w => .next (s.answerAgain agent owner seq w true)
    | none => .next s
  else
    let s := s.mapSite st fun t =>
      { t with quiet := if (Sparse.find t.quiet (pairKey agent owner)).isSome then Sparse.set t.quiet (pairKey agent owner) t.fab
                        else t.quiet }
    match s.xmitAt agent owner seq with
    | none => .next s
    | some x =>
      let live := (s.hops st (agentSite owner)).isSome
      if live && x.reroutes < 2 then
        let up := fun (y : XmitEntry) => if y.owner = owner ∧ y.seq = seq then { y with reroutes := y.reroutes + 1 } else y
        .next ((s.setXmit agent ((s.xmitOf agent).map up)).inject agent owner x.flits x.cls seq true x.opens (some x.step))
      else
        let s := s.freeXmit agent owner seq
        let s := if live then s.injectCtl st 5 agent owner seq none else s
        .next (((s.machineCheck st 6 1 agent 0).cancelStep owner x.step).xmitOn agent)

/-- SKIP (R326, R251): the entry counts as applied with no answer. The window moves on to its number, or is opened by it where
the request it stands for never came (log 19). -/
def execSkip (owner src seq : Nat) (s : State) : Host.Outcome State Fault Refusal :=
  let ws := Sparse.get [] (s.site (agentSite owner)).windows owner
  let skip := fun (s : State) => (s.mapWindow owner src fun w =>
    { w with entries := w.entries.filter (·.seq != seq) ++ [{ seq, step := none, done := true }] }).markApplied owner src seq
  match ws.find? (·.src == src) with
  | none => .next (if 1024 ≤ ws.length then s else
      skip (s.openFor owner (openWindow src seq)))
  | some w =>
    let d := (seq + 65536 - w.base) % 65536
    if 32768 ≤ d || w.applied.contains seq then .next s
    else .next (skip (if d < 64 then s else s.mapWindow owner src fun w => w.moveTo ((seq + 65536 - 63) % 65536)))

/-- WINDOW_CLOSE_TIMER (R325): after 2^20 quiet fabric cycles the source closes its window. -/
def execWindowCloseTimer (agent owner : Nat) (s : State) : Host.Outcome State Fault Refusal :=
  let t := s.site (agentSite agent)
  match Sparse.find t.quiet (pairKey agent owner) with
  | none => .next s
  | some since =>
    if t.fab < since + 2 ^ 20 || (s.xmitOf agent).any (·.owner == owner) then .next s
    else
      let last := (Sparse.get 0 t.outSeq (pairKey agent owner) + 65535) % 65536
      .next ((s.setSite (agentSite agent) { t with quiet := Sparse.erase t.quiet (pairKey agent owner) }).injectCtl
        (agentSite agent) 6 agent owner last none)

/-- CLOSE (R325): the window goes unless it was opened at a later SEQ. -/
def execClose (owner src seq : Nat) (s : State) : Host.Outcome State Fault Refusal :=
  let newer := fun (w : SeqWindow) => 0 < (w.opened + 65536 - seq) % 65536 && (w.opened + 65536 - seq) % 65536 < 32768
  let keep := fun (t : Site) => (Sparse.get [] t.windows owner).filter fun w => w.src != src || newer w
  .next (s.mapSite (agentSite owner) fun t => { t with windows := Sparse.set t.windows owner (keep t) })

end Sys2Proof.Machine
end

