-- ==== Sys2Proof/Machine/Tables.lean ====
section
/-!
DEFINITION. The walkers, the lookup directories and the shootdowns (R115 to R117, R386 to R396), and the audit ring
(R364).
-/
namespace Sys2Proof.Machine

/-! Walks and first touches. -/

/-- A walk's leaf enters the translation buffers of a core (R387): the DTLB, but for fetch, and its cluster's L2 TLB.
The oldest entry makes room. One that replaces the page's entry keeps the homes it holds. -/
def State.tlbInstall (s : State) (k : Nat) (acc : Access) (e : TlbEntry) : State :=
  let same := fun (o : TlbEntry) => o.part == e.part && o.base == e.base && o.size == e.size
  let put := fun (n : Nat) (l : List TlbEntry) =>
    let e := { e with homes := ((l.find? same).map (·.homes)).getD e.homes }
    let l := l.filter fun o => !same o
    (if n ≤ l.length then l.drop (l.length + 1 - n) else l) ++ [e]
  let s := if acc = .fetch then s else s.mapCore k fun c => { c with dtlb := put 32 c.dtlb }
  s.mapSite (siteOf k) fun t =>
    { t with l2tlb := Sparse.set t.l2tlb (clusterOf k) (put 2048 (Sparse.get [] t.l2tlb (clusterOf k))) }

/-- Every translation buffer of some cores and sites mapped. -/
def State.mapTlbs (s : State) (cores sites : Nat → Bool) (f : List TlbEntry → List TlbEntry) : State :=
  { s with
    cores := s.cores.map fun (k, c) => (k, if cores k && !c.dtlb.isEmpty then { c with dtlb := f c.dtlb } else c)
    sites := s.sites.map fun (n, t) => (n, if sites n then { t with l2tlb := Sparse.mapVals f t.l2tlb } else t) }

/-- The home of a region is kept with the entries of its page in a core's translation buffers (R387). -/
def State.tlbHome (s : State) (k part va : Nat) : State :=
  match s.regionHome part va with
  | none => s
  | some r =>
    let put := fun (e : TlbEntry) => if State.tlbCovers part va e then { e with homes := Sparse.set e.homes (va / 65536) r } else e
    let s := s.mapCore k fun c => { c with dtlb := c.dtlb.map put }
    s.mapSite (siteOf k) fun t =>
      { t with l2tlb := Sparse.set t.l2tlb (clusterOf k) ((Sparse.get [] t.l2tlb (clusterOf k)).map put) }

/-- Whether an agent acts for a supervisor task (R384, R386, R439); the read of a revocation word does (R363). -/
def State.agentSup (s : State) (acc : Access) : Agent → Bool
  | .ctx k _ => acc == .walker || s.supAt k
  | .ni k _ => s.supAt k
  | .hod r => r.sup
  | .bag b => b.req.sup
  | .node _ _ => true

/-- An agent's access is made again, as after a walk (R388). -/
def State.agentAgain (s : State) : Agent → State
  | .ctx k x => s.kick k x
  | .ni k x => s.kick k x
  | .hod r => s.push (.hodRequest r)
  | .bag b => s.push (partStep b)
  | .node st n => s.nodeRetry st n

/-- How a waiter's access is meant: the read of a revocation word is a read. -/
def walkKind (acc : Access) : Access := if acc = .walker then .read else acc

/-- The walk of one waiter (R386): the entry with its leaf and page, or the cause of a fault. An open handle of the page stands
for a fault (R388). -/
def State.walkFor (s : State) (st part : Nat) (m : Agent × Nat × Access) : State × (Nat ⊕ (Nat × Word × Nat × Nat)) :=
  let (a, va, acc) := m
  if s.faultOpen st part va then (s, .inl 0)
  else match s.walk part (s.agentSup acc a) va (walkKind acc) with
  | .fault c => (s, .inl c)
  | .leaf entry leaf base size =>
    let s := s.loadStripe part leaf
    match s.leafXlate st part leaf base va with
    | .walk => (s, .inl (s.stripeFault part leaf va))
    | .ok pa _ => if s.unkeyed pa then (s, .inl fKEY) else (s, .inr (entry, leaf, base, size))
    | _ => (s, .inr (entry, leaf, base, size))

/-- A waiter whose walk has found its leaf (R384, R387): A and D are set, and the leaf is cached for its next try. -/
def State.walkServe (s : State) (part : Nat) (m : Agent × Nat × Access) (w : Nat × Word × Nat × Nat) : State :=
  let (a, va, acc) := m
  let (entry, _, base, size) := w
  let s := s.walkUpdate entry (s.readWord entry) (walkKind acc)
  match a with
  | .ctx k _ => (s.tlbInstall k (walkKind acc) { part, base, size, leaf := s.readWord entry }).tlbHome k part va
  | a => s.agentAgain a

/-- A walker is free again (R387): the misses that wait start or join the next walks, in arrival order. -/
def State.endWalk (s : State) (st walker : Nat) : State :=
  let q := (s.site st).walkQueue
  q.foldl (fun s m => s.startWalk st (s.agentPlace m.1).2 m)
    (s.mapSite st fun t => { t with walks := Sparse.erase t.walks walker, walkQueue := [] })

/-- PAGE_WALK (R386 to R388): the tables are walked for everyone who waits for the page, A and D are set at the entry's home,
and the leaf is cached; those that fault are held under one handle. An agent that no walk lists walks by itself. -/
def execPageWalk (agent : Agent) (va : Nat) (acc : Access) (s : State) : Host.Outcome State Fault Refusal :=
  let (st, part) := s.agentPlace agent
  let w := (s.site st).walks.find? fun (_, w) => w.part == part && w.base ≤ va && va < w.base + w.size
  let ms := ((w.map (·.2.waiters)).getD [(agent, va, acc)]).filter fun m => !s.agentHeld m.1
  let (s, rs) := ms.foldl (fun (s, rs) m => let (s, r) := s.walkFor st part m; (s, rs ++ [(m, r)])) (s, [])
  let bad := rs.filterMap fun (m, r) => match r with
    | .inl c => some (m, c)
    | .inr _ => none
  let good := rs.filterMap fun (m, r) => match r with
    | .inl _ => none
    | .inr f => some (m, f)
  match good.findSome? fun (m, f) => s.walkHeld f.1 f.2.1 (walkKind m.2.2) with
  | some s => .next (s.again (.pageWalk agent va acc))
  | none =>
    let s := good.foldl (fun s (m, f) => s.walkServe part m f) s
    let walker := (w.map (·.1)).getD 0
    let s := match bad with
      | [] => s
      | ((a, va, acc), c) :: more => s.openFault a va c (walkKind acc) (more.map (·.1.1)) walker
    .next (match w with
      | some (i, _) => s.endWalk st i
      | none => s)

/-- FIRST_TOUCH (R115 to R117, R387): the lookup directory fixes the home of a region, and a core's buffers keep it. One that
another agent has homed meanwhile is served there. -/
def execFirstTouch (agent : Agent) (va : Nat) (acc : Access) (s : State) : Host.Outcome State Fault Refusal :=
  let (st, part) := s.agentPlace agent
  let known := fun (s : State) => match agent with
    | .ctx k _ => s.tlbHome k part va
    | _ => s
  if s.agentHeld agent then .next s
  else if s.faultOpen st part va then .next (s.openFault agent va 0 acc)
  else if (s.regionHome part va).isSome then .next (known s)
  else
    let home := match agent with
      | .ctx k _ => (siteOf k, clusterOf k)
      | .ni k _ => (siteOf k, clusterOf k)
      | .hod r => s.hodHome r
      | .bag b => (agentSite (bagOwner b), bagOwner b % 64)
      | .node _ _ => s.outsideHome part va
    match s.homeRegion part va home.1 home.2 with
    | .inl s => .next (known s)
    | .inr c => .next (s.openFault agent va c acc)

/-! REGREL. -/

/-- Whether an address stands in a HOMED page (R391). -/
def State.pageHomed (s : State) (k va : Nat) : Bool :=
  s.homedPage k va || ((s.findWindow (s.partAt k) va).isNone && (match s.walk (s.partAt k) (s.supAt k) va .read with
    | .leaf _ leaf _ _ => pteMtype leaf == 0
    | .fault _ => false))

/-- A region is released (R391): its lines leave the module's caches, written back, transactions on its tiles abort with
code 6, the module's translation buffers drop its home, and its entry becomes RELEASED. -/
def State.releaseRegion (s : State) (key : Nat) (r : Region) : State :=
  let lo := mkPa r.site r.slice (r.frame * 65536)
  let gone := fun (l : Nat) => decide (lo ≤ l * 128 ∧ l * 128 < lo + 65536)
  let tiles := (s.tileDirs.filter fun (_, d) => d.blocks.any fun b => lo ≤ b * 256 && b * 256 < lo + 65536).map (·.1)
  let s := ((s.removeHolders tiles 6 none).forgetLines (fun st => st / 24 == r.site / 24) gone).l2Forget gone
  let drop := fun (e : TlbEntry) => if e.part = key / 2 ^ 32 then { e with homes := Sparse.erase e.homes (key % 2 ^ 32) } else e
  let s := s.mapTlbs (fun k => modOf k == r.site / 24) (fun n => n / 24 == r.site / 24) fun l => l.map drop
  { s with regions := Sparse.set s.regions key { r with state := 2 } }

/-- REGREL_COMPLETE (R391): the release itself, and the waiting context's result. -/
def execRegrelComplete (core ctx region : Nat) (s : State) : Host.Outcome State Fault Refusal :=
  match (s.ctxAt core ctx).wait with
  | some (.regrel d) =>
    let va := region * 65536
    let key := State.regionKey (s.partAt core) va
    let fin := fun (s : State) (n : Nat) =>
      let s := s.mapCtx core ctx fun t => { t with wait := none }
      Host.Outcome.next (s.asCtx core ctx fun s => (s.writeG d { val := BitVec.ofNat 64 n }).advance)
    match Sparse.find s.regions key with
    | some r =>
      if r.state ≠ 1 || !s.pageHomed core va then fin s 1
      else fin (s.releaseRegion key r) 0
    | none => fin s 1
  | _ => .next s

/-! Stripe tables. -/

/-- The peer counts R119 allows: powers of two from 1 to 128, primes from 3 to 251. -/
def stripeCountOk (n : Nat) : Bool :=
  [1, 2, 4, 8, 16, 32, 64, 128].contains n
    || (3 ≤ n && n ≤ 251 && (List.range 14).all fun i => n % (i + 2) != 0 || n == i + 2)

/-- Bytes of a channel (R382). -/
def channelBytes : Nat := 0x60000000

/-- Whether two override rows in use share a block (R393). -/
def rowsOverlap (a b : OverrideEntry) : Bool := a.first ≤ b.first + b.lenm1 && b.first ≤ a.first + a.lenm1

/-- The validation of R393: the peer count, the peer entries, and the override rows in use. -/
def State.stripeOk (s : State) (part i : Nat) : Bool :=
  let st := s.readStripe part i
  let peers := s.fieldAt (s.stripeDesc part i + 16) 0 64
  let used := st.overrides.filter fun o => o.state == 1 || o.state == 2
  stripeCountOk st.n
    && (List.range st.n).all (fun j => (s.peerAt (peers + 8 * j)).1)
    && used.zipIdx.all (fun (a, i) => (used.drop (i + 1)).all fun b => !rowsOverlap a b)
    && used.all fun o => o.cpeer == 0xFF || 256 * (o.croff + o.lenm1 + 1) ≤ channelBytes

/-- TLBINV STRIPE's validation (R393): a failure clears VALID. The status of the completion. -/
def State.validateStripe (s : State) (part i : Nat) : State × Nat :=
  if s.stripeOk part i then (s, 0)
  else
    let a := s.stripeDesc part i
    (s.performWrite ((addrRange a 8).zip (bytesOf 8 (s.fieldAt a 0 63))) [], 1)

/-! ROWMOVE. -/

/-- An override entry as it stands after the move (R396). -/
def movedEntry (o : OverrideEntry) : OverrideEntry :=
  { o with state := 1, cpeer := o.npeer, cslice := o.nslice, croff := o.nroff }

/-- The storage addresses of a row's blocks, before and after its move; none where a block has no placement. -/
def rowBlocks (st : Stripe) (i : Nat) (o : OverrideEntry) : List (Option (Nat × Nat)) :=
  let after := { st with valid := true, overrides := st.overrides.set i (movedEntry o) }
  (List.range (o.lenm1 + 1)).map fun j =>
    let va := (o.first + j) * 256
    (State.stripePa { st with valid := true } va).bind fun a => (State.stripePa after va).bind fun b =>
      if paBad a || paBad b then none else some (a, b)

/-- Blocks copied in one indivisible step, with their tags and poison (R70, R396). -/
def State.copyBlocks (s : State) (ps : List (Nat × Nat)) : State :=
  let inside := fun (lo n x : Nat) => lo ≤ x && x < lo + n
  let move := fun (n : Nat) (old : List Nat) (l : List Nat) =>
    let kept := l.filter fun x => !ps.any fun p => inside (p.2 / (256 / n)) n x
    ps.foldl (fun l p => ((old.filter (inside (p.1 / (256 / n)) n)).map fun x =>
      p.2 / (256 / n) + (x - p.1 / (256 / n))).foldl insertNat l) kept
  let kept := s.mem.filter fun c => !ps.any fun p => inside p.2 256 c.1
  let mem := ps.foldl (fun m p => Mem.writeAll m ((s.mem.filter fun c => inside p.1 256 c.1).map fun c =>
    (p.2 + (c.1 - p.1), c.2))) kept
  { s with mem, tags := move 16 s.tags s.tags, poison := move 2 s.poison s.poison }

/-- The storage addresses a request acts on at a home, as far as it has translated them. -/
def State.stepAddrs (s : State) (e : Event) : List Nat :=
  let ofOp := fun (k x op : Nat) => ((s.askedOp k x op).map (·.addrs)).getD []
  match e with
  | .storePerform k x op => ofOp k x op
  | .lineFill k x op => ofOp k x op
  | .lrwEnqueue k x op => ofOp k x op
  | .scHome k x op => ofOp k x op
  | .homeAmo r => [r.addr]
  | .putIncrement _ _ _ r => [r.addr]
  | _ => []

/-- Whether a bag's part has rows that begin in a range of virtual addresses. -/
def partMeets (part lo n : Nat) (b : BagState) : Bool :=
  let inside := fun (va : Nat) => decide (lo ≤ va ∧ va < lo + n)
  b.req.part == part && b.owners.any fun (_, ps) => ps.any fun p => inside (rowVa b.req p.2.1)

/-- Whether a hod's request, or the part of a bag at its owner, acts on virtual addresses from `lo` (R120). A bag that is not
split yet will be split by the new placement. -/
def hodMeets (part lo n : Nat) (e : Event) : Bool :=
  let inside := fun (va : Nat) => decide (lo ≤ va ∧ va < lo + n)
  match e with
  | .hgathOwner b => partMeets part lo n b
  | .hscatOwner b => partMeets part lo n b
  | .hodRequest r => (r.kind == .copy || r.kind == .fill) && r.part == part && inside r.dst
  | _ => false

/-- Requests of agents of other sites that no owner has applied yet: source, owner and number, with the step. -/
def State.farSteps (s : State) : List ((Nat × Nat × Nat) × Event) :=
  s.sites.flatMap fun (_, t) => t.xmit.flatMap fun (a, xs) => xs.filterMap fun x =>
    let ws := (Sparse.get [] (s.site (agentSite x.owner)).windows x.owner).filter (·.src == a)
    if ws.any fun w => w.entries.any fun y => y.seq == x.seq && y.done then none else some ((a, x.owner, x.seq), x.step)

/-- Requests of agents of the home's own site under way. -/
def State.nearSteps (s : State) : List Event :=
  (s.agenda ++ s.nextCycle ++ s.sites.flatMap fun (_, t) => t.hostWait).filter fun e => (s.windowOf e).isNone

/-- The pair of old and new blocks of a row that a request meets, by what it has translated, else the row's first. -/
def State.meets (s : State) (part lo : Nat) (ps : List (Nat × Nat)) (e : Event) : Option (Nat × Nat) :=
  match ps.find? fun p => (s.stepAddrs e).any fun a => p.1 ≤ a && a < p.1 + 256 with
  | some p => some p
  | none => if hodMeets part lo (256 * ps.length) e then ps.head? else none

/-- The hod that owns a block. -/
def blockHod (a : Nat) : Nat := agentHod (paSite a) (paSlice a)

/-- Updates of agents of other sites that an old owner of a row forwards (R252): new owner, old owner, source, number. -/
def State.forwardedFrom (s : State) (part lo : Nat) (ps : List (Nat × Nat)) : List (Nat × Nat × Nat × Nat) :=
  s.farSteps.filterMap fun ((a, o, n), e) =>
    if ordStep e then (s.meets part lo ps e).map fun p => (blockHod p.2, o, a, n) else none

/-- The old blocks of the requests for them that their agents still hold (R120): pending operations that are translated and not
sent, and combine-buffer entries. -/
def State.unsentTo (s : State) (ps : List (Nat × Nat)) : List Nat :=
  let block := fun (as : List Nat) => (ps.find? fun p => as.any fun a => p.1 ≤ a && a < p.1 + 256).map (·.1)
  s.cores.flatMap fun (_, c) =>
    (c.ctxs.flatMap fun (_, t) => (t.pend.filter (!·.sent)).filterMap fun p => block p.addrs)
      ++ c.ni.combine.filterMap fun e => block [e.req.addr]

/-- Requests under way to a row at the switch, each counted in FORWARDS at its old owner's site (R120). -/
def State.countForwards (s : State) (part lo : Nat) (ps : List (Nat × Nat)) : State :=
  (((s.farSteps.map (·.2) ++ s.nearSteps).filterMap (s.meets part lo ps)).map (·.1) ++ s.unsentTo ps).foldl (fun s b =>
    s.mapSite (paSite b) fun t => { t with forwards := sat32 (t.forwards + 1) }) s

/-- A gather's part after a move (R120, R350): the rows that it has not pooled and that begin in moved blocks have their new
owners. An owner that has nothing left to do is none of its owners any more. -/
def movedPart (part lo : Nat) (ps : List (Nat × Nat)) (b : BagState) : BagState :=
  let n := 256 * ps.length
  if !partMeets part lo n b then b
  else
    let goes := fun (p : Nat × Nat × Exact) => decide (lo ≤ rowVa b.req p.2.1 ∧ rowVa b.req p.2.1 < lo + n)
    let new := fun (p : Nat × Nat × Exact) => blockHod ((ps.getD ((rowVa b.req p.2.1 - lo) / 256) (0, 0)).2)
    let split := fun (first : Bool) (o : Nat × List (Nat × Nat × Exact)) =>
      let stay := o.2.filter (!goes ·)
      (if stay.isEmpty && !(first && b.pool.isSome) then [] else [(o.1, stay)])
        ++ groupOwners ((o.2.filter goes).map fun p => (new p, p))
    { b with owners := match b.owners with
      | [] => []
      | o :: rest => split true o ++ rest.flatMap (split false) }

/-- The parts of gathers under way follow a row's move (R120, R350), and each requesting NI waits for the new owners. -/
def State.moveParts (s : State) (part lo : Nat) (ps : List (Nat × Nat)) : State :=
  let ofStep := fun (e : Event) => match e with
    | .hgathOwner b => if partMeets part lo (256 * ps.length) b then some b else none
    | _ => none
  let same := fun (a b : BagState) => a.req.core == b.req.core && a.no == b.no && bagOwner a == bagOwner b
  let parts := ((s.nearSteps ++ s.farSteps.map (·.2)).filterMap ofStep).foldl (fun l b => if l.any (same b) then l else l ++ [b]) []
  let s := parts.foldl (fun s b => s.mapNi b.req.core fun ni => { ni with bags := ni.bags.map fun (i, w) =>
    (i, if i ≠ b.no then w else { w with owners := b.owners.foldl (fun l o => l.eraseP (·.1 == o.1)) w.owners
                                                  ++ (movedPart part lo ps b).owners.map fun o => (o.1, []) }) }) s
  s.mapSteps fun e => match e with
    | .hgathOwner b => .hgathOwner (movedPart part lo ps b)
    | e => e

/-- The forward-done notes of a move (R252): for each old and new owner the highest number forwarded from each source. -/
def forwardNotes (ps : List (Nat × Nat)) (fw : List (Nat × Nat × Nat × Nat)) : List (Nat × Nat × List (Nat × Nat)) :=
  let raise := fun (l : List (Nat × Nat)) (a n : Nat) => match l.find? (·.1 == a) with
    | some (_, m) => if (n + 65536 - m) % 65536 < 32768 then l.map fun q => if q.1 = a then (a, n) else q else l
    | none => l ++ [(a, n)]
  ((ps.map fun p => (blockHod p.1, blockHod p.2)).eraseDups).map fun (o, h) =>
    (o, h, (fw.filter fun f => f.1 == h && f.2.1 == o).foldl (fun l f => raise l f.2.2.1 f.2.2.2) [])

/-- Tile directories after a move of blocks (R152): each block's entry goes with it, and a tile's directory with its first
block. -/
def State.moveDirs (s : State) (ps : List (Nat × Nat)) : State :=
  let goes := fun (b : Nat) => ((ps.find? fun p => p.1 / 256 == b).map (·.2 / 256)).getD b
  let taken := fun (b : Nat) => ps.any (fun p => p.2 / 256 == b) && !ps.any fun p => p.1 / 256 == b
  let kept := s.tileDirs.filter fun (t, _) => !taken t
  { s with tileDirs := kept.foldl (fun m (t, d) =>
      Sparse.set m (goes t) { d with blocks := ((d.blocks.filter fun b => !taken b).map goes).foldl insertNat [] }) [] }

/-- The switch, copy and install of a ROWMOVE (R396), with the completion status and the forward-done notes; none where
the row is still being read (R163), or a locked tile or the host's copy of a block makes it wait. -/
def State.moveRow (s : State) (part : Nat) (sh : Shoot) (again : Event) :
    State × Option (Nat × List (Nat × Nat × List (Nat × Nat))) :=
  let i := sh.arg % 256
  let j := sh.arg / 256 % 4096
  let st := s.readStripe part i
  match st.overrides[j]? with
  | none => (s, some (2, []))
  | some o =>
    let fits := o.npeer == 0xFF || (o.npeer < st.n && 256 * (o.nroff + o.lenm1 + 1) ≤ channelBytes)
    let bs := rowBlocks st j o
    if o.state ≠ 2 || !fits || bs.any (·.isNone) then (s, some (2, []))
    else
      let ps := bs.filterMap id
      let olds := ps.flatMap fun p => addrRange p.1 256
      let news := ps.flatMap fun p => addrRange p.2 256
      let site := paSite (olds.headD 0)
      let hod := blockHod (olds.headD 0)
      let tiles := s.tilesOf olds
      match s.rowSample hod tiles with
      | none => (s.pushAll [.rowRead hod tiles, again], none)
      | some r =>
        if s.rowStale r then ((s.again (.rowRead hod tiles)).again again, none)
        else if s.tileLocked news then (s.again again, none)
        else match s.hostHold site olds false again with
        | some s => (s, none)
        | none => match s.hostHold site news true again with
        | some s => (s, none)
        | none =>
          let lo := o.first * 256
          let fw := s.forwardedFrom part lo ps
          let lines := linesOf (olds ++ news)
          let s := (s.endRow hod tiles).countForwards part lo ps
          let s := s.removeHolders (s.tilesOf (olds ++ news)) 6 none
          let s := ((s.copyBlocks ps).moveDirs ps).moveParts part lo ps
          let s := (s.forgetLines (fun _ => true) lines.contains).l2Forget lines.contains
          let s := ps.foldl (fun s p => s.forwardRange p.1 p.2 256) s
          let s := fw.foldl (fun s (h, o, src, n) => s.mapSite (agentSite h) fun t =>
            { t with fwdHold := Sparse.set t.fwdHold h (Sparse.get [] t.fwdHold h ++ [(o, src, n)]) }) s
          let ea := s.fieldAt (s.stripeDesc part i + 24) 0 64 + 16 * j
          let e := ofBytes (s.readMem (addrRange ea 16))
          let e' := e / 2 ^ 80 * 2 ^ 80 + 2 ^ 78 + e / 2 ^ 37 % 2 ^ 41 * 2 ^ 37 + e / 2 ^ 37 % 2 ^ 37
          let s := s.performWrite ((addrRange ea 16).zip (bytesOf 16 e')) []
          (s, some (0, forwardNotes ps fw))

/-! Shootdowns. -/

/-- What a TLBINV removes leaves every buffer of the partition (R392). -/
def State.shootRemove (s : State) (part : Nat) (sh : Shoot) : State :=
  let hit := fun (e : TlbEntry) => e.part == part
    && (sh.op == 1 || (sh.op == 0 && e.base ≤ sh.arg && sh.arg < e.base + e.size))
  let s := s.mapTlbs (fun _ => true) (fun _ => true) fun l => l.filter fun e => !hit e
  s.mapPart part fun p => { p with stripes :=
    if sh.op = 0 then p.stripes else if sh.op = 1 then [] else Sparse.erase p.stripes (sh.arg % 256) }

/-- The operations of atomics on their way from a core (R142, R226). -/
def amoOps : Event → List (Nat × Nat × Nat)
  | .homeAmo r => r.acks.map fun (x, op) => (r.core, x, op)
  | .niAtomic _ r _ => r.acks.map fun (x, op) => (r.core, x, op)
  | _ => []

/-- The accesses of a partition that are not performed yet (R392): pending operations, and atomics in combine buffers and under
way, of which a stat one is no pending operation. -/
def State.accesses (s : State) (part : Nat) : List (Nat × Nat × Nat) :=
  let held := s.cores.flatMap fun (k, c) =>
    (c.ctxs.flatMap fun (x, t) => (t.pend.filter fun p => !p.addrs.isEmpty).map fun p => (k, x, p.op))
      ++ (c.ni.combine.flatMap fun e => e.req.acks.map fun (x, op) => (k, x, op)) ++ c.waiting.flatMap amoOps
  let under := (s.nearSteps ++ s.farSteps.map (·.2)).flatMap amoOps
  ((held ++ under).filter fun (k, _) => s.partAt k == part).eraseDups

/-- The bags of a partition whose parts are at their owners (R392): they have been split by what is removed. -/
def State.bagsOut (s : State) (part : Nat) : List (Nat × Nat) :=
  s.cores.flatMap fun (k, c) => (c.ni.bags.filter fun (_, b) => b.req.part == part).map fun (i, _) => (k, i)

/-- The walks of a partition in flight (R392, R398). -/
def State.walksOut (s : State) (part : Nat) : List (Nat × Nat) :=
  s.sites.flatMap fun (n, t) => (t.walks.filter fun (_, w) => w.part == part).map fun (_, w) => (n, w.no)

/-- A shootdown with its items removed (R392, R393, R396): status, what to wait for, and forward-done notes to send. -/
def State.shootStart (s : State) (part site : Nat) (sh : Shoot) (again : Event) : State :=
  let note := fun (s : State) (status : Nat) (notes : List (Nat × Nat × List (Nat × Nat))) =>
    let drain := s.accesses part
    let bags := s.bagsOut part
    let walks := s.walksOut part
    s.mapSite site fun t => { t with shoots := t.shoots.map fun o =>
      if o.id = sh.id then { o with status, removed := true, drain, bags, walks, notes } else o }
  match sh.op with
  | 2 =>
    let (s, status) := (s.shootRemove part sh).validateStripe part (sh.arg % 256)
    note s status []
  | 3 =>
    match s.moveRow part sh again with
    | (s, none) => s
    | (s, some (0, notes)) => note (s.shootRemove part sh) 0 notes
    | (s, some (n, _)) => note s n []
  | _ => note (s.shootRemove part sh) 0 []

/-- Whether everything that used what a shootdown has removed is over (R392): accesses and bags performed, forwarded ones too
(R252), and walks redone. -/
def State.shootDone (s : State) (part : Nat) (sh : Shoot) : Bool :=
  !(s.accesses part).any sh.drain.contains && !(s.bagsOut part).any sh.bags.contains
    && !(s.walksOut part).any sh.walks.contains
    && !sh.notes.any fun (o, h, _) => (Sparse.get [] (s.site (agentSite h)).fwdHold h).any (·.1 == o)

/-- TLBINV_COMPLETION (R392, R396): the shootdown is carried out; once every access that used a removed item has been
performed, the old owners send their forward-done notes and the completion leaves from the issuing core's NI. -/
def execTlbinvCompletion (part id : Nat) (s : State) : Host.Outcome State Fault Refusal :=
  let site := id / 2 ^ 32
  let e := Event.tlbinvCompletion part id
  match (s.site site).shoots.find? (·.id == id % 2 ^ 32) with
  | none => .next s
  | some sh =>
    let s := if sh.removed then s else s.shootStart part site sh e
    match (s.site site).shoots.find? (·.id == id % 2 ^ 32) with
    | none => .next s
    | some sh =>
      if !sh.removed || !s.shootDone part sh then .next s
      else
        let s := sh.notes.foldl (fun s (o, h, top) => s.route o h 1 0 (.forwardDone h top)) s
        let s := s.mapSite site fun t => { t with shoots := t.shoots.filter (·.id != sh.id) }
        .next (s.niOwn sh.comp.src { sh.comp with a1 := BitVec.ofNat 64 sh.status })

/-! The audit ring. -/

/-- The audit record of R364. -/
def auditRecord (core : Nat) (msgid teamid : Word) (slot epoch word : Nat) : List Byte :=
  bytesOf 8 msgid.toNat ++ bytesOf 8 teamid.toNat ++ bytesOf 4 slot ++ bytesOf 4 epoch ++ bytesOf 4 word
    ++ bytesOf 4 (siteOf core % 24 * 2 ^ 16 + rowOf core * 2 ^ 8 + colOf core)

/-- AUDIT_APPEND (R364, R360): the record is written at the ring's head, or counted as lost. -/
def execAuditAppend (core : Nat) (msgid teamid : Word) (slot epoch word : Nat) (s : State) :
    Host.Outcome State Fault Refusal :=
  let part := s.partAt core
  let p := s.part part
  let l := (p.auditctl.extractLsb' 52 4).toNat
  let lost := fun (s : State) => Host.Outcome.next (s.mapPart part fun p => { p with auditLost := sat32 (p.auditLost + 1) })
  if l = 0 then lost s
  else
    let again := Event.auditAppend core msgid teamid slot epoch word
    let va := (p.auditctl.extractLsb' 5 43).toNat * 32 + 32 * (p.auditHead % 2 ^ l)
    match s.agentXlate part true (siteOf core) (s.outsideHome part va) va .write with
    | (s, .inr c) => if c = fWAIT then .next (s.again again) else lost s
    | (s, .inl a) =>
      let as := addrRange a 32
      if s.tileLocked as then .next (s.again again)
      else match s.hostHold (siteOf core) as true again with
      | some s => .next s
      | none =>
        let s := (s.hostUse (siteOf core) as true).performWrite (as.zip (auditRecord core msgid teamid slot epoch word)) []
        .next (s.mapPart part fun p => { p with auditHead := (p.auditHead + 1) % 2 ^ 32 })

end Sys2Proof.Machine
end

