-- ==== Sys2Proof/Machine/Faults.lean ====
section
/-!
DEFINITION. Errors and what survives them: ECC, poison and machine checks (R404 to R407), the loss of a core or a site
(R408, R409, R411), and the debugger (R412, R435).
-/
namespace Sys2Proof.Machine

/-! Errors. -/

/-- A corrected DRAM error (R404): counted, and the third in a row of the array within 2^30 fabric cycles moves the row
to a spare of its bank, with a notice. -/
def State.dramCorrected (s : State) (a : Nat) : State :=
  let st := paSite a
  let row := Config.dramRow a
  let bank := Config.dramBank row
  let t := s.site st
  let times := (Sparse.get [] t.rowErrs row ++ [t.fab]).filter fun c => t.fab < c + 2 ^ 30
  let s := s.mapSite st fun t => { t with dramc := sat16 (t.dramc + 1), rowErrs := Sparse.set t.rowErrs row times }
  let used := Sparse.get 0 t.spareRows bank
  if times.length < 3 || 32 ≤ used then s
  else (s.mapSite st fun t => { t with rowErrs := Sparse.erase t.rowErrs row, spareRows := Sparse.set t.spareRows bank (used + 1) }).machineCheck
    st 4 2 (agentHod st (paSlice a)) a

/-- The site of a unit. -/
def unitSite : ErrUnit → Nat
  | .line a => paSite a
  | .l2 a => paSite a
  | .scratch a => bankSite (bankOf a)
  | .slot a => bankSite (bankOf a)
  | .sync k _ => siteOf k
  | .queue k _ => siteOf k
  | .ni k _ _ => siteOf k
  | .regfile k => siteOf k
  | .heldB k => siteOf k
  | .fpstat k => siteOf k
  | .specLine k => siteOf k
  | .l1i k _ => siteOf k
  | .l1d k _ => siteOf k
  | .cluster k _ => siteOf k
  | .directory a => paSite a

/-- A team is marked POISONED (R407): each of its cores, and BWAITs parked there leave their park. -/
def State.poisonTeam (s : State) (uid : Nat) : State :=
  match Sparse.find s.teams uid with
  | none => s
  | some t =>
    (State.teamCores t).foldl (fun s k =>
      if (s.core k).team ≠ some uid then s
      else
        let s := s.mapCore k fun c => { c with poisonMark := true }
        let parked := (s.core k).ctxs.filter fun (_, c) => match c.park with
          | some (.bwait _) => true
          | _ => false
        s.pushAll (parked.map fun (x, _) => .parkResume k x)) s

/-- A line is marked poisoned (R406), with a notice. -/
def State.poisonLine (s : State) (a cls agent : Nat) : State :=
  { s with poison := insertNat s.poison (a / 128) }.machineCheck (paSite a) cls 1 agent (a / 128 * 128)

/-- A unit or slot of a bank is marked poisoned (R406), with a notice; the team whose region it holds is marked
(R407). -/
def State.poisonBank (s : State) (a unit : Nat) : State :=
  let bk := bankOf a
  let st := bankSite bk
  let s := (s.mapBank bk fun b => { b with poison := insertNat b.poison unit }).machineCheck st 2 1
    (agentDir st (bk / 16 % 64)) 0
  ((s.bank bk).units.filter fun (u, _) => (s.bank bk).mode == .scratch && u == unit).foldl (fun s (_, uid) => s.poisonTeam uid) s

/-- A sync block is marked poisoned (R406, R407): the waiters parked at it are released with POISON, and its team is
marked. -/
def State.poisonSync (s : State) (k i : Nat) : State :=
  match (s.core k).team, s.teamAt k, Sparse.find (s.core k).ni.sync i with
  | some uid, some t, some b =>
    let (x, y) := teamPos t k
    let w := BitVec.ofNat 64 (t.grid % 2 ^ 32 * 2 ^ 32 + t.idx * 2 ^ 16 + y * 2 ^ 11 + x * 2 ^ 6 + i)
    let s := s.mapNi k fun ni => { ni with sync := Sparse.set ni.sync i { b with poisoned := true } }
    let waits := s.cores.flatMap fun (j, c) => (c.ctxs.filter fun (_, c) => c.barr.any (·.blk == w)).map fun (x, _) => (j, x)
    let s := waits.foldl (fun s (j, x) =>
      let s := s.mapCtx j x fun c => { c with barr := c.barr.map fun r => { r with status := some 3 } }
      if (s.ctxAt j x).park.isSome then s.push (.parkResume j x) else s) s
    (s.poisonTeam uid).machineCheck (siteOf k) 2 1 (agentNi k) 0
  | _, _, _ => s

/-! Entries of the other NI arrays (R406, R409, R413). A poisoned one is lost: a request whose answer it was to give is cancelled,
and a message is given up. -/

/-- A message in a retry buffer is lost: it counts in STRAYS, its number is skipped, and its channel goes on. -/
def State.loseRetry (s : State) (k : Nat) (e : RetryEntry) : State :=
  let a := agentNi k
  let s := s.mapNi k fun ni => { ni with retry := ni.retry.erase e }
  (((s.giveUp a e.msg.id).stray k e.msg).machineCheck (siteOf k) 6 1 a 0).chainOn (.messageAccept e.msg)

/-- A send-buffer entry is lost: a task that still holds the effect, or whose PUT it is, takes MCHECK; a message is given up. -/
def State.loseSend (s : State) (k x : Nat) (e : SendEntry) : State :=
  let t := s.ctxAt k x
  if !e.committed then s.takeTrap k x cMCHECK 0 (State.instrPc t) 0 false
  else
    let s := s.mapCtx k x fun t => { t with send := t.send.erase e, divert := t.divert.erase e }
    let s := match e.eff with
      | .msg m => (s.stray k m).machineCheck (siteOf k) 6 1 (agentNi k) 0
      | .put q => if t.occupied && !e.ended then s.takeTrap k x cMCHECK 0 (State.instrPc t) (BitVec.ofNat 64 q.dst) false else s
      | _ => s
    if (State.nextOut (s.ctxAt k x)).isSome then s.pushOnce (.niTransmit k x) else (s.quietOn k).settled k x

/-- A window entry is lost: a request that is not answered yet is cancelled at its source, an answer is sent as ACK alone. -/
def State.loseWindow (s : State) (k src : Nat) (e : WinEntry) : State :=
  let o := agentNi k
  let s := s.mapWindow o src fun w => { w with entries := w.entries.map fun x => if x.seq = e.seq then { x with step := none, done := true } else x }
  match e.done, e.step with
  | false, some r =>
    let off := fun (es : List Event) => es.filter (· != r)
    let s := { s with agenda := off s.agenda, nextCycle := off s.nextCycle }
    ((s.freeXmit src o e.seq).cancelStep o r).xmitOn src
  | _, _ => s

/-- An entry of an NI array is lost. -/
def State.loseEntry (s : State) (k : Nat) (arr : NiArray) (i : Nat) : State :=
  let ni := (s.core k).ni
  match arr with
  | .refusal => match ni.refusals[i]? with
    | none => s
    | some (id, _, sender) =>
      let s := s.mapNi k fun ni => { ni with refusals := ni.refusals.filter (·.1 != id) }
      match (s.core sender).ni.retry.find? (·.msg.id == id) with
      | some e => s.loseRetry sender e
      | none => s
  | .room => match ni.rooms[i]? with
    | none => s
    | some r => (s.mapNi k fun ni => { ni with rooms := ni.rooms.erase r }).entryFreed k
  | .retry => match ni.retry[i]? with
    | none => s
    | some e => s.loseRetry k e
  | .send =>
    match ((s.core k).ctxs.flatMap fun (x, t) => (t.divert ++ t.send).map fun e => (x, e))[i]? with
    | none => s
    | some (x, e) => s.loseSend k x e
  | .combine => match ni.combine[i]? with
    | none => s
    | some e => (s.mapNi k fun ni => { ni with combine := ni.combine.erase e }).cancelAmo (State.placeAgent k true e.place) e.req
  | .pallet => match ni.pallet[i]? with
    | none => s
    | some e => (s.mapNi k fun ni => { ni with pallet := ni.pallet.erase e }).settled k 0
  | .mailbox =>
    let here := ni.mail.flatMap fun (n, b) => b.entries.map fun e => (n, e)
    let late := ni.mail.flatMap fun (n, b) => b.deferred.map fun d => (n, d)
    let put := fun (n : Nat) (f : Mailbox → Mailbox) => s.mapNi k fun ni => { ni with mail := Sparse.set ni.mail n (f (Sparse.get {} ni.mail n)) }
    match here[i]?, late[i - here.length]? with
    | some (n, e), _ => put n fun b => { b with entries := b.entries.erase e }
    | none, some (n, d) => (put n fun b => { b with deferred := b.deferred.erase d }).cancelOp (agentNi k) d.1.core d.1.ctx d.1.op
    | none, none => s
  | .window =>
    match ((Sparse.get [] (s.site (siteOf k)).windows (agentNi k)).flatMap fun w => w.entries.map fun e => (w.src, e))[i]? with
    | none => s
    | some (src, e) => s.loseWindow k src e

/-- What an uncorrectable error does (R404): a clean line of a cache is invalidated and fetched again, a dirty one is poisoned;
a speculative one costs the core, and so do held B and FPSTAT, protected as the register files are (DEDUCED, log 112). -/
def State.uncorrectable (s : State) : ErrUnit → State
  | .line a => s.poisonLine a 4 (agentHod (paSite a) (paSlice a))
  | .l2 a => if s.l2Dirty (lineOf a) then s.poisonLine a 3 (agentDir (paSite a) (paSlice a)) else s
  | .scratch a => s.poisonBank a ((a - bankBase (bankOf a)) / 4096)
  | .slot a => s.poisonBank a ((a - bankBase (bankOf a)) / 2 ^ (5 + (s.bank (bankOf a)).slot))
  | .sync k i => s.poisonSync k i
  | .queue k id =>
    (s.mapNi k fun ni => { ni with queue := ni.queue.map fun e => if e.msg.id = id then { e with poisoned := true } else e }).machineCheck
      (siteOf k) 2 1 (agentNi k) 0
  | .ni k arr i => (s.loseEntry k arr i).machineCheck (siteOf k) 2 1 (agentNi k) 0
  | .regfile k => s.push (.coreLoss k)
  | .heldB k => s.push (.coreLoss k)
  | .fpstat k => s.push (.coreLoss k)
  | .specLine k => s.push (.coreLoss k)
  | .l1i k a => s.mapCore k fun c => { c with l1i := c.l1i.filter (· != lineOf a) }
  | .l1d k a => if s.specLine k (lineOf a) then s.push (.coreLoss k) else s.dropL1 (· == k) (·.line == lineOf a)
  | .cluster k a =>
    let s' := s.dropLine k (lineOf a)
    if (s.clusterFind k (lineOf a)).any (·.state.isDirty) then s'.poisonLine a 2 (agentDir (siteOf k) (clusterOf k)) else s'
  | .directory a => s.poisonLine a 3 (agentDir (paSite a) (paSlice a))

/-- ECC_ERROR (R404 to R407): a corrected error is counted; an uncorrectable one is contained at its unit. Parity of the
L1 instruction cache corrects nothing: its line is fetched again. -/
def execEccError (u : ErrUnit) (correctable : Bool) (s : State) : Host.Outcome State Fault Refusal :=
  .next (match correctable, u with
    | true, .line a => s.dramCorrected a
    | true, .l1i k a => s.uncorrectable (.l1i k a)
    | true, u => s.mapSite (unitSite u) fun t => { t with sramc := sat16 (t.sramc + 1) }
    | false, u => s.uncorrectable u)

/-- SCRUB (R404): every array of the site is checked; `found` is what the check finds, with the bits that ERRINJ has altered there
(R359). -/
def execScrub (site : Nat) (found : List (ErrUnit × Bool)) (s : State) : Host.Outcome State Fault Refusal :=
  let s := s.checkRead ((s.flips.map fun (u, _) => State.flipAddr u).filter fun a => paSite a == site)
  .next (s.pushAll ((found.filter fun (u, _) => unitSite u == site).map fun (u, c) => .eccError u c))

/-! Losing a core. -/

/-- The number of a core's cluster in its device. -/
def clusterKey (k : Nat) : Nat := siteOf k * 64 + clusterOf k

/-- CORE_LOSS (R408): every task of the core takes MCHECK, but for those that the trap of one before has ended with their team; an unreleased one's message goes back with its retry count as
it was. The copy of the NI to the cluster's spare begins; with no spare left the core is lost for good, and its team is
pre-empted (R411). An error during a copy changes nothing more (R413). -/
def execCoreLoss (core : Nat) (s : State) : Host.Outcome State Fault Refusal :=
  if (s.core core).lost ≠ 0 then .next s
  else
    let s := s.mapCore core fun c => { c with lost := 1, copyStart := c.cycle }
    let s := ((s.core core).ctxs.filter fun (_, t) => t.occupied).foldl (fun s (x, t) =>
      if (s.ctxAt core x).occupied && (s.ctxAt core x).gen == t.gen then s.takeTrap core x cMCHECK 0 (State.instrPc t) 0 true else s) s
    let s := s.mapCore core fun c => { c with tiles := [], l1 := [], l1i := [], dtlb := [] }
    let site := siteOf core
    if !(s.site site).sparesUsed.contains (clusterOf core) then
      .next (s.mapSite site fun t => { t with sparesUsed := insertNat t.sparesUsed (clusterOf core) })
    else
      let s := (s.mapCore core fun c => { c with lost := 2 }).machineCheck site 1 1 (agentNi core) 0
      .next (match (s.core core).team with
        | some uid => s.preemptTeam uid
        | none => s)

/-- SPARE_TAKEOVER (R408): the spare takes the coordinate; requests that waited are served, and dispatch goes on. -/
def execSpareTakeover (core : Nat) (s : State) : Host.Outcome State Fault Refusal :=
  let c := s.core core
  if c.lost ≠ 1 then .next s
  else
    let s := s.mapCore core fun c => { c with lost := 0, waiting := [] }
    .next (((s.pushAll c.waiting).push (.dispatch core)).machineCheck (siteOf core) 1 1 (agentNi core) 0)

/-! Losing a site. -/

/-- Every team of a grid is killed, and the grid ends LOST (R411). -/
def State.loseGrid (s : State) (gk : Nat) : State :=
  let s := s.mapGrid gk fun g => { g with lost := true }
  (s.teams.filter fun (_, t) => t.grid == gk).foldl (fun s (u, _) => s.killTeam u) s

/-- Grids of a partition with a waiting team that the surviving sites could not hold are lost (R411). -/
def State.loseUnplaceable (s : State) (part : Nat) : State :=
  let waiting := (s.teams.filter fun (_, t) => t.part == part && t.state == .waiting).map fun (u, t) => (u, t.grid)
  waiting.foldl (fun s (u, gk) => match Sparse.find s.grids gk with
    | none => s
    | some g =>
      let us := if g.oversub then [u] else g.teams.filter fun v => (Sparse.find s.teams v).any fun t => t.state != .ended
      if g.lost || s.gangFits part us then s else s.loseGrid gk) s

/-- Requests that agents of other sites have sent to a lost site are cancelled (R409). -/
def State.loseRequests (s : State) (site : Nat) : State :=
  let hits := s.sites.flatMap fun (_, t) => t.xmit.flatMap fun (a, xs) =>
    (xs.filter fun x => agentSite x.owner == site && agentSite a != site).map fun x => (a, x)
  hits.foldl (fun s (a, x) =>
    (((s.freeXmit a x.owner x.seq).machineCheck (agentSite a) 6 1 a 0).cancelStep x.owner x.step).xmitOn a) s

/-- Flits that a lost site's routers held are lost with them; their sources or owners send again (log 26). -/
def State.loseFlits (s : State) (site : Nat) : State :=
  let t := s.site site
  let fs := (t.flits ++ t.reasm ++ (List.range 6).flatMap fun d => (s.link site d).replayBuf).filter fun f =>
    agentSite f.src != site && f.toSite != site
  let s := s.mapSite site fun t => { t with flits := [], inject := [], reasm := [], mesh := [], xmit := [], windows := [] }
  fs.foldl (fun s f =>
    if f.kind = 2 ∧ 3 ≤ f.ctl then s
    else s.pushOnce (.reroute f.src f.dst ⟨f.seq, lostKind f⟩)) s

/-- Grids whose LAUNCH node was a lost site's have none any more. -/
def State.dropNodes (s : State) (site : Nat) : State :=
  let off := fun (g : Grid) => if g.node.any fun p => p.1 == site then { g with node := none } else g
  { s with grids := Sparse.mapVals off s.grids }

/-- SITE_LOSS (R411): the grids with a team on the site end LOST, its memory is poisoned, its links are dead, and
requests to its agents are cancelled. -/
def execSiteLoss (site : Nat) (s : State) : Host.Outcome State Fault Refusal :=
  if !(s.site site).live then .next s
  else
    let part := s.partOfSite site
    let s := s.loseFlits site
    let s := s.mapSite site fun t => { t with live := false, evacuating := none, nodes := [], ready := [], halves := [], faults := [] }
    let s := s.dropNodes site
    let gone := ((s.teams.filter fun (_, t) => State.holdsCores t && t.site == site).map fun (_, t) => t.grid).foldl insertNat []
    let s := gone.foldl (fun s gk => s.loseGrid gk) s
    let s := (List.range 6).foldl (fun s d =>
      let nb := s.neighbour site d
      let s := s.mapLink site d fun l => { l with dead := true, replayBuf := [], unacked := [] }
      if nb = site then s else s.killEnd nb (backDir d)) s
    let s := s.loseRequests site
    let teller := match part with
      | some p => s.liveSite p site
      | none => site
    let s := s.machineCheck teller 7 3 (agentGw site) 0
    .next (match part with
      | some p => (s.loseUnplaceable p).pushOnce (.teamPlace p)
      | none => s)

/-- SITE_EVACUATION (R411): every team on the site is pre-empted and placed again elsewhere, and the regions homed there
are released. -/
def execSiteEvacuation (site : Nat) (s : State) : Host.Outcome State Fault Refusal :=
  let t := s.site site
  if !t.live || t.evacuating.isSome then .next s
  else
    let s := s.mapSite site fun t => { t with evacuating := some t.fab }
    let mine := s.teams.filter fun (_, t) => State.holdsCores t && t.site == site && !(s.imageOf t).hod
    let s := mine.foldl (fun s (u, _) => s.preemptTeam u) s
    .next ((s.regions.filter fun (_, r) => r.site == site && r.state == 1).foldl (fun s (key, r) => s.releaseRegion key r) s)

/-- EVACUATION_TIMEOUT (R411): 2^26 core cycles later whatever remains is treated as lost; so is a team that a core
without a spare has kept from quiescence. -/
def execEvacuationTimeout (site : Nat) (s : State) : Host.Outcome State Fault Refusal :=
  let t := s.site site
  let dead := s.cores.filter fun (k, c) => siteOf k == site && c.lost == 2 && c.copyStart + 2 ^ 26 ≤ c.cycle
  let gone := ((dead.filterMap fun (_, c) => c.team.bind (Sparse.find s.teams)).map (·.grid)).foldl insertNat []
  let s := gone.foldl (fun s gk => s.loseGrid gk) s
  .next (match t.evacuating with
    | some since => if t.fab < since + 2 ^ 27 then s else s.push (.siteLoss site)
    | none => s)

/-! The debugger. -/

/-- DEBUG_ATTACH (R360, R435): only while INJEN is set. -/
def execDebugAttach (part : Nat) (s : State) : Host.Outcome State Fault Refusal :=
  .next (s.mapPart part fun p => { p with attached := p.attached || p.injen })

/-- DEBUG_DETACH (R435). -/
def execDebugDetach (part : Nat) (s : State) : Host.Outcome State Fault Refusal :=
  .next (s.mapPart part fun p => { p with attached := false })

/-- Whether a debugger may act on a context (R412): halted, with one attached. -/
def State.debuggable (s : State) (k x : Nat) : Bool := (s.ctxAt k x).halted && (s.part (s.partAt k)).attached

/-- The BKPT a context halted at is passed (R412). -/
def State.passBkpt (s : State) (k x : Nat) : State :=
  if (s.ctxAt k x).atBkpt then s.asCtx k x fun s => (s.mapTask fun t => { t with atBkpt := false }).advance else s

/-- DEBUG_RESUME (R412): the context goes on after the BKPT, and its grid is thawed. -/
def execDebugResume (core ctx : Nat) (s : State) : Host.Outcome State Fault Refusal :=
  if !s.debuggable core ctx then .next s
  else
    let s := (s.passBkpt core ctx).mapCtx core ctx fun t => { t with halted := false, stepping := false }
    .next (match s.teamAt core with
      | none => s
      | some t => (s.teams.filter fun (_, v) => v.grid == t.grid && v.frozen).foldl (fun s (u, _) => s.thawTeam u) s)

/-- DEBUG_STEP (R412): the context may execute one instruction, and stays halted after it. A transaction that it is in
aborts with code 10 (R149). -/
def execDebugStep (core ctx : Nat) (s : State) : Host.Outcome State Fault Refusal :=
  .next (if s.debuggable core ctx then
    ((s.passBkpt core ctx).abortTxn core ctx 10 0 false).mapCtx core ctx fun t => { t with stepping := true } else s)

/-- BREAK (R399, R412): the debugger ends a halted task. -/
def execBreakTask (core ctx : Nat) (s : State) : Host.Outcome State Fault Refusal :=
  .next (if s.debuggable core ctx then s.takeTrap core ctx cBREAK 0 (State.instrPc (s.ctxAt core ctx)) 0 false else s)

end Sys2Proof.Machine
end

