-- ==== Sys2Proof/Machine/HostPort.lean ====
section
/-!
DEFINITION. The host's side: the register block of a port (R5, R416, R422, R438), snoops and grants of CXL.cache (R418,
R419), the host's access to device memory (R420), checkpoint and restore (R422 to R426), ports (R414, R415).
-/
namespace Sys2Proof.Machine

/-! Ports. -/

/-- A module whose reset sequence has ended serves its ports (R428). -/
def State.serving (s : State) (mod : Nat) : Bool := (s.module mod).powered && (s.module mod).resetStep == 7

/-- The lowest port of a module that is up. -/
def State.anyPort (s : State) (mod : Nat) : Option Nat := (List.range 8).find? fun k => (s.port mod k).up

/-- The site of a port's gateway (R414). -/
def portSite (mod port : Nat) : Nat := mod * 24 + 3 * port

/-- The features of R415 that link-up negotiates and the capability registers report, in the order of their bits there. -/
def portFeatures : List PortFeature :=
  [.standardFlit, .latencyFlit, .laneReversal, .cxlIo, .cxlCache, .cxlMem, .hdmDb, .backInvalidate, .switches, .ide, .spdm, .msix]

/-- The bits of some features. -/
def featureBits (fs : List PortFeature) : Nat := (portFeatures.zipIdx.map fun (f, i) => if fs.contains f then 2 ^ i else 0).sum

/-- PORT_LINK_UP (R415): a port trains at a width and rate it supports, with the negotiated CXL version and the features that it
shares with its link partner; a partner that shares no flit format or not the three protocols of the device type brings no port
up (log 100). -/
def execPortLinkUp (port : PortId) (width rate cxlMajor cxlMinor : Nat) (features : List PortFeature) (s : State) :
    Host.Outcome State Fault Refusal :=
  let both := portFeatures.filter features.contains
  let ok := port.port < 8 && [4, 8, 16].contains width && [16, 32, 64].contains rate && (s.module port.mod).powered
    && (cxlMajor < 3 || (cxlMajor == 3 && cxlMinor ≤ 2))
    && (both.contains .standardFlit || both.contains .latencyFlit) && [PortFeature.cxlIo, .cxlCache, .cxlMem].all both.contains
  .next (if ok then s.mapPort port.mod port.port fun p => { p with up := true, width, rate, cxlMajor, cxlMinor, features := both } else s)

/-- Steps that wait at a site for the host go on. -/
def State.hostOn (s : State) (site : Nat) : State :=
  let es := (s.site site).hostWait
  (s.mapSite site fun t => { t with hostWait := [] }).pushAll es

/-- No port reaches the host any more (R414): every HOST access of the site's cores that is under way takes CAP, those of the
combine buffers are dropped with their operations, and no back-invalidate is awaited; the steps that waited go on. -/
def State.hostGone (s : State) (site : Nat) : State :=
  let s := s.mapSite site fun t => { t with halfReq := [], bisnp := [], hdm := t.hdm.filter fun (h, _) => (Sparse.find t.bisnp h).isNone }
  let cores := s.cores.keys.filter (siteOf · == site)
  let s := cores.foldl (fun s k => s.mapNi k fun ni => { ni with combine := ni.combine.filter fun e => e.place != .host site }) s
  let ops := cores.flatMap fun k => (s.core k).ctxs.flatMap fun (x, t) =>
    ((t.pend ++ t.owed).filter (·.place == .host site)).map fun p => (k, x, p.op)
  (ops.foldl (fun s (k, x, op) => s.failOp cCAP (agentGw site) k x op) s).hostOn site

/-- PORT_LOST (R414, R426): the port is down; a running checkpoint that loses port 0 ends with MEDIA. With no live port
left, nothing waits for the host any more. -/
def execPortLost (mod port : Nat) (s : State) : Host.Outcome State Fault Refusal :=
  if !(s.port mod port).up then .next s
  else
    let s := s.mapPort mod port fun p => { p with up := false, spdm := 0 }
    let s := if port = 0 ∧ (s.module mod).ck.busy then
        (s.mapModule mod fun m => { m with ck := { m.ck with media := true, done := true } }).push (.checkpointComplete mod)
      else s
    .next (if (s.anyPort mod).isSome then s else (List.range 24).foldl (fun s i => s.hostGone (mod * 24 + i)) s)

/-! The register block. -/

/-- The ways of an HDM decoder as CXL encodes them (log 100). -/
def waysCode (n : Nat) : Nat := if n = 2 then 1 else if n = 4 then 2 else if n = 8 then 3 else 0

/-- What a read of a port's configuration and component registers returns (R415); their places are the model's (log 100). -/
def Port.config (p : Port) (off : Nat) : Word :=
  if off = 0x1800 then (if p.msixOn then 1 else 0)
  else if off = 0x2000 then BitVec.ofNat 64 (featureBits portFeatures)
  else if off = 0x2008 then BitVec.ofNat 64 (featureBits p.features)
  else if off = 0x2010 then BitVec.ofNat 64 (p.width * 2 ^ 32 + p.rate)
  else if off = 0x2018 then BitVec.ofNat 64 (4 * 2 ^ 32 + 2)
  else if 0x1000 ≤ off ∧ off < 0x1080 then
    let d : HdmDecoder := Sparse.get {} p.decoders ((off - 0x1000) / 32)
    BitVec.ofNat 64 (match off % 32 with
      | 0 => d.base
      | 8 => d.size
      | 16 => waysCode d.ways * 16 + (if d.committed then 0x600 else 0)
      | 24 => d.part
      | _ => 0)
  else 0

/-- A write of a port's configuration and component registers (R415). A decoder is set up while it is not committed; it commits
over a window of some bytes that belongs to a partition of the module (R420). -/
def Port.configure (p : Port) (mine : Nat → Bool) (off : Nat) (v : Word) : Port :=
  if off = 0x1800 then { p with msixOn := v.getLsbD 0 }
  else if 0x1000 ≤ off ∧ off < 0x1080 then
    let n := (off - 0x1000) / 32
    let d : HdmDecoder := Sparse.get {} p.decoders n
    let iw := (v.extractLsb' 4 4).toNat
    { p with decoders := Sparse.set p.decoders n (match off % 32, d.committed with
      | 0, false => { d with base := v.toNat }
      | 8, false => { d with size := v.toNat }
      | 16, _ => if v.getLsbD 9 then { d with ways := 2 ^ (iw % 4), committed := d.committed || (d.size != 0 && iw < 4 && mine d.part) }
          else { d with ways := 2 ^ (iw % 4), committed := false }
      | 24, false => { d with part := v.toNat }
      | _, _ => d) }
  else p

/-- The partition and virtual address of a host address in a committed decoder's window (R420). -/
def Port.window (p : Port) (hpa n : Nat) : Option (Nat × Nat) :=
  p.decoders.findSome? fun (_, d) =>
    if d.committed && d.base ≤ hpa && hpa + n ≤ d.base + d.size then some (d.part, hpa - d.base) else none

/-- What a read of a port's BAR0 returns (R416, R422, R438); a read of POSTSTAT is POSTSTAT_READ, which also clears
OVERRUN. A module out of service reads as zero (R428). Offsets from 0x1000 are those of the port's other registers. -/
def State.portRead (s : State) (mod port off : Nat) : Word :=
  let p := s.port mod port
  let m := s.module mod
  let st := fun (i : Nat) => s.site (mod * 24 + i)
  if !s.serving mod then 0
  else if off = 0x000 then BitVec.ofNat 64 (p.cxlMajor * 2 ^ 16 + p.cxlMinor * 2 ^ 8 + Config.revision.toNat)
  else if off = 0x008 then BitVec.ofNat 64 p.postSite
  else if off = 0x010 then
    BitVec.ofNat 64 ((if p.postBusy then 2 ^ 63 else 0) + (if p.overrun then 2 ^ 62 else 0) + p.postCode * 2 ^ 32 + p.postHandle)
  else if off = 0x018 then p.nstat
  else if off = 0x020 ∧ port = 0 then BitVec.ofNat 64 m.ck.mode
  else if off = 0x028 ∧ port = 0 then BitVec.ofNat 64 m.ck.base
  else if off = 0x030 ∧ port = 0 then
    BitVec.ofNat 64 ((if m.ck.busy then 2 ^ 63 else 0) + m.ck.code * 2 ^ 32 + m.ck.elapsed % 2 ^ 32)
  else if 0x100 ≤ off ∧ off < 0x1C0 ∧ off % 8 = 0 then
    let t := st ((off - 0x100) / 8)
    BitVec.ofNat 64 ((t.nodes.filter fun (_, d) => !d.freed).length * 2 ^ 32 + t.glostdec)
  else if 0x400 ≤ off ∧ off < 0x4C0 ∧ off % 8 = 0 then
    let t := st ((off - 0x400) / 8)
    BitVec.ofNat 64 (t.level * 2 ^ 48 + t.sensors.power % 2 ^ 16 * 2 ^ 32 + t.sensors.tdram % 256 * 2 ^ 24
      + t.sensors.tbase % 256 * 2 ^ 16 + t.sensors.tcomp % 256 * 2 ^ 8)
  else if off = 0x4C0 then
    let w := (List.range 24).foldl (fun n i => n + (st i).sensors.power) 0
    BitVec.ofNat 64 (w / 10 % 2 ^ 16 * 2 ^ 48) ||| ((Config.coolant s.free).setWidth 64 &&& 0x0000FFFF0000FFFF#64)
  else if 0x500 ≤ off ∧ off < 0x5C0 ∧ off % 8 = 0 then BitVec.ofNat 64 (st ((off - 0x500) / 8)).capset
  else p.config off

/-- POSTSTAT_READ (R5, R416): the host gets POSTSTAT, and in the same action OVERRUN clears. -/
def execPoststatRead (mod port : Nat) (s : State) : Host.Outcome State Fault Refusal :=
  let v := s.portRead mod port 0x010
  .next (s.mapPort mod port fun p => { p with readData := v, overrun := p.overrun && !s.serving mod })

/-- A write of CKCTL (R422): port 0 alone acts, and a GO while BUSY is ignored. -/
def State.ckctl (s : State) (mod : Nat) (v : Word) : State :=
  let mode := (v.extractLsb' 0 2).toNat
  let s := s.mapModule mod fun m => { m with ck := { m.ck with mode } }
  if !v.getLsbD 63 || (s.module mod).ck.busy then s
  else if mode = 3 then s.mapModule mod fun m => { m with ck := { m.ck with code := 4, elapsed := 0 } }
  else
    let now := (s.site (mod * 24)).fab
    let s := s.mapModule mod fun m =>
      { m with ck := { m.ck with busy := true, op := mode, start := now, done := false, media := false, result := 0 } }
    s.push (match mode with
      | 0 => .checkpointFull mod
      | 1 => .checkpointIncr mod
      | _ => .restore mod)

/-- REGISTER_WRITE (R5, R416, R422, R438): an aligned 64-bit write by the host to a port's BAR0. RO fields and other
offsets ignore it. -/
def execRegisterWrite (mod port off : Nat) (v : Word) (s : State) : Host.Outcome State Fault Refusal :=
  if !s.serving mod || !(s.port mod port).up then .next s
  else if off = 0x008 then
    let p := s.port mod port
    let put := fun (s : State) => s.mapPort mod port fun p => { p with postSite := (v.extractLsb' 0 5).toNat }
    .next (if !v.getLsbD 63 then put s
      else if p.postBusy then (put s).mapPort mod port fun p => { p with overrun := true }
      else ((put s).mapPort mod port fun p => { p with postBusy := true, goSite := p.postSite }).push (.postGo mod port))
  else if off = 0x018 then .next (s.mapPort mod port fun p => { p with nstat := p.nstat &&& ~~~v })
  else if off = 0x020 ∧ port = 0 then .next (s.ckctl mod v)
  else if off = 0x028 ∧ port = 0 then
    .next (s.mapModule mod fun m => { m with ck := { m.ck with base := (v.extractLsb' 12 33).toNat * 4096 } })
  else if 0x040 ≤ off ∧ off < 0x080 ∧ off % 8 = 0 then
    .next (s.mapPort mod port fun p => { p with postrec := Sparse.set p.postrec ((off - 0x040) / 8) v })
  else if 0x500 ≤ off ∧ off < 0x5C0 ∧ off % 8 = 0 then .next (s.push (.capsetWrite (mod * 24 + (off - 0x500) / 8) v))
  else .next (s.mapPort mod port fun p => p.configure (fun n => (Sparse.find s.parts n).any fun q => q.mod == mod) off v)

/-! CXL.cache. -/

/-- A line leaves the caches of a site (R418). -/
def State.dropSiteLine (s : State) (site line : Nat) : State := s.forgetLines (· == site) (· == line)

/-- A host snoop is recorded and answered (R418), with data for a half in M; the half keeps at most `keep`. -/
def State.snoop (s : State) (site h keep : Nat) : State :=
  let v := s.halfState site h
  let w := min v keep
  let data := if v = 3 then s.readMem (addrRange (h * 64) 64) else []
  let s := s.mapSite site fun t =>
    { t with snoopData := data
             halves := if w = 0 then t.halves.filter (·.1 != h) else t.halves.map fun (j, u) => (j, if j = h then w else u) }
  if v ≠ 0 && w = 0 then s.dropSiteLine site (h / 2) else s

/-- SNPINV (R418): the half is left in I. -/
def execSnpinv (site half : Nat) (s : State) : Host.Outcome State Fault Refusal := .next (s.snoop site half 0)

/-- SNPDATA (R418): the half is left in S. -/
def execSnpdata (site half : Nat) (s : State) : Host.Outcome State Fault Refusal := .next (s.snoop site half 1)

/-- SNPCUR (R418): the half keeps its state. -/
def execSnpcur (site half : Nat) (s : State) : Host.Outcome State Fault Refusal := .next (s.snoop site half 3)

/-- The tracking of a site holds 65,536 device lines: the least recently used is returned to make room (R418). -/
def State.makeRoom (s : State) (site h : Nat) : State :=
  let hs := (s.site site).halves
  let lines := (hs.reverse.map fun (j, _) => j / 2).eraseDups
  if lines.contains (h / 2) || lines.length < 65536 then s
  else match lines.getLast? with
    | some l => s.evictHalves site l
    | none => s

/-- HOST_CACHE_GRANT (R418): the host grants a half asked for with its data: RdShared in S or E, RdOwn in E or M. -/
def execHostCacheGrant (site half : Nat) (state : Nat) (data : List Byte) (s : State) : Host.Outcome State Fault Refusal :=
  match Sparse.find (s.site site).halfReq half with
  | none => .next s
  | some want =>
    if state = 0 ∨ 3 < state ∨ (want = 0 ∧ state = 3) ∨ (want = 1 ∧ state < 2) then .next s
    else
      let s := s.makeRoom site half
      let s := s.writeMem ((addrRange (half * 64) 64).zip data)
      let s := s.mapSite site fun t =>
        { t with halves := t.halves.filter (·.1 != half) ++ [(half, state)], halfReq := Sparse.erase t.halfReq half }
      .next (s.hostOn site)

/-! Device memory seen by the host. -/

/-- A range of an HDM window translated for the host at a port's site (R420): its bytes, or the cause of a fault. -/
def State.hdmXlate (s : State) (frm part va n : Nat) (acc : Access) : State × (List Nat ⊕ Nat) :=
  (blockParts (BitVec.ofNat 64 va) n).foldl (fun (s, out) (x, _, len) =>
    match out with
    | .inr c => (s, .inr c)
    | .inl as => match s.agentXlate part true frm (s.outsideHome part x.toNat) x.toNat acc with
      | (s, .inl a) => (s, .inl (as ++ addrRange a len))
      | (s, .inr c) => (s, .inr c)) (s, .inl [])

/-- The machine check of a host access that faults (R420, R405). -/
def State.hdmCheck (s : State) (site : Nat) : State := s.machineCheck site 6 1 (agentGw site) 0

/-- The oldest tracked half of a site whose tracking is full for some more halves (R420). -/
def State.hdmOldest (s : State) (hs : List Nat) : Option Nat :=
  hs.findSome? fun h =>
    let t := s.site (paSite (h * 64))
    let more := (hs.filter fun j => paSite (j * 64) == paSite (h * 64) && !t.hdm.any (·.1 == j)).length
    if t.hdm.length + more ≤ 65536 then none else (t.hdm.find? fun (j, _) => !hs.contains j).map (·.1)

/-- A half the host reads is tracked (R420): the host may come to hold it modified (log 28). -/
def State.hdmTrack (s : State) (h : Nat) : State :=
  let st := paSite (h * 64)
  let s := s.mapSite st fun t => { t with hdm := t.hdm.filter (·.1 != h) ++ [(h, 2)] }
  s.forgetLines (fun n => n / 24 == st / 24) (· == h / 2)

/-- A host access through a port (R420): the module is in service and the port up, and a decoder's window holds the range, which
gives its partition and VA. Any other is for no window of the port's. -/
def hdmAccess (port : PortId) (hpa n : Nat) (s : State) (ok : Nat → Nat → Host.Outcome State Fault Refusal) :
    Host.Outcome State Fault Refusal :=
  if !s.serving port.mod || !(s.port port.mod port.port).up then .next s
  else match (s.port port.mod port.port).window hpa n with
  | some (part, va) => ok part va
  | none => .next s

/-- HOST_READ (R420): translated, and served with what stands at the home; zero and marked poisoned after a fault. -/
def execHostRead (port : PortId) (hpa len : Nat) (s : State) : Host.Outcome State Fault Refusal :=
  hdmAccess port hpa len s fun part va =>
    let e := Event.hostRead port hpa len
    let frm := portSite port.mod port.port
    match s.hdmXlate frm part va len .read with
    | (s, .inr c) => .next (if c = fWAIT then s.again e
        else (s.hdmCheck frm).mapModule port.mod fun m => { m with hdmData := List.replicate len 0, hdmPoison := true })
    | (s, .inl as) =>
      let hs := (State.halvesOf as).filter fun h => h < 2 ^ 39
      let wait := fun (s : State) (st : Nat) => Host.Outcome.next (s.mapSite st fun t => { t with hostWait := t.hostWait ++ [e] })
      if s.tileLocked as then .next (s.again e)
      else match hs.find? fun h => (Sparse.find (s.site (paSite (h * 64))).bisnp h).isSome with
      | some h => wait s (paSite (h * 64))
      | none => match s.hdmOldest hs with
      | some j => wait (s.mapSite (paSite (j * 64)) fun t => { t with bisnp := Sparse.set t.bisnp j 1 }) (paSite (j * 64))
      | none =>
        let bad := (s.poisonedByte as).isSome
        let s := hs.foldl (fun s h => s.hdmTrack h) (s.checkRead as)
        .next (s.mapModule port.mod fun m => { m with hdmData := s.readMem as, hdmPoison := bad })

/-- HOST_WRITE (R420, R424): a performed store at its home; stalled while a checkpoint runs, discarded after a fault. -/
def execHostWrite (port : PortId) (hpa : Nat) (data : List Byte) (s : State) : Host.Outcome State Fault Refusal :=
  hdmAccess port hpa data.length s fun part va =>
    let e := Event.hostWrite port hpa data
    let frm := portSite port.mod port.port
    if s.paused port.mod then .next (s.mapModule port.mod fun m => { m with ck := { m.ck with stalled := m.ck.stalled ++ [e] } })
    else match s.hdmXlate frm part va data.length .write with
    | (s, .inr c) => .next (if c = fWAIT then s.again e else s.hdmCheck frm)
    | (s, .inl as) => .next (if s.tileLocked as then s.again e else s.performWrite (as.zip data) [])

/-- BISNP_RESPONSE (R420): the host answers a back-invalidate, with the half's bytes where it held them modified, which are
written once no commit holds their tile locked (R158); the accesses that waited go on. A host that answers BISnpData keeps the
half shared. -/
def execBisnpResponse (site half : Nat) (dirty : Option (List Byte)) (s : State) : Host.Outcome State Fault Refusal :=
  let as := addrRange (half * 64) 64
  match Sparse.find (s.site site).bisnp half with
  | none => .next s
  | some kind =>
    if dirty.isSome && s.tileLocked as then .next (s.again (.bisnpResponse site half dirty))
    else
      let s := s.mapSite site fun t =>
        { t with bisnp := Sparse.erase t.bisnp half
                 hdm := if kind = 1 then t.hdm.filter (·.1 != half) else t.hdm.map fun (j, v) => (j, if j = half then 1 else v) }
      let s := match dirty with
        | some bs => s.performWrite (as.zip bs) []
        | none => s
      .next (s.hostOn site)

/-! Checkpoint and restore. -/

/-- The teams of a module that stand on rectangles, the hod team excepted (R423). -/
def State.ckTeams (s : State) (mod : Nat) : List Nat :=
  (s.teams.filter fun (_, t) => (s.part t.part).mod == mod && !(s.imageOf t).hod && State.holdsCores t).map (·.1)

def State.mapCk (s : State) (mod : Nat) (f : Checkpoint → Checkpoint) : State := s.mapModule mod fun m => { m with ck := f m.ck }

/-- Key of a module's image window. -/
def ckKey (mod base : Nat) : Nat := mod * 2 ^ 48 + base

/-- A team that a checkpoint has begun to quiesce and that still stands on its rectangle takes up its work again, its mail drop
first (R423, R52). -/
def State.resumeTeam (s : State) (uid : Nat) : State :=
  match Sparse.find s.teams uid with
  | none => s
  | some t =>
    if t.state ≠ .quiescing then s
    else
      let s := (State.teamCores t).foldl (fun s k => s.mapCore k fun c => { c with dispatchStop := false }) s
      (s.mapTeam uid fun t => { t with state := .replay, dropOpen := true }).push (.maildropClose uid)

/-- A checkpoint or restore ends (R416, R422): CKSTAT, MSI-X vector 1, and service resumes. -/
def State.ckEnd (s : State) (mod code : Nat) : State :=
  let stalled := (s.module mod).ck.stalled
  let s := (s.module mod).ck.quiesced.foldl (fun s u => s.resumeTeam u) s
  let now := (s.site (mod * 24)).fab
  let s := s.mapCk mod fun c =>
    { c with busy := false, done := false, code, elapsed := (now - c.start) / 1024 % 2 ^ 32, stalled := [], quiesced := []
             last := if code = 0 then some (ckKey mod c.base) else c.last }
  let s := s.mapPort mod 0 fun p => p.interrupt 1
  let s := (s.parts.filter fun (_, p) => p.mod == mod).foldl (fun s (n, _) => s.pushOnce (.teamPlace n)) s
  let s := (List.range 24).foldl (fun s i =>
    if (s.site (mod * 24 + i)).ready.isEmpty then s else s.pushOnce (.nodeStart (mod * 24 + i))) s
  s.pushAll stalled

/-- Whether a storage address holds the code or tables of one of some teams. -/
def storeOf (teams : Sparse Team) (a : Nat) : Bool :=
  teamStore ≤ a && (Sparse.find teams ((a - teamStore) / 2 ^ 32)).isSome

/-- An image as it is restored (R425): an INCR one over the image that preceded it. -/
def CkImage.over (new old : CkImage) : CkImage :=
  match new.frames with
  | none => new
  | some fs =>
    let kept := fun (a : Nat) => a < 2 ^ 45 && !fs.contains (a / 65536)
    { new with frames := old.frames.map fun gs => fs.foldl insertNat gs
               mem := old.mem.filter (fun c => kept c.1) ++ new.mem
               tags := old.tags.filter (fun g => kept (g * 16)) ++ new.tags }

/-- The image of a module (R423): the frames named, or every frame, with tags, tables and the placement queue; over the last
image where not every frame is named (R425). -/
def State.ckSave (s : State) (mod : Nat) (frames : Option (List Nat)) : State :=
  let mine := fun (a : Nat) => a < 2 ^ 45 && a / 2 ^ 42 == mod && frames.all fun fs => fs.contains (a / 65536)
  let parts := s.parts.filter fun (_, p) => p.mod == mod
  let ours := fun (n : Nat) => parts.any fun (m, _) => m == n
  let teams := s.teams.filter fun (_, t) => ours t.part && t.state == .waiting
  let img : CkImage :=
    { frames, valid := true, mem := s.mem.filter fun c => mine c.1 || storeOf teams c.1, tags := s.tags.filter fun g => mine (g * 16) || storeOf teams (g * 16)
      regions := s.regions.filter fun (j, _) => ours (j / 2 ^ 32), parts, slots := (s.module mod).slots
      teams, grids := s.grids.filter fun (_, g) => ours g.part, images := s.images }
  let img := match ((s.module mod).ck.last.bind (Sparse.find s.ckImages)).filter (·.valid) with
    | some old => img.over old
    | none => img
  { s with ckImages := Sparse.set s.ckImages (ckKey mod (s.module mod).ck.base) img }

/-- Every HOST half in M is returned (R423). -/
def State.returnHalves (s : State) (mod : Nat) : State :=
  (List.range 24).foldl (fun s i =>
    let st := mod * 24 + i
    ((s.site st).halves.filter fun (_, v) => v == 3).foldl (fun s (h, _) =>
      (s.mapSite st fun t => { t with halves := t.halves.filter (·.1 != h) }).dropSiteLine st (h / 2)) s) s

/-- The leaves of the tables from a table at level `l` (R383): entry address, leaf, and the page's base and size. -/
def State.leavesFrom (s : State) : Nat → Nat → Nat → List (Nat × Word × Nat × Nat)
  | 0, t, va => (List.range 512).flatMap fun i =>
    let e := s.readWord (t + 8 * i)
    let size := pageSize 0 (pteSpan e)
    let at_ := va + i * 2 ^ 12
    if pteValid e && pteLeaf e then [(t + 8 * i, e, at_ - at_ % size, size)] else []
  | l + 1, t, va => (List.range 512).flatMap fun i =>
    let e := s.readWord (t + 8 * i)
    let size := pageSize (l + 1) (pteSpan e)
    let at_ := va + i * 2 ^ (12 + 9 * (l + 1))
    if !pteValid e then []
    else if pteLeaf e then [(t + 8 * i, e, at_ - at_ % size, size)]
    else leavesFrom s l (pteAddr e) at_

/-- The 64 KiB frames that back a page (R423). -/
def State.pageFrames (s : State) (part : Nat) (leaf : Word) (base size : Nat) : List Nat :=
  match pteMtype leaf with
  | 0 => (s.regions.filter fun (j, r) => j / 2 ^ 32 == part && r.state != 0 && j % 2 ^ 32 * 65536 < base + size
      && base < (j % 2 ^ 32 + 1) * 65536).map fun (_, r) => mkPa r.site r.slice (r.frame * 65536) / 65536
  | 1 =>
    let st := s.readStripe part (pteStripe leaf)
    (List.range (size / 256)).filterMap fun i => (State.stripePa st (base + 256 * i)).map (· / 65536)
  | 2 => (List.range ((size + 65535) / 65536)).map fun i => (pteAddr leaf + i * 65536) / 65536
  | _ => []

/-- The dirty leaves of a partition. -/
def State.dirtyLeaves (s : State) (part : Nat) : List (Nat × Word × Nat × Nat) :=
  (s.leavesFrom 3 (((s.part part).troot.extractLsb' 12 36).toNat * 4096) 0).filter fun (_, e, _, _) => pteD e

/-- The parts of a module. -/
def State.partsOf (s : State) (mod : Nat) : List Nat := (s.parts.filter fun (_, p) => p.mod == mod).map (·.1)

/-- Every translation of a partition is invalidated (R392). -/
def State.forgetXlate (s : State) (part : Nat) : State := s.shootRemove part { id := 0, op := 1, arg := 0, status := 0, comp := noMsg }

/-- Phases 1 and 2 of a checkpoint (R423): every team is swapped out, a frozen one never (R375); once none is left, dirty lines
and halves in M are written back, and the rest follows. -/
def ckPhases (mod op : Nat) (s : State) (rest : State → Host.Outcome State Fault Refusal) : Host.Outcome State Fault Refusal :=
  let c := (s.module mod).ck
  if !c.busy || c.op ≠ op || c.done then .next s
  else match s.ckTeams mod with
    | [] => rest ((s.writeBackAll mod).returnHalves mod)
    | us =>
      let new := us.filter fun u => (Sparse.find s.teams u).any fun t => (t.state == .placed || t.state == .replay) && !t.frozen
      .next ((new.foldl (fun s u => s.beginQuiesce u) s).mapCk mod fun c => { c with quiesced := c.quiesced ++ new })

/-- The image has been streamed (R423): the target may have reported a write error. -/
def State.ckStreamed (s : State) (mod : Nat) : State :=
  ((s.mapCk mod fun c => { c with done := true, media := c.media || Config.writeError s.free }).bump).push (.checkpointComplete mod)

/-- CHECKPOINT_FULL (R423): every frame of the module. -/
def execCheckpointFull (mod : Nat) (s : State) : Host.Outcome State Fault Refusal :=
  ckPhases mod 0 s fun s => .next ((s.ckSave mod none).ckStreamed mod)

/-- CHECKPOINT_INCR (R423): the frames that back pages whose D bit is set; then the D bits are cleared by ACAS, which waits for
a locked tile (R158) and for what the host holds (R420), and every translation of the module's partitions is invalidated. -/
def execCheckpointIncr (mod : Nat) (s : State) : Host.Outcome State Fault Refusal :=
  let e := Event.checkpointIncr mod
  ckPhases mod 1 s fun s =>
    let dirty := (s.partsOf mod).flatMap fun n => (s.dirtyLeaves n).map fun d => (n, d)
    let entries := dirty.flatMap fun (_, ea, _, _, _) => addrRange ea 8
    if s.tileLocked entries then .next (s.again e)
    else match s.hostHold (mod * 24) entries true e with
    | some s => .next s
    | none =>
      let frames := (dirty.flatMap fun (n, _, e, base, size) => s.pageFrames n e base size).foldl insertNat []
      let s := s.ckSave mod (some frames)
      let s := dirty.foldl (fun s (_, ea, e, _, _) =>
        s.performWrite ((addrRange ea 8).zip (bytesOf 8 (e &&& ~~~0x100#64).toNat)) []) s
      .next (((s.partsOf mod).foldl (fun s n => s.forgetXlate n) s).ckStreamed mod)

/-- Whether an image fits the partitions and key-slot assignments of a module (R425). -/
def State.ckFits (s : State) (mod : Nat) (img : CkImage) : Bool :=
  let shape := fun (ps : Sparse Partition) => ps.map fun (n, p) => (n, p.sx0, p.sy0, p.w, p.h, p.sealLo, p.sealHi)
  img.valid && shape img.parts == shape (s.parts.filter fun (_, p) => p.mod == mod)
    && img.slots == (s.module mod).slots

/-- An image streamed back (R425): frames with their tags, region and stripe tables, teams, grids and queue; what was cached of
them is forgotten. -/
def State.ckLoad (s : State) (mod : Nat) (img : CkImage) : State :=
  let mine := fun (a : Nat) => a < 2 ^ 45 && a / 2 ^ 42 == mod && img.frames.all fun fs => fs.contains (a / 65536)
  let ours := fun (n : Nat) => img.parts.any fun (m, _) => m == n
  let lines := fun (l : Nat) => mine (l * 128)
  let t := img.parts.foldl (fun s (n, _) => s.forgetXlate n) ((s.forgetLines (fun _ => true) lines).l2Forget lines)
  let s := { t with
    mem := Mem.writeAll (s.mem.filter fun c => !mine c.1 && !storeOf img.teams c.1) img.mem
    tags := img.tags.foldl insertNat (s.tags.filter fun g => !mine (g * 16) && !storeOf img.teams (g * 16))
    poison := s.poison.filter fun l => !mine (l * 128)
    regions := img.regions.foldl (fun m (j, r) => Sparse.set m j r) (s.regions.filter fun (j, _) => !ours (j / 2 ^ 32))
    images := img.images.foldl (fun m (j, i) => Sparse.set m j i) s.images
    grids := img.grids.foldl (fun m (j, g) => Sparse.set m j g) s.grids
    teams := img.teams.foldl (fun m (u, t) => Sparse.set m u t) s.teams }
  img.parts.foldl (fun s (n, p) => s.mapPart n fun q =>
    { q with queue := p.queue ++ q.queue, stripes := [], strbase := p.strbase, gridNext := max p.gridNext q.gridNext }) s

/-- RESTORE (R425): NOIMAGE unless a valid image fits the module. -/
def execRestore (mod : Nat) (s : State) : Host.Outcome State Fault Refusal :=
  let c := (s.module mod).ck
  if !c.busy || c.op ≠ 2 || c.done then .next s
  else
    let img := Sparse.find s.ckImages (ckKey mod c.base)
    let fin := fun (s : State) (n : Nat) =>
      Host.Outcome.next ((s.mapCk mod fun c => { c with done := true, result := n }).push (.checkpointComplete mod))
    match img with
    | some i => if s.ckFits mod i then fin (s.ckLoad mod i) 0 else fin s 3
    | none => fin s 3

/-- CHECKPOINT_TIMEOUT (R423): a team that is not quiescent 2^26 core cycles after the start ends the checkpoint. -/
def execCheckpointTimeout (mod : Nat) (s : State) : Host.Outcome State Fault Refusal :=
  let c := (s.module mod).ck
  if !c.busy || 2 ≤ c.op || c.done || (s.ckTeams mod).isEmpty || (s.site (mod * 24)).fab < c.start + 2 ^ 27 then .next s
  else .next (s.ckEnd mod 1)

/-- CHECKPOINT_COMPLETE (R422, R423): a media error makes the image invalid. -/
def execCheckpointComplete (mod : Nat) (s : State) : Host.Outcome State Fault Refusal :=
  let c := (s.module mod).ck
  if !c.busy || !c.done then .next s
  else if !c.media then .next (s.ckEnd mod c.result)
  else
    let spoil := fun (i : CkImage) => { i with valid := false }
    let s := match Sparse.find s.ckImages (ckKey mod c.base) with
      | some i => if c.op < 2 then { s with ckImages := Sparse.set s.ckImages (ckKey mod c.base) (spoil i) } else s
      | none => s
    .next (s.ckEnd mod 2)

end Sys2Proof.Machine
end

