-- ==== Sys2Proof/Machine/Trust.lean ====
section
/-!
DEFINITION. The standards that Uboskir's checks follow (R8, R431 to R433): SHA-256 of FIPS 180-4, and the verification
of LMS signatures of RFC 8554 with LMOTS_SHA256_N32_W8.
-/
namespace Sys2Proof.Machine

/-! SHA-256 (FIPS 180-4). -/

abbrev W32 := BitVec 32

/-- A number's bytes, the most significant first, as the standards write them. -/
def bigEndian (n v : Nat) : List Byte := (List.range n).map fun i => BitVec.ofNat 8 (v / 256 ^ (n - 1 - i))

/-- Bytes read as a number, the most significant first. -/
def ofBigEndian (bs : List Byte) : Nat := bs.foldl (fun n b => n * 256 + b.toNat) 0

/-- The round constants of SHA-256, in groups of eight. -/
def shaRounds : List W32 :=
  ([0x428a2f98, 0x71374491, 0xb5c0fbcf, 0xe9b5dba5, 0x3956c25b, 0x59f111f1, 0x923f82a4, 0xab1c5ed5] ++
   [0xd807aa98, 0x12835b01, 0x243185be, 0x550c7dc3, 0x72be5d74, 0x80deb1fe, 0x9bdc06a7, 0xc19bf174] ++
   [0xe49b69c1, 0xefbe4786, 0x0fc19dc6, 0x240ca1cc, 0x2de92c6f, 0x4a7484aa, 0x5cb0a9dc, 0x76f988da] ++
   [0x983e5152, 0xa831c66d, 0xb00327c8, 0xbf597fc7, 0xc6e00bf3, 0xd5a79147, 0x06ca6351, 0x14292967]) ++
  ([0x27b70a85, 0x2e1b2138, 0x4d2c6dfc, 0x53380d13, 0x650a7354, 0x766a0abb, 0x81c2c92e, 0x92722c85] ++
   [0xa2bfe8a1, 0xa81a664b, 0xc24b8b70, 0xc76c51a3, 0xd192e819, 0xd6990624, 0xf40e3585, 0x106aa070] ++
   [0x19a4c116, 0x1e376c08, 0x2748774c, 0x34b0bcb5, 0x391c0cb3, 0x4ed8aa4a, 0x5b9cca4f, 0x682e6ff3] ++
   [0x748f82ee, 0x78a5636f, 0x84c87814, 0x8cc70208, 0x90befffa, 0xa4506ceb, 0xbef9a3f7, 0xc67178f2])

/-- The working variables a to h. -/
structure ShaVars where
  a : W32
  b : W32
  c : W32
  d : W32
  e : W32
  f : W32
  g : W32
  h : W32
  deriving DecidableEq, Repr

/-- The initial hash value of SHA-256. -/
def shaInit : ShaVars :=
  ⟨0x6a09e667, 0xbb67ae85, 0x3c6ef372, 0xa54ff53a, 0x510e527f, 0x9b05688c, 0x1f83d9ab, 0x5be0cd19⟩

/-- A message padded to whole blocks of 64 bytes. -/
def shaPad (m : List Byte) : List Byte :=
  m ++ 0x80 :: List.replicate ((119 - m.length % 64) % 64) 0 ++ bigEndian 8 (8 * m.length)

/-- The last sixteen words of the schedule, oldest first, with the next word in the oldest one's place. -/
def shaNext (w : List W32) : List W32 :=
  let at_ := fun i => w.getD i 0
  let s0 := (at_ 1).rotateRight 7 ^^^ (at_ 1).rotateRight 18 ^^^ at_ 1 >>> 3
  let s1 := (at_ 14).rotateRight 17 ^^^ (at_ 14).rotateRight 19 ^^^ at_ 14 >>> 10
  w.drop 1 ++ [s1 + at_ 9 + s0 + at_ 0]

/-- One round, with its constant and word of the schedule. -/
def shaRound (v : ShaVars) (k w : W32) : ShaVars :=
  let t1 := v.h + (v.e.rotateRight 6 ^^^ v.e.rotateRight 11 ^^^ v.e.rotateRight 25) + (v.e &&& v.f ^^^ ~~~v.e &&& v.g) + k + w
  let t2 := (v.a.rotateRight 2 ^^^ v.a.rotateRight 13 ^^^ v.a.rotateRight 22) + (v.a &&& v.b ^^^ v.a &&& v.c ^^^ v.b &&& v.c)
  ⟨t1 + t2, v.a, v.b, v.c, v.d + t1, v.e, v.f, v.g⟩

/-- One block of 64 bytes hashed into a state. -/
def shaBlock (v : ShaVars) (block : List Byte) : ShaVars :=
  let w := (List.range 16).map fun i => BitVec.ofNat 32 (ofBigEndian ((block.drop (4 * i)).take 4))
  let u := (shaRounds.foldl (fun (u, w) k => (shaRound u k (w.headD 0), shaNext w)) (v, w)).1
  ⟨v.a + u.a, v.b + u.b, v.c + u.c, v.d + u.d, v.e + u.e, v.f + u.f, v.g + u.g, v.h + u.h⟩

/-- SHA-256 of a message (FIPS 180-4), as 32 bytes. -/
def sha256 (m : List Byte) : List Byte :=
  let p := shaPad m
  let v := (List.range (p.length / 64)).foldl (fun v i => shaBlock v ((p.drop (64 * i)).take 64)) shaInit
  [v.a, v.b, v.c, v.d, v.e, v.f, v.g, v.h].flatMap fun (x : W32) => bigEndian 4 x.toNat

/-- A digest as a 256-bit number, the first byte highest. -/
def digestOf (m : List Byte) : BitVec 256 := BitVec.ofNat 256 (ofBigEndian (sha256 m))

/-! LMS (RFC 8554). -/

/-- The typecodes of LMOTS_SHA256_N32_W8 and of LMS_SHA256_M32_H10 and H20. -/
def lmotsW8 : Nat := 4
def lmsH10 : Nat := 6
def lmsH20 : Nat := 8

/-- The 34 digits of a digest under W8: its bytes, and the two bytes of its checksum. -/
def lmotsDigits (q : List Byte) : List Nat :=
  q.map (·.toNat) ++ (bigEndian 2 (q.foldl (fun n b => n + (255 - b.toNat)) 0)).map (·.toNat)

/-- A chain of the one-time signature, from digit `a` to digit `b`. -/
def lmotsChain (idq : List Byte) (i a b : Nat) (y : List Byte) : List Byte :=
  (List.range (b - a)).foldl (fun t j => sha256 (idq ++ bigEndian 2 i ++ bigEndian 1 (a + j) ++ t)) y

/-- The candidate one-time public key of a signature over a message (RFC 8554, algorithm 4b). -/
def lmotsKey (idq : List Byte) (sig msg : List Byte) : List Byte :=
  let q := sha256 (idq ++ bigEndian 2 0x8181 ++ (sig.drop 4).take 32 ++ msg)
  let z := (lmotsDigits q).zipIdx.flatMap fun (a, i) => lmotsChain idq i a 255 ((sig.drop (36 + 32 * i)).take 32)
  sha256 (idq ++ bigEndian 2 0x8080 ++ z)

/-- The root reached from a leaf by its path, given the node and its place in the tree. -/
def lmsRoot (id : List Byte) : Nat → Nat → List Byte → List Byte → List Byte
  | 0, _, _, t => t
  | h + 1, node, path, t =>
    let up := id ++ bigEndian 4 (node / 2) ++ bigEndian 2 0x8383
    let sib := path.take 32
    lmsRoot id h (node / 2) (path.drop 32) (sha256 (if node % 2 = 1 then up ++ sib ++ t else up ++ t ++ sib))

/-- Whether a signature of a tree of height `h` verifies under a public key (RFC 8554, algorithm 6). -/
def lmsVerify (typecode h : Nat) (key sig msg : List Byte) : Bool :=
  let id := (key.drop 8).take 16
  let q := ofBigEndian (sig.take 4)
  let ots := (sig.drop 4).take 1124
  let idq := id ++ bigEndian 4 q
  key.length == 56 && ofBigEndian (key.take 4) == typecode && ofBigEndian ((key.drop 4).take 4) == lmotsW8
    && sig.length == 4 + 1124 + 4 + 32 * h && q < 2 ^ h && ofBigEndian (ots.take 4) == lmotsW8
    && ofBigEndian ((sig.drop 1128).take 4) == typecode
    && lmsRoot id h (2 ^ h + q) (sig.drop 1132)
        (sha256 (id ++ bigEndian 4 (2 ^ h + q) ++ bigEndian 2 0x8282 ++ lmotsKey idq ots msg)) == key.drop 24

/-! The attestation key: HSS of two levels (R433, RFC 8554). The trees are numbered 0 for the root, and `q + 1` for the one that
the root's leaf `q` signs. -/

/-- A tree's identifier, and the identifier with a leaf. -/
def treeBytes (uds : BitVec 256) (tree : Nat) : List Byte := bigEndian 16 (Config.treeId uds tree).toNat
def leafBytes (uds : BitVec 256) (tree q : Nat) : List Byte := treeBytes uds tree ++ bigEndian 4 q

/-- A chain of a leaf from its secret to digit `b`. -/
def chainTo (uds : BitVec 256) (tree q i b : Nat) : List Byte :=
  lmotsChain (leafBytes uds tree q) i 0 b (bigEndian 32 (Config.chainSecret uds tree q i).toNat)

/-- The one-time public key of a leaf, and its signature of a message (RFC 8554, algorithms 1 and 3). -/
def lmotsPublic (uds : BitVec 256) (tree q : Nat) : List Byte :=
  sha256 (leafBytes uds tree q ++ bigEndian 2 0x8080 ++ (List.range 34).flatMap fun i => chainTo uds tree q i 255)

def lmotsSign (uds : BitVec 256) (tree q : Nat) (msg : List Byte) : List Byte :=
  let c := bigEndian 32 (Config.randomizer uds tree q).toNat
  let d := sha256 (leafBytes uds tree q ++ bigEndian 2 0x8181 ++ c ++ msg)
  bigEndian 4 lmotsW8 ++ c ++ (lmotsDigits d).zipIdx.flatMap fun (a, i) => chainTo uds tree q i a

/-- A node of a tree of height 10, by its height above the leaves and its number. -/
def treeNode (uds : BitVec 256) (tree : Nat) : Nat → Nat → List Byte
  | 0, r => sha256 (treeBytes uds tree ++ bigEndian 4 r ++ bigEndian 2 0x8282 ++ lmotsPublic uds tree (r - 1024))
  | h + 1, r => sha256 (treeBytes uds tree ++ bigEndian 4 r ++ bigEndian 2 0x8383 ++ treeNode uds tree h (2 * r)
      ++ treeNode uds tree h (2 * r + 1))

/-- A tree's public key, and its signature of a message by a leaf: LMS_SHA256_M32_H10 with LMOTS_SHA256_N32_W8. -/
def lmsPublic (uds : BitVec 256) (tree : Nat) : List Byte :=
  bigEndian 4 lmsH10 ++ bigEndian 4 lmotsW8 ++ treeBytes uds tree ++ treeNode uds tree 10 1

def lmsSign (uds : BitVec 256) (tree q : Nat) (msg : List Byte) : List Byte :=
  let sib := fun (i : Nat) => let n := (1024 + q) / 2 ^ i; if n % 2 = 0 then n + 1 else n - 1
  bigEndian 4 q ++ lmotsSign uds tree q msg ++ bigEndian 4 lmsH10 ++ (List.range 10).flatMap fun i => treeNode uds tree i (sib i)

/-- The public key that ATTKEYH names, and the signature of a message by one of the 2^20 leaves (R433). -/
def hssPublic (uds : BitVec 256) : List Byte := bigEndian 4 2 ++ lmsPublic uds 0

def hssSign (uds : BitVec 256) (leaf : Nat) (msg : List Byte) : List Byte :=
  let below := leaf / 1024 + 1
  bigEndian 4 1 ++ lmsSign uds 0 (leaf / 1024) (lmsPublic uds below) ++ lmsPublic uds below ++ lmsSign uds below (leaf % 1024) msg

end Sys2Proof.Machine
end

