-- ==== Sys2Proof/Machine/Bringup.lean ====
section
/-!
DEFINITION. Resets and the wipe (R427 to R430), Uboskir with its fuses, images, lifecycle and tokens (R354, R431 to
R435), SPDM (R415), throttling and sensors (R437, R438).
-/
namespace Sys2Proof.Machine

/-! Uboskir. -/

/-- The lifecycle states of R431. -/
inductive Life where
  | blank | provisioned | deployed | debug | returned | retired
  deriving DecidableEq, Repr

/-- The lifecycle state of the fuses (R431): the highest bit set, with DEBUG while DBGCNT is above RLKCNT. -/
def lifeOf (f : Fuses) : Life :=
  if f.life.getLsbD 3 then .retired
  else if f.life.getLsbD 2 then .returned
  else if f.life.getLsbD 1 then (if f.rlkcnt < f.dbgcnt then .debug else .deployed)
  else if f.life.getLsbD 0 then .provisioned
  else .blank

/-- A lifecycle state as a number. -/
def lifeCode : Life → Nat
  | .blank => 0
  | .provisioned => 1
  | .deployed => 2
  | .debug => 3
  | .returned => 4
  | .retired => 5

/-- A digest as words. -/
def digestWords (d : BitVec 256) : List Word := (List.range 4).map fun i => d.extractLsb' (64 * i) 64

/-- A signature of the firmware's kind (R432): the LMS key hashes to FWKEYH, and its signature, of type
LMS_SHA256_M32_H20, verifies over the message. -/
def signedOk (f : Fuses) (key sig msg : List Byte) : Bool :=
  key.length == 56 && digestOf key == f.fwkeyh && lmsVerify lmsH20 20 key sig msg

/-- An image is accepted (R432): its key, its signature over its digest, and its version. -/
def imageOk (f : Fuses) (i : SignedImage) : Bool :=
  f.fwver ≤ i.version && signedOk f i.pubKey i.sig (sha256 i.data)

/-- FWVER raised at an accepted image's wish (R432); it is a thermometer of 128 fuses. -/
def raiseVer (f : Fuses) (i : SignedImage) : Fuses := if i.raise then { f with fwver := min 128 (max f.fwver i.version) } else f

/-- The actions a token may name (log 7). -/
def actDeploy : Nat := 1
def actUnlock : Nat := 2
def actRelock : Nat := 3
def actReturn : Nat := 4
def actRetire : Nat := 5
def actSession : Nat := 6

/-- A token is good (R435): for this device, the fresh nonce and the action, signed under the firmware key. -/
def State.tokenOk (s : State) (mod : Nat) (t : Token) (action : Nat) : Bool :=
  let m := s.module mod
  t.identity == Config.identity mod && t.nonce == m.nonce && t.action == action
    && signedOk m.fuses t.pubKey t.sig (Config.tokenBytes t.identity t.nonce t.action)

/-- A used nonce is replaced by a fresh one (R435). -/
def State.freshNonce (s : State) (mod : Nat) : State :=
  (s.mapModule mod fun m => { m with nonce := Config.nonce s.free }).bump

def State.life (s : State) (mod : Nat) : Life := lifeOf (s.module mod).fuses

/-! The wipe. -/

/-- The site whose own agents take a step on the agenda, of those that do no other agent's work. -/
def State.ownSite (s : State) : Event → Option Nat
  | .csrSpread k _ _ => some (siteOf k)
  | .roomNotice k _ _ => some (siteOf k)
  | .roomReservationLapse k _ => some (siteOf k)
  | .timedRetry k _ => some (siteOf k)
  | .chainAck k _ => some (siteOf k)
  | .dispatch k => some (siteOf k)
  | .promotion k _ => some (siteOf k)
  | .replyDeposit r => some (siteOf r.core)
  | .budget k _ => some (siteOf k)
  | .parkResume k _ => some (siteOf k)
  | .idleWake k _ => some (siteOf k)
  | .niTransmit k _ => some (siteOf k)
  | .storeAck k _ => some (siteOf k)
  | .combineSend k _ => some (siteOf k)
  | .remoteCopyExpiry k _ => some (siteOf k)
  | .abortNotice k _ _ => some (siteOf k)
  | .txInstall k _ => some (siteOf k)
  | .versionedEviction k _ _ => some (siteOf k)
  | .ticketBeacon st => some st
  | .ticketAdvance st _ => some st
  | .rowRead h _ => some (agentSite h)
  | .leaseExpiry a => some (paSite a)
  | .bankDrainDone b => some (bankSite b)
  | .bankZeroDone b => some (bankSite b)
  | .stealResponse k _ _ _ => some (siteOf k)
  | .flagNotice k _ => some (siteOf k)
  | .clearNotice k _ => some (siteOf k)
  | .nodeStart st => some st
  | .nodeComplete st _ => some st
  | .waitPoll st _ => some st
  | .pageWalk a _ _ => some (s.agentPlace a).1
  | .firstTouch a _ _ => some (s.agentPlace a).1
  | .auditAppend k _ _ _ _ _ => some (siteOf k)
  | .porderRouterCycle st => some st
  | .reassemblyDeliver st _ _ => some st
  | .ageouts st _ => some st
  | .injectionStarvation st _ => some st
  | .linkReplay l => some (l / 6)
  | .linkDead l => some (l / 6)
  | .windowCloseTimer a _ => some (agentSite a)
  | .eccError u _ => some (unitSite u)
  | .coreLoss k => some (siteOf k)
  | .spareTakeover k => some (siteOf k)
  | .regrelComplete k _ _ => some (siteOf k)
  | .capsetWrite st _ => some st
  | _ => none

/-- The module whose agents take a step on the agenda; none for one that no module owns. -/
def State.eventMod (s : State) (e : Event) : Option Nat :=
  match s.ownSite e, e with
  | some st, _ => some (st / 24)
  | none, e => match e with
  | .messageAccept m => some (modOf m.dst)
  | .refuse m _ _ => some (modOf m.src)
  | .flushReturn k _ _ => some (modOf k)
  | .storePerform k _ _ => some (modOf k)
  | .remoteRegionAccess k _ _ => some (modOf k)
  | .lineFill k _ _ => some (modOf k)
  | .lrwEnqueue k _ _ => some (modOf k)
  | .scHome k _ _ => some (modOf k)
  | .homeAmo r => some (modOf r.core)
  | .niAtomic _ r _ => some (modOf r.core)
  | .putIncrement k _ _ _ => some (modOf k)
  | .forwardDone h _ => some (agentSite h / 24)
  | .txArbitration k _ _ _ => some (modOf k)
  | .txLock k _ _ => some (modOf k)
  | .hodRequest r => some (s.part r.part).mod
  | .hodCompletion r _ => some (s.part r.part).mod
  | .hgathOwner b => some (s.part b.req.part).mod
  | .hgathCombine b => some (s.part b.req.part).mod
  | .hscatOwner b => some (s.part b.req.part).mod
  | .stealRequest _ k _ _ => some (modOf k)
  | .mailboxPost p => some (modOf p.core)
  | .barrierArrival a => some (modOf a.core)
  | .gridComplete g => (Sparse.find s.grids g).map fun g => (s.part g.part).mod
  | .postGo m _ => some m
  | .teamPlace p => some (s.part p).mod
  | .swapOut u => (Sparse.find s.teams u).map fun t => (s.part t.part).mod
  | .swapIn u => (Sparse.find s.teams u).map fun t => (s.part t.part).mod
  | .maildropAppend u _ => (Sparse.find s.teams u).map fun t => (s.part t.part).mod
  | .maildropClose u => (Sparse.find s.teams u).map fun t => (s.part t.part).mod
  | .slicePreemption p => some (s.part p).mod
  | .tlbinvCompletion p _ => some (s.part p).mod
  | .reroute a _ _ => some (agentSite a / 24)
  | .skip o _ _ => some (agentSite o / 24)
  | .close o _ _ => some (agentSite o / 24)
  | .siteLoss st => some (st / 24)
  | .siteReset st => some (st / 24)
  | .hostRead p _ _ => some p.mod
  | .hostWrite p _ _ => some p.mod
  | .checkpointFull m => some m
  | .checkpointIncr m => some m
  | .restore m => some m
  | .checkpointComplete m => some m
  | .fltdoneRetry h => some (h / 2 ^ 32)
  | .fltdoneFail h => some (h / 2 ^ 32)
  | .attestationReport m _ _ => some m
  | _ => none

/-- Storage of some sites wiped (R429): their DRAM and cluster SRAM, with tags, poison and altered bits. -/
def State.wipeStorage (s : State) (mine : Nat → Bool) : State :=
  let gone := fun (a : Nat) => if a < 2 ^ 45 then mine (paSite a) else sramBase ≤ a && a < teamStore && mine (bankSite (bankOf a))
  let s := (s.forgetCode gone).forgetLines (fun _ => true) fun l => gone (l * 128)
  { s with
    mem := s.mem.filter fun c => !gone c.1
    tags := s.tags.filter fun g => !gone (g * 16)
    poison := s.poison.filter fun l => !gone (l * 128)
    tileDirs := s.tileDirs.filter fun (t, _) => !gone (t * 256)
    resv := s.resv.filter fun (a, _) => !gone a
    flips := s.flips.filter fun (u, _) => !mine (unitSite u)
    banks := s.banks.filter fun (b, _) => !mine (bankSite b) }

/-- What a site keeps through a reset: the spares its cores and DRAM rows have used, and the numbering of its nodes. -/
def keptSite (t : Site) : Site :=
  { fab := t.fab, sparesUsed := t.sparesUsed, spareRows := t.spareRows, nodeNext := t.nodeNext, sensors := t.sensors }

/-- What a core keeps: that it is lost for good. -/
def keptCore (c : Core) : Core := { lost := if c.lost = 2 then 2 else 0, copyStart := c.copyStart }

/-- The cores and sites of some sites wiped (R428, R429). Windows that agents elsewhere hold for theirs go too. -/
def State.wipeSites (s : State) (mine : Nat → Bool) (site : Site → Site) : State :=
  let win := fun (ws : List SeqWindow) => ws.filter fun w => !mine (agentSite w.src)
  let fl := fun (fs : List Flit) => fs.filter fun f => !mine (agentSite f.src) && !mine f.toSite
  let other := fun (t : Site) =>
    { t with windows := Sparse.mapVals win t.windows, flits := fl t.flits, inject := fl t.inject, reasm := fl t.reasm
             mesh := Sparse.mapVals (fun ms => ms.filter fun m => !mine (agentSite m.flit.src) && !mine m.flit.toSite) t.mesh }
  { s with
    born := (s.sites.keys.filter mine).foldl (fun m n => Sparse.set m n s.ticks) s.born
    cores := s.cores.map fun (k, c) => (k, if mine (siteOf k) then keptCore c else c)
    sites := s.sites.map fun (n, t) => (n, if mine n then site t else other t) }

/-- The teams and grids of a module go, with the stores of their code and tables. -/
def State.wipeTeams (s : State) (mod : Nat) : State :=
  let gone := s.teams.filter fun (_, t) => (s.part t.part).mod == mod
  { s with
    teams := s.teams.filter fun (_, t) => (s.part t.part).mod != mod
    grids := s.grids.filter fun (_, g) => (s.part g.part).mod != mod
    windows := s.windows.filter fun w => (s.part w.part).mod != mod
    regions := s.regions.filter fun (j, _) => (s.part (j / 2 ^ 32)).mod != mod
    mem := s.mem.filter fun c => !storeOf gone c.1
    tags := s.tags.filter fun g => !storeOf gone (g * 16) }.forgetCode (storeOf gone)

/-- A partition as firmware creates it again (R361, log 3): its rectangle, seal root, root table and runtime image; INJEN in
lifecycle DEBUG (R434). -/
def freshPart (n : Nat) (p : Partition) (injen : Bool) : Partition :=
  { mod := p.mod, sx0 := p.sx0, sy0 := p.sy0, w := p.w, h := p.h, sealLo := p.sealLo, sealHi := p.sealHi, runtime := p.runtime
    troot := rootWord n, injen }

/-- A port after a reset: as it trained, its registers at their reset values (R416). -/
def freshPort (p : Port) : Port :=
  { up := p.up, width := p.width, rate := p.rate, cxlMajor := p.cxlMajor, cxlMinor := p.cxlMinor, features := p.features }

/-- Key slots as firmware loads them: each assigned slot with a key pair that Uboskir generates (R362). -/
def freshKeys (slots : Sparse Nat) (free : Nat) : Sparse (Nat × BitVec 256 × BitVec 256) :=
  slots.zipIdx.map fun ((n, part), i) => (n, (part, Config.key (free + 2 * i), Config.key (free + 2 * i + 1)))

/-- The teams that firmware places in a partition it creates: the hod team (R354), then an instance of the runtime image on
each site (R352). -/
def State.placeBoot (s : State) (n : Nat) : State :=
  let sites := s.partSites n
  let u := s.teamNext
  let s := { s with teams := Sparse.set s.teams u (hodTeam n (sites.headD 0)), windows := s.windows ++ [hodWindow n u], teamNext := u + 1 }
  sites.foldl (fun s st =>
    let k := ((List.range 1024).map (st * 1024 + ·)).find? fun k => (s.core k).lost == 0
    match k with
    | some k =>
      let u := s.teamNext
      { s with teams := Sparse.set s.teams u (runtimeTeam n (s.part n).runtime k), teamNext := u + 1 }.mapCore k fun c =>
        { c with team := some u }
    | none => s) s

/-- A reset during a checkpoint makes its image invalid (R430). -/
def State.spoilImage (s : State) (mod : Nat) : State :=
  let c := (s.module mod).ck
  let spoil := fun (i : CkImage) => { i with valid := false }
  match Sparse.find s.ckImages (ckKey mod c.base) with
  | some i => if c.busy && c.op < 2 then { s with ckImages := Sparse.set s.ckImages (ckKey mod c.base) (spoil i) } else s
  | none => s

/-- Requests of other modules to a module's agents are cancelled (R409). -/
def State.loseModule (s : State) (mod : Nat) : State :=
  (List.range 24).foldl (fun s i => s.loseRequests (mod * 24 + i)) s

/-- The sequence of R428: everything is wiped, every key slot zeroed with it; where firmware is verified it loads the slots with
fresh keys, creates the partitions again and places their first teams. The steps pass in one (log 29). A RETIRED module does not
come into service (R434). -/
def State.resetModule (s : State) (mod : Nat) : State :=
  let m := s.module mod
  let s := (s.spoilImage mod).loseModule mod
  let other := fun (e : Event) => s.eventMod e != some mod
  let s := { s with agenda := s.agenda.filter other, nextCycle := s.nextCycle.filter other }
  let mine := fun (st : Nat) => st / 24 == mod
  let s := (s.wipeTeams mod).wipeStorage mine
  let s := ((List.range 24).foldl (fun s i => s.mapSite (mod * 24 + i) id) s).wipeSites mine keptSite
  let good := imageOk m.fuses m.flash
  let debug := lifeOf m.fuses == .debug
  let parts := s.parts.map fun (n, p) => (n, if p.mod = mod then freshPart n p debug else p)
  let m' : Module :=
    { resetStep := if good && lifeOf m.fuses != .retired then 7 else 5, domain := m.domain, ports := Sparse.mapVals freshPort m.ports
      slots := m.slots, keys := if good then freshKeys m.slots s.free else []
      fuses := if good then raiseVer m.fuses m.flash else m.fuses
      nonce := m.nonce, leaf := m.leaf, exhausted := m.exhausted, hodImage := m.hodImage
      fwImage := if good then digestOf m.flash.data else 0, flash := m.flash }
  let s := { s with parts, mods := Sparse.set s.mods mod m', free := s.free + 2 * m.slots.length }
  if good then (parts.filter fun (_, p) => p.mod == mod).foldl (fun s (n, _) => s.placeBoot n) s else s

/-- MODULE_RESET (R427, R428). -/
def execModuleReset (mod : Nat) (s : State) : Host.Outcome State Fault Refusal :=
  .next (if (s.module mod).powered then s.resetModule mod else s)

/-- POWER_ON (R427, R428). -/
def execPowerOn (mod : Nat) (s : State) : Host.Outcome State Fault Refusal :=
  .next ((s.mapModule mod fun m => { m with powered := true }).resetModule mod)

/-- POWER_LOSS (R430): the module stands still until the next POWER-ON, which wipes it. -/
def execPowerLoss (mod : Nat) (s : State) : Host.Outcome State Fault Refusal :=
  let s := s.spoilImage mod
  .next (s.mapModule mod fun m => { m with powered := false, resetStep := 0, ports := [] })

/-- SITE_RESET (R427, R429): after an evacuation or a loss, one site is wiped, with what its own agents still had to do; it stays out
of placement. A partition of
that one site is left with its registers at their reset values (R6), and a session on it ends (R435). -/
def execSiteReset (site : Nat) (s : State) : Host.Outcome State Fault Refusal :=
  let t := s.site site
  if t.live && t.evacuating.isNone then .next s
  else
    let lost := fun (s : State) => match execSiteLoss site s with
      | .next s => s
      | _ => s
    let s := lost s
    let other := fun (e : Event) => s.ownSite e != some site
    let s := { s with agenda := s.agenda.filter other, nextCycle := s.nextCycle.filter other }
    let mine := fun (st : Nat) => st == site
    let links := (s.site site).links
    let s := (s.wipeStorage mine).wipeSites mine fun t => { keptSite t with rejoin := true, keyed := false, links }
    let whole := s.parts.filter fun (n, _) => s.partSites n == [site]
    let s := whole.foldl (fun s (n, _) => s.mapPart n fun p =>
      { freshPart n p (s.life (site / 24) == .debug) with gridNext := p.gridNext, queue := p.queue }) s
    .next (s.mapModule (site / 24) fun m => { m with sessions := m.sessions.filter fun n => !whole.any fun (j, _) => j == n })

/-- SITE_REJOIN (R427): firmware adds the site to a partition again. -/
def execSiteRejoin (site part : Nat) (s : State) : Host.Outcome State Fault Refusal :=
  if !(s.site site).rejoin || !(s.partSites part).contains site then .next s
  else .next ((s.mapSite site fun t => { t with rejoin := false, keyed := true }).pushOnce (.teamPlace part))

/-! Images and lifecycle. -/

/-- The hod teams of a module. -/
def State.hodTeams (s : State) (mod : Nat) : List Nat :=
  (s.teams.filter fun (_, t) => (s.part t.part).mod == mod && (s.imageOf t).hod).map (·.1)

/-- HOD_IMAGE_UPDATE (R354, R432): an accepted image takes the running one's place, in the hod teams' code too; a rejected one
leaves it, and the failure is reported to the host. -/
def execHodImageUpdate (mod : Nat) (img : SignedImage) (s : State) : Host.Outcome State Fault Refusal :=
  .next (if imageOk (s.module mod).fuses img then
      let s := (s.hodTeams mod).foldl (fun s u =>
        let store := teamStore + u * 2 ^ 32
        (s.clearRange store (2 ^ 28)).load store (img.data.take (2 ^ 28))) s
      s.mapModule mod fun m => { m with hodImage := digestOf img.data, fuses := raiseVer m.fuses img, hodRejected := false }
    else s.mapModule mod fun m => { m with hodRejected := true })

/-- A lifecycle change (R434): fuses are burnt and a MODULE reset follows. -/
def State.burn (s : State) (mod : Nat) (f : Fuses → Fuses) : State :=
  (s.mapModule mod fun m => { m with fuses := f m.fuses }).resetModule mod

/-- PROVISIONED (R434): factory programming of a BLANK device. -/
def execProvisioned (mod : Nat) (fwkey attkey uds : BitVec 256) (s : State) : Host.Outcome State Fault Refusal :=
  .next (if s.life mod = .blank then s.burn mod fun f =>
      { f with fwkeyh := fwkey, attkeyh := attkey, uds, life := f.life ||| 1 }
    else s)

/-- DEPLOYMENT_TOKEN (R434). -/
def execDeploymentToken (mod : Nat) (t : Token) (s : State) : Host.Outcome State Fault Refusal :=
  .next (if s.life mod = .provisioned ∧ s.tokenOk mod t actDeploy then
      (s.freshNonce mod).burn mod fun f => { f with life := f.life ||| 2 }
    else s)

/-- UNLOCK_TOKEN (R434): one bit of DBGCNT is burnt, of 32. -/
def execUnlockToken (mod : Nat) (t : Token) (s : State) : Host.Outcome State Fault Refusal :=
  .next (if s.life mod = .deployed ∧ (s.module mod).fuses.dbgcnt < 32 ∧ s.tokenOk mod t actUnlock then
      (s.freshNonce mod).burn mod fun f => { f with dbgcnt := f.dbgcnt + 1 }
    else s)

/-- RELOCK_TOKEN (R434). -/
def execRelockToken (mod : Nat) (t : Token) (s : State) : Host.Outcome State Fault Refusal :=
  .next (if s.life mod = .debug ∧ s.tokenOk mod t actRelock then
      (s.freshNonce mod).burn mod fun f => { f with rlkcnt := f.rlkcnt + 1 }
    else s)

/-- RETURN_TOKEN (R434): the attestation leaf counter is exhausted. -/
def execReturnToken (mod : Nat) (t : Token) (s : State) : Host.Outcome State Fault Refusal :=
  .next (if (s.life mod = .deployed ∨ s.life mod = .debug) ∧ s.tokenOk mod t actReturn then
      ((s.freshNonce mod).mapModule mod fun m => { m with exhausted := true }).burn mod fun f => { f with life := f.life ||| 4 }
    else s)

/-- RETIRE_TOKEN (R434). -/
def execRetireToken (mod : Nat) (t : Token) (s : State) : Host.Outcome State Fault Refusal :=
  .next (if s.life mod = .returned ∧ s.tokenOk mod t actRetire then
      (s.freshNonce mod).burn mod fun f => { f with life := f.life ||| 8 }
    else s)

/-- SESSION (R435): an attested debug session on one partition sets INJEN on its cores. -/
def execSession (mod part : Nat) (t : Token) (s : State) : Host.Outcome State Fault Refusal :=
  .next (if s.life mod = .deployed ∧ (s.part part).mod = mod ∧ (Sparse.find s.parts part).isSome
      ∧ s.tokenOk mod t actSession then
      ((s.freshNonce mod).mapModule mod fun m => { m with sessions := insertNat m.sessions part }).mapPart part fun p =>
        { p with injen := true }
    else s)

/-! SPDM. -/

/-- Response codes of the DOE mailbox, as DSP0274 numbers them (R8, log 30); the IDE key management travels in
vendor-defined responses. -/
def rspError : Nat := 0x7F
def rspVersion : Nat := 0x04
def rspCapabilities : Nat := 0x61
def rspAlgorithms : Nat := 0x63
def rspExchange : Nat := 0x66
def rspFinish : Nat := 0x67
def rspHeartbeat : Nat := 0x68
def rspEnd : Nat := 0x6C
def rspVendor : Nat := 0x7E
def rspKeyManagement : Nat := 0x7E

/-- The response to a request that the state of the session allows, else an error (R415). -/
def spdm (mod port : Nat) (ok : Nat → Bool) (kind : Nat) (words : List Word) (next : Nat → Nat) (s : State) : State :=
  let p := s.port mod port
  if !p.up || !(s.module mod).powered then s
  else if ok p.spdm then s.mapPort mod port fun p => { p with spdm := next p.spdm, response := (kind, words) }
  else s.mapPort mod port fun p => { p with response := (rspError, []) }

/-- GET_VERSION (R415): SPDM 1.2; it begins a connection anew. -/
def execGetVersion (mod port : Nat) (s : State) : Host.Outcome State Fault Refusal :=
  .next (spdm mod port (fun _ => true) rspVersion [0x12] (fun _ => 1) s)

/-- GET_CAPABILITIES (R415). -/
def execGetCapabilities (mod port : Nat) (s : State) : Host.Outcome State Fault Refusal :=
  .next (spdm mod port (· == 1) rspCapabilities [] (fun _ => 2) s)

/-- NEGOTIATE_ALGORITHMS (R415): SHA-256 and AES-256-GCM, and no others. -/
def execNegotiateAlgorithms (mod port : Nat) (sha256 aes256gcm : Bool) (s : State) : Host.Outcome State Fault Refusal :=
  .next (spdm mod port (fun n => n == 2 && sha256 && aes256gcm) rspAlgorithms [] (fun _ => 3) s)

/-- PSK_EXCHANGE (R415). -/
def execPskExchange (mod port : Nat) (session : Nat) (s : State) : Host.Outcome State Fault Refusal :=
  let opens := (s.port mod port).spdm == 3
  let s := spdm mod port (· == 3) rspExchange [BitVec.ofNat 64 session] (fun _ => 4) s
  .next (if opens then s.mapPort mod port fun p => { p with session } else s)

/-- PSK_FINISH (R415): the proof shows the pre-shared key. -/
def execPskFinish (mod port : Nat) (proof : Word) (s : State) : Host.Outcome State Fault Refusal :=
  let good := Config.finishValid (s.module mod).fuses.uds proof
  .next (spdm mod port (fun n => n == 4 && good) rspFinish [] (fun _ => 5) s)

/-- HEARTBEAT (R415). -/
def execHeartbeat (mod port : Nat) (s : State) : Host.Outcome State Fault Refusal :=
  .next (spdm mod port (· == 5) rspHeartbeat [] id s)

/-- END_SESSION (R415). -/
def execEndSession (mod port : Nat) (s : State) : Host.Outcome State Fault Refusal :=
  .next (spdm mod port (· == 5) rspEnd [] (fun _ => 3) s)

/-- The words of an attestation report that are signed (R433); their order is the model's (log 7). -/
def State.reportBody (s : State) (mod : Nat) (nonce : Word) : List Word :=
  let m := s.module mod
  [nonce, BitVec.ofNat 64 (lifeCode (lifeOf m.fuses)), BitVec.ofNat 64 m.fuses.fwver, BitVec.ofNat 64 m.fuses.dbgcnt,
   BitVec.ofNat 64 m.fuses.rlkcnt] ++ digestWords m.fwImage ++ digestWords m.hodImage ++ m.sessions.map (BitVec.ofNat 64)

/-- Bytes as words, the last filled up with zeros. -/
def wordsOf (bs : List Byte) : List Word :=
  (List.range ((bs.length + 7) / 8)).map fun i => BitVec.ofNat 64 (ofBytes ((bs.drop (8 * i)).take 8))

/-- ATTESTATION_REPORT (R433): the report and its HSS signature; the leaf counter advances before the signature, and once it is
exhausted reports are refused. -/
def execAttestationReport (mod port : Nat) (nonce : Word) (s : State) : Host.Outcome State Fault Refusal :=
  let m := s.module mod
  if (s.port mod port).spdm ≠ 5 ∨ m.exhausted ∨ 2 ^ 20 ≤ m.leaf then
    .next (spdm mod port (fun _ => false) rspError [] id s)
  else
    let s := s.mapModule mod fun m => { m with leaf := m.leaf + 1 }
    let body := s.reportBody mod nonce
    let sig := hssSign m.fuses.uds m.leaf (body.flatMap fun w => bytesOf 8 w.toNat)
    .next (spdm mod port (· == 5) rspVendor (body ++ wordsOf sig) id s)

/-- VENDOR_DEFINED_REQUEST (R415, R428, R433, R435): 0 an attestation report for the nonce `arg`, 1 Uboskir's status, 2
the nonce a token must name (log 30). -/
def execVendorDefinedRequest (mod port kind : Nat) (arg : Word) (s : State) : Host.Outcome State Fault Refusal :=
  let m := s.module mod
  .next (match kind with
    | 0 => if (s.port mod port).spdm = 5 then s.push (.attestationReport mod port arg)
           else spdm mod port (fun _ => false) rspError [] id s
    | 1 => spdm mod port (· == 5) rspVendor
        [BitVec.ofNat 64 m.resetStep, BitVec.ofNat 64 (lifeCode (lifeOf m.fuses))] id s
    | 2 => spdm mod port (· == 5) rspVendor [m.nonce] id s
    | _ => spdm mod port (fun _ => false) rspError [] id s)

/-- CXL_IDE_KEY_MANAGEMENT (R415): within a session Uboskir sets the IDE keys. -/
def execCxlIdeKeyManagement (mod port : Nat) (key : BitVec 256) (s : State) : Host.Outcome State Fault Refusal :=
  let open_ := (s.port mod port).spdm == 5
  let s := spdm mod port (· == 5) rspKeyManagement [] id s
  .next (if open_ then s.mapPort mod port fun p => { p with ideKey := some key } else s)

/-! Power and sensors. -/

/-- Over a limit of R437. -/
def overLimit (r : Sensors) : Bool := 700 < r.power || 95 ≤ r.tcomp

/-- SENSOR_UPDATE (R438, R437): new readings; a change of side begins the throttle's count anew, and 105 °C shuts the
site down. -/
def execSensorUpdate (site : Nat) (r : Sensors) (s : State) : Host.Outcome State Fault Refusal :=
  let t := s.site site
  let s := s.mapSite site fun t =>
    { t with sensors := r, levelSince := if overLimit r = overLimit t.sensors then t.levelSince else t.fab }
  .next (if 105 ≤ r.tcomp && t.live then s.push (.thermalShutdown site) else s)

/-- THROTTLE_RAISE (R437): one level every 2^20 fabric cycles over a limit. -/
def execThrottleRaise (site : Nat) (s : State) : Host.Outcome State Fault Refusal :=
  let t := s.site site
  .next (if overLimit t.sensors ∧ t.level < 3 ∧ t.levelSince + 2 ^ 20 ≤ t.fab then
      s.mapSite site fun t => { t with level := t.level + 1, levelSince := t.fab }
    else s)

/-- THROTTLE_LOWER (R437): one level after 2^24 fabric cycles below both limits, never below CAPSET. -/
def execThrottleLower (site : Nat) (s : State) : Host.Outcome State Fault Refusal :=
  let t := s.site site
  .next (if !overLimit t.sensors ∧ t.capset < t.level ∧ t.levelSince + 2 ^ 24 ≤ t.fab then
      s.mapSite site fun t => { t with level := t.level - 1, levelSince := t.fab }
    else s)

/-- THERMAL_SHUTDOWN (R437): at 105 °C the site shuts down and reports FATAL (R411). -/
def execThermalShutdown (site : Nat) (s : State) : Host.Outcome State Fault Refusal :=
  .next (if 105 ≤ (s.site site).sensors.tcomp then s.push (.siteLoss site) else s)

/-- CAPSET_WRITE (R438): MINLEVEL, to which the level rises at once. -/
def execCapsetWrite (site : Nat) (v : Word) (s : State) : Host.Outcome State Fault Refusal :=
  let n := (v.extractLsb' 0 2).toNat
  .next (s.mapSite site fun t => { t with capset := n, level := max t.level n })

end Sys2Proof.Machine
end

