-- ==== Sys2Proof/Machine/Agenda.lean ====
section
/-!
DEFINITION. The machine's own steps as they stand on the agenda, each with the meaning `exec` gives the instruction of
the same name.
-/
namespace Sys2Proof.Machine

/-- A step of the machine's own is taken. -/
def runEvent (e : Event) (s : State) : Host.Outcome State Fault Refusal :=
  match e with
  | .srseedWrite v => Sys2Proof.Machine.execSrseedWrite v s
  | .fltdoneRetry handle => Sys2Proof.Machine.execFltdoneRetry handle s
  | .fltdoneFail handle => Sys2Proof.Machine.execFltdoneFail handle s
  | .mccntRead d => Sys2Proof.Machine.execMccntRead d s
  | .csrSpread core csr v => Sys2Proof.Machine.execCsrSpread core csr v s
  | .registerWrite mod port off v => Sys2Proof.Machine.execRegisterWrite mod port off v s
  | .messageAccept m => Sys2Proof.Machine.execMessageAccept m s
  | .refuse m nolist chain => Sys2Proof.Machine.execRefuse m nolist chain s
  | .roomNotice core target id => Sys2Proof.Machine.execRoomNotice core target id s
  | .roomReservationLapse core id => Sys2Proof.Machine.execRoomReservationLapse core id s
  | .timedRetry core id => Sys2Proof.Machine.execTimedRetry core id s
  | .chainAck core target => Sys2Proof.Machine.execChainAck core target s
  | .dispatch core => Sys2Proof.Machine.execDispatch core s
  | .promotion core id => Sys2Proof.Machine.execPromotion core id s
  | .replyDeposit r => Sys2Proof.Machine.execReplyDeposit r s
  | .budget core ctx => Sys2Proof.Machine.execBudget core ctx s
  | .parkResume core ctx => Sys2Proof.Machine.execParkResume core ctx s
  | .idleWake core ctx => Sys2Proof.Machine.execIdleWake core ctx s
  | .niTransmit core ctx => Sys2Proof.Machine.execNiTransmit core ctx s
  | .storeAck core ctx => Sys2Proof.Machine.execStoreAck core ctx s
  | .flushReturn core ctx mod => Sys2Proof.Machine.execFlushReturn core ctx mod s
  | .combineSend core idx => Sys2Proof.Machine.execCombineSend core idx s
  | .remoteCopyExpiry core line => Sys2Proof.Machine.execRemoteCopyExpiry core line s
  | .storePerform core ctx op => Sys2Proof.Machine.execStorePerform core ctx op s
  | .remoteRegionAccess core ctx op => Sys2Proof.Machine.execRemoteRegionAccess core ctx op s
  | .homeAmo req => Sys2Proof.Machine.execHomeAmo req s
  | .niAtomic owner req seq => Sys2Proof.Machine.execNiAtomic owner req seq s
  | .putIncrement core ctx op req => Sys2Proof.Machine.execPutIncrement core ctx op req s
  | .forwardDone hod highest => Sys2Proof.Machine.execForwardDone hod highest s
  | .txArbitration core ctx tile write => Sys2Proof.Machine.execTxArbitration core ctx tile write s
  | .abortNotice core ctx code => Sys2Proof.Machine.execAbortNotice core ctx code s
  | .txLock core ctx home => Sys2Proof.Machine.execTxLock core ctx home s
  | .txInstall core ctx => Sys2Proof.Machine.execTxInstall core ctx s
  | .versionedEviction core ctx tile => Sys2Proof.Machine.execVersionedEviction core ctx tile s
  | .ticketBeacon site => Sys2Proof.Machine.execTicketBeacon site s
  | .ticketAdvance site counter => Sys2Proof.Machine.execTicketAdvance site counter s
  | .rowRead hod tiles => Sys2Proof.Machine.execRowRead hod tiles s
  | .lrwEnqueue core ctx op => Sys2Proof.Machine.execLrwEnqueue core ctx op s
  | .scHome core ctx op => Sys2Proof.Machine.execScHome core ctx op s
  | .leaseExpiry addr => Sys2Proof.Machine.execLeaseExpiry addr s
  | .bankDrainDone bank => Sys2Proof.Machine.execBankDrainDone bank s
  | .bankZeroDone bank => Sys2Proof.Machine.execBankZeroDone bank s
  | .hodRequest req => Sys2Proof.Machine.execHodRequest req s
  | .hodCompletion req word => Sys2Proof.Machine.execHodCompletion req word s
  | .hgathOwner bag => Sys2Proof.Machine.execHgathOwner bag s
  | .hgathCombine bag => Sys2Proof.Machine.execHgathCombine bag s
  | .hscatOwner bag => Sys2Proof.Machine.execHscatOwner bag s
  | .stealRequest victim thief ctx rest => Sys2Proof.Machine.execStealRequest victim thief ctx rest s
  | .stealResponse thief ctx got rest => Sys2Proof.Machine.execStealResponse thief ctx got rest s
  | .mailboxPost p => Sys2Proof.Machine.execMailboxPost p s
  | .barrierArrival a => Sys2Proof.Machine.execBarrierArrival a s
  | .flagNotice core record => Sys2Proof.Machine.execFlagNotice core record s
  | .clearNotice core record => Sys2Proof.Machine.execClearNotice core record s
  | .nodeStart site => Sys2Proof.Machine.execNodeStart site s
  | .nodeComplete site handle => Sys2Proof.Machine.execNodeComplete site handle s
  | .waitPoll site handle => Sys2Proof.Machine.execWaitPoll site handle s
  | .gridComplete grid => Sys2Proof.Machine.execGridComplete grid s
  | .postGo mod port => Sys2Proof.Machine.execPostGo mod port s
  | .poststatRead mod port => Sys2Proof.Machine.execPoststatRead mod port s
  | .teamPlace part => Sys2Proof.Machine.execTeamPlace part s
  | .swapOut team => Sys2Proof.Machine.execSwapOut team s
  | .swapIn team => Sys2Proof.Machine.execSwapIn team s
  | .maildropAppend team m => Sys2Proof.Machine.execMaildropAppend team m s
  | .maildropClose team => Sys2Proof.Machine.execMaildropClose team s
  | .slicePreemption part => Sys2Proof.Machine.execSlicePreemption part s
  | .relocationRequest team => Sys2Proof.Machine.execRelocationRequest team s
  | .pageWalk agent va acc => Sys2Proof.Machine.execPageWalk agent va acc s
  | .firstTouch agent va acc => Sys2Proof.Machine.execFirstTouch agent va acc s
  | .tlbinvCompletion part id => Sys2Proof.Machine.execTlbinvCompletion part id s
  | .auditAppend core msgid teamid slot epoch word => Sys2Proof.Machine.execAuditAppend core msgid teamid slot epoch word s
  | .ageouts site flit => Sys2Proof.Machine.execAgeouts site flit s
  | .injectionStarvation site plane => Sys2Proof.Machine.execInjectionStarvation site plane s
  | .reassemblyDeliver site src seq => Sys2Proof.Machine.execReassemblyDeliver site src seq s
  | .linkReplay link => Sys2Proof.Machine.execLinkReplay link s
  | .linkDead link => Sys2Proof.Machine.execLinkDead link s
  | .reroute agent owner item => Sys2Proof.Machine.execReroute agent owner item s
  | .skip owner src seq => Sys2Proof.Machine.execSkip owner src seq s
  | .windowCloseTimer agent owner => Sys2Proof.Machine.execWindowCloseTimer agent owner s
  | .close owner src seq => Sys2Proof.Machine.execClose owner src seq s
  | .laneRetire link => Sys2Proof.Machine.execLaneRetire link s
  | .linkTrain link partner domain versions => Sys2Proof.Machine.execLinkTrain link partner domain versions s
  | .eccError u correctable => Sys2Proof.Machine.execEccError u correctable s
  | .scrub site found => Sys2Proof.Machine.execScrub site found s
  | .coreLoss core => Sys2Proof.Machine.execCoreLoss core s
  | .spareTakeover core => Sys2Proof.Machine.execSpareTakeover core s
  | .siteLoss site => Sys2Proof.Machine.execSiteLoss site s
  | .siteEvacuation site => Sys2Proof.Machine.execSiteEvacuation site s
  | .evacuationTimeout site => Sys2Proof.Machine.execEvacuationTimeout site s
  | .debugAttach part => Sys2Proof.Machine.execDebugAttach part s
  | .debugDetach part => Sys2Proof.Machine.execDebugDetach part s
  | .debugResume core ctx => Sys2Proof.Machine.execDebugResume core ctx s
  | .debugStep core ctx => Sys2Proof.Machine.execDebugStep core ctx s
  | .breakTask core ctx => Sys2Proof.Machine.execBreakTask core ctx s
  | .snpinv site half => Sys2Proof.Machine.execSnpinv site half s
  | .snpdata site half => Sys2Proof.Machine.execSnpdata site half s
  | .snpcur site half => Sys2Proof.Machine.execSnpcur site half s
  | .hostRead port hpa len => Sys2Proof.Machine.execHostRead port hpa len s
  | .hostWrite port hpa data => Sys2Proof.Machine.execHostWrite port hpa data s
  | .bisnpResponse site half dirty => Sys2Proof.Machine.execBisnpResponse site half dirty s
  | .checkpointFull mod => Sys2Proof.Machine.execCheckpointFull mod s
  | .checkpointIncr mod => Sys2Proof.Machine.execCheckpointIncr mod s
  | .restore mod => Sys2Proof.Machine.execRestore mod s
  | .checkpointTimeout mod => Sys2Proof.Machine.execCheckpointTimeout mod s
  | .checkpointComplete mod => Sys2Proof.Machine.execCheckpointComplete mod s
  | .powerOn mod => Sys2Proof.Machine.execPowerOn mod s
  | .moduleReset mod => Sys2Proof.Machine.execModuleReset mod s
  | .siteReset site => Sys2Proof.Machine.execSiteReset site s
  | .hodImageUpdate mod img => Sys2Proof.Machine.execHodImageUpdate mod img s
  | .provisioned mod fwkey attkey uds => Sys2Proof.Machine.execProvisioned mod fwkey attkey uds s
  | .deploymentToken mod t => Sys2Proof.Machine.execDeploymentToken mod t s
  | .unlockToken mod t => Sys2Proof.Machine.execUnlockToken mod t s
  | .relockToken mod t => Sys2Proof.Machine.execRelockToken mod t s
  | .returnToken mod t => Sys2Proof.Machine.execReturnToken mod t s
  | .retireToken mod t => Sys2Proof.Machine.execRetireToken mod t s
  | .session mod part t => Sys2Proof.Machine.execSession mod part t s
  | .attestationReport mod port nonce => Sys2Proof.Machine.execAttestationReport mod port nonce s
  | .getVersion mod port => Sys2Proof.Machine.execGetVersion mod port s
  | .getCapabilities mod port => Sys2Proof.Machine.execGetCapabilities mod port s
  | .negotiateAlgorithms mod port sha256 aes256gcm => Sys2Proof.Machine.execNegotiateAlgorithms mod port sha256 aes256gcm s
  | .pskExchange mod port session => Sys2Proof.Machine.execPskExchange mod port session s
  | .pskFinish mod port proof => Sys2Proof.Machine.execPskFinish mod port proof s
  | .heartbeat mod port => Sys2Proof.Machine.execHeartbeat mod port s
  | .endSession mod port => Sys2Proof.Machine.execEndSession mod port s
  | .vendorDefinedRequest mod port kind arg => Sys2Proof.Machine.execVendorDefinedRequest mod port kind arg s
  | .throttleRaise site => Sys2Proof.Machine.execThrottleRaise site s
  | .throttleLower site => Sys2Proof.Machine.execThrottleLower site s
  | .thermalShutdown site => Sys2Proof.Machine.execThermalShutdown site s
  | .sensorUpdate site r => Sys2Proof.Machine.execSensorUpdate site r s
  | .capsetWrite site v => Sys2Proof.Machine.execCapsetWrite site v s
  | .powerLoss mod => Sys2Proof.Machine.execPowerLoss mod s
  | .portLost mod port => Sys2Proof.Machine.execPortLost mod port s
  | .portLinkUp port width rate cxlMajor cxlMinor features => Sys2Proof.Machine.execPortLinkUp port width rate cxlMajor cxlMinor features s
  | .porderRouterCycle site => Sys2Proof.Machine.execPorderRouterCycle site s
  | .hostCacheGrant site half state data => Sys2Proof.Machine.execHostCacheGrant site half state data s
  | .cxlIdeKeyManagement mod port key => Sys2Proof.Machine.execCxlIdeKeyManagement mod port key s
  | .siteRejoin site part => Sys2Proof.Machine.execSiteRejoin site part s
  | .regrelComplete core ctx region => Sys2Proof.Machine.execRegrelComplete core ctx region s
  | .lineFill core ctx op => Sys2Proof.Machine.execLineFill core ctx op s

end Sys2Proof.Machine
end

