-- ==== Sys2Proof/WellFormed.lean ====
section
/-!
DEFINITION. Well-formed instructions: the field values the encoding rules leave legal (R141, R170 to R176).
A word whose fields break one of these checks takes ILLEGAL at decode (R176).
The machine's own steps have no fields to check.
-/
namespace Sys2Proof

/-- Bits of an element type of R173; none for the reserved codes 6, 7 and 15 (R287 gives the widths). -/
def elemWidth (code : Nat) : Option Nat :=
  if code = 5 ∨ code = 14 then some 4
  else if code = 0 ∨ code = 1 ∨ code = 12 ∨ code = 13 then some 8
  else if code = 2 ∨ code = 10 ∨ code = 11 then some 16
  else if code = 3 ∨ code = 9 then some 32
  else if code = 4 ∨ code = 8 then some 64
  else none

/-- R141, R172: operation `op`, variant `v`, and whether the AMO returns its old value. -/
def amoLegal (op v : Nat) (hasRet : Bool) : Bool :=
  let commOp := op ≤ 7 || op == 10
  let statOp := op == 0 || (4 ≤ op && op ≤ 7)
  if v == 4 then false
  else if (1 ≤ v && v ≤ 3) || (9 ≤ v && v ≤ 11) then hasRet
  else if v == 8 || 13 ≤ v then commOp
  else if v == 12 then statOp
  else true

/-- A V-format vector position: v0–v31 or a stream s0–s7 (R175). -/
def posV (x : BitVec 6) : Bool := x.toNat < 40

/-- A V-format position that may not name a stream (R276, R280). -/
def regV (x : BitVec 6) : Bool := x.toNat < 32

/-- A field that names one of eight masks or streams (R171, R291). -/
def eight (x : BitVec 6) : Bool := x.toNat < 8

/-- R287: the conversion is defined for the pair of types, and its part K. -/
def vcvtLegal (dst src part : Nat) : Bool :=
  match elemWidth dst, elemWidth src with
  | some wd, some ws => max wd ws / min wd ws ≤ 4 && part < max wd ws / min wd ws
  | _, _ => false

/-- R290: the types VRED and VSCAN allow. -/
def reduceType (t : Nat) : Bool := t ≤ 4 || (8 ≤ t && t ≤ 11)

/-- R174, R175, R302: the operand fields MDOT allows. -/
def mdotLegal (a b fmt r sat sca scb : Nat) : Bool :=
  let tileA := 8 ≤ a && a ≤ 15
  let pair := fun x => 16 ≤ x && x ≤ 47
  fmt ≤ 11 && a ≤ 47 && (b ≤ 7 || pair b || b == 48)
    && (if tileA then r ≤ 6 && fmt ≠ 6 && fmt ≤ 7 && sca == 0 else r == 0 && sat == 0)
    && (sca == 0 || (2 ≤ fmt && fmt ≤ 6)) && (scb == 0 || (2 ≤ fmt && fmt ≤ 6))
    && (fmt ≠ 6 || (sca == 1 && scb == 1))
    && (sca == 0 || !pair a) && (scb == 0 || !pair b)

/-- The legal field values of an encoded instruction (R176). -/
def Instr.wf : Instr → Bool
  | .fence s => s.toNat ≤ 5
  | .fenceSs s => s.toNat ≤ 5
  | .lda _ _ s z x => s.toNat ≤ 5 && !(z == 3 && x == 1)
  | .stl _ _ s _ => s.toNat ≤ 5
  | .aadd d _ _ v => amoLegal 0 v.toNat (d != 0)
  | .aand d _ _ v => amoLegal 1 v.toNat (d != 0)
  | .aor d _ _ v => amoLegal 2 v.toNat (d != 0)
  | .axor d _ _ v => amoLegal 3 v.toNat (d != 0)
  | .amin d _ _ v => amoLegal 4 v.toNat (d != 0)
  | .amax d _ _ v => amoLegal 5 v.toNat (d != 0)
  | .aminu d _ _ v => amoLegal 6 v.toNat (d != 0)
  | .amaxu d _ _ v => amoLegal 7 v.toNat (d != 0)
  | .aswap d _ _ v => amoLegal 8 v.toNat (d != 0)
  | .acas d _ _ v => amoLegal 9 v.toNat (d != 0)
  | .afadd d _ _ v => amoLegal 10 v.toNat (d != 0)
  | .sbind k _ => eight k
  | .sbindr k _ _ => eight k
  | .sfifoCons k _ => eight k
  | .sfifoProd k _ => eight k
  | .sunbind k => eight k
  | .sadv k => eight k
  | .sstat _ k => eight k
  | .bmov d s n => d != 0 && s != 0 && n != 0 && d != s && d != n && s != n
  | .bfill d p n => d != 0 && p != 0 && n != 0 && d != p && d != n && p != n
  | .waitm d _ => d.toNat % 8 == 0 && 8 ≤ d.toNat && d.toNat ≤ 48
  | .vld d _ _ _ => regV d
  | .vst d _ _ _ => regV d
  | .vlds d _ _ _ _ => regV d
  | .vsts d _ _ _ _ => regV d
  | .vgath d _ b _ _ => regV d && regV b
  | .vscat d _ b _ _ => regV d && regV b
  | .vldbc d _ _ _ => regV d
  | .vadd d a b _ _ => posV d && posV a && posV b
  | .vsub d a b _ _ => posV d && posV a && posV b
  | .vmul d a b _ _ => posV d && posV a && posV b
  | .vmulh d a b _ _ => posV d && posV a && posV b
  | .vshl d a b _ _ => posV d && posV a && posV b
  | .vshr d a b _ _ => posV d && posV a && posV b
  | .vsra d a b _ _ => posV d && posV a && posV b
  | .vand d a b _ => posV d && posV a && posV b
  | .vor d a b _ => posV d && posV a && posV b
  | .vxor d a b _ => posV d && posV a && posV b
  | .vmin d a b _ _ => posV d && posV a && posV b
  | .vmax d a b _ _ => posV d && posV a && posV b
  | .vfadd d a b _ _ => posV d && posV a && posV b
  | .vfsub d a b _ _ => posV d && posV a && posV b
  | .vfmul d a b _ _ => posV d && posV a && posV b
  | .vfma d a b _ _ => regV d && posV a && posV b
  | .vfdiv d a b _ _ => posV d && posV a && posV b
  | .vfsqrt d a _ _ => posV d && posV a
  | .vfmin d a b _ _ => posV d && posV a && posV b
  | .vfmax d a b _ _ => posV d && posV a && posV b
  | .vcvt d a k s _ _ t => posV d && posV a && vcvtLegal t.toNat s.toNat k.toNat
  | .vshuf d a b _ _ => posV d && posV a && posV b
  | .vbcast d _ _ _ => posV d
  | .vextr _ a _ _ => posV a
  | .vins d _ _ _ _ => regV d
  | .vslide d a _ _ _ => posV d && posV a
  | .vred d a o t _ => posV d && posV a && o.toNat ≤ 2 && reduceType t.toNat
  | .vscan d a o t _ => posV d && posV a && o.toNat ≤ 2 && reduceType t.toNat
  | .mand d a b => eight d && eight a && eight b
  | .mor d a b => eight d && eight a && eight b
  | .mxor d a b => eight d && eight a && eight b
  | .mnot d a => eight d && eight a
  | .mpopc _ a => eight a
  | .mfirst _ a => eight a
  | .vcmp c _ a b _ t => posV a && posV b && !(c == 7 && 4 ≤ t.toNat)
  | .vsel d a b _ _ => posV d && posV a && posV b
  | .mdot _ a b f r x y z => mdotLegal a.toNat b.toNat f.toNat r.toNat x.toNat y.toNat z.toNat
  | .mopen _ _ r => r.toNat ≤ 6
  | .mrun _ a b => a.toNat ≤ 47 && (b.toNat ≤ 7 || (16 ≤ b.toNat && b.toNat ≤ 48))
  | .mrd _ p _ => 16 ≤ p.toNat && p.toNat ≤ 47
  | .mwr _ p _ => 16 ≤ p.toNat && p.toNat ≤ 47
  | .msumr _ _ r => r.toNat ≤ 6
  | .msumc _ _ r => r.toNat ≤ 6
  | _ => true

end Sys2Proof
end

