-- ==== Sys2Proof/Decode.lean ====
section
/-!
DEFINITION. Decoding and encoding of the 32-bit instruction words (R166 to R176), from the tables of
spec/08_encoding.md. `decode` is total: a word that is not an instruction gives none, and the step then
takes ILLEGAL (R176). The encoder after it writes the words of the encoded instructions.
-/
namespace Sys2Proof

/-- Field rd of format A, bits 25:20 (R167). -/
def rdA (w : BitVec 32) : BitVec 6 := w.extractLsb' 20 6
/-- Field ra of format A, bits 19:14 (R167). -/
def raA (w : BitVec 32) : BitVec 6 := w.extractLsb' 14 6
/-- Field rb of format A, bits 13:8 (R167). -/
def rbA (w : BitVec 32) : BitVec 6 := w.extractLsb' 8 6
/-- Field fn of format A, bits 7:0 (R167). -/
def fnA (w : BitVec 32) : BitVec 8 := w.extractLsb' 0 8

/-- Field rd of format I, bits 25:20 (R167). -/
def rdI (w : BitVec 32) : BitVec 6 := w.extractLsb' 20 6
/-- Field ra of format I, bits 19:14 (R167). -/
def raI (w : BitVec 32) : BitVec 6 := w.extractLsb' 14 6
/-- Field imm of format I, bits 13:0 (R167). -/
def immI (w : BitVec 32) : BitVec 14 := w.extractLsb' 0 14

/-- Field rt of format M, bits 25:20 (R167). -/
def rtM (w : BitVec 32) : BitVec 6 := w.extractLsb' 20 6
/-- Field rb of format M, bits 19:14 (R167). -/
def rbM (w : BitVec 32) : BitVec 6 := w.extractLsb' 14 6
/-- Field disp of format M, bits 13:4 (R167). -/
def dispM (w : BitVec 32) : BitVec 10 := w.extractLsb' 4 10
/-- Field q of format M, bits 3:0 (R167). -/
def qM (w : BitVec 32) : BitVec 4 := w.extractLsb' 0 4

/-- Field ra of format B, bits 25:20 (R167). -/
def raB (w : BitVec 32) : BitVec 6 := w.extractLsb' 20 6
/-- Field rb of format B, bits 19:14 (R167). -/
def rbB (w : BitVec 32) : BitVec 6 := w.extractLsb' 14 6
/-- Field disp of format B, bits 13:0 (R167). -/
def dispB (w : BitVec 32) : BitVec 14 := w.extractLsb' 0 14

/-- Field rd of format J, bits 25:20 (R167). -/
def rdJ (w : BitVec 32) : BitVec 6 := w.extractLsb' 20 6
/-- Field disp of format J, bits 19:0 (R167). -/
def dispJ (w : BitVec 32) : BitVec 20 := w.extractLsb' 0 20

/-- Field vd of format V, bits 25:20 (R167). -/
def vdV (w : BitVec 32) : BitVec 6 := w.extractLsb' 20 6
/-- Field va of format V, bits 19:14 (R167). -/
def vaV (w : BitVec 32) : BitVec 6 := w.extractLsb' 14 6
/-- Field vb of format V, bits 13:8 (R167). -/
def vbV (w : BitVec 32) : BitVec 6 := w.extractLsb' 8 6
/-- Field mk of format V, bits 7:5 (R167). -/
def mkV (w : BitVec 32) : BitVec 3 := w.extractLsb' 5 3
/-- Field fn of format V, bits 4:0 (R167). -/
def fnV (w : BitVec 32) : BitVec 5 := w.extractLsb' 0 5

/-- Field ad of format X, bits 25:23 (R167). -/
def adX (w : BitVec 32) : BitVec 3 := w.extractLsb' 23 3
/-- Field opA of format X, bits 22:17 (R167). -/
def opAX (w : BitVec 32) : BitVec 6 := w.extractLsb' 17 6
/-- Field opB of format X, bits 16:11 (R167). -/
def opBX (w : BitVec 32) : BitVec 6 := w.extractLsb' 11 6
/-- Field fmt of format X, bits 10:7 (R167). -/
def fmtX (w : BitVec 32) : BitVec 4 := w.extractLsb' 7 4
/-- Field fl of format X, bits 6:0 (R167). -/
def flX (w : BitVec 32) : BitVec 7 := w.extractLsb' 0 7

/-- Field rc of format P, bits 25:20 (R167). -/
def rcP (w : BitVec 32) : BitVec 6 := w.extractLsb' 20 6
/-- Field len of format P, bits 19:16 (R167). -/
def lenP (w : BitVec 32) : BitVec 4 := w.extractLsb' 16 4
/-- Field sd of format P, bits 15:12 (R167). -/
def sdP (w : BitVec 32) : BitVec 4 := w.extractLsb' 12 4
/-- Field sa of format P, bits 11:8 (R167). -/
def saP (w : BitVec 32) : BitVec 4 := w.extractLsb' 8 4
/-- Field sb of format P, bits 7:4 (R167). -/
def sbP (w : BitVec 32) : BitVec 4 := w.extractLsb' 4 4
/-- Field fl of format P, bits 3:0 (R167). -/
def flP (w : BitVec 32) : BitVec 4 := w.extractLsb' 0 4

/-- The major opcode, bits 31:26 (R169). -/
def majorOf (w : BitVec 32) : BitVec 6 := w.extractLsb' 26 6

/-- Major 0x1: ADD, SUB, AND, OR, XOR, ANDN, SLL, SRL, SRA, ROR, MIN, MAX, MINU, MAXU, SEQ, SNE, SLT, SLTU, CLZ, CTZ, POPC, BSWAP. -/
def decode01 (rd : BitVec 6) (ra : BitVec 6) (rb : BitVec 6) (fn : BitVec 8) : Option Instr :=
  if fn = 0x0 then some (.add rd ra rb) else
  if fn = 0x1 then some (.sub rd ra rb) else
  if fn = 0x2 then some (.and rd ra rb) else
  if fn = 0x3 then some (.or rd ra rb) else
  if fn = 0x4 then some (.xor rd ra rb) else
  if fn = 0x5 then some (.andn rd ra rb) else
  if fn = 0x6 then some (.sll rd ra rb) else
  if fn = 0x7 then some (.srl rd ra rb) else
  if fn = 0x8 then some (.sra rd ra rb) else
  if fn = 0x9 then some (.ror rd ra rb) else
  if fn = 0xa then some (.min rd ra rb) else
  if fn = 0xb then some (.max rd ra rb) else
  if fn = 0xc then some (.minu rd ra rb) else
  if fn = 0xd then some (.maxu rd ra rb) else
  if fn = 0xe then some (.seq rd ra rb) else
  if fn = 0xf then some (.sne rd ra rb) else
  if fn = 0x10 then some (.slt rd ra rb) else
  if fn = 0x11 then some (.sltu rd ra rb) else
  if rb = 0x0 ∧ fn = 0x12 then some (.clz rd ra) else
  if rb = 0x0 ∧ fn = 0x13 then some (.ctz rd ra) else
  if rb = 0x0 ∧ fn = 0x14 then some (.popc rd ra) else
  if rb = 0x0 ∧ fn = 0x15 then some (.bswap rd ra) else
  none

/-- Major 0x2: ADDI. -/
def decode02 (rd : BitVec 6) (ra : BitVec 6) (imm : BitVec 14) : Option Instr :=
  some (.addi rd ra imm)

/-- Major 0x3: ANDI. -/
def decode03 (rd : BitVec 6) (ra : BitVec 6) (imm : BitVec 14) : Option Instr :=
  some (.andi rd ra imm)

/-- Major 0x4: ORI. -/
def decode04 (rd : BitVec 6) (ra : BitVec 6) (imm : BitVec 14) : Option Instr :=
  some (.ori rd ra imm)

/-- Major 0x5: XORI. -/
def decode05 (rd : BitVec 6) (ra : BitVec 6) (imm : BitVec 14) : Option Instr :=
  some (.xori rd ra imm)

/-- Major 0x6: SLLI, SRLI, SRAI. -/
def decode06 (rd : BitVec 6) (ra : BitVec 6) (imm : BitVec 14) : Option Instr :=
  if (imm.extractLsb' 6 8) = 0x0 then some (.slli rd ra (imm.extractLsb' 0 6)) else
  if (imm.extractLsb' 6 8) = 0x40 then some (.srli rd ra (imm.extractLsb' 0 6)) else
  if (imm.extractLsb' 6 8) = 0x80 then some (.srai rd ra (imm.extractLsb' 0 6)) else
  none

/-- Major 0x7: SLTI, SLTUI. -/
def decode07 (rd : BitVec 6) (ra : BitVec 6) (imm : BitVec 14) : Option Instr :=
  if (imm.extractLsb' 13 1) = 0x0 then some (.slti rd ra (imm.extractLsb' 0 13)) else
  if (imm.extractLsb' 13 1) = 0x1 then some (.sltui rd ra (imm.extractLsb' 0 13)) else
  none

/-- Major 0x8: MUL, MULH, MULHU, DIV, DIVU, REM, REMU. -/
def decode08 (rd : BitVec 6) (ra : BitVec 6) (rb : BitVec 6) (fn : BitVec 8) : Option Instr :=
  if fn = 0x0 then some (.mul rd ra rb) else
  if fn = 0x1 then some (.mulh rd ra rb) else
  if fn = 0x2 then some (.mulhu rd ra rb) else
  if fn = 0x3 then some (.div rd ra rb) else
  if fn = 0x4 then some (.divu rd ra rb) else
  if fn = 0x5 then some (.rem rd ra rb) else
  if fn = 0x6 then some (.remu rd ra rb) else
  none

/-- Major 0x9: CBOUND, CPERM, CSEAL, CUNSEAL, CINC, CBASE, CLEN, CGPERM, CTAG, CCLR, CSUB. -/
def decode09 (rd : BitVec 6) (ra : BitVec 6) (rb : BitVec 6) (fn : BitVec 8) : Option Instr :=
  if fn = 0x0 then some (.cbound rd ra rb) else
  if fn = 0x1 then some (.cperm rd ra rb) else
  if fn = 0x2 then some (.cseal rd ra rb) else
  if fn = 0x3 then some (.cunseal rd ra rb) else
  if fn = 0x4 then some (.cinc rd ra rb) else
  if rb = 0x0 ∧ fn = 0x5 then some (.cbase rd ra) else
  if rb = 0x0 ∧ fn = 0x6 then some (.clen rd ra) else
  if rb = 0x0 ∧ fn = 0x7 then some (.cgperm rd ra) else
  if rb = 0x0 ∧ fn = 0x8 then some (.ctag rd ra) else
  if rb = 0x0 ∧ fn = 0x9 then some (.cclr rd ra) else
  if fn = 0xa then some (.csub rd ra rb) else
  none

/-- Major 0xa: CINCI, CBOUNDI. -/
def decode0A (rd : BitVec 6) (ra : BitVec 6) (imm : BitVec 14) : Option Instr :=
  if (imm.extractLsb' 13 1) = 0x0 then some (.cinci rd ra (imm.extractLsb' 0 13)) else
  if (imm.extractLsb' 13 1) = 0x1 then some (.cboundi rd ra (imm.extractLsb' 0 13)) else
  none

/-- Major 0xb: TGET, TMRG, TCLR, TWAIT. -/
def decode0B (rd : BitVec 6) (ra : BitVec 6) (rb : BitVec 6) (fn : BitVec 8) : Option Instr :=
  if rb = 0x0 ∧ fn = 0x0 then some (.tget rd ra) else
  if rb = 0x0 ∧ fn = 0x1 then some (.tmrg rd ra) else
  if ra = 0x0 ∧ rb = 0x0 ∧ fn = 0x2 then some (.tclr rd) else
  if rd = 0x0 ∧ rb = 0x0 ∧ fn = 0x3 then some (.twait ra) else
  none

/-- Major 0xc: LDL_D, LDL_W. -/
def decode0C (rd : BitVec 6) (disp : BitVec 20) : Option Instr :=
  if (disp.extractLsb' 19 1) = 0x0 then some (.ldlD rd (disp.extractLsb' 0 19)) else
  if (disp.extractLsb' 19 1) = 0x1 then some (.ldlW rd (disp.extractLsb' 0 19)) else
  none

/-- Major 0xd: JAL. -/
def decode0D (rd : BitVec 6) (disp : BitVec 20) : Option Instr :=
  some (.jal rd disp)

/-- Major 0xe: JALR. -/
def decode0E (rd : BitVec 6) (ra : BitVec 6) (imm : BitVec 14) : Option Instr :=
  some (.jalr rd ra imm)

/-- Major 0x10: BEQ. -/
def decode10 (ra : BitVec 6) (rb : BitVec 6) (disp : BitVec 14) : Option Instr :=
  some (.beq ra rb disp)

/-- Major 0x11: BNE. -/
def decode11 (ra : BitVec 6) (rb : BitVec 6) (disp : BitVec 14) : Option Instr :=
  some (.bne ra rb disp)

/-- Major 0x12: BLT. -/
def decode12 (ra : BitVec 6) (rb : BitVec 6) (disp : BitVec 14) : Option Instr :=
  some (.blt ra rb disp)

/-- Major 0x13: BGE. -/
def decode13 (ra : BitVec 6) (rb : BitVec 6) (disp : BitVec 14) : Option Instr :=
  some (.bge ra rb disp)

/-- Major 0x14: BLTU. -/
def decode14 (ra : BitVec 6) (rb : BitVec 6) (disp : BitVec 14) : Option Instr :=
  some (.bltu ra rb disp)

/-- Major 0x15: BGEU. -/
def decode15 (ra : BitVec 6) (rb : BitVec 6) (disp : BitVec 14) : Option Instr :=
  some (.bgeu ra rb disp)

/-- Major 0x16: REP. -/
def decode16 (rc : BitVec 6) (len : BitVec 4) (sd : BitVec 4) (sa : BitVec 4) (sb : BitVec 4) (fl : BitVec 4) : Option Instr :=
  if fl = 0x0 then some (.rep rc len sd sa sb) else
  none

/-- Major 0x17: END, RELEASE. -/
def decode17 (rd : BitVec 6) (ra : BitVec 6) (rb : BitVec 6) (fn : BitVec 8) : Option Instr :=
  if rd = 0x0 ∧ ra = 0x0 ∧ rb = 0x0 ∧ fn = 0x0 then some .endTask else
  if rd = 0x0 ∧ ra = 0x0 ∧ rb = 0x0 ∧ fn = 0x1 then some (.release) else
  none

/-- Major 0x18: LD_B, LD_BU, LD_H, LD_HU, LD_W, LD_WU, LD_D. -/
def decode18 (rt : BitVec 6) (rb : BitVec 6) (disp : BitVec 10) (q : BitVec 4) : Option Instr :=
  if q = 0x0 then some (.ldB rt rb disp) else
  if q = 0x1 then some (.ldBu rt rb disp) else
  if q = 0x2 then some (.ldH rt rb disp) else
  if q = 0x3 then some (.ldHu rt rb disp) else
  if q = 0x4 then some (.ldW rt rb disp) else
  if q = 0x5 then some (.ldWu rt rb disp) else
  if q = 0x6 then some (.ldD rt rb disp) else
  none

/-- Major 0x19: ST_B, ST_H, ST_W, ST_D. -/
def decode19 (rt : BitVec 6) (rb : BitVec 6) (disp : BitVec 10) (q : BitVec 4) : Option Instr :=
  if q = 0x0 then some (.stB rt rb disp) else
  if q = 0x2 then some (.stH rt rb disp) else
  if q = 0x4 then some (.stW rt rb disp) else
  if q = 0x6 then some (.stD rt rb disp) else
  none

/-- Major 0x1a: LDC. -/
def decode1A (rt : BitVec 6) (rb : BitVec 6) (disp : BitVec 10) (q : BitVec 4) : Option Instr :=
  if q = 0x0 then some (.ldc rt rb disp) else
  none

/-- Major 0x1b: STC. -/
def decode1B (rt : BitVec 6) (rb : BitVec 6) (disp : BitVec 10) (q : BitVec 4) : Option Instr :=
  if q = 0x0 then some (.stc rt rb disp) else
  none

/-- Major 0x1c: LDA, STL. -/
def decode1C (rt : BitVec 6) (rb : BitVec 6) (disp : BitVec 10) (q : BitVec 4) : Option Instr :=
  if (disp.extractLsb' 0 7) = 0x0 ∧ (q.extractLsb' 3 1) = 0x0 then some (.lda rt rb (disp.extractLsb' 7 3) (q.extractLsb' 1 2) (q.extractLsb' 0 1)) else
  if (disp.extractLsb' 0 7) = 0x0 ∧ (q.extractLsb' 3 1) = 0x1 ∧ (q.extractLsb' 0 1) = 0x0 then some (.stl rt rb (disp.extractLsb' 7 3) (q.extractLsb' 1 2)) else
  none

/-- Major 0x1d: FENCE, FENCE_SS, PREF, CFLUSH, CINV, CZERO. -/
def decode1D (rd : BitVec 6) (ra : BitVec 6) (rb : BitVec 6) (fn : BitVec 8) : Option Instr :=
  if rd = 0x0 ∧ ra = 0x0 ∧ rb = 0x0 ∧ (fn.extractLsb' 3 5) = 0x0 then some (.fence (fn.extractLsb' 0 3)) else
  if rd = 0x0 ∧ ra = 0x0 ∧ rb = 0x0 ∧ (fn.extractLsb' 3 5) = 0x1 then some (.fenceSs (fn.extractLsb' 0 3)) else
  if rd = 0x0 ∧ rb = 0x0 ∧ fn = 0x10 then some (.pref ra) else
  if rd = 0x0 ∧ rb = 0x0 ∧ fn = 0x11 then some (.cflush ra) else
  if rd = 0x0 ∧ rb = 0x0 ∧ fn = 0x12 then some (.cinv ra) else
  if rd = 0x0 ∧ rb = 0x0 ∧ fn = 0x13 then some (.czero ra) else
  none

/-- Major 0x1e: AADD, AAND, AOR, AXOR, AMIN, AMAX, AMINU, AMAXU, ASWAP, ACAS, AFADD. -/
def decode1E (rd : BitVec 6) (ra : BitVec 6) (rb : BitVec 6) (fn : BitVec 8) : Option Instr :=
  if (fn.extractLsb' 4 4) = 0x0 then some (.aadd rd ra rb (fn.extractLsb' 0 4)) else
  if (fn.extractLsb' 4 4) = 0x1 then some (.aand rd ra rb (fn.extractLsb' 0 4)) else
  if (fn.extractLsb' 4 4) = 0x2 then some (.aor rd ra rb (fn.extractLsb' 0 4)) else
  if (fn.extractLsb' 4 4) = 0x3 then some (.axor rd ra rb (fn.extractLsb' 0 4)) else
  if (fn.extractLsb' 4 4) = 0x4 then some (.amin rd ra rb (fn.extractLsb' 0 4)) else
  if (fn.extractLsb' 4 4) = 0x5 then some (.amax rd ra rb (fn.extractLsb' 0 4)) else
  if (fn.extractLsb' 4 4) = 0x6 then some (.aminu rd ra rb (fn.extractLsb' 0 4)) else
  if (fn.extractLsb' 4 4) = 0x7 then some (.amaxu rd ra rb (fn.extractLsb' 0 4)) else
  if (fn.extractLsb' 4 4) = 0x8 then some (.aswap rd ra rb (fn.extractLsb' 0 4)) else
  if (fn.extractLsb' 4 4) = 0x9 then some (.acas rd ra rb (fn.extractLsb' 0 4)) else
  if (fn.extractLsb' 4 4) = 0xa then some (.afadd rd ra rb (fn.extractLsb' 0 4)) else
  none

/-- Major 0x1f: LRW, SC. -/
def decode1F (rd : BitVec 6) (ra : BitVec 6) (rb : BitVec 6) (fn : BitVec 8) : Option Instr :=
  if rb = 0x0 ∧ fn = 0x0 then some (.lrw rd ra) else
  if fn = 0x1 then some (.sc rd ra rb) else
  none

/-- Major 0x20: XBEGIN, XEND, XABORT, XTEST, XRED_ADD, XRED_FADD, XRED_MIN, XRED_MAX. -/
def decode20 (rd : BitVec 6) (ra : BitVec 6) (rb : BitVec 6) (fn : BitVec 8) : Option Instr :=
  if ra = 0x0 ∧ rb = 0x0 ∧ fn = 0x0 then some (.xbegin rd) else
  if rd = 0x0 ∧ ra = 0x0 ∧ rb = 0x0 ∧ fn = 0x1 then some (.xend) else
  if rd = 0x0 ∧ fn = 0x2 ∧ (ra.extractLsb' 2 4) = 0x0 then some (.xabort (ra.extractLsb' 0 2 ++ rb)) else
  if ra = 0x0 ∧ rb = 0x0 ∧ fn = 0x3 then some (.xtest rd) else
  if rd = 0x0 ∧ (fn.extractLsb' 1 7) = 0x8 then some (.xredAdd ra rb (fn.extractLsb' 0 1)) else
  if rd = 0x0 ∧ (fn.extractLsb' 1 7) = 0xa then some (.xredFadd ra rb (fn.extractLsb' 0 1)) else
  if rd = 0x0 ∧ (fn.extractLsb' 1 7) = 0xc then some (.xredMin ra rb (fn.extractLsb' 0 1)) else
  if rd = 0x0 ∧ (fn.extractLsb' 1 7) = 0xe then some (.xredMax ra rb (fn.extractLsb' 0 1)) else
  none

/-- Major 0x21: SBIND, SBINDR, SFIFO_CONS, SFIFO_PROD, SUNBIND, SADV, SSTAT, BMOV, BFILL. -/
def decode21 (rd : BitVec 6) (ra : BitVec 6) (rb : BitVec 6) (fn : BitVec 8) : Option Instr :=
  if rb = 0x0 ∧ fn = 0x0 then some (.sbind rd ra) else
  if fn = 0x1 then some (.sbindr rd ra rb) else
  if rb = 0x0 ∧ fn = 0x2 then some (.sfifoCons rd ra) else
  if rb = 0x1 ∧ fn = 0x2 then some (.sfifoProd rd ra) else
  if ra = 0x0 ∧ rb = 0x0 ∧ fn = 0x3 then some (.sunbind rd) else
  if ra = 0x0 ∧ rb = 0x0 ∧ fn = 0x4 then some (.sadv rd) else
  if rb = 0x0 ∧ fn = 0x5 then some (.sstat rd ra) else
  if fn = 0x8 then some (.bmov rd ra rb) else
  if fn = 0x9 then some (.bfill rd ra rb) else
  none

/-- Major 0x22: SEND, SENDO, SENDR, PUT, GET, FLUSHRD, WAITM, RECVM, PEEKM. -/
def decode22 (rd : BitVec 6) (ra : BitVec 6) (rb : BitVec 6) (fn : BitVec 8) : Option Instr :=
  if fn = 0x0 then some (.send rd ra rb) else
  if fn = 0x1 then some (.sendo rd ra rb) else
  if fn = 0x2 then some (.sendr rd ra rb) else
  if fn = 0x3 then some (.put rd ra rb) else
  if rb = 0x0 ∧ fn = 0x4 then some (.get rd ra) else
  if rb = 0x0 ∧ fn = 0x5 then some (.flushrd rd ra) else
  if rb = 0x0 ∧ fn = 0x6 then some (.waitm rd ra) else
  if fn = 0x7 then some (.recvm rd ra rb) else
  if rb = 0x0 ∧ fn = 0x8 then some (.peekm rd ra) else
  none

/-- Major 0x23: PMCFG, PMPOST, PMDRAIN. -/
def decode23 (rd : BitVec 6) (ra : BitVec 6) (rb : BitVec 6) (fn : BitVec 8) : Option Instr :=
  if fn = 0x0 then some (.pmcfg rd ra rb) else
  if rd = 0x0 ∧ rb = 0x0 ∧ fn = 0x1 then some (.pmpost ra) else
  if fn = 0x2 then some (.pmdrain rd ra rb) else
  none

/-- Major 0x24: HCOPY, HFILL, HGATH_SUM, HGATH_MEAN, HSCAT. -/
def decode24 (rd : BitVec 6) (ra : BitVec 6) (rb : BitVec 6) (fn : BitVec 8) : Option Instr :=
  if rb = 0x0 ∧ fn = 0x0 then some (.hcopy rd ra) else
  if fn = 0x1 then some (.hfill rd ra rb) else
  if fn = 0x2 then some (.hgathSum rd ra rb) else
  if fn = 0x3 then some (.hgathMean rd ra rb) else
  if fn = 0x4 then some (.hscat rd ra rb) else
  none

/-- Major 0x25: DPUSH, DPOP, DSPLIT, DSTEAL_CLUSTER, DSTEAL_SITE, DSTEAL_GRID, DCOUNT, MPATH. -/
def decode25 (rd : BitVec 6) (ra : BitVec 6) (rb : BitVec 6) (fn : BitVec 8) : Option Instr :=
  if fn = 0x0 then some (.dpush rd ra rb) else
  if rb = 0x0 ∧ fn = 0x1 then some (.dpop rd ra) else
  if rb = 0x0 ∧ fn = 0x2 then some (.dsplit rd ra) else
  if ra = 0x0 ∧ rb = 0x0 ∧ fn = 0x3 then some (.dstealCluster rd) else
  if ra = 0x0 ∧ rb = 0x0 ∧ fn = 0x4 then some (.dstealSite rd) else
  if ra = 0x0 ∧ rb = 0x0 ∧ fn = 0x5 then some (.dstealGrid rd) else
  if ra = 0x0 ∧ rb = 0x0 ∧ fn = 0x6 then some (.dcount rd) else
  if fn = 0x8 then some (.mpath rd ra rb) else
  none

/-- Major 0x26: GJOIN, GLEAVE, BINIT, BARR, BWAIT, BSTAT, PLREAD, PLCFG. -/
def decode26 (rd : BitVec 6) (ra : BitVec 6) (rb : BitVec 6) (fn : BitVec 8) : Option Instr :=
  if rb = 0x0 ∧ fn = 0x0 then some (.gjoin rd ra) else
  if rb = 0x0 ∧ fn = 0x1 then some (.gleave rd ra) else
  if fn = 0x2 then some (.binit rd ra rb) else
  if rd = 0x0 ∧ fn = 0x3 then some (.barr ra rb) else
  if ra = 0x0 ∧ rb = 0x0 ∧ fn = 0x4 then some (.bwait rd) else
  if rb = 0x0 ∧ fn = 0x5 then some (.bstat rd ra) else
  if fn = 0x6 then some (.plread rd ra rb) else
  if fn = 0x7 then some (.plcfg rd ra rb) else
  none

/-- Major 0x27: GNODE, GDEC. -/
def decode27 (rd : BitVec 6) (ra : BitVec 6) (rb : BitVec 6) (fn : BitVec 8) : Option Instr :=
  if rb = 0x0 ∧ fn = 0x0 then some (.gnode rd ra) else
  if rb = 0x0 ∧ fn = 0x1 then some (.gdec rd ra) else
  none

/-- Major 0x28: VLD, VST, VLDS, VSTS, VGATH, VSCAT, VLDBC. -/
def decode28 (vd : BitVec 6) (va : BitVec 6) (vb : BitVec 6) (mk : BitVec 3) (fn : BitVec 5) : Option Instr :=
  if vb = 0x0 ∧ (fn.extractLsb' 2 3) = 0x0 then some (.vld vd va mk (fn.extractLsb' 0 2)) else
  if vb = 0x0 ∧ (fn.extractLsb' 2 3) = 0x1 then some (.vst vd va mk (fn.extractLsb' 0 2)) else
  if (fn.extractLsb' 2 3) = 0x2 then some (.vlds vd va vb mk (fn.extractLsb' 0 2)) else
  if (fn.extractLsb' 2 3) = 0x3 then some (.vsts vd va vb mk (fn.extractLsb' 0 2)) else
  if (fn.extractLsb' 2 3) = 0x4 then some (.vgath vd va vb mk (fn.extractLsb' 0 2)) else
  if (fn.extractLsb' 2 3) = 0x5 then some (.vscat vd va vb mk (fn.extractLsb' 0 2)) else
  if vb = 0x0 ∧ (fn.extractLsb' 2 3) = 0x6 then some (.vldbc vd va mk (fn.extractLsb' 0 2)) else
  none

/-- Major 0x29: VADD, VSUB, VMUL, VMULH, VSHL, VSHR, VSRA, VAND, VOR, VXOR. -/
def decode29 (vd : BitVec 6) (va : BitVec 6) (vb : BitVec 6) (mk : BitVec 3) (fn : BitVec 5) : Option Instr :=
  if (fn.extractLsb' 2 3) = 0x0 then some (.vadd vd va vb mk (fn.extractLsb' 0 2)) else
  if (fn.extractLsb' 2 3) = 0x1 then some (.vsub vd va vb mk (fn.extractLsb' 0 2)) else
  if (fn.extractLsb' 2 3) = 0x2 then some (.vmul vd va vb mk (fn.extractLsb' 0 2)) else
  if (fn.extractLsb' 2 3) = 0x3 then some (.vmulh vd va vb mk (fn.extractLsb' 0 2)) else
  if (fn.extractLsb' 2 3) = 0x4 then some (.vshl vd va vb mk (fn.extractLsb' 0 2)) else
  if (fn.extractLsb' 2 3) = 0x5 then some (.vshr vd va vb mk (fn.extractLsb' 0 2)) else
  if (fn.extractLsb' 2 3) = 0x6 then some (.vsra vd va vb mk (fn.extractLsb' 0 2)) else
  if fn = 0x1c then some (.vand vd va vb mk) else
  if fn = 0x1d then some (.vor vd va vb mk) else
  if fn = 0x1e then some (.vxor vd va vb mk) else
  none

/-- Major 0x2a: VFADD, VFSUB, VFMUL, VFMA, VFDIV, VFSQRT, VFMIN, VFMAX. -/
def decode2A (vd : BitVec 6) (va : BitVec 6) (vb : BitVec 6) (mk : BitVec 3) (fn : BitVec 5) : Option Instr :=
  if (fn.extractLsb' 2 3) = 0x0 then some (.vfadd vd va vb mk (fn.extractLsb' 0 2)) else
  if (fn.extractLsb' 2 3) = 0x1 then some (.vfsub vd va vb mk (fn.extractLsb' 0 2)) else
  if (fn.extractLsb' 2 3) = 0x2 then some (.vfmul vd va vb mk (fn.extractLsb' 0 2)) else
  if (fn.extractLsb' 2 3) = 0x3 then some (.vfma vd va vb mk (fn.extractLsb' 0 2)) else
  if (fn.extractLsb' 2 3) = 0x4 then some (.vfdiv vd va vb mk (fn.extractLsb' 0 2)) else
  if vb = 0x0 ∧ (fn.extractLsb' 2 3) = 0x5 then some (.vfsqrt vd va mk (fn.extractLsb' 0 2)) else
  if (fn.extractLsb' 2 3) = 0x6 then some (.vfmin vd va vb mk (fn.extractLsb' 0 2)) else
  if (fn.extractLsb' 2 3) = 0x7 then some (.vfmax vd va vb mk (fn.extractLsb' 0 2)) else
  none

/-- Major 0x2b: VCVT. -/
def decode2B (vd : BitVec 6) (va : BitVec 6) (vb : BitVec 6) (mk : BitVec 3) (fn : BitVec 5) : Option Instr :=
  some (.vcvt vd va (vb.extractLsb' 4 2) (vb.extractLsb' 0 4) mk (fn.extractLsb' 4 1) (fn.extractLsb' 0 4))

/-- Major 0x2c: VSHUF, VBCAST, VEXTR, VINS, VSLIDE, VRED, VSCAN. -/
def decode2C (vd : BitVec 6) (va : BitVec 6) (vb : BitVec 6) (mk : BitVec 3) (fn : BitVec 5) : Option Instr :=
  if (fn.extractLsb' 2 3) = 0x0 then some (.vshuf vd va vb mk (fn.extractLsb' 0 2)) else
  if vb = 0x0 ∧ (fn.extractLsb' 2 3) = 0x1 then some (.vbcast vd va mk (fn.extractLsb' 0 2)) else
  if mk = 0x0 ∧ (fn.extractLsb' 2 3) = 0x2 then some (.vextr vd va vb (fn.extractLsb' 0 2)) else
  if (fn.extractLsb' 2 3) = 0x3 then some (.vins vd va vb mk (fn.extractLsb' 0 2)) else
  if (fn.extractLsb' 2 3) = 0x5 then some (.vslide vd va vb mk (fn.extractLsb' 0 2)) else
  if fn = 0x10 then some (.vred vd va (vb.extractLsb' 4 2) (vb.extractLsb' 0 4) mk) else
  if fn = 0x11 then some (.vscan vd va (vb.extractLsb' 4 2) (vb.extractLsb' 0 4) mk) else
  none

/-- Major 0x2d: MAND, MOR, MXOR, MNOT, MPOPC, MFIRST, VCMP, VSEL, VMIN, VMAX. -/
def decode2D (vd : BitVec 6) (va : BitVec 6) (vb : BitVec 6) (mk : BitVec 3) (fn : BitVec 5) : Option Instr :=
  if mk = 0x0 ∧ fn = 0x0 then some (.mand vd va vb) else
  if mk = 0x0 ∧ fn = 0x1 then some (.mor vd va vb) else
  if mk = 0x0 ∧ fn = 0x2 then some (.mxor vd va vb) else
  if vb = 0x0 ∧ mk = 0x0 ∧ fn = 0x3 then some (.mnot vd va) else
  if vb = 0x0 ∧ mk = 0x0 ∧ fn = 0x4 then some (.mpopc vd va) else
  if vb = 0x0 ∧ mk = 0x0 ∧ fn = 0x5 then some (.mfirst vd va) else
  if (fn.extractLsb' 3 2) = 0x1 then some (.vcmp (vd.extractLsb' 3 3) (vd.extractLsb' 0 3) va vb mk (fn.extractLsb' 0 3)) else
  if (fn.extractLsb' 2 3) = 0x4 then some (.vsel vd va vb mk (fn.extractLsb' 0 2)) else
  if (fn.extractLsb' 2 3) = 0x5 then some (.vmin vd va vb mk (fn.extractLsb' 0 2)) else
  if (fn.extractLsb' 2 3) = 0x6 then some (.vmax vd va vb mk (fn.extractLsb' 0 2)) else
  none

/-- Major 0x2e: MDOT. -/
def decode2E (ad : BitVec 3) (opA : BitVec 6) (opB : BitVec 6) (fmt : BitVec 4) (fl : BitVec 7) : Option Instr :=
  if (fl.extractLsb' 0 1) = 0x0 then some (.mdot ad opA opB fmt (fl.extractLsb' 4 3) (fl.extractLsb' 3 1) (fl.extractLsb' 2 1) (fl.extractLsb' 1 1)) else
  none

/-- Major 0x2f: MOPEN, MCLOSE, MZERO, MUPROG, MRUN, MRD, MWR, MLD, MST, MSUMR, MSUMC, MMOV. -/
def decode2F (ad : BitVec 3) (opA : BitVec 6) (opB : BitVec 6) (fmt : BitVec 4) (fl : BitVec 7) : Option Instr :=
  if opB = 0x0 ∧ fmt = 0x0 ∧ (fl.extractLsb' 0 4) = 0x0 then some (.mopen ad opA (fl.extractLsb' 4 3)) else
  if opA = 0x0 ∧ opB = 0x0 ∧ fmt = 0x1 ∧ fl = 0x0 then some (.mclose ad) else
  if opA = 0x0 ∧ opB = 0x0 ∧ fmt = 0x2 ∧ fl = 0x0 then some (.mzero ad) else
  if ad = 0x0 ∧ opB = 0x0 ∧ fmt = 0x3 ∧ fl = 0x0 then some (.muprog opA) else
  if fmt = 0x4 ∧ fl = 0x0 then some (.mrun ad opA opB) else
  if fmt = 0x5 ∧ fl = 0x0 then some (.mrd ad opA opB) else
  if fmt = 0x6 ∧ fl = 0x0 then some (.mwr ad opA opB) else
  if fmt = 0x7 ∧ fl = 0x0 then some (.mld ad opA opB) else
  if fmt = 0x8 ∧ fl = 0x0 then some (.mst ad opA opB) else
  if (opA.extractLsb' 5 1) = 0x0 ∧ opB = 0x0 ∧ fmt = 0x9 ∧ (fl.extractLsb' 0 4) = 0x0 then some (.msumr ad (opA.extractLsb' 0 5) (fl.extractLsb' 4 3)) else
  if (opA.extractLsb' 5 1) = 0x0 ∧ opB = 0x0 ∧ fmt = 0xa ∧ (fl.extractLsb' 0 4) = 0x0 then some (.msumc ad (opA.extractLsb' 0 5) (fl.extractLsb' 4 3)) else
  if (opA.extractLsb' 3 3) = 0x1 ∧ opB = 0x0 ∧ fmt = 0xb ∧ fl = 0x0 then some (.mmov ad (opA.extractLsb' 0 3)) else
  none

/-- Major 0x30: CSRR, CSRW, SEALROOT, TLBINV_PAGE, REGREL, BANKCFG, FREEZE, ERRINJ. -/
def decode30 (rd : BitVec 6) (ra : BitVec 6) (rb : BitVec 6) (fn : BitVec 8) : Option Instr :=
  if fn = 0x0 then some (.csrr rd (ra ++ rb)) else
  if fn = 0x1 then some (.csrw rd (ra ++ rb)) else
  if fn = 0x2 then some (.sealroot rd ra rb) else
  if fn = 0x3 then some (.tlbinvPage rd ra rb) else
  if rb = 0x0 ∧ fn = 0x4 then some (.regrel rd ra) else
  if fn = 0x5 then some (.bankcfg rd ra rb) else
  if fn = 0x6 then some (.freeze rd ra rb) else
  if fn = 0x7 then some (.errinj rd ra rb) else
  none

/-- Major 0x31: TRAP, BKPT, IDLE. -/
def decode31 (rd : BitVec 6) (ra : BitVec 6) (rb : BitVec 6) (fn : BitVec 8) : Option Instr :=
  if rd = 0x0 ∧ fn = 0x0 then some (.trap (ra ++ rb)) else
  if rd = 0x0 ∧ ra = 0x0 ∧ rb = 0x0 ∧ fn = 0x1 then some (.bkpt) else
  if rd = 0x0 ∧ ra = 0x0 ∧ rb = 0x0 ∧ fn = 0x2 then some (.idle) else
  none

/-- The instruction a word's opcode and function fields name, before the checks of `Instr.wf` (R169, R170). -/
def decodeFields (w : BitVec 32) : Option Instr :=
  match (majorOf w).toNat with
  | 0x1 => decode01 (rdA w) (raA w) (rbA w) (fnA w)
  | 0x2 => decode02 (rdI w) (raI w) (immI w)
  | 0x3 => decode03 (rdI w) (raI w) (immI w)
  | 0x4 => decode04 (rdI w) (raI w) (immI w)
  | 0x5 => decode05 (rdI w) (raI w) (immI w)
  | 0x6 => decode06 (rdI w) (raI w) (immI w)
  | 0x7 => decode07 (rdI w) (raI w) (immI w)
  | 0x8 => decode08 (rdA w) (raA w) (rbA w) (fnA w)
  | 0x9 => decode09 (rdA w) (raA w) (rbA w) (fnA w)
  | 0xa => decode0A (rdI w) (raI w) (immI w)
  | 0xb => decode0B (rdA w) (raA w) (rbA w) (fnA w)
  | 0xc => decode0C (rdJ w) (dispJ w)
  | 0xd => decode0D (rdJ w) (dispJ w)
  | 0xe => decode0E (rdI w) (raI w) (immI w)
  | 0x10 => decode10 (raB w) (rbB w) (dispB w)
  | 0x11 => decode11 (raB w) (rbB w) (dispB w)
  | 0x12 => decode12 (raB w) (rbB w) (dispB w)
  | 0x13 => decode13 (raB w) (rbB w) (dispB w)
  | 0x14 => decode14 (raB w) (rbB w) (dispB w)
  | 0x15 => decode15 (raB w) (rbB w) (dispB w)
  | 0x16 => decode16 (rcP w) (lenP w) (sdP w) (saP w) (sbP w) (flP w)
  | 0x17 => decode17 (rdA w) (raA w) (rbA w) (fnA w)
  | 0x18 => decode18 (rtM w) (rbM w) (dispM w) (qM w)
  | 0x19 => decode19 (rtM w) (rbM w) (dispM w) (qM w)
  | 0x1a => decode1A (rtM w) (rbM w) (dispM w) (qM w)
  | 0x1b => decode1B (rtM w) (rbM w) (dispM w) (qM w)
  | 0x1c => decode1C (rtM w) (rbM w) (dispM w) (qM w)
  | 0x1d => decode1D (rdA w) (raA w) (rbA w) (fnA w)
  | 0x1e => decode1E (rdA w) (raA w) (rbA w) (fnA w)
  | 0x1f => decode1F (rdA w) (raA w) (rbA w) (fnA w)
  | 0x20 => decode20 (rdA w) (raA w) (rbA w) (fnA w)
  | 0x21 => decode21 (rdA w) (raA w) (rbA w) (fnA w)
  | 0x22 => decode22 (rdA w) (raA w) (rbA w) (fnA w)
  | 0x23 => decode23 (rdA w) (raA w) (rbA w) (fnA w)
  | 0x24 => decode24 (rdA w) (raA w) (rbA w) (fnA w)
  | 0x25 => decode25 (rdA w) (raA w) (rbA w) (fnA w)
  | 0x26 => decode26 (rdA w) (raA w) (rbA w) (fnA w)
  | 0x27 => decode27 (rdA w) (raA w) (rbA w) (fnA w)
  | 0x28 => decode28 (vdV w) (vaV w) (vbV w) (mkV w) (fnV w)
  | 0x29 => decode29 (vdV w) (vaV w) (vbV w) (mkV w) (fnV w)
  | 0x2a => decode2A (vdV w) (vaV w) (vbV w) (mkV w) (fnV w)
  | 0x2b => decode2B (vdV w) (vaV w) (vbV w) (mkV w) (fnV w)
  | 0x2c => decode2C (vdV w) (vaV w) (vbV w) (mkV w) (fnV w)
  | 0x2d => decode2D (vdV w) (vaV w) (vbV w) (mkV w) (fnV w)
  | 0x2e => decode2E (adX w) (opAX w) (opBX w) (fmtX w) (flX w)
  | 0x2f => decode2F (adX w) (opAX w) (opBX w) (fmtX w) (flX w)
  | 0x30 => decode30 (rdA w) (raA w) (rbA w) (fnA w)
  | 0x31 => decode31 (rdA w) (raA w) (rbA w) (fnA w)
  | _ => none

/-- R176: the instruction of a word, or none where the word is not an instruction. -/
def decode (w : BitVec 32) : Option Instr :=
  match decodeFields w with
  | some i => if i.wf then some i else none
  | none => none

/-- A word of format A (R167). -/
def packA (op : BitVec 6) (rd : BitVec 6) (ra : BitVec 6) (rb : BitVec 6) (fn : BitVec 8) : BitVec 32 :=
  op ++ rd ++ ra ++ rb ++ fn
/-- A word of format I (R167). -/
def packI (op : BitVec 6) (rd : BitVec 6) (ra : BitVec 6) (imm : BitVec 14) : BitVec 32 :=
  op ++ rd ++ ra ++ imm
/-- A word of format M (R167). -/
def packM (op : BitVec 6) (rt : BitVec 6) (rb : BitVec 6) (disp : BitVec 10) (q : BitVec 4) : BitVec 32 :=
  op ++ rt ++ rb ++ disp ++ q
/-- A word of format B (R167). -/
def packB (op : BitVec 6) (ra : BitVec 6) (rb : BitVec 6) (disp : BitVec 14) : BitVec 32 :=
  op ++ ra ++ rb ++ disp
/-- A word of format J (R167). -/
def packJ (op : BitVec 6) (rd : BitVec 6) (disp : BitVec 20) : BitVec 32 :=
  op ++ rd ++ disp
/-- A word of format V (R167). -/
def packV (op : BitVec 6) (vd : BitVec 6) (va : BitVec 6) (vb : BitVec 6) (mk : BitVec 3) (fn : BitVec 5) : BitVec 32 :=
  op ++ vd ++ va ++ vb ++ mk ++ fn
/-- A word of format X (R167). -/
def packX (op : BitVec 6) (ad : BitVec 3) (opA : BitVec 6) (opB : BitVec 6) (fmt : BitVec 4) (fl : BitVec 7) : BitVec 32 :=
  op ++ ad ++ opA ++ opB ++ fmt ++ fl
/-- A word of format P (R167). -/
def packP (op : BitVec 6) (rc : BitVec 6) (len : BitVec 4) (sd : BitVec 4) (sa : BitVec 4) (sb : BitVec 4) (fl : BitVec 4) : BitVec 32 :=
  op ++ rc ++ len ++ sd ++ sa ++ sb ++ fl

/-- The word of an encoded instruction; none for the machine's own steps, which have no encoding. -/
def encode : Instr → Option (BitVec 32)
  | .add d a b => some (packA 0x1 d a b 0x0#8)
  | .sub d a b => some (packA 0x1 d a b 0x1#8)
  | .and d a b => some (packA 0x1 d a b 0x2#8)
  | .or d a b => some (packA 0x1 d a b 0x3#8)
  | .xor d a b => some (packA 0x1 d a b 0x4#8)
  | .andn d a b => some (packA 0x1 d a b 0x5#8)
  | .sll d a b => some (packA 0x1 d a b 0x6#8)
  | .srl d a b => some (packA 0x1 d a b 0x7#8)
  | .sra d a b => some (packA 0x1 d a b 0x8#8)
  | .ror d a b => some (packA 0x1 d a b 0x9#8)
  | .min d a b => some (packA 0x1 d a b 0xa#8)
  | .max d a b => some (packA 0x1 d a b 0xb#8)
  | .minu d a b => some (packA 0x1 d a b 0xc#8)
  | .maxu d a b => some (packA 0x1 d a b 0xd#8)
  | .seq d a b => some (packA 0x1 d a b 0xe#8)
  | .sne d a b => some (packA 0x1 d a b 0xf#8)
  | .slt d a b => some (packA 0x1 d a b 0x10#8)
  | .sltu d a b => some (packA 0x1 d a b 0x11#8)
  | .clz d a => some (packA 0x1 d a 0x0#6 0x12#8)
  | .ctz d a => some (packA 0x1 d a 0x0#6 0x13#8)
  | .popc d a => some (packA 0x1 d a 0x0#6 0x14#8)
  | .bswap d a => some (packA 0x1 d a 0x0#6 0x15#8)
  | .addi d a i => some (packI 0x2 d a i)
  | .andi d a i => some (packI 0x3 d a i)
  | .ori d a i => some (packI 0x4 d a i)
  | .xori d a i => some (packI 0x5 d a i)
  | .slli d a n => some (packI 0x6 d a (0x0#8 ++ n))
  | .srli d a n => some (packI 0x6 d a (0x40#8 ++ n))
  | .srai d a n => some (packI 0x6 d a (0x80#8 ++ n))
  | .slti d a i => some (packI 0x7 d a (0x0#1 ++ i))
  | .sltui d a i => some (packI 0x7 d a (0x1#1 ++ i))
  | .mul d a b => some (packA 0x8 d a b 0x0#8)
  | .mulh d a b => some (packA 0x8 d a b 0x1#8)
  | .mulhu d a b => some (packA 0x8 d a b 0x2#8)
  | .div d a b => some (packA 0x8 d a b 0x3#8)
  | .divu d a b => some (packA 0x8 d a b 0x4#8)
  | .rem d a b => some (packA 0x8 d a b 0x5#8)
  | .remu d a b => some (packA 0x8 d a b 0x6#8)
  | .cbound d a b => some (packA 0x9 d a b 0x0#8)
  | .cperm d a b => some (packA 0x9 d a b 0x1#8)
  | .cseal d a b => some (packA 0x9 d a b 0x2#8)
  | .cunseal d a b => some (packA 0x9 d a b 0x3#8)
  | .cinc d a b => some (packA 0x9 d a b 0x4#8)
  | .cbase d a => some (packA 0x9 d a 0x0#6 0x5#8)
  | .clen d a => some (packA 0x9 d a 0x0#6 0x6#8)
  | .cgperm d a => some (packA 0x9 d a 0x0#6 0x7#8)
  | .ctag d a => some (packA 0x9 d a 0x0#6 0x8#8)
  | .cclr d a => some (packA 0x9 d a 0x0#6 0x9#8)
  | .csub d a b => some (packA 0x9 d a b 0xa#8)
  | .cinci d a i => some (packI 0xa d a (0x0#1 ++ i))
  | .cboundi d a i => some (packI 0xa d a (0x1#1 ++ i))
  | .tget d a => some (packA 0xb d a 0x0#6 0x0#8)
  | .tmrg d a => some (packA 0xb d a 0x0#6 0x1#8)
  | .tclr d => some (packA 0xb d 0x0#6 0x0#6 0x2#8)
  | .twait a => some (packA 0xb 0x0#6 a 0x0#6 0x3#8)
  | .ldlD d i => some (packJ 0xc d (0x0#1 ++ i))
  | .ldlW d i => some (packJ 0xc d (0x1#1 ++ i))
  | .jal d i => some (packJ 0xd d i)
  | .jalr d a i => some (packI 0xe d a i)
  | .beq a b i => some (packB 0x10 a b i)
  | .bne a b i => some (packB 0x11 a b i)
  | .blt a b i => some (packB 0x12 a b i)
  | .bge a b i => some (packB 0x13 a b i)
  | .bltu a b i => some (packB 0x14 a b i)
  | .bgeu a b i => some (packB 0x15 a b i)
  | .rep c l d a b => some (packP 0x16 c l d a b 0x0#4)
  | .endTask => some (packA 0x17 0x0#6 0x0#6 0x0#6 0x0#8)
  | .release => some (packA 0x17 0x0#6 0x0#6 0x0#6 0x1#8)
  | .ldB t b i => some (packM 0x18 t b i 0x0#4)
  | .ldBu t b i => some (packM 0x18 t b i 0x1#4)
  | .ldH t b i => some (packM 0x18 t b i 0x2#4)
  | .ldHu t b i => some (packM 0x18 t b i 0x3#4)
  | .ldW t b i => some (packM 0x18 t b i 0x4#4)
  | .ldWu t b i => some (packM 0x18 t b i 0x5#4)
  | .ldD t b i => some (packM 0x18 t b i 0x6#4)
  | .stB t b i => some (packM 0x19 t b i 0x0#4)
  | .stH t b i => some (packM 0x19 t b i 0x2#4)
  | .stW t b i => some (packM 0x19 t b i 0x4#4)
  | .stD t b i => some (packM 0x19 t b i 0x6#4)
  | .ldc t b i => some (packM 0x1a t b i 0x0#4)
  | .stc t b i => some (packM 0x1b t b i 0x0#4)
  | .lda t b s z x => some (packM 0x1c t b (s ++ 0x0#7) (0x0#1 ++ z ++ x))
  | .stl t b s z => some (packM 0x1c t b (s ++ 0x0#7) (0x1#1 ++ z ++ 0x0#1))
  | .fence s => some (packA 0x1d 0x0#6 0x0#6 0x0#6 (0x0#5 ++ s))
  | .fenceSs s => some (packA 0x1d 0x0#6 0x0#6 0x0#6 (0x1#5 ++ s))
  | .pref a => some (packA 0x1d 0x0#6 a 0x0#6 0x10#8)
  | .cflush a => some (packA 0x1d 0x0#6 a 0x0#6 0x11#8)
  | .cinv a => some (packA 0x1d 0x0#6 a 0x0#6 0x12#8)
  | .czero a => some (packA 0x1d 0x0#6 a 0x0#6 0x13#8)
  | .aadd d a b v => some (packA 0x1e d a b (0x0#4 ++ v))
  | .aand d a b v => some (packA 0x1e d a b (0x1#4 ++ v))
  | .aor d a b v => some (packA 0x1e d a b (0x2#4 ++ v))
  | .axor d a b v => some (packA 0x1e d a b (0x3#4 ++ v))
  | .amin d a b v => some (packA 0x1e d a b (0x4#4 ++ v))
  | .amax d a b v => some (packA 0x1e d a b (0x5#4 ++ v))
  | .aminu d a b v => some (packA 0x1e d a b (0x6#4 ++ v))
  | .amaxu d a b v => some (packA 0x1e d a b (0x7#4 ++ v))
  | .aswap d a b v => some (packA 0x1e d a b (0x8#4 ++ v))
  | .acas d a b v => some (packA 0x1e d a b (0x9#4 ++ v))
  | .afadd d a b v => some (packA 0x1e d a b (0xa#4 ++ v))
  | .lrw d a => some (packA 0x1f d a 0x0#6 0x0#8)
  | .sc d a b => some (packA 0x1f d a b 0x1#8)
  | .xbegin d => some (packA 0x20 d 0x0#6 0x0#6 0x0#8)
  | .xend => some (packA 0x20 0x0#6 0x0#6 0x0#6 0x1#8)
  | .xabort k => some (packA 0x20 0x0#6 (0x0#4 ++ k.extractLsb' 6 2) (k.extractLsb' 0 6) 0x2#8)
  | .xtest d => some (packA 0x20 d 0x0#6 0x0#6 0x3#8)
  | .xredAdd a b w => some (packA 0x20 0x0#6 a b (0x8#7 ++ w))
  | .xredFadd a b w => some (packA 0x20 0x0#6 a b (0xa#7 ++ w))
  | .xredMin a b w => some (packA 0x20 0x0#6 a b (0xc#7 ++ w))
  | .xredMax a b w => some (packA 0x20 0x0#6 a b (0xe#7 ++ w))
  | .sbind k n => some (packA 0x21 k n 0x0#6 0x0#8)
  | .sbindr k n r => some (packA 0x21 k n r 0x1#8)
  | .sfifoCons k n => some (packA 0x21 k n 0x0#6 0x2#8)
  | .sfifoProd k n => some (packA 0x21 k n 0x1#6 0x2#8)
  | .sunbind k => some (packA 0x21 k 0x0#6 0x0#6 0x3#8)
  | .sadv k => some (packA 0x21 k 0x0#6 0x0#6 0x4#8)
  | .sstat d k => some (packA 0x21 d k 0x0#6 0x5#8)
  | .bmov d s n => some (packA 0x21 d s n 0x8#8)
  | .bfill d p n => some (packA 0x21 d p n 0x9#8)
  | .send n s p => some (packA 0x22 n s p 0x0#8)
  | .sendo n s p => some (packA 0x22 n s p 0x1#8)
  | .sendr n s p => some (packA 0x22 n s p 0x2#8)
  | .put d s n => some (packA 0x22 d s n 0x3#8)
  | .get d a => some (packA 0x22 d a 0x0#6 0x4#8)
  | .flushrd d a => some (packA 0x22 d a 0x0#6 0x5#8)
  | .waitm d a => some (packA 0x22 d a 0x0#6 0x6#8)
  | .recvm d a b => some (packA 0x22 d a b 0x7#8)
  | .peekm d a => some (packA 0x22 d a 0x0#6 0x8#8)
  | .pmcfg d a b => some (packA 0x23 d a b 0x0#8)
  | .pmpost a => some (packA 0x23 0x0#6 a 0x0#6 0x1#8)
  | .pmdrain d a b => some (packA 0x23 d a b 0x2#8)
  | .hcopy d a => some (packA 0x24 d a 0x0#6 0x0#8)
  | .hfill d a b => some (packA 0x24 d a b 0x1#8)
  | .hgathSum d a b => some (packA 0x24 d a b 0x2#8)
  | .hgathMean d a b => some (packA 0x24 d a b 0x3#8)
  | .hscat d a b => some (packA 0x24 d a b 0x4#8)
  | .dpush d a b => some (packA 0x25 d a b 0x0#8)
  | .dpop d a => some (packA 0x25 d a 0x0#6 0x1#8)
  | .dsplit d a => some (packA 0x25 d a 0x0#6 0x2#8)
  | .dstealCluster d => some (packA 0x25 d 0x0#6 0x0#6 0x3#8)
  | .dstealSite d => some (packA 0x25 d 0x0#6 0x0#6 0x4#8)
  | .dstealGrid d => some (packA 0x25 d 0x0#6 0x0#6 0x5#8)
  | .dcount d => some (packA 0x25 d 0x0#6 0x0#6 0x6#8)
  | .mpath d a b => some (packA 0x25 d a b 0x8#8)
  | .gjoin d a => some (packA 0x26 d a 0x0#6 0x0#8)
  | .gleave d a => some (packA 0x26 d a 0x0#6 0x1#8)
  | .binit d a b => some (packA 0x26 d a b 0x2#8)
  | .barr a b => some (packA 0x26 0x0#6 a b 0x3#8)
  | .bwait d => some (packA 0x26 d 0x0#6 0x0#6 0x4#8)
  | .bstat d a => some (packA 0x26 d a 0x0#6 0x5#8)
  | .plread d a b => some (packA 0x26 d a b 0x6#8)
  | .plcfg d a b => some (packA 0x26 d a b 0x7#8)
  | .gnode d a => some (packA 0x27 d a 0x0#6 0x0#8)
  | .gdec d a => some (packA 0x27 d a 0x0#6 0x1#8)
  | .vld d a m w => some (packV 0x28 d a 0x0#6 m (0x0#3 ++ w))
  | .vst d a m w => some (packV 0x28 d a 0x0#6 m (0x1#3 ++ w))
  | .vlds d a b m w => some (packV 0x28 d a b m (0x2#3 ++ w))
  | .vsts d a b m w => some (packV 0x28 d a b m (0x3#3 ++ w))
  | .vgath d a b m w => some (packV 0x28 d a b m (0x4#3 ++ w))
  | .vscat d a b m w => some (packV 0x28 d a b m (0x5#3 ++ w))
  | .vldbc d a m w => some (packV 0x28 d a 0x0#6 m (0x6#3 ++ w))
  | .vadd d a b m w => some (packV 0x29 d a b m (0x0#3 ++ w))
  | .vsub d a b m w => some (packV 0x29 d a b m (0x1#3 ++ w))
  | .vmul d a b m w => some (packV 0x29 d a b m (0x2#3 ++ w))
  | .vmulh d a b m w => some (packV 0x29 d a b m (0x3#3 ++ w))
  | .vshl d a b m w => some (packV 0x29 d a b m (0x4#3 ++ w))
  | .vshr d a b m w => some (packV 0x29 d a b m (0x5#3 ++ w))
  | .vsra d a b m w => some (packV 0x29 d a b m (0x6#3 ++ w))
  | .vand d a b m => some (packV 0x29 d a b m 0x1c#5)
  | .vor d a b m => some (packV 0x29 d a b m 0x1d#5)
  | .vxor d a b m => some (packV 0x29 d a b m 0x1e#5)
  | .vfadd d a b m t => some (packV 0x2a d a b m (0x0#3 ++ t))
  | .vfsub d a b m t => some (packV 0x2a d a b m (0x1#3 ++ t))
  | .vfmul d a b m t => some (packV 0x2a d a b m (0x2#3 ++ t))
  | .vfma d a b m t => some (packV 0x2a d a b m (0x3#3 ++ t))
  | .vfdiv d a b m t => some (packV 0x2a d a b m (0x4#3 ++ t))
  | .vfsqrt d a m t => some (packV 0x2a d a 0x0#6 m (0x5#3 ++ t))
  | .vfmin d a b m t => some (packV 0x2a d a b m (0x6#3 ++ t))
  | .vfmax d a b m t => some (packV 0x2a d a b m (0x7#3 ++ t))
  | .vcvt d a k s m x t => some (packV 0x2b d a (k ++ s) m (x ++ t))
  | .vshuf d a b m w => some (packV 0x2c d a b m (0x0#3 ++ w))
  | .vbcast d a m w => some (packV 0x2c d a 0x0#6 m (0x1#3 ++ w))
  | .vextr d a b w => some (packV 0x2c d a b 0x0#3 (0x2#3 ++ w))
  | .vins d a b m w => some (packV 0x2c d a b m (0x3#3 ++ w))
  | .vslide d a b m w => some (packV 0x2c d a b m (0x5#3 ++ w))
  | .vred d a o t m => some (packV 0x2c d a (o ++ t) m 0x10#5)
  | .vscan d a o t m => some (packV 0x2c d a (o ++ t) m 0x11#5)
  | .mand d a b => some (packV 0x2d d a b 0x0#3 0x0#5)
  | .mor d a b => some (packV 0x2d d a b 0x0#3 0x1#5)
  | .mxor d a b => some (packV 0x2d d a b 0x0#3 0x2#5)
  | .mnot d a => some (packV 0x2d d a 0x0#6 0x0#3 0x3#5)
  | .mpopc d a => some (packV 0x2d d a 0x0#6 0x0#3 0x4#5)
  | .mfirst d a => some (packV 0x2d d a 0x0#6 0x0#3 0x5#5)
  | .vcmp c d a b m t => some (packV 0x2d (c ++ d) a b m (0x1#2 ++ t))
  | .vsel d a b m w => some (packV 0x2d d a b m (0x4#3 ++ w))
  | .vmin d a b m w => some (packV 0x2d d a b m (0x5#3 ++ w))
  | .vmax d a b m w => some (packV 0x2d d a b m (0x6#3 ++ w))
  | .mdot d a b f r x y z => some (packX 0x2e d a b f (r ++ x ++ y ++ z ++ 0x0#1))
  | .mopen d g r => some (packX 0x2f d g 0x0#6 0x0#4 (r ++ 0x0#4))
  | .mclose d => some (packX 0x2f d 0x0#6 0x0#6 0x1#4 0x0#7)
  | .mzero d => some (packX 0x2f d 0x0#6 0x0#6 0x2#4 0x0#7)
  | .muprog g => some (packX 0x2f 0x0#3 g 0x0#6 0x3#4 0x0#7)
  | .mrun d a b => some (packX 0x2f d a b 0x4#4 0x0#7)
  | .mrd d p g => some (packX 0x2f d p g 0x5#4 0x0#7)
  | .mwr d p g => some (packX 0x2f d p g 0x6#4 0x0#7)
  | .mld d c p => some (packX 0x2f d c p 0x7#4 0x0#7)
  | .mst d c p => some (packX 0x2f d c p 0x8#4 0x0#7)
  | .msumr d v r => some (packX 0x2f d (0x0#1 ++ v) 0x0#6 0x9#4 (r ++ 0x0#4))
  | .msumc d v r => some (packX 0x2f d (0x0#1 ++ v) 0x0#6 0xa#4 (r ++ 0x0#4))
  | .mmov d s => some (packX 0x2f d (0x1#3 ++ s) 0x0#6 0xb#4 0x0#7)
  | .csrr d c => some (packA 0x30 d (c.extractLsb' 6 6) (c.extractLsb' 0 6) 0x0#8)
  | .csrw s c => some (packA 0x30 s (c.extractLsb' 6 6) (c.extractLsb' 0 6) 0x1#8)
  | .sealroot d a b => some (packA 0x30 d a b 0x2#8)
  | .tlbinvPage d a b => some (packA 0x30 d a b 0x3#8)
  | .tlbinvAll d a b => some (packA 0x30 d a b 0x3#8)
  | .tlbinvStripe d a b => some (packA 0x30 d a b 0x3#8)
  | .rowmove d a b => some (packA 0x30 d a b 0x3#8)
  | .regrel d a => some (packA 0x30 d a 0x0#6 0x4#8)
  | .bankcfg d a b => some (packA 0x30 d a b 0x5#8)
  | .freeze d a b => some (packA 0x30 d a b 0x6#8)
  | .thaw d a b => some (packA 0x30 d a b 0x6#8)
  | .preempt d a b => some (packA 0x30 d a b 0x6#8)
  | .kill d a b => some (packA 0x30 d a b 0x6#8)
  | .errinj d a b => some (packA 0x30 d a b 0x7#8)
  | .trap k => some (packA 0x31 0x0#6 (k.extractLsb' 6 6) (k.extractLsb' 0 6) 0x0#8)
  | .bkpt => some (packA 0x31 0x0#6 0x0#6 0x0#6 0x1#8)
  | .idle => some (packA 0x31 0x0#6 0x0#6 0x0#6 0x2#8)
  | _ => none

/-- The TLBINV rows share one word, and so do the TEAMCTL rows: the operation is in a register value
(R358, R392). The decoder answers the row of operation 0. -/
def Instr.canonical : Instr → Instr
  | .tlbinvAll d a b => .tlbinvPage d a b
  | .tlbinvStripe d a b => .tlbinvPage d a b
  | .rowmove d a b => .tlbinvPage d a b
  | .thaw d a b => .freeze d a b
  | .preempt d a b => .freeze d a b
  | .kill d a b => .freeze d a b
  | i => i

/-- The four bytes of a word as memory holds them, lowest address first (R2). -/
def wordBytes (w : BitVec 32) : List Byte :=
  [w.extractLsb' 0 8, w.extractLsb' 8 8, w.extractLsb' 16 8, w.extractLsb' 24 8]

/-- The word that four bytes of memory hold (R2). -/
def wordOfBytes : List Byte → BitVec 32
  | [a, b, c, d] => d ++ c ++ b ++ a
  | _ => 0

/-- The instruction the decoder reads from the stored bytes of a table word of `nbits` bits. -/
def decodeTableWord (nbits w : Nat) : Option Instr :=
  if nbits ≤ 32 ∧ 0 < nbits then decode (wordOfBytes (wordBytes (BitVec.ofNat 32 w))) else none

end Sys2Proof
end

