-- ==== Sys2Proof/Machine/Control.lean ====
section
/-!
DEFINITION. Instruction fetch (R105, R166), literal loads (R182), jumps and branches (R205 to R207), repeat frames
(R178 to R181), END and RELEASE (R209, R210).
-/
namespace Sys2Proof.Machine

/-- The code capability of the team of a core (R166); none admits no fetch. -/
def State.codeCap (s : State) (k : Nat) : Reg :=
  match s.teamAt k with
  | some t => capReg t.codeCap
  | none => {}

/-- The storage addresses of bytes of the team's code section (R166). None outside the section. -/
def State.codeAddrs (s : State) (k va n : Nat) : Option (List Nat) :=
  let c := s.codeCap k
  if !c.tag || !inBounds c (BitVec.ofNat 64 va) n then none
  else match s.xlate k va .fetch with
    | .ok a _ => some (addrRange a n)
    | _ => none

/-- Bytes of the team's code section as a fetch or literal load finds them (R105). -/
def State.codeBytes (s : State) (k va n : Nat) : Option (List Byte) := (s.codeAddrs k va n).map fun as => as.map s.codeByte

/-- The L1 instruction cache holds the lines of a fetch or literal load (R105). -/
def State.fetched (s : State) (k va n : Nat) : State :=
  (((s.codeAddrs k va n).getD []).map lineOf |>.foldl insertNat []).foldl (fun s l => s.fetchLine k l) s

/-- The instruction word at an address of the code section. -/
def State.codeWord (s : State) (k va : Nat) : Option (BitVec 32) :=
  (s.codeBytes k va 4).map fun bs => BitVec.ofNat 32 (ofBytes bs)

/-- The literal loads (R182): CAP outside the code section, then ALIGN; a pending acquire comes first (R132), and the slot
taken binds at once, since the value is fixed in the same step. -/
def ldl (n : Nat) (sgn : Bool) (d : BitVec 6) (i : BitVec 19) (s : State) : Host.Outcome State Fault Refusal :=
  let va := s.task.pc + 4 * sext64 i
  let c := s.codeCap s.cur
  if !c.tag || !inBounds c va n then trap cCAP va s
  else if va.toNat % n ≠ 0 then trap cALIGN va s
  else match s.codeBytes s.cur va.toNat n with
    | none => trap cCAP va s
    | some bs => bindReady [] s fun s =>
      let raw := ofBytes bs
      let v := if sgn then BitVec.ofInt 64 (intOf (8 * n) true raw) else BitVec.ofNat 64 raw
      retire ((s.fetched s.cur va.toNat n).bump.writeInt d v s.task.momentTaint)

/-- LDL.d (R182). -/
def execLdlD (d : BitVec 6) (i : BitVec 19) (s : State) : Host.Outcome State Fault Refusal := ldl 8 false d i s

/-- LDL.w (R182): the word is sign-extended. -/
def execLdlW (d : BitVec 6) (i : BitVec 19) (s : State) : Host.Outcome State Fault Refusal := ldl 4 true d i s

/-- The PC set to a target; the instruction retires. -/
def jump (target : Word) (s : State) : Host.Outcome State Fault Refusal :=
  .next (s.mapTask fun t => { t with pc := target, retired := t.retired + 1 })

/-- The link of JAL and JALR (R206, R207): the team's code capability with cursor PC + 4. -/
def link (s : State) (taint : BitVec 8) : Reg := { s.codeCap s.cur with val := s.task.pc + 4, taint }

/-- JAL (R206). -/
def execJal (d : BitVec 6) (i : BitVec 20) (s : State) : Host.Outcome State Fault Refusal :=
  jump (s.task.pc + 4 * sext64 i) (s.writeG d.toNat (link s 0))

/-- JALR (R207): CAP, then ALIGN, before any register is written. -/
def execJalr (d a : BitVec 6) (i : BitVec 14) (s : State) : Host.Outcome State Fault Refusal :=
  if s.busyG a then stall s
  else
    let c := s.g a
    let t := c.val + 4 * sext64 i
    checked c t 4 [pEXEC] 4 s fun s => jump t (s.writeG d.toNat (link s c.taint))

/-- The branches (R205): no wait on taint. -/
def branch (cond : Word → Word → Bool) (a b : BitVec 6) (i : BitVec 14) (s : State) :
    Host.Outcome State Fault Refusal :=
  if s.busyG a || s.busyG b then stall s
  else if cond (s.g a).val (s.g b).val then jump (s.task.pc + 4 * sext64 i) s
  else retire s

/-- BEQ (R205). -/
def execBeq (a b : BitVec 6) (i : BitVec 14) (s : State) : Host.Outcome State Fault Refusal :=
  branch (· == ·) a b i s

/-- BNE (R205). -/
def execBne (a b : BitVec 6) (i : BitVec 14) (s : State) : Host.Outcome State Fault Refusal :=
  branch (· != ·) a b i s

/-- BLT (R205), signed. -/
def execBlt (a b : BitVec 6) (i : BitVec 14) (s : State) : Host.Outcome State Fault Refusal :=
  branch (fun x y => x.slt y) a b i s

/-- BGE (R205), signed. -/
def execBge (a b : BitVec 6) (i : BitVec 14) (s : State) : Host.Outcome State Fault Refusal :=
  branch (fun x y => !x.slt y) a b i s

/-- BLTU (R205). -/
def execBltu (a b : BitVec 6) (i : BitVec 14) (s : State) : Host.Outcome State Fault Refusal :=
  branch (fun x y => x.ult y) a b i s

/-- BGEU (R205). -/
def execBgeu (a b : BitVec 6) (i : BitVec 14) (s : State) : Host.Outcome State Fault Refusal :=
  branch (fun x y => !x.ult y) a b i s

/-- What R180 staggers in a field of a body instruction: nothing, a general register, a vector selector, a tile, or
an X-format operand. -/
inductive FieldKind where
  | fixed | g | v | tile | x
  deriving DecidableEq, Repr

/-- The majors a repeat body may hold (R178). -/
def bodyAllowed (w : BitVec 32) : Bool :=
  let op := (w.extractLsb' 26 6).toNat
  (1 ≤ op && op ≤ 8) || (0x29 ≤ op && op ≤ 0x2E)
    || (op == 0x2F && (w.extractLsb' 7 4 == 2#4 || w.extractLsb' 7 4 == 4#4))

/-- The kinds of a body instruction's destination and source fields (R180, R279, R305). -/
def fieldKinds (w : BitVec 32) : FieldKind × FieldKind × FieldKind :=
  let op := (w.extractLsb' 26 6).toNat
  let fn8 := (w.extractLsb' 0 8).toNat
  let fn5 := (w.extractLsb' 0 5).toNat
  if op = 1 then (.g, .g, if 0x12 ≤ fn8 then .fixed else .g)
  else if op = 8 then (.g, .g, .g)
  else if op ≤ 7 then (.g, .g, .fixed)
  else if op = 0x29 then (.v, .v, .v)
  else if op = 0x2A then (.v, .v, if fn5 / 4 = 5 then .fixed else .v)
  else if op = 0x2B then (.v, .v, .fixed)
  else if op = 0x2C then
    match fn5 / 4 with
    | 0 => (.v, .v, .v)
    | 1 => (.v, .g, .fixed)
    | 2 => (.g, .v, .g)
    | 3 => (.v, .g, .g)
    | 5 => (.v, .v, .g)
    | _ => (.v, .v, .fixed)
  else if op = 0x2D then
    if fn5 ≤ 3 then (.fixed, .fixed, .fixed)
    else if fn5 ≤ 5 then (.g, .fixed, .fixed)
    else if fn5 ≤ 0xF then (.fixed, .v, .v)
    else (.v, .v, .v)
  else if op = 0x2F && w.extractLsb' 7 4 == 2#4 then (.tile, .fixed, .fixed)
  else (.tile, .x, .x)

/-- A field value staggered by `k` (R180), wrapping in its register space. -/
def staggerField (kind : FieldKind) (n : Nat) (k : Int) : Nat :=
  let wrap := fun (v base size : Nat) => base + (((v : Int) - base + k) % size).toNat
  match kind with
  | .fixed => n
  | .g => wrap n 0 64
  | .v => if n < 32 then wrap n 0 32 else n
  | .tile => wrap n 0 8
  | .x => if 8 ≤ n && n < 16 then wrap n 8 8 else if 16 ≤ n && n < 48 then wrap n 16 32 else n

/-- A body word as the iteration with COUNT = c issues it (R180). -/
def staggerWord (f : Frame) (c : Nat) (w : BitVec 32) : BitVec 32 :=
  let (kd, ka, kb) := fieldKinds w
  let m : Int := c - 1
  if 0x2E ≤ (w.extractLsb' 26 6).toNat then
    (w.extractLsb' 26 6 : BitVec 6) ++ BitVec.ofNat 3 (staggerField kd (w.extractLsb' 23 3).toNat (f.sd * m))
      ++ BitVec.ofNat 6 (staggerField ka (w.extractLsb' 17 6).toNat (f.sa * m))
      ++ BitVec.ofNat 6 (staggerField kb (w.extractLsb' 11 6).toNat (f.sb * m)) ++ (w.extractLsb' 0 11 : BitVec 11)
  else
    (w.extractLsb' 26 6 : BitVec 6) ++ BitVec.ofNat 6 (staggerField kd (w.extractLsb' 20 6).toNat (f.sd * m))
      ++ (if ka = .fixed then (w.extractLsb' 14 6 : BitVec 6)
          else BitVec.ofNat 6 (staggerField ka (w.extractLsb' 14 6).toNat (f.sa * m)))
      ++ (if kb = .fixed then (w.extractLsb' 8 6 : BitVec 6)
          else BitVec.ofNat 6 (staggerField kb (w.extractLsb' 8 6).toNat (f.sb * m))) ++ (w.extractLsb' 0 8 : BitVec 8)

/-- R179: a general-register field names rc in some iteration that runs. Staggers repeat after 64 iterations. -/
def namesRc (f : Frame) (count : Nat) (w : BitVec 32) : Bool :=
  let (kd, ka, kb) := fieldKinds w
  let at_ := fun (kind : FieldKind) (lo : Nat) (st : Int) (m : Nat) =>
    kind == .g && staggerField .g (w.extractLsb' lo 6).toNat (st * m) == f.rc
  (List.range (min count 64)).any fun m => at_ kd 20 f.sd m || at_ ka 14 f.sa m || at_ kb 8 f.sb m

/-- REP (R178, R179, R208): the body is captured and checked, then the context's repeat frame runs. A body that reaches
outside the code section takes CAP with the address of its first such word, before the other conditions are tested (DESIGN
CHOICE, log 81). A suspended frame goes on where it was (R181). -/
def execRep (c : BitVec 6) (l d a b : BitVec 4) (s : State) : Host.Outcome State Fault Refusal :=
  if s.busyG c then stall s
  else if s.here.ctxs.any (fun (x, t) => x != s.ctx && t.occupied && (State.runningFrame t).isSome) then stall s
  else
    let pcs := (List.range (l.toNat + 1)).map fun i => s.task.pc + 4 + 4 * BitVec.ofNat 64 i
    let ws := pcs.filterMap fun p => s.codeWord s.cur p.toNat
    let f : Frame := { words := ws, rc := c.toNat, len := l.toNat + 1, sd := d.toInt, sa := a.toInt, sb := b.toInt }
    let v := (s.g c).val
    let count := (v.extractLsb' 0 32).toNat
    let next := (v.extractLsb' 32 4).toNat
    match pcs.find? fun p => (s.codeWord s.cur p.toNat).isNone with
    | some p => .next (s.takeTrap s.cur s.ctx cCAP 0 p p false)
    | none =>
      if ws.any (fun w => !bodyAllowed w || (decode w).isNone || namesRc f count w) || f.len ≤ next then
        trap cILLEGAL 0 s
      else if count = 0 then
        .next (s.bump.mapTask fun t =>
          { t with pc := t.pc + 4 + 4 * BitVec.ofNat 64 f.len, retired := t.retired + 1, frame := none })
      else .next (s.bump.mapTask fun t =>
        { t with frame := some f, retired := if t.frame.isSome then t.retired else t.retired + 1 })

/-- END (R209): a transaction is discarded first, and counted (R150); held effects are committed, the message is
consumed, and the context is left empty. -/
def execEndTask (s : State) : Host.Outcome State Fault Refusal :=
  let s := if s.task.txn.isSome then s.mapCore s.cur fun c => { c with discarded := c.discarded + 1 } else s
  let s := s.abortTxn s.cur s.ctx 5 0 false
  .next ((s.release s.cur s.ctx).endCtx s.cur s.ctx)

/-- RELEASE (R210): a release point; inside a transaction it aborts with code 5. -/
def execRelease (s : State) : Host.Outcome State Fault Refusal :=
  noTxn s fun s => retire (s.release s.cur s.ctx)

end Sys2Proof.Machine
end

