-- ==== Sys2Proof/Machine/Imm.lean ====
section
/-!
DEFINITION. The immediate forms (R190).
-/
namespace Sys2Proof.Machine

/-- ADDI (R190): the immediate is sign-extended. -/
def execAddi (d a : BitVec 6) (i : BitVec 14) (s : State) : Host.Outcome State Fault Refusal :=
  aluOp1 (fun a => a + sext64 i) d a s

/-- ANDI (R190): the immediate is sign-extended. -/
def execAndi (d a : BitVec 6) (i : BitVec 14) (s : State) : Host.Outcome State Fault Refusal :=
  aluOp1 (fun a => a &&& sext64 i) d a s

/-- ORI (R190): the immediate is sign-extended. -/
def execOri (d a : BitVec 6) (i : BitVec 14) (s : State) : Host.Outcome State Fault Refusal :=
  aluOp1 (fun a => a ||| sext64 i) d a s

/-- XORI (R190): the immediate is sign-extended. -/
def execXori (d a : BitVec 6) (i : BitVec 14) (s : State) : Host.Outcome State Fault Refusal :=
  aluOp1 (fun a => a ^^^ sext64 i) d a s

/-- SLLI (R190). -/
def execSlli (d a n : BitVec 6) (s : State) : Host.Outcome State Fault Refusal :=
  aluOp1 (fun a => a <<< n.toNat) d a s

/-- SRLI (R190). -/
def execSrli (d a n : BitVec 6) (s : State) : Host.Outcome State Fault Refusal :=
  aluOp1 (fun a => a >>> n.toNat) d a s

/-- SRAI (R190). -/
def execSrai (d a n : BitVec 6) (s : State) : Host.Outcome State Fault Refusal :=
  aluOp1 (fun a => a.sshiftRight n.toNat) d a s

/-- SLTI (R190). -/
def execSlti (d a : BitVec 6) (i : BitVec 13) (s : State) : Host.Outcome State Fault Refusal :=
  aluOp1 (fun a => flag (a.slt (sext64 i))) d a s

/-- SLTUI (R190). -/
def execSltui (d a : BitVec 6) (i : BitVec 13) (s : State) : Host.Outcome State Fault Refusal :=
  aluOp1 (fun a => flag (a.ult (i.zeroExtend 64))) d a s

end Sys2Proof.Machine
end

