-- ==== Sys2Proof/Machine/MulDiv.lean ====
section
/-!
DEFINITION. Multiply and divide (R191).
-/
namespace Sys2Proof.Machine

/-- DIV of R191: the quotient of −2^63 by −1 wraps to −2^63. -/
def divSigned (a b : Word) : Word := if b = 0 then BitVec.allOnes 64 else BitVec.ofInt 64 (a.toInt.tdiv b.toInt)

/-- MUL (R191): the low half of the product. -/
def execMul (d a b : BitVec 6) (s : State) : Host.Outcome State Fault Refusal :=
  aluOp (fun a b => a * b) d a b s

/-- MULH (R191): the high half of the signed product. -/
def execMulh (d a b : BitVec 6) (s : State) : Host.Outcome State Fault Refusal :=
  aluOp (fun a b => ((a.signExtend 128 * b.signExtend 128) >>> 64).setWidth 64) d a b s

/-- MULHU (R191): the high half of the unsigned product. -/
def execMulhu (d a b : BitVec 6) (s : State) : Host.Outcome State Fault Refusal :=
  aluOp (fun a b => ((a.setWidth 128 * b.setWidth 128) >>> 64).setWidth 64) d a b s

/-- DIV (R191): the signed quotient toward zero; all ones for a zero divisor; a itself for the overflowing pair. -/
def execDiv (d a b : BitVec 6) (s : State) : Host.Outcome State Fault Refusal :=
  aluOp (fun a b => divSigned a b) d a b s

/-- DIVU (R191): the unsigned quotient; all ones for a zero divisor. -/
def execDivu (d a b : BitVec 6) (s : State) : Host.Outcome State Fault Refusal :=
  aluOp (fun a b => if b = 0 then BitVec.allOnes 64 else a / b) d a b s

/-- REM (R191): the remainder with the sign of a; a for a zero divisor. -/
def execRem (d a b : BitVec 6) (s : State) : Host.Outcome State Fault Refusal :=
  aluOp (fun a b => if b = 0 then a else a - b * divSigned a b) d a b s

/-- REMU (R191): the unsigned remainder; a for a zero divisor. -/
def execRemu (d a b : BitVec 6) (s : State) : Host.Outcome State Fault Refusal :=
  aluOp (fun a b => if b = 0 then a else a - b * (a / b)) d a b s

end Sys2Proof.Machine
end

