-- ==== Sys2Proof/Machine/Dispatch.lean ====
section
/-!
DEFINITION. The dispatch of every instruction and step to its meaning.
-/
namespace Sys2Proof.Machine

/-- The meaning of an instruction (R167 to R175) or of a step of the machine's own. -/
def exec (i : Instr) (s : State) : Host.Outcome State Fault Refusal :=
  match i with
  | .add d a b => Sys2Proof.Machine.execAdd d a b s
  | .sub d a b => Sys2Proof.Machine.execSub d a b s
  | .and d a b => Sys2Proof.Machine.execAnd d a b s
  | .or d a b => Sys2Proof.Machine.execOr d a b s
  | .xor d a b => Sys2Proof.Machine.execXor d a b s
  | .andn d a b => Sys2Proof.Machine.execAndn d a b s
  | .sll d a b => Sys2Proof.Machine.execSll d a b s
  | .srl d a b => Sys2Proof.Machine.execSrl d a b s
  | .sra d a b => Sys2Proof.Machine.execSra d a b s
  | .ror d a b => Sys2Proof.Machine.execRor d a b s
  | .min d a b => Sys2Proof.Machine.execMin d a b s
  | .max d a b => Sys2Proof.Machine.execMax d a b s
  | .minu d a b => Sys2Proof.Machine.execMinu d a b s
  | .maxu d a b => Sys2Proof.Machine.execMaxu d a b s
  | .seq d a b => Sys2Proof.Machine.execSeq d a b s
  | .sne d a b => Sys2Proof.Machine.execSne d a b s
  | .slt d a b => Sys2Proof.Machine.execSlt d a b s
  | .sltu d a b => Sys2Proof.Machine.execSltu d a b s
  | .clz d a => Sys2Proof.Machine.execClz d a s
  | .ctz d a => Sys2Proof.Machine.execCtz d a s
  | .popc d a => Sys2Proof.Machine.execPopc d a s
  | .bswap d a => Sys2Proof.Machine.execBswap d a s
  | .addi d a imm => Sys2Proof.Machine.execAddi d a imm s
  | .andi d a imm => Sys2Proof.Machine.execAndi d a imm s
  | .ori d a imm => Sys2Proof.Machine.execOri d a imm s
  | .xori d a imm => Sys2Proof.Machine.execXori d a imm s
  | .slli d a n => Sys2Proof.Machine.execSlli d a n s
  | .srli d a n => Sys2Proof.Machine.execSrli d a n s
  | .srai d a n => Sys2Proof.Machine.execSrai d a n s
  | .slti d a imm => Sys2Proof.Machine.execSlti d a imm s
  | .sltui d a imm => Sys2Proof.Machine.execSltui d a imm s
  | .mul d a b => Sys2Proof.Machine.execMul d a b s
  | .mulh d a b => Sys2Proof.Machine.execMulh d a b s
  | .mulhu d a b => Sys2Proof.Machine.execMulhu d a b s
  | .div d a b => Sys2Proof.Machine.execDiv d a b s
  | .divu d a b => Sys2Proof.Machine.execDivu d a b s
  | .rem d a b => Sys2Proof.Machine.execRem d a b s
  | .remu d a b => Sys2Proof.Machine.execRemu d a b s
  | .cbound d a b => Sys2Proof.Machine.execCbound d a b s
  | .cperm d a b => Sys2Proof.Machine.execCperm d a b s
  | .cseal d a b => Sys2Proof.Machine.execCseal d a b s
  | .cunseal d a b => Sys2Proof.Machine.execCunseal d a b s
  | .cinc d a b => Sys2Proof.Machine.execCinc d a b s
  | .cbase d a => Sys2Proof.Machine.execCbase d a s
  | .clen d a => Sys2Proof.Machine.execClen d a s
  | .cgperm d a => Sys2Proof.Machine.execCgperm d a s
  | .ctag d a => Sys2Proof.Machine.execCtag d a s
  | .cclr d a => Sys2Proof.Machine.execCclr d a s
  | .csub d a b => Sys2Proof.Machine.execCsub d a b s
  | .cinci d a imm => Sys2Proof.Machine.execCinci d a imm s
  | .cboundi d a imm => Sys2Proof.Machine.execCboundi d a imm s
  | .tget d a => Sys2Proof.Machine.execTget d a s
  | .tmrg d a => Sys2Proof.Machine.execTmrg d a s
  | .tclr d => Sys2Proof.Machine.execTclr d s
  | .twait a => Sys2Proof.Machine.execTwait a s
  | .ldlD d imm => Sys2Proof.Machine.execLdlD d imm s
  | .ldlW d imm => Sys2Proof.Machine.execLdlW d imm s
  | .jal d imm => Sys2Proof.Machine.execJal d imm s
  | .jalr d a imm => Sys2Proof.Machine.execJalr d a imm s
  | .beq a b imm => Sys2Proof.Machine.execBeq a b imm s
  | .bne a b imm => Sys2Proof.Machine.execBne a b imm s
  | .blt a b imm => Sys2Proof.Machine.execBlt a b imm s
  | .bge a b imm => Sys2Proof.Machine.execBge a b imm s
  | .bltu a b imm => Sys2Proof.Machine.execBltu a b imm s
  | .bgeu a b imm => Sys2Proof.Machine.execBgeu a b imm s
  | .rep c l d a b => Sys2Proof.Machine.execRep c l d a b s
  | .endTask => Sys2Proof.Machine.execEndTask s
  | .release => Sys2Proof.Machine.execRelease s
  | .ldB t b imm => Sys2Proof.Machine.execLdB t b imm s
  | .ldBu t b imm => Sys2Proof.Machine.execLdBu t b imm s
  | .ldH t b imm => Sys2Proof.Machine.execLdH t b imm s
  | .ldHu t b imm => Sys2Proof.Machine.execLdHu t b imm s
  | .ldW t b imm => Sys2Proof.Machine.execLdW t b imm s
  | .ldWu t b imm => Sys2Proof.Machine.execLdWu t b imm s
  | .ldD t b imm => Sys2Proof.Machine.execLdD t b imm s
  | .stB t b imm => Sys2Proof.Machine.execStB t b imm s
  | .stH t b imm => Sys2Proof.Machine.execStH t b imm s
  | .stW t b imm => Sys2Proof.Machine.execStW t b imm s
  | .stD t b imm => Sys2Proof.Machine.execStD t b imm s
  | .ldc t b imm => Sys2Proof.Machine.execLdc t b imm s
  | .stc t b imm => Sys2Proof.Machine.execStc t b imm s
  | .lda t b s1 z x => Sys2Proof.Machine.execLda t b s1 z x s
  | .stl t b s1 z => Sys2Proof.Machine.execStl t b s1 z s
  | .fence s1 => Sys2Proof.Machine.execFence s1 s
  | .fenceSs s1 => Sys2Proof.Machine.execFenceSs s1 s
  | .pref a => Sys2Proof.Machine.execPref a s
  | .cflush a => Sys2Proof.Machine.execCflush a s
  | .cinv a => Sys2Proof.Machine.execCinv a s
  | .czero a => Sys2Proof.Machine.execCzero a s
  | .aadd d a b v => Sys2Proof.Machine.execAadd d a b v s
  | .aand d a b v => Sys2Proof.Machine.execAand d a b v s
  | .aor d a b v => Sys2Proof.Machine.execAor d a b v s
  | .axor d a b v => Sys2Proof.Machine.execAxor d a b v s
  | .amin d a b v => Sys2Proof.Machine.execAmin d a b v s
  | .amax d a b v => Sys2Proof.Machine.execAmax d a b v s
  | .aminu d a b v => Sys2Proof.Machine.execAminu d a b v s
  | .amaxu d a b v => Sys2Proof.Machine.execAmaxu d a b v s
  | .aswap d a b v => Sys2Proof.Machine.execAswap d a b v s
  | .acas d a b v => Sys2Proof.Machine.execAcas d a b v s
  | .afadd d a b v => Sys2Proof.Machine.execAfadd d a b v s
  | .lrw d a => Sys2Proof.Machine.execLrw d a s
  | .sc d a b => Sys2Proof.Machine.execSc d a b s
  | .xbegin d => Sys2Proof.Machine.execXbegin d s
  | .xend => Sys2Proof.Machine.execXend s
  | .xabort k => Sys2Proof.Machine.execXabort k s
  | .xtest d => Sys2Proof.Machine.execXtest d s
  | .xredAdd a b w => Sys2Proof.Machine.execXredAdd a b w s
  | .xredFadd a b w => Sys2Proof.Machine.execXredFadd a b w s
  | .xredMin a b w => Sys2Proof.Machine.execXredMin a b w s
  | .xredMax a b w => Sys2Proof.Machine.execXredMax a b w s
  | .sbind k n => Sys2Proof.Machine.execSbind k n s
  | .sbindr k n r => Sys2Proof.Machine.execSbindr k n r s
  | .sfifoCons k n => Sys2Proof.Machine.execSfifoCons k n s
  | .sfifoProd k n => Sys2Proof.Machine.execSfifoProd k n s
  | .sunbind k => Sys2Proof.Machine.execSunbind k s
  | .sadv k => Sys2Proof.Machine.execSadv k s
  | .sstat d k => Sys2Proof.Machine.execSstat d k s
  | .bmov d s1 n => Sys2Proof.Machine.execBmov d s1 n s
  | .bfill d p n => Sys2Proof.Machine.execBfill d p n s
  | .send n s1 p => Sys2Proof.Machine.execSend n s1 p s
  | .sendo n s1 p => Sys2Proof.Machine.execSendo n s1 p s
  | .sendr n s1 p => Sys2Proof.Machine.execSendr n s1 p s
  | .put d s1 n => Sys2Proof.Machine.execPut d s1 n s
  | .get d a => Sys2Proof.Machine.execGet d a s
  | .flushrd d a => Sys2Proof.Machine.execFlushrd d a s
  | .waitm d a => Sys2Proof.Machine.execWaitm d a s
  | .recvm d a b => Sys2Proof.Machine.execRecvm d a b s
  | .peekm d a => Sys2Proof.Machine.execPeekm d a s
  | .pmcfg d a b => Sys2Proof.Machine.execPmcfg d a b s
  | .pmpost a => Sys2Proof.Machine.execPmpost a s
  | .pmdrain d a b => Sys2Proof.Machine.execPmdrain d a b s
  | .hcopy d a => Sys2Proof.Machine.execHcopy d a s
  | .hfill d a b => Sys2Proof.Machine.execHfill d a b s
  | .hgathSum d a b => Sys2Proof.Machine.execHgathSum d a b s
  | .hgathMean d a b => Sys2Proof.Machine.execHgathMean d a b s
  | .hscat d a b => Sys2Proof.Machine.execHscat d a b s
  | .dpush d a b => Sys2Proof.Machine.execDpush d a b s
  | .dpop d a => Sys2Proof.Machine.execDpop d a s
  | .dsplit d a => Sys2Proof.Machine.execDsplit d a s
  | .dstealCluster d => Sys2Proof.Machine.execDstealCluster d s
  | .dstealSite d => Sys2Proof.Machine.execDstealSite d s
  | .dstealGrid d => Sys2Proof.Machine.execDstealGrid d s
  | .dcount d => Sys2Proof.Machine.execDcount d s
  | .mpath d a b => Sys2Proof.Machine.execMpath d a b s
  | .gjoin d a => Sys2Proof.Machine.execGjoin d a s
  | .gleave d a => Sys2Proof.Machine.execGleave d a s
  | .binit d a b => Sys2Proof.Machine.execBinit d a b s
  | .barr a b => Sys2Proof.Machine.execBarr a b s
  | .bwait d => Sys2Proof.Machine.execBwait d s
  | .bstat d a => Sys2Proof.Machine.execBstat d a s
  | .plread d a b => Sys2Proof.Machine.execPlread d a b s
  | .plcfg d a b => Sys2Proof.Machine.execPlcfg d a b s
  | .gnode d a => Sys2Proof.Machine.execGnode d a s
  | .gdec d a => Sys2Proof.Machine.execGdec d a s
  | .vld d a m w => Sys2Proof.Machine.execVld d a m w s
  | .vst d a m w => Sys2Proof.Machine.execVst d a m w s
  | .vlds d a b m w => Sys2Proof.Machine.execVlds d a b m w s
  | .vsts d a b m w => Sys2Proof.Machine.execVsts d a b m w s
  | .vgath d a b m w => Sys2Proof.Machine.execVgath d a b m w s
  | .vscat d a b m w => Sys2Proof.Machine.execVscat d a b m w s
  | .vldbc d a m w => Sys2Proof.Machine.execVldbc d a m w s
  | .vadd d a b m w => Sys2Proof.Machine.execVadd d a b m w s
  | .vsub d a b m w => Sys2Proof.Machine.execVsub d a b m w s
  | .vmul d a b m w => Sys2Proof.Machine.execVmul d a b m w s
  | .vmulh d a b m w => Sys2Proof.Machine.execVmulh d a b m w s
  | .vshl d a b m w => Sys2Proof.Machine.execVshl d a b m w s
  | .vshr d a b m w => Sys2Proof.Machine.execVshr d a b m w s
  | .vsra d a b m w => Sys2Proof.Machine.execVsra d a b m w s
  | .vand d a b m => Sys2Proof.Machine.execVand d a b m s
  | .vor d a b m => Sys2Proof.Machine.execVor d a b m s
  | .vxor d a b m => Sys2Proof.Machine.execVxor d a b m s
  | .vfadd d a b m t => Sys2Proof.Machine.execVfadd d a b m t s
  | .vfsub d a b m t => Sys2Proof.Machine.execVfsub d a b m t s
  | .vfmul d a b m t => Sys2Proof.Machine.execVfmul d a b m t s
  | .vfma d a b m t => Sys2Proof.Machine.execVfma d a b m t s
  | .vfdiv d a b m t => Sys2Proof.Machine.execVfdiv d a b m t s
  | .vfsqrt d a m t => Sys2Proof.Machine.execVfsqrt d a m t s
  | .vfmin d a b m t => Sys2Proof.Machine.execVfmin d a b m t s
  | .vfmax d a b m t => Sys2Proof.Machine.execVfmax d a b m t s
  | .vcvt d a k s1 m x t => Sys2Proof.Machine.execVcvt d a k s1 m x t s
  | .vshuf d a b m w => Sys2Proof.Machine.execVshuf d a b m w s
  | .vbcast d a m w => Sys2Proof.Machine.execVbcast d a m w s
  | .vextr d a b w => Sys2Proof.Machine.execVextr d a b w s
  | .vins d a b m w => Sys2Proof.Machine.execVins d a b m w s
  | .vslide d a b m w => Sys2Proof.Machine.execVslide d a b m w s
  | .vred d a o t m => Sys2Proof.Machine.execVred d a o t m s
  | .vscan d a o t m => Sys2Proof.Machine.execVscan d a o t m s
  | .mand d a b => Sys2Proof.Machine.execMand d a b s
  | .mor d a b => Sys2Proof.Machine.execMor d a b s
  | .mxor d a b => Sys2Proof.Machine.execMxor d a b s
  | .mnot d a => Sys2Proof.Machine.execMnot d a s
  | .mpopc d a => Sys2Proof.Machine.execMpopc d a s
  | .mfirst d a => Sys2Proof.Machine.execMfirst d a s
  | .vcmp c d a b m t => Sys2Proof.Machine.execVcmp c d a b m t s
  | .vsel d a b m w => Sys2Proof.Machine.execVsel d a b m w s
  | .vmin d a b m w => Sys2Proof.Machine.execVmin d a b m w s
  | .vmax d a b m w => Sys2Proof.Machine.execVmax d a b m w s
  | .mdot d a b f r x y z => Sys2Proof.Machine.execMdot d a b f r x y z s
  | .mopen d g r => Sys2Proof.Machine.execMopen d g r s
  | .mclose d => Sys2Proof.Machine.execMclose d s
  | .mzero d => Sys2Proof.Machine.execMzero d s
  | .muprog g => Sys2Proof.Machine.execMuprog g s
  | .mrun d a b => Sys2Proof.Machine.execMrun d a b s
  | .mrd d p g => Sys2Proof.Machine.execMrd d p g s
  | .mwr d p g => Sys2Proof.Machine.execMwr d p g s
  | .mld d c p => Sys2Proof.Machine.execMld d c p s
  | .mst d c p => Sys2Proof.Machine.execMst d c p s
  | .msumr d v r => Sys2Proof.Machine.execMsumr d v r s
  | .msumc d v r => Sys2Proof.Machine.execMsumc d v r s
  | .mmov d s1 => Sys2Proof.Machine.execMmov d s1 s
  | .csrr d c => Sys2Proof.Machine.execCsrr d c s
  | .csrw s1 c => Sys2Proof.Machine.execCsrw s1 c s
  | .sealroot d a b => Sys2Proof.Machine.execSealroot d a b s
  | .tlbinvPage d a b => Sys2Proof.Machine.execTlbinvPage d a b s
  | .tlbinvAll d a b => Sys2Proof.Machine.execTlbinvAll d a b s
  | .tlbinvStripe d a b => Sys2Proof.Machine.execTlbinvStripe d a b s
  | .rowmove d a b => Sys2Proof.Machine.execRowmove d a b s
  | .regrel d a => Sys2Proof.Machine.execRegrel d a s
  | .bankcfg d a b => Sys2Proof.Machine.execBankcfg d a b s
  | .freeze d a b => Sys2Proof.Machine.execFreeze d a b s
  | .thaw d a b => Sys2Proof.Machine.execThaw d a b s
  | .preempt d a b => Sys2Proof.Machine.execPreempt d a b s
  | .kill d a b => Sys2Proof.Machine.execKill d a b s
  | .errinj d a b => Sys2Proof.Machine.execErrinj d a b s
  | .trap k => Sys2Proof.Machine.execTrap k s
  | .bkpt => Sys2Proof.Machine.execBkpt s
  | .idle => Sys2Proof.Machine.execIdle s
  | .srseedWrite v => Sys2Proof.Machine.execSrseedWrite v s
  | .fltdoneRetry handle => Sys2Proof.Machine.execFltdoneRetry handle s
  | .fltdoneFail handle => Sys2Proof.Machine.execFltdoneFail handle s
  | .mccntRead d => Sys2Proof.Machine.execMccntRead d s
  | .csrSpread core csr v => Sys2Proof.Machine.execCsrSpread core csr v s
  | .registerWrite mod port off v => Sys2Proof.Machine.execRegisterWrite mod port off v s
  | .messageAccept m => Sys2Proof.Machine.execMessageAccept m s
  | .refuse m nolist chain => Sys2Proof.Machine.execRefuse m nolist chain s
  | .roomNotice core target id => Sys2Proof.Machine.execRoomNotice core target id s
  | .roomReservationLapse core id => Sys2Proof.Machine.execRoomReservationLapse core id s
  | .timedRetry core id => Sys2Proof.Machine.execTimedRetry core id s
  | .chainAck core target => Sys2Proof.Machine.execChainAck core target s
  | .dispatch core => Sys2Proof.Machine.execDispatch core s
  | .promotion core id => Sys2Proof.Machine.execPromotion core id s
  | .replyDeposit r => Sys2Proof.Machine.execReplyDeposit r s
  | .budget core ctx => Sys2Proof.Machine.execBudget core ctx s
  | .parkResume core ctx => Sys2Proof.Machine.execParkResume core ctx s
  | .idleWake core ctx => Sys2Proof.Machine.execIdleWake core ctx s
  | .niTransmit core ctx => Sys2Proof.Machine.execNiTransmit core ctx s
  | .storeAck core ctx => Sys2Proof.Machine.execStoreAck core ctx s
  | .flushReturn core ctx mod => Sys2Proof.Machine.execFlushReturn core ctx mod s
  | .combineSend core idx => Sys2Proof.Machine.execCombineSend core idx s
  | .remoteCopyExpiry core line => Sys2Proof.Machine.execRemoteCopyExpiry core line s
  | .storePerform core ctx op => Sys2Proof.Machine.execStorePerform core ctx op s
  | .remoteRegionAccess core ctx op => Sys2Proof.Machine.execRemoteRegionAccess core ctx op s
  | .homeAmo req => Sys2Proof.Machine.execHomeAmo req s
  | .niAtomic owner req seq => Sys2Proof.Machine.execNiAtomic owner req seq s
  | .putIncrement core ctx op req => Sys2Proof.Machine.execPutIncrement core ctx op req s
  | .forwardDone hod highest => Sys2Proof.Machine.execForwardDone hod highest s
  | .txArbitration core ctx tile write => Sys2Proof.Machine.execTxArbitration core ctx tile write s
  | .abortNotice core ctx code => Sys2Proof.Machine.execAbortNotice core ctx code s
  | .txLock core ctx home => Sys2Proof.Machine.execTxLock core ctx home s
  | .txInstall core ctx => Sys2Proof.Machine.execTxInstall core ctx s
  | .versionedEviction core ctx tile => Sys2Proof.Machine.execVersionedEviction core ctx tile s
  | .ticketBeacon site => Sys2Proof.Machine.execTicketBeacon site s
  | .ticketAdvance site counter => Sys2Proof.Machine.execTicketAdvance site counter s
  | .rowRead hod tiles => Sys2Proof.Machine.execRowRead hod tiles s
  | .lrwEnqueue core ctx op => Sys2Proof.Machine.execLrwEnqueue core ctx op s
  | .scHome core ctx op => Sys2Proof.Machine.execScHome core ctx op s
  | .leaseExpiry addr => Sys2Proof.Machine.execLeaseExpiry addr s
  | .bankDrainDone bank => Sys2Proof.Machine.execBankDrainDone bank s
  | .bankZeroDone bank => Sys2Proof.Machine.execBankZeroDone bank s
  | .hodRequest req => Sys2Proof.Machine.execHodRequest req s
  | .hodCompletion req word => Sys2Proof.Machine.execHodCompletion req word s
  | .hgathOwner bag => Sys2Proof.Machine.execHgathOwner bag s
  | .hgathCombine bag => Sys2Proof.Machine.execHgathCombine bag s
  | .hscatOwner bag => Sys2Proof.Machine.execHscatOwner bag s
  | .stealRequest victim thief ctx rest => Sys2Proof.Machine.execStealRequest victim thief ctx rest s
  | .stealResponse thief ctx got rest => Sys2Proof.Machine.execStealResponse thief ctx got rest s
  | .mailboxPost p => Sys2Proof.Machine.execMailboxPost p s
  | .barrierArrival a => Sys2Proof.Machine.execBarrierArrival a s
  | .flagNotice core record => Sys2Proof.Machine.execFlagNotice core record s
  | .clearNotice core record => Sys2Proof.Machine.execClearNotice core record s
  | .nodeStart site => Sys2Proof.Machine.execNodeStart site s
  | .nodeComplete site handle => Sys2Proof.Machine.execNodeComplete site handle s
  | .waitPoll site handle => Sys2Proof.Machine.execWaitPoll site handle s
  | .gridComplete grid => Sys2Proof.Machine.execGridComplete grid s
  | .postGo mod port => Sys2Proof.Machine.execPostGo mod port s
  | .poststatRead mod port => Sys2Proof.Machine.execPoststatRead mod port s
  | .teamPlace part => Sys2Proof.Machine.execTeamPlace part s
  | .swapOut team => Sys2Proof.Machine.execSwapOut team s
  | .swapIn team => Sys2Proof.Machine.execSwapIn team s
  | .maildropAppend team m => Sys2Proof.Machine.execMaildropAppend team m s
  | .maildropClose team => Sys2Proof.Machine.execMaildropClose team s
  | .slicePreemption part => Sys2Proof.Machine.execSlicePreemption part s
  | .relocationRequest team => Sys2Proof.Machine.execRelocationRequest team s
  | .pageWalk agent va acc => Sys2Proof.Machine.execPageWalk agent va acc s
  | .firstTouch agent va acc => Sys2Proof.Machine.execFirstTouch agent va acc s
  | .tlbinvCompletion part id => Sys2Proof.Machine.execTlbinvCompletion part id s
  | .auditAppend core msgid teamid slot epoch word => Sys2Proof.Machine.execAuditAppend core msgid teamid slot epoch word s
  | .ageouts site flit => Sys2Proof.Machine.execAgeouts site flit s
  | .injectionStarvation site plane => Sys2Proof.Machine.execInjectionStarvation site plane s
  | .reassemblyDeliver site src seq => Sys2Proof.Machine.execReassemblyDeliver site src seq s
  | .linkReplay link => Sys2Proof.Machine.execLinkReplay link s
  | .linkDead link => Sys2Proof.Machine.execLinkDead link s
  | .reroute agent owner item => Sys2Proof.Machine.execReroute agent owner item s
  | .skip owner src seq => Sys2Proof.Machine.execSkip owner src seq s
  | .windowCloseTimer agent owner => Sys2Proof.Machine.execWindowCloseTimer agent owner s
  | .close owner src seq => Sys2Proof.Machine.execClose owner src seq s
  | .laneRetire link => Sys2Proof.Machine.execLaneRetire link s
  | .linkTrain link partner domain versions => Sys2Proof.Machine.execLinkTrain link partner domain versions s
  | .eccError u correctable => Sys2Proof.Machine.execEccError u correctable s
  | .scrub site found => Sys2Proof.Machine.execScrub site found s
  | .coreLoss core => Sys2Proof.Machine.execCoreLoss core s
  | .spareTakeover core => Sys2Proof.Machine.execSpareTakeover core s
  | .siteLoss site => Sys2Proof.Machine.execSiteLoss site s
  | .siteEvacuation site => Sys2Proof.Machine.execSiteEvacuation site s
  | .evacuationTimeout site => Sys2Proof.Machine.execEvacuationTimeout site s
  | .debugAttach part => Sys2Proof.Machine.execDebugAttach part s
  | .debugDetach part => Sys2Proof.Machine.execDebugDetach part s
  | .debugResume core ctx => Sys2Proof.Machine.execDebugResume core ctx s
  | .debugStep core ctx => Sys2Proof.Machine.execDebugStep core ctx s
  | .breakTask core ctx => Sys2Proof.Machine.execBreakTask core ctx s
  | .snpinv site half => Sys2Proof.Machine.execSnpinv site half s
  | .snpdata site half => Sys2Proof.Machine.execSnpdata site half s
  | .snpcur site half => Sys2Proof.Machine.execSnpcur site half s
  | .hostRead port hpa len => Sys2Proof.Machine.execHostRead port hpa len s
  | .hostWrite port hpa data => Sys2Proof.Machine.execHostWrite port hpa data s
  | .bisnpResponse site half dirty => Sys2Proof.Machine.execBisnpResponse site half dirty s
  | .checkpointFull mod => Sys2Proof.Machine.execCheckpointFull mod s
  | .checkpointIncr mod => Sys2Proof.Machine.execCheckpointIncr mod s
  | .restore mod => Sys2Proof.Machine.execRestore mod s
  | .checkpointTimeout mod => Sys2Proof.Machine.execCheckpointTimeout mod s
  | .checkpointComplete mod => Sys2Proof.Machine.execCheckpointComplete mod s
  | .powerOn mod => Sys2Proof.Machine.execPowerOn mod s
  | .moduleReset mod => Sys2Proof.Machine.execModuleReset mod s
  | .siteReset site => Sys2Proof.Machine.execSiteReset site s
  | .hodImageUpdate mod img => Sys2Proof.Machine.execHodImageUpdate mod img s
  | .provisioned mod fwkey attkey uds => Sys2Proof.Machine.execProvisioned mod fwkey attkey uds s
  | .deploymentToken mod t => Sys2Proof.Machine.execDeploymentToken mod t s
  | .unlockToken mod t => Sys2Proof.Machine.execUnlockToken mod t s
  | .relockToken mod t => Sys2Proof.Machine.execRelockToken mod t s
  | .returnToken mod t => Sys2Proof.Machine.execReturnToken mod t s
  | .retireToken mod t => Sys2Proof.Machine.execRetireToken mod t s
  | .session mod part t => Sys2Proof.Machine.execSession mod part t s
  | .attestationReport mod port nonce => Sys2Proof.Machine.execAttestationReport mod port nonce s
  | .getVersion mod port => Sys2Proof.Machine.execGetVersion mod port s
  | .getCapabilities mod port => Sys2Proof.Machine.execGetCapabilities mod port s
  | .negotiateAlgorithms mod port sha256 aes256gcm => Sys2Proof.Machine.execNegotiateAlgorithms mod port sha256 aes256gcm s
  | .pskExchange mod port session => Sys2Proof.Machine.execPskExchange mod port session s
  | .pskFinish mod port proof => Sys2Proof.Machine.execPskFinish mod port proof s
  | .heartbeat mod port => Sys2Proof.Machine.execHeartbeat mod port s
  | .endSession mod port => Sys2Proof.Machine.execEndSession mod port s
  | .vendorDefinedRequest mod port kind arg => Sys2Proof.Machine.execVendorDefinedRequest mod port kind arg s
  | .throttleRaise site => Sys2Proof.Machine.execThrottleRaise site s
  | .throttleLower site => Sys2Proof.Machine.execThrottleLower site s
  | .thermalShutdown site => Sys2Proof.Machine.execThermalShutdown site s
  | .sensorUpdate site r => Sys2Proof.Machine.execSensorUpdate site r s
  | .capsetWrite site v => Sys2Proof.Machine.execCapsetWrite site v s
  | .powerLoss mod => Sys2Proof.Machine.execPowerLoss mod s
  | .portLost mod port => Sys2Proof.Machine.execPortLost mod port s
  | .portLinkUp port width rate cxlMajor cxlMinor features => Sys2Proof.Machine.execPortLinkUp port width rate cxlMajor cxlMinor features s
  | .porderRouterCycle site => Sys2Proof.Machine.execPorderRouterCycle site s
  | .hostCacheGrant site half state data => Sys2Proof.Machine.execHostCacheGrant site half state data s
  | .cxlIdeKeyManagement mod port key => Sys2Proof.Machine.execCxlIdeKeyManagement mod port key s
  | .siteRejoin site part => Sys2Proof.Machine.execSiteRejoin site part s
  | .regrelComplete core ctx region => Sys2Proof.Machine.execRegrelComplete core ctx region s
  | .lineFill core ctx op => Sys2Proof.Machine.execLineFill core ctx op s

end Sys2Proof.Machine
end

