-- ==== Sys2Proof/Machine/Issue.lean ====
section
/-!
DEFINITION. One turn of a core: its cycle begins (R43), the repeat sequencer and the issue stage each take their slot
(R12, R178 to R181, R380, R437), and the cycle ends, with what its passing makes due at the core and, once every core has
had its turn, at the sites (R4, R25, R26, R110, R126, R142, R155, R229, R325, R366, R376, R405, R408, R411, R437).
-/
namespace Sys2Proof.Machine

/-- An outcome continued from its next state. -/
def andThen (o : Host.Outcome State Fault Refusal) (f : State → Host.Outcome State Fault Refusal) :
    Host.Outcome State Fault Refusal :=
  match o with
  | .next s => f s
  | .fault r => .fault r
  | .refused r => .refused r

/-! Readiness. -/

/-- A context stands between instructions or the elements of a block move, or, in a repeat frame, suspended or not, between
iterations (R43, R181). -/
def atBoundary (t : Ctx) : Bool :=
  match t.frame with
  | none => true
  | some f => ((t.gr f.rc).val.extractLsb' 32 4 : BitVec 4) == 0

/-- Where a freeze halts a context (R358): at its next instruction boundary, which the elements of a block move are none of,
or at an iteration boundary. -/
def haltsHere (t : Ctx) : Bool := atBoundary t && t.blockDesc.isNone

/-- A context is ready (R380), as far as its next instruction does not stall: it holds a task, dispatched before this cycle
(R379), that is not parked, held, waiting or halted. A debugger's step of one instruction goes on in a halted context
(R412). -/
def ready (c : Core) (t : Ctx) : Bool :=
  t.occupied && t.turned != some c.cycle && t.park.isNone && t.hold.isNone && t.wait.isNone && t.idle.isNone
    && (t.stepping || (!t.halted && !(c.frozen && haltsHere t)))

/-- Whether a core issues in this cycle (R437): only where CYCLE is a multiple of 2^k at throttle level k. -/
def State.mayIssue (s : State) (k : Nat) : Bool :=
  let m := s.module (modOf k)
  m.powered && m.resetStep == 7 && (s.site (siteOf k)).live && (s.core k).cycle % 2 ^ (s.site (siteOf k)).level == 0

/-- The arithmetic unit an instruction word is for (R11, R12, R181): 1 the matrix unit (MDOT, MRUN), 2 the vector unit, 3 the
scalar pipeline, 0 none. That vector memory (major 0x28) and the matrix instructions other than MDOT and MRUN take no
unit, and that of the scalar words only the arithmetic ones (majors 0x01 to 0x08) contend, are the model's choice
(DESIGN CHOICE, log 90). -/
def unitOf (w : BitVec 32) : Nat :=
  let op := (w.extractLsb' 26 6).toNat
  if op = 0x2E ∨ (op = 0x2F ∧ w.extractLsb' 7 4 = 4#4) then 1
  else if 0x29 ≤ op ∧ op ≤ 0x2D then 2
  else if 1 ≤ op ∧ op ≤ 8 then 3
  else 0

/-! Issue. -/

/-- The word the issuing context is at (R166, R178, R180): in a running repeat frame the captured body word, staggered for
the iteration. -/
def State.nextWord (s : State) : Option (BitVec 32) :=
  match State.runningFrame s.task with
  | none => s.codeWord s.cur (State.instrPc s.task).toNat
  | some f =>
    let rc := (s.task.gr f.rc).val
    f.words[(rc.extractLsb' 32 4 : BitVec 4).toNat]?.map (staggerWord f (rc.extractLsb' 0 32 : BitVec 32).toNat)

/-- A fetch passes through the L1 instruction cache (R105); a captured body is not fetched again (R178). -/
def State.fetch (s : State) : State :=
  if (State.runningFrame s.task).isSome then s else s.fetched s.cur (State.instrPc s.task).toNat 4

/-- The issuing context's next instruction: a fetch outside the code section takes CAP with the target as PC (R166), a
word that decodes to nothing ILLEGAL (R176), any other executes. -/
def runNext (s : State) : Host.Outcome State Fault Refusal :=
  match s.nextWord with
  | none => trap cCAP (State.instrPc s.task) s
  | some w =>
    match decode w with
    | none => trap cILLEGAL 0 s.fetch
    | some i => exec i s.fetch

/-- Context `x` of core `k` tries to issue. -/
def issueFrom (k x : Nat) (s : State) : Host.Outcome State Fault Refusal :=
  runNext { s with cur := k, ctx := x, stalled := false }

/-- A debugger's step ends with one instruction (R412); a transaction that the context halts in aborts with code 10
(R149). -/
def State.stepped (s : State) (k x : Nat) : State :=
  if (s.ctxAt k x).stepping && (s.ctxAt k x).blockDesc.isNone then (s.mapCtx k x fun t => { t with stepping := false }).abortTxn k x 10 0 false else s

/-- What follows an issue (R380, R412): the pointer, and the end of a debugger's step. -/
def State.issued (s : State) (k x : Nat) : State := (s.mapCore k fun c => { c with ptr := (x + 1) % 8 }).stepped k x

/-- The issue stage (R380): the first ready context of a list issues; one that stalls, or whose unit the sequencer has
taken in this cycle (R12), leaves the slot to the next. -/
def issueSlot (k unit : Nat) : List Nat → State → Host.Outcome State Fault Refusal
  | [], s => .next s
  | x :: xs, s =>
    let t := s.ctxAt k x
    if !ready (s.core k) t || (State.runningFrame t).isSome then issueSlot k unit xs s
    else
      let taken := unit != 0 && ({ s with cur := k, ctx := x }.nextWord).any fun w => unitOf w == unit
      if taken then issueSlot k unit xs s
      else andThen (issueFrom k x s) fun s =>
        if s.stalled then issueSlot k unit xs { s with stalled := false } else .next (s.issued k x)

/-- The contexts of a core in pointer order (R380). -/
def slotOrder (p : Nat) : List Nat := (List.range 8).map fun i => (p + i) % 8

/-- The context whose repeat frame a core's sequencer runs (R179). -/
def framed (c : Core) : Option Nat :=
  (c.ctxs.find? fun (_, t) => t.occupied && (State.runningFrame t).isSome).map (·.1)

/-- The repeat sequencer's slot (R12, R178, R380): the frame's next body instruction. The frame of a context that a
translation fault holds is suspended, and REP issues again when the fault is resolved (R181). -/
def sequencerSlot (k : Nat) (s : State) (ok : Nat → State → Host.Outcome State Fault Refusal) :
    Host.Outcome State Fault Refusal :=
  match framed (s.core k) with
  | none => ok 0 s
  | some x =>
    let t := s.ctxAt k x
    if t.hold.isSome then ok 0 (s.mapCtx k x fun t => { t with frame := t.frame.map fun f => { f with suspended := true } })
    else if !ready (s.core k) t then ok 0 s
    else
      let unit := (({ s with cur := k, ctx := x }.nextWord).map unitOf).getD 0
      andThen (issueFrom k x s) fun s =>
        if s.stalled then ok 0 { s with stalled := false }
        else ok unit (s.stepped k x)

/-- Both slots of a core in one cycle: contexts that had a frame as the cycle began do not use the issue slot. -/
def coreSlots (k : Nat) (s : State) : Host.Outcome State Fault Refusal :=
  if !s.mayIssue k then .next s
  else
    let order := (slotOrder (s.core k).ptr).filter fun x => framed (s.core k) != some x
    sequencerSlot k s fun unit s => issueSlot k unit order s

/-! Cycles. -/

/-- A cycle begins (R43): it counts against the budget of every task that holds a context and is not held for a
translation fault, frozen or halted. -/
def State.beginCycle (s : State) (k : Nat) : State :=
  let count := fun (t : Ctx) => if t.occupied && t.hold.isNone && !t.halted then { t with budget := t.budget + 1 } else t
  if (s.core k).frozen || (s.core k).ctxs.isEmpty then s else s.mapCore k fun c => { c with ctxs := Sparse.mapVals count c.ctxs }

/-- Tasks whose count exceeds their budget take BUDGET at their boundary, before anything is decoded (R43, R403). -/
def takeBudgets (k : Nat) : List Nat → State → Host.Outcome State Fault Refusal
  | [], s => .next s
  | x :: xs, s =>
    let t := s.ctxAt k x
    if (s.core k).frozen || t.halted || !atBoundary t || t.budget ≤ (s.imageAt k).budget then takeBudgets k xs s
    else andThen (execBudget k x s) (takeBudgets k xs)

/-- What a core cycle's passing makes due at the core: combined requests (R142), timed retries (R26), reservations of entries (R25), the end of IDLE (R402), promotions (R378), transmissions (R28), the next dispatch
(R379), a spare (R408). -/
def coreDue (k : Nat) (c : Core) : List Event :=
  (if (c.ni.combine.head?).any (·.since + 64 ≤ c.cycle) then [.combineSend k 0] else [])
    ++ (c.ni.retry.filter fun r => r.due.any (· ≤ c.cycle)).map (fun r => .timedRetry k r.msg.id)
    ++ (c.ni.rooms.filter fun r => r.until_ ≤ c.cycle).map (fun r => .roomReservationLapse k r.id)
    ++ (c.ctxs.filter fun (_, t) => t.idle.any (· ≤ c.cycle)).map (fun (x, _) => .idleWake k x)
    ++ (c.ni.queue.filter fun e => e.cls < 3 && e.moved + 65536 ≤ (c.cycle : Int)).map (fun e => .promotion k e.msg.id)
    ++ (c.ctxs.filter fun (_, t) => (State.nextOut t).isSome).map (fun (x, _) => .niTransmit k x)
    ++ (if c.dispatched.any (· + 1 == c.cycle) || c.ni.queue.any (·.arrived.any (· + 1 == c.cycle))
          || c.ctxs.any (fun (_, t) => t.turned.any (· + 1 == c.cycle)) then [.dispatch k] else [])
    ++ (if c.lost = 1 ∧ c.copyStart + 65536 ≤ c.cycle then [.spareTakeover k] else [])

/-- What two fabric cycles' passing makes due at a site: router cycles (R319), beacons (R155), scrubs (R404), polls (R366), shootdowns
(R392), window closes (R325), the end of an evacuation (R411), throttle changes (R437). -/
def siteDue (s : State) (n : Nat) (t : Site) : List Event :=
  (if t.flits.isEmpty && t.inject.isEmpty && t.mesh.isEmpty && t.links.all (fun (_, l) => l.unacked.isEmpty) then []
   else [.porderRouterCycle n])
    ++ (t.links.filter fun (_, l) => !l.dead && l.worn t.fab).map (fun (d, _) => .laneRetire (n * 6 + d))
    ++ (if t.fab % 131072 < 2 then [.ticketBeacon n] else [])
    ++ (if t.fab % 2 ^ 30 < 2 then [.scrub n []] else [])
    ++ (t.nodes.filter fun (_, d) => nodeKind (nodeHead d) == 5 && d.phase == 2 && d.lastPoll + 1024 ≤ t.fab).map
        (fun (h, _) => .waitPoll n h)
    ++ t.shoots.map (fun h => .tlbinvCompletion ((s.partOfSite n).getD 0) (n * 2 ^ 32 + h.id))
    ++ (t.quiet.filter fun (key, since) => since + 2 ^ 20 ≤ t.fab
        && !(Sparse.get [] t.xmit (key / 2 ^ 32)).any fun x => x.owner == key % 2 ^ 32).map
        (fun (key, _) => .windowCloseTimer (key / 2 ^ 32) (key % 2 ^ 32))
    ++ (if t.evacuating.any (· + 2 ^ 27 ≤ t.fab)
          || s.cores.any (fun (k, c) => siteOf k == n && c.lost == 2 && c.copyStart + 2 ^ 26 ≤ c.cycle && c.team.isSome)
        then [.evacuationTimeout n] else [])
    ++ (if overLimit t.sensors && t.level < 3 && t.levelSince + 2 ^ 20 ≤ t.fab then [.throttleRaise n] else [])
    ++ (if !overLimit t.sensors && t.capset < t.level && t.levelSince + 2 ^ 24 ≤ t.fab then [.throttleLower n] else [])

/-- Remote copies whose time is over (R126), in the L1 caches and in the cluster caches, each of which a core of the
cluster stands for. -/
def copiesDue (s : State) : List Event :=
  (s.cores.flatMap fun (k, c) => (c.l1.filter fun l => copyOver (s.site (siteOf k)).fab l.copy).map fun l => .remoteCopyExpiry k l.line)
    ++ s.sites.flatMap fun (n, t) => t.clusters.flatMap fun (cl, ls) =>
      (ls.filter fun e => copyOver t.fab e.copy).map fun e => .remoteCopyExpiry (coreAt n (cl / 8 * 4) (cl % 8 * 4)) e.line

/-- What the passing of time makes due beyond one site: leases (R229), remote copies (R126), banks (R110), checkpoints
(R423), slices (R376). -/
def machineDue (s : State) : List Event :=
  (s.resv.filter fun (a, r) => s.lapsed a r).map (fun (a, _) => .leaseExpiry a)
    ++ copiesDue s
    ++ (s.banks.filter fun (b, x) => x.mode == .zeroing && x.since + 2048 ≤ (s.site (bankSite b)).fab).map
        (fun (b, _) => .bankZeroDone b)
    ++ (s.mods.filter fun (_, m) => m.ck.busy && !m.ck.done && m.ck.op < 2).flatMap (fun (n, m) =>
        [if m.ck.op = 0 then .checkpointFull n else .checkpointIncr n, .checkpointTimeout n])
    ++ (s.parts.filter fun (n, p) => !p.queue.isEmpty && s.teams.any fun (_, t) =>
        t.part == n && t.state == .placed && t.placedAt + 2 ^ 24 ≤ (s.core (teamCore t 0 0)).cycle).map
        (fun (n, _) => .slicePreemption n)

/-- A site's own agents send again what is due (R26, R325), and its merged machine checks leave (R405). -/
def State.siteSends (s : State) (n : Nat) : State :=
  let t := s.site n
  let s := (t.resend.filter fun (_, d) => d ≤ t.fab).foldl (fun s (m, _) => s.resendAgain n m) s
  let wake : XmitEntry → XmitEntry := fun x => if x.due.any (· ≤ t.fab) then { x with due := none } else x
  let woken := (t.xmit.filter fun (_, xs) => xs.any fun x => x.due.any (· ≤ t.fab)).map (·.1)
  let s := woken.foldl (fun s a => (s.setXmit a ((s.xmitOf a).map wake)).sendNext a) s
  s.sendChecks n

/-- Every core has had its turn: the banks end their cycle (R113), two fabric cycles pass at the sites (R4), and the steps
that could not be taken in the last cycle are tried again, before any that this one has brought. -/
def State.fabricCycle (s : State) : State :=
  let s := s.banks.foldl (fun s (b, _) => s.bankCycle b) s
  let s := { s with ticks := s.ticks + 1
                    sites := Sparse.mapVals (fun t => { t with fab := t.fab + 2 }) s.sites
                    agenda := s.nextCycle ++ s.agenda, nextCycle := [] }
  let s := s.sites.foldl (fun s (n, _) => s.siteSends n) s
  (s.sites.flatMap (fun (n, t) => siteDue s n t) ++ machineDue s).foldl (fun s e => s.pushOnce e) s

/-- The core whose turn follows that of core `k`: the next one listed, or none after the last. -/
def nextCore (s : State) (k : Nat) : Option Nat := s.cores.keys.find? (k < ·)

/-- A core's cycle ends: CYCLE counts (R212), pending operations that have become ready go on, due steps join the agenda,
and the turn passes on. A later fetch of code stored to chooses afresh (R105). -/
def State.endCycle (s : State) (k : Nat) : State :=
  let s := if s.codeStores.isEmpty then s else s.bump
  let s :=
    if s.cores.keys.contains k then
      let s := s.mapCore k fun c => { c with cycle := c.cycle + 1, tiles := c.tiles.filter fun (_, a) => !a.freed }
      let s := ((s.core k).ctxs.filter fun (_, t) => !t.pend.isEmpty).foldl (fun s (x, _) => s.kick k x) s
      (coreDue k (s.core k)).foldl (fun s e => s.pushOnce e) (s.coreSends k)
    else s
  match nextCore s k with
  | some j => { s with cur := j, ctx := 0 }
  | none => { s.fabricCycle with cur := s.cores.keys.headD 0, ctx := 0 }

/-- A core's turn: one cycle of it. What its last cycle left above a budget traps first (R43, R216). -/
def coreTurn (k : Nat) (s : State) : Host.Outcome State Fault Refusal :=
  andThen (takeBudgets k (List.range 8) s) fun s =>
    andThen (coreSlots k (s.beginCycle k)) fun s => .next (s.endCycle k)

/-! The machine's own steps between two cycles. -/

/-- The NI that a step is an operation at, with the core it came from (R24, R113, R251). -/
def State.niOp (s : State) : Event → Option (Nat × Nat)
  | .messageAccept m => some (m.dst, m.src)
  | .remoteRegionAccess k x op => (s.askedOp k x op).map fun p => (opOwner k p.place, k)
  | .niAtomic o r _ => some (o, r.core)
  | .putIncrement k x op _ => (s.findOp k x op).map fun p => (opOwner k p.place, k)
  | .stealRequest v k _ _ => some (v, k)
  | .mailboxPost p => some (p.dst, p.core)
  | .barrierArrival a => some ((s.syncOwner a.core a.blk).getD a.core, a.core)
  | _ => none

/-- When in a cycle a step is taken: the operations at an NI after what may still bring others, those from its mesh port
before those of its own cluster (R24, R251), a REROUTE after any answer (R324); then requests for tiles (R157), lock requests,
which plain writes come before (R165), the reservations asked for (R228), a host's snoops after the stores that are applied
(R426), a SITE reset after a reset of larger extent (R430), and dispatches, after promotions (R381). Of the completions of nodes
those that free a graph come first (R369). -/
def State.turnOf (s : State) (e : Event) : Nat :=
  match e, s.niOp e with
  | .reroute _ _ _, _ => 2
  | .txArbitration _ _ _ _, _ => 3
  | .txLock _ _ _, _ => 4
  | .lrwEnqueue _ _ _, _ => 5
  | .snpinv _ _, _ => 5
  | .snpdata _ _, _ => 5
  | .snpcur _ _, _ => 5
  | .siteReset _, _ => 5
  | .dispatch _, _ => 6
  | .nodeComplete st n, _ => if (s.nodeAt st n).any freesGraph then 0 else 1
  | _, none => 0
  | _, some (ni, src) => if siteOf ni = siteOf src ∧ clusterOf ni = clusterOf src then 2 else 1

/-- The age of the flit that brought a step to its agent: zero within a site (R251). -/
def State.ageOf (s : State) (e : Event) : Nat :=
  (s.sites.findSome? fun (_, t) => t.windows.findSome? fun (_, ws) => ws.findSome? fun w =>
    (w.entries.find? fun x => !x.done && x.step == some e).map (·.age)).getD 0

/-- The order of two requests for a reservation in one cycle (R228): site index, core index, context. -/
def lrwRank (k x : Nat) : Nat := ((siteOf k % 24 * 1024 + k % 1024) * 8 + x) * 8 + modOf k

/-- Whether a step is taken before another that comes before it on the agenda: by their turns; of requests for tiles the older
ticket first (R157), of requests for reservations one that has waited, then the lower place (R228), of operations at an NI the
older flit, then the lower source (R24, R251). Any others keep the agenda's order. -/
def State.before (s : State) (e f : Event) : Bool :=
  if s.turnOf e ≠ s.turnOf f then s.turnOf e < s.turnOf f
  else match e, f with
    | .txArbitration k x _ _, .txArbitration j y _ _ => older (s.ticketOf (k, x)) (s.ticketOf (j, y))
    | .lrwEnqueue k x op, .lrwEnqueue j y op' =>
      let late := fun (k x op : Nat) => (s.askedOp k x op).any (·.waited)
      if late k x op ≠ late j y op' then late k x op else !late k x op && lrwRank k x < lrwRank j y
    | _, _ => match s.niOp e, s.niOp f with
      | some (_, a), some (_, b) => s.ageOf f < s.ageOf e || (s.ageOf e == s.ageOf f && a < b)
      | _, _ => false

/-- The step that is taken next. -/
def State.nextEvent (s : State) : Option Event :=
  s.agenda.foldl (fun best e => match best with
    | none => some e
    | some f => some (if s.before e f then e else f)) none

/-- Every core has ended its cycle and none has begun the next: the machine's own steps are taken. -/
def State.between (s : State) : Bool := s.cores.keys.head? == some s.cur || !s.cores.keys.contains s.cur

/-- Some module is in service (R428). -/
def State.inService (s : State) : Bool := s.mods.any fun (_, m) => m.powered && m.resetStep == 7

end Sys2Proof.Machine
end

