-- ==== Sys2Proof/Machine/Step.lean ====
section
/-!
DEFINITION. One step of the machine: between two cycles the next step of the agenda, and when none is left, or within a
cycle, one cycle of the core whose turn it is (R113, R380); and the placing of an instruction where the next step fetches (log 31).
-/
namespace Sys2Proof.Machine

/-- One step. With no module in service and nothing under way nothing moves until an input from outside arrives. -/
def step (s : State) : Host.Outcome State Fault Refusal :=
  match if s.between || !s.inService then s.nextEvent else none with
  | some e => runEvent e { s with agenda := s.agenda.erase e }
  | none => if s.inService then coreTurn s.cur s else .fault .stopped

/-- The virtual address, storage address and size of the code section that `withFetchWord` places: the code window of
team 0 (log 11). -/
def fetchBase : Nat := 2 ^ 47

/-- The image that `withFetchWord` loads: a supervisor image of one core (R352) with default policies (R45). -/
def fetchImage : Image := { sup := true, shape := some (1, 1) }

/-- The team that `withFetchWord` places on core 0, with a code capability exactly over its section (R166). -/
def fetchTeam : Team :=
  { grid := 0, idx := 0, part := 0, image := 0, w := 1, h := 1, cls := 0, state := .placed, base := fetchBase
    codeCap := capOver [pEXEC] fetchBase 4096 }

/-- `s` as firmware leaves it once it has loaded and placed a one-core supervisor team on core 0 of site 0, in the place of the
team that stood there, whose code is the word `w` in a section of 4 KiB, and dispatched a task there (log 31): the next step
fetches and runs that word. -/
def State.withFetchWord (s : State) (_nbits w : Nat) : State :=
  let bytes := (addrRange teamStore 4).zip (wordBytes (BitVec.ofNat 32 w))
  let gone := fun (u : Nat) => u = 0 ∨ (s.core 0).team = some u
  { s.forgetCode (fun a => teamStore ≤ a && a < teamStore + 4) with
    images := Sparse.set s.images 0 fetchImage
    teams := (0, fetchTeam) :: s.teams.filter fun (u, _) => !gone u
    grids := Sparse.set s.grids 0 { part := 0, image := 0, teams := [0], w := 1, h := 1, cls := 0, oversub := false }
    windows := ⟨0, 0, fetchBase, 4096, teamStore, .code⟩ :: s.windows.filter fun w => !gone w.team
    mods := Sparse.set s.mods 0 { s.module 0 with powered := true, resetStep := 7 }
    cores := Sparse.set s.cores 0
      { (s.core 0) with team := some 0, frozen := false, lost := 0, ptr := 0
                        ctxs := [(0, { occupied := true, pc := BitVec.ofNat 64 fetchBase })] }
    mem := Mem.writeAll s.mem bytes
    agenda := [], nextCycle := [], cur := 0, ctx := 0, stalled := false }

end Sys2Proof.Machine
end

