-- ==== Sys2Proof/Safety.lean ====
section
/-!
DEFINITION. The terms in which claims about the machine are stated: what it is for an instruction to complete, what a
step leaves unchanged, and the invariant of the stored data.
-/
namespace Sys2Proof.Machine

/-- An outcome is a next state with a property. -/
def Completes (o : Host.Outcome State Fault Refusal) (p : State → Prop) : Prop := ∃ t, o = .next t ∧ p t

/-- The instruction has written register `d` with an untagged value and a zero descriptor, and retired (R63, R188). -/
def wrote (s : State) (d : BitVec 6) (v : Word) (τ : BitVec 8) : Host.Outcome State Fault Refusal :=
  .next ((s.writeG d.toNat { val := v, tag := false, desc := 0, taint := τ }).advance)

/-- The instruction has written register `d` whole, and retired. -/
def wroteReg (s : State) (d : BitVec 6) (r : Reg) : Host.Outcome State Fault Refusal :=
  .next ((s.writeG d.toNat r).advance)

/-- The instruction has retired and done nothing else. -/
def retired (s : State) : Host.Outcome State Fault Refusal := .next s.advance

/-- Every byte of storage, every granule tag and every poison mark reads as before. -/
def SameStorage (s t : State) : Prop :=
  (∀ a, Mem.read t.mem a = Mem.read s.mem a) ∧ t.tags = s.tags ∧ t.poison = s.poison

/-- Nothing outside the cores has changed: storage, the tables of the memory system, sites, modules, partitions, teams. -/
def SameOutside (s t : State) : Prop :=
  SameStorage s t ∧ t.sites = s.sites ∧ t.mods = s.mods ∧ t.banks = s.banks ∧ t.windows = s.windows
    ∧ t.regions = s.regions ∧ t.tileDirs = s.tileDirs ∧ t.resv = s.resv ∧ t.parts = s.parts ∧ t.images = s.images
    ∧ t.teams = s.teams ∧ t.grids = s.grids

/-- Only the issuing context of the issuing core has changed, and of the core outside it at most the taint of tiles:
no other core, no other context, no system register, cache, NI or agenda entry. -/
def SameOthers (s t : State) : Prop :=
  SameOutside s t ∧ t.cur = s.cur ∧ t.ctx = s.ctx ∧ t.agenda = s.agenda
    ∧ (∀ k, k ≠ s.cur → t.core k = s.core k)
    ∧ t.nextCycle = s.nextCycle ∧ (∀ x, x ≠ s.ctx → t.ctxAt s.cur x = s.ctxAt s.cur x)
    ∧ t.here.ni = s.here.ni ∧ t.here.l1 = s.here.l1 ∧ t.here.l1i = s.here.l1i ∧ t.here.dtlb = s.here.dtlb ∧ t.here.cycle = s.here.cycle
    ∧ t.here.trap0 = s.here.trap0 ∧ t.here.trap1 = s.here.trap1 ∧ t.here.trap2 = s.here.trap2 ∧ t.here.trap3 = s.here.trap3

/-- A register with some slots gone from its taint. -/
def Reg.without (r : Reg) (m : BitVec 8) : Reg := { r with taint := r.taint &&& ~~~m }
def VReg.without (r : VReg) (m : BitVec 8) : VReg := { r with taint := r.taint &&& ~~~m }
def MReg.without (r : MReg) (m : BitVec 8) : MReg := { r with taint := r.taint &&& ~~~m }

/-- The task's registers but general register `d` are as before, except for the slots of `m`, which have left their
taint; so are FPSTAT, streams, the tile map, the message, its window and its capability. -/
def SameRegs (s t : State) (d : Nat) (m : BitVec 8) : Prop :=
  (∀ n, n ≠ d → t.task.gr n = (s.task.gr n).without m) ∧ (∀ n, t.task.vr n = (s.task.vr n).without m)
    ∧ (∀ n, n ≠ 0 → t.task.mr n = (s.task.mr n).without m) ∧ t.task.fpstat = s.task.fpstat
    ∧ t.task.streams = s.task.streams ∧ t.task.tiles = s.task.tiles ∧ t.task.prog = s.task.prog
    ∧ t.task.msg = s.task.msg ∧ t.task.window = s.task.window ∧ t.task.send = s.task.send ∧ t.task.txn = s.task.txn
    ∧ t.task.released = s.task.released ∧ t.task.sack = s.task.sack ∧ t.task.peers = s.task.peers

/-- The slots of the deposits pending on general register `d` (R81). -/
def slotsOn (s : State) (d : Nat) : List Nat :=
  (s.task.pend.filter fun p => p.dest == .g d).filterMap (·.slot)

/-- The instruction stalls: nothing but the model's own mark of it changes (R33, R380). -/
def stalled (s : State) : Host.Outcome State Fault Refusal := .next { s with stalled := true }

/-- The instruction has taken a trap at its own address (R39, R183, R400). -/
def trapped (s : State) (cause : Nat) (addr : Word) : Host.Outcome State Fault Refusal :=
  .next (s.takeTrap s.cur s.ctx cause 0 (State.instrPc s.task) addr false)

/-- The instruction has held an outbound effect and retired (R36). -/
def held (s : State) (e : Effect) : Host.Outcome State Fault Refusal :=
  .next (s.mapTask fun t => { t with send := t.send ++ [{ eff := e }] }).advance

/-- The send buffer has a free entry for another held effect (R36, R37). -/
def Room (s : State) : Prop := State.heldCount s.task < 32 ∧ s.task.send.length < 32

/-- The registers of a list are neither busy nor tainted (R244). -/
def Ready (s : State) (rs : List (BitVec 6)) : Prop := ∀ r ∈ rs, s.busyG r = false ∧ (s.g r).taint = 0

/-- An access of `n` bytes at `va` through `c` passes the checks of R68, and its first byte translates to storage
address `a` at `p`; HOST memory is reached through a live port (R414). -/
def Granted (s : State) (c : Reg) (va : Word) (n : Nat) (perms : List Nat) (align : Nat) (acc : Access) (a : Nat)
    (p : Place) : Prop :=
  capFault (s.supAt s.cur) c va n perms align = none ∧ s.xlate s.cur va.toNat acc = .ok a p
    ∧ ∀ st, p = .host st → (s.portOf st).isSome = true

/-- No unit of the bytes is poisoned (R406), and a read of them meets no altered bits (R404). -/
def Clear (s : State) (as : List Nat) : Prop :=
  s.poisonedByte as = none ∧ ∀ f ∈ s.flips, as.any (State.flipMet f.1) = false

/-- A load of the bytes may bind as it issues: the context has no acquire pending (R132), and no other operation pending on
one of them than stores, whose data the load takes, prefetches and stat AMOs (R124, R141). -/
def BindsNow (s : State) (as : List Nat) : Prop :=
  (∀ l ∈ linesOf as, s.lineDraining l = false) ∧ ∀ q ∈ s.task.pend, q.acq = none
    ∧ (q.kind = .store ∨ q.kind = .pref ∨ q.req.any (·.stat) = true ∨ ∀ a ∈ as, a ∉ q.addrs)

/-- A home takes the step `e` on some bytes now: no commit has locked their tile (R161), no bank that changes its mode holds
them and no draining way their line (R112), and the host holds no half of them in the way (R418, R420). -/
def HomeOpen (s : State) (e : Event) (site : Nat) (as : List Nat) (write : Bool) : Prop :=
  s.tileLocked as = false ∧ (∀ a ∈ as, s.serves a ≠ .later) ∧ (∀ l ∈ linesOf as, s.lineDraining l = false)
    ∧ s.hostAsk site as write (some e) = none

/-- Outside a transaction, or at a place that transactions do not track (R151, R153). -/
def Untracked (s : State) (p : Place) : Prop := s.task.txn = none ∨ tracked p = false

/-- The transaction has recorded the tile of `va`, which its own module holds, for the access (R151). -/
def Recorded (s : State) (tx : Txn) (va : Word) (p : Place) (write : Bool) : Prop :=
  s.task.txn = some tx ∧ ∃ st sl st' sl' a, p = .home st sl ∧ st / 24 = modOf s.cur ∧ st' / 24 = modOf s.cur
    ∧ s.xlate s.cur (va.toNat / 1024 * 1024) .read = .ok a (.home st' sl')
    ∧ (a / 256 ∈ tx.writes ∨ (write = false ∧ a / 256 ∈ tx.reads))

/-- A part of a range that a read which binds at once finds in place: it translates to a place other than HOST memory
that no transaction of the context tracks, with no poison and no altered bits (R404, R406), with nothing pending before it, no draining way that still holds a line of it (R112), no tile of it locked (R158) and no half of
it modified in a host cache (R420). -/
def partRead (s : State) (va : Word) (n : Nat) (rel : Bool) : Option Located :=
  match s.xlate s.cur va.toNat .read with
  | .ok a p =>
    let as := addrRange a n
    let plain := match p with
      | .home st _ => s.task.txn.isNone && (s.hostAsk st as false none).isNone
          && (List.range n).all fun i => a + i < 2 ^ 45 || 2 ^ 48 ≤ a + i
      | .host _ => false
      | .share _ => !rel
      | _ => true
    let before := fun (q : PendOp) => q.acq.isSome
      || (q.kind != .store && q.kind != .pref && !q.req.any (·.stat) && q.addrs.any as.contains)
    let clear := (s.poisonedByte as).isNone && !s.flips.any fun f => as.any (State.flipMet f.1)
    if plain && clear && !s.task.pend.any before && !(linesOf as).any s.lineDraining && !s.tileLocked as then some ⟨va, n, a, p⟩ else none
  | _ => none

/-- What a read of a range that binds at once finds, block by block, where nothing makes it wait and it is no release
point: its storage addresses, its bytes, and the state with its lines in L1 (R104). -/
def plainRead (s : State) (va : Word) (n : Nat) (rel : Bool) : Option (List Nat × List Byte × State) :=
  (blockParts va n).foldr (fun (x, _, len) (k : List Located → Option (List Nat × List Byte × State)) ls =>
    (partRead s x len rel).bind fun l => k (ls ++ [l])) (fun ls =>
      let t := ls.foldl (fun s l => if tracked l.place then
        s.loadLines s.cur (State.placeMod s.cur l.place != modOf s.cur) l.bytes else s) s
      some (ls.flatMap Located.bytes, ls.flatMap fun l => l.bytes.map (t.byteNow false), t)) []

/-- What a range of a hod request translates to for agent `g`, block by block, where no block of it faults (R254, R366): its storage
addresses, and the state with the entries' A and D bits set and first touches made. -/
def hodPlain (g : Agent) (r : HodReq) (site slice va n : Nat) (acc : Access) (s : State) : Option (List Nat × State) :=
  (blockParts (BitVec.ofNat 64 va) n).foldr
    (fun (x, _, len) (k : List Nat → State → Option (List Nat × State)) as s =>
      if s.faultOpen (s.agentPlace g).1 (s.agentPlace g).2 x.toNat then none
      else match s.agentXlate r.part r.sup site (site, slice) x.toNat acc with
      | (s, .inl a) => k (as ++ addrRange a len) s
      | (_, .inr _) => none) (fun as s => some (as, s)) [] s

/-- The number of contexts of the issuing core that are parked (R34). -/
def parkedHere (s : State) : Nat := (s.here.ctxs.filter fun (_, t) => t.park.isSome).length

/-- The issuing context has parked (R33). -/
def parkedAs (s : State) (p : Park) : Host.Outcome State Fault Refusal :=
  .next (s.mapTask fun t => { t with park := some p, parkAt := s.here.cycle })

/-- A state in which an instruction of several accesses has not stalled or parked since `s` (R42), nor popped poisoned data (R403). -/
def Calm (s t : State) : Prop := t.stalled = false ∧ t.task.park = s.task.park ∧ t.task.late = s.task.late

/-- The streams that an instruction pops and the one it appends to are ready (R235, R239, R276): their registers await
nothing, each is bound for its part, and inside a transaction none would park (R150). -/
def StreamsReady (s : State) (pops : List Nat) (app : Option Nat) (wide : Bool) : Prop :=
  (∀ k ∈ pops ++ app.toList, ∀ b, Sparse.find s.task.streams k = some b → s.task.streamBusy b = false)
    ∧ (∀ k ∈ pops, popIllegal s.task wide k = false) ∧ (∀ k, app = some k → appendIllegal s.task k = false)
    ∧ (s.task.txn = none ∨ ∀ k ∈ pops ++ app.toList, s.wouldPark k = false)

/-- An instruction of several accesses has retired: what it popped is bound, and a release point that its reads are is
passed (R37, R76). -/
def finished (s : State) : Host.Outcome State Fault Refusal :=
  .next (s.advance.popsDone.mapTask fun t => { t with late := none })

/-- A vector source (R175, R276): a register that awaits nothing, or a stream whose pop delivers an element; `t` is the
state after it is read. -/
def Source (s : State) (f : BitVec 6) (x : VReg) (t : State) : Prop :=
  (f.toNat < 32 ∧ s.busyV f.toNat = false ∧ x = s.v f.toNat ∧ t = s)
    ∨ (32 ≤ f.toNat ∧ ∃ e : Elem, x = { val := vecOf e.bytes, taint := e.taint } ∧ ∀ ok, pop (f.toNat - 32) false s ok = ok e t)

/-- A vector result of lanes `new` and taint `τ` (R275, R276): a register's active lanes are written, its taint joining
where the instruction merges; a stream gets every lane, zero where inactive, and `o` is what comes of it. -/
def Delivers (s t : State) (d : BitVec 6) (w : Nat) (mask : MReg) (merge : Bool) (new : List Nat) (τ : BitVec 8)
    (o : Host.Outcome State Fault Refusal) : Prop :=
  let n := 512 / w
  let val := fun old => ofLanes w ((List.range n).map fun i => if mask.val.getLsbD i then new.getD i 0 else old i)
  (d.toNat < 32 →
      let old := t.v d.toNat
      o = finished (t.writeV d.toNat
        { val := val (lane w old.val), taint := τ ||| mask.taint ||| if merge then old.taint else 0 }))
    ∧ (32 ≤ d.toNat → ∀ u, (∀ ok, append (d.toNat - 32) (vecBytes (val fun _ => 0)) (τ ||| mask.taint) t ok = ok u) →
        Calm s u → o = finished u)

/-- The pieces of an access stand at `ls` (R280, R307): each translates to its storage address at a place, HOST memory
through a live port; read pieces are clear. -/
def PiecesAt (s : State) (acc : Access) (xs : List Piece) (ls : List Located) : Prop :=
  ls.map (fun l => (l.va, l.len)) = xs ∧ ∀ l ∈ ls, s.xlate s.cur l.va.toNat acc = .ok l.addr l.place
    ∧ (∀ st, l.place = .host st → (s.portOf st).isSome = true)
    ∧ (acc = .read → Clear s l.bytes)

/-- Every piece passes the checks of R68. -/
def PiecesHeld (s : State) (c : Reg) (perm align : Nat) (xs : List Piece) : Prop :=
  ∀ x ∈ xs, capFault (s.supAt s.cur) c x.1 x.2 [perm] align = none

/-- A store of several pieces as it issues (R281, R282, R307): one operation for each 128-byte line, in rising
order, with the bytes of the last piece that has them. -/
def piecesStored (s : State) (ws : List (Located × List Byte)) (τ : BitVec 8) : State :=
  let cells := pieceCells ws
  ((cells.map fun (a, _) => a / 128).foldl insertNat []).foldl (fun s n =>
    let cs := cells.filter fun (a, _) => a / 128 == n
    s.issueStore { op := 0, gen := 0, kind := .store, va := ((ws.map (·.1)).head?.map (·.va)).getD 0, addrs := cs.map (·.1), data := cs.map fun (_, b, _) => b
                   place := (cs.head?.map fun (_, _, p) => p).getD .own, deps := τ }) s

/-- The lines of a store of several pieces fit the store-acknowledge counter (R130). -/
def PiecesCounted (s : State) (ws : List (Located × List Byte)) : Prop :=
  s.task.sack + (((pieceCells ws).filter fun (_, _, p) => State.placeMod s.cur p == modOf s.cur).map fun (a, _) => a / 128).dedup.length ≤ 64

/-- The element of a tile at an index. -/
def elemAt (t : Tile) (n : Nat) : Word := Sparse.get 0 t.elems n

/-- The stored data of a state: memory in its canonical form (R2, log 2). -/
def State.Canonical (s : State) : Prop := Mem.wf s.mem = true

end Sys2Proof.Machine
end

