-- ==== Sys2Proof/Certificates/Slice0/Obligations.lean ====
section
/-!
DEFINITION. The statements for the provers.
-/
open Sys2Proof Sys2Proof.Machine

/-- The two-register integer instructions complete with the results of R189, taken as numbers. CLZ, CTZ, POPC and
BSWAP complete with the counts and the byte order of R189. The immediate forms complete with the results of R190. -/
def Obligations.IntegerResults : Prop :=
  (∀ (s : State) (d a b : BitVec 6), s.busyG a = false → s.busyG b = false →
     let x := (s.g a).val
     let y := (s.g b).val
     let gives := fun i v => exec i s = wrote s d v ((s.g a).taint ||| (s.g b).taint)
     gives (.add d a b) (BitVec.ofNat 64 (x.toNat + y.toNat))
       ∧ gives (.sub d a b) (BitVec.ofInt 64 (x.toInt - y.toInt))
       ∧ gives (.and d a b) (x &&& y) ∧ gives (.or d a b) (x ||| y) ∧ gives (.xor d a b) (x ^^^ y)
       ∧ gives (.andn d a b) (x &&& ~~~y)
       ∧ gives (.sll d a b) (BitVec.ofNat 64 (x.toNat * 2 ^ (y.toNat % 64)))
       ∧ gives (.srl d a b) (BitVec.ofNat 64 (x.toNat / 2 ^ (y.toNat % 64)))
       ∧ gives (.sra d a b) (BitVec.ofInt 64 (x.toInt / 2 ^ (y.toNat % 64)))
       ∧ gives (.ror d a b) (x >>> (y.toNat % 64) ||| x <<< (64 - y.toNat % 64))
       ∧ gives (.min d a b) (if x.toInt < y.toInt then x else y)
       ∧ gives (.max d a b) (if x.toInt < y.toInt then y else x)
       ∧ gives (.minu d a b) (if x.toNat < y.toNat then x else y)
       ∧ gives (.maxu d a b) (if x.toNat < y.toNat then y else x)
       ∧ gives (.seq d a b) (if x = y then 1 else 0) ∧ gives (.sne d a b) (if x = y then 0 else 1)
       ∧ gives (.slt d a b) (if x.toInt < y.toInt then 1 else 0)
       ∧ gives (.sltu d a b) (if x.toNat < y.toNat then 1 else 0))
    ∧ (∀ (s : State) (d a : BitVec 6), s.busyG a = false →
         let x := (s.g a).val
         let gives := fun i (p : Word → Prop) => ∃ v, exec i s = wrote s d v (s.g a).taint ∧ p v
         gives (.clz d a) (fun v => v.toNat ≤ 64 ∧ (v = 64 ↔ x = 0)
             ∧ (∀ i, i < v.toNat → x.getMsbD i = false) ∧ (v.toNat < 64 → x.getMsbD v.toNat = true))
           ∧ gives (.ctz d a) (fun v => v.toNat ≤ 64 ∧ (v = 64 ↔ x = 0)
             ∧ (∀ i, i < v.toNat → x.getLsbD i = false) ∧ (v.toNat < 64 → x.getLsbD v.toNat = true))
           ∧ gives (.popc d a) (fun v => v.toNat = ((List.range 64).map fun i => if x.getLsbD i then 1 else 0).sum)
           ∧ gives (.bswap d a) (fun v => ∀ i, i < 8 → v.extractLsb' (8 * i) 8 = x.extractLsb' (8 * (7 - i)) 8))
    ∧ (∀ (s : State) (d a n : BitVec 6) (i : BitVec 14) (k : BitVec 13), s.busyG a = false →
         let x := (s.g a).val
         let gives := fun i v => exec i s = wrote s d v (s.g a).taint
         gives (.addi d a i) (BitVec.ofInt 64 (x.toInt + i.toInt))
           ∧ gives (.andi d a i) (x &&& BitVec.ofInt 64 i.toInt) ∧ gives (.ori d a i) (x ||| BitVec.ofInt 64 i.toInt)
           ∧ gives (.xori d a i) (x ^^^ BitVec.ofInt 64 i.toInt)
           ∧ gives (.slli d a n) (BitVec.ofNat 64 (x.toNat * 2 ^ n.toNat))
           ∧ gives (.srli d a n) (BitVec.ofNat 64 (x.toNat / 2 ^ n.toNat))
           ∧ gives (.srai d a n) (BitVec.ofInt 64 (x.toInt / 2 ^ n.toNat))
           ∧ gives (.slti d a k) (if x.toInt < k.toInt then 1 else 0)
           ∧ gives (.sltui d a k) (if x.toNat < k.toNat then 1 else 0))

/-- The multiply and divide instructions complete with the results of R191, the corners of division included. -/
def Obligations.MultiplyDivideResults : Prop :=
  ∀ (s : State) (d a b : BitVec 6), s.busyG a = false → s.busyG b = false →
    let x := (s.g a).val
    let y := (s.g b).val
    let ones := BitVec.ofInt 64 (-1)
    let gives := fun i v => exec i s = wrote s d v ((s.g a).taint ||| (s.g b).taint)
    gives (.mul d a b) (BitVec.ofNat 64 (x.toNat * y.toNat))
      ∧ gives (.mulh d a b) (BitVec.ofInt 64 (x.toInt * y.toInt / 2 ^ 64))
      ∧ gives (.mulhu d a b) (BitVec.ofNat 64 (x.toNat * y.toNat / 2 ^ 64))
      ∧ gives (.div d a b)
          (if y = 0 then ones else if x = 0x8000000000000000#64 ∧ y = ones then x
           else BitVec.ofInt 64 (x.toInt.tdiv y.toInt))
      ∧ gives (.divu d a b) (if y = 0 then ones else BitVec.ofNat 64 (x.toNat / y.toNat))
      ∧ gives (.rem d a b)
          (if y = 0 then x else if x = 0x8000000000000000#64 ∧ y = ones then 0
           else BitVec.ofInt 64 (x.toInt.tmod y.toInt))
      ∧ gives (.remu d a b) (if y = 0 then x else BitVec.ofNat 64 (x.toNat % y.toNat))

/-- Writing a general register (R60, R81, R183): the register holds what was written, unless it is g0, which discards
it and reads as untagged, untainted zero; a deposit pending on it is cancelled, so it is busy no more, and the slots
of cancelled deposits may leave taints, that of what was written among them; nothing else changes. -/
def Obligations.WriteRegister : Prop :=
  ∀ (s : State) (d : BitVec 6) (r : Reg), ∃ m : BitVec 8,
    let t := s.writeG d.toNat r
    SameOthers s t ∧ SameRegs s t d.toNat m ∧ t.task.pc = s.task.pc ∧ t.task.retired = s.task.retired
      ∧ t.task.frame = s.task.frame
      ∧ (∀ i, m.getLsbD i = true → i ∈ slotsOn s d.toNat)
      ∧ (d ≠ 0 → t.g d = { r with taint := s.cancelTaint (.g d.toNat) r.taint } ∧ t.busyG d = false)
      ∧ (d = 0 → t = s ∧ t.g d = { val := 0, tag := false, desc := 0, taint := 0 })

/-- The capability instructions complete with the results of R193 to R199. CBOUND and CBOUNDI complete (R194), and a
tagged result grants no more than its source and contains the request: its bounds decode to the narrowest rounding
outward of [cursor, cursor + length), which lies within the old bounds, and its permissions and object type are the
source's. -/
def Obligations.CapabilityResults : Prop :=
  (∀ (s : State) (d a b : BitVec 6) (k : BitVec 13), s.busyG a = false →
     let c := s.g a
     let x := s.g b
     let one := fun i (r : Reg) => exec i s = wroteReg s d { r with taint := c.taint }
     let two := fun i (r : Reg) => s.busyG b = false → exec i s = wroteReg s d { r with taint := c.taint ||| x.taint }
     let moved := fun n : Word => { val := c.val + n, desc := c.desc, taint := 0
                                    tag := c.tag && (n == 0 || (capOtype c.desc == 0 && representable c (c.val + n))) : Reg }
     let pb := (capBounds x.desc x.val).1
     let pt := (capBounds x.desc x.val).2
     two (.cinc d a b) (moved x.val) ∧ one (.cinci d a k) (moved (BitVec.ofInt 64 k.toInt))
       ∧ two (.cperm d a b) { val := c.val, tag := c.tag && capOtype c.desc == 0
                              desc := (capPerms c.desc &&& x.val.extractLsb' 0 12) ++ c.desc.extractLsb' 0 52 }
       ∧ two (.cseal d a b)
           { val := c.val, desc := capPerms c.desc ++ (x.val.extractLsb' 0 12 : BitVec 12) ++ c.desc.extractLsb' 0 40
             tag := decide (c.tag = true ∧ capOtype c.desc = 0 ∧ x.tag = true ∧ capOtype x.desc = 0 ∧ hasPerm x.desc pSEAL = true
               ∧ pb ≤ x.val.toNat ∧ x.val.toNat < pt
               ∧ (x.val.toNat = 1 ∨ (0x100 ≤ x.val.toNat ∧ x.val.toNat ≤ 0xFFF))) }
       ∧ two (.cunseal d a b)
           { val := c.val
             desc := (if hasPerm x.desc pGLOBAL then capPerms c.desc else capPerms c.desc &&& 0xFFD#12)
                       ++ (0 : BitVec 12) ++ c.desc.extractLsb' 0 40
             tag := decide (c.tag = true ∧ capOtype c.desc ≠ 0 ∧ x.tag = true ∧ capOtype x.desc = 0 ∧ hasPerm x.desc pUNSEAL = true
               ∧ x.val.toNat = (capOtype c.desc).toNat ∧ pb ≤ x.val.toNat ∧ x.val.toNat < pt) }
       ∧ one (.cbase d a) { val := BitVec.ofNat 64 (capBounds c.desc c.val).1 }
       ∧ one (.cgperm d a) { val := BitVec.ofNat 64 ((capOtype c.desc).toNat * 4096 + (capPerms c.desc).toNat) }
       ∧ one (.ctag d a) { val := if c.tag then 1 else 0 }
       ∧ one (.cclr d a) { val := c.val, desc := c.desc, tag := false }
       ∧ two (.csub d a b)
           { val := if c.tag = true ∧ x.tag = true ∧ capOtype c.desc = capOtype x.desc
                       ∧ (∀ i : Fin 12, hasPerm x.desc i = true → hasPerm c.desc i = true)
                       ∧ (capBounds c.desc c.val).1 ≤ pb ∧ pt ≤ (capBounds c.desc c.val).2 then 1 else 0 }
       ∧ (((capBounds c.desc c.val).1 ≤ (capBounds c.desc c.val).2 →
           one (.clen d a) { val := if (capBounds c.desc c.val).2 - (capBounds c.desc c.val).1 < 2 ^ 64
             then BitVec.ofNat 64 ((capBounds c.desc c.val).2 - (capBounds c.desc c.val).1) else BitVec.allOnes 64 })))
    ∧ (∀ (s : State) (d a b : BitVec 6) (k : BitVec 13), s.busyG a = false →
         let c := s.g a
         let narrow := fun (i : Instr) (len : Nat) (τ : BitVec 8) => ∃ (r : Reg) (e : Nat),
           exec i s = wroteReg s d r ∧ r.val = c.val ∧ r.taint = τ
             ∧ capPerms r.desc = capPerms c.desc ∧ capOtype r.desc = capOtype c.desc
             ∧ e ≤ 47 ∧ capE r.desc = e
             ∧ (r.tag = true → c.tag = true ∧ capOtype c.desc = 0
                 ∧ (capBounds r.desc r.val).1 = c.val.toNat / 2 ^ e * 2 ^ e
                 ∧ (capBounds r.desc r.val).2 = (c.val.toNat + len + 2 ^ e - 1) / 2 ^ e * 2 ^ e
                 ∧ (capBounds c.desc c.val).1 ≤ (capBounds r.desc r.val).1
                 ∧ (capBounds r.desc r.val).2 ≤ (capBounds c.desc c.val).2)
             ∧ (∀ e', e' < e → 0x1EFFF < (c.val.toNat + len + 2 ^ e' - 1) / 2 ^ e' - c.val.toNat / 2 ^ e')
         narrow (.cboundi d a k) k.toNat c.taint
           ∧ (s.busyG b = false → narrow (.cbound d a b) (s.g b).val.toNat (c.taint ||| (s.g b).taint)))

/-- CSUB (R199): its word, and its result. -/
def Obligations.SubsetTest : Prop :=
  ∀ (s : State) (d a b : BitVec 6), s.busyG a = false → s.busyG b = false →
    let c := s.g a
    let x := s.g b
    let subset := c.tag = true ∧ x.tag = true ∧ capOtype c.desc = capOtype x.desc
      ∧ (∀ i : Fin 12, hasPerm x.desc i = true → hasPerm c.desc i = true)
      ∧ (capBounds c.desc c.val).1 ≤ (capBounds x.desc x.val).1 ∧ (capBounds x.desc x.val).2 ≤ (capBounds c.desc c.val).2
    decode (0x09#6 ++ d ++ a ++ b ++ 0x0A#8) = some (.csub d a b)
      ∧ (subset → exec (.csub d a b) s = wrote s d 1 (c.taint ||| x.taint))
      ∧ (¬ subset → exec (.csub d a b) s = wrote s d 0 (c.taint ||| x.taint))

/-- TMRG and TCLR (R202, R203): their words; they stall while a register they name is busy; otherwise gd's taint
becomes the union, or empty, and its value, tag and descriptor, the slots and the pending deposits stay as they are.
-/
def Obligations.TaintMergeClear : Prop :=
  ∀ (s : State) (d a : BitVec 6),
    let put := fun (τ : BitVec 8) => .next (s.mapTask fun t => t.putG d.toNat { s.g d with taint := τ }).advance
    decode (0x0B#6 ++ d ++ a ++ 0#6 ++ 1#8) = some (.tmrg d a) ∧ decode (0x0B#6 ++ d ++ 0#6 ++ 0#6 ++ 2#8) = some (.tclr d)
      ∧ (s.busyG d = false → s.busyG a = false → exec (.tmrg d a) s = put ((s.g d).taint ||| (s.g a).taint))
      ∧ (s.busyG d = true ∨ s.busyG a = true → exec (.tmrg d a) s = stalled s)
      ∧ (s.busyG d = false → exec (.tclr d) s = put 0) ∧ (s.busyG d = true → exec (.tclr d) s = stalled s)

/-- TGET and TWAIT (R201, R204): TGET writes ga's mask, without the slots that the cancelling of a deposit due in gd
binds in that cycle (R81), and does not wait for ga; TWAIT completes once no slot that ga<7:0> names is in use and
stalls until then. -/
def Obligations.TaintReads : Prop :=
  ∀ (s : State) (d a : BitVec 6),
    decode (0x0B#6 ++ d ++ a ++ 0#6 ++ 0#8) = some (.tget d a)
      ∧ exec (.tget d a) s = wrote s d (BitVec.ofNat 64 (s.cancelTaint (.g d.toNat) (s.g a).taint).toNat) 0
      ∧ (s.busyG a = false → (s.g a).val.extractLsb' 0 8 &&& s.task.slots = 0 → exec (.twait a) s = retired s)
      ∧ (s.busyG a = false → (s.g a).val.extractLsb' 0 8 &&& s.task.slots ≠ 0 → exec (.twait a) s = stalled s)

/-- Jumps and branches (R205 to R207) complete: the PC takes the target, and the link is the team's code capability at
PC + 4. A branch does not look at taint. The literal loads (R182, R105, R132) complete, no acquire pending, with the
bytes of the code section at PC + 4 · imm19, LDL.w sign-extended, and the written register is untainted, unless its
slot is shared (R74); the model reads bytes stored to since placement old or new by a free value, and moves on to the
next. Where the rules are silent it rests on the model's reading (logs 5 and 70). -/
def Obligations.ControlFlow : Prop :=
  (∀ (s : State) (d a b : BitVec 6) (i : BitVec 14) (j : BitVec 20),
     let x := (s.g a).val
     let y := (s.g b).val
     let pc := s.task.pc
     let link := fun τ => { s.codeCap s.cur with val := pc + 4, taint := τ : Reg }
     let goes := fun (w : State) (target : Word) =>
       Host.Outcome.next (w.mapTask fun t => { t with pc := target, retired := t.retired + 1 })
     let branches := fun ins (taken : Bool) =>
       exec ins s = if taken then goes s (pc + BitVec.ofInt 64 (4 * i.toInt)) else retired s
     exec (.jal d j) s = goes (s.writeG d.toNat (link 0)) (pc + BitVec.ofInt 64 (4 * j.toInt))
       ∧ (s.busyG a = false →
           capFault (s.supAt s.cur) (s.g a) (x + BitVec.ofInt 64 (4 * i.toInt)) 4 [pEXEC] 4 = none →
           exec (.jalr d a i) s = goes (s.writeG d.toNat (link (s.g a).taint)) (x + BitVec.ofInt 64 (4 * i.toInt)))
       ∧ (s.busyG a = false → s.busyG b = false →
           branches (.beq a b i) (x == y) ∧ branches (.bne a b i) (x != y)
             ∧ branches (.blt a b i) (decide (x.toInt < y.toInt)) ∧ branches (.bge a b i) (decide (y.toInt ≤ x.toInt))
             ∧ branches (.bltu a b i) (decide (x.toNat < y.toNat)) ∧ branches (.bgeu a b i) (decide (y.toNat ≤ x.toNat))))
    ∧ (∀ (s : State) (d : BitVec 6) (i : BitVec 19),
         let va := s.task.pc + BitVec.ofInt 64 (4 * i.toInt)
         let c := s.codeCap s.cur
         let loads := fun ins n (f : Nat → Word) => ∀ bs, c.tag = true → inBounds c va n = true → va.toNat % n = 0 →
           s.codeBytes s.cur va.toNat n = some bs → (∀ q ∈ s.task.pend, q.acq = none) →
           exec ins s = wrote { s.fetched s.cur va.toNat n with free := (s.fetched s.cur va.toNat n).free + 1 } d (f (ofBytes bs))
             s.task.momentTaint
         loads (.ldlD d i) 8 (BitVec.ofNat 64) ∧ loads (.ldlW d i) 4 (fun n => (BitVec.ofNat 32 n).signExtend 64)
           ∧ (c.tag = false → exec (.ldlD d i) s = trapped s cCAP va ∧ exec (.ldlW d i) s = trapped s cCAP va))

/-- REP (R178, R181, R208) completes: with COUNT above zero the context's repeat frame holds the fields of the
instruction and the captured body, with COUNT zero the PC stands after the body; a frame that a translation fault had
suspended goes on and retires nothing. Its body words must be of the code section and allowed, none may name rc, and
NEXT must be below the length (R179). A field of a body instruction is staggered by `m` times its stagger in iteration
COUNT = m + 1 (R180): general registers wrap in 64, vector registers in 32, tiles in 8; a field that names no register
stays. Retiring (R43, R178, R181): outside a running repeat frame the PC moves on by four bytes. In one the PC stays
at REP; after body instruction i, NEXT becomes i + 1; after the last one, COUNT falls by one and NEXT becomes 0; after
the last iteration the PC stands after the body and the frame is over. Register rc is written with zero in bits 63:36.
Nothing else changes. -/
def Obligations.Repeats : Prop :=
  (∀ (s : State) (c : BitVec 6) (l d a b : BitVec 4) (ws : List (BitVec 32)),
     let count := (s.g c).val.toNat % 2 ^ 32
     let len := l.toNat + 1
     let f : Frame := { words := ws, rc := c.toNat, len, sd := d.toInt, sa := a.toInt, sb := b.toInt }
     s.busyG c = false → s.here.ctxs.all (fun (x, t) => x == s.ctx || !t.occupied || (State.runningFrame t).isNone) = true →
     (s.g c).val.toNat / 2 ^ 32 % 16 < len →
     (List.range len).map (fun i => s.codeWord s.cur (s.task.pc + 4 + 4 * BitVec.ofNat 64 i).toNat) = ws.map some →
     ws.all (fun w => bodyAllowed w && (decode w).isSome && !namesRc f count w) = true →
     exec (.rep c l d a b) s = .next (({ s with free := s.free + 1 }).mapTask fun t =>
       if count = 0 then { t with pc := t.pc + 4 + 4 * BitVec.ofNat 64 len, retired := t.retired + 1, frame := none }
       else { t with frame := some f, retired := if t.frame = none then t.retired + 1 else t.retired }))
    ∧ (∀ (n : Nat) (k : Int), n < 64 →
         staggerField .fixed n k = n ∧ staggerField .g n k < 64 ∧ (staggerField .g n k - (n : Int) - k) % 64 = 0
           ∧ (n < 32 → staggerField .v n k < 32 ∧ (staggerField .v n k - (n : Int) - k) % 32 = 0)
           ∧ (32 ≤ n → staggerField .v n k = n)
           ∧ (n < 8 → staggerField .tile n k < 8 ∧ (staggerField .tile n k - (n : Int) - k) % 8 = 0))
    ∧ (∀ s : State, SameOthers s s.advance ∧ s.advance.task.retired = s.task.retired + 1
         ∧ (State.runningFrame s.task = none → SameRegs s s.advance 0 0 ∧ s.advance.task.pc = s.task.pc + 4
             ∧ s.advance.task.frame = s.task.frame)
         ∧ ∀ f, State.runningFrame s.task = some f → f.rc ≠ 0 → f.rc < 64 →
           let rc := (s.task.gr f.rc).val
           let count := (rc.extractLsb' 0 32 : BitVec 32)
           let next := (rc.extractLsb' 32 4 : BitVec 4).toNat
           SameRegs s s.advance f.rc 0
             ∧ (next + 1 < f.len → f.len ≤ 16 → s.advance.task.pc = s.task.pc ∧ s.advance.task.frame = some f
                 ∧ (s.advance.task.gr f.rc).val = BitVec.ofNat 64 ((next + 1) * 2 ^ 32 + count.toNat))
             ∧ (next + 1 = f.len → (s.advance.task.gr f.rc).val = (count - 1).setWidth 64
                 ∧ (count ≠ 1 → s.advance.task.pc = s.task.pc ∧ s.advance.task.frame = some f)
                 ∧ (count = 1 → s.advance.task.pc = s.task.pc + 4 + BitVec.ofNat 64 (4 * f.len)
                     ∧ s.advance.task.frame = none)))

/-- END and RELEASE (R150, R209, R210) complete: END discards an open transaction and counts it, passes a release
point and leaves the context empty; RELEASE passes a release point outside a transaction, and aborts one with code 5.
A release point (R37, R39): every held effect is committed, with those that were committed before and in program
order; no queue entry is kept; the task counts as released; its registers, its PC and all storage stay. What END and a
trap leave of a context (R47, R61, R209, R295): no task, no registers, no streams, tiles, taint or held effects. -/
def Obligations.TasksEnd : Prop :=
  (∀ s : State,
     (s.task.txn = none → exec .endTask s = .next ((s.release s.cur s.ctx).endCtx s.cur s.ctx)
         ∧ exec .release s = retired (s.release s.cur s.ctx))
       ∧ (s.task.txn.isSome = true → exec .release s = .next (s.abortTxn s.cur s.ctx 5 0 false)
         ∧ let u := (s.mapCore s.cur fun c => { c with discarded := c.discarded + 1 }).abortTxn s.cur s.ctx 5 0 false
           exec .endTask s = .next ((u.release s.cur s.ctx).endCtx s.cur s.ctx)))
    ∧ (∀ s : State,
         let t := s.release s.cur s.ctx
         t.task.send.map (·.eff) = s.task.send.map (·.eff) ∧ t.task.send.all (·.committed) = true
           ∧ t.task.entry = none ∧ t.task.taken = [] ∧ t.task.released = true ∧ t.task.pc = s.task.pc
           ∧ t.task.g = s.task.g ∧ t.task.v = s.task.v ∧ t.task.m = s.task.m ∧ t.task.pend = s.task.pend
           ∧ SameStorage s t ∧ t.cur = s.cur ∧ t.ctx = s.ctx)
    ∧ (∀ s : State,
         let t := (s.endCtx s.cur s.ctx)
         t.task.occupied = false ∧ t.task.g = [] ∧ t.task.v = [] ∧ t.task.m = [] ∧ t.task.streams = [] ∧ t.task.tiles = []
           ∧ t.task.slots = 0 ∧ t.task.frame = none ∧ t.task.txn = none ∧ t.task.entry = none ∧ t.task.taken = []
           ∧ t.task.gen = s.task.gen ∧ t.cur = s.cur ∧ t.ctx = s.ctx ∧ (s.task.pend = [] → SameStorage s t))

/-- The record of a terminating trap (R400), field by field, and where it goes: the trap registers of the core. The
trap itself ends the task unless it is torn or its retries are used up (R39, R41): its message, and the messages it
took, return to the head of the queue, its own with the retry count one higher. -/
def Obligations.TrapTaken : Prop :=
  ∀ (s : State) (cause code : Nat) (pc addr : Word),
    let t := s.task
    let u := s.takeTrap s.cur s.ctx cause code pc addr false
    let w1 := u.here.trap1
    t.released = false → cause ≠ cPOISON → t.msg.retry < (s.imageAt s.cur).retry →
      u.here.trap0 = t.msg.id ∧ u.here.trap2 = pc ∧ u.here.trap3 = addr
        ∧ (cause < 256 → code < 4096 → t.msg.payload.length ≤ 256 → s.ctx < 8 → t.gen < 256 → t.msg.retry < 16
            → t.msg.handler < 4096 →
          w1.toNat % 2 ^ 8 = cause ∧ w1.toNat / 2 ^ 16 % 2 ^ 12 = t.msg.handler ∧ w1.toNat / 2 ^ 28 % 16 = t.msg.retry
            ∧ w1.toNat / 2 ^ 32 % 2 ^ 8 = t.gen ∧ w1.toNat / 2 ^ 40 % 8 = s.ctx
            ∧ w1.toNat / 2 ^ 43 % 2 ^ 9 = t.msg.payload.length ∧ w1.toNat / 2 ^ 52 = code)
        ∧ u.here.ni.queue = t.taken ++ t.entry.toList.map (fun e => { e with msg := { e.msg with retry := t.msg.retry + 1 } })
            ++ s.here.ni.queue
        ∧ u.here.ni.replays = min (s.here.ni.replays + 1) 0xFFFFFFFF
        ∧ u.task.occupied = false ∧ u.task.g = [] ∧ (t.pend = [] → SameStorage s u)

/-- Every access checks its capability before it does anything (R68, R183, R217): where a check fails, the trap has
its cause and the address of the access. One instruction of every kind of access. The checks of R68 in order, and what
they are: tag, seal, permissions and SYS, then bounds, each CAP; then alignment. -/
def Obligations.AccessChecks : Prop :=
  (∀ (s : State) (t b : BitVec 6) (i : BitVec 10) (j : BitVec 14) (v : BitVec 4) (sc : BitVec 3) (z : BitVec 2)
       (x : BitVec 1) (cause : Nat),
     s.busyG b = false → s.busyG t = false → s.task.txn = none →
     let c := s.g b
     let fails := fun ins va n perms align =>
       capFault (s.supAt s.cur) c va n perms align = some cause → exec ins s = trapped s cause va
     let at_ := fun n : Nat => c.val + BitVec.ofInt 64 (n * i.toInt)
     fails (.ldB t b i) (at_ 1) 1 [pLD] 1 ∧ fails (.ldH t b i) (at_ 2) 2 [pLD] 2 ∧ fails (.ldW t b i) (at_ 4) 4 [pLD] 4
       ∧ fails (.ldD t b i) (at_ 8) 8 [pLD] 8 ∧ fails (.ldc t b i) (at_ 16) 16 [pLD] 16
       ∧ fails (.stB t b i) (at_ 1) 1 [pST] 1 ∧ fails (.stH t b i) (at_ 2) 2 [pST] 2 ∧ fails (.stW t b i) (at_ 4) 4 [pST] 4
       ∧ fails (.stD t b i) (at_ 8) 8 [pST] 8 ∧ fails (.stc t b i) (at_ 16) 16 [pST] 16
       ∧ fails (.lda t b sc z x) c.val (2 ^ z.toNat) [pLD] (2 ^ z.toNat)
       ∧ fails (.stl t b sc z) c.val (2 ^ z.toNat) [pST] (2 ^ z.toNat)
       ∧ fails (.jalr t b j) (c.val + BitVec.ofInt 64 (4 * j.toInt)) 4 [pEXEC] 4
       ∧ fails (.get t b) c.val 8 [pLD] 8 ∧ fails (.lrw t b) c.val 8 [pLD] 8
       ∧ fails (.aadd t b t v) c.val 8 [pLD, pST] 8)
    ∧ (∀ (sup : Bool) (c : Reg) (x : Word) (n align : Nat) (perms : List Nat), 0 < align →
         let ok := c.tag = true ∧ capOtype c.desc = 0 ∧ (∀ p ∈ perms, hasPerm c.desc p = true)
           ∧ (sup = true ∨ hasPerm c.desc pSYS = false)
           ∧ (capBounds c.desc c.val).1 ≤ x.toNat ∧ x.toNat + n ≤ (capBounds c.desc c.val).2
         (capFault sup c x n perms align = some cCAP ↔ ¬ ok)
           ∧ (capFault sup c x n perms align = some cALIGN ↔ ok ∧ x.toNat % align ≠ 0)
           ∧ (capFault sup c x n perms align = none ↔ ok ∧ x.toNat % align = 0))

/-- The loads complete (R217 to R220, R37): outside a transaction, or at a place it does not track, the operation is
issued with its bytes and its acquire scope; a load from another core's region is a release point first. A load that
leaves the core (R74, R75, R77): its destination is busy and tainted by the lowest free slot of 0 to 6, or 7, and by
the taint of its address; the slot is in use. Where the rules are silent it rests on the model's reading (log 50). -/
def Obligations.LoadsIssue : Prop :=
  (∀ (s : State) (t b : BitVec 6) (i : BitVec 10) (sc : BitVec 3) (z : BitVec 2) (x : BitVec 1) (a : Nat) (p : Place),
     s.busyG b = false → Untracked s p →
     let c := s.g b
     let load := fun ins va n fin acq => Granted s c va n [pLD] n .read a p → Clear s (addrRange a n) →
       exec ins s = retired ((if remoteShare p then s.releasePoint else s).issueLoad (gDest t)
         { op := 0, gen := 0, kind := .load, va, addrs := addrRange a n, fin, place := p, acq } c.taint)
     let at_ := fun n : Nat => c.val + BitVec.ofInt 64 (n * i.toInt)
     load (.ldB t b i) (at_ 1) 1 (.int 1 true) none ∧ load (.ldBu t b i) (at_ 1) 1 (.int 1 false) none
       ∧ load (.ldH t b i) (at_ 2) 2 (.int 2 true) none ∧ load (.ldHu t b i) (at_ 2) 2 (.int 2 false) none
       ∧ load (.ldW t b i) (at_ 4) 4 (.int 4 true) none ∧ load (.ldWu t b i) (at_ 4) 4 (.int 4 false) none
       ∧ load (.ldD t b i) (at_ 8) 8 (.int 8 false) none
       ∧ load (.ldc t b i) (at_ 16) 16 (.cap (hasPerm c.desc pLDC)) none
       ∧ ((s.task.txn = none ∨ sc.toNat < 4) →
           load (.lda t b sc z x) c.val (2 ^ z.toNat) (.int (2 ^ z.toNat) (x == 1)) (some sc.toNat)))
    ∧ (∀ (s : State) (d : BitVec 6) (p : PendOp) (τ : BitVec 8) (st sl : Nat),
         d ≠ 0 → s.task.pend = [] → p.kind = .load → p.place = .home st sl → (∀ a ∈ p.addrs, s.l1Hit s.cur [a] = false ∧ s.clusterHit s.cur [a] = false) →
         p.addrs ≠ [] → p.rel = none → p.after = [] →
         let u := s.issueLoad (.g d.toNat) p τ
         let n := s.task.slotFor
         u.busyG d = true ∧ (u.g d).taint = slotBit n ||| τ ∧ (u.g d).val = (s.g d).val
           ∧ u.task.slots = s.task.slots ||| slotBit n
           ∧ (n < 7 → s.task.slots.getLsbD n = false) ∧ (∀ m, m < n → m < 7 → s.task.slots.getLsbD m = true) ∧ n ≤ 7
           ∧ (∀ e : BitVec 6, e ≠ d → u.g e = s.g e) ∧ u.mem = s.mem ∧ u.tags = s.tags)

/-- The stores complete (R217 to R220, R69, R71, R130): the operation is issued with the low bytes of the data
register and its release scope; STC also stores the descriptor and the tag, and a tagged value needs STC, and GLOBAL
outside the team's own regions; CZERO (R221) stores zero to the whole line of its address. STC of a tagged value
without STC, or of one without GLOBAL outside the team's regions, takes CAP and stores nothing (R71, R219). -/
def Obligations.StoresIssue : Prop :=
  (∀ (s : State) (t b : BitVec 6) (i : BitVec 10) (sc : BitVec 3) (z : BitVec 2) (a : Nat) (p : Place),
     s.busyG b = false → Untracked s p → s.counterFull p = false →
     let c := s.g b
     let v := s.g t
     let store := fun ins va n align data tags τ rel => Granted s c va n [pST] align .write a p →
       exec ins s = retired (s.issueStore
         { op := 0, gen := 0, kind := .store, va, addrs := addrRange a n, data, tags, place := p, deps := τ, rel })
     let at_ := fun n : Nat => c.val + BitVec.ofInt 64 (n * i.toInt)
     let plain := fun ins n => store ins (at_ n) n n (bytesOf n v.val.toNat) [] (c.taint ||| v.taint) none
     (s.busyG t = false → plain (.stB t b i) 1 ∧ plain (.stH t b i) 2 ∧ plain (.stW t b i) 4 ∧ plain (.stD t b i) 8
       ∧ ((v.tag = true → hasPerm c.desc pSTC = true
             ∧ (hasPerm v.desc pGLOBAL = true ∨ s.inTeamRegions s.cur (at_ 16).toNat = true)) →
           store (.stc t b i) (at_ 16) 16 16 (bytesOf 8 v.val.toNat ++ bytesOf 8 v.desc.toNat) [(a / 16, v.tag)]
             (c.taint ||| v.taint) none)
       ∧ ((s.task.txn = none ∨ sc.toNat < 4) →
           store (.stl t b sc z) c.val (2 ^ z.toNat) (2 ^ z.toNat) (bytesOf (2 ^ z.toNat) v.val.toNat) []
             (c.taint ||| v.taint) (some sc.toNat)))
       ∧ store (.czero b) (BitVec.ofNat 64 (c.val.toNat / 128 * 128)) 128 1 (List.replicate 128 0) [] c.taint none)
    ∧ (∀ (s : State) (t b : BitVec 6) (i : BitVec 10), s.busyG b = false → s.busyG t = false →
         let c := s.g b
         let va := c.val + BitVec.ofInt 64 (16 * i.toInt)
         capFault (s.supAt s.cur) c va 16 [pST] 16 = none → (s.g t).tag = true →
         (hasPerm c.desc pSTC = false
           ∨ (hasPerm (s.g t).desc pGLOBAL = false ∧ s.inTeamRegions s.cur va.toNat = false)) →
         exec (.stc t b i) s = trapped s cCAP va)

/-- Inside a transaction, an access to a recorded tile of the module's own memory (R151, R154): a load binds at once
to what the transaction sees, its own speculative bytes first, where nothing pending keeps it (R124, R132), its line
in L1; a store changes those and nothing else. A speculative store (R154): the transaction finds the new bytes, every
other byte it sees and all storage are as before, and the granules it touches read untagged to it. Where the rules are
silent it rests on the model's reading (log 51). -/
def Obligations.TransactionalAccesses : Prop :=
  (∀ (s : State) (t b : BitVec 6) (i : BitVec 10) (a st sl : Nat) (tx : Txn),
     s.busyG b = false → (s.g b).taint = 0 →
     let c := s.g b
     let va := c.val + BitVec.ofInt 64 (8 * i.toInt)
     let as := addrRange a 8
     (Granted s c va 8 [pLD] 8 .read a (.home st sl) → Recorded s tx va (.home st sl) false → Clear s as →
         s.hostAsk st as false none = none → BindsNow s as →
         let u := s.hostUse st as false
         exec (.ldD t b i) s = retired ((u.loadLines s.cur false as).bindNow (gDest t) (.int 8 false) 0
           (as.map fun x => (Sparse.find tx.spec x).getD (Mem.read s.mem x)) (u.specTag (a / 16))))
       ∧ (s.busyG t = false → (s.g t).taint = 0 → Granted s c va 8 [pST] 8 .write a (.home st sl) →
           Recorded s tx va (.home st sl) true →
           exec (.stD t b i) s = retired (s.specWrite (as.zip (bytesOf 8 (s.g t).val.toNat)) [])))
    ∧ (∀ (s : State) (ws : List (Nat × Byte)) (x : Nat), s.task.txn.isSome = true → (ws.map (·.1)).Nodup →
         let u := s.specWrite ws []
         u.specByte u.task x = ((ws.find? fun w => w.1 == x).map (·.2)).getD (s.specByte s.task x)
           ∧ ((ws.any fun w => w.1 / 16 == x / 16) = true → u.specTag (x / 16) = false) ∧ SameStorage s u
           ∧ u.task.g = s.task.g)

/-- A load from the core's own region, by a context with nothing outstanding on a core without remote copies, brings
its bytes into the register at once, little-endian and extended as the instruction says (R76, R123, R217, R218): the
result is untagged and, its slot bound again, untainted; all storage stays. -/
def Obligations.OwnRegionLoad : Prop :=
  ∀ (s : State) (t b : BitVec 6) (i : BitVec 10) (a : Nat),
    t ≠ 0 → s.task.pend = [] → s.task.send = [] → s.task.divert = [] → s.task.slots = 0 → s.task.frame = none → (s.g b).taint = 0 → (∀ l ∈ s.here.l1, l.copy = none) →
    let load := fun ins (n : Nat) (v : Nat → Word) =>
      Granted s (s.g b) ((s.g b).val + BitVec.ofInt 64 (n * i.toInt)) n [pLD] n .read a .own → Clear s (addrRange a n) →
      s.tileLocked (addrRange a n) = false → (∀ x ∈ addrRange a n, s.serves x = .now) →
      Completes (exec ins s) fun u =>
        u.g t = { val := v (ofBytes ((addrRange a n).map (Mem.read s.mem))), tag := false, desc := 0, taint := 0 }
          ∧ (∀ d : BitVec 6, d ≠ t → (u.g d).val = (s.g d).val ∧ (u.g d).tag = (s.g d).tag ∧ (u.g d).desc = (s.g d).desc)
          ∧ u.task.pend = [] ∧ SameStorage s u
    load (.ldB t b i) 1 (fun n => (BitVec.ofNat 8 n).signExtend 64) ∧ load (.ldBu t b i) 1 (BitVec.ofNat 64)
      ∧ load (.ldH t b i) 2 (fun n => (BitVec.ofNat 16 n).signExtend 64) ∧ load (.ldHu t b i) 2 (BitVec.ofNat 64)
      ∧ load (.ldW t b i) 4 (fun n => (BitVec.ofNat 32 n).signExtend 64) ∧ load (.ldWu t b i) 4 (BitVec.ofNat 64)
      ∧ load (.ldD t b i) 8 (BitVec.ofNat 64)

/-- A store is performed at its home (R123, R69): STORE_PERFORM, and for another core's region REMOTE_REGION_ACCESS,
give each of its bytes the value it carries; every other byte reads as before, no granule it touches keeps a tag but
those STC sets, and every other tag stays. A store to units that their bank backs no more changes nothing (R112, log
78). No other store of the context is one that its core's own bank ports would perform next (R113). An atomic is one
read-modify-write (R225, R226): its bytes become the result of the operation on what they held, every other byte
stays, and what goes back is the old value, for HOME_AMO at the hod, or at the CXL agent where a live port (R414) and
what an acquire needs of the host (R419) are there, and for NI_ATOMIC at a core's NI. No store of the core that its
bank ports would perform next (R113) waits for it. The value an AMO leaves in memory (R225, R231; all but the
floating-point additions), from the word `m`, the operand `o` and the compare value `e`. -/
def Obligations.Performed : Prop :=
  (∀ (s : State) (k x op : Nat) (p : PendOp), s.findOp k x op = some p → p.kind = .store →
     p.data.length = p.addrs.length → p.addrs.Nodup →
     (∀ q ∈ (s.ctxAt k x).pend, q.op ≠ op → q.kind = .store → State.localPlace q.place = false) →
     let lands := fun u : State =>
       ((∀ a ∈ p.addrs, s.placeServes p.place a = .now) → (∀ g ∈ p.tags, s.placeServes p.place (g.1 * 16) = .now) →
           u.readMem p.addrs = p.data ∧ (∀ a, a ∉ p.addrs → Mem.read u.mem a = Mem.read s.mem a)
             ∧ (p.tags = [] → ∀ gr, u.tags.contains gr = (s.tags.contains gr && !p.addrs.any fun a => a / 16 == gr))
             ∧ (∀ gr b, p.tags = [(gr, b)] → (u.tags.contains gr = b)
                 ∧ ∀ gr', gr' ≠ gr → u.tags.contains gr' = (s.tags.contains gr' && !p.addrs.any fun a => a / 16 == gr')))
         ∧ ((∀ a ∈ p.addrs, s.placeServes p.place a = .never) → (∀ g ∈ p.tags, s.placeServes p.place (g.1 * 16) = .never) →
             (∀ a, Mem.read u.mem a = Mem.read s.mem a) ∧ u.tags = s.tags)
     (HomeOpen s (.storePerform k x op) (opSite k p.place) p.addrs true → Completes (exec (.storePerform k x op) s) lands)
       ∧ (∀ o, p.place = .share o → (s.core o).lost ≠ 1 → (∀ q ∈ (s.ctxAt k x).owed, q.op ≠ op) →
           HomeOpen s (.remoteRegionAccess k x op) (opSite k p.place) p.addrs true →
           Completes (exec (.remoteRegionAccess k x op) s) lands))
    ∧ (∀ (s : State) (r : AmoReq) (k : Nat),
         let n := if 16 ≤ r.op then 4 else 8
         let as := addrRange r.addr n
         let old := ofBytes (as.map (Mem.read s.mem))
         let new := (State.amoResult r.op (BitVec.ofNat 64 old) r.opnd r.cmp).toNat
         let st := if r.addr < 2 ^ 45 then paSite r.addr else siteOf r.core
         let applied := fun u : State =>
           as.map (Mem.read u.mem) = bytesOf n new ∧ ∀ y, y ∉ as → Mem.read u.mem y = Mem.read s.mem y
         let answers := fun u : State => ∀ x gen op d, r.ret = some (x, gen, op, d) →
           ∃ rep : Reply, Event.replyDeposit rep ∈ u.agenda ∧ rep.core = r.core ∧ rep.ctx = x ∧ rep.gen = gen ∧ rep.op = op
             ∧ rep.val = BitVec.ofNat 64 old
         (∀ a ∈ as, s.regionServes a = .now) →
         (r.ret = none → ∀ x, ∀ q ∈ (s.ctxAt r.core x).pend, q.kind = .store → State.localPlace q.place = false) →
           (HomeOpen s (.homeAmo r) st as true → s.amoHold st r (.homeAmo r) = none →
               (r.addr < 2 ^ 45 ∨ 2 ^ 48 ≤ r.addr ∨ (s.portOf st).isSome = true) → s.heldBack (agentHod (paSite r.addr) (paSlice r.addr)) (.homeAmo r) = false →
               Completes (exec (.homeAmo r) s) fun u => applied u ∧ (s.windowOf (.homeAmo r) = none → answers u))
             ∧ (HomeOpen s (.niAtomic k r none) (siteOf k) as true → s.heldBack (agentNi k) (.niAtomic k r none) = false →
                 (s.core k).lost ≠ 1 → Completes (exec (.niAtomic k r none) s) fun u =>
                   applied u ∧ (s.windowOf (.niAtomic k r none) = none → answers u)))
    ∧ (∀ m o e : Word,
         let lo := fun w : Word => w.toNat % 2 ^ 32
         let low := fun op => (State.amoResult op m o e).toNat % 2 ^ 32
         let s32 := fun w : Word => (BitVec.ofNat 32 w.toNat).toInt
         State.amoResult 0 m o e = m + o ∧ State.amoResult 1 m o e = m &&& o ∧ State.amoResult 2 m o e = m ||| o
           ∧ State.amoResult 3 m o e = m ^^^ o ∧ State.amoResult 4 m o e = (if m.toInt < o.toInt then m else o)
           ∧ State.amoResult 5 m o e = (if m.toInt < o.toInt then o else m)
           ∧ State.amoResult 6 m o e = (if m.toNat < o.toNat then m else o)
           ∧ State.amoResult 7 m o e = (if m.toNat < o.toNat then o else m)
           ∧ State.amoResult 8 m o e = o ∧ State.amoResult 9 m o e = (if m = e then o else m)
           ∧ low 16 = (lo m + lo o) % 2 ^ 32 ∧ low 18 = (if s32 m < s32 o then lo m else lo o)
           ∧ low 19 = (if s32 m < s32 o then lo o else lo m))

/-- Fences and cache operations complete (R130, R135, R142, R221). FENCE has nothing to wait for once its combined
requests are sent, the context's values are bound, its effects transmitted, its counter zero and its peers flushed; at
DOMAIN and SYSTEM it drops remote copies. FENCE.ss takes its place in the order. PREF asks for a line it may fetch.
CFLUSH and CINV drop a line from the caches of the cluster, and a HOST line's halves from the site (R418); a dirty one
is written back, and counted. Where the rules are silent it rests on the model's reading (log 79). -/
def Obligations.FencesAndCaches : Prop :=
  ∀ (s : State) (sc : BitVec 3) (a : BitVec 6),
    let c := s.g a
    let f := s.combineFlush s.cur s.ctx s.task.opNo
    let adds := fun (u : State) (p : PendOp) => retired ((u.addOp p).kick s.cur s.ctx)
    let drops := fun ins => ∀ b p, c.taint = 0 → s.xlate s.cur c.val.toNat .read = .ok b p →
      let dirty := (s.clusterFind s.cur (b / 128)).any (·.state.isDirty)
      let u := (s.dropLine s.cur (b / 128)).evictHalves (siteOf s.cur) (b / 128)
      (tracked p = false → exec ins s = retired s)
        ∧ (tracked p = true → dirty = false → exec ins s = retired u)
        ∧ (tracked p = true → dirty = true → s.counterFull p = false →
            exec ins s = adds (u.countOp (modOf s.cur)) { op := 0, gen := 0, kind := .clean, place := p, counted := true })
    (s.task.txn = none →
        (f.task.pend.all (fun p => !unboundOp p && p.kind != .fenceSs) = true → f.task.sack = 0 → State.nextOut f.task = none →
            (sc.toNat < 4 ∨ State.flushOver f.task f.task.flush = true) →
            let g := f.mapTask fun t => { t with flush := none }
            exec (.fence sc) s = retired (if 4 ≤ sc.toNat then g.dropCopies s.cur else g))
          ∧ exec (.fenceSs sc) s = adds s { op := 0, gen := 0, kind := .fenceSs, rel := some sc.toNat }
          ∧ (s.busyG a = false → capFault (s.supAt s.cur) c c.val 1 [pLD] 1 = none →
              (∀ b p, s.xlateHomed s.cur c.val.toNat .read = .ok b p → tracked p = true →
                (∀ st, p = .host st → (s.portOf st).isSome = true) →
                let as := addrRange (b / 128 * 128) 128
                s.poisonedByte as = none →
                exec (.pref a) s = adds s { op := 0, gen := 0, kind := .pref, va := c.val, addrs := as, place := p, deps := c.taint })
                ∧ drops (.cflush a) ∧ drops (.cinv a))
          ∧ (s.busyG a = false → (capFault (s.supAt s.cur) c c.val 1 [pLD] 1).isSome = true → exec (.pref a) s = retired s))
      ∧ (s.task.txn.isSome = true → (4 ≤ sc.toNat →
            exec (.fence sc) s = .next (s.abortTxn s.cur s.ctx 4 0 false)
              ∧ exec (.fenceSs sc) s = .next (s.abortTxn s.cur s.ctx 4 0 false))
          ∧ exec (.cflush a) s = retired s ∧ exec (.cinv a) s = retired s ∧ (s.busyG a = false → exec (.pref a) s = retired s))

/-- An element of BFILL and of BMOV (R222 to R224) completes: with gn zero they only retire; otherwise BFILL stores up
to the end of its 128-byte line the pattern's bytes by their addresses, BMOV copies from the end that its overlap asks
for as it begins, and the registers move on by what was done, so that the next issue goes on from there in the same
direction; the last element retires the instruction. Where the rules are silent it rests on the model's reading (log
103). -/
def Obligations.BlockMoves : Prop :=
  ∀ (s : State) (d r n : BitVec 6) (a : Nat) (p : Place),
    s.busyG d = false → s.busyG r = false → s.busyG n = false → s.task.txn = none →
    let left := (s.g n).val.toNat
    let dd := (s.g d).val.toNat
    let ss := (s.g r).val.toNat
    let moved := fun (moves : List (BitVec 6)) (len : Nat) (desc : Bool) (u : State) =>
      let u := u.writeG n.toNat { val := BitVec.ofNat 64 (left - len) }
      let u := if desc then u else moves.foldl (fun u q =>
        u.writeG q.toNat { u.g q with val := (u.g q).val + BitVec.ofNat 64 len }) u
      let u := u.mapTask fun t => { t with blockDesc := if left = len then none else some desc }
      if left = len then u.advance else u
    let stores := fun (u : State) (va : Word) (len : Nat) (data : List Byte) (tags : List (Nat × Bool)) =>
      u.issueStore { op := 0, gen := 0, kind := .store, va, addrs := addrRange a len, data, tags, place := p }
    (left = 0 → exec (.bfill d r n) s = .next s.advance ∧ exec (.bmov d r n) s = .next s.advance)
      ∧ (left ≠ 0 → (s.g d).taint = 0 → (s.g r).taint = 0 → (s.g n).taint = 0 → s.counterFull p = false →
          (let len := min left (dd / 128 * 128 + 128 - dd);
            Granted s (s.g d) (s.g d).val len [pST] 1 .write a p →
              exec (.bfill d r n) s = .next (moved [d] len false (stores s (s.g d).val len
                ((List.range len).map fun j => (s.g r).val.extractLsb' (8 * ((dd + j) % 8)) 8) [])))
          ∧ (let desc := s.task.blockDesc.getD (decide (ss < dd ∧ dd < ss + left));
            let lo := if desc then max dd ((dd + left - 1) / 128 * 128) else dd
            let len := if desc then dd + left - lo else min left (dd / 128 * 128 + 128 - dd)
            let lo64 := BitVec.ofNat 64 lo
            let from_ := (s.g r).val + BitVec.ofNat 64 (lo - dd)
            Granted s (s.g d) lo64 len [pST] 1 .write a p → capFault (s.supAt s.cur) (s.g r) from_ len [pLD] 1 = none →
              (plainRead s from_ len false).isSome →
              ∃ src bytes t, plainRead s from_ len false = some (src, bytes, t)
                ∧ exec (.bmov d r n) s = .next (moved [d, r] len desc
                  (stores t lo64 len bytes (t.blockTags (s.g d) (s.g r) lo64 src (addrRange a len))))))

/-- The AMOs complete (R225, R226, R141, R132, R133): the request carries the operation, the operand, the compare
value of ACAS, the intent and the scope of the variant to the word's home; with a destination it returns the old
value, without one it is counted or posted. XRED (R231) outside a transaction is the comm AMO of its operation and
width. -/
def Obligations.AtomicsIssue : Prop :=
  ∀ (s : State) (d a b : BitVec 6) (v : BitVec 4) (w : BitVec 1) (x : Nat) (p : Place),
    s.busyG a = false → s.busyG b = false → (∀ bk, p ≠ .fifo bk) → Clear s (addrRange x 8) →
    s.counterFull p = false → s.task.txn = none →
    let c := s.g a
    let vn := v.toNat
    let scope := if vn % 4 = 0 then 0 else vn % 4 + 2
    let comm := vn = 8 ∨ 13 ≤ vn
    let amo := fun ins (op : Nat) (e : Reg) => Granted s c c.val 8 [pLD, pST] 8 .amo x p →
      exec ins s = retired (s.issueAmo (gDest d)
        { op := 0, gen := 0, kind := .amo, deps := c.taint ||| (s.g b).taint ||| e.taint, va := c.val, addrs := addrRange x 8, place := p
          acq := if (1 ≤ vn ∧ vn ≤ 3) ∨ (9 ≤ vn ∧ vn ≤ 11) then some scope else none
          rel := if (5 ≤ vn ∧ vn ≤ 7) ∨ (9 ≤ vn ∧ vn ≤ 11) ∨ 13 ≤ vn then some scope else none }
        { core := s.cur, addr := x, op, opnd := (s.g b).val, cmp := e.val, comm := decide comm, stat := decide (vn = 12)
          scope, ret := none, acks := [] } c.taint (d != 0))
    let red := fun ins (op32 op64 : Nat) => let n := if w = 1 then 8 else 4
      c.taint = 0 → (s.g b).taint = 0 → Granted s c c.val n [pLD, pST] n .amo x p → Clear s (addrRange x n) →
      exec ins s = retired (s.issueAmo .none { op := 0, gen := 0, kind := .amo, va := c.val, addrs := addrRange x n, place := p }
        { core := s.cur, addr := x, op := if w = 1 then op64 else op32
          opnd := if w = 1 then (s.g b).val else BitVec.ofNat 64 ((s.g b).val.toNat % 2 ^ 32), cmp := 0, comm := true
          stat := false, scope := 0, ret := none, acks := [] } 0 false)
    amo (.aadd d a b v) 0 {} ∧ amo (.aand d a b v) 1 {} ∧ amo (.aor d a b v) 2 {} ∧ amo (.axor d a b v) 3 {}
      ∧ amo (.amin d a b v) 4 {} ∧ amo (.amax d a b v) 5 {} ∧ amo (.aminu d a b v) 6 {} ∧ amo (.amaxu d a b v) 7 {}
      ∧ amo (.aswap d a b v) 8 {} ∧ amo (.afadd d a b v) 10 {}
      ∧ (s.busyG d = false → amo (.acas d a b v) 9 (s.g d))
      ∧ red (.xredAdd a b w) 16 0 ∧ red (.xredFadd a b w) 17 10 ∧ red (.xredMin a b w) 18 4 ∧ red (.xredMax a b w) 19 5

/-- LRW and SC complete (R227, R228): outside a transaction, on a word of device memory, LRW issues an acquire at
DOMAIN scope and waits for the home's decision, whose grant deposits the word; SC takes the word to the reservation's
home, its destination busy until the answer. Inside a transaction both abort with code 5. -/
def Obligations.ReservationsIssue : Prop :=
  ∀ (s : State) (d a b : BitVec 6) (x st sl : Nat),
    s.busyG a = false → s.busyG b = false → (s.g a).taint = 0 → (s.g b).taint = 0 →
    let c := s.g a
    let lrw : PendOp := { op := 0, gen := 0, kind := .lrw, va := c.val, addrs := addrRange x 8, place := .home st sl, acq := some 4 }
    (s.task.txn = none → Granted s c c.val 8 [pLD] 8 .read x (.home st sl) → Clear s (addrRange x 8) →
        exec (.lrw d a) s = .next ((s.issueLoad (gDest d) lrw 0).mapTask fun t => { t with wait := some (.lrw s.task.opNo) }))
      ∧ (s.task.txn = none → Granted s c c.val 8 [pLD, pST] 8 .write x (.home st sl) →
          exec (.sc d a b) s = retired ((((s.cancel (gDest d)).mapTask fun t =>
            t.putG d.toNat { t.gr d.toNat with taint := 0 }).addOp
              { op := 0, gen := 0, kind := .sc, dest := gDest d, va := c.val, addrs := addrRange x 8
                data := bytesOf 8 (s.g b).val.toNat, place := .home st sl }).kick s.cur s.ctx))
      ∧ (s.task.txn.isSome = true → exec (.lrw d a) s = .next (s.abortTxn s.cur s.ctx 5 0 false)
          ∧ exec (.sc d a b) s = .next (s.abortTxn s.cur s.ctx 5 0 false))

/-- The transaction instructions complete (R146, R149, R150, R155, R230). XBEGIN opens a transaction, with the
snapshot of registers and streams, once no slot is in use, no acquire pending and the counter zero: it takes the
ticket kept from an abort, or a new one of its directory; inside one it deepens it, to level 7. XEND leaves an inner
level. XABORT aborts with code 3, and does nothing outside. XTEST gives the depth. The outermost XEND (R161) waits for
its values and the counter, and for what was committed before it to have left (R130), then asks every home of its
tiles for their locks and waits; with no tile it goes to the install at once. An abort (R147, R148, R155): the
snapshot comes back without taint, the abort word stands in the register of the outermost XBEGIN, the task goes on
after it, the ticket is kept, and no storage has changed. Where the rules are silent it rests on the model's reading
(log 62). -/
def Obligations.TransactionInstructions : Prop :=
  (∀ (s : State) (d : BitVec 6) (k : BitVec 8),
     let t := s.task
     let free := t.slots = 0 ∧ t.sack = 0 ∧ ∀ q ∈ t.pend, q.acq = none
     (free → t.txn = none →
         let st := siteOf s.cur
         let n := t.ticket.getD ((s.site st).ticket * 32 + st % 24)
         let u := if t.ticket.isSome then s else s.mapSite st fun x => { x with ticket := (x.ticket + 1) % 2 ^ 48 }
         let tx : Txn := { depth := 1, ticket := n, dest := d.toNat, resume := t.pc + 4, snapG := t.g, snapS := t.streams
                           heldBase := State.heldCount t }
         exec (.xbegin d) s = wrote (u.mapTask fun t => { t with txn := some tx, ticket := some n }) d 0 0)
       ∧ (∀ tx, free → t.txn = some tx →
           exec (.xbegin d) s = if tx.depth = 7 then .next (s.abortTxn s.cur s.ctx 8 0 false)
             else wrote (s.mapTask fun t => { t with txn := some { tx with depth := tx.depth + 1 } }) d 0 0)
       ∧ (∀ tx, t.txn = some tx → tx.depth ≠ 1 →
           exec .xend s = retired (s.mapTask fun t => { t with txn := some { tx with depth := tx.depth - 1 } }))
       ∧ (t.txn = none → exec .xend s = trapped s cILLEGAL 0 ∧ exec (.xabort k) s = retired s)
       ∧ (t.txn.isSome = true → exec (.xabort k) s = .next (s.abortTxn s.cur s.ctx 3 k.toNat false))
       ∧ exec (.xtest d) s = wrote s d (BitVec.ofNat 64 ((t.txn.map (·.depth)).getD 0)) 0
       ∧ ((t.slots ≠ 0 ∨ t.sack ≠ 0 ∨ ∃ q ∈ t.pend, q.acq ≠ none) → exec (.xbegin d) s = stalled s))
    ∧ (∀ (s : State) (tx : Txn), s.task.txn = some tx → tx.depth = 1 →
         let f := s.combineFlush s.cur s.ctx s.task.opNo
         f.task.pend.all (fun p => !unboundOp p) = true → f.task.sack = 0 → State.nextOut f.task = none →
         let homes := ((tx.reads ++ tx.writes).map fun t => paSite (t * 256) * 64 + paSlice (t * 256)).foldl insertNat []
         let w := f.mapTask fun t => { t with wait := some .xend, txn := some { tx with locking := some homes } }
         exec .xend s = stalled (if homes = [] then w.push (.txInstall s.cur s.ctx)
           else homes.foldl (fun u h => u.route (agentNi s.cur) (agentDir (h / 64) (h % 64)) 1 0 (.txLock s.cur s.ctx h)) w))
    ∧ (∀ (s : State) (tx : Txn) (code arg : Nat) (held : Bool), s.task.txn = some tx →
         let u := s.abortTxn s.cur s.ctx code arg held
         u.task.txn = none ∧ u.task.ticket = some tx.ticket ∧ u.task.pc = tx.resume ∧ u.task.streams = tx.snapS
           ∧ u.task.slots = 0 ∧ u.task.frame = none
           ∧ (∀ n : Nat, n ≠ 0 → n ≠ tx.dest → (u.task.gr n) = { Sparse.get {} tx.snapG n with taint := 0 })
           ∧ (tx.dest ≠ 0 → (u.task.gr tx.dest).tag = false ∧ (u.task.gr tx.dest).taint = 0
               ∧ (tx.depth < 8 → arg < 256 → code < 256 →
                 let w := (u.task.gr tx.dest).val.toNat
                 w % 256 = code ∧ w / 2 ^ 8 % 256 = arg ∧ w / 2 ^ 16 % 8 = tx.depth
                   ∧ (w / 2 ^ 19 % 2 = 1 ↔ code = 1 ∨ code = 6 ∨ code = 9 ∨ code = 10) ∧ (w / 2 ^ 20 = 1 ↔ held = true)
                   ∧ w / 2 ^ 21 = 0))
           ∧ SameStorage s u ∧ ∀ tile, (s.cur, s.ctx) ∉ State.tileHolders (Sparse.get {} u.tileDirs tile))

/-- The steps of a transaction's homes complete. Arbitration (R156): a request of the older transaction removes the
younger holders and is recorded; of the younger, aborts with code 1. A lock (R161), with no read hold (R163) in the
way, drops the home from those still asked, and the last asks for the install, which makes exactly the speculative
bytes the stored ones, raises the tiles' stamps and retires XEND. A notice (R157) aborts with the home's code. The
remaining steps of R154, R155 and R163 complete: a speculative line that leaves L1 takes a versioned way of its slice
while fewer than 1,024 are taken; a beacon sends the counter to the other 23 sites of the module, and a later counter
is taken over; a row read samples the stamps of its tiles, a row sampled before is read again and counted, and after
the eighth time it is read once more with a read hold on its tiles. Where the rules are silent it rests on the model's
reading (logs 58 and 59). -/
def Obligations.TransactionHomes : Prop :=
  (∀ (s : State) (k x tile home code : Nat) (write : Bool) (tx : Txn), (s.ctxAt k x).txn = some tx →
     let d : TileDir := Sparse.get {} s.tileDirs tile
     let at_ := if paSite (tile * 256) = siteOf k then s else s.advanceTicket (paSite (tile * 256)) (tx.ticket / 32)
     let halves := d.blocks.flatMap fun b => [b * 256, b * 256 + 64, b * 256 + 128, b * 256 + 192]
     let other := match d.writer with
       | some h => [h]
       | none => if write then d.readers.filter (· != (k, x)) else []
     (tx.removed = none → d.locked = false → s.tileReserved d = false → (write = true ∨ d.readers.length < 8) →
         at_.hostAsk (paSite (tile * 256)) halves write (some (.txArbitration k x tile write)) = none →
         (∀ h ∈ other, h ≠ (k, x)) →
         exec (.txArbitration k x tile write) s = .next
           (if other.all fun h => older tx.ticket (s.ticketOf h) then
             (other.foldl (fun s h => s.abortHolder tile h 1) at_).recordTile (k, x) tile write
           else at_.abortHolder tile (k, x) 1))
       ∧ (∀ homes, tx.removed = none → tx.locking = some homes → home ∈ homes →
           (∀ t ∈ tx.writes, tileHome t = home → (s.dirOf t).readHolds = []) →
           let rest := homes.filter (· != home)
           Completes (exec (.txLock k x home) s) fun u =>
             (u.ctxAt k x).txn = some { tx with locking := some rest } ∧ (rest = [] → Event.txInstall k x ∈ u.agenda)
               ∧ ∀ t ∈ tx.writes, tileHome t = home → (Sparse.find s.tileDirs t).isSome = true →
                   (Sparse.get {} u.tileDirs t : TileDir).locked = true)
       ∧ (tx.locking = some [] → tx.log = [] → (tx.spec.map (·.1)).Nodup →
           (∀ j y, ∀ q ∈ (s.ctxAt j y).pend, q.kind = .store → State.localPlace q.place = false) →
           Completes (exec (.txInstall k x) s) fun u =>
             (∀ a, Mem.read u.mem a = (Sparse.find tx.spec a).getD (Mem.read s.mem a)) ∧ (u.ctxAt k x).txn = none
               ∧ (u.ctxAt k x).pc = (s.ctxAt k x).pc + 4 ∧ (u.ctxAt k x).retired = (s.ctxAt k x).retired + 1
               ∧ (u.ctxAt k x).ticket = none ∧ (u.ctxAt k x).released = true)
       ∧ (tx.removed = some code → (s.ctxAt k x).hold = none →
           exec (.abortNotice k x code) s = .next (s.abortTxn k x code 0 false)))
    ∧ (∀ (s : State) (k x tile site c hod : Nat) (tiles : List Nat),
         (∀ tx, (s.ctxAt k x).txn = some tx → tile ∈ tx.writes → tile ∉ tx.versioned →
             (s.cores.flatMap fun (_, c) => c.ctxs.flatMap fun (_, t) =>
               ((t.txn.map fun y => y.versioned.filter fun v => tileHome v == tileHome tile).getD [])).length < 1024 →
             exec (.versionedEviction k x tile) s = .next (s.mapCtx k x fun t =>
               { t with txn := t.txn.map fun y => { y with versioned := insertNat y.versioned tile } }))
           ∧ exec (.ticketBeacon site) s = .next ((((List.range 24).map (site / 24 * 24 + ·)).filter (· != site)).foldl
               (fun u t => u.route (agentDir site 0) (agentDir t 0) 1 2 (.ticketAdvance t (u.site site).ticket)) s)
           ∧ exec (.ticketAdvance site c) s = .next (s.mapSite site fun t =>
               if c ≠ t.ticket ∧ (c + 2 ^ 48 - t.ticket) % 2 ^ 48 < 2 ^ 47 then { t with ticket := c } else t)
           ∧ (s.rowSample hod tiles = none → exec (.rowRead hod tiles) s = .next (s.sampleRow hod tiles 0))
           ∧ (∀ r, s.rowSample hod tiles = some r → Completes (exec (.rowRead hod tiles) s) fun u =>
               (∃ r', u.rowSample hod tiles = some r' ∧ r'.rereads = r.rereads + 1 ∧ r'.stamps = s.stamps tiles)
                 ∧ (u.site (agentSite hod)).rowreread = min ((s.site (agentSite hod)).rowreread + 1) 0xFFFFFFFF
                 ∧ (r.rereads = 8 → ∀ t ∈ tiles, hod ∈ (u.dirOf t).readHolds) ∧ SameStorage s u))

/-- The stream instructions complete (R79, R232, R236, R238, R240, R241). SBIND binds a group that no other stream has
where the layout is valid and the count a multiple of a scaled group; SFIFO binds to the FIFO bank its capability
covers, with index and mark from HEAD or TAIL; SUNBIND always; SADV hands back the slots between mark and index,
committed where the FIFO is shared, held where it is not; SSTAT reads a FIFO's state word or a count. Other groups and
unbound streams take ILLEGAL. SBINDR completes (R73, R237): where the record capability is sealed as a record, the
record authority opens it, the record is within bounds and aligned, its revocation word holds the record's epoch and
its capabilities cover what the layout says, the group takes the record's weight capability, layout and scale
capability, and the stream is bound to it. The translation of the revocation word is the walker's, which may set entry
bits; the word is read as GET reads (R363), from device memory that is not poisoned, locked or held by the host. -/
def Obligations.StreamInstructions : Prop :=
  (∀ (s : State) (k n d : BitVec 6),
     let r := n.toNat
     let free := r % 4 = 0 ∧ 8 ≤ r ∧ r ≤ 52 ∧ ∀ q ∈ s.task.streams, q.1 ≠ k.toNat → q.2.reg ≠ r
     let w := (s.g (n + 1)).val
     let sfifo := fun ins (prod : Bool) => ∀ bk, s.busyG n = false → s.busyG (n + 1) = false →
       w.toNat % 2 ^ 60 = 0 → capHolds (s.supAt s.cur) (s.g n) [] = true → s.fifoOf (s.g n) = some bk →
       let b := s.bank bk
       let idx := if prod then b.tail else b.head
       let u := s.writeG (r + 3) { val := fifoInfo prod (if prod then 0 else idx) idx, taint := (s.task.gr (r + 3)).taint }
       exec ins s = retired ((u.writeG r { (s.g n).move (u.slotAddr bk idx) with taint := (u.g n).taint }).bindStream k.toNat
         { reg := r, fifo := some (bk, prod) })
     (free → (s.busyG (n + 1) = false → s.busyG (n + 2) = false → layoutOk w = true →
           (loScaled w = true → (s.g (n + 2)).val.toNat % scaleGroup w = 0) →
           exec (.sbind k n) s = retired (s.bindStream k.toNat { reg := r }))
         ∧ sfifo (.sfifoCons k n) false ∧ sfifo (.sfifoProd k n) true)
       ∧ (¬ free → exec (.sbind k n) s = trapped s cILLEGAL 0 ∧ exec (.sfifoCons k n) s = trapped s cILLEGAL 0
           ∧ exec (.sfifoProd k n) s = trapped s cILLEGAL 0)
       ∧ exec (.sunbind k) s = retired (s.mapTask fun t => { t with streams := t.streams.filter (·.1 != k.toNat) })
       ∧ (Sparse.find s.task.streams k.toNat = none → exec (.sstat d k) s = trapped s cILLEGAL 0
           ∧ (s.task.txn = none → exec (.sadv k) s = trapped s cILLEGAL 0))
       ∧ (∀ g, Sparse.find s.task.streams k.toNat = some { reg := g } → s.busyG (BitVec.ofNat 6 (g + 2)) = false →
           exec (.sstat d k) s = wrote s d (s.g (BitVec.ofNat 6 (g + 2))).val 0)
       ∧ (∀ g bk prod, Sparse.find s.task.streams k.toNat = some { reg := g, fifo := some (bk, prod) } →
           exec (.sstat d k) s = wrote s d (fifoWord (s.bank bk)) 0)
       ∧ (∀ g bk, Sparse.find s.task.streams k.toNat = some { reg := g, fifo := some (bk, false) } → s.task.txn = none →
           s.busyG (BitVec.ofNat 6 (g + 3)) = false →
           let b := s.bank bk
           let v := (s.g (BitVec.ofNat 6 (g + 3))).val
           let n := (infoIdx v + 2 * slotCount b - infoMark v) % (2 * slotCount b)
           let marked := fun (u : State) => u.mapTask fun t =>
             t.putG (g + 3) { t.gr (g + 3) with val := fifoInfo false (infoIdx v) (infoIdx v), tag := false, desc := 0 }
           let go := fun t : Ctx => if n = 0 then t else
             { t with divert := t.divert ++ [{ eff := .fifoHead bk n, committed := true, after := t.opNo }], opNo := t.opNo + 1 }
           (b.shared = true → exec (.sadv k) s =
               retired (marked (((s.release s.cur s.ctx).mapTask go).pushOnce (.niTransmit s.cur s.ctx))))
             ∧ (b.shared = false → n = 0 → exec (.sadv k) s = retired (marked s))
             ∧ (b.shared = false → n ≠ 0 → Room s → exec (.sadv k) s = retired (marked (s.mapTask fun t =>
                 { t with send := t.send ++ [{ eff := .fifoHead bk n }] })))))
    ∧ (∀ (s : State) (k n r : BitVec 6) (as : List Nat) (bs : List Byte) (t u : State) (ra : Nat),
         let c := s.g r
         let x := c.val
         let o := s.mapTask fun t => { t with streams := t.streams.filter (·.1 != k.toNat) }
         let dword := fun i => BitVec.ofNat 64 (ofBytes ((bs.drop (8 * i)).take 8))
         let capAt := fun i : Nat => { val := dword (2 * i), desc := dword (2 * i + 1)
                                       tag := t.specTag (as.getD (16 * i) 0 / 16) : Reg }
         let layout := dword 4
         let slot := (dword 5).toNat / 2 ^ 32 % 2 ^ 16
         let rva := (s.csrAt s.cur 0x802).toNat / 2 ^ 18 % 2 ^ 30 * 2 ^ 18 + 4 * slot
         s.bindOk k.toNat n.toNat = true → s.busyG r = false → s.busyG (n + 2) = false → s.stalled = false →
         s.task.txn = none → c.tag = true → capOtype c.desc = 1 → hasPerm c.desc pREC = true → c.taint = 0 →
         recAuthOk (s.recAuth s.cur) = true → (hasPerm c.desc pSYS = false ∨ s.supAt s.cur = true) →
         (capBounds c.desc x).1 ≤ x.toNat → x.toNat + 64 ≤ (capBounds c.desc x).2 → x.toNat % 64 = 0 →
         plainRead o x 64 true = some (as, bs, t) →
         t.agentXlate (s.partAt s.cur) true (siteOf s.cur) (siteOf s.cur, clusterOf s.cur) rva .read = (u, .inl ra) →
         u.stalled = false → u.cur = s.cur → u.ctx = s.ctx → u.task = o.task →
         Clear u (addrRange ra 4) → u.tileLocked (addrRange ra 4) = false → ra + 4 ≤ 2 ^ 45 →
         u.hostAsk (paSite ra) (addrRange ra 4) false none = none →
         ofBytes (u.readMem (addrRange ra 4)) = (dword 5).toNat % 2 ^ 32 → u.supAt s.cur = s.supAt s.cur →
         recordOk (s.supAt s.cur) (capAt 0) (capAt 1) layout (s.g (n + 2)).val.toNat = true →
         exec (.sbindr k n r) s = finished ((((u.writeG n.toNat (capAt 0)).writeG (n + 1).toNat { val := layout }).writeG
           (n + 3).toNat (if loScaled layout then capAt 1 else {})).bindStream k.toNat { reg := n.toNat }))

/-- The message instructions complete (R245, R246): SEND, SENDO and SENDR hold one message, made of the send window,
the descriptor's class and handler and up to 256 bytes of payload read at issue; PUT holds the request its
capabilities allow. A full send buffer (R36, R37, R150): a 33rd held effect commits the others and waits; inside a
transaction it aborts with code 2. -/
def Obligations.SendsAndPuts : Prop :=
  (∀ (s : State) (n d p : BitVec 6) (k : Nat) (team : Option (Nat × Nat)) (as : List Nat) (payload : List Byte) (t : State),
     s.task.txn = none → Room s →
     let len := (s.g n).val.toNat
     let c := s.g 60
     let sends := fun ins (ordered rel : Bool) =>
       Ready s [d, p, n, 56, 57, 58, 59, 60] → len ≤ 256 → (p = 0 → len = 0) → s.resolve s.cur c (s.g d).val = .core k team →
       (c.tag = true → hasPerm c.desc pGLOBAL = true ∨ s.ownTeam k team = true) →
       (len ≠ 0 → capFault (s.supAt s.cur) (s.g p) (s.g p).val len [pLD] 1 = none) →
       plainRead s (s.g p).val len false = some (as, payload, t) →
       exec ins s = held t (.msg (t.posed { noMsg with
         src := s.cur, dst := k, handler := dHandler (s.g d).val, cls := dClass (s.g d).val
         a1 := (s.g 56).val, a2 := (s.g 57).val, a3 := (s.g 58).val, a4 := (s.g 59).val
         cap := if c.tag then ⟨c.val, c.desc, true⟩ else ⟨0, 0, false⟩, payload, team, ordered, release := rel }))
     sends (.send n d p) false false ∧ sends (.sendo n d p) true false ∧ sends (.sendr n d p) false true
       ∧ (let dst := s.g d; let src := s.g p; let part := s.partAt s.cur; let sup := s.supAt s.cur;
         let off := fun (va : Word) n => s.hostOrFifo part sup (n / 4096 + 2) va.toNat n = false;
         Ready s [d, p, n, 60] → len ≤ 65536 → capFault sup c c.val 8 [pLD, pST] 8 = none → off c.val 8 →
         (len ≠ 0 → capFault sup dst dst.val len [pST] 1 = none ∧ capFault sup src src.val len [pLD] 1 = none
           ∧ off dst.val len ∧ off src.val len) →
         exec (.put d p n) s = held s (.put ⟨dst.val.toNat, src.val.toNat, len, c.val.toNat⟩))
       ∧ (s.anyBusy [d, p, n, 56, 57, 58, 59, 60] = false → (256 < len ∨ (p = 0 ∧ len ≠ 0)) →
           exec (.send n d p) s = trapped s cSENDFAIL 0))
    ∧ (∀ (s : State) (n d : BitVec 6), State.heldCount s.task = 32 → Ready s [d, 0, n, 56, 57, 58, 59, 60] →
         (s.g n).val = 0 → ∀ k team, s.resolve s.cur (s.g 60) (s.g d).val = .core k team → (s.g 60).tag = false →
         (s.task.txn = none → exec (.send n d 0) s = stalled (s.release s.cur s.ctx))
           ∧ (s.task.txn.isSome = true → exec (.send n d 0) s = .next (s.abortTxn s.cur s.ctx 2 0 false)))

/-- Reading elsewhere and receiving complete (R247 to R250). GET passes a release point and issues a read at the home.
FLUSHRD passes one too, its checks made, flushes the module of its address, and then retires, or reads where it names
a register. WAITM takes the message its handler waits for, or parks; one in a poisoned entry it discards (R406); RECVM
stores the first bytes of the window, as one plain store where they lie in one block; PEEKM reads a doubleword of it.
-/
def Obligations.Receiving : Prop :=
  ∀ (s : State) (d a b : BitVec 6) (x : Nat) (p : Place),
    s.task.txn = none →
    let c := s.g a
    let req := fun kind => { op := 0, gen := 0, kind, va := c.val, addrs := addrRange x 8, fin := .int 8 false, place := p : PendOp }
    let r := s.release s.cur s.ctx
    let f := s.mapTask fun t => { t with flushrd := none }
    let flushed := ∃ q : Flush, s.task.flushrd = some q ∧ q.mods = []
    let h := c.val.toNat % 2 ^ 12
    let w := s.task.window
    let n := min (s.g b).val.toNat w.length
    (s.busyG a = false → (∀ bk, p ≠ .fifo bk) → Granted s c c.val 8 [pLD] 8 .read x p → Clear s (addrRange x 8) →
        exec (.get d a) s = retired (r.issueLoad (gDest d) (req .get) c.taint))
      ∧ (s.busyG a = false → c.taint = 0 → s.xlate s.cur c.val.toNat .read = .ok x p →
          (flushed → capHolds (s.supAt s.cur) c [pLD] = true → exec (.flushrd 0 a) s = retired f)
            ∧ (flushed → d ≠ 0 → (∀ bk, p ≠ .fifo bk) → Granted s c c.val 8 [pLD] 8 .read x p → Clear s (addrRange x 8) →
                exec (.flushrd d a) s = retired (f.releasePoint.issueLoad (gDest d) (req .flushrd) c.taint))
            ∧ (s.task.flushrd = none → capHolds (s.supAt s.cur) c [pLD] = true →
                let m := State.placeMod s.cur p
                exec (.flushrd 0 a) s = stalled ((r.mapTask fun t => { t with flushrd := some (State.newFlush t [m] t.opNo) }).askFlush
                  s.cur s.ctx [m])))
      ∧ (Ready s [a] → (∀ e, State.waitmPick s.here.ni.queue h = some e → exec (.waitm d a) s =
            if e.poisoned then stalled (s.discardEntry s.cur e) else retired (s.takeMsg d.toNat e))
          ∧ (State.waitmPick s.here.ni.queue h = none →
              (parkedHere s < (s.imageAt s.cur).park → exec (.waitm d a) s = parkedAs s (.waitm d.toNat h))
                ∧ ((s.imageAt s.cur).park ≤ parkedHere s → exec (.waitm d a) s = trapped s cPARKLIMIT 0)))
      ∧ (Ready s [a, b] → s.stalled = false → (n = 0 → exec (.recvm d a b) s = wrote s d 0 0)
          ∧ (n ≠ 0 → c.val.toNat % 256 + n ≤ 256 → Granted s c c.val n [pST] 1 .write x p →
              s.counterFull p = false →
              let u := s.issueStore { op := 0, gen := 0, kind := .store, va := c.val, addrs := addrRange x n, data := w.take n, place := p }
              exec (.recvm d a b) s = finished (u.writeG d.toNat { val := BitVec.ofNat 64 n })))
      ∧ (s.busyG a = false → (c.val.toNat % 8 = 0 → exec (.peekm d a) s =
            wrote s d (BitVec.ofNat 64 (if 256 ≤ c.val.toNat then 0 else ofBytes ((w.drop c.val.toNat).take 8))) c.taint)
          ∧ (c.val.toNat % 8 ≠ 0 → exec (.peekm d a) s = trapped s cALIGN c.val))

/-- The hod instructions complete (R253 to R257): HCOPY, HFILL, HGATH and HSCAT hold one request, with the completion
message of g56 to g59, the ranges their capabilities allow, and for a gather or scatter the bag read at issue. -/
def Obligations.HodRequestsIssue : Prop :=
  ∀ (s : State) (d a b : BitVec 6) (k : Nat) (team : Option (Nat × Nat)) (as as' : List Nat) (hb bs : List Byte) (t u : State),
    let abs := if dMode (s.g 56).val = 2 then [60] else []
    s.task.txn = none → s.stalled = false → Room s → Ready s ([d, a, b, 56, 57, 58, 59] ++ abs) →
    s.resolve s.cur (s.g 60) (s.g 56).val = .core k team →
    let sup := s.supAt s.cur
    let part := s.partAt s.cur
    let ok := fun (s : State) (c : Reg) n perms align => capFault sup c c.val n perms align = none
      ∧ s.hostOrFifo part sup (n / 4096 + 2) c.val.toNat n = false
    let comp := s.posed { noMsg with
      dst := k, team, handler := dHandler (s.g 56).val, cls := dClass (s.g 56).val, release := true
      a2 := (s.g 57).val, a3 := (s.g 58).val, a4 := (s.g 59).val }
    let req := fun kind => s.newHodReq kind comp
    let cn := (capBounds (s.g a).desc (s.g a).val).2 - (s.g a).val.toNat
    let h := BitVec.ofNat 64 (ofBytes hb)
    let bag := fun scatter => ok s (s.g b) 8 [pLD] 8 ∧ plainRead s (s.g b).val 8 false = some (as, hb, t) ∧ bagOk scatter h = true
      ∧ ok t (s.g b) (bagSize h) [pLD] 8 ∧ plainRead t (s.g b).val (bagSize h) false = some (as', bs, u)
    let inMemory := fun r : HodReq => ∀ i ∈ r.idxs, rowValid r i = true →
      u.hostOrFifo part sup (r.rlen * rowElem r.etype / 4096 + 2) (rowVa r i.toNat) (r.rlen * rowElem r.etype) = false
    let asked := fun r => finished (u.mapTask fun t => { t with send := t.send ++ [{ eff := .hod r }] })
    let rows := bagCount h * 4 * bagRlen h
    let gathers := fun ins kind => let r := bagReq (req kind) (s.g a) h bs
      bag false → ok u (s.g d) (4 * bagRlen h) [pST] 1 → capHolds sup (s.g a) [pLD] = true → inMemory r →
      exec ins s = asked { r with dst := (s.g d).val.toNat, len := 4 * bagRlen h }
    (cn ≤ 2 ^ 36 → ok s (s.g d) cn [pST] 1 → ok s (s.g a) cn [pLD] 1 →
        exec (.hcopy d a) s = held s (.hod { req .copy with
          dst := (s.g d).val.toNat, src := (s.g a).val.toNat, len := cn
          tags := hasPerm (s.g a).desc pLDC && hasPerm (s.g d).desc pSTC
          inTeam := s.inTeamRegions s.cur (s.g d).val.toNat && s.inTeamRegions s.cur ((s.g d).val.toNat + (cn - 1)) }))
      ∧ ((s.g b).val.toNat ≤ 2 ^ 36 → ok s (s.g d) (s.g b).val.toNat [pST] 1 →
          exec (.hfill d a b) s = held s (.hod { req .fill with
            dst := (s.g d).val.toNat, len := (s.g b).val.toNat, pattern := (s.g a).val }))
      ∧ gathers (.hgathSum d a b) .gatherSum ∧ gathers (.hgathMean d a b) .gatherMean
      ∧ (let r := bagReq (req .scatter) (s.g d) h bs;
        bag true → capHolds sup (s.g d) [pLD, pST] = true → ok u (s.g a) rows [pLD] 1 → inMemory r →
          exec (.hscat d a b) s = asked { r with dst := (s.g d).val.toNat, src := (s.g a).val.toNat, len := rows })

/-- The steps of a hod complete (R253 to R257): a copy or fill performs the next part, up to a line of its
destination, and goes on, or reports completion; a gather or scatter without a row to visit goes to its end; a part of
a bag that comes back is kept until the last one ends the bag; the completion message carries the word. One row of a
part of a bag (R163, R256, R257): the owner samples its stamps, reads it whole and pools round32(W · element) onto
what it has, or adds it onto the row of the table in one write of the whole row, and goes on; after its last row the
part ends. The partial rows of a whole gather are added in owner order, divided for a mean, and written. Where the
rules are silent it rests on the model's reading (logs 13 and 72). -/
def Obligations.HodSteps : Prop :=
  (∀ (s : State) (r : HodReq) (bag : BagState) (w : Word),
     let home := s.hodHome r
     let plain := fun va n acc s => hodPlain (.hod r) r home.1 home.2 va n acc s
     let n := min r.len (128 - r.dst % 128)
     let rest := Event.hodRequest { r with dst := r.dst + n, src := r.src + n, len := r.len - n }
     let free := fun (s : State) (as : List Nat) (wr : Bool) => s.hostAsk home.1 as wr (some (.hodRequest r)) = none
     ((r.kind = .copy ∨ r.kind = .fill) → r.len = 0 → exec (.hodRequest r) s = .next (s.push (.hodCompletion r 0)))
       ∧ (r.kind = .fill → 0 < r.len → r.dst + r.len ≤ 2 ^ 64 → ∀ as u, plain r.dst n .write s = some (as, u) →
           u.tileLocked as = false → free u as true → exec (.hodRequest r) s = .next
             ((u.performWrite (as.zip ((List.range n).map fun i => r.pattern.extractLsb' (8 * ((r.dst + i) % 8)) 8)) []).push rest))
       ∧ (r.kind = .copy → 0 < r.len → r.dst + r.len ≤ 2 ^ 64 → r.src + r.len ≤ 2 ^ 64 → ∀ src u dst u',
           plain r.src n .read s = some (src, u) → Clear u src → u.tileLocked src = false → free u src false →
           plain r.dst n .write u = some (dst, u') → u'.tileLocked dst = false → free u' dst true →
           exec (.hodRequest r) s = .next ((u'.performWrite (dst.zip (u.readMem src)) (u'.hodTags r src dst)).push rest))
       ∧ (r.kind ≠ .copy → r.kind ≠ .fill → (∀ i ∈ r.idxs, rowValid r i = false) → exec (.hodRequest r) s = .next (s.push
           (if r.kind = .scatter then .hodCompletion r (compWord r 0) else .hgathCombine { req := r, owners := [], partials := [], no := (s.core r.core).ni.bagNext })))
       ∧ (r.node = none → exec (.hodCompletion r w) s = .next (s.hodSend home.1 home.2 { r.comp with a1 := w }))
       ∧ (∀ st h, r.node = some (st, h) → exec (.hodCompletion r w) s = .next ((s.mapSite st fun t =>
           { t with nodes := t.nodes.map fun (j, d) => (j, if j = h then { d with loop := w.toNat % 256 } else d) }).push
             (.nodeComplete st h)))
       ∧ (∀ whole, bag.owners ≠ [] → Sparse.find (s.core bag.req.core).ni.bags bag.no = some whole →
           let w := bagBack whole bag
           let put := fun f => s.mapNi bag.req.core fun ni => { ni with bags := f ni.bags }
           (w.owners ≠ [] → exec (.hgathCombine bag) s = .next (put fun m => Sparse.set m bag.no w))
             ∧ (w.owners = [] → exec (.hgathCombine bag) s = .next ((put fun m => Sparse.erase m bag.no).push
                 (if bag.req.kind = .scatter ∨ w.status ≠ 0 then .hodCompletion bag.req (compWord bag.req w.status)
                  else .hgathCombine w)))))
    ∧ (∀ (s : State) (bag : BagState) (o j i : Nat) (x : Exact) (ps : List (Nat × Nat × Exact)) (rest : List (Nat × List (Nat × Nat × Exact)))
           (as src : List Nat) (u u' : State),
         let r := bag.req
         let size := r.rlen * rowElem r.etype
         let va := r.table + i * size
         let zero := List.replicate r.rlen (0 : BitVec 32)
         let free := fun (s : State) (as : List Nat) wr e => s.hostAsk (agentSite o) as wr (some e) = none
         let at_ := fun va n acc s => hodPlain (.bag bag) r (agentSite o) (o % 64) va n acc s
         let tiles := u.tilesOf as
         (bag.owners = (o, (j, i, x) :: ps) :: rest → at_ va size .read s = some (as, u) →
             (u.rowSample o tiles = none → exec (.hgathOwner bag) s = .next (u.pushAll [.rowRead o tiles, .hgathOwner bag]))
               ∧ ∀ q, u.rowSample o tiles = some q →
                   (u.rowStale q = true → exec (.hgathOwner bag) s = .next ((u.again (.rowRead o tiles)).again (.hgathOwner bag)))
                     ∧ (u.rowStale q = false → free u as false (.hgathOwner bag) → Clear u as →
                         let pool := addScaled (bag.pool.getD zero) x (rowVals r.etype r.rlen (u.readMem as))
                         exec (.hgathOwner bag) s = .next ((u.endRow o tiles).push
                           (.hgathOwner { bag with owners := (o, ps) :: rest, pool := some pool }))))
           ∧ (bag.owners = (o, []) :: rest → exec (.hgathOwner bag) s = .next (s.endPart bag 0)
               ∧ exec (.hscatOwner bag) s = .next (s.endPart bag 0))
           ∧ (bag.owners = (o, (j, i, x) :: ps) :: rest → r.kind = .scatter → r.etype = 9 →
               let e := Event.hscatOwner bag
               let next := Event.hscatOwner { bag with owners := (o, ps) :: rest }
               at_ va (4 * r.rlen) .write s = some (as, u) → u.heldBack (u.rowOwner r (as.headD 0)) e = false →
               at_ (r.src + j * (4 * r.rlen)) (4 * r.rlen) .read u = some (src, u') →
               u'.tileLocked (as ++ src) = false → Clear u' (as ++ src) → free u' src false e → free u' as true e →
               let out := addScaled (words32 r.rlen (u'.readMem as)) x (rowVals 9 r.rlen (u'.readMem src))
               exec (.hscatOwner bag) s = .next (((u'.performWrite (as.zip (out.flatMap fun c => bytesOf 4 c.toNat)) []).restep e
                 next).push next))
           ∧ (let home := s.hodHome r;
             let add := fun (p q : List (BitVec 32)) => (p.zip q).map fun (a, b) => round32 (Exact.sum 0 [val32 a, val32 b]).1;
             let sums := match bag.partials.map (·.2) with
               | [] => List.replicate r.rlen (0 : BitVec 32)
               | p :: ps => ps.foldl add p;
             let out := if r.kind = .gatherMean ∧ r.valid ≠ 0 then sums.map fun c => round32 (Exact.div (val32 c) (.ofInt r.valid)).1
               else sums;
             bag.owners = [] → hodPlain (.bag bag) r home.1 home.2 r.dst (4 * r.rlen) .write s = some (as, u) → u.tileLocked as = false →
             u.hostAsk home.1 as true (some (.hgathCombine bag)) = none →
             exec (.hgathCombine bag) s = .next ((u.performWrite (as.zip (out.flatMap fun c => bytesOf 4 c.toNat)) []).push
               (.hodCompletion r (compWord r 0)))))

/-- The pallet instructions complete (R258): DPUSH puts a range at the bottom, DPOP takes the bottom one, DSPLIT
splits it with the lower part below, DCOUNT gives the total length and the number of entries; each reports what it
found. MPATH (R260, R74): with row pointers that rise from rp(0), of m rows and nnz items, diagonal k (at most m +
nnz) is crossed where the rows above end no later than the items left of it: the least row index that the next row's
end passes. `C` is what holds of the state as the row pointers are read, which may bring their lines into L1. Where
the rules are silent it rests on the model's reading (logs 70 and 104). -/
def Obligations.PalletInstructions : Prop :=
  (∀ (s : State) (d a b : BitVec 6) (es : List PalletEntry) (e : PalletEntry),
     let w := (s.g a).val.toNat
     let k := w
     let full := 64 ≤ s.here.ni.pallet.length + s.here.ni.places
     let put := fun p => s.mapNi s.cur fun ni => { ni with pallet := p }
     let new : PalletEntry := ⟨w % 2 ^ 32, w / 2 ^ 32, (s.g b).val.toNat % 2 ^ 32⟩
     (Ready s [a, b] → exec (.dpush d a b) s =
         if w / 2 ^ 32 ≤ w % 2 ^ 32 then wrote s d 2 0 else if full then wrote s d 0 0
         else wrote (put (s.here.ni.pallet ++ [new])) d 1 0)
       ∧ (s.here.ni.pallet = [] → exec (.dpop d a) s = wrote (s.writeG a.toNat {}) d 0 0
           ∧ (Ready s [a] → exec (.dsplit d a) s = wrote s d 0 0))
       ∧ (s.here.ni.pallet = es ++ [e] →
           exec (.dpop d a) s = wrote ((put es).writeG a.toNat { val := BitVec.ofNat 64 e.tag }) d
             (BitVec.ofNat 64 (e.hi * 2 ^ 32 + e.lo)) 0
             ∧ (Ready s [a] → exec (.dsplit d a) s = if 1 ≤ k ∧ k < e.hi - e.lo ∧ ¬ full then
                 wrote (put (es ++ [{ e with lo := e.lo + k }, { e with hi := e.lo + k }])) d 1 0 else wrote s d 0 0))
       ∧ exec (.dcount d) s = wrote s d (BitVec.ofNat 64
           (min ((s.here.ni.pallet.map fun e => e.hi - e.lo).sum) 0xFFFFFFFF * 2 ^ 32 + s.here.ni.pallet.length)) 0)
    ∧ (∀ (s : State) (d a b : BitVec 6) (rp : Nat → Nat) (C : State → Prop), s.stalled = false → Ready s [a, b] →
         let c := s.g a
         let w := (s.g b).val.toNat
         let m := w / 2 ^ 32
         let nnz := rp m - rp 0
         let k := min (w % 2 ^ 32) (m + nnz)
         capFault (s.supAt s.cur) c c.val (4 * (m + 1)) [pLD] 4 = none → C s →
         (∀ i, i ≤ m → rp i < 2 ^ 32 ∧ rp 0 ≤ rp i ∧ rp i ≤ rp m
           ∧ ∀ u, C u → ∃ as t, plainRead u (c.val + BitVec.ofNat 64 (4 * i)) 4 false = some (as, bytesOf 4 (rp i), t) ∧ C t) →
         (∀ i j, i ≤ j → j ≤ m → rp i ≤ rp j) →
         ∃ y t, y ≤ m ∧ y ≤ k ∧ k - y ≤ nnz ∧ C t
           ∧ exec (.mpath d a b) s = finished (t.writeG d.toNat
               { val := BitVec.ofNat 64 ((k - y) * 2 ^ 32 + y), taint := s.task.momentTaint })
           ∧ (∀ i, i < y → k - nnz ≤ i → rp (i + 1) - rp 0 + i + 1 ≤ k) ∧ (y < m → y < k → k < rp (y + 1) - rp 0 + y + 1))

/-- Stealing (R259): DSTEAL reserves a place, moves the pointer just after the core it asks and waits; a victim gives
the upper half of its top entry, or the whole of one of length 1, and nothing where it may not answer; the range goes
to the thief's bottom and gd to 1, or the next victim is asked, or gd to 0. -/
def Obligations.Stealing : Prop :=
  ∀ (s : State) (d : BitVec 6) (victim thief x : Nat) (rest : List Nat) (e : PalletEntry) (es : List PalletEntry),
    let steals := fun ins dom =>
      let cores := s.stealDomain s.cur dom
      let p := stealPtr s.here.ni dom % max 1 cores.length
      let victims := ((cores.drop p ++ cores.take p).filter (· != s.cur)).take 8
      let full := 64 ≤ s.here.ni.pallet.length + s.here.ni.places
      (((s.imageAt s.cur).steal < dom ∨ full ∨ victims = []) → exec ins s = wrote s d 0 0)
        ∧ (∀ v vs, dom ≤ (s.imageAt s.cur).steal → ¬ full → victims = v :: vs → exec ins s = .next
            ((((s.mapNi s.cur fun ni => { ni with places := ni.places + 1 }).stealAsk s.cur dom v).mapTask fun t =>
              { t with wait := some (.steal d.toNat dom) }).route (agentNi s.cur) (agentNi v) 1 0
                (.stealRequest v s.cur s.ctx vs)))
    let may := ((s.teamAt victim).map (·.grid)) = ((s.teamAt thief).map (·.grid)) ∧ (s.teamAt victim).isSome = true
      ∧ (siteOf victim = siteOf thief ∨ (s.core victim).ni.flags ≠ [])
    let reply := fun (u : State) got => Host.Outcome.next
      (u.route (agentNi victim) (agentNi thief) 1 0 (.stealResponse thief x got rest))
    let mid := e.lo + (e.hi - e.lo) / 2
    steals (.dstealCluster d) 1 ∧ steals (.dstealSite d) 2 ∧ steals (.dstealGrid d) 3
      ∧ ((s.core victim).lost ≠ 1 →
          (((s.core victim).ni.pallet = [] ∨ ¬ may) → exec (.stealRequest victim thief x rest) s = reply s none)
            ∧ ((s.core victim).ni.pallet = e :: es → may → exec (.stealRequest victim thief x rest) s = reply
                (s.mapNi victim fun ni => { ni with pallet := if 2 ≤ e.hi - e.lo then { e with hi := mid } :: es else es })
                (some (mid, e.hi, e.tag))))
      ∧ (∀ lo hi tag, exec (.stealResponse thief x (some (lo, hi, tag)) rest) s = .next ((s.mapNi thief fun ni =>
          { ni with places := ni.places - 1, pallet := ni.pallet ++ [⟨lo, hi, tag⟩] }).stealEnd thief x 1))
      ∧ exec (.stealResponse thief x none []) s =
          .next ((s.mapNi thief fun ni => { ni with places := ni.places - 1 }).stealEnd thief x 0)

/-- The mailbox instructions complete (R261 to R263): PMCFG sets an instance up, or reports why not; PMPOST sends a
post with its key, tie, value and notice, counted or posted; PMDRAIN gives the entry that ranks first and its key, or
zero and all ones. A post at its mailbox (R262): a duplicate is dropped, and a post to a closed window is not kept;
room keeps it; a full instance keeps the higher ranks, or in ARRIVAL mode the earlier posts. The number of entries
never passes the depth. -/
def Obligations.Mailboxes : Prop :=
  (∀ (s : State) (d a b : BitVec 6),
     let inst := (s.g a).val.toNat % 64
     let cfg := (s.g b).val.toNat
     let depth := cfg % 512
     let bad := cfg / 2 ^ 12 ≠ 0 ∨ cfg / 2 ^ 9 % 4 = 3 ∨ 256 < depth
     let others := ((s.here.ni.mail.filter fun (i, _) => i != inst).map fun (_, m) => m.depth).sum
     let box : Mailbox := { depth, mode := cfg / 2 ^ 9 % 4, notice := decide (cfg / 2 ^ 11 % 2 = 1) }
     let mail' := if depth = 0 then Sparse.erase s.here.ni.mail inst else Sparse.set s.here.ni.mail inst box
     (Ready s [a, b] → exec (.pmcfg d a b) s = if bad then wrote s d 2 0 else if 256 < others + depth then wrote s d 1 0
         else wrote (s.mapNi s.cur fun ni => { ni with mail := mail' }) d 0 0)
       ∧ (∀ k team nk nteam, let nd := (s.g 58).val; let abs := fun d : Word => if dMode d = 2 then [60] else []
           Ready s ([a, 56, 57, 58, 59] ++ abs (s.g a).val ++ abs nd) → (s.g a).val.toNat / 2 ^ 22 % 2 ^ 6 = 0 →
           s.resolve s.cur (s.g 60) (s.g a).val = .core k team → s.resolve s.cur (s.g 60) nd = .core nk nteam →
           s.counterFull (.share k) = false →
           let own := modOf k == modOf s.cur
           let p : MailPost := { core := s.cur, ctx := s.ctx, op := s.task.opNo, counted := own, dst := k, team, pos := s.posOf team k
                                 inst := (s.g a).val.toNat / 2 ^ 16 % 64
                                 key := (s.g 56).val.extractLsb' 32 32, tie := (s.g 56).val.extractLsb' 0 32
                                 value := (s.g 57).val
                                 notice := s.posed { noMsg with dst := nk, team := nteam, handler := dHandler nd, cls := dClass nd }
                                 garg := (s.g 59).val }
           exec (.pmpost a) s = retired (((s.countOp (modOf k)).addOp
             { op := 0, gen := 0, kind := .post, place := .share k, counted := own, mail := some p }).kick s.cur s.ctx))
       ∧ (Ready s [a] → Sparse.find s.here.ni.mail inst = none →
           exec (.pmdrain d a b) s = wrote (s.writeG d.toNat {}) b (BitVec.allOnes 64) 0)
       ∧ (∀ m, Ready s [a] → Sparse.find s.here.ni.mail inst = some m → (m.mode = 0 ∨ m.closed = true ∨ m.deferred = []) →
           let out := if m.mode = 2 then m.entries.head? else mailBest m.entries
           let left := match out with
             | some e => m.entries.erase e
             | none => []
           let m' := { m with entries := left, closed := decide (m.mode = 1 ∨ m.mode = 2) && !left.isEmpty, deferred := [] }
           let u := s.mapNi s.cur fun ni => { ni with mail := Sparse.set ni.mail inst m' }
           exec (.pmdrain d a b) s = match out with
             | some e => wrote (u.writeG d.toNat { val := e.post.value }) b (e.post.key ++ e.post.tie) 0
             | none => wrote (u.writeG d.toNat {}) b (BitVec.allOnes 64) 0))
    ∧ ((∀ (b : Mailbox) (p : MailPost),
         let m := (mailInsert b p).1
         let dup := b.entries.any fun e => e.post.key == p.key && e.post.tie == p.tie && e.post.value == p.value
         (b.entries.length ≤ b.depth → m.entries.length ≤ b.depth) ∧ m.depth = b.depth ∧ m.mode = b.mode ∧ m.closed = b.closed
           ∧ ((dup = true ∨ b.closed = true) → m.entries = b.entries)
           ∧ (dup = false → b.closed = false → b.entries.length < b.depth → m.entries = b.entries ++ [⟨p⟩] ∧ (mailInsert b p).2 = none)
           ∧ (dup = false → b.closed = false → b.depth ≤ b.entries.length → b.mode = 2 → m.entries = b.entries)
           ∧ (∀ w, dup = false → b.closed = false → b.depth ≤ b.entries.length → b.mode ≠ 2 → mailWorst b.entries = some w →
               m.entries = if ranksAbove p w.post then b.entries.erase w ++ [⟨p⟩] else b.entries))
         ∧ ∀ (s : State) (p : MailPost), (s.core p.dst).lost ≠ 1 →
           let e := Event.mailboxPost p
           let ends := fun u : State => exec (.mailboxPost p) s = .next (u.performed p.core p.ctx p.op p.counted e)
           let mail := Sparse.find (s.mailAt p) p.inst
           (p.tie = BitVec.allOnes 32 → ends s)
             ∧ (p.tie ≠ BitVec.allOnes 32 → mail = none → ends (s.mailNotice p.dst p.inst p 4))
             ∧ (∀ b, p.tie ≠ BitVec.allOnes 32 → mail = some b → let u := s.putMail p p.inst (mailInsert b p).1
                 ((mailInsert b p).2 = none → ends u)
                   ∧ ∀ q cause, (mailInsert b p).2 = some (q, cause) → ends (u.mailNotice p.dst p.inst q cause))
             ∧ (p.counted = true → s.windowOf e = none → ∀ op, Event.storeAck p.core p.ctx ∈ (s.performed p.core p.ctx op true e).agenda))

/-- BINIT and BSTAT complete (R264, R265, R270): with a SYNC authority a new block of the issuing core takes the
lowest free index and its capability goes to gd; without a free block, or with a word that is not allowed, gd takes an
untagged zero; with the capability of a block whose episode is open and empty, it is set up again. BSTAT gives the
block's word. Where the rules are silent it rests on the model's reading (log 105). -/
def Obligations.BlockInstructions : Prop :=
  ∀ (s : State) (d a b : BitVec 6),
    let c := s.g a
    let w := (s.g b).val.toNat
    let count := w % 2 ^ 16
    let group := decide (w / 2 ^ 16 % 2 = 1)
    let bad := w / 2 ^ 17 ≠ 0 ∨ (group = false ∧ count = 0)
    let authority := c.tag = true ∧ capOtype c.desc = 0 ∧ hasPerm c.desc pSYNC = true
    (Ready s [a, b] → authority → (s.freeBlock = none ∨ bad) → exec (.binit d a b) s = wroteReg s d {})
      ∧ (∀ name, Ready s [a, b] → authority → s.freeBlock = some name → ¬ bad →
          exec (.binit d a b) s = wroteReg (s.putBlock name
            { group, count, expected := if group then 0 else count, openedAt := s.here.cycle
              frozen := s.gridFrozen (blkGrid name) }) d (syncReg name (hasPerm c.desc pGLOBAL)))
      ∧ (∀ blk : SyncBlock, Ready s [a, b] → syncCapOk c = true → s.blockAt c.val = some blk → blk.arrived = 0 → ¬ bad →
          let members := if group && blk.group then blk.members else []
          exec (.binit d a b) s = wroteReg (s.putBlock c.val { blk with
            group, count, members, roll := members, expected := if group then members.length else count }) d
              (syncReg c.val (hasPerm c.desc pGLOBAL)))
      ∧ (∀ blk, Ready s [a] → syncCapOk c = true → s.blockAt c.val = some blk → blk.poisoned = false →
          exec (.bstat d a) s = wrote s d (bstatWord blk) 0)
      ∧ (Ready s [a] → syncCapOk c = false → exec (.bstat d a) s = trapped s cCAP c.val)

/-- Barriers (R143, R266, R267): BARR leaves an arrival in the context's order, a release at SYSTEM scope, and notes
the block; BWAIT writes the status, an acquire at the core where it is DONE, and goes on, or parks until it is known;
where the context has arrived nowhere it traps. An arrival at a core whose NI state is not being copied completes: at
a poisoned block and as a core that is no member it reports POISONED or REFUSED to its context, else it is counted and
the core's list of groups notes the episode, which ends where the count is complete. The end of an episode (R265,
R266): the block's episode goes up by one, modulo 2^24, with no arrival counted and the membership of the moment, and
records whether it was broken. -/
def Obligations.Barriers : Prop :=
  (∀ (s : State) (d a b : BitVec 6) (blk : SyncBlock) (arr : Arrival),
     let c := s.g a
     let w := (s.g b).val.toNat
     let cont := decide (w / 2 ^ 63 = 1)
     let team := (s.teamAt s.cur).map fun t => (t.grid, t.idx)
     let msg := s.posed { noMsg with
       dst := s.cur, team, handler := w % 2 ^ 12, cls := w / 2 ^ 12 % 4, release := true
       a2 := (s.g 56).val, a3 := (s.g 57).val, a4 := (s.g 58).val }
     let here : Arrival := { blk := c.val, core := s.cur, ctx := s.ctx, gen := s.task.gen, op := s.task.opNo
                             cont := if cont then some msg else none }
     let counted : Counted := ⟨arr.core, arr.ctx, arr.gen, arr.op, arr.cont⟩
     let v := { s with cur := arr.core, ctx := arr.ctx }
     let key := v.memberKey arr.core
     let free := (s.core ((s.syncOwner arr.core arr.blk).getD arr.core)).lost ≠ 1
     (s.task.txn = none → s.here.poisonMark = false → Ready s ([a, b] ++ if cont then [56, 57, 58] else []) →
         w / 2 ^ 14 % 2 ^ 49 = 0 → syncCapOk c = true → s.blockAt c.val = some blk → blk.poisoned = false →
         exec (.barr a b) s = retired (((s.mapTask fun t => { t with barr := some { blk := c.val, op := s.task.opNo } }).addOp
           { op := 0, gen := 0, kind := .arrival, rel := some 5, arr := some here }).kick s.cur s.ctx))
       ∧ (s.task.txn = none → s.here.poisonMark = false →
           (s.task.barr = none → exec (.bwait d) s = trapped s cILLEGAL 0)
             ∧ ∀ r : BarrRec, s.task.barr = some r → (s.blockAt r.blk).any (·.poisoned) = false →
               (∀ st, r.status = some st → st ≠ 3 → exec (.bwait d) s =
                   wrote (if st = 0 then s.dropCopies s.cur else s) d (BitVec.ofNat 64 st) 0)
                 ∧ (r.status = none → parkedHere s < (s.imageAt s.cur).park → exec (.bwait d) s = parkedAs s (.bwait d.toNat)))
       ∧ (free → ∃ t, exec (.barrierArrival arr) s = .next t ∧ t.cur = s.cur ∧ t.ctx = s.ctx)
       ∧ (free → v.blockAt arr.blk = some blk → blk.poisoned = true → exec (.barrierArrival arr) s =
           .next { (v.barrStatus counted arr.blk 3) with cur := s.cur, ctx := s.ctx })
       ∧ (free → v.blockAt arr.blk = some blk → blk.poisoned = false → blk.group = true → key ∉ blk.roll →
           exec (.barrierArrival arr) s = .next { (v.barrStatus counted arr.blk 2) with cur := s.cur, ctx := s.ctx })
       ∧ (free → v.blockAt arr.blk = some blk → blk.poisoned = false → (blk.group = true → key ∈ blk.roll) →
           let u := v.mapNi arr.core fun ni => { ni with groups := ni.groups.map fun (g, e) =>
             if g = arr.blk then (g, blk.episode + 1) else (g, e) }
           let site := siteOf arr.core % 24
           let time := sat32 (((v.core (v.blockOwner arr.blk)).cycle : Int) - blk.openedAt).toNat
           let u := match blk.plumb, u.plumbAt arr.blk blk with
             | some i, some p => u.putPlumb arr.blk i { p with cur := Sparse.set p.cur site time, lastSite := site }
             | _, _ => u
           let counts := u.putBlock arr.blk { blk with arrived := blk.arrived + 1, arrivals := blk.arrivals ++ [counted] }
           exec (.barrierArrival arr) s = .next { (counts.completeIf arr.blk site) with cur := s.cur, ctx := s.ctx }))
    ∧ (∀ (s : State) (w : Word) (b : SyncBlock) (broken : Bool) (expected : Nat),
         Sparse.sortedFrom 0 s.teams = true → s.blockAt w = some b → b.arrivals = [] →
         ∃ n, (s.endEpisode w b broken expected).blockAt w = some n ∧ n.episode = (b.episode + 1) % 2 ^ 24 ∧ n.arrived = 0
           ∧ n.expected = expected ∧ n.lastBroken = broken ∧ n.arrivals = [] ∧ n.members = b.members ∧ n.roll = b.members
           ∧ n.group = b.group ∧ n.count = b.count)

/-- Groups and plumb records complete (R268, R271, R272): GJOIN and GLEAVE change the membership and report; PLCFG
takes a record of the core for a block, sets it up anew, or lets it go, with clear notices for the sites it flagged;
PLREAD gives a word of it; flag and clear notices reach a core's NI. Where the rules are silent it rests on the
model's reading (logs 64 and 106). -/
def Obligations.GroupsAndPlumbs : Prop :=
  ∀ (s : State) (d a b : BitVec 6) (blk : SyncBlock) (core record i : Nat),
    let c := s.g a
    let w := c.val
    let key := s.memberKey s.cur
    let cfg := (s.g b).val.toNat
    let t := cfg % 2 ^ 8
    let put := fun (p : Option Nat) (u : State) => u.putBlock w { blk with plumb := p }
    (s.task.txn = none → Ready s [a] → syncCapOk c = true → s.blockAt w = some blk → blk.group = true →
        (key ∈ blk.members → exec (.gjoin d a) s = wrote s d 0 0)
          ∧ (key ∉ blk.members → s.here.ni.groups.length < 32 → exec (.gjoin d a) s = wrote
              ((s.mapNi s.cur fun ni => { ni with groups := ni.groups ++ [(w, 0)] }).putBlock w
                { blk with members := blk.members ++ [key] }) d 1 0)
          ∧ (key ∉ blk.members → 32 ≤ s.here.ni.groups.length → exec (.gjoin d a) s = wrote s d 2 0)
          ∧ (key ∉ blk.members → exec (.gleave d a) s = wrote s d 0 0)
          ∧ (key ∈ blk.members →
              let now := !(s.here.ni.groups.any fun (g, e) => g == w && e == blk.episode + 1) && blk.roll.contains key
              let u := (s.mapNi s.cur fun ni => { ni with groups := ni.groups.filter fun (g, _) => g != w }).putBlock w
                { blk with members := blk.members.filter (· != key), roll := blk.roll.filter (· != key)
                           expected := if now then blk.expected - 1 else blk.expected }
              exec (.gleave d a) s = wrote (if now then u.completeIf w (siteOf s.cur % 24) else u) d 1 0))
      ∧ (Ready s [a, b] → syncCapOk c = true → s.blockAt w = some blk →
          (cfg / 2 ^ 40 ≠ 0 → exec (.plcfg d a b) s = wrote s d 2 0)
            ∧ (cfg / 2 ^ 40 = 0 → t = 0 → blk.plumb = none → exec (.plcfg d a b) s = wrote (put none s) d 0 0)
            ∧ (cfg / 2 ^ 40 = 0 → t ≠ 0 → blk.plumb = none →
                ((List.range 4).find? fun i => !((s.syncStore w).any fun (_, ps) => (Sparse.get {} ps i : Plumb).used)) = some i →
                exec (.plcfg d a b) s = wrote (put (some i) (s.putPlumb w i
                  { used := true, thresh := cfg / 2 ^ 8 % 2 ^ 32, t })) d 0 0)
            ∧ (∀ p : Plumb, cfg / 2 ^ 40 = 0 → blk.plumb = some i → s.plumbAt w blk = some p →
                let u := p.flagged.foldl (fun s j => s.flagNotices w j false) s
                (t = 0 → exec (.plcfg d a b) s = wrote (put none (u.putPlumb w i {})) d 0 0)
                  ∧ (t ≠ 0 → exec (.plcfg d a b) s = wrote (put (some i) (u.putPlumb w i
                      { p with used := true, thresh := cfg / 2 ^ 8 % 2 ^ 32, t, scored := 0, scores := [], flagged := [] })) d 0 0))
            ∧ exec (.plread d a b) s = wrote s d (match s.plumbAt w blk with
                | some p => if 16 < cfg then 0 else plumbWord p cfg
                | none => 0) 0)
      ∧ exec (.flagNotice core record) s = .next (s.mapNi core fun ni => { ni with flags := insertNat ni.flags record })
      ∧ exec (.clearNotice core record) s = .next (s.mapNi core fun ni => { ni with flags := eraseNat ni.flags record })

/-- CSRR and CSRW (R90, R211 to R214, R360): a read gives the register's value, untagged and untainted, and for MCCNT
clears its counters; a number that is not assigned at the task's level, or not writable, takes ILLEGAL. A write
changes the FPSTAT of the task alone, ends a translation fault, or goes to the partition. What the readable registers
are (R90, R212 to R214, R397, R400): FPSTAT, the message identity, the budget, the core's cycles, the instructions
retired, and at supervisor level the trap record and the root of translation. FPSTAT (R90): a write stores SRSTATE,
zero as one, a rounding mode other than 6 and 7, and clears the flags written as one; SRSEED changes SRSTATE alone.
SRSTATE is never zero after a write. -/
def Obligations.ControlRegisters : Prop :=
  (∀ (s : State) (d g : BitVec 6) (c : BitVec 12) (v : Word),
     let n := c.toNat
     let x := (s.g g).val
     let writable := n ∈ [0x001, 0x002, 0x802, 0x803, 0x812, 0x813, 0x814, 0x824]
     let h := modOf s.cur * 2 ^ 32 + x.toNat % 2 ^ 32
     (csrRead s n = some v → n ≠ 0x825 → exec (.csrr d c) s = wrote s d v 0)
       ∧ (csrRead s n = none → exec (.csrr d c) s = trapped s cILLEGAL 0 ∧ exec (.csrw g c) s = trapped s cILLEGAL 0)
       ∧ (¬ writable → exec (.csrw g c) s = trapped s cILLEGAL 0)
       ∧ (2048 ≤ n → s.supAt s.cur = false → csrRead s n = none)
       ∧ (csrRead s n = some v → writable → s.busyG g = false →
           (n = 0x001 → exec (.csrw g c) s = retired (s.mapTask fun t => { t with fpstat := fpstatWrite t.fpstat x }))
             ∧ (n = 0x002 → exec (.csrw g c) s = retired (s.mapTask fun t => { t with fpstat := srseedWrite t.fpstat x }))
             ∧ (n = 0x812 → exec (.csrw g c) s = retired
                 (if x.toNat / 2 ^ 32 % 4 = 0 then s.push (.fltdoneRetry h)
                  else if x.toNat / 2 ^ 32 % 4 = 1 then s.push (.fltdoneFail h) else s))
             ∧ (n ≠ 0x001 → n ≠ 0x002 → n ≠ 0x812 → exec (.csrw g c) s = retired (s.spreadCsr n (csrStored n x))))
       ∧ exec (.mccntRead d) s = wrote (s.mapSite (siteOf s.cur) fun t =>
           { t with mcLost := 0, dramc := 0, sramc := 0, lanes := 0 }) d (mcCnt (s.site (siteOf s.cur))) 0
       ∧ (c = 0x825 → s.supAt s.cur = true → exec (.csrr d c) s = exec (.mccntRead d) s)
       ∧ exec (.srseedWrite v) s = .next (s.mapTask fun t => { t with fpstat := srseedWrite t.fpstat v }))
    ∧ (∀ s : State,
         let word := BitVec.ofNat 64
         csrRead s 0x001 = some s.task.fpstat ∧ csrRead s 0x002 = some 0 ∧ csrRead s 0x014 = some s.task.msg.id
           ∧ csrRead s 0x018 = some (word s.task.budget) ∧ csrRead s 0x019 = some (word (s.imageAt s.cur).budget)
           ∧ csrRead s 0x020 = some (word s.here.cycle) ∧ csrRead s 0x021 = some (word s.task.retired)
           ∧ csrRead s 0x030 = some (word s.here.ni.orphans) ∧ csrRead s 0x035 = some (word s.here.ni.strays)
           ∧ csrRead s 0x036 = some (word s.here.ni.replays) ∧ csrRead s 0x037 = some (word s.here.ni.torn)
           ∧ (s.supAt s.cur = true → csrRead s 0x820 = some s.here.trap0 ∧ csrRead s 0x821 = some s.here.trap1
               ∧ csrRead s 0x822 = some s.here.trap2 ∧ csrRead s 0x823 = some s.here.trap3 ∧ csrRead s 0x812 = some 0
               ∧ csrRead s 0x810 = some (s.part (s.partAt s.cur)).troot))
    ∧ (∀ old w : Word,
         let sr := fun x : Word => x.toNat / 2 ^ 32
         let rm := fun x : Word => x.toNat / 2 ^ 8 % 8
         let nz := fun n : Nat => if n = 0 then 1 else n
         let f := fpstatWrite old w
         sr f = nz (sr w) ∧ rm f = (if 6 ≤ rm w then rm old else rm w)
           ∧ (∀ i, i < 5 → f.getLsbD i = (old.getLsbD i && !w.getLsbD i))
           ∧ (∀ i, (5 ≤ i ∧ i < 8) ∨ (11 ≤ i ∧ i < 32) → f.getLsbD i = false)
           ∧ sr (srseedWrite old w) = nz (w.toNat % 2 ^ 32) ∧ (srseedWrite old w).toNat % 2 ^ 32 = old.toNat % 2 ^ 32)

/-- A partition-wide register (R360): the write stands at the writing core at once; another core of the partition
holds its old value until the update arrives, and then the new one. A privileged function (R352, R355) in a user task,
in a transaction or in a repeat body takes ILLEGAL; ERRINJ does without INJEN, and REGREL is open to user tasks. -/
def Obligations.PrivilegedRegisters : Prop :=
  (∀ (s : State) (csr k : Nat) (v : Word),
     csr ∈ [0x802, 0x803, 0x813, 0x814, 0x824] → (Sparse.find s.parts (s.partAt s.cur)).isSome = true →
     Sparse.sortedFrom 0 s.parts = true →
     let u := s.spreadCsr csr v
     u.csrAt s.cur csr = v
       ∧ (k ≠ s.cur → (Sparse.find s.cores k).isSome = true → s.partAt k = s.partAt s.cur →
           u.csrAt k csr = s.csrAt k csr ∧ Event.csrSpread k csr v ∈ u.agenda
             ∧ Completes (exec (.csrSpread k csr v) u) fun t => t.csrAt k csr = v))
    ∧ (∀ (s : State) (d a b : BitVec 6),
         let inside := s.task.txn.isSome = true ∨ s.task.frame.isSome = true
         let refuses := fun i => exec i s = trapped s cILLEGAL 0
         ((s.supAt s.cur = false ∨ inside) → refuses (.sealroot d a b) ∧ refuses (.tlbinvPage d a b) ∧ refuses (.bankcfg d a b)
             ∧ refuses (.freeze d a b) ∧ refuses (.kill d a b) ∧ refuses (.errinj d a b))
           ∧ (inside → refuses (.regrel d a)) ∧ ((s.part (s.partAt s.cur)).injen = false → refuses (.errinj d a b)))

/-- The privileged functions complete at supervisor level, and REGREL at either, outside a transaction and a repeat
body (R355 to R359, R391, R392), a capability of less than the region taking CAP and another cursor of the region
ALIGN; BANKCFG's change acts from the next cycle (R113). TRAP, BKPT and IDLE (R402, R412, R162): TRAP takes a
terminating trap with its code; BKPT only retires without a debugger, and with one halts the context there and freezes
its grid, after aborting a transaction with code 10; IDLE stalls for up to 256 cycles. -/
def Obligations.PrivilegedFunctions : Prop :=
  (∀ (s : State) (d a b : BitVec 6), s.task.txn = none → s.task.frame = none → Ready s [a, b] →
     let x := (s.g a).val
     let y := (s.g b).val
     let lo := x.toNat
     let n := y.toNat
     let p := s.part (s.partAt s.cur)
     let st := siteOf s.cur
     let status := fun (u : State) (n : Nat) => wrote u d (BitVec.ofNat 64 n) 0
     let allowed := 1 ≤ n ∧ lo + n ≤ 0x1000 ∧ ((lo = 1 ∧ n = 1) ∨ (p.sealLo ≤ lo ∧ lo + n - 1 ≤ p.sealHi))
     let desc := mkDesc (permSet [pSEAL, pUNSEAL, pGLOBAL]) 0 0 lo (lo + n)
     let bk := bankNo st (lo / 2 ^ 4 % 2 ^ 6) (lo % 2 ^ 4)
     let tlbinvs := fun ins => ∀ k team, Ready s [56, 57, 58, 59, 60] → s.task.sack = 0 →
       s.resolve s.cur (s.g 60) (s.g 56).val = .core k team →
       let id := (s.site st).shootId
       let m := s.posed { noMsg with
         src := s.cur, dst := k, handler := dHandler (s.g 56).val, cls := dClass (s.g 56).val, a2 := (s.g 57).val
         a3 := (s.g 58).val, a4 := (s.g 59).val, team }
       exec ins s = if s.tlbinvStatus x y ≠ 0 then status s (s.tlbinvStatus x y)
         else status ((s.mapSite st fun t =>
           { t with shoots := t.shoots ++ [{ id, op := n % 4, arg := lo, status := 0, comp := m }], shootId := id + 1 }).push
             (.tlbinvCompletion (s.partAt s.cur) (st * 2 ^ 32 + id))) 0
     let controls := fun ins (f : Nat → Team → Host.Outcome State Fault Refusal) op => n = op →
       exec ins s = match s.teamNamed x with
         | none => status s 1
         | some (uid, t) => f uid t
     (s.supAt s.cur = true → exec (.sealroot d a b) s = wroteReg s d { val := BitVec.ofNat 64 lo, desc, tag := decide allowed }
       ∧ tlbinvs (.tlbinvPage d a b) ∧ tlbinvs (.tlbinvAll d a b) ∧ tlbinvs (.tlbinvStripe d a b) ∧ tlbinvs (.rowmove d a b)
       ∧ exec (.bankcfg d a b) s = (if s.bankStatus x y ≠ 0 then status s (s.bankStatus x y)
           else status (if (s.bank bk).mode = wordMode y then s else s.mapBank bk fun b => { b with next := some y }) 0)
       ∧ controls (.freeze d a b) (fun uid t => if t.frozen then status s 2 else status (s.freezeTeam uid) 0) 0
       ∧ controls (.thaw d a b) (fun uid t => if t.frozen then status (s.thawTeam uid) 0 else status s 2) 1
       ∧ controls (.preempt d a b) (fun uid _ => status (s.preemptTeam uid) 0) 2
       ∧ controls (.kill d a b) (fun uid _ => .next ((s.writeG d.toNat {}).advance.killTeam uid)) 3
       ∧ (4 ≤ n → exec (.freeze d a b) s = status s 3)
       ∧ (p.injen = true →
           let r := match lo / 2 ^ 60 with
             | 0 => s.injectTile x y
             | 1 => s.injectData (.cluster s.cur ·) x y
             | 2 => s.injectData .l2 x y
             | 3 => s.injectData .line x y
             | 4 => s.injectLink x y
             | _ => (s, 2)
           exec (.errinj d a b) s = status r.1 r.2))
       ∧ (capFault (s.supAt s.cur) (s.g a) x 65536 [pST] 1 = none → lo % 65536 = 0 → s.task.sack = 0 →
           (s.xlate s.cur lo .read = .touch ∨ ∃ pa pl, s.xlate s.cur lo .read = .ok pa pl) →
           exec (.regrel d a) s = .next ((s.mapTask fun t => { t with wait := some (.regrel d.toNat) }).push
             (.regrelComplete s.cur s.ctx (lo / 65536))))
       ∧ (∀ c, capFault (s.supAt s.cur) (s.g a) (BitVec.ofNat 64 (lo / 65536 * 65536)) 65536 [pST] 1 = some c →
           exec (.regrel d a) s = trapped s c (BitVec.ofNat 64 (lo / 65536 * 65536)))
       ∧ (capFault (s.supAt s.cur) (s.g a) (BitVec.ofNat 64 (lo / 65536 * 65536)) 65536 [pST] 1 = none → lo % 65536 ≠ 0 →
           exec (.regrel d a) s = trapped s cALIGN x))
    ∧ (∀ (s : State) (k : BitVec 12),
         let halts := fun (u : State) inside => Host.Outcome.next ((u.mapTask fun t =>
           { t with halted := true, atBkpt := !inside }).freezeGrid s.cur)
         exec (.trap k) s = .next (s.takeTrap s.cur s.ctx cTRAP k.toNat (State.instrPc s.task) 0 false)
           ∧ ((s.part (s.partAt s.cur)).attached = false → exec .bkpt s = retired s)
           ∧ ((s.part (s.partAt s.cur)).attached = true → s.task.txn = none → exec .bkpt s = halts s false)
           ∧ ((s.part (s.partAt s.cur)).attached = true → s.task.txn.isSome = true →
               exec .bkpt s = halts (s.abortTxn s.cur s.ctx 10 0 false) true)
           ∧ exec .idle s = .next (s.mapTask fun t => { t with idle := some (s.here.cycle + 256) }))

/-- The lane-wise integer instructions, VSEL and VSHUF complete (R275, R276, R283, R286, R289) with the lanes of their
operands combined, whether the operands and the result are registers or streams. -/
def Obligations.VectorIntegers : Prop :=
  ∀ (s s1 s2 : State) (d a b : BitVec 6) (m : BitVec 3) (w : BitVec 2) (x y : VReg),
    Source s a x s1 → Source s1 b y s2 → Calm s s2 → StreamsReady s (streamsOf [a, b]) (streamsOf [d]).head? false →
    let n := 8 * 2 ^ w.toNat
    let k := s2.m m.toNat
    let gives := fun ins n (f : Nat → Nat → Nat) => Delivers s s2 d n k (m != 0)
      ((List.range (512 / n)).map fun i => f (lane n x.val i) (lane n y.val i)) (x.taint ||| y.taint) (exec ins s)
    let sig := fun z : Nat => if z < 2 ^ (n - 1) then (z : Int) else (z : Int) - 2 ^ n
    let cut := fun i : Int => (i % 2 ^ n).toNat
    gives (.vadd d a b m w) n (fun p q => (p + q) % 2 ^ n) ∧ gives (.vsub d a b m w) n (fun p q => cut ((p : Int) - q))
      ∧ gives (.vmul d a b m w) n (fun p q => p * q % 2 ^ n)
      ∧ gives (.vmulh d a b m w) n (fun p q => cut (sig p * sig q / 2 ^ n))
      ∧ gives (.vshl d a b m w) n (fun p q => p * 2 ^ (q % n) % 2 ^ n) ∧ gives (.vshr d a b m w) n (fun p q => p / 2 ^ (q % n))
      ∧ gives (.vsra d a b m w) n (fun p q => cut (sig p / 2 ^ (q % n)))
      ∧ gives (.vmin d a b m w) n (fun p q => if sig q < sig p then q else p)
      ∧ gives (.vmax d a b m w) n (fun p q => if sig p < sig q then q else p)
      ∧ gives (.vand d a b m) 64 (fun p q => p &&& q) ∧ gives (.vor d a b m) 64 (fun p q => p ||| q)
      ∧ gives (.vxor d a b m) 64 (fun p q => p ^^^ q)
      ∧ Delivers s s2 d n ⟨BitVec.allOnes 64, k.taint⟩ false
          ((List.range (512 / n)).map fun i => if k.val.getLsbD i then lane n x.val i else lane n y.val i)
          (x.taint ||| y.taint) (exec (.vsel d a b m w) s)
      ∧ Delivers s s2 d n k true
          ((List.range (512 / n)).map fun i => if lane n y.val i < 512 / n then lane n x.val (lane n y.val i) else 0)
          (x.taint ||| y.taint) (exec (.vshuf d a b m w) s)

/-- The other permutations and the mask instructions complete (R289, R291): VEXTR and VSLIDE take gb as it stands
before va is popped (R80). -/
def Obligations.PermutationsAndMasks : Prop :=
  ∀ (s s1 : State) (d a b : BitVec 6) (m : BitVec 3) (w : BitVec 2) (x : VReg),
    let n := 8 * 2 ^ w.toNat
    let lanes := 512 / n
    let open_ := fun ks => StreamsReady s ks (streamsOf [d]).head? false
    let i := (s.g b).val.toNat % lanes
    let k := s.m m.toNat
    let low := (s.g a).val.toNat % 2 ^ n
    let j := (s.g b).val.toInt
    let masks := fun ins (v : Word) => exec ins s =
      retired (s.writeM d.toNat ⟨v, (s.m a.toNat).taint ||| (s.m b.toNat).taint⟩)
    let u := (s.m a.toNat).val
    let v := (s.m b.toNat).val
    (s.stalled = false → open_ [] → s.busyG a = false →
        Delivers s s d n k true (List.replicate lanes low) (s.g a).taint (exec (.vbcast d a m w) s))
      ∧ (s.busyG b = false → Source s a x s1 → Calm s s1 → StreamsReady s (streamsOf [a]) none false →
          exec (.vextr d a b w) s = finished (s1.writeG d.toNat
            { val := BitVec.ofNat 64 (lane n x.val ((s.g b).val.toNat % lanes)), taint := x.taint ||| (s.g b).taint }))
      ∧ (d.toNat < 32 → s.busyV d.toNat = false → s.busyG a = false → s.busyG b = false →
          let at_ := fun l => if l = i ∧ k.val.getLsbD i = true then low else lane n (s.v d.toNat).val l
          exec (.vins d a b m w) s = retired (s.writeV d.toNat { val := ofLanes n ((List.range lanes).map at_), taint := (s.g a).taint ||| (s.g b).taint ||| k.taint ||| (s.v d.toNat).taint }))
      ∧ (open_ (streamsOf [a]) → s.busyG b = false → Source s a x s1 → Calm s s1 →
          Delivers s s1 d n (s1.m m.toNat) true
            ((List.range lanes).map fun l => if 0 ≤ (l : Int) + j ∧ (l : Int) + j < lanes then lane n x.val ((l : Int) + j).toNat else 0)
            (x.taint ||| (s.g b).taint) (exec (.vslide d a b m w) s))
      ∧ masks (.mand d a b) (u &&& v) ∧ masks (.mor d a b) (u ||| v) ∧ masks (.mxor d a b) (u ^^^ v)
      ∧ exec (.mnot d a) s = retired (s.writeM d.toNat ⟨~~~u, (s.m a.toNat).taint⟩)
      ∧ exec (.mpopc d a) s = wrote s d (BitVec.ofNat 64 ((List.range 64).map fun i => if u.getLsbD i then 1 else 0).sum)
          (s.m a.toNat).taint
      ∧ (∃ r : Nat, exec (.mfirst d a) s = wrote s d (BitVec.ofNat 64 r) (s.m a.toNat).taint ∧ r ≤ 64
          ∧ (r < 64 → u.getLsbD r = true) ∧ ∀ i, i < r → u.getLsbD i = false)

/-- The floating-point lane instructions complete (R278, R284, R285, R89, R91): the active lanes are decoded, the
exact results rounded in ascending order in FPSTAT's mode, with the flags raised and the generator stepped; VFMIN and
VFMAX round nothing; VCMP writes a mask. -/
def Obligations.VectorFloats : Prop :=
  ∀ (s s1 s2 : State) (d a b : BitVec 6) (m : BitVec 3) (t : BitVec 2) (x y : VReg) (c p t' : BitVec 3),
    Source s a x s1 → Source s1 b y s2 → Calm s s2 →
    let ready := fun ks fs => StreamsReady s (streamsOf ks) (streamsOf fs).head? false
    let f := laneFmt t
    let w := f.bits
    let k := s2.m m.toNat
    let env := FpEnv.of s2.task.fpstat
    let rounded := fun (z : Nat → Option (Exact × BitVec 5)) => roundLanes f (fpMode s2.task.fpstat) false
      ((List.range (512 / w)).map fun i => if k.val.getLsbD i then z i else none) env
    let u := fun i => f.decode (lane w x.val i)
    let v := fun i => f.decode (lane w y.val i)
    let z := fun i => f.decode (lane w (s2.v d.toNat).val i)
    let mode := fpMode s.task.fpstat
    let lanes2 := fun ins (op : Exact → Exact → Exact × BitVec 5) =>
      let out := rounded fun i =>
        let sig := (u i).2 || (v i).2
        some (if sig then .nan else (op (u i).1 (v i).1).1, (op (u i).1 (v i).1).2 ||| snanFlag sig)
      Delivers s (s2.putFp out.2) d w k (m != 0) out.1 (x.taint ||| y.taint) (exec ins s)
    let minmax := fun ins isMax =>
      let rs := (List.range (512 / w)).map fun i =>
        if k.val.getLsbD i then fpMinMax f isMax (lane w x.val i) (lane w y.val i) else (0, 0)
      Delivers s (s2.raise (rs.foldl (fun a r => a ||| r.2) 0)) d w k (m != 0) (rs.map (·.1)) (x.taint ||| y.taint) (exec ins s)
    (ready [a, b] [d] → lanes2 (.vfadd d a b m t) (fun p q => Exact.sum mode [p, q])
        ∧ lanes2 (.vfsub d a b m t) (fun p q => Exact.sum mode [p, q.neg]) ∧ lanes2 (.vfmul d a b m t) Exact.mul
        ∧ lanes2 (.vfdiv d a b m t) Exact.div ∧ minmax (.vfmin d a b m t) false ∧ minmax (.vfmax d a b m t) true)
      ∧ (d.toNat < 32 → s.busyV d.toNat = false → ready [a, b] [d] →
          let out := rounded fun i =>
            let sig := (u i).2 || (v i).2 || (z i).2
            let q := Exact.mul (u i).1 (v i).1
            let r := Exact.sum mode [q.1, (z i).1]
            some (if sig then .nan else r.1, (q.2 ||| r.2) ||| snanFlag sig)
          Delivers s (s2.putFp out.2) d w k true out.1 (x.taint ||| y.taint) (exec (.vfma d a b m t) s))
      ∧ (ready [a] [d] → Calm s s1 →
          let k := s1.m m.toNat
          let out := roundLanes f (fpMode s1.task.fpstat) false ((List.range (512 / w)).map fun i =>
            if k.val.getLsbD i then some (if (u i).2 then .nan else (Exact.sqrt (u i).1).1, (Exact.sqrt (u i).1).2 ||| snanFlag (u i).2)
            else none) (FpEnv.of s1.task.fpstat)
          Delivers s (s1.putFp out.2) d w k (m != 0) out.1 x.taint (exec (.vfsqrt d a m t) s))
      ∧ (ready [a, b] [] → let w := (cmpType t').1;
        let r := fun i => if k.val.getLsbD i then (match (cmpType t').2 with
            | none => (icmp c.toNat w (lane w x.val i) (lane w y.val i), 0)
            | some f => fcmp f c.toNat (lane w x.val i) (lane w y.val i)) else (false, 0);
        let is := List.range (512 / w);
        ∃ bits : Word, (∀ i, bits.getLsbD i = (decide (i < 512 / w) && (r i).1))
          ∧ exec (.vcmp c p a b m t') s = finished ((s2.raise (is.foldl (fun g i => g ||| (r i).2) 0)).writeM p.toNat
              ⟨bits, x.taint ||| y.taint ||| k.taint⟩))

/-- VCVT, VRED and VSCAN complete (R287, R288, R290, R101, R102): the group's elements convert in order, a reduction
leaves the tree's result, or its identity, in lane 0 and zeros elsewhere, and a scan combines in rounds of doubling
distance. Where the rules are silent it rests on the model's reading (log 108). -/
def Obligations.ConversionsAndReductions : Prop :=
  ∀ (s s1 : State) (d a : BitVec 6) (q : BitVec 2) (src t : BitVec 4) (m : BitVec 3) (sat : BitVec 1) (o : BitVec 2) (x : VReg),
    Source s a x s1 → Calm s s1 → StreamsReady s (streamsOf [a]) (streamsOf [d]).head? false →
    let k := s1.m m.toNat
    let env := FpEnv.of s1.task.fpstat
    let mode := fpMode s1.task.fpstat
    let ws := typeBits src.toNat
    let wd := typeBits t.toNat
    let g := min (512 / ws) (512 / wd)
    let on := fun j => k.val.getLsbD (if ws = 4 ∧ wd = 4 then j / 2 else j)
    let from_ := if ws < wd then q.toNat * g else 0
    let into := if wd < ws then q.toNat * g else 0
    let old : VWord := if d.toNat < 32 then (s1.v d.toNat).val else 0
    let part := (lanes wd x.val).zipIdx.map fun (y, i) => if k.val.getLsbD i then some y else none
    (
        let out := convertAll src.toNat t.toNat (sat == 1) mode
          ((List.range g).map fun j => if on j then some (lane ws x.val (from_ + j)) else none) env
        let elems := (List.range (512 / wd)).map fun i => if into ≤ i ∧ i < into + g ∧ on (i - into) = true then out.1.getD (i - into) 0
          else lane wd old i
        Delivers s (s1.putFp out.2) d 64 ⟨BitVec.allOnes 64, k.taint⟩ (m != 0 || decide (g < 512 / wd))
          (lanes 64 (ofLanes wd elems)) x.taint (exec (.vcvt d a q src m sat t) s))
      ∧ (let r := treeReduce t.toNat o.toNat mode (Nat.log2 (512 / wd)) part env;
        Delivers s (s1.putFp r.2) d wd ⟨BitVec.allOnes 64, k.taint⟩ false
          (r.1.getD (redIdentity t.toNat o.toNat) :: List.replicate (512 / wd - 1) 0) x.taint (exec (.vred d a o t m) s))
      ∧ (
          let r := (List.range (Nat.log2 (512 / wd))).foldl (fun (acc : List (Option Nat) × FpEnv) i =>
            scanRound t.toNat o.toNat mode (2 ^ i) acc.1 acc.2) (part, env)
          Delivers s (s1.putFp r.2) d wd k true (r.1.map fun z => z.getD 0) x.taint (exec (.vscan d a o t m) s))

/-- The vector loads and stores complete (R280 to R282): outside a transaction the active lanes' elements are accessed
at the unit-stride, strided or indexed addresses, each checked; a load issues as one operation, a store as one for
each line, where the last lane that writes a byte stands; with no active lane nothing is accessed. Where the rules are
silent it rests on the model's reading (logs 61 and 71). -/
def Obligations.VectorMemory : Prop :=
  ∀ (s : State) (d a b : BitVec 6) (m : BitVec 3) (w : BitVec 2) (ls : List Located),
    s.task.txn = none → s.busyG a = false → d.toNat < 32 →
    let c := s.g a
    let n := 8 * 2 ^ w.toNat
    let k := s.m m.toNat
    let on := (List.range (512 / n)).filter fun i => k.val.getLsbD i
    let size := n / 8
    let unit := fun i => c.val + BitVec.ofNat 64 (i * size)
    let stride := fun i => c.val + BitVec.ofNat 64 i * (s.g b).val
    let index := fun i => c.val + BitVec.ofInt 64 (size * intOf n true (lane n (s.v b.toNat).val i))
    let keep := if m = 0 then 0 else (s.v d.toNat).taint
    let loads := fun ins (τ : BitVec 8) (bcast : Bool) (addr : Nat → Word) =>
      let τ := c.taint ||| τ ||| k.taint
      let xs := (if bcast then on.take 1 else on).map fun i => (addr i, size)
      (on = [] → exec ins s = retired s)
        ∧ (on ≠ [] → PiecesHeld s c pLD size xs → PiecesAt s .read xs ls →
            let u := if ls.any fun l => remoteShare l.place then s.releasePoint else s
            exec ins s = retired (u.issueLoad (.v d.toNat) { op := 0, gen := 0, kind := .load, va := (ls.head?.map (·.va)).getD 0, addrs := ls.flatMap Located.bytes
                                                             fin := .vec on n bcast, place := piecesPlace ls } τ keep))
    let stores := fun ins (τ : BitVec 8) (addr : Nat → Word) =>
      let xs := on.map fun i => (addr i, size)
      let ws := ls.zip (on.map fun i => bytesOf size (lane n (s.v d.toNat).val i))
      PiecesHeld s c pST size xs → PiecesAt s .write xs ls → PiecesCounted s ws →
        exec ins s = retired (piecesStored s ws (c.taint ||| τ ||| k.taint ||| (s.v d.toNat).taint))
    loads (.vld d a m w) 0 false unit ∧ loads (.vldbc d a m w) 0 true (fun _ => c.val)
      ∧ (s.busyG b = false → loads (.vlds d a b m w) (s.g b).taint false stride)
      ∧ (s.busyV b.toNat = false → loads (.vgath d a b m w) (s.v b.toNat).taint false index)
      ∧ (s.busyV d.toNat = false → stores (.vst d a m w) 0 unit
          ∧ (s.busyG b = false → stores (.vsts d a b m w) (s.g b).taint stride)
          ∧ (s.busyV b.toNat = false → stores (.vscat d a b m w) (s.v b.toNat).taint index))

/-- Opening, closing, clearing and moving tiles complete (R293, R294, R298 to R300, R307 to R309). Where the rules are
silent it rests on the model's reading (log 71). -/
def Obligations.TileInstructions : Prop :=
  ∀ (s : State) (d r f : BitVec 3) (g p : BitVec 6) (q q' : Nat) (ls : List Located),
    let t := s.tileAt q
    let named := Sparse.find s.task.tiles d.toNat = some q
    let put := fun (s : State) q t => s.mapCore s.cur fun c => { c with tiles := Sparse.set c.tiles q t }
    let idx := fun j => if (s.g g).val.getLsbD 4 then 16 * j + (s.g g).val.toNat % 16 else 16 * ((s.g g).val.toNat % 16) + j
    let k := p.toNat - 16
    let k2 := (k + 1) % 32
    let c := s.g p
    let rows := (List.range 16).map fun i => c.val + BitVec.ofNat 64 i * (if g = 0 then 128 else (s.g g).val)
    let xs := rows.flatMap fun x => (blockParts x 128).map fun (a, _, n) => (a, n)
    let bytes := (List.range 256).flatMap fun n => bytesOf 8 (elemAt t n).toNat
    let closed := Sparse.find s.task.tiles d.toNat = none
    (closed → exec (.mzero d) s = trapped s cILLEGAL 0 ∧ exec (.mclose d) s = retired s
        ∧ exec (.mrd d p g) s = trapped s cILLEGAL 0 ∧ exec (.mld d p g) s = trapped s cILLEGAL 0
        ∧ (s.freeTile = none → exec (.mopen d g f) s = wrote s g 0 0)
        ∧ (s.freeTile = some q → exec (.mopen d g f) s = wrote ((put s q
            { owner := some s.ctx, mode := if f = 6 then fpMode s.task.fpstat else f.toNat }).mapTask fun t =>
              { t with tiles := Sparse.set t.tiles d.toNat q }) g (BitVec.ofNat 64 (q * 256 + 1)) 0))
      ∧ (named → exec (.mopen d g f) s = wrote s g (BitVec.ofNat 64 (q * 256 + 2)) 0
          ∧ exec (.mclose d) s = retired (((s.cancel (.a q)).mapCore s.cur fun c => { c with tiles := Sparse.set c.tiles q { freed := true } }).mapTask
              fun t => { t with tiles := Sparse.erase t.tiles d.toNat })
          ∧ exec (.mzero d) s = (let u := s.cancel (.a q); retired (put u q { u.tileAt q with elems := [], cc := 0, taint := 0 })))
      ∧ (named → s.task.busy (.a q) = false → s.busyG g = false →
          (let row := fun lo => ofLanes 64 ((List.range 8).map fun j => (elemAt t (idx (lo + j))).toNat);
            exec (.mrd d p g) s = retired ((s.writeV k ⟨row 0, t.taint ||| (s.g g).taint⟩).writeV k2
              ⟨row 8, t.taint ||| (s.g g).taint⟩))
            ∧ (s.busyV k = false → s.busyV k2 = false →
                let new := (List.range 16).foldl (fun m j => Sparse.set m (idx j)
                  (BitVec.ofNat 64 (if j < 8 then lane 64 (s.v k).val j else lane 64 (s.v k2).val (j - 8)))) t.elems
                exec (.mwr d p g) s = retired (put s q { t with
                  elems := new, taint := t.taint ||| (s.v k).taint ||| (s.v k2).taint ||| (s.g g).taint })))
      ∧ (named → Sparse.find s.task.tiles r.toNat = some q' → d ≠ r → s.task.busy (.a q') = false →
          exec (.mmov d r) s = (let u := s.cancel (.a q);
            retired (put u q { u.tileAt q with elems := (s.tileAt q').elems, taint := (u.tileAt q').taint })))
      ∧ (named → s.busyG p = false → s.busyG g = false → s.task.txn = none → (∀ x ∈ rows, x.toNat % 8 = 0) →
          (PiecesHeld s c pLD 1 (rows.map fun x => (x, 128)) → PiecesAt s .read xs ls →
              let u := if ls.any fun l => remoteShare l.place then s.releasePoint else s
              exec (.mld d p g) s = retired (u.issueLoad (.a q) { op := 0, gen := 0, kind := .load
                                                                  va := (ls.head?.map (·.va)).getD 0
                                                                  addrs := ls.flatMap Located.bytes, fin := .tile
                                                                  place := piecesPlace ls } (c.taint ||| (s.g g).taint)))
            ∧ (s.task.busy (.a q) = false → PiecesHeld s c pST 1 (rows.map fun x => (x, 128)) → PiecesAt s .write xs ls →
                let ws := dealBytes ls bytes
                PiecesCounted s ws →
                exec (.mst d p g) s = retired (piecesStored s ws (c.taint ||| (s.g g).taint ||| t.taint))))

/-- Steps of the matrix unit complete (R302 to R312). A comes from a stream, a pair or held B, or from an open tile
through the down-converter; MDOT adds the rounded or integer products to the tile, MRUN runs the program on each
element, both with the taint of their sources, A's tile moving on its CC and B staying as held B. MUPROG takes a legal
program; MSUMR and MSUMC sum a tile's rows and columns into a vector register. Where the rules are silent it rests on
the model's reading (logs 95 and 109). -/
def Obligations.MatrixSteps : Prop :=
  ∀ (s : State) (d r : BitVec 3) (a b g : BitVec 6) (f : BitVec 4) (x y z : BitVec 1) (v : BitVec 5) (q : Nat) (u u' : State)
      (bo : Opnd) (va : List Nat) (sa : Option (List Byte)) (τ : BitVec 8) (src : Option Nat) (env' : FpEnv),
    let types := mdotFmt f.toNat
    let ta := types.1
    let tb := types.2.1
    let rank := types.2.2
    let size := if ta = 9 then 64 else 128
    let t := s.tileAt q
    let vals := fun ty (o : Opnd) n => values (typeBits ty) n o.bytes
    let env := FpEnv.of u'.task.fpstat
    let ends := fun ins o => ∃ w, o = .next w ∧ exec ins s = .next (w.popsDone.mapTask fun t => { t with late := none })
    let given := fun ta tb size n sca scb (conv : Tile → List Nat × FpEnv) =>
      Sparse.find s.task.tiles d.toNat = some q ∧ s.task.busy (.a q) = false ∧ (∀ w, u'.tileAt w = s.tileAt w) ∧ Calm s u'
        ∧ StreamsReady s (selStream a ++ selStream b) none true
        ∧ s.selOk b tb size scb = true ∧ s.selBusy b size = false ∧ (∀ ok, opnd b size u ok = ok bo u')
        ∧ ((selTile a = none ∧ s.selOk a ta size sca = true ∧ s.selBusy a size = false ∧ src = none ∧ env' = env
              ∧ ∃ ao : Opnd, (∀ ok, opnd a size s ok = ok ao u) ∧ va = vals ta ao n ∧ sa = ao.scales ∧ τ = ao.taint)
            ∨ ∃ k p, selTile a = some k ∧ Sparse.find s.task.tiles k.toNat = some p ∧ s.task.busy (.a p) = false ∧ u = s
              ∧ src = some p ∧ va = (conv (s.tileAt p)).1 ∧ env' = (conv (s.tileAt p)).2 ∧ sa = none ∧ τ = (s.tileAt p).taint)
    let sums := fun i j mode => lineSum t mode ((List.range 16).map fun k => 16 * (i * k + (1 - i) * j) + (1 - i) * k + i * j)
    let check := fun ins (i : Nat) =>
      let mode := if r = 6 then fpMode s.task.fpstat else r.toNat
      let out := roundLanes fmt32 mode false ((List.range 16).map fun j => sums i j mode) (FpEnv.of s.task.fpstat)
      Sparse.find s.task.tiles d.toNat = some q → s.task.busy (.a q) = false →
      exec ins s = retired ((s.putFp out.2).writeV v.toNat ⟨ofLanes 32 out.1, t.taint⟩)
    (given ta tb size (16 * rank) (y == 1) (z == 1) (fun w => downConvert w ta rank (u'.modeOf r) (x == 1) env) →
        (∀ fa fb, typeFmt ta = some fa → typeFmt tb = some fb →
            let out := roundLanes fmt64 t.mode false (dotSums t fa fb rank va (vals tb bo (16 * rank)) sa bo.scales) env'
            ends (.mdot d a b f r x y z)
              (stepDone q (out.1.map (BitVec.ofNat 64)) (τ ||| bo.taint) src rank b bo tb (u'.putFp out.2)))
          ∧ (typeFmt ta = none → ends (.mdot d a b f r x y z)
              (stepDone q (dotInts t ta tb va (vals tb bo (16 * rank))) (τ ||| bo.taint) src rank b bo tb u')))
      ∧ (given 8 8 128 16 false false (fun w => ((List.range 16).map fun i => (w.elem (16 * i + w.cc)).toNat, env)) →
          let ins := (List.range 256).map fun n => ({ c := (elemAt t n).toNat, x := va.getD (n / 16) 0
                                                      y := (vals 8 bo 16).getD (n % 16) 0 } : ProgVals)
          let out := progAll t.mode u'.task.prog ins env
          ends (.mrun d a b) (stepDone q (out.1.map (BitVec.ofNat 64)) (τ ||| bo.taint) src 1 b bo 8 (u'.putFp out.2)))
      ∧ (s.busyG g = false → exec (.muprog g) s = if progOk (s.g g).val then
          retired (s.mapTask fun t => { t with prog := (s.g g).val }) else trapped s cILLEGAL 0)
      ∧ check (.msumr d v r) 0 ∧ check (.msumc d v r) 1

/-- The steps at the home of an access complete where nothing makes the home wait (R104, R112, R118, R139, R226 to
R229, R247, R251, R252). A line fill answers with the stored bytes, and, for the caches, with the lines of another
module; an increment adds at its counter and ends the operation; a free reservation is granted, its holder's second
request answered, and another task's parks and queues; a conditional store is performed by the holder only, and
answers 1 or 0; a lapsed lease passes on; the end of a forwarding performs the held requests. What comes back to a
core completes (R31, R32, R126, R130, R134, R142, R228). An acknowledgement lowers the counter; the return of a flush
takes the module out of it where nothing posted there before is outstanding, and clears the module's bit where nothing
was posted there since; a reply of the context's task is deposited and its operation ends, the grant that the context
waits for lets it go on, and a reply owed to an ended task is counted as an orphan; a combined request of 64 cycles is
sent, and the next that is due follows it; a remote copy of 4,096 core cycles is dropped, and no other line. Where the
rules are silent it rests on the model's reading (logs 53 and 87). -/
def Obligations.HomesAndReturns : Prop :=
  (∀ (s : State) (k x op hod : Nat) (p : PendOp) (req : AmoReq) (top : List (Nat × Nat)),
     let c := s.ctxAt k x
     let st := opSite k p.place
     let a := p.addrs.headD 0
     let r : Resv := Sparse.get {} s.resv a
     let waits := c.owed.any (·.op == op)
     let reply := fun (u : State) e kind bytes tg => Host.Outcome.next (u.answer e (.replyDeposit (State.replyTo k x p kind bytes tg)))
     (s.askedOp k x op = some p → p.addrs ≠ [] → HomeOpen s (.lineFill k x op) (siteOf k) p.addrs false →
         (∀ q ∈ c.pend, q.seq < p.seq → q.kind = .store → ∀ b ∈ p.addrs, ∀ d ∈ q.addrs, d / 16 ≠ b / 16) →
         let far := (linesOf p.addrs).any (State.farLine k)
         let bytes := p.addrs.map (Mem.read s.mem)
         let tg := s.tags.contains (a / 16)
         let u := s.hostUse (siteOf k) p.addrs false
         let touched := fun (ls : List Nat) => ls.foldl (fun s l => s.l2Touch l false) u
         (State.bypasses p = true →
             exec (.lineFill k x op) s = reply (touched (linesOf p.addrs)) (.lineFill k x op) (State.replyKind p) bytes tg)
           ∧ (State.bypasses p = false →
             let w := touched ((linesOf p.addrs).filter (State.farLine k))
             exec (.lineFill k x op) s = .next (w.answer (.lineFill k x op) (.replyDeposit
               { State.replyTo k x p .fill bytes tg with
                 val := 0, desc := 0, bytes := if far then bytes ++ w.fillCopies k p.addrs else bytes }))))
       ∧ (s.findOp k x op = some p → (s.core (opOwner k p.place)).lost ≠ 1 →
           s.heldBack (opAgent k p.place) (.putIncrement k x op req) = false →
           HomeOpen s (.putIncrement k x op req) st (amoBytes req) true → (∀ b ∈ amoBytes req, s.placeServes p.place b = .now) → req.op = 0 →
           let v := ((s.hostUse st (amoBytes req) true).amoApply req).1
           exec (.putIncrement k x op req) s = .next (v.performed k x op p.counted (.putIncrement k x op req))
             ∧ ofBytes (v.readMem (amoBytes req)) = (ofBytes (s.readMem (amoBytes req)) + req.opnd.toNat) % 2 ^ 64
             ∧ ∀ b, b ∉ amoBytes req → Mem.read v.mem b = Mem.read s.mem b)
       ∧ (s.askedOp k x op = some p → HomeOpen s (.lrwEnqueue k x op) st p.addrs false →
           let u := s.hostUse st p.addrs false
           let granted := reply u (.lrwEnqueue k x op) .grant (s.readMem p.addrs) false
           (waits = true → exec (.lrwEnqueue k x op) s = granted)
             ∧ (waits = false → r.holder = none → exec (.lrwEnqueue k x op) s = .next (u.grant a (k, x, p.gen, op)))
             ∧ (∀ h, waits = false → r.holder = some h → s.lapsed a r = false →
               ((h.1, h.2.1, h.2.2.1) = (k, x, p.gen) → exec (.lrwEnqueue k x op) s = granted)
                 ∧ ((h.1, h.2.1, h.2.2.1) ≠ (k, x, p.gen) →
                   ((s.core k).ctxs.filter fun (_, t) => t.park.isSome).length < (s.imageAt k).park →
                   exec (.lrwEnqueue k x op) s = .next (({ u with
                     resv := Sparse.set s.resv a { r with queue := r.queue ++ [(k, x, p.gen, op)] } }).mapCtx k x fun t =>
                       { t with wait := none, park := some (.lrw op), parkAt := (s.core k).cycle }))))
       ∧ (s.askedOp k x op = some p → HomeOpen s (.scHome k x op) st p.addrs true → s.lapsed a r = false →
           let u := s.hostUse st p.addrs true
           (∀ h, r.holder = some h → (h.1, h.2.1, h.2.2.1) = (k, x, p.gen) → exec (.scHome k x op) s =
               reply ((u.performWrite (p.addrs.zip p.data) []).passResv a) (.scHome k x op) .sc (bytesOf 8 1) false)
             ∧ ((∀ h, r.holder = some h → (h.1, h.2.1, h.2.2.1) ≠ (k, x, p.gen)) →
               exec (.scHome k x op) s = reply u (.scHome k x op) .sc (bytesOf 8 0) false))
       ∧ (s.lapsed a r = true → exec (.leaseExpiry a) s = .next (s.passResv a)
           ∧ (r.queue = [] → Sparse.find (s.passResv a).resv a = none))
       ∧ Completes (exec (.forwardDone hod top) s) (fun t => SameStorage s t
           ∧ (∀ h, h ∈ Sparse.get [] (t.site (agentSite hod)).fwdHold hod ↔
               h ∈ Sparse.get [] (s.site (agentSite hod)).fwdHold hod
                 ∧ ∀ y ∈ top, y.1 = h.2.1 → 32768 ≤ (y.2 + 65536 - h.2.2) % 65536)
           ∧ ∀ e ∈ s.heldSteps (fun o _ => o == hod), t.underWay e = true))
    ∧ (∀ (s : State) (k x m i line n sz : Nat) (sgn : Bool) (r : Reply) (p : PendOp) (f : Flush),
         let c := s.ctxAt k x
         let lower := s.mapCtx k x fun t => { t with sack := t.sack - 1 }
         let expired := fun (l : L1Line) => l.line = line ∧ copyOver (s.site (siteOf k)).fab l.copy = true
         exec (.storeAck k x) s = .next ((lower.kick k x).settled k x)
           ∧ (c.pend = [] → Completes (exec (.storeAck k x) s) fun t => (t.ctxAt k x).sack = c.sack - 1 ∧ SameStorage s t)
           ∧ (c.flush = none → c.flushrd = none → (∀ q ∈ c.pend, q.flush = none) → exec (.flushReturn k x m) s = .next s)
           ∧ (c.pend = [] → c.flushrd = none → c.flush = some f → m ∈ f.mods → postedDone k m c f.upto = true →
               Completes (exec (.flushReturn k x m) s) fun t =>
                 (t.ctxAt k x).flush = some { f with mods := f.mods.filter (· != m) } ∧ SameStorage s t
                   ∧ (t.ctxAt k x).peers = if f.since ≤ Sparse.get 0 c.posted m then c.peers else c.peers &&& ~~~(1#8 <<< m))
           ∧ (∀ e, (s.core k).ni.combine[i]? = some e → e.since + 64 ≤ (s.core k).cycle → exec (.combineSend k i) s =
               let u := (s.mapNi k fun ni => { ni with combine := ni.combine.eraseIdx i }).sendAmo k e.req e.place
               .next (if ((u.core k).ni.combine[0]?).any fun e => e.since + 64 ≤ (u.core k).cycle then u.push (.combineSend k 0) else u))
           ∧ ((∀ e, (s.core k).ni.combine[i]? = some e → (s.core k).cycle < e.since + 64) → exec (.combineSend k i) s = .next s)
           ∧ Completes (exec (.remoteCopyExpiry k line) s) (fun t => SameStorage s t
               ∧ (∀ l ∈ (t.core k).l1, l ∈ (s.core k).l1 ∧ (expired l → s.specLine k line = true))
               ∧ ∀ l ∈ (s.core k).l1, l.line ≠ line → l ∈ (t.core k).l1)
           ∧ (r.core = k → r.ctx = x → c.occupied = true → c.gen = r.gen → c.pend = [p] → p.op = r.op → p.gen = r.gen →
               (∀ q ∈ c.owed, ¬ (q.op = r.op ∧ q.gen = r.gen)) → p.dest = .g n → p.fin = .int sz sgn → 0 < n → n < 64 →
               State.runningFrame c = none → Completes (exec (.replyDeposit r) s) fun t =>
                 let raw := ofBytes (r.bytes.take sz)
                 let granted := c.park = some (.lrw r.op) ∨ c.wait = some (.lrw r.op)
                 ((t.ctxAt k x).gr n).val = (if sgn then BitVec.ofInt 64 (intOf (8 * sz) true raw) else BitVec.ofNat 64 raw)
                   ∧ ((t.ctxAt k x).gr n).tag = false ∧ (t.ctxAt k x).pend = [] ∧ SameStorage s t
                   ∧ (t.ctxAt k x).pc = (if granted then c.pc + 4 else c.pc)
                   ∧ (granted → (t.ctxAt k x).park = none ∧ (t.ctxAt k x).wait = none))
           ∧ (r.core = k → r.ctx = x → c.owed.find? (fun q => q.op == r.op && q.gen == r.gen) = some p →
               Completes (exec (.replyDeposit r) s) fun t =>
                 (t.core k).ni.orphans = min ((s.core k).ni.orphans + 1) 0xFFFFFFFF
                   ∧ (t.ctxAt k x).owed = c.owed.filter (·.op != r.op) ∧ SameStorage s t))

/-- Messages at a core (R20, R24 to R27, R51) and their retransmission complete. A message for the core's own team
takes an entry at the tail of the queue, or, when there is none, is refused, counted and listed; one behind a refused
message of its channel is refused; one for a team placed elsewhere is forwarded, for a team that is not placed it goes
to the mail drop, which refuses it when full and begins a chain, and for no team, or one that has ended, it is
discarded and counted. A refused message is kept by its sender, or by its team's swap area, and goes again on a room
notice, after the timed delay, or when the message before it on its channel is accepted; a reservation of 2,048 cycles
lapses. Where the rules are silent it rests on the model's reading (logs 17, 18 and 85). -/
def Obligations.MessagesArrive : Prop :=
  ∀ (s : State) (m : Message) (k target uid : Nat) (t : Team) (id : Word) (nolist chain : Bool) (r : RetryEntry) (room : RoomRes),
    let ni := (s.core m.dst).ni
    let mine := (m.team = none ∧ s.teamAt m.dst = some t ∧ t.state ≠ .placing ∧ t.state ≠ .ended)
      ∨ (m.team.isSome = true ∧ s.msgTeam m = some (uid, t) ∧ (t.state = .placed ∨ t.state = .quiescing) ∧ t.drop = []
          ∧ teamCore t m.pos.1 m.pos.2 = m.dst)
    let elsewhere := m.team.isSome = true ∧ s.msgTeam m = some (uid, t) ∧ (t.state = .placed ∨ t.state = .quiescing) ∧ t.drop = []
      ∧ teamCore t m.pos.1 m.pos.2 ≠ m.dst
    let dropped := m.team.isSome = true ∧ s.msgTeam m = some (uid, t) ∧ Sparse.find s.teams uid = some t ∧ msgSrc m ≠ 2
      ∧ t.state ≠ .ended ∧ (t.drop ≠ [] ∨ (t.state ≠ .placed ∧ t.state ≠ .quiescing))
    let behind := m.ordered = true ∧ ∃ c ∈ ni.chains, c.1 = m.src ∧ c.2 ≠ m.id
    let arrives := fun p => Completes (exec (.messageAccept m) s) fun u => SameStorage s u ∧ p u (u.core m.dst).ni
    let held := (s.core k).ni.retry.filter fun r => r.chain && (r.msg.ordered && (r.msg.dst == target
        || (s.msgTeam r.msg).any fun (_, t) => teamCore t r.msg.pos.1 r.msg.pos.2 == target))
      && !(r.fresh && (s.areaOf k).any fun q => State.sameChannel q.msg r.msg)
    let kept : RetryEntry := { msg := m, listed := !nolist && !chain, chain
                               due := if nolist then some ((s.core m.src).cycle + 256 * 2 ^ min m.timed 5) else none }
    let counted := fun (n : NI) => n.refused = min (ni.refused + 1) 0xFFFFFFFF ∧ n.queue = ni.queue
    (mine ∨ elsewhere ∨ dropped → behind → arrives fun _ n => counted n ∧ n.refusals = ni.refusals)
      ∧ (mine → (s.core m.dst).lost = 0 → ¬ behind →
        (∀ b, s.entryFor m.dst m = some b → arrives fun u n =>
            n.queue = ni.queue ++ [{ msg := m, cls := m.cls, cls0 := m.cls, reserved := b
                                     accepted := (s.core m.dst).nextAccept, arrived := some (s.core m.dst).cycle
                                     moved := (s.core m.dst).cycle }]
              ∧ n.refusals = ni.refusals.filter (·.1 != m.id) ∧ Event.dispatch m.dst ∈ u.agenda)
          ∧ (s.entryFor m.dst m = none → arrives fun _ n =>
              n.queue = ni.queue ∧ n.refused = min (ni.refused + 1) 0xFFFFFFFF
                ∧ (ni.refusals.length < 32 → ∃ x ∈ n.refusals, x.1 = m.id)))
      ∧ (elsewhere → ¬ behind → arrives fun _ n => n.redirects = min (ni.redirects + 1) 0xFFFFFFFF ∧ n.queue = ni.queue)
      ∧ (dropped → ¬ behind → exec (.messageAccept m) s = exec (.maildropAppend uid m) s
            ∧ (t.drop.length < t.dropSize → arrives fun u n => n.redirects = min (ni.redirects + 1) 0xFFFFFFFF ∧ n.queue = ni.queue
                ∧ (Sparse.find u.teams uid).map (·.drop) = some (t.drop ++ [m]))
            ∧ (t.dropSize ≤ t.drop.length → arrives fun u n => counted n ∧ n.redirects = ni.redirects ∧ u.teams = s.teams))
      ∧ ((m.team = none ∧ s.teamAt m.dst = none) ∨ (m.team.isSome = true ∧ s.msgTeam m = none)
            ∨ (m.team.isSome = true ∧ s.msgTeam m = some (uid, t) ∧ t.state = .ended) →
          arrives fun _ n => n.strays = min (ni.strays + 1) 0xFFFFFFFF ∧ n.queue = ni.queue)
      ∧ ((∀ v, s.teamAt m.src = some v → v.state ≠ .quiescing) → exec (.refuse m nolist chain) s =
          .next (s.mapNi m.src fun n => { n with retry := retryInsert kept (n.retry.filter (·.msg.id != m.id)) }))
      ∧ (m.ordered = false → ∀ l, retryInsert kept l = l ++ [kept])
      ∧ (∀ v, (s.core m.src).team = some v → s.teamAt m.src = some t → t.state = .quiescing →
          Completes (exec (.refuse m nolist chain) s) fun u => SameStorage s u ∧ (u.core m.src).ni.retry = (s.core m.src).ni.retry)
      ∧ ((s.core k).ni.retry.find? (·.msg.id == id) = some r →
          exec (.roomNotice k target id) s = .next (s.sendAgain k r.msg r.msg)
            ∧ (∀ d, r.chain = false → r.due = some d → d ≤ (s.core k).cycle → exec (.timedRetry k id) s =
              .next ((s.mapNi k fun n => { n with timedretry := min (n.timedretry + 1) 0xFFFFFFFF }).sendAgain k r.msg
                { r.msg with timed := r.msg.timed + 1 })))
      ∧ ((s.core k).ni.rooms.find? (·.id == id) = some room → room.until_ ≤ (s.core k).cycle →
          Completes (exec (.roomReservationLapse k id) s) fun u => SameStorage s u
            ∧ (∀ x ∈ (u.core k).ni.rooms, x.id ≠ id) ∧ ∀ x ∈ (u.core k).ni.refusals, x.1 ≠ id)
      ∧ exec (.chainAck k target) s = .next ((if siteOf k = siteOf target then held else held.take 1).foldl
          (fun s r => s.sendAgain k r.msg r.msg) s)

/-- Dispatch and wakes complete (R23, R29, R33, R43, R249, R267, R378, R379, R402). The message picked starts a task
in the lowest free context: the PC from the handler table, the argument words and capabilities in g1 to g7. A message
waiting 2^16 cycles in a class below 3 moves up. A task past its budget takes BUDGET. A parked WAITM takes its
message, BWAIT gets its status, a stream wait is tried again; IDLE ends. Transmission completes (R28, R36, R130, R137,
R140, R246): the oldest committed effect of a context leaves, once no fence or release before it is outstanding, with
room in the retry buffer and in the retransmission store; a SENDR and a hod request need what came before them
performed and the written peers flushed. Where the rules are silent it rests on the model's reading (logs 55 and 88).
-/
def Obligations.DispatchAndTransmission : Prop :=
  (∀ (s : State) (k x uid d h : Nat) (t : Team) (e : QEntry) (id : Word),
     let c := s.ctxAt k x
     let m := e.msg
     let img := s.imageOf t
     let w := s.readWord (teamStore + uid * 2 ^ 32 + 2 ^ 28 + 8 * m.handler)
     let share := shareVa uid (savedKey t (teamPos t k).1 (teamPos t k).2)
     ((s.core k).team = some uid → s.teamAt k = some t → (t.state = .placed ∨ t.state = .replay) →
         (s.core k).dispatchStop = false → (s.core k).frozen = false → (s.core k).lost = 0 →
         (s.core k).dispatched ≠ some (s.core k).cycle → (s.core k).pick = some e →
         e.poisoned = false → s.freeCtx k = some x → m.handler < img.handlers.length → w.getLsbD 63 = true →
         Completes (exec (.dispatch k) s) fun u =>
           let v := u.ctxAt k x
           v.occupied = true ∧ v.gen = (c.gen + 1) % 256 ∧ v.msg = m ∧ v.window = m.payload ∧ v.entry = some e
             ∧ v.pc = BitVec.ofNat 64 (t.base + 4 * (w.extractLsb' 0 32).toNat)
             ∧ v.gr 1 = { val := m.a1 } ∧ v.gr 2 = { val := m.a2 } ∧ v.gr 3 = { val := m.a3 } ∧ v.gr 4 = { val := m.a4 }
             ∧ v.gr 5 = (if m.cap.tag then capReg m.cap else {}) ∧ v.gr 6 = capReg t.tableCap
             ∧ v.gr 7 = capReg (capOver [pLD, pST, pLDC, pSTC, pSYNC] share (shareBytes img))
             ∧ (∀ n, 8 ≤ n → n ≠ 61 → v.gr n = {}) ∧ (∀ n, v.vr n = {}) ∧ v.slots = 0 ∧ v.txn = none
             ∧ (u.core k).ni.queue = (s.core k).ni.queue.erase e ∧ (u.core k).dispatched = some (s.core k).cycle ∧ SameStorage s u)
       ∧ ((s.core k).dispatched = some (s.core k).cycle → exec (.dispatch k) s = .next s)
       ∧ Completes (exec (.promotion k id) s) (fun u => Event.dispatch k ∈ u.agenda ∧ SameStorage s u
           ∧ ((s.core k).ni.queue.find? (·.msg.id == id) = none → (u.core k).ni.queue = (s.core k).ni.queue)
           ∧ ∀ q pre post, (s.core k).ni.queue = pre ++ q :: post → q.msg.id = id → (∀ p ∈ pre, p.msg.id ≠ id) →
               if q.cls < 3 ∧ q.moved + 65536 ≤ ((s.core k).cycle : Int) then
                 ∃ a b, a ++ b = pre ++ post ∧ (u.core k).ni.queue = a ++ { q with cls := q.cls + 1, moved := (s.core k).cycle } :: b
                   ∧ (∀ p ∈ a, p.cls = q.cls + 1 → p.accepted ≤ q.accepted)
                   ∧ ∀ p ∈ b.head?, p.cls = q.cls + 1 ∧ q.accepted < p.accepted
               else (u.core k).ni.queue = (s.core k).ni.queue)
       ∧ (c.occupied = true → (s.imageAt k).budget < c.budget → c.hold = none → c.wait ≠ some .xend →
           exec (.budget k x) s = .next (s.takeTrap k x cBUDGET 0 (State.instrPc c) 0 false))
       ∧ (c.park = some (.waitm d h) → State.waitmPick (s.core k).ni.queue h = some e → e.poisoned = false → c.frame = none →
           Completes (exec (.parkResume k x) s) fun u =>
             let v := u.ctxAt k x
             v.park = none ∧ v.pc = c.pc + 4 ∧ v.window = m.payload ∧ v.taken = c.taken ++ [e]
               ∧ (0 < d → d + 4 < 64 → v.gr d = { val := m.a1 } ∧ v.gr (d + 1) = { val := m.a2 } ∧ v.gr (d + 2) = { val := m.a3 }
                   ∧ v.gr (d + 3) = { val := m.a4 } ∧ v.gr (d + 4) = if m.cap.tag then capReg m.cap else {})
               ∧ (u.core k).ni.queue = (s.core k).ni.queue.erase e ∧ SameStorage s u)
       ∧ (∀ st, c.park = some (.bwait d) → (s.core k).frozen = false → (s.core k).poisonMark = false → c.barr.bind (·.status) = some st → st ≠ 3 →
           exec (.parkResume k x) s =
             .next ((s.mapCtx k x fun t => { t with park := none }).asCtx k x fun s => s.bwaitDone d st))
       ∧ (∀ b, c.park = some (.pop b) ∨ c.park = some (.append b) →
           exec (.parkResume k x) s = .next (s.mapCtx k x fun t => { t with park := none }))
       ∧ (c.idle.isSome = true → exec (.idleWake k x) s =
           .next (s.asCtx k x fun s => (s.mapTask fun t => { t with idle := none }).advance)))
    ∧ (∀ (s s' : State) (k x after : Nat) (eff : Effect),
         let c := s.ctxAt k x
         ∀ ended, State.nextOut c = some ⟨eff, true, after, ended⟩ → s.retryRoom k ≠ 0 → c.sendHold = none →
         (∀ p ∈ c.pend, p.seq < after → p.rel = none ∧ p.acq = none ∧ p.kind ≠ .fenceSs) →
         let go := exec (.niTransmit k x) s
         (∀ b n, eff = .fifoHead b n → go = .next ((s.moveFifo b true n).sent k x))
           ∧ (∀ b n, eff = .fifoTail b n → go = .next ((s.moveFifo b false n).sent k x))
           ∧ (∀ q, eff = .put q → go = .next (s.sendPut k x after q))
           ∧ (∀ m, eff = .msg m → s.mayRoute (agentNi k) (agentNi m.dst) = true → m.release = false →
               go = .next ((s.niSend k m).sent k x))
           ∧ (s.sendrReady k x after = (s', true) →
               (∀ m, eff = .msg m → s.mayRoute (agentNi k) (agentNi m.dst) = true → m.release = true →
                 go = .next ((s'.niSend k m).sent k x))
                 ∧ (∀ r, eff = .hod r → let home := s'.hodHome r
                     let e := Event.hodRequest { r with hod := some home }
                     (r.kind ≠ .copy → r.kind ≠ .fill → go = .next ((s'.push e).sent k x))
                       ∧ (r.kind = .copy ∨ r.kind = .fill → s'.mayRoute (agentNi k) (agentHod home.1 home.2) = true →
                         go = .next ((s'.route (agentNi k) (agentHod home.1 home.2) 1 0 e).sent k x)))))

/-- The steps of banks and teams complete (R50 to R52, R110, R373 to R377). A bank whose dirty lines are all written
back is zeroed; 2,048 fabric cycles later it reads as zero in its target mode. A team whose banks are ready takes its
place; what stands in its mail drop is replayed oldest first, and the drop closed when empty. The head of the queue is
placed where it fits; a quiescent team is saved, freed and queued. Where the rules are silent it rests on the model's
reading (logs 54, 84, 85, 86 and 93). -/
def Obligations.TeamSteps : Prop :=
  ∀ (s s' : State) (bk uid part v : Nat) (t tv : Team) (m : Message) (q : List Nat),
    let b := s.bank bk
    let lo := bankBase bk
    let queue := (s.part part).queue
    let teamIs := fun (u : State) (p : Team → Prop) => ∃ t', Sparse.find u.teams uid = some t' ∧ p t'
    let old := fun (t : Team) => (s.core (teamCore t 0 0)).cycle - t.placedAt
    let w := s.freeKilled part
    let toDrop := fun (t : Team) => t.state ≠ .ended ∧ (t.drop ≠ [] ∨ (t.state ≠ .placed ∧ t.state ≠ .quiescing))
    let behind := msgSrc m ≠ 2 ∧ m.ordered = true ∧ ∃ c ∈ (s.core m.dst).ni.chains, c.1 = m.src ∧ c.2 ≠ m.id
    (b.mode = .draining → b.drain = [] → exec (.bankDrainDone bk) s =
        .next (s.setBank bk { b with mode := .zeroing, since := (s.site (bankSite bk)).fab }))
      ∧ ((b.mode ≠ .draining ∨ b.drain ≠ []) → exec (.bankDrainDone bk) s = .next s)
      ∧ (b.mode = .zeroing → b.leaving = false → b.since + 2048 ≤ (s.site (bankSite bk)).fab → Completes (exec (.bankZeroDone bk) s) fun u =>
          (u.bank bk).mode = wordMode b.target ∧ (u.bank bk).head = 0 ∧ (u.bank bk).tail = 0 ∧ (u.bank bk).poison = []
            ∧ ∀ a, Mem.read u.mem a = if lo ≤ a ∧ a < lo + 2 ^ 18 then 0 else Mem.read s.mem a)
      ∧ ((w.teams.filter fun (_, t) => t.part == part && t.state == .placing) = [] → w.paused (w.part part).mod = false →
          (w.placeHead part = some s' → exec (.teamPlace part) s = .next (s'.push (.teamPlace part)))
            ∧ ((w.part part).queue = [] → exec (.teamPlace part) s = .next (w.freeBanks part))
            ∧ (w.placeHead part = none → (w.part part).queue ≠ [] →
              exec (.teamPlace part) s = .next ((w.freeBanks part).pushOnce (.slicePreemption part))))
      ∧ (queue = v :: q → s.placeHead part = none → s.paused (s.part part).mod = false →
          (s.teams.filter fun (_, t) => t.part == part && (t.state == .placed || t.state == .replay)
            && t.cls ≤ ((Sparse.find s.teams v).map (·.cls)).getD 0 && 2 ^ 24 ≤ old t && !t.frozen
            && (Sparse.find s.grids t.grid).any (·.oversub)) = [(uid, tv)] →
          exec (.slicePreemption part) s = .next (s.beginQuiesce uid))
      ∧ (Sparse.find s.teams uid = some t →
          (t.state = .placing → s.banksReady uid = true → Completes (exec (.swapIn uid) s) fun u =>
              Event.maildropClose uid ∈ u.agenda ∧ teamIs u fun t' => t'.state = (if t.saved.isNone then .placed else .replay) ∧ t'.saved = none
                ∧ t'.base = teamWindow uid ∧ t'.codeCap = capOver [pEXEC] (teamWindow uid) (4 * (s.imageOf t).code.length)
                ∧ t'.tableCap = capOver [pLD] (tableVa uid) (8 * (s.imageOf t).handlers.length))
            ∧ ((t.state = .ended ∨ (toDrop t ∧ (behind ∨ t.dropSize ≤ t.drop.length))) →
              Completes (exec (.maildropAppend uid m) s) fun u => u.teams = s.teams ∧ SameStorage s u)
            ∧ (toDrop t → ¬ behind → t.drop.length < t.dropSize → Completes (exec (.maildropAppend uid m) s) fun u =>
              (teamIs u fun t' => t'.drop = t.drop ++ [m] ∧ t'.state = t.state) ∧ SameStorage s u)
            ∧ ((t.state = .replay ∨ t.state = .placed) → t.retryArea = [] →
              (t.drop = [] → Completes (exec (.maildropClose uid) s) fun u =>
                  (teamIs u fun t' => t'.state = .placed ∧ t'.dropOpen = false) ∧ ∀ k ∈ State.teamCores t, Event.dispatch k ∈ u.agenda)
                ∧ (∀ rest b, t.drop = m :: rest → (s.core (State.redirected t m).dst).freeEntry m.cls = some b →
                  Completes (exec (.maildropClose uid) s) fun u => (teamIs u fun t' => t'.drop = rest)
                    ∧ ∃ e ∈ (u.core (State.redirected t m).dst).ni.queue, e.msg = State.redirected t m ∧ e.reserved = b))
            ∧ (t.state = .quiescing → t.frozen = false → (Sparse.find s.parts t.part).isSome = true →
              (∀ g, Sparse.find s.grids t.grid = some g → g.oversub = false → g.part = t.part ∧ uid ∈ g.teams
                ∧ ∀ v ∈ g.teams, v = uid ∨ ∀ w, Sparse.find s.teams v = some w → w.state ≠ .quiescing) →
              (∀ k ∈ State.teamCores t, (s.core k).ctxs.all (fun (_, c) => !ctxBusy c) = true ∧ s.messagesOut k = []
                ∧ (s.core k).ni.own = []) →
              Completes (exec (.swapOut uid) s) fun u => (teamIs u fun t' => t'.state = .waiting ∧ t'.dropOpen = true
                ∧ t'.saved.isSome = true ∧ t'.drop = t.drop) ∧ uid ∈ (u.part t.part).queue)
            ∧ ((t.state = .placed ∨ t.state = .replay) → t.frozen = false → Completes (exec (.relocationRequest uid) s) fun u =>
              (teamIs u fun t' => t'.state = .quiescing) ∧ Event.swapOut uid ∈ u.agenda
                ∧ ∀ k ∈ State.teamCores t, (u.core k).dispatchStop = true))

/-- The steps of a sequencer complete (R55, R56, R144, R366 to R372, R389, R416, R417, R439). The first ready node
starts and does what its kind says; a polled word that matches completes its WAIT; a complete node releases its list.
A grid with no work left ends, with its teams. A host's post answers in POSTSTAT, whose overrun clears when read. The
end of a translation fault lets its waiter go on, or gives it CAP at the address; one whose transaction was removed
meanwhile aborts. Where the rules are silent it rests on the model's reading (logs 89 and 111). -/
def Obligations.GraphSteps : Prop :=
  ∀ (s v u : State) (site n k x a grid mod port : Nat) (rest : List Nat) (d node : Node) (g : Grid) (f : FaultRec) (rd ra : BitVec 6)
      (as : List Nat) (bs : List Byte),
    let kind := nodeKind (nodeHead d)
    let s0 := s.mapSite site fun t => { t with ready := rest, started := some t.fab }
    let rested := ∀ c, (s.site site).started = some c → c + 16 ≤ (s.site site).fab
    let s1 := (if rest.isEmpty then s0 else s0.pushOnce (.nodeStart site)).mapNode site n fun d => { d with phase := 2 }
    let starts := fun w => exec (.nodeStart site) s = .next w
    let s2 := s1.mapNode site n fun d => { d with due := some 0 }
    let polled := fun (w : State) => w.mapNode site n fun e => { e with lastPoll := (s.site site).fab }
    let done := fun (w : State) => w.push (.nodeComplete site n)
    let ends := fun (w : State) => (w.mapNode site n fun e => { e with due := none }).push (.nodeComplete site n)
    let poll := Event.waitPoll site n
    let reaches := fun (w : State) va acc => w.faultOpen site ((w.partOfSite site).getD 0) va = false
      ∧ w.agentXlate ((w.partOfSite site).getD 0) true site (w.outsideHome ((w.partOfSite site).getD 0) va) va acc = (v, .inl a)
      ∧ (a < 2 ^ 45 ∨ 2 ^ 48 ≤ a ∨ (v.portOf site).isSome = true) ∧ v.tileLocked (addrRange a 8) = false
      ∧ v.hostAsk site (addrRange a 8) (accWrites acc) (some poll) = none
    let used := fun acc => v.hostUse site (addrRange a 8) (accWrites acc)
    let list := if (kind = 2 ∧ d.loop = 1) ∨ (kind = 3 ∧ d.loop = 0) then listB d else listA d
    let p := s.port mod port
    let psite := mod * 24 + p.goSite
    let posted := fun (w : State) code h => exec (.postGo mod port) s = .next (w.mapPort mod port fun p =>
      { p with postBusy := false, postCode := code, postHandle := h })
    (s.paused (site / 24) = false → rested → (s.site site).live = true → (s.site site).ready = n :: rest → s.nodeAt site n = some d →
        (kind = 5 → reaches (polled s2) (nodeD d 1).toNat .read →
            starts (if (used .read).readWord a &&& nodeD d 2 = nodeD d 3 then ends (used .read) else used .read))
          ∧ (kind = 3 → starts (done (s1.mapNode site n fun e =>
              { e with loop := if d.loop + 1 < (nodeD d 1).toNat then d.loop + 1 else 0 })))
          ∧ (kind = 2 → reaches s2 (nodeD d 1).toNat .read → starts (ends ((used .read).mapNode site n fun e =>
              { e with loop := if (used .read).readWord a &&& nodeD d 2 = 0 then 1 else 0 })))
          ∧ (kind = 4 → (nodeD d 4).getLsbD 1 = false →
              let put := fun acc (w : Word) => starts (ends ((used acc).performWrite ((addrRange a 8).zip (bytesOf 8 w.toNat)) []))
              (nodeD d 3 = 0 → reaches s2 (nodeD d 1).toNat .write → put .write (nodeD d 2))
                ∧ (nodeD d 3 ≠ 0 → reaches s2 (nodeD d 1).toNat .amo → put .amo ((used .amo).readWord a + nodeD d 2)))
          ∧ (kind = 0 → (s1.launchNode site n d).2 = none → starts (s1.launchNode site n d).1)
          ∧ (kind = 0 → (s1.launchNode site n d).2.isSome = true → nodeD d 5 = 0 → starts (done (s1.launchNode site n d).1)))
      ∧ (s.nodeAt site n = some d → d.phase = 2 → d.hold = none →
          (kind ≠ 1 ∨ nodeD d 5 = 0 → exec (.nodeComplete site n) s = .next (s.endNode site n d list))
            ∧ (kind = 5 → d.due.isSome = true → reaches (polled s) (nodeD d 1).toNat .read → exec (.waitPoll site n) s =
                .next (if (used .read).readWord a &&& nodeD d 2 = nodeD d 3 then ends (used .read) else used .read)))
      ∧ (Sparse.find s.grids grid = some g → g.status = none → s.gridDone grid g = true → (g.cwaddr = 0 ∨ g.node = none) →
          Completes (exec (.gridComplete grid) s) fun u => Sparse.find u.grids grid = none ∧ (∀ t ∈ u.teams, t.2.grid ≠ grid)
            ∧ ∀ st h, g.node = some (st, h) → Event.nodeComplete st h ∈ u.agenda)
      ∧ (p.postBusy = true → s.hostWritesDue mod = false →
          ((24 ≤ p.goSite ∨ s.partOfSite psite = none ∨ (s.site psite).live = false) → posted s 2 0)
            ∧ (p.goSite < 24 → (s.partOfSite psite).isSome = true → (s.site psite).live = true →
              let ws := (List.range 8).map fun i => Sparse.get 0 p.postrec i
              (postedNode ws = none → posted s 1 0)
                ∧ (postedNode ws = some node → let w := s.postNode psite node false
                  posted w.1 (if w.2 = 0xFFFFFFFE then 1 else if w.2 = 0xFFFFFFFF then 3 else 0)
                    (if w.2 = 0xFFFFFFFE ∨ w.2 = 0xFFFFFFFF then 0 else w.2))))
      ∧ (s.serving mod = true → exec (.poststatRead mod port) s = .next (s.mapPort mod port fun q =>
          { q with
            readData := BitVec.ofNat 64 ((if p.postBusy then 2 ^ 63 else 0) + (if p.overrun then 2 ^ 62 else 0)
              + p.postCode * 2 ^ 32 + p.postHandle)
            overrun := false }))
      ∧ (s.serving mod = false → exec (.poststatRead mod port) s = .next (s.mapPort mod port fun q => { q with readData := 0 }))
      ∧ (let st := n / 2 ^ 32 * 24 + n % 2 ^ 32 / 2 ^ 27
        let gone := s.mapSite st fun t => { t with faults := Sparse.erase t.faults (n % 2 ^ 32) }
        let u := gone.mapCtx k x fun t => { t with hold := none }
        let w := gone.mapCtx k x fun t => { t with sendHold := none, hold := if t.hold = some n then none else t.hold }
        Sparse.find (s.site st).faults (n % 2 ^ 32) = some f →
          (f.waiters = [.ni k x] → exec (.fltdoneRetry n) s = .next (w.kick k x)
            ∧ exec (.fltdoneFail n) s = .next (w.dropPut k x f.va)) ∧ (f.waiters = [.ctx k x] →
          ((∀ tx c, (s.ctxAt k x).txn = some tx → tx.removed = some c →
              exec (.fltdoneRetry n) s = .next ((u.abortTxn k x c 0 true).kick k x)
                ∧ exec (.fltdoneFail n) s = .next ((u.abortTxn k x c 0 true).kick k x))
            ∧ ((∀ tx, (s.ctxAt k x).txn = some tx → tx.removed = none) → exec (.fltdoneRetry n) s = .next (u.kick k x)
            ∧ ((s.ctxAt k x).occupied = true → exec (.fltdoneFail n) s =
              .next (u.takeTrap k x cCAP 0 (State.instrPc (u.ctxAt k x)) (BitVec.ofNat 64 f.va) false))))))
      ∧ (s.stalled = false → Ready s [ra] →
          (let c := s.g ra
            let ws := (List.range 8).map fun i => BitVec.ofNat 64 (ofBytes ((bs.drop (8 * i)).take 8))
            let w := u.postNode (siteOf u.cur) (nodeOf ws ⟨ws.getD 2 0, ws.getD 3 0,
              hasPerm c.desc pLDC && u.granTag u.cur u.task (nowLoad u.task) (as.getD 16 0 / 16)⟩) (u.runtimeAt u.cur)
            s.task.txn = none → capFault (s.supAt s.cur) c c.val 64 [pLD] 64 = none → plainRead s c.val 64 false = some (as, bs, u) →
              exec (.gnode rd ra) s = wrote w.1 rd (BitVec.ofNat 64 w.2) 0)
            ∧ (let h := (s.g ra).val.toNat % 2 ^ 32
              let st := modOf s.cur * 24 + h / 2 ^ 27
              let none' := exec (.gdec rd ra) s = wrote s rd 0xFFFFFFFF 0
              (st ∉ s.partSites (s.partAt s.cur) → none')
                ∧ (st ∈ s.partSites (s.partAt s.cur) →
                  (s.liveNode st (h % 2 ^ 27) = none → none')
                    ∧ (s.liveNode st (h % 2 ^ 27) = some (n, d) → (d.count = 0 ∨ d.phase ≠ 0) → none')
                    ∧ (s.liveNode st (h % 2 ^ 27) = some (n, d) → d.count ≠ 0 → d.phase = 0 → s.nodeAt st n = some d →
                      exec (.gdec rd ra) s = wrote (s.decrement st (h % 2 ^ 27)) rd (BitVec.ofNat 64 (d.count - 1)) 0))))

/-- Walks, first touches, releases, shootdowns and audit records complete (R115 to R117, R364, R386 to R392). The walk
that one agent waits for installs the entry of the leaf it finds, or lets the agent that is no core try again; one
that faults, or whose page has an open handle, holds the agent there; a locked tile or a half in a host's cache makes
it wait (R158, R420). An unhomed region is homed where the agent is. A HOMED region is released with result 0, any
other gives 1. A shootdown removes its range from every TLB of the partition, and completes when what it waits for has
ended; the record is written at the head of the ring, or counted as lost. Where the rules are silent it rests on the
model's reading (logs 12, 43 and 48). -/
def Obligations.TableSteps : Prop :=
  ∀ (s u : State) (agent : Agent) (va k x c a entry base size region id : Nat) (leaf : Word) (acc : Access) (d : BitVec 6)
      (sh : Shoot) (msgid teamid : Word) (slot epoch word : Nat),
    let st := (s.agentPlace agent).1
    let part := (s.agentPlace agent).2
    let kind := if acc = .walker then Access.read else acc
    let found := (s.site st).walks.find? fun (_, w) => w.part == part && w.base ≤ va && va < w.base + w.size
    let walker := (found.map (·.1)).getD 0
    let after := fun (u : State) => match found with | some (i, _) => u.endWalk st i | none => u
    let walks := exec (.pageWalk agent va acc) s
    let faults := fun (u : State) c => walks = .next (after (u.openFault agent va c kind [] walker))
    let touches := exec (.firstTouch agent va acc) s
    let known := fun (u : State) => match agent with | .ctx k _ => u.tlbHome k part va | _ => u
    let home := match agent with
      | .ctx k _ => (siteOf k, clusterOf k)
      | .ni k _ => (siteOf k, clusterOf k)
      | .hod r => s.hodHome r
      | .bag b => (agentSite (bagOwner b), bagOwner b % 64)
      | .node _ _ => s.outsideHome part va
    let t := s.ctxAt k x
    let key := State.regionKey (s.partAt k) (region * 65536)
    let ended := fun (u : State) n => exec (.regrelComplete k x region) s =
      .next ((u.mapCtx k x fun t => { t with wait := none }).asCtx k x fun s =>
        (s.writeG d.toNat { val := BitVec.ofNat 64 n }).advance)
    let p := s.partAt k
    let l := ((s.part p).auditctl.extractLsb' 52 4).toNat
    let ring := ((s.part p).auditctl.extractLsb' 5 43).toNat * 32 + 32 * ((s.part p).auditHead % 2 ^ l)
    let records := exec (.auditAppend k msgid teamid slot epoch word) s
    let lost := fun (u : State) => records = .next (u.mapPart p fun p => { p with auditLost := min (p.auditLost + 1) 0xFFFFFFFF })
    let n := id / 2 ^ 32
    let shot := exec (.tlbinvCompletion p id) s
    ((s.agentHeld agent = true → touches = .next s)
        ∧ ((∀ w, found = some w → ∀ m ∈ w.2.waiters, s.agentHeld m.1 = true) → (found = none → s.agentHeld agent = true) →
          walks = .next (after s)))
      ∧ (s.agentHeld agent = false → (∀ w, found = some w → w.2.waiters = [(agent, va, acc)]) →
        (s.faultOpen st part va = true → faults s 0)
          ∧ (s.faultOpen st part va = false →
            (s.walk part (s.agentSup acc agent) va kind = .fault c → faults s c)
              ∧ (s.walk part (s.agentSup acc agent) va kind = .leaf entry leaf base size →
                let v := s.loadStripe part leaf
                (v.leafXlate st part leaf base va = .walk → faults v (v.stripeFault part leaf va))
                  ∧ (∀ pa pl, v.leafXlate st part leaf base va = .ok pa pl → v.unkeyed pa = true → faults v fKEY)
                  ∧ (v.leafXlate st part leaf base va ≠ .walk →
                    (∀ pa pl, v.leafXlate st part leaf base va = .ok pa pl → v.unkeyed pa = false) →
                    (v.walkHeld entry leaf kind = none →
                        let w := v.walkUpdate entry (v.readWord entry) kind
                        walks = .next (after (match agent with
                          | .ctx k _ => (w.tlbInstall k kind { part, base, size, leaf := w.readWord entry }).tlbHome k part va
                          | g => w.agentAgain g)))
                      ∧ (v.walkHeld entry leaf kind = some u → walks = .next (u.again (.pageWalk agent va acc)))))))
      ∧ (s.agentHeld agent = false →
        (s.faultOpen st part va = true → touches = .next (s.openFault agent va 0 acc))
          ∧ (s.faultOpen st part va = false → (s.regionHome part va).isSome = true → touches = .next (known s))
          ∧ (s.faultOpen st part va = false → s.regionHome part va = none →
            (s.homeRegion part va home.1 home.2 = .inl u → touches = .next (known u) ∧ (u.regionHome part va).isSome = true)
              ∧ (s.homeRegion part va home.1 home.2 = .inr c → touches = .next (s.openFault agent va c acc))))
      ∧ (t.wait = some (.regrel d.toNat) →
          (∀ r, Sparse.find s.regions key = some r → r.state = 1 → s.pageHomed k (region * 65536) = true →
              ended (s.releaseRegion key r) 0 ∧ Sparse.find (s.releaseRegion key r).regions key = some { r with state := 2 }
                ∧ SameStorage s (s.releaseRegion key r))
            ∧ ((∀ r, Sparse.find s.regions key = some r → r.state ≠ 1 ∨ s.pageHomed k (region * 65536) = false) → ended s 1))
      ∧ ((∀ e, t.wait ≠ some (.regrel e)) → exec (.regrelComplete k x region) s = .next s)
      ∧ ((s.site n).shoots.find? (·.id == id % 2 ^ 32) = some sh →
          (sh.removed = false → sh.op ≤ 1 → s.accesses p = [] → s.bagsOut p = [] → s.walksOut p = [] → sh.notes = [] →
              Completes shot fun u => SameStorage s u ∧ (∀ o ∈ (u.site n).shoots, o.id ≠ sh.id)
                ∧ (let hit := fun (e : TlbEntry) => e.part = p ∧ (sh.op = 1 ∨ e.base ≤ sh.arg ∧ sh.arg < e.base + e.size)
                  (∀ j, ∀ e ∈ (u.core j).dtlb, ¬ hit e) ∧ ∀ m cl, ∀ e ∈ Sparse.get [] (u.site m).l2tlb cl, ¬ hit e))
            ∧ (sh.removed = true → s.shootDone p sh = true → shot = .next
              (((sh.notes.foldl (fun s (o, h, top) => s.route o h 1 0 (.forwardDone h top)) s).mapSite n fun t =>
                { t with shoots := t.shoots.filter (·.id != sh.id) }).niOwn sh.comp.src
                  { sh.comp with a1 := BitVec.ofNat 64 sh.status }))
            ∧ (sh.removed = true → s.shootDone p sh = false → shot = .next s))
      ∧ ((s.site n).shoots.find? (·.id == id % 2 ^ 32) = none → shot = .next s)
      ∧ (l = 0 → lost s)
      ∧ (l ≠ 0 → s.agentXlate p true (siteOf k) (s.outsideHome p ring) ring .write = (u, .inr c) →
          (c = fWAIT → records = .next (u.again (.auditAppend k msgid teamid slot epoch word))) ∧ (c ≠ fWAIT → lost u))
      ∧ (l ≠ 0 → s.agentXlate p true (siteOf k) (s.outsideHome p ring) ring .write = (u, .inl a) →
          u.tileLocked (addrRange a 32) = false →
          u.hostAsk (siteOf k) (addrRange a 32) true (some (.auditAppend k msgid teamid slot epoch word)) = none →
          records = .next (((u.hostUse (siteOf k) (addrRange a 32) true).performWrite
            ((addrRange a 32).zip (auditRecord k msgid teamid slot epoch word)) []).mapPart p fun p =>
              { p with auditHead := (p.auditHead + 1) % 2 ^ 32 }))

/-- The steps of routers and links complete (R314, R316, R319 to R323, R329, R410, R421). A flit at its site is
ejected, another goes to the neighbour of a productive live output; one of 4,095 hops, or of version 0 at age 255, is
removed and its source told; a starved gateway asks its upstream router for an output. A complete item leaves
reassembly, through the mesh where its agent is not the gateway's own; what the mesh carries moves one router a cycle,
to or from a central router; a replayed flit goes again or the link's eighth failure kills it; a dead link holds
nothing at either end; a worn lane moves to a spare, or ends the link; a link trains at the highest common version.
Retransmission and the closing of windows complete (R323 to R326, R409). A rerouted answer is sent again; a rerouted
request too, unless it has been three times or has no live route: then it is given up, skipped where a route exists,
and cancelled. A skipped number counts as applied, and one beyond the window moves it there (the model's choice, log
19); a window quiet for 2^20 cycles is closed, unless opened later. Where the rules are silent it rests on the model's
reading (logs 23, 24 and 32). -/
def Obligations.PorderSteps : Prop :=
  (∀ (s : State) (st dir i seq key : Nat) (f : Flit) (g : Nat × Nat) (leaving : Bool) (rest : List Flit) (partner : Nat) (versions : List Nat),
     let t := s.site st
     let f' := { f with age := if f.kept then f.age else f.age + 1, kept := false, waits := none }
     let r := (key / 4 % 4, key / 16)
     let link := st * 6 + dir
     let l := s.link st dir
     let nb := s.neighbour st dir
     let d := (s.module (st / 24)).domain
     let trained := fun n p => Completes (exec (.linkTrain link partner n versions) s) fun u => p (u.link st dir)
     (t.mesh = [] → t.flits = [f] → t.inject = [] → badFlit f = false → f.kind ≠ 2 → f.age < 4094 → (f.ver = 0 → f.age < 255) →
         (f.toSite = st → t.reasm = [] → f.flast = 0 → f.fidx = 0 → Completes (exec (.porderRouterCycle st) s) fun u =>
             (u.site st).flits = [] ∧ (u.site st).reasm = [f'] ∧ Event.reassemblyDeliver st f.src f.seq ∈ u.agenda)
           ∧ (∀ o os, f.toSite ≠ st → (s.outputs st f.plane f.toSite [] true).1 = o :: os → (s.link st o).version ≠ 0 →
               (s.link st o).corrupt = 0 → s.neighbour st o ≠ st → Completes (exec (.porderRouterCycle st) s) fun u =>
                 (u.site st).flits = [] ∧ { f' with ver := (s.link st o).version } ∈ (u.site (s.neighbour st o)).flits))
       ∧ (t.mesh = [] → t.flits = [f] → t.inject = [] → badFlit f = false → f.ver = 0 → f.kept = false → 255 ≤ f.age →
           Completes (exec (.porderRouterCycle st) s) fun u =>
             (u.site st).flits = [] ∧ (u.site st).ageouts = min (t.ageouts + 1) 0xFFFFFFFF)
       ∧ (t.mesh = [(key, [⟨f, g, leaving⟩])] → t.flits = [] → t.inject = [] → r ≠ g → Completes (exec (.porderRouterCycle st) s) fun u =>
           (u.site st).mesh = meshPut [] (meshHop r g) ⟨f, g, leaving⟩ ∧ Event.porderRouterCycle st ∈ u.agenda)
       ∧ (1 ≤ (gateRouter g).1 ∧ (gateRouter g).1 ≤ 2 ∧ 1 ≤ (gateRouter g).2 ∧ (gateRouter g).2 ≤ 2)
       ∧ (t.flits[i]? = some f → f.age = 4095 → f.toSite ≠ st → Completes (exec (.ageouts st i) s) fun u =>
           (u.site st).flits = t.flits.eraseIdx i ∧ (u.site st).ageouts = min (t.ageouts + 1) 0xFFFFFFFF)
       ∧ exec (.injectionStarvation st i) s = .next ((s.mapSite (s.neighbour st 1) fun t =>
           { t with starve := insertNat t.starve i }).mapSite st fun t =>
             { t with inject := t.inject.map fun f => { f with waits := none } })
       ∧ (t.reasm.find? (fun g => g.src == i && g.seq == seq && g.fidx == 0 && itemWhole t.reasm g && !s.awaitsOpen st g) = some f →
           let u := s.mapSite st fun t => { t with reasm := t.reasm.filter fun g => !sameItem f g }
           (agentRouter f.dst = none → f.kind ≠ 2 → f.cls = 1 → exec (.reassemblyDeliver st i seq) s = .next (u.takeAnswer f.dst f.src f.seq f.step))
             ∧ (∀ e, agentRouter f.dst = none → f.kind ≠ 2 → f.cls ≠ 1 → f.step = some e →
               exec (.reassemblyDeliver st i seq) s = .next (u.windowArrive f e))
             ∧ (∀ x, agentRouter f.dst = some x → exec (.reassemblyDeliver st i seq) s = .next ((u.mapSite st fun t =>
               { t with mesh := meshPut t.mesh (gateRouter x) ⟨f, x, false⟩ }).pushOnce (.porderRouterCycle st))))
       ∧ (dir < 6 → l.dead = false →
           (l.replayBuf = f :: rest → 0 < l.corrupt → exec (.linkReplay link) s =
               .next (((s.countLink st dir 0 1).mapLink st dir fun l => { l with corrupt := l.corrupt - 1, replays := l.replays + 1 }).push
                 (if l.replays + 1 < 8 then .linkReplay link else .linkDead link)))
             ∧ (l.replayBuf = f :: rest → l.corrupt = 0 →
               let u := ((s.countLink st dir 0 1).mapLink st dir fun l => { l with replays := 0, replayBuf := rest }).sendFlit st dir f.plane f
               exec (.linkReplay link) s = .next (if rest.isEmpty then u else u.push (.linkReplay link)))
             ∧ Completes (exec (.linkDead link) s) (fun u =>
                 let gone := fun (l : Link) => l.dead = true ∧ l.replayBuf = [] ∧ l.unacked = []
                 gone (u.link st dir) ∧ (nb ≠ st → gone (u.link nb (backDir dir))))
             ∧ (l.worn t.fab = false → exec (.laneRetire link) s = .next s)
             ∧ (l.worn t.fab = true → 0 < l.spares → Completes (exec (.laneRetire link) s) fun u =>
                 (u.link st dir).spares = l.spares - 1 ∧ (u.site st).lanes = min (t.lanes + 1) 0xFFFF)
             ∧ (l.worn t.fab = true → l.spares = 0 → exec (.laneRetire link) s = .next (s.push (.linkDead link))))
       ∧ (dir < 6 →
           (dir < 4 → (1 ∈ versions → trained i fun l => l.up = true ∧ l.version = 1 ∧ l.dead = false)
               ∧ (1 ∉ versions → 0 ∈ versions → trained i fun l => l.up = true ∧ l.version = 0)
               ∧ (1 ∉ versions → 0 ∉ versions → trained i fun l => l.dead = true))
             ∧ (4 ≤ dir → d ≠ 1 → 1 ∈ versions → partner = nb / 24 → trained d fun l => l.up = true ∧ l.version = 1)
             ∧ (4 ≤ dir → (d = 1 ∨ partner ≠ nb / 24 ∨ i ≠ d) → trained i fun l => l.up = false)))
    ∧ (∀ (s : State) (agent owner seq since : Nat) (x : XmitEntry) (w : SeqWindow),
         let st := agentSite agent
         let u := s.mapSite st fun t => { t with reroutes := min (t.reroutes + 1) 0xFFFFFFFF }
         let key := pairKey agent owner
         let v := u.mapSite st fun t =>
           { t with quiet := if (Sparse.find t.quiet key).isSome then Sparse.set t.quiet key t.fab else t.quiet }
         let live := (v.hops st (agentSite owner)).isSome
         let same := fun (y : XmitEntry) => y.owner = owner ∧ y.seq = seq
         let gone := v.freeXmit agent owner seq
         let told := if live then gone.injectCtl st 5 agent owner seq none else gone
         let site := s.site (agentSite owner)
         let wins := Sparse.get [] site.windows owner
         ((Sparse.get [] (u.site st).windows agent).find? (·.src == owner) = some w →
             exec (.reroute agent owner ⟨seq, .answer⟩) s = .next (u.answerAgain agent owner seq w true))
           ∧ ((Sparse.get [] (u.site st).windows agent).find? (·.src == owner) = none → exec (.reroute agent owner ⟨seq, .answer⟩) s = .next u)
           ∧ exec (.reroute agent owner ⟨seq, .control⟩) s = .next u
           ∧ (v.xmitAt agent owner seq = some x →
               (live = true → x.reroutes < 2 → exec (.reroute agent owner ⟨seq, .request⟩) s = .next ((v.setXmit agent ((v.xmitOf agent).map
                   fun y => if same y then { y with reroutes := y.reroutes + 1 } else y)).inject agent owner x.flits x.cls seq true
                     x.opens (some x.step)))
                 ∧ (live = false ∨ 2 ≤ x.reroutes → exec (.reroute agent owner ⟨seq, .request⟩) s =
                     .next (((told.machineCheck st 6 1 agent 0).cancelStep owner x.step).xmitOn agent)))
           ∧ (wins.find? (·.src == agent) = some w → (seq + 65536 - w.base) % 65536 < 64 → seq ∉ w.applied →
               exec (.skip owner agent seq) s = .next ((s.mapWindow owner agent fun w =>
                 { w with entries := w.entries.filter (·.seq != seq) ++ [{ seq, step := none, done := true }] }).markApplied owner agent seq))
           ∧ (wins.find? (·.src == agent) = some w → 64 ≤ (seq + 65536 - w.base) % 65536 → (seq + 65536 - w.base) % 65536 < 32768 →
               seq ∉ w.applied → exec (.skip owner agent seq) s = .next (((s.mapWindow owner agent fun w =>
                 w.moveTo ((seq + 65536 - 63) % 65536)).mapWindow owner agent fun w =>
                 { w with entries := w.entries.filter (·.seq != seq) ++ [{ seq, step := none, done := true }] }).markApplied owner agent seq))
           ∧ (Sparse.find (s.site st).quiet key = some since → since + 2 ^ 20 ≤ (s.site st).fab →
               (∀ y ∈ s.xmitOf agent, y.owner ≠ owner) → Completes (exec (.windowCloseTimer agent owner) s) fun t =>
                 Sparse.find (t.site st).quiet key = none ∧ ∃ f ∈ (t.site st).inject ++ (t.site st).mesh.flatMap (fun q => q.2.map (·.flit)), f.kind = 2 ∧ f.ctl = 6 ∧ f.src = agent
                   ∧ f.dst = owner ∧ f.seq = (Sparse.get 0 (s.site st).outSeq key + 65535) % 65536)
           ∧ Completes (exec (.close owner agent seq) s) (fun t =>
               ∀ y, y ∈ Sparse.get [] (t.site (agentSite owner)).windows owner ↔ y ∈ wins
                 ∧ (y.src ≠ agent ∨ 0 < (y.opened + 65536 - seq) % 65536 ∧ (y.opened + 65536 - seq) % 65536 < 32768)))

/-- Errors, losses, the debugger and the throttle complete (R149, R404 to R412, R435, R437, R438). A corrected error
is counted; an uncorrectable one poisons a line of DRAM or a dirty line of L2, invalidates a clean one, any line of an
L1 instruction cache, and costs the core where it meets registers, held B, FPSTAT or a speculative line; the scrub
leaves no altered bit at its site. Where the rules are silent it rests on the model's reading (logs 44, 47 and 112).
-/
def Obligations.ErrorSteps : Prop :=
  ∀ (s : State) (a k x site part : Nat) (found : List (ErrUnit × Bool)) (since : Nat) (r : Sensors) (v : Word),
    let t := s.site site
    let c := s.core k
    let hot := decide (700 < t.sensors.power ∨ 95 ≤ t.sensors.tcomp)
    Completes (exec (.eccError (.line a) true) s) (fun w => (w.site (paSite a)).dramc = min ((s.site (paSite a)).dramc + 1) 0xFFFF)
      ∧ exec (.eccError (.line a) false) s = .next ({ s with poison := insertNat s.poison (a / 128) }.machineCheck (paSite a) 4 1
          (agentHod (paSite a) (paSlice a)) (a / 128 * 128))
      ∧ (s.l2Dirty (lineOf a) = false → exec (.eccError (.l2 a) false) s = .next s)
      ∧ (s.l2Dirty (lineOf a) = true → exec (.eccError (.l2 a) false) s = .next ({ s with
          poison := insertNat s.poison (a / 128) }.machineCheck (paSite a) 3 1 (agentDir (paSite a) (paSlice a)) (a / 128 * 128)))
      ∧ exec (.eccError (.l1d k a) false) s = (if s.specLine k (lineOf a) then .next (s.push (.coreLoss k))
          else .next (s.dropL1 (· == k) (·.line == lineOf a)))
      ∧ (∀ e ∈ [ErrUnit.regfile k, .heldB k, .fpstat k, .specLine k], exec (.eccError e false) s = .next (s.push (.coreLoss k)))
      ∧ (∀ e, exec (.eccError (.l1i k a) e) s = .next (s.mapCore k fun c => { c with l1i := c.l1i.filter (· != lineOf a) }))
      ∧ Completes (exec (.scrub site found) s) (fun w => SameStorage s w
          ∧ (∀ f ∈ w.flips, f ∈ s.flips ∧ paSite (State.flipAddr f.1) ≠ site)
          ∧ ∀ u c, (u, c) ∈ found → unitSite u = site → Event.eccError u c ∈ w.agenda)
      ∧ (c.lost = 0 → clusterOf k ∉ (s.site (siteOf k)).sparesUsed → Completes (exec (.coreLoss k) s) fun w =>
          (w.core k).lost = 1 ∧ (w.core k).copyStart = c.cycle ∧ (∀ x, (w.ctxAt k x).occupied = false) ∧ (w.core k).l1 = []
            ∧ (w.core k).tiles = [] ∧ clusterOf k ∈ (w.site (siteOf k)).sparesUsed)
      ∧ (c.lost = 1 → Completes (exec (.spareTakeover k) s) fun w =>
          (w.core k).lost = 0 ∧ (w.core k).waiting = [] ∧ (∀ e ∈ c.waiting, e ∈ w.agenda) ∧ Event.dispatch k ∈ w.agenda)
      ∧ (t.live = true → Completes (exec (.siteLoss site) s) fun w =>
          (w.site site).live = false ∧ (w.site site).nodes = [] ∧ ∀ d, d < 6 → (w.link site d).dead = true)
      ∧ (t.live = true → t.evacuating = none → Completes (exec (.siteEvacuation site) s) fun w =>
          (w.site site).evacuating = some t.fab)
      ∧ (t.evacuating = some since → since + 2 ^ 27 ≤ t.fab → s.cores.all (fun (k, c) => siteOf k != site || c.lost != 2) = true →
          exec (.evacuationTimeout site) s = .next (s.push (.siteLoss site)))
      ∧ exec (.debugAttach part) s = .next (s.mapPart part fun p => { p with attached := p.attached || p.injen })
      ∧ exec (.debugDetach part) s = .next (s.mapPart part fun p => { p with attached := false })
      ∧ (s.debuggable k x = true → (s.ctxAt k x).atBkpt = false →
          Completes (exec (.debugResume k x) s) (fun w => (w.ctxAt k x).halted = false ∧ (w.ctxAt k x).pc = (s.ctxAt k x).pc)
            ∧ ((s.ctxAt k x).txn = none → exec (.debugStep k x) s = .next (s.mapCtx k x fun t => { t with stepping := true }))
            ∧ ((s.ctxAt k x).txn.isSome = true → exec (.debugStep k x) s =
              .next ((s.abortTxn k x 10 0 false).mapCtx k x fun t => { t with stepping := true }))
            ∧ exec (.breakTask k x) s = .next (s.takeTrap k x cBREAK 0 (State.instrPc (s.ctxAt k x)) 0 false))
      ∧ Completes (exec (.sensorUpdate site r) s) (fun w => (w.site site).sensors = r ∧ (w.site site).level = t.level
          ∧ (105 ≤ r.tcomp → t.live = true → Event.thermalShutdown site ∈ w.agenda))
      ∧ (105 ≤ t.sensors.tcomp → exec (.thermalShutdown site) s = .next (s.push (.siteLoss site)))
      ∧ (hot = true → t.level < 3 → t.levelSince + 2 ^ 20 ≤ t.fab → exec (.throttleRaise site) s =
          .next (s.mapSite site fun t => { t with level := t.level + 1, levelSince := t.fab }))
      ∧ (hot = false → t.capset < t.level → t.levelSince + 2 ^ 24 ≤ t.fab → exec (.throttleLower site) s =
          .next (s.mapSite site fun t => { t with level := t.level - 1, levelSince := t.fab }))
      ∧ exec (.capsetWrite site v) s = .next (s.mapSite site fun t =>
          { t with capset := v.toNat % 4, level := max t.level (v.toNat % 4) })

/-- The host's accesses complete (R5, R414 to R420, R422, R438). A write to the register block of a live port does
what its offset says, and nothing at a read-only one; a snoop leaves the half in the state it names, with data from M;
a grant stores the half's bytes and lets what waited go on, as does the answer to a back-invalidate; reads and writes
of device memory go through a committed decoder of the port and the tables of its partition, a fault reading as zero
and poisoned; ports train, with the features both ends have, and are lost. The offsets of the decoders and of MSI-X
are the model's (log 100). Checkpoints and restores complete (R422 to R426). With no team left on a rectangle the
image is saved, with every byte of every frame or at least of the dirty ones; a team that stays too long ends it with
code 1; the entries whose D bits it clears are free (R158, R420). A restore takes an image that fits, else answers 3.
At the end BUSY falls, CODE says how it went, and the host's stalled writes go on. Where the rules are silent it rests
on the model's reading (logs 28 and 38). -/
def Obligations.HostSteps : Prop :=
  (∀ (s u : State) (mod port site half want st i part va hpa len kind width rate major minor : Nat) (v : Word) (data : List Byte)
       (as : List Nat) (features : List PortFeature),
     let p := s.port mod port
     let writes := fun off => exec (.registerWrite mod port off v) s
     let low := v.toNat % 32
     let snooped := fun ins keep => Completes (exec ins s) fun w =>
       w.halfState site half = min (s.halfState site half) keep ∧ SameStorage s w
         ∧ (w.site site).snoopData = if s.halfState site half = 3 then s.readMem (addrRange (half * 64) 64) else []
     let nothing := .next (s.mapPort mod port fun p => p)
     let decodes := fun off f => i < 4 → writes (0x1000 + 32 * i + off) = .next (s.mapPort mod port fun p =>
       { p with decoders := Sparse.set p.decoders i (let d : HdmDecoder := Sparse.get {} p.decoders i; if d.committed then d else f d) })
     let frm := portSite mod port
     let hs := (State.halvesOf as).filter fun h => h < 2 ^ 39
     (s.serving mod = true → p.up = true →
         (v.getLsbD 63 = true → p.postBusy = false → writes 0x008 =
             .next (((s.mapPort mod port fun p => { p with postSite := low }).mapPort mod port fun p =>
               { p with postBusy := true, goSite := p.postSite }).push (.postGo mod port)))
           ∧ (v.getLsbD 63 = true → p.postBusy = true → writes 0x008 =
             .next ((s.mapPort mod port fun p => { p with postSite := low }).mapPort mod port fun p => { p with overrun := true }))
           ∧ (v.getLsbD 63 = false → writes 0x008 = .next (s.mapPort mod port fun p => { p with postSite := low }))
           ∧ writes 0x018 = .next (s.mapPort mod port fun p => { p with nstat := p.nstat &&& ~~~v })
           ∧ (port = 0 → writes 0x020 = .next (s.ckctl mod v)) ∧ (port ≠ 0 → writes 0x020 = nothing ∧ writes 0x028 = nothing)
           ∧ (port = 0 → writes 0x028 = .next (s.mapModule mod fun m =>
               { m with ck := { m.ck with base := v.toNat % 2 ^ 45 / 4096 * 4096 } }))
           ∧ (i < 8 → writes (0x040 + 8 * i) = .next (s.mapPort mod port fun p => { p with postrec := Sparse.set p.postrec i v }))
           ∧ (i < 24 → writes (0x500 + 8 * i) = .next (s.push (.capsetWrite (mod * 24 + i) v)))
           ∧ writes 0x000 = nothing ∧ writes 0x010 = nothing ∧ writes 0x030 = nothing ∧ (i < 24 → writes (0x100 + 8 * i) = nothing)
           ∧ writes 0x1800 = .next (s.mapPort mod port fun p => { p with msixOn := v.getLsbD 0 })
           ∧ decodes 0 (fun d => { d with base := v.toNat }) ∧ decodes 8 (fun d => { d with size := v.toNat })
           ∧ decodes 24 (fun d => { d with part := v.toNat }))
       ∧ snooped (.snpinv site half) 0 ∧ snooped (.snpdata site half) 1 ∧ snooped (.snpcur site half) 3
       ∧ (Sparse.find (s.site site).halfReq half = some want → 1 ≤ st → st ≤ 3 → (want = 1 → 2 ≤ st) → (want = 0 → st ≠ 3) → data.length = 64 →
           Completes (exec (.hostCacheGrant site half st data) s) fun w => w.halfState site half = st
             ∧ Sparse.find (w.site site).halfReq half = none ∧ (∀ e ∈ (s.site site).hostWait, e ∈ w.agenda)
             ∧ ∀ a, Mem.read w.mem a = if half * 64 ≤ a ∧ a < half * 64 + 64 then data.getD (a - half * 64) 0 else Mem.read s.mem a)
       ∧ (Sparse.find (s.site site).bisnp half = some kind → Completes (exec (.bisnpResponse site half none) s) fun w =>
           Sparse.find (w.site site).bisnp half = none ∧ (kind = 1 → ∀ h ∈ (w.site site).hdm, h.1 ≠ half)
             ∧ (∀ e ∈ (s.site site).hostWait, e ∈ w.agenda) ∧ SameStorage s w)
       ∧ (s.serving mod = true → p.up = true →
           (p.window hpa len = none → exec (.hostRead ⟨mod, port⟩ hpa len) s = .next s)
             ∧ (p.window hpa len = some (part, va) →
               (∀ c, s.hdmXlate frm part va len .read = (u, .inr c) → c ≠ fWAIT → Completes (exec (.hostRead ⟨mod, port⟩ hpa len) s) fun w =>
                   (w.module mod).hdmData = List.replicate len 0 ∧ (w.module mod).hdmPoison = true)
                 ∧ (s.hdmXlate frm part va len .read = (u, .inl as) → u.tileLocked as = false →
                   (∀ h ∈ hs, Sparse.find (u.site (paSite (h * 64))).bisnp h = none) → u.hdmOldest hs = none →
                   Completes (exec (.hostRead ⟨mod, port⟩ hpa len) s) fun w => (w.module mod).hdmData = as.map (Mem.read u.mem)
                     ∧ (w.module mod).hdmPoison = (u.poisonedByte as).isSome ∧ w.mem = u.mem))
             ∧ (p.window hpa data.length = some (part, va) →
               (s.paused mod = true → exec (.hostWrite ⟨mod, port⟩ hpa data) s = .next (s.mapModule mod fun m =>
                   { m with ck := { m.ck with stalled := m.ck.stalled ++ [.hostWrite ⟨mod, port⟩ hpa data] } }))
                 ∧ (s.paused mod = false → s.hdmXlate frm part va data.length .write = (u, .inl as) → u.tileLocked as = false →
                   exec (.hostWrite ⟨mod, port⟩ hpa data) s = .next (u.performWrite (as.zip data) []))))
       ∧ (let w := s.mapPort mod port fun p => { p with up := false, spdm := 0 }
         p.up = true → (port ≠ 0 ∨ (s.module mod).ck.busy = false) → (w.anyPort mod).isSome = true →
           exec (.portLost mod port) s = .next w)
       ∧ (port < 8 → (width = 4 ∨ width = 8 ∨ width = 16) → (rate = 16 ∨ rate = 32 ∨ rate = 64) → (s.module mod).powered = true →
           (major < 3 ∨ (major = 3 ∧ minor ≤ 2)) → (.standardFlit ∈ features ∨ .latencyFlit ∈ features) →
           (.cxlIo ∈ features ∧ .cxlCache ∈ features ∧ .cxlMem ∈ features) →
           exec (.portLinkUp ⟨mod, port⟩ width rate major minor features) s = .next (s.mapPort mod port fun p =>
             { p with up := true, width, rate, cxlMajor := major, cxlMinor := minor, features := portFeatures.filter features.contains })))
    ∧ (∀ (s : State) (mod : Nat) (img : CkImage),
         let c := (s.module mod).ck
         let key := ckKey mod c.base
         let saved := fun ins p => Completes (exec ins s) fun u => (u.module mod).ck.done = true
           ∧ Event.checkpointComplete mod ∈ u.agenda ∧ ∃ i, Sparse.find u.ckImages key = some i ∧ i.valid = true ∧ p i
         let new := (s.ckTeams mod).filter fun u => (Sparse.find s.teams u).any fun t =>
           (t.state == .placed || t.state == .replay) && !t.frozen
         let quiesced := .next ((new.foldl (fun s u => s.beginQuiesce u) s).mapCk mod fun c => { c with quiesced := c.quiesced ++ new })
         let w := (s.writeBackAll mod).returnHalves mod
         let entries := (w.partsOf mod).flatMap fun n => (w.dirtyLeaves n).flatMap fun d => addrRange d.1 8
         let frames := (w.partsOf mod).flatMap fun n => (w.dirtyLeaves n).flatMap fun d => w.pageFrames n d.2.1 d.2.2.1 d.2.2.2
         let holds := fun (i : CkImage) (p : Nat → Prop) =>
           ∀ c ∈ w.mem, c.1 < 2 ^ 45 → c.1 / 2 ^ 42 = mod → p (c.1 / 65536) → c ∈ i.mem
         let restored := fun (u : State) n =>
           .next ((u.mapCk mod fun c => { c with done := true, result := n }).push (.checkpointComplete mod))
         (c.busy = true → c.done = false →
             (c.op = 0 → s.ckTeams mod = [] → saved (.checkpointFull mod) fun i => i.frames = none ∧ holds i fun _ => True)
               ∧ (c.op = 1 → s.ckTeams mod = [] → w.tileLocked entries = false →
                   w.hostAsk (mod * 24) entries true (some (.checkpointIncr mod)) = none → saved (.checkpointIncr mod) fun i => holds i (· ∈ frames))
               ∧ (s.ckTeams mod ≠ [] → (c.op = 0 → exec (.checkpointFull mod) s = quiesced)
                   ∧ (c.op = 1 → exec (.checkpointIncr mod) s = quiesced)
                   ∧ (c.op < 2 → c.start + 2 ^ 27 ≤ (s.site (mod * 24)).fab → exec (.checkpointTimeout mod) s = .next (s.ckEnd mod 1)))
               ∧ (c.op = 2 → Sparse.find s.ckImages key = some img → exec (.restore mod) s =
                   if s.ckFits mod img then restored (s.ckLoad mod img) 0 else restored s 3)
               ∧ (c.op = 2 → Sparse.find s.ckImages key = none → exec (.restore mod) s = restored s 3))
           ∧ (c.busy = true → c.done = true → Completes (exec (.checkpointComplete mod) s) fun u =>
               (u.module mod).ck.busy = false ∧ (u.module mod).ck.code = (if c.media then 2 else c.result)
                 ∧ (u.module mod).ck.stalled = [] ∧ ∀ e ∈ c.stalled, e ∈ u.agenda))

/-- Resets, the lifecycle and its tokens complete (R427 to R435). A module or power-on reset wipes the module's
storage, tasks and caches, and comes into service only with a valid image and not RETIRED; a site reset wipes one
site; without power the module stands still. Each token has its effect only in its lifecycle state, with a valid
signature on the device's fresh nonce; a change of state burns fuses and resets the module. The SPDM exchanges of a
live port complete (R415, R433), in their order: version, capabilities, algorithms (SHA-256 and AES-256-GCM alone),
exchange, finish; within a session heartbeats, the IDE key, vendor requests and reports, each of which is signed, by
HSS, and advances the leaf counter. A request out of its order gets an error. Where the rules are silent it rests on
the model's reading (logs 7, 29 and 30). -/
def Obligations.ResetSteps : Prop :=
  (∀ (s : State) (mod site part : Nat) (img : SignedImage) (fw att uds : BitVec 256) (t : Token),
     let m := s.module mod
     let wiped := fun (u : State) (mine : Nat → Prop) =>
       (∀ a, a < 2 ^ 45 → mine (paSite a) → Mem.read u.mem a = 0)
         ∧ ∀ k, mine (siteOf k) → (u.core k).l1 = [] ∧ (u.core k).ni.queue = [] ∧ ∀ x, u.ctxAt k x = {}
     let reset := fun ins => Completes (exec ins s) fun u => wiped u (fun st => st / 24 = mod)
       ∧ (u.module mod).powered = true ∧ (u.module mod).ck.busy = false ∧ (u.module mod).sessions = []
       ∧ ((u.module mod).resetStep = 7 ↔ imageOk m.fuses m.flash = true ∧ lifeOf m.fuses ≠ .retired)
     let fresh := s.freshNonce mod
     let acts := fun ins (life : Prop) (code : Nat) (u : State) =>
       (life → s.tokenOk mod t code = true → exec ins s = .next u) ∧ (¬ life ∨ s.tokenOk mod t code = false → exec ins s = .next s)
     reset (.powerOn mod) ∧ (m.powered = true → reset (.moduleReset mod))
       ∧ Completes (exec (.powerLoss mod) s) (fun u => (u.module mod).powered = false ∧ SameStorage s u)
       ∧ ((s.site site).live = false ∨ (s.site site).evacuating.isSome = true → Completes (exec (.siteReset site) s) fun u =>
           wiped u (fun st => st = site) ∧ (u.site site).live = true ∧ (u.site site).rejoin = true)
       ∧ ((s.site site).rejoin = true → site ∈ s.partSites part → exec (.siteRejoin site part) s = .next
           ((s.mapSite site fun t => { t with rejoin := false, keyed := true }).pushOnce (.teamPlace part)))
       ∧ exec (.hodImageUpdate mod img) s = .next (if imageOk m.fuses img then
           ((s.hodTeams mod).foldl (fun s u => (s.clearRange (teamStore + u * 2 ^ 32) (2 ^ 28)).load (teamStore + u * 2 ^ 32)
             (img.data.take (2 ^ 28))) s).mapModule mod fun m =>
               { m with hodImage := digestOf img.data, fuses := raiseVer m.fuses img, hodRejected := false }
           else s.mapModule mod fun m => { m with hodRejected := true })
       ∧ (s.life mod = .blank → exec (.provisioned mod fw att uds) s = .next (s.burn mod fun f =>
           { f with fwkeyh := fw, attkeyh := att, uds, life := f.life ||| 1 }))
       ∧ acts (.deploymentToken mod t) (s.life mod = .provisioned) actDeploy (fresh.burn mod fun f => { f with life := f.life ||| 2 })
       ∧ acts (.unlockToken mod t) (s.life mod = .deployed ∧ m.fuses.dbgcnt < 32) actUnlock
           (fresh.burn mod fun f => { f with dbgcnt := f.dbgcnt + 1 })
       ∧ acts (.relockToken mod t) (s.life mod = .debug) actRelock (fresh.burn mod fun f => { f with rlkcnt := f.rlkcnt + 1 })
       ∧ acts (.returnToken mod t) (s.life mod = .deployed ∨ s.life mod = .debug) actReturn
           ((fresh.mapModule mod fun m => { m with exhausted := true }).burn mod fun f => { f with life := f.life ||| 4 })
       ∧ acts (.retireToken mod t) (s.life mod = .returned) actRetire (fresh.burn mod fun f => { f with life := f.life ||| 8 })
       ∧ acts (.session mod part t) (s.life mod = .deployed ∧ (s.part part).mod = mod ∧ (Sparse.find s.parts part).isSome = true)
           actSession ((fresh.mapModule mod fun m => { m with sessions := insertNat m.sessions part }).mapPart part fun p =>
             { p with injen := true }))
    ∧ (∀ (s : State) (mod port session kind : Nat) (nonce arg proof : Word) (key : BitVec 256),
         let p := s.port mod port
         let m := s.module mod
         let answers := fun (s : State) (next rsp : Nat) words => s.mapPort mod port fun p =>
           { p with spdm := next, response := (rsp, words) }
         let error := s.mapPort mod port fun p => { p with response := (rspError, []) }
         p.up = true → m.powered = true →
           exec (.getVersion mod port) s = .next (answers s 1 rspVersion [0x12])
             ∧ exec (.getCapabilities mod port) s = .next (if p.spdm = 1 then answers s 2 rspCapabilities [] else error)
             ∧ exec (.negotiateAlgorithms mod port true true) s = .next (if p.spdm = 2 then answers s 3 rspAlgorithms [] else error)
             ∧ exec (.negotiateAlgorithms mod port false true) s = .next error
             ∧ exec (.negotiateAlgorithms mod port true false) s = .next error
             ∧ exec (.pskExchange mod port session) s = .next (if p.spdm = 3 then
                 (answers s 4 rspExchange [BitVec.ofNat 64 session]).mapPort mod port fun p => { p with session } else error)
             ∧ exec (.pskFinish mod port proof) s = .next
                 (if p.spdm = 4 ∧ Config.finishValid m.fuses.uds proof = true then answers s 5 rspFinish [] else error)
             ∧ exec (.heartbeat mod port) s = .next (if p.spdm = 5 then answers s 5 rspHeartbeat [] else error)
             ∧ exec (.endSession mod port) s = .next (if p.spdm = 5 then answers s 3 rspEnd [] else error)
             ∧ exec (.cxlIdeKeyManagement mod port key) s = .next (if p.spdm = 5 then
                 (answers s 5 rspKeyManagement []).mapPort mod port fun p => { p with ideKey := some key } else error)
             ∧ (p.spdm = 5 → exec (.vendorDefinedRequest mod port 0 arg) s = .next (s.push (.attestationReport mod port arg))
                 ∧ exec (.vendorDefinedRequest mod port 2 arg) s = .next (answers s 5 rspVendor [m.nonce]))
             ∧ (3 ≤ kind ∨ p.spdm ≠ 5 → exec (.vendorDefinedRequest mod port kind arg) s = .next error)
             ∧ (p.spdm = 5 → m.exhausted = false → m.leaf < 2 ^ 20 → Completes (exec (.attestationReport mod port nonce) s) fun u =>
                 (u.module mod).leaf = m.leaf + 1 ∧ (u.port mod port).response.1 = rspVendor
                   ∧ (u.port mod port).response.2 = s.reportBody mod nonce ++ wordsOf (hssSign m.fuses.uds m.leaf
                       ((s.reportBody mod nonce).flatMap fun w => bytesOf 8 w.toNat))
                   ∧ (u.port mod port).response.2.take 5 = [nonce, BitVec.ofNat 64 (lifeCode (lifeOf m.fuses)),
                       BitVec.ofNat 64 m.fuses.fwver, BitVec.ofNat 64 m.fuses.dbgcnt, BitVec.ofNat 64 m.fuses.rlkcnt])
             ∧ (p.spdm ≠ 5 ∨ m.exhausted = true ∨ 2 ^ 20 ≤ m.leaf → exec (.attestationReport mod port nonce) s = .next error))

/-- After reset (R90, R110, R428, R429): every byte reads as zero, no granule is tagged, nothing is poisoned, every
bank is a cache, no context holds a task, every counter of cycles is zero, the generator of a context is at 1; the
module is in service and memory is in its canonical form; the boot firmware has placed a team of the partition's
runtime image on the first core of each site, and the hod team (R352, R354). That core 0 is the first to move, that
one partition of all 24 sites exists, and which image is which, is the model's choice (logs 3, 4 and 31). -/
def Obligations.ResetState : Prop :=
  let s := State.reset
  (∀ a, Mem.read s.mem a = 0) ∧ s.tags = [] ∧ s.poison = [] ∧ s.Canonical ∧ (∀ b, (s.bank b).mode = .cache)
    ∧ (∀ k x, (s.ctxAt k x).occupied = false ∧ (s.ctxAt k x).pend = [] ∧ (s.ctxAt k x).fpstat = 0x0000000100000000)
    ∧ (∀ k, (s.core k).cycle = 0 ∧ (s.core k).ni.queue = [] ∧ (s.core k).l1 = [])
    ∧ (∀ n, (s.site n).fab = 0 ∧ (s.site n).ticket = 0 ∧ (s.site n).live = true)
    ∧ (∀ n, n < 24 → (s.teamAt (n * 1024)).any (fun t => t.state == .placed && t.image == (s.part 0).runtime && (t.w, t.h) == (1, 1)
        && teamCore t 0 0 == n * 1024) = true)
    ∧ (∀ k, (s.core k).team.isSome = true → k % 1024 = 0 ∧ k / 1024 < 24)
    ∧ s.teams.any (fun (_, t) => t.state == .placed && (s.imageOf t).hod) = true
    ∧ (s.module 0).resetStep = 7 ∧ s.inService = true ∧ s.agenda = [] ∧ s.cur = 0

/-- Words of the spec's tables of encoded instructions, one or more of every family, and what each stands for. -/
def Obligations.DecodeWords : Prop :=
  decode 0x0492_8B00#32 = some (.add 9 10 11) ∧ decode 0x28814235#32 = some (.cinci 8 5 0x235)
    ∧ decode 0x18A28010#32 = some (.slli 10 10 16) ∧ decode 0x24920A00#32 = some (.cbound 9 8 10)
    ∧ decode 0x6091C086#32 = some (.ldD 9 7 8) ∧ decode 0x64A1FFE4#32 = some (.stW 10 7 (-2))
    ∧ decode 0x30900003#32 = some (.ldlD 9 3) ∧ decode 0x40900003#32 = some (.beq 9 0 3)
    ∧ decode 0x7400000C#32 = some (.fenceSs 4) ∧ decode 0x78024A0D#32 = some (.aadd 0 9 10 13)
    ∧ decode 0x7C928000#32 = some (.lrw 9 10) ∧ decode 0x84824A08#32 = some (.bmov 8 9 10)
    ∧ decode 0x84240000#32 = some (.sbind 2 16) ∧ decode 0x8803_8000#32 = some (.send 0 14 0)
    ∧ decode 0x90824A02#32 = some (.hgathSum 8 9 10) ∧ decode 0x94E33200#32 = some (.dpush 14 12 50)
    ∧ decode 0x980A4003#32 = some (.barr 41 0) ∧ decode 0xC0900100#32 = some (.csrr 9 1)
    ∧ decode 0x59431000#32 = some (.rep 20 3 1 0 0) ∧ decode 0x5C000000#32 = some .endTask
    ∧ decode 0x5C000001#32 = some .release ∧ decode 0xC4000001#32 = some .bkpt ∧ decode 0#32 = none

/-- Decoding the word of a well-formed instruction gives it back, with every operand at every value its field admits
(R167 to R177). The rows of one word that an operation code in a register tells apart (R358, R392) decode to the row
of code 0. -/
def Obligations.RoundTrip : Prop :=
  ∀ i : Instr, i.wf = true → ∀ w, encode i = some w → decode w = some i.canonical

/-- Every step keeps memory in its canonical form: addresses rising, no zero byte listed. -/
def Obligations.CanonicalKept : Prop :=
  ∀ s t : State, s.Canonical → step s = .next t → t.Canonical

/-- What an instruction can change of the stored bytes as it issues (R106, R113, R123, R218): a store to the core's
own region or to a FIFO of its cluster is performed at once, the instruction's own or one that waited for it; any
other store, an atomic, a held effect is performed by a later step at its home. The walk that SBINDR makes for its
record is apart: it sets A and D (R384, R385). -/
def Obligations.IssueKeepsMemory : Prop :=
  ∀ (i : Instr) (s t : State) (a : Nat), (encode i).isSome = true → (∀ k c d, i ≠ .sbindr k c d) → exec i s = .next t →
    Mem.read t.mem a = Mem.read s.mem a
      ∨ (∃ k x, ∃ p ∈ (s.ctxAt k x).pend, p.kind = .store ∧ State.localPlace p.place = true ∧ a ∈ p.addrs)
      ∨ ∃ va b p, s.xlate s.cur va .write = .ok b p ∧ State.localPlace p = true ∧ b ≤ a + 127
          ∧ (a < b + 256 ∨ ∃ bk, a < b + slotBytes (s.bank bk))

/-- A step (R12, R43, R113, R166, R178, R180, R380). Between two cycles the next step of the agenda is taken.
Otherwise a cycle of the current core passes; where no task is past its budget and the issue slot comes to context x,
the word at its PC is decoded, and the step is exec of the instruction at that state, its line in the instruction
cache, or the ILLEGAL trap, followed by the pointer's move and the cycle's end; a word outside the code section takes
CAP. A repeat frame's instruction, staggered, runs in the same way. That cores take turns, and the agenda's order, are
the model's choice (logs 1, 91). -/
def Obligations.StepRuns : Prop :=
  ∀ (s t : State) (e : Event) (x : Nat) (before after : List Nat) (w : BitVec 32) (i : Instr),
    let k := s.cur
    let b := s.beginCycle k
    let u := { b with cur := k, ctx := x, stalled := false }
    let turn := (s.between = true → s.nextEvent = none) ∧ s.inService = true
    let budgets := ∀ y, y < 8 → (s.core k).frozen = true ∨ (s.ctxAt k y).halted = true ∨ atBoundary (s.ctxAt k y) = false
      ∨ (s.ctxAt k y).budget ≤ (s.imageAt k).budget
    ((s.between = true ∨ s.inService = false) → s.nextEvent = some e →
        step s = runEvent e { s with agenda := s.agenda.erase e })
      ∧ (s.nextEvent = none → s.inService = false → step s = .fault .stopped)
      ∧ (turn → budgets → b.mayIssue k = true → ready (b.core k) (b.ctxAt k x) = true → t.stalled = false →
          (framed (b.core k) = none → State.runningFrame (b.ctxAt k x) = none → slotOrder (b.core k).ptr = before ++ x :: after →
              (∀ y ∈ before, ready (b.core k) (b.ctxAt k y) = false) →
              let runs := fun o => o = Host.Outcome.next t → step s = .next ((t.issued k x).endCycle k)
              (u.nextWord = some w → decode w = some i → runs (exec i u.fetch))
                ∧ (u.nextWord = some w → decode w = none → runs (trapped u.fetch cILLEGAL 0))
                ∧ (u.nextWord = none → runs (trapped u cCAP (State.instrPc u.task))))
            ∧ (framed (b.core k) = some x → (b.ctxAt k x).hold = none → (t.ctxAt k x).stepping = false →
              (∀ y, y < 8 → y ≠ x → ready (t.core k) (t.ctxAt k y) = false) → u.nextWord = some w → decode w = some i →
              exec i u.fetch = .next t → step s = .next (t.endCycle k)))
end

