-- ==== Sys2Proof/Laws/Arms.lean ====
section
/-!
SUPPORT. The arms of `exec` and of `runEvent`, one equation each: what an instruction does is its meaning, and a step of
the machine's own does the same whether `exec` or the agenda runs it.
-/
namespace Sys2Proof.Machine

set_option Elab.async false

theorem exec_add {s} {d a b} : exec (.add d a b) s = execAdd d a b s := rfl
theorem exec_sub {s} {d a b} : exec (.sub d a b) s = execSub d a b s := rfl
theorem exec_and {s} {d a b} : exec (.and d a b) s = execAnd d a b s := rfl
theorem exec_or {s} {d a b} : exec (.or d a b) s = execOr d a b s := rfl
theorem exec_xor {s} {d a b} : exec (.xor d a b) s = execXor d a b s := rfl
theorem exec_andn {s} {d a b} : exec (.andn d a b) s = execAndn d a b s := rfl
theorem exec_sll {s} {d a b} : exec (.sll d a b) s = execSll d a b s := rfl
theorem exec_srl {s} {d a b} : exec (.srl d a b) s = execSrl d a b s := rfl
theorem exec_sra {s} {d a b} : exec (.sra d a b) s = execSra d a b s := rfl
theorem exec_ror {s} {d a b} : exec (.ror d a b) s = execRor d a b s := rfl
theorem exec_min {s} {d a b} : exec (.min d a b) s = execMin d a b s := rfl
theorem exec_max {s} {d a b} : exec (.max d a b) s = execMax d a b s := rfl
theorem exec_minu {s} {d a b} : exec (.minu d a b) s = execMinu d a b s := rfl
theorem exec_maxu {s} {d a b} : exec (.maxu d a b) s = execMaxu d a b s := rfl
theorem exec_seq {s} {d a b} : exec (.seq d a b) s = execSeq d a b s := rfl
theorem exec_sne {s} {d a b} : exec (.sne d a b) s = execSne d a b s := rfl
theorem exec_slt {s} {d a b} : exec (.slt d a b) s = execSlt d a b s := rfl
theorem exec_sltu {s} {d a b} : exec (.sltu d a b) s = execSltu d a b s := rfl
theorem exec_clz {s} {d a} : exec (.clz d a) s = execClz d a s := rfl
theorem exec_ctz {s} {d a} : exec (.ctz d a) s = execCtz d a s := rfl
theorem exec_popc {s} {d a} : exec (.popc d a) s = execPopc d a s := rfl
theorem exec_bswap {s} {d a} : exec (.bswap d a) s = execBswap d a s := rfl
theorem exec_addi {s} {d a i} : exec (.addi d a i) s = execAddi d a i s := rfl
theorem exec_andi {s} {d a i} : exec (.andi d a i) s = execAndi d a i s := rfl
theorem exec_ori {s} {d a i} : exec (.ori d a i) s = execOri d a i s := rfl
theorem exec_xori {s} {d a i} : exec (.xori d a i) s = execXori d a i s := rfl
theorem exec_slli {s} {d a n} : exec (.slli d a n) s = execSlli d a n s := rfl
theorem exec_srli {s} {d a n} : exec (.srli d a n) s = execSrli d a n s := rfl
theorem exec_srai {s} {d a n} : exec (.srai d a n) s = execSrai d a n s := rfl
theorem exec_slti {s} {d a i} : exec (.slti d a i) s = execSlti d a i s := rfl
theorem exec_sltui {s} {d a i} : exec (.sltui d a i) s = execSltui d a i s := rfl
theorem exec_mul {s} {d a b} : exec (.mul d a b) s = execMul d a b s := rfl
theorem exec_mulh {s} {d a b} : exec (.mulh d a b) s = execMulh d a b s := rfl
theorem exec_mulhu {s} {d a b} : exec (.mulhu d a b) s = execMulhu d a b s := rfl
theorem exec_div {s} {d a b} : exec (.div d a b) s = execDiv d a b s := rfl
theorem exec_divu {s} {d a b} : exec (.divu d a b) s = execDivu d a b s := rfl
theorem exec_rem {s} {d a b} : exec (.rem d a b) s = execRem d a b s := rfl
theorem exec_remu {s} {d a b} : exec (.remu d a b) s = execRemu d a b s := rfl
theorem exec_cbound {s} {d a b} : exec (.cbound d a b) s = execCbound d a b s := rfl
theorem exec_cperm {s} {d a b} : exec (.cperm d a b) s = execCperm d a b s := rfl
theorem exec_cseal {s} {d a b} : exec (.cseal d a b) s = execCseal d a b s := rfl
theorem exec_cunseal {s} {d a b} : exec (.cunseal d a b) s = execCunseal d a b s := rfl
theorem exec_cinc {s} {d a b} : exec (.cinc d a b) s = execCinc d a b s := rfl
theorem exec_cbase {s} {d a} : exec (.cbase d a) s = execCbase d a s := rfl
theorem exec_clen {s} {d a} : exec (.clen d a) s = execClen d a s := rfl
theorem exec_cgperm {s} {d a} : exec (.cgperm d a) s = execCgperm d a s := rfl
theorem exec_ctag {s} {d a} : exec (.ctag d a) s = execCtag d a s := rfl
theorem exec_cclr {s} {d a} : exec (.cclr d a) s = execCclr d a s := rfl
theorem exec_csub {s} {d a b} : exec (.csub d a b) s = execCsub d a b s := rfl
theorem exec_cinci {s} {d a i} : exec (.cinci d a i) s = execCinci d a i s := rfl
theorem exec_cboundi {s} {d a i} : exec (.cboundi d a i) s = execCboundi d a i s := rfl
theorem exec_tget {s} {d a} : exec (.tget d a) s = execTget d a s := rfl
theorem exec_tmrg {s} {d a} : exec (.tmrg d a) s = execTmrg d a s := rfl
theorem exec_tclr {s} {d} : exec (.tclr d) s = execTclr d s := rfl
theorem exec_twait {s} {a} : exec (.twait a) s = execTwait a s := rfl
theorem exec_ldlD {s} {d i} : exec (.ldlD d i) s = execLdlD d i s := rfl
theorem exec_ldlW {s} {d i} : exec (.ldlW d i) s = execLdlW d i s := rfl
theorem exec_jal {s} {d i} : exec (.jal d i) s = execJal d i s := rfl
theorem exec_jalr {s} {d a i} : exec (.jalr d a i) s = execJalr d a i s := rfl
theorem exec_beq {s} {a b i} : exec (.beq a b i) s = execBeq a b i s := rfl
theorem exec_bne {s} {a b i} : exec (.bne a b i) s = execBne a b i s := rfl
theorem exec_blt {s} {a b i} : exec (.blt a b i) s = execBlt a b i s := rfl
theorem exec_bge {s} {a b i} : exec (.bge a b i) s = execBge a b i s := rfl
theorem exec_bltu {s} {a b i} : exec (.bltu a b i) s = execBltu a b i s := rfl
theorem exec_bgeu {s} {a b i} : exec (.bgeu a b i) s = execBgeu a b i s := rfl
theorem exec_rep {s} {c l d a b} : exec (.rep c l d a b) s = execRep c l d a b s := rfl
theorem exec_endTask {s} : exec (.endTask) s = execEndTask s := rfl
theorem exec_release {s} : exec (.release) s = execRelease s := rfl
theorem exec_ldB {s} {t b i} : exec (.ldB t b i) s = execLdB t b i s := rfl
theorem exec_ldBu {s} {t b i} : exec (.ldBu t b i) s = execLdBu t b i s := rfl
theorem exec_ldH {s} {t b i} : exec (.ldH t b i) s = execLdH t b i s := rfl
theorem exec_ldHu {s} {t b i} : exec (.ldHu t b i) s = execLdHu t b i s := rfl
theorem exec_ldW {s} {t b i} : exec (.ldW t b i) s = execLdW t b i s := rfl
theorem exec_ldWu {s} {t b i} : exec (.ldWu t b i) s = execLdWu t b i s := rfl
theorem exec_ldD {s} {t b i} : exec (.ldD t b i) s = execLdD t b i s := rfl
theorem exec_stB {s} {t b i} : exec (.stB t b i) s = execStB t b i s := rfl
theorem exec_stH {s} {t b i} : exec (.stH t b i) s = execStH t b i s := rfl
theorem exec_stW {s} {t b i} : exec (.stW t b i) s = execStW t b i s := rfl
theorem exec_stD {s} {t b i} : exec (.stD t b i) s = execStD t b i s := rfl
theorem exec_ldc {s} {t b i} : exec (.ldc t b i) s = execLdc t b i s := rfl
theorem exec_stc {s} {t b i} : exec (.stc t b i) s = execStc t b i s := rfl
theorem exec_lda {s} {t b s1 z x} : exec (.lda t b s1 z x) s = execLda t b s1 z x s := rfl
theorem exec_stl {s} {t b s1 z} : exec (.stl t b s1 z) s = execStl t b s1 z s := rfl
theorem exec_fence {s} {s1} : exec (.fence s1) s = execFence s1 s := rfl
theorem exec_fenceSs {s} {s1} : exec (.fenceSs s1) s = execFenceSs s1 s := rfl
theorem exec_pref {s} {a} : exec (.pref a) s = execPref a s := rfl
theorem exec_cflush {s} {a} : exec (.cflush a) s = execCflush a s := rfl
theorem exec_cinv {s} {a} : exec (.cinv a) s = execCinv a s := rfl
theorem exec_czero {s} {a} : exec (.czero a) s = execCzero a s := rfl
theorem exec_aadd {s} {d a b v} : exec (.aadd d a b v) s = execAadd d a b v s := rfl
theorem exec_aand {s} {d a b v} : exec (.aand d a b v) s = execAand d a b v s := rfl
theorem exec_aor {s} {d a b v} : exec (.aor d a b v) s = execAor d a b v s := rfl
theorem exec_axor {s} {d a b v} : exec (.axor d a b v) s = execAxor d a b v s := rfl
theorem exec_amin {s} {d a b v} : exec (.amin d a b v) s = execAmin d a b v s := rfl
theorem exec_amax {s} {d a b v} : exec (.amax d a b v) s = execAmax d a b v s := rfl
theorem exec_aminu {s} {d a b v} : exec (.aminu d a b v) s = execAminu d a b v s := rfl
theorem exec_amaxu {s} {d a b v} : exec (.amaxu d a b v) s = execAmaxu d a b v s := rfl
theorem exec_aswap {s} {d a b v} : exec (.aswap d a b v) s = execAswap d a b v s := rfl
theorem exec_acas {s} {d a b v} : exec (.acas d a b v) s = execAcas d a b v s := rfl
theorem exec_afadd {s} {d a b v} : exec (.afadd d a b v) s = execAfadd d a b v s := rfl
theorem exec_lrw {s} {d a} : exec (.lrw d a) s = execLrw d a s := rfl
theorem exec_sc {s} {d a b} : exec (.sc d a b) s = execSc d a b s := rfl
theorem exec_xbegin {s} {d} : exec (.xbegin d) s = execXbegin d s := rfl
theorem exec_xend {s} : exec (.xend) s = execXend s := rfl
theorem exec_xabort {s} {k} : exec (.xabort k) s = execXabort k s := rfl
theorem exec_xtest {s} {d} : exec (.xtest d) s = execXtest d s := rfl
theorem exec_xredAdd {s} {a b w} : exec (.xredAdd a b w) s = execXredAdd a b w s := rfl
theorem exec_xredFadd {s} {a b w} : exec (.xredFadd a b w) s = execXredFadd a b w s := rfl
theorem exec_xredMin {s} {a b w} : exec (.xredMin a b w) s = execXredMin a b w s := rfl
theorem exec_xredMax {s} {a b w} : exec (.xredMax a b w) s = execXredMax a b w s := rfl
theorem exec_sbind {s} {k n} : exec (.sbind k n) s = execSbind k n s := rfl
theorem exec_sbindr {s} {k n r} : exec (.sbindr k n r) s = execSbindr k n r s := rfl
theorem exec_sfifoCons {s} {k n} : exec (.sfifoCons k n) s = execSfifoCons k n s := rfl
theorem exec_sfifoProd {s} {k n} : exec (.sfifoProd k n) s = execSfifoProd k n s := rfl
theorem exec_sunbind {s} {k} : exec (.sunbind k) s = execSunbind k s := rfl
theorem exec_sadv {s} {k} : exec (.sadv k) s = execSadv k s := rfl
theorem exec_sstat {s} {d k} : exec (.sstat d k) s = execSstat d k s := rfl
theorem exec_bmov {s} {d s1 n} : exec (.bmov d s1 n) s = execBmov d s1 n s := rfl
theorem exec_bfill {s} {d p n} : exec (.bfill d p n) s = execBfill d p n s := rfl
theorem exec_send {s} {n s1 p} : exec (.send n s1 p) s = execSend n s1 p s := rfl
theorem exec_sendo {s} {n s1 p} : exec (.sendo n s1 p) s = execSendo n s1 p s := rfl
theorem exec_sendr {s} {n s1 p} : exec (.sendr n s1 p) s = execSendr n s1 p s := rfl
theorem exec_put {s} {d s1 n} : exec (.put d s1 n) s = execPut d s1 n s := rfl
theorem exec_get {s} {d a} : exec (.get d a) s = execGet d a s := rfl
theorem exec_flushrd {s} {d a} : exec (.flushrd d a) s = execFlushrd d a s := rfl
theorem exec_waitm {s} {d a} : exec (.waitm d a) s = execWaitm d a s := rfl
theorem exec_recvm {s} {d a b} : exec (.recvm d a b) s = execRecvm d a b s := rfl
theorem exec_peekm {s} {d a} : exec (.peekm d a) s = execPeekm d a s := rfl
theorem exec_pmcfg {s} {d a b} : exec (.pmcfg d a b) s = execPmcfg d a b s := rfl
theorem exec_pmpost {s} {a} : exec (.pmpost a) s = execPmpost a s := rfl
theorem exec_pmdrain {s} {d a b} : exec (.pmdrain d a b) s = execPmdrain d a b s := rfl
theorem exec_hcopy {s} {d a} : exec (.hcopy d a) s = execHcopy d a s := rfl
theorem exec_hfill {s} {d a b} : exec (.hfill d a b) s = execHfill d a b s := rfl
theorem exec_hgathSum {s} {d a b} : exec (.hgathSum d a b) s = execHgathSum d a b s := rfl
theorem exec_hgathMean {s} {d a b} : exec (.hgathMean d a b) s = execHgathMean d a b s := rfl
theorem exec_hscat {s} {d a b} : exec (.hscat d a b) s = execHscat d a b s := rfl
theorem exec_dpush {s} {d a b} : exec (.dpush d a b) s = execDpush d a b s := rfl
theorem exec_dpop {s} {d a} : exec (.dpop d a) s = execDpop d a s := rfl
theorem exec_dsplit {s} {d a} : exec (.dsplit d a) s = execDsplit d a s := rfl
theorem exec_dstealCluster {s} {d} : exec (.dstealCluster d) s = execDstealCluster d s := rfl
theorem exec_dstealSite {s} {d} : exec (.dstealSite d) s = execDstealSite d s := rfl
theorem exec_dstealGrid {s} {d} : exec (.dstealGrid d) s = execDstealGrid d s := rfl
theorem exec_dcount {s} {d} : exec (.dcount d) s = execDcount d s := rfl
theorem exec_mpath {s} {d a b} : exec (.mpath d a b) s = execMpath d a b s := rfl
theorem exec_gjoin {s} {d a} : exec (.gjoin d a) s = execGjoin d a s := rfl
theorem exec_gleave {s} {d a} : exec (.gleave d a) s = execGleave d a s := rfl
theorem exec_binit {s} {d a b} : exec (.binit d a b) s = execBinit d a b s := rfl
theorem exec_barr {s} {a b} : exec (.barr a b) s = execBarr a b s := rfl
theorem exec_bwait {s} {d} : exec (.bwait d) s = execBwait d s := rfl
theorem exec_bstat {s} {d a} : exec (.bstat d a) s = execBstat d a s := rfl
theorem exec_plread {s} {d a b} : exec (.plread d a b) s = execPlread d a b s := rfl
theorem exec_plcfg {s} {d a b} : exec (.plcfg d a b) s = execPlcfg d a b s := rfl
theorem exec_gnode {s} {d a} : exec (.gnode d a) s = execGnode d a s := rfl
theorem exec_gdec {s} {d a} : exec (.gdec d a) s = execGdec d a s := rfl
theorem exec_vld {s} {d a m w} : exec (.vld d a m w) s = execVld d a m w s := rfl
theorem exec_vst {s} {d a m w} : exec (.vst d a m w) s = execVst d a m w s := rfl
theorem exec_vlds {s} {d a b m w} : exec (.vlds d a b m w) s = execVlds d a b m w s := rfl
theorem exec_vsts {s} {d a b m w} : exec (.vsts d a b m w) s = execVsts d a b m w s := rfl
theorem exec_vgath {s} {d a b m w} : exec (.vgath d a b m w) s = execVgath d a b m w s := rfl
theorem exec_vscat {s} {d a b m w} : exec (.vscat d a b m w) s = execVscat d a b m w s := rfl
theorem exec_vldbc {s} {d a m w} : exec (.vldbc d a m w) s = execVldbc d a m w s := rfl
theorem exec_vadd {s} {d a b m w} : exec (.vadd d a b m w) s = execVadd d a b m w s := rfl
theorem exec_vsub {s} {d a b m w} : exec (.vsub d a b m w) s = execVsub d a b m w s := rfl
theorem exec_vmul {s} {d a b m w} : exec (.vmul d a b m w) s = execVmul d a b m w s := rfl
theorem exec_vmulh {s} {d a b m w} : exec (.vmulh d a b m w) s = execVmulh d a b m w s := rfl
theorem exec_vshl {s} {d a b m w} : exec (.vshl d a b m w) s = execVshl d a b m w s := rfl
theorem exec_vshr {s} {d a b m w} : exec (.vshr d a b m w) s = execVshr d a b m w s := rfl
theorem exec_vsra {s} {d a b m w} : exec (.vsra d a b m w) s = execVsra d a b m w s := rfl
theorem exec_vand {s} {d a b m} : exec (.vand d a b m) s = execVand d a b m s := rfl
theorem exec_vor {s} {d a b m} : exec (.vor d a b m) s = execVor d a b m s := rfl
theorem exec_vxor {s} {d a b m} : exec (.vxor d a b m) s = execVxor d a b m s := rfl
theorem exec_vfadd {s} {d a b m t} : exec (.vfadd d a b m t) s = execVfadd d a b m t s := rfl
theorem exec_vfsub {s} {d a b m t} : exec (.vfsub d a b m t) s = execVfsub d a b m t s := rfl
theorem exec_vfmul {s} {d a b m t} : exec (.vfmul d a b m t) s = execVfmul d a b m t s := rfl
theorem exec_vfma {s} {d a b m t} : exec (.vfma d a b m t) s = execVfma d a b m t s := rfl
theorem exec_vfdiv {s} {d a b m t} : exec (.vfdiv d a b m t) s = execVfdiv d a b m t s := rfl
theorem exec_vfsqrt {s} {d a m t} : exec (.vfsqrt d a m t) s = execVfsqrt d a m t s := rfl
theorem exec_vfmin {s} {d a b m t} : exec (.vfmin d a b m t) s = execVfmin d a b m t s := rfl
theorem exec_vfmax {s} {d a b m t} : exec (.vfmax d a b m t) s = execVfmax d a b m t s := rfl
theorem exec_vcvt {s} {d a k s1 m x t} : exec (.vcvt d a k s1 m x t) s = execVcvt d a k s1 m x t s := rfl
theorem exec_vshuf {s} {d a b m w} : exec (.vshuf d a b m w) s = execVshuf d a b m w s := rfl
theorem exec_vbcast {s} {d a m w} : exec (.vbcast d a m w) s = execVbcast d a m w s := rfl
theorem exec_vextr {s} {d a b w} : exec (.vextr d a b w) s = execVextr d a b w s := rfl
theorem exec_vins {s} {d a b m w} : exec (.vins d a b m w) s = execVins d a b m w s := rfl
theorem exec_vslide {s} {d a b m w} : exec (.vslide d a b m w) s = execVslide d a b m w s := rfl
theorem exec_vred {s} {d a o t m} : exec (.vred d a o t m) s = execVred d a o t m s := rfl
theorem exec_vscan {s} {d a o t m} : exec (.vscan d a o t m) s = execVscan d a o t m s := rfl
theorem exec_mand {s} {d a b} : exec (.mand d a b) s = execMand d a b s := rfl
theorem exec_mor {s} {d a b} : exec (.mor d a b) s = execMor d a b s := rfl
theorem exec_mxor {s} {d a b} : exec (.mxor d a b) s = execMxor d a b s := rfl
theorem exec_mnot {s} {d a} : exec (.mnot d a) s = execMnot d a s := rfl
theorem exec_mpopc {s} {d a} : exec (.mpopc d a) s = execMpopc d a s := rfl
theorem exec_mfirst {s} {d a} : exec (.mfirst d a) s = execMfirst d a s := rfl
theorem exec_vcmp {s} {c d a b m t} : exec (.vcmp c d a b m t) s = execVcmp c d a b m t s := rfl
theorem exec_vsel {s} {d a b m w} : exec (.vsel d a b m w) s = execVsel d a b m w s := rfl
theorem exec_vmin {s} {d a b m w} : exec (.vmin d a b m w) s = execVmin d a b m w s := rfl
theorem exec_vmax {s} {d a b m w} : exec (.vmax d a b m w) s = execVmax d a b m w s := rfl
theorem exec_mdot {s} {d a b f r x y z} : exec (.mdot d a b f r x y z) s = execMdot d a b f r x y z s := rfl
theorem exec_mopen {s} {d g r} : exec (.mopen d g r) s = execMopen d g r s := rfl
theorem exec_mclose {s} {d} : exec (.mclose d) s = execMclose d s := rfl
theorem exec_mzero {s} {d} : exec (.mzero d) s = execMzero d s := rfl
theorem exec_muprog {s} {g} : exec (.muprog g) s = execMuprog g s := rfl
theorem exec_mrun {s} {d a b} : exec (.mrun d a b) s = execMrun d a b s := rfl
theorem exec_mrd {s} {d p g} : exec (.mrd d p g) s = execMrd d p g s := rfl
theorem exec_mwr {s} {d p g} : exec (.mwr d p g) s = execMwr d p g s := rfl
theorem exec_mld {s} {d c p} : exec (.mld d c p) s = execMld d c p s := rfl
theorem exec_mst {s} {d c p} : exec (.mst d c p) s = execMst d c p s := rfl
theorem exec_msumr {s} {d v r} : exec (.msumr d v r) s = execMsumr d v r s := rfl
theorem exec_msumc {s} {d v r} : exec (.msumc d v r) s = execMsumc d v r s := rfl
theorem exec_mmov {s} {d s1} : exec (.mmov d s1) s = execMmov d s1 s := rfl
theorem exec_csrr {s} {d c} : exec (.csrr d c) s = execCsrr d c s := rfl
theorem exec_csrw {s} {s1 c} : exec (.csrw s1 c) s = execCsrw s1 c s := rfl
theorem exec_sealroot {s} {d a b} : exec (.sealroot d a b) s = execSealroot d a b s := rfl
theorem exec_tlbinvPage {s} {d a b} : exec (.tlbinvPage d a b) s = execTlbinvPage d a b s := rfl
theorem exec_tlbinvAll {s} {d a b} : exec (.tlbinvAll d a b) s = execTlbinvAll d a b s := rfl
theorem exec_tlbinvStripe {s} {d a b} : exec (.tlbinvStripe d a b) s = execTlbinvStripe d a b s := rfl
theorem exec_rowmove {s} {d a b} : exec (.rowmove d a b) s = execRowmove d a b s := rfl
theorem exec_regrel {s} {d a} : exec (.regrel d a) s = execRegrel d a s := rfl
theorem exec_bankcfg {s} {d a b} : exec (.bankcfg d a b) s = execBankcfg d a b s := rfl
theorem exec_freeze {s} {d a b} : exec (.freeze d a b) s = execFreeze d a b s := rfl
theorem exec_thaw {s} {d a b} : exec (.thaw d a b) s = execThaw d a b s := rfl
theorem exec_preempt {s} {d a b} : exec (.preempt d a b) s = execPreempt d a b s := rfl
theorem exec_kill {s} {d a b} : exec (.kill d a b) s = execKill d a b s := rfl
theorem exec_errinj {s} {d a b} : exec (.errinj d a b) s = execErrinj d a b s := rfl
theorem exec_trap {s} {k} : exec (.trap k) s = execTrap k s := rfl
theorem exec_bkpt {s} : exec (.bkpt) s = execBkpt s := rfl
theorem exec_idle {s} : exec (.idle) s = execIdle s := rfl
theorem exec_srseedWrite {s} {v} : exec (.srseedWrite v) s = execSrseedWrite v s := rfl
theorem run_srseedWrite {s} {v} : runEvent (.srseedWrite v) s = exec (.srseedWrite v) s := rfl
theorem exec_fltdoneRetry {s} {handle} : exec (.fltdoneRetry handle) s = execFltdoneRetry handle s := rfl
theorem run_fltdoneRetry {s} {handle} : runEvent (.fltdoneRetry handle) s = exec (.fltdoneRetry handle) s := rfl
theorem exec_fltdoneFail {s} {handle} : exec (.fltdoneFail handle) s = execFltdoneFail handle s := rfl
theorem run_fltdoneFail {s} {handle} : runEvent (.fltdoneFail handle) s = exec (.fltdoneFail handle) s := rfl
theorem exec_mccntRead {s} {d} : exec (.mccntRead d) s = execMccntRead d s := rfl
theorem run_mccntRead {s} {d} : runEvent (.mccntRead d) s = exec (.mccntRead d) s := rfl
theorem exec_csrSpread {s} {core csr v} : exec (.csrSpread core csr v) s = execCsrSpread core csr v s := rfl
theorem run_csrSpread {s} {core csr v} : runEvent (.csrSpread core csr v) s = exec (.csrSpread core csr v) s := rfl
theorem exec_registerWrite {s} {mod port off v} : exec (.registerWrite mod port off v) s = execRegisterWrite mod port off v s := rfl
theorem run_registerWrite {s} {mod port off v} : runEvent (.registerWrite mod port off v) s = exec (.registerWrite mod port off v) s := rfl
theorem exec_messageAccept {s} {m} : exec (.messageAccept m) s = execMessageAccept m s := rfl
theorem run_messageAccept {s} {m} : runEvent (.messageAccept m) s = exec (.messageAccept m) s := rfl
theorem exec_refuse {s} {m nolist chain} : exec (.refuse m nolist chain) s = execRefuse m nolist chain s := rfl
theorem run_refuse {s} {m nolist chain} : runEvent (.refuse m nolist chain) s = exec (.refuse m nolist chain) s := rfl
theorem exec_roomNotice {s} {core target id} : exec (.roomNotice core target id) s = execRoomNotice core target id s := rfl
theorem run_roomNotice {s} {core target id} : runEvent (.roomNotice core target id) s = exec (.roomNotice core target id) s := rfl
theorem exec_roomReservationLapse {s} {core id} : exec (.roomReservationLapse core id) s = execRoomReservationLapse core id s := rfl
theorem run_roomReservationLapse {s} {core id} : runEvent (.roomReservationLapse core id) s = exec (.roomReservationLapse core id) s := rfl
theorem exec_timedRetry {s} {core id} : exec (.timedRetry core id) s = execTimedRetry core id s := rfl
theorem run_timedRetry {s} {core id} : runEvent (.timedRetry core id) s = exec (.timedRetry core id) s := rfl
theorem exec_chainAck {s} {core target} : exec (.chainAck core target) s = execChainAck core target s := rfl
theorem run_chainAck {s} {core target} : runEvent (.chainAck core target) s = exec (.chainAck core target) s := rfl
theorem exec_dispatch {s} {core} : exec (.dispatch core) s = execDispatch core s := rfl
theorem run_dispatch {s} {core} : runEvent (.dispatch core) s = exec (.dispatch core) s := rfl
theorem exec_promotion {s} {core id} : exec (.promotion core id) s = execPromotion core id s := rfl
theorem run_promotion {s} {core id} : runEvent (.promotion core id) s = exec (.promotion core id) s := rfl
theorem exec_replyDeposit {s} {r} : exec (.replyDeposit r) s = execReplyDeposit r s := rfl
theorem run_replyDeposit {s} {r} : runEvent (.replyDeposit r) s = exec (.replyDeposit r) s := rfl
theorem exec_budget {s} {core ctx} : exec (.budget core ctx) s = execBudget core ctx s := rfl
theorem run_budget {s} {core ctx} : runEvent (.budget core ctx) s = exec (.budget core ctx) s := rfl
theorem exec_parkResume {s} {core ctx} : exec (.parkResume core ctx) s = execParkResume core ctx s := rfl
theorem run_parkResume {s} {core ctx} : runEvent (.parkResume core ctx) s = exec (.parkResume core ctx) s := rfl
theorem exec_idleWake {s} {core ctx} : exec (.idleWake core ctx) s = execIdleWake core ctx s := rfl
theorem run_idleWake {s} {core ctx} : runEvent (.idleWake core ctx) s = exec (.idleWake core ctx) s := rfl
theorem exec_niTransmit {s} {core ctx} : exec (.niTransmit core ctx) s = execNiTransmit core ctx s := rfl
theorem run_niTransmit {s} {core ctx} : runEvent (.niTransmit core ctx) s = exec (.niTransmit core ctx) s := rfl
theorem exec_storeAck {s} {core ctx} : exec (.storeAck core ctx) s = execStoreAck core ctx s := rfl
theorem run_storeAck {s} {core ctx} : runEvent (.storeAck core ctx) s = exec (.storeAck core ctx) s := rfl
theorem exec_flushReturn {s} {core ctx mod} : exec (.flushReturn core ctx mod) s = execFlushReturn core ctx mod s := rfl
theorem run_flushReturn {s} {core ctx mod} : runEvent (.flushReturn core ctx mod) s = exec (.flushReturn core ctx mod) s := rfl
theorem exec_combineSend {s} {core idx} : exec (.combineSend core idx) s = execCombineSend core idx s := rfl
theorem run_combineSend {s} {core idx} : runEvent (.combineSend core idx) s = exec (.combineSend core idx) s := rfl
theorem exec_remoteCopyExpiry {s} {core line} : exec (.remoteCopyExpiry core line) s = execRemoteCopyExpiry core line s := rfl
theorem run_remoteCopyExpiry {s} {core line} : runEvent (.remoteCopyExpiry core line) s = exec (.remoteCopyExpiry core line) s := rfl
theorem exec_storePerform {s} {core ctx op} : exec (.storePerform core ctx op) s = execStorePerform core ctx op s := rfl
theorem run_storePerform {s} {core ctx op} : runEvent (.storePerform core ctx op) s = exec (.storePerform core ctx op) s := rfl
theorem exec_remoteRegionAccess {s} {core ctx op} : exec (.remoteRegionAccess core ctx op) s = execRemoteRegionAccess core ctx op s := rfl
theorem run_remoteRegionAccess {s} {core ctx op} : runEvent (.remoteRegionAccess core ctx op) s = exec (.remoteRegionAccess core ctx op) s := rfl
theorem exec_homeAmo {s} {req} : exec (.homeAmo req) s = execHomeAmo req s := rfl
theorem run_homeAmo {s} {req} : runEvent (.homeAmo req) s = exec (.homeAmo req) s := rfl
theorem exec_niAtomic {s} {owner req seq} : exec (.niAtomic owner req seq) s = execNiAtomic owner req seq s := rfl
theorem run_niAtomic {s} {owner req seq} : runEvent (.niAtomic owner req seq) s = exec (.niAtomic owner req seq) s := rfl
theorem exec_putIncrement {s} {core ctx op req} : exec (.putIncrement core ctx op req) s = execPutIncrement core ctx op req s := rfl
theorem run_putIncrement {s} {core ctx op req} : runEvent (.putIncrement core ctx op req) s = exec (.putIncrement core ctx op req) s := rfl
theorem exec_forwardDone {s} {hod highest} : exec (.forwardDone hod highest) s = execForwardDone hod highest s := rfl
theorem run_forwardDone {s} {hod highest} : runEvent (.forwardDone hod highest) s = exec (.forwardDone hod highest) s := rfl
theorem exec_txArbitration {s} {core ctx tile write} : exec (.txArbitration core ctx tile write) s = execTxArbitration core ctx tile write s := rfl
theorem run_txArbitration {s} {core ctx tile write} : runEvent (.txArbitration core ctx tile write) s = exec (.txArbitration core ctx tile write) s := rfl
theorem exec_abortNotice {s} {core ctx code} : exec (.abortNotice core ctx code) s = execAbortNotice core ctx code s := rfl
theorem run_abortNotice {s} {core ctx code} : runEvent (.abortNotice core ctx code) s = exec (.abortNotice core ctx code) s := rfl
theorem exec_txLock {s} {core ctx home} : exec (.txLock core ctx home) s = execTxLock core ctx home s := rfl
theorem run_txLock {s} {core ctx home} : runEvent (.txLock core ctx home) s = exec (.txLock core ctx home) s := rfl
theorem exec_txInstall {s} {core ctx} : exec (.txInstall core ctx) s = execTxInstall core ctx s := rfl
theorem run_txInstall {s} {core ctx} : runEvent (.txInstall core ctx) s = exec (.txInstall core ctx) s := rfl
theorem exec_versionedEviction {s} {core ctx tile} : exec (.versionedEviction core ctx tile) s = execVersionedEviction core ctx tile s := rfl
theorem run_versionedEviction {s} {core ctx tile} : runEvent (.versionedEviction core ctx tile) s = exec (.versionedEviction core ctx tile) s := rfl
theorem exec_ticketBeacon {s} {site} : exec (.ticketBeacon site) s = execTicketBeacon site s := rfl
theorem run_ticketBeacon {s} {site} : runEvent (.ticketBeacon site) s = exec (.ticketBeacon site) s := rfl
theorem exec_ticketAdvance {s} {site counter} : exec (.ticketAdvance site counter) s = execTicketAdvance site counter s := rfl
theorem run_ticketAdvance {s} {site counter} : runEvent (.ticketAdvance site counter) s = exec (.ticketAdvance site counter) s := rfl
theorem exec_rowRead {s} {hod tiles} : exec (.rowRead hod tiles) s = execRowRead hod tiles s := rfl
theorem run_rowRead {s} {hod tiles} : runEvent (.rowRead hod tiles) s = exec (.rowRead hod tiles) s := rfl
theorem exec_lrwEnqueue {s} {core ctx op} : exec (.lrwEnqueue core ctx op) s = execLrwEnqueue core ctx op s := rfl
theorem run_lrwEnqueue {s} {core ctx op} : runEvent (.lrwEnqueue core ctx op) s = exec (.lrwEnqueue core ctx op) s := rfl
theorem exec_scHome {s} {core ctx op} : exec (.scHome core ctx op) s = execScHome core ctx op s := rfl
theorem run_scHome {s} {core ctx op} : runEvent (.scHome core ctx op) s = exec (.scHome core ctx op) s := rfl
theorem exec_leaseExpiry {s} {addr} : exec (.leaseExpiry addr) s = execLeaseExpiry addr s := rfl
theorem run_leaseExpiry {s} {addr} : runEvent (.leaseExpiry addr) s = exec (.leaseExpiry addr) s := rfl
theorem exec_bankDrainDone {s} {bank} : exec (.bankDrainDone bank) s = execBankDrainDone bank s := rfl
theorem run_bankDrainDone {s} {bank} : runEvent (.bankDrainDone bank) s = exec (.bankDrainDone bank) s := rfl
theorem exec_bankZeroDone {s} {bank} : exec (.bankZeroDone bank) s = execBankZeroDone bank s := rfl
theorem run_bankZeroDone {s} {bank} : runEvent (.bankZeroDone bank) s = exec (.bankZeroDone bank) s := rfl
theorem exec_hodRequest {s} {req} : exec (.hodRequest req) s = execHodRequest req s := rfl
theorem run_hodRequest {s} {req} : runEvent (.hodRequest req) s = exec (.hodRequest req) s := rfl
theorem exec_hodCompletion {s} {req word} : exec (.hodCompletion req word) s = execHodCompletion req word s := rfl
theorem run_hodCompletion {s} {req word} : runEvent (.hodCompletion req word) s = exec (.hodCompletion req word) s := rfl
theorem exec_hgathOwner {s} {bag} : exec (.hgathOwner bag) s = execHgathOwner bag s := rfl
theorem run_hgathOwner {s} {bag} : runEvent (.hgathOwner bag) s = exec (.hgathOwner bag) s := rfl
theorem exec_hgathCombine {s} {bag} : exec (.hgathCombine bag) s = execHgathCombine bag s := rfl
theorem run_hgathCombine {s} {bag} : runEvent (.hgathCombine bag) s = exec (.hgathCombine bag) s := rfl
theorem exec_hscatOwner {s} {bag} : exec (.hscatOwner bag) s = execHscatOwner bag s := rfl
theorem run_hscatOwner {s} {bag} : runEvent (.hscatOwner bag) s = exec (.hscatOwner bag) s := rfl
theorem exec_stealRequest {s} {victim thief ctx rest} : exec (.stealRequest victim thief ctx rest) s = execStealRequest victim thief ctx rest s := rfl
theorem run_stealRequest {s} {victim thief ctx rest} : runEvent (.stealRequest victim thief ctx rest) s = exec (.stealRequest victim thief ctx rest) s := rfl
theorem exec_stealResponse {s} {thief ctx got rest} : exec (.stealResponse thief ctx got rest) s = execStealResponse thief ctx got rest s := rfl
theorem run_stealResponse {s} {thief ctx got rest} : runEvent (.stealResponse thief ctx got rest) s = exec (.stealResponse thief ctx got rest) s := rfl
theorem exec_mailboxPost {s} {p} : exec (.mailboxPost p) s = execMailboxPost p s := rfl
theorem run_mailboxPost {s} {p} : runEvent (.mailboxPost p) s = exec (.mailboxPost p) s := rfl
theorem exec_barrierArrival {s} {a} : exec (.barrierArrival a) s = execBarrierArrival a s := rfl
theorem run_barrierArrival {s} {a} : runEvent (.barrierArrival a) s = exec (.barrierArrival a) s := rfl
theorem exec_flagNotice {s} {core record} : exec (.flagNotice core record) s = execFlagNotice core record s := rfl
theorem run_flagNotice {s} {core record} : runEvent (.flagNotice core record) s = exec (.flagNotice core record) s := rfl
theorem exec_clearNotice {s} {core record} : exec (.clearNotice core record) s = execClearNotice core record s := rfl
theorem run_clearNotice {s} {core record} : runEvent (.clearNotice core record) s = exec (.clearNotice core record) s := rfl
theorem exec_nodeStart {s} {site} : exec (.nodeStart site) s = execNodeStart site s := rfl
theorem run_nodeStart {s} {site} : runEvent (.nodeStart site) s = exec (.nodeStart site) s := rfl
theorem exec_nodeComplete {s} {site handle} : exec (.nodeComplete site handle) s = execNodeComplete site handle s := rfl
theorem run_nodeComplete {s} {site handle} : runEvent (.nodeComplete site handle) s = exec (.nodeComplete site handle) s := rfl
theorem exec_waitPoll {s} {site handle} : exec (.waitPoll site handle) s = execWaitPoll site handle s := rfl
theorem run_waitPoll {s} {site handle} : runEvent (.waitPoll site handle) s = exec (.waitPoll site handle) s := rfl
theorem exec_gridComplete {s} {grid} : exec (.gridComplete grid) s = execGridComplete grid s := rfl
theorem run_gridComplete {s} {grid} : runEvent (.gridComplete grid) s = exec (.gridComplete grid) s := rfl
theorem exec_postGo {s} {mod port} : exec (.postGo mod port) s = execPostGo mod port s := rfl
theorem run_postGo {s} {mod port} : runEvent (.postGo mod port) s = exec (.postGo mod port) s := rfl
theorem exec_poststatRead {s} {mod port} : exec (.poststatRead mod port) s = execPoststatRead mod port s := rfl
theorem run_poststatRead {s} {mod port} : runEvent (.poststatRead mod port) s = exec (.poststatRead mod port) s := rfl
theorem exec_teamPlace {s} {part} : exec (.teamPlace part) s = execTeamPlace part s := rfl
theorem run_teamPlace {s} {part} : runEvent (.teamPlace part) s = exec (.teamPlace part) s := rfl
theorem exec_swapOut {s} {team} : exec (.swapOut team) s = execSwapOut team s := rfl
theorem run_swapOut {s} {team} : runEvent (.swapOut team) s = exec (.swapOut team) s := rfl
theorem exec_swapIn {s} {team} : exec (.swapIn team) s = execSwapIn team s := rfl
theorem run_swapIn {s} {team} : runEvent (.swapIn team) s = exec (.swapIn team) s := rfl
theorem exec_maildropAppend {s} {team m} : exec (.maildropAppend team m) s = execMaildropAppend team m s := rfl
theorem run_maildropAppend {s} {team m} : runEvent (.maildropAppend team m) s = exec (.maildropAppend team m) s := rfl
theorem exec_maildropClose {s} {team} : exec (.maildropClose team) s = execMaildropClose team s := rfl
theorem run_maildropClose {s} {team} : runEvent (.maildropClose team) s = exec (.maildropClose team) s := rfl
theorem exec_slicePreemption {s} {part} : exec (.slicePreemption part) s = execSlicePreemption part s := rfl
theorem run_slicePreemption {s} {part} : runEvent (.slicePreemption part) s = exec (.slicePreemption part) s := rfl
theorem exec_relocationRequest {s} {team} : exec (.relocationRequest team) s = execRelocationRequest team s := rfl
theorem run_relocationRequest {s} {team} : runEvent (.relocationRequest team) s = exec (.relocationRequest team) s := rfl
theorem exec_pageWalk {s} {agent va acc} : exec (.pageWalk agent va acc) s = execPageWalk agent va acc s := rfl
theorem run_pageWalk {s} {agent va acc} : runEvent (.pageWalk agent va acc) s = exec (.pageWalk agent va acc) s := rfl
theorem exec_firstTouch {s} {agent va acc} : exec (.firstTouch agent va acc) s = execFirstTouch agent va acc s := rfl
theorem run_firstTouch {s} {agent va acc} : runEvent (.firstTouch agent va acc) s = exec (.firstTouch agent va acc) s := rfl
theorem exec_tlbinvCompletion {s} {part id} : exec (.tlbinvCompletion part id) s = execTlbinvCompletion part id s := rfl
theorem run_tlbinvCompletion {s} {part id} : runEvent (.tlbinvCompletion part id) s = exec (.tlbinvCompletion part id) s := rfl
theorem exec_auditAppend {s} {core msgid teamid slot epoch word} : exec (.auditAppend core msgid teamid slot epoch word) s = execAuditAppend core msgid teamid slot epoch word s := rfl
theorem run_auditAppend {s} {core msgid teamid slot epoch word} : runEvent (.auditAppend core msgid teamid slot epoch word) s = exec (.auditAppend core msgid teamid slot epoch word) s := rfl
theorem exec_ageouts {s} {site flit} : exec (.ageouts site flit) s = execAgeouts site flit s := rfl
theorem run_ageouts {s} {site flit} : runEvent (.ageouts site flit) s = exec (.ageouts site flit) s := rfl
theorem exec_injectionStarvation {s} {site plane} : exec (.injectionStarvation site plane) s = execInjectionStarvation site plane s := rfl
theorem run_injectionStarvation {s} {site plane} : runEvent (.injectionStarvation site plane) s = exec (.injectionStarvation site plane) s := rfl
theorem exec_reassemblyDeliver {s} {site src seq} : exec (.reassemblyDeliver site src seq) s = execReassemblyDeliver site src seq s := rfl
theorem run_reassemblyDeliver {s} {site src seq} : runEvent (.reassemblyDeliver site src seq) s = exec (.reassemblyDeliver site src seq) s := rfl
theorem exec_linkReplay {s} {link} : exec (.linkReplay link) s = execLinkReplay link s := rfl
theorem run_linkReplay {s} {link} : runEvent (.linkReplay link) s = exec (.linkReplay link) s := rfl
theorem exec_linkDead {s} {link} : exec (.linkDead link) s = execLinkDead link s := rfl
theorem run_linkDead {s} {link} : runEvent (.linkDead link) s = exec (.linkDead link) s := rfl
theorem exec_reroute {s} {agent owner item} :
    exec (.reroute agent owner item) s = execReroute agent owner item s := rfl
theorem run_reroute {s} {agent owner item} : runEvent (.reroute agent owner item) s = exec (.reroute agent owner item) s := rfl
theorem exec_skip {s} {owner src seq} : exec (.skip owner src seq) s = execSkip owner src seq s := rfl
theorem run_skip {s} {owner src seq} : runEvent (.skip owner src seq) s = exec (.skip owner src seq) s := rfl
theorem exec_windowCloseTimer {s} {agent owner} : exec (.windowCloseTimer agent owner) s = execWindowCloseTimer agent owner s := rfl
theorem run_windowCloseTimer {s} {agent owner} : runEvent (.windowCloseTimer agent owner) s = exec (.windowCloseTimer agent owner) s := rfl
theorem exec_close {s} {owner src seq} : exec (.close owner src seq) s = execClose owner src seq s := rfl
theorem run_close {s} {owner src seq} : runEvent (.close owner src seq) s = exec (.close owner src seq) s := rfl
theorem exec_laneRetire {s} {link} : exec (.laneRetire link) s = execLaneRetire link s := rfl
theorem run_laneRetire {s} {link} : runEvent (.laneRetire link) s = exec (.laneRetire link) s := rfl
theorem exec_linkTrain {s} {link partner domain versions} : exec (.linkTrain link partner domain versions) s = execLinkTrain link partner domain versions s := rfl
theorem run_linkTrain {s} {link partner domain versions} : runEvent (.linkTrain link partner domain versions) s = exec (.linkTrain link partner domain versions) s := rfl
theorem exec_eccError {s} {u correctable} : exec (.eccError u correctable) s = execEccError u correctable s := rfl
theorem run_eccError {s} {u correctable} : runEvent (.eccError u correctable) s = exec (.eccError u correctable) s := rfl
theorem exec_scrub {s} {site found} : exec (.scrub site found) s = execScrub site found s := rfl
theorem run_scrub {s} {site found} : runEvent (.scrub site found) s = exec (.scrub site found) s := rfl
theorem exec_coreLoss {s} {core} : exec (.coreLoss core) s = execCoreLoss core s := rfl
theorem run_coreLoss {s} {core} : runEvent (.coreLoss core) s = exec (.coreLoss core) s := rfl
theorem exec_spareTakeover {s} {core} : exec (.spareTakeover core) s = execSpareTakeover core s := rfl
theorem run_spareTakeover {s} {core} : runEvent (.spareTakeover core) s = exec (.spareTakeover core) s := rfl
theorem exec_siteLoss {s} {site} : exec (.siteLoss site) s = execSiteLoss site s := rfl
theorem run_siteLoss {s} {site} : runEvent (.siteLoss site) s = exec (.siteLoss site) s := rfl
theorem exec_siteEvacuation {s} {site} : exec (.siteEvacuation site) s = execSiteEvacuation site s := rfl
theorem run_siteEvacuation {s} {site} : runEvent (.siteEvacuation site) s = exec (.siteEvacuation site) s := rfl
theorem exec_evacuationTimeout {s} {site} : exec (.evacuationTimeout site) s = execEvacuationTimeout site s := rfl
theorem run_evacuationTimeout {s} {site} : runEvent (.evacuationTimeout site) s = exec (.evacuationTimeout site) s := rfl
theorem exec_debugAttach {s} {part} : exec (.debugAttach part) s = execDebugAttach part s := rfl
theorem run_debugAttach {s} {part} : runEvent (.debugAttach part) s = exec (.debugAttach part) s := rfl
theorem exec_debugDetach {s} {part} : exec (.debugDetach part) s = execDebugDetach part s := rfl
theorem run_debugDetach {s} {part} : runEvent (.debugDetach part) s = exec (.debugDetach part) s := rfl
theorem exec_debugResume {s} {core ctx} : exec (.debugResume core ctx) s = execDebugResume core ctx s := rfl
theorem run_debugResume {s} {core ctx} : runEvent (.debugResume core ctx) s = exec (.debugResume core ctx) s := rfl
theorem exec_debugStep {s} {core ctx} : exec (.debugStep core ctx) s = execDebugStep core ctx s := rfl
theorem run_debugStep {s} {core ctx} : runEvent (.debugStep core ctx) s = exec (.debugStep core ctx) s := rfl
theorem exec_breakTask {s} {core ctx} : exec (.breakTask core ctx) s = execBreakTask core ctx s := rfl
theorem run_breakTask {s} {core ctx} : runEvent (.breakTask core ctx) s = exec (.breakTask core ctx) s := rfl
theorem exec_snpinv {s} {site half} : exec (.snpinv site half) s = execSnpinv site half s := rfl
theorem run_snpinv {s} {site half} : runEvent (.snpinv site half) s = exec (.snpinv site half) s := rfl
theorem exec_snpdata {s} {site half} : exec (.snpdata site half) s = execSnpdata site half s := rfl
theorem run_snpdata {s} {site half} : runEvent (.snpdata site half) s = exec (.snpdata site half) s := rfl
theorem exec_snpcur {s} {site half} : exec (.snpcur site half) s = execSnpcur site half s := rfl
theorem run_snpcur {s} {site half} : runEvent (.snpcur site half) s = exec (.snpcur site half) s := rfl
theorem exec_hostRead {s} {port hpa len} : exec (.hostRead port hpa len) s = execHostRead port hpa len s := rfl
theorem run_hostRead {s} {port hpa len} : runEvent (.hostRead port hpa len) s = exec (.hostRead port hpa len) s := rfl
theorem exec_hostWrite {s} {port hpa data} : exec (.hostWrite port hpa data) s = execHostWrite port hpa data s := rfl
theorem run_hostWrite {s} {port hpa data} : runEvent (.hostWrite port hpa data) s = exec (.hostWrite port hpa data) s := rfl
theorem exec_bisnpResponse {s} {site half dirty} : exec (.bisnpResponse site half dirty) s = execBisnpResponse site half dirty s := rfl
theorem run_bisnpResponse {s} {site half dirty} : runEvent (.bisnpResponse site half dirty) s = exec (.bisnpResponse site half dirty) s := rfl
theorem exec_checkpointFull {s} {mod} : exec (.checkpointFull mod) s = execCheckpointFull mod s := rfl
theorem run_checkpointFull {s} {mod} : runEvent (.checkpointFull mod) s = exec (.checkpointFull mod) s := rfl
theorem exec_checkpointIncr {s} {mod} : exec (.checkpointIncr mod) s = execCheckpointIncr mod s := rfl
theorem run_checkpointIncr {s} {mod} : runEvent (.checkpointIncr mod) s = exec (.checkpointIncr mod) s := rfl
theorem exec_restore {s} {mod} : exec (.restore mod) s = execRestore mod s := rfl
theorem run_restore {s} {mod} : runEvent (.restore mod) s = exec (.restore mod) s := rfl
theorem exec_checkpointTimeout {s} {mod} : exec (.checkpointTimeout mod) s = execCheckpointTimeout mod s := rfl
theorem run_checkpointTimeout {s} {mod} : runEvent (.checkpointTimeout mod) s = exec (.checkpointTimeout mod) s := rfl
theorem exec_checkpointComplete {s} {mod} : exec (.checkpointComplete mod) s = execCheckpointComplete mod s := rfl
theorem run_checkpointComplete {s} {mod} : runEvent (.checkpointComplete mod) s = exec (.checkpointComplete mod) s := rfl
theorem exec_powerOn {s} {mod} : exec (.powerOn mod) s = execPowerOn mod s := rfl
theorem run_powerOn {s} {mod} : runEvent (.powerOn mod) s = exec (.powerOn mod) s := rfl
theorem exec_moduleReset {s} {mod} : exec (.moduleReset mod) s = execModuleReset mod s := rfl
theorem run_moduleReset {s} {mod} : runEvent (.moduleReset mod) s = exec (.moduleReset mod) s := rfl
theorem exec_siteReset {s} {site} : exec (.siteReset site) s = execSiteReset site s := rfl
theorem run_siteReset {s} {site} : runEvent (.siteReset site) s = exec (.siteReset site) s := rfl
theorem exec_hodImageUpdate {s} {mod img} : exec (.hodImageUpdate mod img) s = execHodImageUpdate mod img s := rfl
theorem run_hodImageUpdate {s} {mod img} : runEvent (.hodImageUpdate mod img) s = exec (.hodImageUpdate mod img) s := rfl
theorem exec_provisioned {s} {mod fwkey attkey uds} : exec (.provisioned mod fwkey attkey uds) s = execProvisioned mod fwkey attkey uds s := rfl
theorem run_provisioned {s} {mod fwkey attkey uds} : runEvent (.provisioned mod fwkey attkey uds) s = exec (.provisioned mod fwkey attkey uds) s := rfl
theorem exec_deploymentToken {s} {mod t} : exec (.deploymentToken mod t) s = execDeploymentToken mod t s := rfl
theorem run_deploymentToken {s} {mod t} : runEvent (.deploymentToken mod t) s = exec (.deploymentToken mod t) s := rfl
theorem exec_unlockToken {s} {mod t} : exec (.unlockToken mod t) s = execUnlockToken mod t s := rfl
theorem run_unlockToken {s} {mod t} : runEvent (.unlockToken mod t) s = exec (.unlockToken mod t) s := rfl
theorem exec_relockToken {s} {mod t} : exec (.relockToken mod t) s = execRelockToken mod t s := rfl
theorem run_relockToken {s} {mod t} : runEvent (.relockToken mod t) s = exec (.relockToken mod t) s := rfl
theorem exec_returnToken {s} {mod t} : exec (.returnToken mod t) s = execReturnToken mod t s := rfl
theorem run_returnToken {s} {mod t} : runEvent (.returnToken mod t) s = exec (.returnToken mod t) s := rfl
theorem exec_retireToken {s} {mod t} : exec (.retireToken mod t) s = execRetireToken mod t s := rfl
theorem run_retireToken {s} {mod t} : runEvent (.retireToken mod t) s = exec (.retireToken mod t) s := rfl
theorem exec_session {s} {mod part t} : exec (.session mod part t) s = execSession mod part t s := rfl
theorem run_session {s} {mod part t} : runEvent (.session mod part t) s = exec (.session mod part t) s := rfl
theorem exec_attestationReport {s} {mod port nonce} : exec (.attestationReport mod port nonce) s = execAttestationReport mod port nonce s := rfl
theorem run_attestationReport {s} {mod port nonce} : runEvent (.attestationReport mod port nonce) s = exec (.attestationReport mod port nonce) s := rfl
theorem exec_getVersion {s} {mod port} : exec (.getVersion mod port) s = execGetVersion mod port s := rfl
theorem run_getVersion {s} {mod port} : runEvent (.getVersion mod port) s = exec (.getVersion mod port) s := rfl
theorem exec_getCapabilities {s} {mod port} : exec (.getCapabilities mod port) s = execGetCapabilities mod port s := rfl
theorem run_getCapabilities {s} {mod port} : runEvent (.getCapabilities mod port) s = exec (.getCapabilities mod port) s := rfl
theorem exec_negotiateAlgorithms {s} {mod port sha256 aes256gcm} : exec (.negotiateAlgorithms mod port sha256 aes256gcm) s = execNegotiateAlgorithms mod port sha256 aes256gcm s := rfl
theorem run_negotiateAlgorithms {s} {mod port sha256 aes256gcm} : runEvent (.negotiateAlgorithms mod port sha256 aes256gcm) s = exec (.negotiateAlgorithms mod port sha256 aes256gcm) s := rfl
theorem exec_pskExchange {s} {mod port session} : exec (.pskExchange mod port session) s = execPskExchange mod port session s := rfl
theorem run_pskExchange {s} {mod port session} : runEvent (.pskExchange mod port session) s = exec (.pskExchange mod port session) s := rfl
theorem exec_pskFinish {s} {mod port proof} : exec (.pskFinish mod port proof) s = execPskFinish mod port proof s := rfl
theorem run_pskFinish {s} {mod port proof} : runEvent (.pskFinish mod port proof) s = exec (.pskFinish mod port proof) s := rfl
theorem exec_heartbeat {s} {mod port} : exec (.heartbeat mod port) s = execHeartbeat mod port s := rfl
theorem run_heartbeat {s} {mod port} : runEvent (.heartbeat mod port) s = exec (.heartbeat mod port) s := rfl
theorem exec_endSession {s} {mod port} : exec (.endSession mod port) s = execEndSession mod port s := rfl
theorem run_endSession {s} {mod port} : runEvent (.endSession mod port) s = exec (.endSession mod port) s := rfl
theorem exec_vendorDefinedRequest {s} {mod port kind arg} : exec (.vendorDefinedRequest mod port kind arg) s = execVendorDefinedRequest mod port kind arg s := rfl
theorem run_vendorDefinedRequest {s} {mod port kind arg} : runEvent (.vendorDefinedRequest mod port kind arg) s = exec (.vendorDefinedRequest mod port kind arg) s := rfl
theorem exec_throttleRaise {s} {site} : exec (.throttleRaise site) s = execThrottleRaise site s := rfl
theorem run_throttleRaise {s} {site} : runEvent (.throttleRaise site) s = exec (.throttleRaise site) s := rfl
theorem exec_throttleLower {s} {site} : exec (.throttleLower site) s = execThrottleLower site s := rfl
theorem run_throttleLower {s} {site} : runEvent (.throttleLower site) s = exec (.throttleLower site) s := rfl
theorem exec_thermalShutdown {s} {site} : exec (.thermalShutdown site) s = execThermalShutdown site s := rfl
theorem run_thermalShutdown {s} {site} : runEvent (.thermalShutdown site) s = exec (.thermalShutdown site) s := rfl
theorem exec_sensorUpdate {s} {site r} : exec (.sensorUpdate site r) s = execSensorUpdate site r s := rfl
theorem run_sensorUpdate {s} {site r} : runEvent (.sensorUpdate site r) s = exec (.sensorUpdate site r) s := rfl
theorem exec_capsetWrite {s} {site v} : exec (.capsetWrite site v) s = execCapsetWrite site v s := rfl
theorem run_capsetWrite {s} {site v} : runEvent (.capsetWrite site v) s = exec (.capsetWrite site v) s := rfl
theorem exec_powerLoss {s} {mod} : exec (.powerLoss mod) s = execPowerLoss mod s := rfl
theorem run_powerLoss {s} {mod} : runEvent (.powerLoss mod) s = exec (.powerLoss mod) s := rfl
theorem exec_portLost {s} {mod port} : exec (.portLost mod port) s = execPortLost mod port s := rfl
theorem run_portLost {s} {mod port} : runEvent (.portLost mod port) s = exec (.portLost mod port) s := rfl
theorem exec_portLinkUp {s} {port width rate cxlMajor cxlMinor features} :
    exec (.portLinkUp port width rate cxlMajor cxlMinor features) s = execPortLinkUp port width rate cxlMajor cxlMinor features s := rfl
theorem run_portLinkUp {s} {port width rate cxlMajor cxlMinor features} : runEvent (.portLinkUp port width rate cxlMajor cxlMinor features) s = exec (.portLinkUp port width rate cxlMajor cxlMinor features) s := rfl
theorem exec_porderRouterCycle {s} {site} : exec (.porderRouterCycle site) s = execPorderRouterCycle site s := rfl
theorem run_porderRouterCycle {s} {site} : runEvent (.porderRouterCycle site) s = exec (.porderRouterCycle site) s := rfl
theorem exec_hostCacheGrant {s} {site half state data} : exec (.hostCacheGrant site half state data) s = execHostCacheGrant site half state data s := rfl
theorem run_hostCacheGrant {s} {site half state data} : runEvent (.hostCacheGrant site half state data) s = exec (.hostCacheGrant site half state data) s := rfl
theorem exec_cxlIdeKeyManagement {s} {mod port key} : exec (.cxlIdeKeyManagement mod port key) s = execCxlIdeKeyManagement mod port key s := rfl
theorem run_cxlIdeKeyManagement {s} {mod port key} : runEvent (.cxlIdeKeyManagement mod port key) s = exec (.cxlIdeKeyManagement mod port key) s := rfl
theorem exec_siteRejoin {s} {site part} : exec (.siteRejoin site part) s = execSiteRejoin site part s := rfl
theorem run_siteRejoin {s} {site part} : runEvent (.siteRejoin site part) s = exec (.siteRejoin site part) s := rfl
theorem exec_regrelComplete {s} {core ctx region} : exec (.regrelComplete core ctx region) s = execRegrelComplete core ctx region s := rfl
theorem run_regrelComplete {s} {core ctx region} : runEvent (.regrelComplete core ctx region) s = exec (.regrelComplete core ctx region) s := rfl
theorem exec_lineFill {s} {core ctx op} : exec (.lineFill core ctx op) s = execLineFill core ctx op s := rfl
theorem run_lineFill {s} {core ctx op} : runEvent (.lineFill core ctx op) s = exec (.lineFill core ctx op) s := rfl

end Sys2Proof.Machine
end

