-- ==== Sys2Proof/Laws/Encoding.lean ====
section
/-!
SUPPORT. Fields of a word that a format's fields make up (R167): each is the field that was put in.
-/
namespace Sys2Proof

@[simp] theorem majorOf_packA (op : BitVec 6) (rd : BitVec 6) (ra : BitVec 6) (rb : BitVec 6) (fn : BitVec 8) :
    majorOf (packA op rd ra rb fn) = op := by
  unfold majorOf packA; grind

@[simp] theorem rdA_packA (op : BitVec 6) (rd : BitVec 6) (ra : BitVec 6) (rb : BitVec 6) (fn : BitVec 8) :
    rdA (packA op rd ra rb fn) = rd := by
  unfold rdA packA; grind

@[simp] theorem raA_packA (op : BitVec 6) (rd : BitVec 6) (ra : BitVec 6) (rb : BitVec 6) (fn : BitVec 8) :
    raA (packA op rd ra rb fn) = ra := by
  unfold raA packA; grind

@[simp] theorem rbA_packA (op : BitVec 6) (rd : BitVec 6) (ra : BitVec 6) (rb : BitVec 6) (fn : BitVec 8) :
    rbA (packA op rd ra rb fn) = rb := by
  unfold rbA packA; grind

@[simp] theorem fnA_packA (op : BitVec 6) (rd : BitVec 6) (ra : BitVec 6) (rb : BitVec 6) (fn : BitVec 8) :
    fnA (packA op rd ra rb fn) = fn := by
  unfold fnA packA; grind

@[simp] theorem majorOf_packI (op : BitVec 6) (rd : BitVec 6) (ra : BitVec 6) (imm : BitVec 14) :
    majorOf (packI op rd ra imm) = op := by
  unfold majorOf packI; grind

@[simp] theorem rdI_packI (op : BitVec 6) (rd : BitVec 6) (ra : BitVec 6) (imm : BitVec 14) :
    rdI (packI op rd ra imm) = rd := by
  unfold rdI packI; grind

@[simp] theorem raI_packI (op : BitVec 6) (rd : BitVec 6) (ra : BitVec 6) (imm : BitVec 14) :
    raI (packI op rd ra imm) = ra := by
  unfold raI packI; grind

@[simp] theorem immI_packI (op : BitVec 6) (rd : BitVec 6) (ra : BitVec 6) (imm : BitVec 14) :
    immI (packI op rd ra imm) = imm := by
  unfold immI packI; grind

@[simp] theorem majorOf_packM (op : BitVec 6) (rt : BitVec 6) (rb : BitVec 6) (disp : BitVec 10) (q : BitVec 4) :
    majorOf (packM op rt rb disp q) = op := by
  unfold majorOf packM; grind

@[simp] theorem rtM_packM (op : BitVec 6) (rt : BitVec 6) (rb : BitVec 6) (disp : BitVec 10) (q : BitVec 4) :
    rtM (packM op rt rb disp q) = rt := by
  unfold rtM packM; grind

@[simp] theorem rbM_packM (op : BitVec 6) (rt : BitVec 6) (rb : BitVec 6) (disp : BitVec 10) (q : BitVec 4) :
    rbM (packM op rt rb disp q) = rb := by
  unfold rbM packM; grind

@[simp] theorem dispM_packM (op : BitVec 6) (rt : BitVec 6) (rb : BitVec 6) (disp : BitVec 10) (q : BitVec 4) :
    dispM (packM op rt rb disp q) = disp := by
  unfold dispM packM; grind

@[simp] theorem qM_packM (op : BitVec 6) (rt : BitVec 6) (rb : BitVec 6) (disp : BitVec 10) (q : BitVec 4) :
    qM (packM op rt rb disp q) = q := by
  unfold qM packM; grind

@[simp] theorem majorOf_packB (op : BitVec 6) (ra : BitVec 6) (rb : BitVec 6) (disp : BitVec 14) :
    majorOf (packB op ra rb disp) = op := by
  unfold majorOf packB; grind

@[simp] theorem raB_packB (op : BitVec 6) (ra : BitVec 6) (rb : BitVec 6) (disp : BitVec 14) :
    raB (packB op ra rb disp) = ra := by
  unfold raB packB; grind

@[simp] theorem rbB_packB (op : BitVec 6) (ra : BitVec 6) (rb : BitVec 6) (disp : BitVec 14) :
    rbB (packB op ra rb disp) = rb := by
  unfold rbB packB; grind

@[simp] theorem dispB_packB (op : BitVec 6) (ra : BitVec 6) (rb : BitVec 6) (disp : BitVec 14) :
    dispB (packB op ra rb disp) = disp := by
  unfold dispB packB; grind

@[simp] theorem majorOf_packJ (op : BitVec 6) (rd : BitVec 6) (disp : BitVec 20) :
    majorOf (packJ op rd disp) = op := by
  unfold majorOf packJ; grind

@[simp] theorem rdJ_packJ (op : BitVec 6) (rd : BitVec 6) (disp : BitVec 20) :
    rdJ (packJ op rd disp) = rd := by
  unfold rdJ packJ; grind

@[simp] theorem dispJ_packJ (op : BitVec 6) (rd : BitVec 6) (disp : BitVec 20) :
    dispJ (packJ op rd disp) = disp := by
  unfold dispJ packJ; grind

@[simp] theorem majorOf_packV (op : BitVec 6) (vd : BitVec 6) (va : BitVec 6) (vb : BitVec 6) (mk : BitVec 3) (fn : BitVec 5) :
    majorOf (packV op vd va vb mk fn) = op := by
  unfold majorOf packV; grind

@[simp] theorem vdV_packV (op : BitVec 6) (vd : BitVec 6) (va : BitVec 6) (vb : BitVec 6) (mk : BitVec 3) (fn : BitVec 5) :
    vdV (packV op vd va vb mk fn) = vd := by
  unfold vdV packV; grind

@[simp] theorem vaV_packV (op : BitVec 6) (vd : BitVec 6) (va : BitVec 6) (vb : BitVec 6) (mk : BitVec 3) (fn : BitVec 5) :
    vaV (packV op vd va vb mk fn) = va := by
  unfold vaV packV; grind

@[simp] theorem vbV_packV (op : BitVec 6) (vd : BitVec 6) (va : BitVec 6) (vb : BitVec 6) (mk : BitVec 3) (fn : BitVec 5) :
    vbV (packV op vd va vb mk fn) = vb := by
  unfold vbV packV; grind

@[simp] theorem mkV_packV (op : BitVec 6) (vd : BitVec 6) (va : BitVec 6) (vb : BitVec 6) (mk : BitVec 3) (fn : BitVec 5) :
    mkV (packV op vd va vb mk fn) = mk := by
  unfold mkV packV; grind

@[simp] theorem fnV_packV (op : BitVec 6) (vd : BitVec 6) (va : BitVec 6) (vb : BitVec 6) (mk : BitVec 3) (fn : BitVec 5) :
    fnV (packV op vd va vb mk fn) = fn := by
  unfold fnV packV; grind

@[simp] theorem majorOf_packX (op : BitVec 6) (ad : BitVec 3) (opA : BitVec 6) (opB : BitVec 6) (fmt : BitVec 4) (fl : BitVec 7) :
    majorOf (packX op ad opA opB fmt fl) = op := by
  unfold majorOf packX; grind

@[simp] theorem adX_packX (op : BitVec 6) (ad : BitVec 3) (opA : BitVec 6) (opB : BitVec 6) (fmt : BitVec 4) (fl : BitVec 7) :
    adX (packX op ad opA opB fmt fl) = ad := by
  unfold adX packX; grind

@[simp] theorem opAX_packX (op : BitVec 6) (ad : BitVec 3) (opA : BitVec 6) (opB : BitVec 6) (fmt : BitVec 4) (fl : BitVec 7) :
    opAX (packX op ad opA opB fmt fl) = opA := by
  unfold opAX packX; grind

@[simp] theorem opBX_packX (op : BitVec 6) (ad : BitVec 3) (opA : BitVec 6) (opB : BitVec 6) (fmt : BitVec 4) (fl : BitVec 7) :
    opBX (packX op ad opA opB fmt fl) = opB := by
  unfold opBX packX; grind

@[simp] theorem fmtX_packX (op : BitVec 6) (ad : BitVec 3) (opA : BitVec 6) (opB : BitVec 6) (fmt : BitVec 4) (fl : BitVec 7) :
    fmtX (packX op ad opA opB fmt fl) = fmt := by
  unfold fmtX packX; grind

@[simp] theorem flX_packX (op : BitVec 6) (ad : BitVec 3) (opA : BitVec 6) (opB : BitVec 6) (fmt : BitVec 4) (fl : BitVec 7) :
    flX (packX op ad opA opB fmt fl) = fl := by
  unfold flX packX; grind

@[simp] theorem majorOf_packP (op : BitVec 6) (rc : BitVec 6) (len : BitVec 4) (sd : BitVec 4) (sa : BitVec 4) (sb : BitVec 4) (fl : BitVec 4) :
    majorOf (packP op rc len sd sa sb fl) = op := by
  unfold majorOf packP; grind

@[simp] theorem rcP_packP (op : BitVec 6) (rc : BitVec 6) (len : BitVec 4) (sd : BitVec 4) (sa : BitVec 4) (sb : BitVec 4) (fl : BitVec 4) :
    rcP (packP op rc len sd sa sb fl) = rc := by
  unfold rcP packP; grind

@[simp] theorem lenP_packP (op : BitVec 6) (rc : BitVec 6) (len : BitVec 4) (sd : BitVec 4) (sa : BitVec 4) (sb : BitVec 4) (fl : BitVec 4) :
    lenP (packP op rc len sd sa sb fl) = len := by
  unfold lenP packP; grind

@[simp] theorem sdP_packP (op : BitVec 6) (rc : BitVec 6) (len : BitVec 4) (sd : BitVec 4) (sa : BitVec 4) (sb : BitVec 4) (fl : BitVec 4) :
    sdP (packP op rc len sd sa sb fl) = sd := by
  unfold sdP packP; grind

@[simp] theorem saP_packP (op : BitVec 6) (rc : BitVec 6) (len : BitVec 4) (sd : BitVec 4) (sa : BitVec 4) (sb : BitVec 4) (fl : BitVec 4) :
    saP (packP op rc len sd sa sb fl) = sa := by
  unfold saP packP; grind

@[simp] theorem sbP_packP (op : BitVec 6) (rc : BitVec 6) (len : BitVec 4) (sd : BitVec 4) (sa : BitVec 4) (sb : BitVec 4) (fl : BitVec 4) :
    sbP (packP op rc len sd sa sb fl) = sb := by
  unfold sbP packP; grind

@[simp] theorem flP_packP (op : BitVec 6) (rc : BitVec 6) (len : BitVec 4) (sd : BitVec 4) (sa : BitVec 4) (sb : BitVec 4) (fl : BitVec 4) :
    flP (packP op rc len sd sa sb fl) = fl := by
  unfold flP packP; grind

/-! Fields within a field. -/

theorem extract_in_low {m n : Nat} (x : BitVec m) (y : BitVec n) (s k : Nat) (h : s + k ≤ n) :
    (x ++ y).extractLsb' s k = y.extractLsb' s k := by
  ext i; grind

theorem extract_in_high {m n : Nat} (x : BitVec m) (y : BitVec n) (s k : Nat) (h : n ≤ s) :
    (x ++ y).extractLsb' s k = x.extractLsb' (s - n) k := by
  ext i; grind

@[simp] theorem join12 (k : BitVec 12) : (k.extractLsb' 6 6 ++ k.extractLsb' 0 6 : BitVec 12) = k := by
  ext i; grind

@[simp] theorem join8 (k : BitVec 8) : (k.extractLsb' 6 2 ++ k.extractLsb' 0 6 : BitVec 8) = k := by
  ext i; grind

theorem append_eq {m n : Nat} (x : BitVec m) (y : BitVec n) (z : BitVec (m + n)) :
    x ++ y = z ↔ x = z.extractLsb' n m ∧ y = z.extractLsb' 0 n := by
  constructor
  · rintro rfl
    constructor
    · rw [extract_in_high _ _ _ _ (Nat.le_refl n)]; simp
    · rw [extract_in_low _ _ _ _ (by omega)]; simp
  · rintro ⟨rfl, rfl⟩
    ext i; grind

/-! The same at the widths the encoder writes. -/

@[simp] theorem low_8_6 (x : BitVec 8) (y : BitVec 6) : (x ++ y : BitVec 14).extractLsb' 0 6 = y := by
  ext i; grind

@[simp] theorem high_8_6 (x : BitVec 8) (y : BitVec 6) : (x ++ y : BitVec 14).extractLsb' 6 8 = x := by
  ext i; grind

@[simp] theorem low_1_13 (x : BitVec 1) (y : BitVec 13) : (x ++ y : BitVec 14).extractLsb' 0 13 = y := by
  ext i; grind

@[simp] theorem high_1_13 (x : BitVec 1) (y : BitVec 13) : (x ++ y : BitVec 14).extractLsb' 13 1 = x := by
  ext i; grind

@[simp] theorem low_1_19 (x : BitVec 1) (y : BitVec 19) : (x ++ y : BitVec 20).extractLsb' 0 19 = y := by
  ext i; grind

@[simp] theorem high_1_19 (x : BitVec 1) (y : BitVec 19) : (x ++ y : BitVec 20).extractLsb' 19 1 = x := by
  ext i; grind

@[simp] theorem low_3_7 (x : BitVec 3) (y : BitVec 7) : (x ++ y : BitVec 10).extractLsb' 0 7 = y := by
  ext i; grind

@[simp] theorem high_3_7 (x : BitVec 3) (y : BitVec 7) : (x ++ y : BitVec 10).extractLsb' 7 3 = x := by
  ext i; grind

@[simp] theorem low_4_4 (x : BitVec 4) (y : BitVec 4) : (x ++ y : BitVec 8).extractLsb' 0 4 = y := by
  ext i; grind

@[simp] theorem high_4_4 (x : BitVec 4) (y : BitVec 4) : (x ++ y : BitVec 8).extractLsb' 4 4 = x := by
  ext i; grind

@[simp] theorem low_7_1 (x : BitVec 7) (y : BitVec 1) : (x ++ y : BitVec 8).extractLsb' 0 1 = y := by
  ext i; grind

@[simp] theorem high_7_1 (x : BitVec 7) (y : BitVec 1) : (x ++ y : BitVec 8).extractLsb' 1 7 = x := by
  ext i; grind

@[simp] theorem low_5_3 (x : BitVec 5) (y : BitVec 3) : (x ++ y : BitVec 8).extractLsb' 0 3 = y := by
  ext i; grind

@[simp] theorem high_5_3 (x : BitVec 5) (y : BitVec 3) : (x ++ y : BitVec 8).extractLsb' 3 5 = x := by
  ext i; grind

@[simp] theorem low_4_2 (x : BitVec 4) (y : BitVec 2) : (x ++ y : BitVec 6).extractLsb' 0 2 = y := by
  ext i; grind

@[simp] theorem high_4_2 (x : BitVec 4) (y : BitVec 2) : (x ++ y : BitVec 6).extractLsb' 2 4 = x := by
  ext i; grind

@[simp] theorem low_3_2 (x : BitVec 3) (y : BitVec 2) : (x ++ y : BitVec 5).extractLsb' 0 2 = y := by
  ext i; grind

@[simp] theorem high_3_2 (x : BitVec 3) (y : BitVec 2) : (x ++ y : BitVec 5).extractLsb' 2 3 = x := by
  ext i; grind

@[simp] theorem low_2_3 (x : BitVec 2) (y : BitVec 3) : (x ++ y : BitVec 5).extractLsb' 0 3 = y := by
  ext i; grind

@[simp] theorem high_2_3 (x : BitVec 2) (y : BitVec 3) : (x ++ y : BitVec 5).extractLsb' 3 2 = x := by
  ext i; grind

@[simp] theorem low_1_4 (x : BitVec 1) (y : BitVec 4) : (x ++ y : BitVec 5).extractLsb' 0 4 = y := by
  ext i; grind

@[simp] theorem high_1_4 (x : BitVec 1) (y : BitVec 4) : (x ++ y : BitVec 5).extractLsb' 4 1 = x := by
  ext i; grind

@[simp] theorem low_2_4 (x : BitVec 2) (y : BitVec 4) : (x ++ y : BitVec 6).extractLsb' 0 4 = y := by
  ext i; grind

@[simp] theorem high_2_4 (x : BitVec 2) (y : BitVec 4) : (x ++ y : BitVec 6).extractLsb' 4 2 = x := by
  ext i; grind

@[simp] theorem low_3_3 (x : BitVec 3) (y : BitVec 3) : (x ++ y : BitVec 6).extractLsb' 0 3 = y := by
  ext i; grind

@[simp] theorem high_3_3 (x : BitVec 3) (y : BitVec 3) : (x ++ y : BitVec 6).extractLsb' 3 3 = x := by
  ext i; grind

@[simp] theorem low_3_4 (x : BitVec 3) (y : BitVec 4) : (x ++ y : BitVec 7).extractLsb' 0 4 = y := by
  ext i; grind

@[simp] theorem high_3_4 (x : BitVec 3) (y : BitVec 4) : (x ++ y : BitVec 7).extractLsb' 4 3 = x := by
  ext i; grind

@[simp] theorem low_1_5 (x : BitVec 1) (y : BitVec 5) : (x ++ y : BitVec 6).extractLsb' 0 5 = y := by
  ext i; grind

@[simp] theorem high_1_5 (x : BitVec 1) (y : BitVec 5) : (x ++ y : BitVec 6).extractLsb' 5 1 = x := by
  ext i; grind

@[simp] theorem part_q_3 (a : BitVec 1) (b : BitVec 2) (c : BitVec 1) :
    (a ++ b ++ c : BitVec 4).extractLsb' 3 1 = a := by
  ext i; grind

@[simp] theorem part_q_1 (a : BitVec 1) (b : BitVec 2) (c : BitVec 1) :
    (a ++ b ++ c : BitVec 4).extractLsb' 1 2 = b := by
  ext i; grind

@[simp] theorem part_q_0 (a : BitVec 1) (b : BitVec 2) (c : BitVec 1) :
    (a ++ b ++ c : BitVec 4).extractLsb' 0 1 = c := by
  ext i; grind

@[simp] theorem part_fl_4 (a : BitVec 3) (b c d e : BitVec 1) :
    (a ++ b ++ c ++ d ++ e : BitVec 7).extractLsb' 4 3 = a := by
  ext i; grind

@[simp] theorem part_fl_3 (a : BitVec 3) (b c d e : BitVec 1) :
    (a ++ b ++ c ++ d ++ e : BitVec 7).extractLsb' 3 1 = b := by
  ext i; grind

@[simp] theorem part_fl_2 (a : BitVec 3) (b c d e : BitVec 1) :
    (a ++ b ++ c ++ d ++ e : BitVec 7).extractLsb' 2 1 = c := by
  ext i; grind

@[simp] theorem part_fl_1 (a : BitVec 3) (b c d e : BitVec 1) :
    (a ++ b ++ c ++ d ++ e : BitVec 7).extractLsb' 1 1 = d := by
  ext i; grind

@[simp] theorem part_fl_0 (a : BitVec 3) (b c d e : BitVec 1) :
    (a ++ b ++ c ++ d ++ e : BitVec 7).extractLsb' 0 1 = e := by
  ext i; grind

@[simp] theorem top_3_2 (x : BitVec 3) (y : BitVec 2) : (x ++ y : BitVec 5).extractLsb' 3 2 = x.extractLsb' 1 2 := by
  ext i; grind

theorem fn_ne_7_1 (x : BitVec 7) (y : BitVec 1) (z : BitVec 8) (h : x ≠ z.extractLsb' 1 7) : (x ++ y : BitVec 8) ≠ z :=
  fun e => h ((append_eq x y z).mp e).1

theorem fn_ne_2_3 (x : BitVec 2) (y : BitVec 3) (z : BitVec 5) (h : x ≠ z.extractLsb' 3 2) : (x ++ y : BitVec 5) ≠ z :=
  fun e => h ((append_eq x y z).mp e).1

theorem fn_ne_3_2 (x : BitVec 3) (y : BitVec 2) (z : BitVec 5) (h : x ≠ z.extractLsb' 2 3) : (x ++ y : BitVec 5) ≠ z :=
  fun e => h ((append_eq x y z).mp e).1

/-! The major opcode chooses the table (R169). -/

theorem decodeFields_01 (w : BitVec 32) (h : majorOf w = 0x1#6) :
    decodeFields w = decode01 (rdA w) (raA w) (rbA w) (fnA w) := by
  unfold decodeFields; rw [h]; rfl

theorem decodeFields_02 (w : BitVec 32) (h : majorOf w = 0x2#6) :
    decodeFields w = decode02 (rdI w) (raI w) (immI w) := by
  unfold decodeFields; rw [h]; rfl

theorem decodeFields_03 (w : BitVec 32) (h : majorOf w = 0x3#6) :
    decodeFields w = decode03 (rdI w) (raI w) (immI w) := by
  unfold decodeFields; rw [h]; rfl

theorem decodeFields_04 (w : BitVec 32) (h : majorOf w = 0x4#6) :
    decodeFields w = decode04 (rdI w) (raI w) (immI w) := by
  unfold decodeFields; rw [h]; rfl

theorem decodeFields_05 (w : BitVec 32) (h : majorOf w = 0x5#6) :
    decodeFields w = decode05 (rdI w) (raI w) (immI w) := by
  unfold decodeFields; rw [h]; rfl

theorem decodeFields_06 (w : BitVec 32) (h : majorOf w = 0x6#6) :
    decodeFields w = decode06 (rdI w) (raI w) (immI w) := by
  unfold decodeFields; rw [h]; rfl

theorem decodeFields_07 (w : BitVec 32) (h : majorOf w = 0x7#6) :
    decodeFields w = decode07 (rdI w) (raI w) (immI w) := by
  unfold decodeFields; rw [h]; rfl

theorem decodeFields_08 (w : BitVec 32) (h : majorOf w = 0x8#6) :
    decodeFields w = decode08 (rdA w) (raA w) (rbA w) (fnA w) := by
  unfold decodeFields; rw [h]; rfl

theorem decodeFields_09 (w : BitVec 32) (h : majorOf w = 0x9#6) :
    decodeFields w = decode09 (rdA w) (raA w) (rbA w) (fnA w) := by
  unfold decodeFields; rw [h]; rfl

theorem decodeFields_0A (w : BitVec 32) (h : majorOf w = 0xa#6) :
    decodeFields w = decode0A (rdI w) (raI w) (immI w) := by
  unfold decodeFields; rw [h]; rfl

theorem decodeFields_0B (w : BitVec 32) (h : majorOf w = 0xb#6) :
    decodeFields w = decode0B (rdA w) (raA w) (rbA w) (fnA w) := by
  unfold decodeFields; rw [h]; rfl

theorem decodeFields_0C (w : BitVec 32) (h : majorOf w = 0xc#6) :
    decodeFields w = decode0C (rdJ w) (dispJ w) := by
  unfold decodeFields; rw [h]; rfl

theorem decodeFields_0D (w : BitVec 32) (h : majorOf w = 0xd#6) :
    decodeFields w = decode0D (rdJ w) (dispJ w) := by
  unfold decodeFields; rw [h]; rfl

theorem decodeFields_0E (w : BitVec 32) (h : majorOf w = 0xe#6) :
    decodeFields w = decode0E (rdI w) (raI w) (immI w) := by
  unfold decodeFields; rw [h]; rfl

theorem decodeFields_10 (w : BitVec 32) (h : majorOf w = 0x10#6) :
    decodeFields w = decode10 (raB w) (rbB w) (dispB w) := by
  unfold decodeFields; rw [h]; rfl

theorem decodeFields_11 (w : BitVec 32) (h : majorOf w = 0x11#6) :
    decodeFields w = decode11 (raB w) (rbB w) (dispB w) := by
  unfold decodeFields; rw [h]; rfl

theorem decodeFields_12 (w : BitVec 32) (h : majorOf w = 0x12#6) :
    decodeFields w = decode12 (raB w) (rbB w) (dispB w) := by
  unfold decodeFields; rw [h]; rfl

theorem decodeFields_13 (w : BitVec 32) (h : majorOf w = 0x13#6) :
    decodeFields w = decode13 (raB w) (rbB w) (dispB w) := by
  unfold decodeFields; rw [h]; rfl

theorem decodeFields_14 (w : BitVec 32) (h : majorOf w = 0x14#6) :
    decodeFields w = decode14 (raB w) (rbB w) (dispB w) := by
  unfold decodeFields; rw [h]; rfl

theorem decodeFields_15 (w : BitVec 32) (h : majorOf w = 0x15#6) :
    decodeFields w = decode15 (raB w) (rbB w) (dispB w) := by
  unfold decodeFields; rw [h]; rfl

theorem decodeFields_16 (w : BitVec 32) (h : majorOf w = 0x16#6) :
    decodeFields w = decode16 (rcP w) (lenP w) (sdP w) (saP w) (sbP w) (flP w) := by
  unfold decodeFields; rw [h]; rfl

theorem decodeFields_17 (w : BitVec 32) (h : majorOf w = 0x17#6) :
    decodeFields w = decode17 (rdA w) (raA w) (rbA w) (fnA w) := by
  unfold decodeFields; rw [h]; rfl

theorem decodeFields_18 (w : BitVec 32) (h : majorOf w = 0x18#6) :
    decodeFields w = decode18 (rtM w) (rbM w) (dispM w) (qM w) := by
  unfold decodeFields; rw [h]; rfl

theorem decodeFields_19 (w : BitVec 32) (h : majorOf w = 0x19#6) :
    decodeFields w = decode19 (rtM w) (rbM w) (dispM w) (qM w) := by
  unfold decodeFields; rw [h]; rfl

theorem decodeFields_1A (w : BitVec 32) (h : majorOf w = 0x1a#6) :
    decodeFields w = decode1A (rtM w) (rbM w) (dispM w) (qM w) := by
  unfold decodeFields; rw [h]; rfl

theorem decodeFields_1B (w : BitVec 32) (h : majorOf w = 0x1b#6) :
    decodeFields w = decode1B (rtM w) (rbM w) (dispM w) (qM w) := by
  unfold decodeFields; rw [h]; rfl

theorem decodeFields_1C (w : BitVec 32) (h : majorOf w = 0x1c#6) :
    decodeFields w = decode1C (rtM w) (rbM w) (dispM w) (qM w) := by
  unfold decodeFields; rw [h]; rfl

theorem decodeFields_1D (w : BitVec 32) (h : majorOf w = 0x1d#6) :
    decodeFields w = decode1D (rdA w) (raA w) (rbA w) (fnA w) := by
  unfold decodeFields; rw [h]; rfl

theorem decodeFields_1E (w : BitVec 32) (h : majorOf w = 0x1e#6) :
    decodeFields w = decode1E (rdA w) (raA w) (rbA w) (fnA w) := by
  unfold decodeFields; rw [h]; rfl

theorem decodeFields_1F (w : BitVec 32) (h : majorOf w = 0x1f#6) :
    decodeFields w = decode1F (rdA w) (raA w) (rbA w) (fnA w) := by
  unfold decodeFields; rw [h]; rfl

theorem decodeFields_20 (w : BitVec 32) (h : majorOf w = 0x20#6) :
    decodeFields w = decode20 (rdA w) (raA w) (rbA w) (fnA w) := by
  unfold decodeFields; rw [h]; rfl

theorem decodeFields_21 (w : BitVec 32) (h : majorOf w = 0x21#6) :
    decodeFields w = decode21 (rdA w) (raA w) (rbA w) (fnA w) := by
  unfold decodeFields; rw [h]; rfl

theorem decodeFields_22 (w : BitVec 32) (h : majorOf w = 0x22#6) :
    decodeFields w = decode22 (rdA w) (raA w) (rbA w) (fnA w) := by
  unfold decodeFields; rw [h]; rfl

theorem decodeFields_23 (w : BitVec 32) (h : majorOf w = 0x23#6) :
    decodeFields w = decode23 (rdA w) (raA w) (rbA w) (fnA w) := by
  unfold decodeFields; rw [h]; rfl

theorem decodeFields_24 (w : BitVec 32) (h : majorOf w = 0x24#6) :
    decodeFields w = decode24 (rdA w) (raA w) (rbA w) (fnA w) := by
  unfold decodeFields; rw [h]; rfl

theorem decodeFields_25 (w : BitVec 32) (h : majorOf w = 0x25#6) :
    decodeFields w = decode25 (rdA w) (raA w) (rbA w) (fnA w) := by
  unfold decodeFields; rw [h]; rfl

theorem decodeFields_26 (w : BitVec 32) (h : majorOf w = 0x26#6) :
    decodeFields w = decode26 (rdA w) (raA w) (rbA w) (fnA w) := by
  unfold decodeFields; rw [h]; rfl

theorem decodeFields_27 (w : BitVec 32) (h : majorOf w = 0x27#6) :
    decodeFields w = decode27 (rdA w) (raA w) (rbA w) (fnA w) := by
  unfold decodeFields; rw [h]; rfl

theorem decodeFields_28 (w : BitVec 32) (h : majorOf w = 0x28#6) :
    decodeFields w = decode28 (vdV w) (vaV w) (vbV w) (mkV w) (fnV w) := by
  unfold decodeFields; rw [h]; rfl

theorem decodeFields_29 (w : BitVec 32) (h : majorOf w = 0x29#6) :
    decodeFields w = decode29 (vdV w) (vaV w) (vbV w) (mkV w) (fnV w) := by
  unfold decodeFields; rw [h]; rfl

theorem decodeFields_2A (w : BitVec 32) (h : majorOf w = 0x2a#6) :
    decodeFields w = decode2A (vdV w) (vaV w) (vbV w) (mkV w) (fnV w) := by
  unfold decodeFields; rw [h]; rfl

theorem decodeFields_2B (w : BitVec 32) (h : majorOf w = 0x2b#6) :
    decodeFields w = decode2B (vdV w) (vaV w) (vbV w) (mkV w) (fnV w) := by
  unfold decodeFields; rw [h]; rfl

theorem decodeFields_2C (w : BitVec 32) (h : majorOf w = 0x2c#6) :
    decodeFields w = decode2C (vdV w) (vaV w) (vbV w) (mkV w) (fnV w) := by
  unfold decodeFields; rw [h]; rfl

theorem decodeFields_2D (w : BitVec 32) (h : majorOf w = 0x2d#6) :
    decodeFields w = decode2D (vdV w) (vaV w) (vbV w) (mkV w) (fnV w) := by
  unfold decodeFields; rw [h]; rfl

theorem decodeFields_2E (w : BitVec 32) (h : majorOf w = 0x2e#6) :
    decodeFields w = decode2E (adX w) (opAX w) (opBX w) (fmtX w) (flX w) := by
  unfold decodeFields; rw [h]; rfl

theorem decodeFields_2F (w : BitVec 32) (h : majorOf w = 0x2f#6) :
    decodeFields w = decode2F (adX w) (opAX w) (opBX w) (fmtX w) (flX w) := by
  unfold decodeFields; rw [h]; rfl

theorem decodeFields_30 (w : BitVec 32) (h : majorOf w = 0x30#6) :
    decodeFields w = decode30 (rdA w) (raA w) (rbA w) (fnA w) := by
  unfold decodeFields; rw [h]; rfl

theorem decodeFields_31 (w : BitVec 32) (h : majorOf w = 0x31#6) :
    decodeFields w = decode31 (rdA w) (raA w) (rbA w) (fnA w) := by
  unfold decodeFields; rw [h]; rfl

/-- Decoding a word follows from reading its fields, since the checks of `Instr.wf` see the instruction itself. -/
theorem decode_of_fields (i : Instr) (v : BitVec 32) (e : encode i = some v) (h : decodeFields v = some i.canonical)
    (hw : i.canonical.wf = i.wf) : i.wf = true → ∀ w, encode i = some w → decode w = some i.canonical := by
  intro wf w e'
  obtain rfl : v = w := by rw [e] at e'; exact Option.some.inj e'
  simp [decode, h, hw, wf]

end Sys2Proof
end

