-- ==== Sys2Proof/Laws/Sparse.lean ====
section
/-!
SUPPORT. Laws of sparse tables and of memory: reading after writing, and that the canonical form is kept.
-/
namespace Sys2Proof.Machine

namespace Sparse
variable {α : Type}

@[simp] theorem get_set_same (d : α) (m : Sparse α) (k : Nat) (x : α) : get d (set m k x) k = x := by
  induction m with
  | nil => simp [set, get]
  | cons p t ih => obtain ⟨j, y⟩ := p; simp only [set]; split <;> (try split) <;> simp_all [get]; omega

@[simp] theorem get_set_other (d : α) (m : Sparse α) (k j : Nat) (x : α) (h : j ≠ k) :
    get d (set m k x) j = get d m j := by
  induction m with
  | nil => simp [set, get, Ne.symm h]
  | cons p t ih => obtain ⟨i, y⟩ := p; simp only [set]; split <;> (try split) <;> grind [get]

@[simp] theorem find_set_same (m : Sparse α) (k : Nat) (x : α) : find (set m k x) k = some x := by
  induction m with
  | nil => simp [set, find]
  | cons p t ih => obtain ⟨j, y⟩ := p; simp only [set]; split <;> (try split) <;> simp_all [find]; omega

@[simp] theorem find_set_other (m : Sparse α) (k j : Nat) (x : α) (h : j ≠ k) : find (set m k x) j = find m j := by
  induction m with
  | nil => simp [set, find, Ne.symm h]
  | cons p t ih => obtain ⟨i, y⟩ := p; simp only [set]; split <;> (try split) <;> grind [find]

theorem get_mapVals (f : α → α) (d : α) (m : Sparse α) (k : Nat) (h : f d = d) :
    get d (mapVals f m) k = f (get d m k) := by
  induction m with
  | nil => simp [mapVals, get, h]
  | cons p t ih => obtain ⟨j, y⟩ := p; simp only [mapVals, List.map_cons, get] at *; split <;> simp_all

theorem get_erase (d : α) (m : Sparse α) (k j : Nat) :
    get d (erase m k) j = if j = k then d else get d m j := by
  induction m with
  | nil => simp [erase, get]
  | cons p t ih => obtain ⟨i, y⟩ := p; simp only [erase]; split <;> grind [get]

theorem sortedFrom_mono {lo lo' : Nat} (m : Sparse α) (h : lo' ≤ lo) (s : sortedFrom lo m = true) :
    sortedFrom lo' m = true := by
  cases m with
  | nil => rfl
  | cons p t => obtain ⟨j, y⟩ := p; simp only [sortedFrom, Bool.and_eq_true, decide_eq_true_eq] at *; exact ⟨by omega, s.2⟩

theorem sortedFrom_set (m : Sparse α) (k : Nat) (x : α) (lo : Nat) (hk : lo ≤ k) (s : sortedFrom lo m = true) :
    sortedFrom lo (set m k x) = true := by
  induction m generalizing lo with
  | nil => simp [set, sortedFrom, hk]
  | cons p t ih =>
    obtain ⟨j, y⟩ := p
    simp only [sortedFrom, Bool.and_eq_true, decide_eq_true_eq] at s
    simp only [set]
    split
    · simp [sortedFrom, hk, s.2]; omega
    · split
      · subst_vars; simp [sortedFrom, hk, s.2]
      · simp [sortedFrom, s.1]; exact ih _ (by omega) s.2

theorem sortedFrom_filter (m : Sparse α) (p : Nat × α → Bool) (lo : Nat) (s : sortedFrom lo m = true) :
    sortedFrom lo (m.filter p) = true := by
  induction m generalizing lo with
  | nil => rfl
  | cons q t ih =>
    obtain ⟨j, y⟩ := q
    simp only [sortedFrom, Bool.and_eq_true, decide_eq_true_eq] at s
    simp only [List.filter_cons]
    split
    · simp [sortedFrom, s.1, ih _ s.2]
    · exact sortedFrom_mono _ (by omega) (ih _ s.2)

theorem erase_eq_filter (m : Sparse α) (k : Nat) : erase m k = m.filter fun p => p.1 != k := by
  induction m with
  | nil => rfl
  | cons p t ih => obtain ⟨j, y⟩ := p; simp only [erase, List.filter_cons]; split <;> simp_all

theorem mem_set (m : Sparse α) (k : Nat) (x : α) (p : Nat × α) (h : p ∈ set m k x) : p = (k, x) ∨ p ∈ m := by
  induction m with
  | nil => simpa [set] using h
  | cons q t ih => obtain ⟨j, y⟩ := q; simp only [set] at h; split at h <;> (try split at h) <;> grind

end Sparse

namespace Mem

@[simp] theorem read_write_same (m : Mem) (a : Nat) (b : Byte) : read (write m a b) a = b := by
  unfold read write; split
  · rw [Sparse.get_erase]; simp_all
  · simp

@[simp] theorem read_write_other (m : Mem) (a c : Nat) (b : Byte) (h : c ≠ a) : read (write m a b) c = read m c := by
  unfold read write; split
  · rw [Sparse.get_erase]; simp [h]
  · simp [h]

theorem wf_filter (m : Mem) (p : Nat × BitVec 8 → Bool) (h : wf m = true) : wf (m.filter p) = true := by
  simp only [wf, Bool.and_eq_true, List.all_eq_true] at *
  exact ⟨Sparse.sortedFrom_filter _ _ _ h.1, fun c hc => h.2 c (List.mem_of_mem_filter hc)⟩

/-- A write keeps the canonical form: a zero byte is kept by having no entry. -/
theorem wf_write (m : Mem) (a : Nat) (b : Byte) (h : wf m = true) : wf (write m a b) = true := by
  unfold write; split
  · rw [Sparse.erase_eq_filter]; exact wf_filter _ _ h
  · simp only [wf, Bool.and_eq_true, List.all_eq_true] at *
    refine ⟨Sparse.sortedFrom_set _ _ _ _ (Nat.zero_le _) h.1, fun c hc => ?_⟩
    rcases Sparse.mem_set _ _ _ _ hc with rfl | hc
    · simpa
    · exact h.2 c hc

/-- So do several writes. -/
theorem wf_writeAll (m : Mem) (ws : List (Nat × Byte)) (h : wf m = true) : wf (writeAll m ws) = true := by
  induction ws generalizing m with
  | nil => exact h
  | cons w t ih => exact ih _ (wf_write _ _ _ h)

/-- Bytes that none of several writes names read as before. -/
theorem read_writeAll_other (m : Mem) (ws : List (Nat × Byte)) (a : Nat) (h : a ∉ ws.map (·.1)) :
    read (writeAll m ws) a = read m a := by
  induction ws generalizing m with
  | nil => rfl
  | cons w t ih =>
    simp only [List.map_cons, List.mem_cons, not_or] at h
    rw [writeAll, ih _ h.2, read_write_other _ _ _ _ h.1]

/-- Two canonical memories that read alike are one. -/
theorem wf_find (m : Mem) (h : wf m = true) (a : Nat) (b : Byte) (e : Sparse.find m a = some b) : b ≠ 0 := by
  simp only [wf, Bool.and_eq_true, List.all_eq_true] at h
  have : (a, b) ∈ m := by
    clear h
    induction m with
    | nil => simp [Sparse.find] at e
    | cons p t ih => obtain ⟨j, y⟩ := p; simp only [Sparse.find] at e; split at e <;> simp_all
  simpa using h.2 _ this

end Mem

end Sys2Proof.Machine
end

