-- ==== Sys2Proof/Laws/State.lean ====
section
/-!
SUPPORT. What each update of the state leaves alone, field by field, and what its reader finds afterwards.
-/
namespace Sys2Proof.Machine.State

set_option Elab.async false

@[simp] theorem setCore_sites (s : State) (k : Nat) (c : Core) : (s.setCore k c).sites = s.sites := rfl
@[simp] theorem setCore_mods (s : State) (k : Nat) (c : Core) : (s.setCore k c).mods = s.mods := rfl
@[simp] theorem setCore_banks (s : State) (k : Nat) (c : Core) : (s.setCore k c).banks = s.banks := rfl
@[simp] theorem setCore_mem (s : State) (k : Nat) (c : Core) : (s.setCore k c).mem = s.mem := rfl
@[simp] theorem setCore_tags (s : State) (k : Nat) (c : Core) : (s.setCore k c).tags = s.tags := rfl
@[simp] theorem setCore_poison (s : State) (k : Nat) (c : Core) : (s.setCore k c).poison = s.poison := rfl
@[simp] theorem setCore_flips (s : State) (k : Nat) (c : Core) : (s.setCore k c).flips = s.flips := rfl
@[simp] theorem setCore_codeOld (s : State) (k : Nat) (c : Core) : (s.setCore k c).codeOld = s.codeOld := rfl
@[simp] theorem setCore_codeStores (s : State) (k : Nat) (c : Core) : (s.setCore k c).codeStores = s.codeStores := rfl
@[simp] theorem setCore_windows (s : State) (k : Nat) (c : Core) : (s.setCore k c).windows = s.windows := rfl
@[simp] theorem setCore_regions (s : State) (k : Nat) (c : Core) : (s.setCore k c).regions = s.regions := rfl
@[simp] theorem setCore_tileDirs (s : State) (k : Nat) (c : Core) : (s.setCore k c).tileDirs = s.tileDirs := rfl
@[simp] theorem setCore_resv (s : State) (k : Nat) (c : Core) : (s.setCore k c).resv = s.resv := rfl
@[simp] theorem setCore_parts (s : State) (k : Nat) (c : Core) : (s.setCore k c).parts = s.parts := rfl
@[simp] theorem setCore_images (s : State) (k : Nat) (c : Core) : (s.setCore k c).images = s.images := rfl
@[simp] theorem setCore_teams (s : State) (k : Nat) (c : Core) : (s.setCore k c).teams = s.teams := rfl
@[simp] theorem setCore_grids (s : State) (k : Nat) (c : Core) : (s.setCore k c).grids = s.grids := rfl
@[simp] theorem setCore_teamNext (s : State) (k : Nat) (c : Core) : (s.setCore k c).teamNext = s.teamNext := rfl
@[simp] theorem setCore_ckImages (s : State) (k : Nat) (c : Core) : (s.setCore k c).ckImages = s.ckImages := rfl
@[simp] theorem setCore_cur (s : State) (k : Nat) (c : Core) : (s.setCore k c).cur = s.cur := rfl
@[simp] theorem setCore_ctx (s : State) (k : Nat) (c : Core) : (s.setCore k c).ctx = s.ctx := rfl
@[simp] theorem setCore_agenda (s : State) (k : Nat) (c : Core) : (s.setCore k c).agenda = s.agenda := rfl
@[simp] theorem setCore_nextCycle (s : State) (k : Nat) (c : Core) : (s.setCore k c).nextCycle = s.nextCycle := rfl
@[simp] theorem setCore_stalled (s : State) (k : Nat) (c : Core) : (s.setCore k c).stalled = s.stalled := rfl
@[simp] theorem setCore_ticks (s : State) (k : Nat) (c : Core) : (s.setCore k c).ticks = s.ticks := rfl
@[simp] theorem setCore_born (s : State) (k : Nat) (c : Core) : (s.setCore k c).born = s.born := rfl
@[simp] theorem setCore_free (s : State) (k : Nat) (c : Core) : (s.setCore k c).free = s.free := rfl

@[simp] theorem mapCore_sites (s : State) (k : Nat) (f : Core → Core) : (s.mapCore k f).sites = s.sites := rfl
@[simp] theorem mapCore_mods (s : State) (k : Nat) (f : Core → Core) : (s.mapCore k f).mods = s.mods := rfl
@[simp] theorem mapCore_banks (s : State) (k : Nat) (f : Core → Core) : (s.mapCore k f).banks = s.banks := rfl
@[simp] theorem mapCore_mem (s : State) (k : Nat) (f : Core → Core) : (s.mapCore k f).mem = s.mem := rfl
@[simp] theorem mapCore_tags (s : State) (k : Nat) (f : Core → Core) : (s.mapCore k f).tags = s.tags := rfl
@[simp] theorem mapCore_poison (s : State) (k : Nat) (f : Core → Core) : (s.mapCore k f).poison = s.poison := rfl
@[simp] theorem mapCore_flips (s : State) (k : Nat) (f : Core → Core) : (s.mapCore k f).flips = s.flips := rfl
@[simp] theorem mapCore_codeOld (s : State) (k : Nat) (f : Core → Core) : (s.mapCore k f).codeOld = s.codeOld := rfl
@[simp] theorem mapCore_codeStores (s : State) (k : Nat) (f : Core → Core) : (s.mapCore k f).codeStores = s.codeStores := rfl
@[simp] theorem mapCore_windows (s : State) (k : Nat) (f : Core → Core) : (s.mapCore k f).windows = s.windows := rfl
@[simp] theorem mapCore_regions (s : State) (k : Nat) (f : Core → Core) : (s.mapCore k f).regions = s.regions := rfl
@[simp] theorem mapCore_tileDirs (s : State) (k : Nat) (f : Core → Core) : (s.mapCore k f).tileDirs = s.tileDirs := rfl
@[simp] theorem mapCore_resv (s : State) (k : Nat) (f : Core → Core) : (s.mapCore k f).resv = s.resv := rfl
@[simp] theorem mapCore_parts (s : State) (k : Nat) (f : Core → Core) : (s.mapCore k f).parts = s.parts := rfl
@[simp] theorem mapCore_images (s : State) (k : Nat) (f : Core → Core) : (s.mapCore k f).images = s.images := rfl
@[simp] theorem mapCore_teams (s : State) (k : Nat) (f : Core → Core) : (s.mapCore k f).teams = s.teams := rfl
@[simp] theorem mapCore_grids (s : State) (k : Nat) (f : Core → Core) : (s.mapCore k f).grids = s.grids := rfl
@[simp] theorem mapCore_teamNext (s : State) (k : Nat) (f : Core → Core) : (s.mapCore k f).teamNext = s.teamNext := rfl
@[simp] theorem mapCore_ckImages (s : State) (k : Nat) (f : Core → Core) : (s.mapCore k f).ckImages = s.ckImages := rfl
@[simp] theorem mapCore_cur (s : State) (k : Nat) (f : Core → Core) : (s.mapCore k f).cur = s.cur := rfl
@[simp] theorem mapCore_ctx (s : State) (k : Nat) (f : Core → Core) : (s.mapCore k f).ctx = s.ctx := rfl
@[simp] theorem mapCore_agenda (s : State) (k : Nat) (f : Core → Core) : (s.mapCore k f).agenda = s.agenda := rfl
@[simp] theorem mapCore_nextCycle (s : State) (k : Nat) (f : Core → Core) : (s.mapCore k f).nextCycle = s.nextCycle := rfl
@[simp] theorem mapCore_stalled (s : State) (k : Nat) (f : Core → Core) : (s.mapCore k f).stalled = s.stalled := rfl
@[simp] theorem mapCore_ticks (s : State) (k : Nat) (f : Core → Core) : (s.mapCore k f).ticks = s.ticks := rfl
@[simp] theorem mapCore_born (s : State) (k : Nat) (f : Core → Core) : (s.mapCore k f).born = s.born := rfl
@[simp] theorem mapCore_free (s : State) (k : Nat) (f : Core → Core) : (s.mapCore k f).free = s.free := rfl

@[simp] theorem setCtxAt_sites (s : State) (k x : Nat) (t : Ctx) : (s.setCtxAt k x t).sites = s.sites := rfl
@[simp] theorem setCtxAt_mods (s : State) (k x : Nat) (t : Ctx) : (s.setCtxAt k x t).mods = s.mods := rfl
@[simp] theorem setCtxAt_banks (s : State) (k x : Nat) (t : Ctx) : (s.setCtxAt k x t).banks = s.banks := rfl
@[simp] theorem setCtxAt_mem (s : State) (k x : Nat) (t : Ctx) : (s.setCtxAt k x t).mem = s.mem := rfl
@[simp] theorem setCtxAt_tags (s : State) (k x : Nat) (t : Ctx) : (s.setCtxAt k x t).tags = s.tags := rfl
@[simp] theorem setCtxAt_poison (s : State) (k x : Nat) (t : Ctx) : (s.setCtxAt k x t).poison = s.poison := rfl
@[simp] theorem setCtxAt_flips (s : State) (k x : Nat) (t : Ctx) : (s.setCtxAt k x t).flips = s.flips := rfl
@[simp] theorem setCtxAt_codeOld (s : State) (k x : Nat) (t : Ctx) : (s.setCtxAt k x t).codeOld = s.codeOld := rfl
@[simp] theorem setCtxAt_codeStores (s : State) (k x : Nat) (t : Ctx) : (s.setCtxAt k x t).codeStores = s.codeStores := rfl
@[simp] theorem setCtxAt_windows (s : State) (k x : Nat) (t : Ctx) : (s.setCtxAt k x t).windows = s.windows := rfl
@[simp] theorem setCtxAt_regions (s : State) (k x : Nat) (t : Ctx) : (s.setCtxAt k x t).regions = s.regions := rfl
@[simp] theorem setCtxAt_tileDirs (s : State) (k x : Nat) (t : Ctx) : (s.setCtxAt k x t).tileDirs = s.tileDirs := rfl
@[simp] theorem setCtxAt_resv (s : State) (k x : Nat) (t : Ctx) : (s.setCtxAt k x t).resv = s.resv := rfl
@[simp] theorem setCtxAt_parts (s : State) (k x : Nat) (t : Ctx) : (s.setCtxAt k x t).parts = s.parts := rfl
@[simp] theorem setCtxAt_images (s : State) (k x : Nat) (t : Ctx) : (s.setCtxAt k x t).images = s.images := rfl
@[simp] theorem setCtxAt_teams (s : State) (k x : Nat) (t : Ctx) : (s.setCtxAt k x t).teams = s.teams := rfl
@[simp] theorem setCtxAt_grids (s : State) (k x : Nat) (t : Ctx) : (s.setCtxAt k x t).grids = s.grids := rfl
@[simp] theorem setCtxAt_teamNext (s : State) (k x : Nat) (t : Ctx) : (s.setCtxAt k x t).teamNext = s.teamNext := rfl
@[simp] theorem setCtxAt_ckImages (s : State) (k x : Nat) (t : Ctx) : (s.setCtxAt k x t).ckImages = s.ckImages := rfl
@[simp] theorem setCtxAt_cur (s : State) (k x : Nat) (t : Ctx) : (s.setCtxAt k x t).cur = s.cur := rfl
@[simp] theorem setCtxAt_ctx (s : State) (k x : Nat) (t : Ctx) : (s.setCtxAt k x t).ctx = s.ctx := rfl
@[simp] theorem setCtxAt_agenda (s : State) (k x : Nat) (t : Ctx) : (s.setCtxAt k x t).agenda = s.agenda := rfl
@[simp] theorem setCtxAt_nextCycle (s : State) (k x : Nat) (t : Ctx) : (s.setCtxAt k x t).nextCycle = s.nextCycle := rfl
@[simp] theorem setCtxAt_stalled (s : State) (k x : Nat) (t : Ctx) : (s.setCtxAt k x t).stalled = s.stalled := rfl
@[simp] theorem setCtxAt_ticks (s : State) (k x : Nat) (t : Ctx) : (s.setCtxAt k x t).ticks = s.ticks := rfl
@[simp] theorem setCtxAt_born (s : State) (k x : Nat) (t : Ctx) : (s.setCtxAt k x t).born = s.born := rfl
@[simp] theorem setCtxAt_free (s : State) (k x : Nat) (t : Ctx) : (s.setCtxAt k x t).free = s.free := rfl

@[simp] theorem mapCtx_sites (s : State) (k x : Nat) (f : Ctx → Ctx) : (s.mapCtx k x f).sites = s.sites := rfl
@[simp] theorem mapCtx_mods (s : State) (k x : Nat) (f : Ctx → Ctx) : (s.mapCtx k x f).mods = s.mods := rfl
@[simp] theorem mapCtx_banks (s : State) (k x : Nat) (f : Ctx → Ctx) : (s.mapCtx k x f).banks = s.banks := rfl
@[simp] theorem mapCtx_mem (s : State) (k x : Nat) (f : Ctx → Ctx) : (s.mapCtx k x f).mem = s.mem := rfl
@[simp] theorem mapCtx_tags (s : State) (k x : Nat) (f : Ctx → Ctx) : (s.mapCtx k x f).tags = s.tags := rfl
@[simp] theorem mapCtx_poison (s : State) (k x : Nat) (f : Ctx → Ctx) : (s.mapCtx k x f).poison = s.poison := rfl
@[simp] theorem mapCtx_flips (s : State) (k x : Nat) (f : Ctx → Ctx) : (s.mapCtx k x f).flips = s.flips := rfl
@[simp] theorem mapCtx_codeOld (s : State) (k x : Nat) (f : Ctx → Ctx) : (s.mapCtx k x f).codeOld = s.codeOld := rfl
@[simp] theorem mapCtx_codeStores (s : State) (k x : Nat) (f : Ctx → Ctx) : (s.mapCtx k x f).codeStores = s.codeStores := rfl
@[simp] theorem mapCtx_windows (s : State) (k x : Nat) (f : Ctx → Ctx) : (s.mapCtx k x f).windows = s.windows := rfl
@[simp] theorem mapCtx_regions (s : State) (k x : Nat) (f : Ctx → Ctx) : (s.mapCtx k x f).regions = s.regions := rfl
@[simp] theorem mapCtx_tileDirs (s : State) (k x : Nat) (f : Ctx → Ctx) : (s.mapCtx k x f).tileDirs = s.tileDirs := rfl
@[simp] theorem mapCtx_resv (s : State) (k x : Nat) (f : Ctx → Ctx) : (s.mapCtx k x f).resv = s.resv := rfl
@[simp] theorem mapCtx_parts (s : State) (k x : Nat) (f : Ctx → Ctx) : (s.mapCtx k x f).parts = s.parts := rfl
@[simp] theorem mapCtx_images (s : State) (k x : Nat) (f : Ctx → Ctx) : (s.mapCtx k x f).images = s.images := rfl
@[simp] theorem mapCtx_teams (s : State) (k x : Nat) (f : Ctx → Ctx) : (s.mapCtx k x f).teams = s.teams := rfl
@[simp] theorem mapCtx_grids (s : State) (k x : Nat) (f : Ctx → Ctx) : (s.mapCtx k x f).grids = s.grids := rfl
@[simp] theorem mapCtx_teamNext (s : State) (k x : Nat) (f : Ctx → Ctx) : (s.mapCtx k x f).teamNext = s.teamNext := rfl
@[simp] theorem mapCtx_ckImages (s : State) (k x : Nat) (f : Ctx → Ctx) : (s.mapCtx k x f).ckImages = s.ckImages := rfl
@[simp] theorem mapCtx_cur (s : State) (k x : Nat) (f : Ctx → Ctx) : (s.mapCtx k x f).cur = s.cur := rfl
@[simp] theorem mapCtx_ctx (s : State) (k x : Nat) (f : Ctx → Ctx) : (s.mapCtx k x f).ctx = s.ctx := rfl
@[simp] theorem mapCtx_agenda (s : State) (k x : Nat) (f : Ctx → Ctx) : (s.mapCtx k x f).agenda = s.agenda := rfl
@[simp] theorem mapCtx_nextCycle (s : State) (k x : Nat) (f : Ctx → Ctx) : (s.mapCtx k x f).nextCycle = s.nextCycle := rfl
@[simp] theorem mapCtx_stalled (s : State) (k x : Nat) (f : Ctx → Ctx) : (s.mapCtx k x f).stalled = s.stalled := rfl
@[simp] theorem mapCtx_ticks (s : State) (k x : Nat) (f : Ctx → Ctx) : (s.mapCtx k x f).ticks = s.ticks := rfl
@[simp] theorem mapCtx_born (s : State) (k x : Nat) (f : Ctx → Ctx) : (s.mapCtx k x f).born = s.born := rfl
@[simp] theorem mapCtx_free (s : State) (k x : Nat) (f : Ctx → Ctx) : (s.mapCtx k x f).free = s.free := rfl

@[simp] theorem setTask_sites (s : State) (t : Ctx) : (s.setTask t).sites = s.sites := rfl
@[simp] theorem setTask_mods (s : State) (t : Ctx) : (s.setTask t).mods = s.mods := rfl
@[simp] theorem setTask_banks (s : State) (t : Ctx) : (s.setTask t).banks = s.banks := rfl
@[simp] theorem setTask_mem (s : State) (t : Ctx) : (s.setTask t).mem = s.mem := rfl
@[simp] theorem setTask_tags (s : State) (t : Ctx) : (s.setTask t).tags = s.tags := rfl
@[simp] theorem setTask_poison (s : State) (t : Ctx) : (s.setTask t).poison = s.poison := rfl
@[simp] theorem setTask_flips (s : State) (t : Ctx) : (s.setTask t).flips = s.flips := rfl
@[simp] theorem setTask_codeOld (s : State) (t : Ctx) : (s.setTask t).codeOld = s.codeOld := rfl
@[simp] theorem setTask_codeStores (s : State) (t : Ctx) : (s.setTask t).codeStores = s.codeStores := rfl
@[simp] theorem setTask_windows (s : State) (t : Ctx) : (s.setTask t).windows = s.windows := rfl
@[simp] theorem setTask_regions (s : State) (t : Ctx) : (s.setTask t).regions = s.regions := rfl
@[simp] theorem setTask_tileDirs (s : State) (t : Ctx) : (s.setTask t).tileDirs = s.tileDirs := rfl
@[simp] theorem setTask_resv (s : State) (t : Ctx) : (s.setTask t).resv = s.resv := rfl
@[simp] theorem setTask_parts (s : State) (t : Ctx) : (s.setTask t).parts = s.parts := rfl
@[simp] theorem setTask_images (s : State) (t : Ctx) : (s.setTask t).images = s.images := rfl
@[simp] theorem setTask_teams (s : State) (t : Ctx) : (s.setTask t).teams = s.teams := rfl
@[simp] theorem setTask_grids (s : State) (t : Ctx) : (s.setTask t).grids = s.grids := rfl
@[simp] theorem setTask_teamNext (s : State) (t : Ctx) : (s.setTask t).teamNext = s.teamNext := rfl
@[simp] theorem setTask_ckImages (s : State) (t : Ctx) : (s.setTask t).ckImages = s.ckImages := rfl
@[simp] theorem setTask_cur (s : State) (t : Ctx) : (s.setTask t).cur = s.cur := rfl
@[simp] theorem setTask_ctx (s : State) (t : Ctx) : (s.setTask t).ctx = s.ctx := rfl
@[simp] theorem setTask_agenda (s : State) (t : Ctx) : (s.setTask t).agenda = s.agenda := rfl
@[simp] theorem setTask_nextCycle (s : State) (t : Ctx) : (s.setTask t).nextCycle = s.nextCycle := rfl
@[simp] theorem setTask_stalled (s : State) (t : Ctx) : (s.setTask t).stalled = s.stalled := rfl
@[simp] theorem setTask_ticks (s : State) (t : Ctx) : (s.setTask t).ticks = s.ticks := rfl
@[simp] theorem setTask_born (s : State) (t : Ctx) : (s.setTask t).born = s.born := rfl
@[simp] theorem setTask_free (s : State) (t : Ctx) : (s.setTask t).free = s.free := rfl

@[simp] theorem mapTask_sites (s : State) (f : Ctx → Ctx) : (s.mapTask f).sites = s.sites := rfl
@[simp] theorem mapTask_mods (s : State) (f : Ctx → Ctx) : (s.mapTask f).mods = s.mods := rfl
@[simp] theorem mapTask_banks (s : State) (f : Ctx → Ctx) : (s.mapTask f).banks = s.banks := rfl
@[simp] theorem mapTask_mem (s : State) (f : Ctx → Ctx) : (s.mapTask f).mem = s.mem := rfl
@[simp] theorem mapTask_tags (s : State) (f : Ctx → Ctx) : (s.mapTask f).tags = s.tags := rfl
@[simp] theorem mapTask_poison (s : State) (f : Ctx → Ctx) : (s.mapTask f).poison = s.poison := rfl
@[simp] theorem mapTask_flips (s : State) (f : Ctx → Ctx) : (s.mapTask f).flips = s.flips := rfl
@[simp] theorem mapTask_codeOld (s : State) (f : Ctx → Ctx) : (s.mapTask f).codeOld = s.codeOld := rfl
@[simp] theorem mapTask_codeStores (s : State) (f : Ctx → Ctx) : (s.mapTask f).codeStores = s.codeStores := rfl
@[simp] theorem mapTask_windows (s : State) (f : Ctx → Ctx) : (s.mapTask f).windows = s.windows := rfl
@[simp] theorem mapTask_regions (s : State) (f : Ctx → Ctx) : (s.mapTask f).regions = s.regions := rfl
@[simp] theorem mapTask_tileDirs (s : State) (f : Ctx → Ctx) : (s.mapTask f).tileDirs = s.tileDirs := rfl
@[simp] theorem mapTask_resv (s : State) (f : Ctx → Ctx) : (s.mapTask f).resv = s.resv := rfl
@[simp] theorem mapTask_parts (s : State) (f : Ctx → Ctx) : (s.mapTask f).parts = s.parts := rfl
@[simp] theorem mapTask_images (s : State) (f : Ctx → Ctx) : (s.mapTask f).images = s.images := rfl
@[simp] theorem mapTask_teams (s : State) (f : Ctx → Ctx) : (s.mapTask f).teams = s.teams := rfl
@[simp] theorem mapTask_grids (s : State) (f : Ctx → Ctx) : (s.mapTask f).grids = s.grids := rfl
@[simp] theorem mapTask_teamNext (s : State) (f : Ctx → Ctx) : (s.mapTask f).teamNext = s.teamNext := rfl
@[simp] theorem mapTask_ckImages (s : State) (f : Ctx → Ctx) : (s.mapTask f).ckImages = s.ckImages := rfl
@[simp] theorem mapTask_cur (s : State) (f : Ctx → Ctx) : (s.mapTask f).cur = s.cur := rfl
@[simp] theorem mapTask_ctx (s : State) (f : Ctx → Ctx) : (s.mapTask f).ctx = s.ctx := rfl
@[simp] theorem mapTask_agenda (s : State) (f : Ctx → Ctx) : (s.mapTask f).agenda = s.agenda := rfl
@[simp] theorem mapTask_nextCycle (s : State) (f : Ctx → Ctx) : (s.mapTask f).nextCycle = s.nextCycle := rfl
@[simp] theorem mapTask_stalled (s : State) (f : Ctx → Ctx) : (s.mapTask f).stalled = s.stalled := rfl
@[simp] theorem mapTask_ticks (s : State) (f : Ctx → Ctx) : (s.mapTask f).ticks = s.ticks := rfl
@[simp] theorem mapTask_born (s : State) (f : Ctx → Ctx) : (s.mapTask f).born = s.born := rfl
@[simp] theorem mapTask_free (s : State) (f : Ctx → Ctx) : (s.mapTask f).free = s.free := rfl

@[simp] theorem mapNi_sites (s : State) (k : Nat) (f : NI → NI) : (s.mapNi k f).sites = s.sites := rfl
@[simp] theorem mapNi_mods (s : State) (k : Nat) (f : NI → NI) : (s.mapNi k f).mods = s.mods := rfl
@[simp] theorem mapNi_banks (s : State) (k : Nat) (f : NI → NI) : (s.mapNi k f).banks = s.banks := rfl
@[simp] theorem mapNi_mem (s : State) (k : Nat) (f : NI → NI) : (s.mapNi k f).mem = s.mem := rfl
@[simp] theorem mapNi_tags (s : State) (k : Nat) (f : NI → NI) : (s.mapNi k f).tags = s.tags := rfl
@[simp] theorem mapNi_poison (s : State) (k : Nat) (f : NI → NI) : (s.mapNi k f).poison = s.poison := rfl
@[simp] theorem mapNi_flips (s : State) (k : Nat) (f : NI → NI) : (s.mapNi k f).flips = s.flips := rfl
@[simp] theorem mapNi_codeOld (s : State) (k : Nat) (f : NI → NI) : (s.mapNi k f).codeOld = s.codeOld := rfl
@[simp] theorem mapNi_codeStores (s : State) (k : Nat) (f : NI → NI) : (s.mapNi k f).codeStores = s.codeStores := rfl
@[simp] theorem mapNi_windows (s : State) (k : Nat) (f : NI → NI) : (s.mapNi k f).windows = s.windows := rfl
@[simp] theorem mapNi_regions (s : State) (k : Nat) (f : NI → NI) : (s.mapNi k f).regions = s.regions := rfl
@[simp] theorem mapNi_tileDirs (s : State) (k : Nat) (f : NI → NI) : (s.mapNi k f).tileDirs = s.tileDirs := rfl
@[simp] theorem mapNi_resv (s : State) (k : Nat) (f : NI → NI) : (s.mapNi k f).resv = s.resv := rfl
@[simp] theorem mapNi_parts (s : State) (k : Nat) (f : NI → NI) : (s.mapNi k f).parts = s.parts := rfl
@[simp] theorem mapNi_images (s : State) (k : Nat) (f : NI → NI) : (s.mapNi k f).images = s.images := rfl
@[simp] theorem mapNi_teams (s : State) (k : Nat) (f : NI → NI) : (s.mapNi k f).teams = s.teams := rfl
@[simp] theorem mapNi_grids (s : State) (k : Nat) (f : NI → NI) : (s.mapNi k f).grids = s.grids := rfl
@[simp] theorem mapNi_teamNext (s : State) (k : Nat) (f : NI → NI) : (s.mapNi k f).teamNext = s.teamNext := rfl
@[simp] theorem mapNi_ckImages (s : State) (k : Nat) (f : NI → NI) : (s.mapNi k f).ckImages = s.ckImages := rfl
@[simp] theorem mapNi_cur (s : State) (k : Nat) (f : NI → NI) : (s.mapNi k f).cur = s.cur := rfl
@[simp] theorem mapNi_ctx (s : State) (k : Nat) (f : NI → NI) : (s.mapNi k f).ctx = s.ctx := rfl
@[simp] theorem mapNi_agenda (s : State) (k : Nat) (f : NI → NI) : (s.mapNi k f).agenda = s.agenda := rfl
@[simp] theorem mapNi_nextCycle (s : State) (k : Nat) (f : NI → NI) : (s.mapNi k f).nextCycle = s.nextCycle := rfl
@[simp] theorem mapNi_stalled (s : State) (k : Nat) (f : NI → NI) : (s.mapNi k f).stalled = s.stalled := rfl
@[simp] theorem mapNi_ticks (s : State) (k : Nat) (f : NI → NI) : (s.mapNi k f).ticks = s.ticks := rfl
@[simp] theorem mapNi_born (s : State) (k : Nat) (f : NI → NI) : (s.mapNi k f).born = s.born := rfl
@[simp] theorem mapNi_free (s : State) (k : Nat) (f : NI → NI) : (s.mapNi k f).free = s.free := rfl

@[simp] theorem setSite_cores (s : State) (n : Nat) (t : Site) : (s.setSite n t).cores = s.cores := rfl
@[simp] theorem setSite_mods (s : State) (n : Nat) (t : Site) : (s.setSite n t).mods = s.mods := rfl
@[simp] theorem setSite_banks (s : State) (n : Nat) (t : Site) : (s.setSite n t).banks = s.banks := rfl
@[simp] theorem setSite_mem (s : State) (n : Nat) (t : Site) : (s.setSite n t).mem = s.mem := rfl
@[simp] theorem setSite_tags (s : State) (n : Nat) (t : Site) : (s.setSite n t).tags = s.tags := rfl
@[simp] theorem setSite_poison (s : State) (n : Nat) (t : Site) : (s.setSite n t).poison = s.poison := rfl
@[simp] theorem setSite_flips (s : State) (n : Nat) (t : Site) : (s.setSite n t).flips = s.flips := rfl
@[simp] theorem setSite_codeOld (s : State) (n : Nat) (t : Site) : (s.setSite n t).codeOld = s.codeOld := rfl
@[simp] theorem setSite_codeStores (s : State) (n : Nat) (t : Site) : (s.setSite n t).codeStores = s.codeStores := rfl
@[simp] theorem setSite_windows (s : State) (n : Nat) (t : Site) : (s.setSite n t).windows = s.windows := rfl
@[simp] theorem setSite_regions (s : State) (n : Nat) (t : Site) : (s.setSite n t).regions = s.regions := rfl
@[simp] theorem setSite_tileDirs (s : State) (n : Nat) (t : Site) : (s.setSite n t).tileDirs = s.tileDirs := rfl
@[simp] theorem setSite_resv (s : State) (n : Nat) (t : Site) : (s.setSite n t).resv = s.resv := rfl
@[simp] theorem setSite_parts (s : State) (n : Nat) (t : Site) : (s.setSite n t).parts = s.parts := rfl
@[simp] theorem setSite_images (s : State) (n : Nat) (t : Site) : (s.setSite n t).images = s.images := rfl
@[simp] theorem setSite_teams (s : State) (n : Nat) (t : Site) : (s.setSite n t).teams = s.teams := rfl
@[simp] theorem setSite_grids (s : State) (n : Nat) (t : Site) : (s.setSite n t).grids = s.grids := rfl
@[simp] theorem setSite_teamNext (s : State) (n : Nat) (t : Site) : (s.setSite n t).teamNext = s.teamNext := rfl
@[simp] theorem setSite_ckImages (s : State) (n : Nat) (t : Site) : (s.setSite n t).ckImages = s.ckImages := rfl
@[simp] theorem setSite_cur (s : State) (n : Nat) (t : Site) : (s.setSite n t).cur = s.cur := rfl
@[simp] theorem setSite_ctx (s : State) (n : Nat) (t : Site) : (s.setSite n t).ctx = s.ctx := rfl
@[simp] theorem setSite_agenda (s : State) (n : Nat) (t : Site) : (s.setSite n t).agenda = s.agenda := rfl
@[simp] theorem setSite_nextCycle (s : State) (n : Nat) (t : Site) : (s.setSite n t).nextCycle = s.nextCycle := rfl
@[simp] theorem setSite_stalled (s : State) (n : Nat) (t : Site) : (s.setSite n t).stalled = s.stalled := rfl
@[simp] theorem setSite_ticks (s : State) (n : Nat) (t : Site) : (s.setSite n t).ticks = s.ticks := rfl
@[simp] theorem setSite_born (s : State) (n : Nat) (t : Site) : (s.setSite n t).born = s.born := rfl
@[simp] theorem setSite_free (s : State) (n : Nat) (t : Site) : (s.setSite n t).free = s.free := rfl

@[simp] theorem mapSite_cores (s : State) (n : Nat) (f : Site → Site) : (s.mapSite n f).cores = s.cores := rfl
@[simp] theorem mapSite_mods (s : State) (n : Nat) (f : Site → Site) : (s.mapSite n f).mods = s.mods := rfl
@[simp] theorem mapSite_banks (s : State) (n : Nat) (f : Site → Site) : (s.mapSite n f).banks = s.banks := rfl
@[simp] theorem mapSite_mem (s : State) (n : Nat) (f : Site → Site) : (s.mapSite n f).mem = s.mem := rfl
@[simp] theorem mapSite_tags (s : State) (n : Nat) (f : Site → Site) : (s.mapSite n f).tags = s.tags := rfl
@[simp] theorem mapSite_poison (s : State) (n : Nat) (f : Site → Site) : (s.mapSite n f).poison = s.poison := rfl
@[simp] theorem mapSite_flips (s : State) (n : Nat) (f : Site → Site) : (s.mapSite n f).flips = s.flips := rfl
@[simp] theorem mapSite_codeOld (s : State) (n : Nat) (f : Site → Site) : (s.mapSite n f).codeOld = s.codeOld := rfl
@[simp] theorem mapSite_codeStores (s : State) (n : Nat) (f : Site → Site) : (s.mapSite n f).codeStores = s.codeStores := rfl
@[simp] theorem mapSite_windows (s : State) (n : Nat) (f : Site → Site) : (s.mapSite n f).windows = s.windows := rfl
@[simp] theorem mapSite_regions (s : State) (n : Nat) (f : Site → Site) : (s.mapSite n f).regions = s.regions := rfl
@[simp] theorem mapSite_tileDirs (s : State) (n : Nat) (f : Site → Site) : (s.mapSite n f).tileDirs = s.tileDirs := rfl
@[simp] theorem mapSite_resv (s : State) (n : Nat) (f : Site → Site) : (s.mapSite n f).resv = s.resv := rfl
@[simp] theorem mapSite_parts (s : State) (n : Nat) (f : Site → Site) : (s.mapSite n f).parts = s.parts := rfl
@[simp] theorem mapSite_images (s : State) (n : Nat) (f : Site → Site) : (s.mapSite n f).images = s.images := rfl
@[simp] theorem mapSite_teams (s : State) (n : Nat) (f : Site → Site) : (s.mapSite n f).teams = s.teams := rfl
@[simp] theorem mapSite_grids (s : State) (n : Nat) (f : Site → Site) : (s.mapSite n f).grids = s.grids := rfl
@[simp] theorem mapSite_teamNext (s : State) (n : Nat) (f : Site → Site) : (s.mapSite n f).teamNext = s.teamNext := rfl
@[simp] theorem mapSite_ckImages (s : State) (n : Nat) (f : Site → Site) : (s.mapSite n f).ckImages = s.ckImages := rfl
@[simp] theorem mapSite_cur (s : State) (n : Nat) (f : Site → Site) : (s.mapSite n f).cur = s.cur := rfl
@[simp] theorem mapSite_ctx (s : State) (n : Nat) (f : Site → Site) : (s.mapSite n f).ctx = s.ctx := rfl
@[simp] theorem mapSite_agenda (s : State) (n : Nat) (f : Site → Site) : (s.mapSite n f).agenda = s.agenda := rfl
@[simp] theorem mapSite_nextCycle (s : State) (n : Nat) (f : Site → Site) : (s.mapSite n f).nextCycle = s.nextCycle := rfl
@[simp] theorem mapSite_stalled (s : State) (n : Nat) (f : Site → Site) : (s.mapSite n f).stalled = s.stalled := rfl
@[simp] theorem mapSite_ticks (s : State) (n : Nat) (f : Site → Site) : (s.mapSite n f).ticks = s.ticks := rfl
@[simp] theorem mapSite_born (s : State) (n : Nat) (f : Site → Site) : (s.mapSite n f).born = s.born := rfl
@[simp] theorem mapSite_free (s : State) (n : Nat) (f : Site → Site) : (s.mapSite n f).free = s.free := rfl

@[simp] theorem setModule_cores (s : State) (n : Nat) (m : Module) : (s.setModule n m).cores = s.cores := rfl
@[simp] theorem setModule_sites (s : State) (n : Nat) (m : Module) : (s.setModule n m).sites = s.sites := rfl
@[simp] theorem setModule_banks (s : State) (n : Nat) (m : Module) : (s.setModule n m).banks = s.banks := rfl
@[simp] theorem setModule_mem (s : State) (n : Nat) (m : Module) : (s.setModule n m).mem = s.mem := rfl
@[simp] theorem setModule_tags (s : State) (n : Nat) (m : Module) : (s.setModule n m).tags = s.tags := rfl
@[simp] theorem setModule_poison (s : State) (n : Nat) (m : Module) : (s.setModule n m).poison = s.poison := rfl
@[simp] theorem setModule_flips (s : State) (n : Nat) (m : Module) : (s.setModule n m).flips = s.flips := rfl
@[simp] theorem setModule_codeOld (s : State) (n : Nat) (m : Module) : (s.setModule n m).codeOld = s.codeOld := rfl
@[simp] theorem setModule_codeStores (s : State) (n : Nat) (m : Module) : (s.setModule n m).codeStores = s.codeStores := rfl
@[simp] theorem setModule_windows (s : State) (n : Nat) (m : Module) : (s.setModule n m).windows = s.windows := rfl
@[simp] theorem setModule_regions (s : State) (n : Nat) (m : Module) : (s.setModule n m).regions = s.regions := rfl
@[simp] theorem setModule_tileDirs (s : State) (n : Nat) (m : Module) : (s.setModule n m).tileDirs = s.tileDirs := rfl
@[simp] theorem setModule_resv (s : State) (n : Nat) (m : Module) : (s.setModule n m).resv = s.resv := rfl
@[simp] theorem setModule_parts (s : State) (n : Nat) (m : Module) : (s.setModule n m).parts = s.parts := rfl
@[simp] theorem setModule_images (s : State) (n : Nat) (m : Module) : (s.setModule n m).images = s.images := rfl
@[simp] theorem setModule_teams (s : State) (n : Nat) (m : Module) : (s.setModule n m).teams = s.teams := rfl
@[simp] theorem setModule_grids (s : State) (n : Nat) (m : Module) : (s.setModule n m).grids = s.grids := rfl
@[simp] theorem setModule_teamNext (s : State) (n : Nat) (m : Module) : (s.setModule n m).teamNext = s.teamNext := rfl
@[simp] theorem setModule_ckImages (s : State) (n : Nat) (m : Module) : (s.setModule n m).ckImages = s.ckImages := rfl
@[simp] theorem setModule_cur (s : State) (n : Nat) (m : Module) : (s.setModule n m).cur = s.cur := rfl
@[simp] theorem setModule_ctx (s : State) (n : Nat) (m : Module) : (s.setModule n m).ctx = s.ctx := rfl
@[simp] theorem setModule_agenda (s : State) (n : Nat) (m : Module) : (s.setModule n m).agenda = s.agenda := rfl
@[simp] theorem setModule_nextCycle (s : State) (n : Nat) (m : Module) : (s.setModule n m).nextCycle = s.nextCycle := rfl
@[simp] theorem setModule_stalled (s : State) (n : Nat) (m : Module) : (s.setModule n m).stalled = s.stalled := rfl
@[simp] theorem setModule_ticks (s : State) (n : Nat) (m : Module) : (s.setModule n m).ticks = s.ticks := rfl
@[simp] theorem setModule_born (s : State) (n : Nat) (m : Module) : (s.setModule n m).born = s.born := rfl
@[simp] theorem setModule_free (s : State) (n : Nat) (m : Module) : (s.setModule n m).free = s.free := rfl

@[simp] theorem mapModule_cores (s : State) (n : Nat) (f : Module → Module) : (s.mapModule n f).cores = s.cores := rfl
@[simp] theorem mapModule_sites (s : State) (n : Nat) (f : Module → Module) : (s.mapModule n f).sites = s.sites := rfl
@[simp] theorem mapModule_banks (s : State) (n : Nat) (f : Module → Module) : (s.mapModule n f).banks = s.banks := rfl
@[simp] theorem mapModule_mem (s : State) (n : Nat) (f : Module → Module) : (s.mapModule n f).mem = s.mem := rfl
@[simp] theorem mapModule_tags (s : State) (n : Nat) (f : Module → Module) : (s.mapModule n f).tags = s.tags := rfl
@[simp] theorem mapModule_poison (s : State) (n : Nat) (f : Module → Module) : (s.mapModule n f).poison = s.poison := rfl
@[simp] theorem mapModule_flips (s : State) (n : Nat) (f : Module → Module) : (s.mapModule n f).flips = s.flips := rfl
@[simp] theorem mapModule_codeOld (s : State) (n : Nat) (f : Module → Module) : (s.mapModule n f).codeOld = s.codeOld := rfl
@[simp] theorem mapModule_codeStores (s : State) (n : Nat) (f : Module → Module) : (s.mapModule n f).codeStores = s.codeStores := rfl
@[simp] theorem mapModule_windows (s : State) (n : Nat) (f : Module → Module) : (s.mapModule n f).windows = s.windows := rfl
@[simp] theorem mapModule_regions (s : State) (n : Nat) (f : Module → Module) : (s.mapModule n f).regions = s.regions := rfl
@[simp] theorem mapModule_tileDirs (s : State) (n : Nat) (f : Module → Module) : (s.mapModule n f).tileDirs = s.tileDirs := rfl
@[simp] theorem mapModule_resv (s : State) (n : Nat) (f : Module → Module) : (s.mapModule n f).resv = s.resv := rfl
@[simp] theorem mapModule_parts (s : State) (n : Nat) (f : Module → Module) : (s.mapModule n f).parts = s.parts := rfl
@[simp] theorem mapModule_images (s : State) (n : Nat) (f : Module → Module) : (s.mapModule n f).images = s.images := rfl
@[simp] theorem mapModule_teams (s : State) (n : Nat) (f : Module → Module) : (s.mapModule n f).teams = s.teams := rfl
@[simp] theorem mapModule_grids (s : State) (n : Nat) (f : Module → Module) : (s.mapModule n f).grids = s.grids := rfl
@[simp] theorem mapModule_teamNext (s : State) (n : Nat) (f : Module → Module) : (s.mapModule n f).teamNext = s.teamNext := rfl
@[simp] theorem mapModule_ckImages (s : State) (n : Nat) (f : Module → Module) : (s.mapModule n f).ckImages = s.ckImages := rfl
@[simp] theorem mapModule_cur (s : State) (n : Nat) (f : Module → Module) : (s.mapModule n f).cur = s.cur := rfl
@[simp] theorem mapModule_ctx (s : State) (n : Nat) (f : Module → Module) : (s.mapModule n f).ctx = s.ctx := rfl
@[simp] theorem mapModule_agenda (s : State) (n : Nat) (f : Module → Module) : (s.mapModule n f).agenda = s.agenda := rfl
@[simp] theorem mapModule_nextCycle (s : State) (n : Nat) (f : Module → Module) : (s.mapModule n f).nextCycle = s.nextCycle := rfl
@[simp] theorem mapModule_stalled (s : State) (n : Nat) (f : Module → Module) : (s.mapModule n f).stalled = s.stalled := rfl
@[simp] theorem mapModule_ticks (s : State) (n : Nat) (f : Module → Module) : (s.mapModule n f).ticks = s.ticks := rfl
@[simp] theorem mapModule_born (s : State) (n : Nat) (f : Module → Module) : (s.mapModule n f).born = s.born := rfl
@[simp] theorem mapModule_free (s : State) (n : Nat) (f : Module → Module) : (s.mapModule n f).free = s.free := rfl

@[simp] theorem setBank_cores (s : State) (n : Nat) (b : Bank) : (s.setBank n b).cores = s.cores := rfl
@[simp] theorem setBank_sites (s : State) (n : Nat) (b : Bank) : (s.setBank n b).sites = s.sites := rfl
@[simp] theorem setBank_mods (s : State) (n : Nat) (b : Bank) : (s.setBank n b).mods = s.mods := rfl
@[simp] theorem setBank_mem (s : State) (n : Nat) (b : Bank) : (s.setBank n b).mem = s.mem := rfl
@[simp] theorem setBank_tags (s : State) (n : Nat) (b : Bank) : (s.setBank n b).tags = s.tags := rfl
@[simp] theorem setBank_poison (s : State) (n : Nat) (b : Bank) : (s.setBank n b).poison = s.poison := rfl
@[simp] theorem setBank_flips (s : State) (n : Nat) (b : Bank) : (s.setBank n b).flips = s.flips := rfl
@[simp] theorem setBank_codeOld (s : State) (n : Nat) (b : Bank) : (s.setBank n b).codeOld = s.codeOld := rfl
@[simp] theorem setBank_codeStores (s : State) (n : Nat) (b : Bank) : (s.setBank n b).codeStores = s.codeStores := rfl
@[simp] theorem setBank_windows (s : State) (n : Nat) (b : Bank) : (s.setBank n b).windows = s.windows := rfl
@[simp] theorem setBank_regions (s : State) (n : Nat) (b : Bank) : (s.setBank n b).regions = s.regions := rfl
@[simp] theorem setBank_tileDirs (s : State) (n : Nat) (b : Bank) : (s.setBank n b).tileDirs = s.tileDirs := rfl
@[simp] theorem setBank_resv (s : State) (n : Nat) (b : Bank) : (s.setBank n b).resv = s.resv := rfl
@[simp] theorem setBank_parts (s : State) (n : Nat) (b : Bank) : (s.setBank n b).parts = s.parts := rfl
@[simp] theorem setBank_images (s : State) (n : Nat) (b : Bank) : (s.setBank n b).images = s.images := rfl
@[simp] theorem setBank_teams (s : State) (n : Nat) (b : Bank) : (s.setBank n b).teams = s.teams := rfl
@[simp] theorem setBank_grids (s : State) (n : Nat) (b : Bank) : (s.setBank n b).grids = s.grids := rfl
@[simp] theorem setBank_teamNext (s : State) (n : Nat) (b : Bank) : (s.setBank n b).teamNext = s.teamNext := rfl
@[simp] theorem setBank_ckImages (s : State) (n : Nat) (b : Bank) : (s.setBank n b).ckImages = s.ckImages := rfl
@[simp] theorem setBank_cur (s : State) (n : Nat) (b : Bank) : (s.setBank n b).cur = s.cur := rfl
@[simp] theorem setBank_ctx (s : State) (n : Nat) (b : Bank) : (s.setBank n b).ctx = s.ctx := rfl
@[simp] theorem setBank_agenda (s : State) (n : Nat) (b : Bank) : (s.setBank n b).agenda = s.agenda := rfl
@[simp] theorem setBank_nextCycle (s : State) (n : Nat) (b : Bank) : (s.setBank n b).nextCycle = s.nextCycle := rfl
@[simp] theorem setBank_stalled (s : State) (n : Nat) (b : Bank) : (s.setBank n b).stalled = s.stalled := rfl
@[simp] theorem setBank_ticks (s : State) (n : Nat) (b : Bank) : (s.setBank n b).ticks = s.ticks := rfl
@[simp] theorem setBank_born (s : State) (n : Nat) (b : Bank) : (s.setBank n b).born = s.born := rfl
@[simp] theorem setBank_free (s : State) (n : Nat) (b : Bank) : (s.setBank n b).free = s.free := rfl

@[simp] theorem mapBank_cores (s : State) (n : Nat) (f : Bank → Bank) : (s.mapBank n f).cores = s.cores := rfl
@[simp] theorem mapBank_sites (s : State) (n : Nat) (f : Bank → Bank) : (s.mapBank n f).sites = s.sites := rfl
@[simp] theorem mapBank_mods (s : State) (n : Nat) (f : Bank → Bank) : (s.mapBank n f).mods = s.mods := rfl
@[simp] theorem mapBank_mem (s : State) (n : Nat) (f : Bank → Bank) : (s.mapBank n f).mem = s.mem := rfl
@[simp] theorem mapBank_tags (s : State) (n : Nat) (f : Bank → Bank) : (s.mapBank n f).tags = s.tags := rfl
@[simp] theorem mapBank_poison (s : State) (n : Nat) (f : Bank → Bank) : (s.mapBank n f).poison = s.poison := rfl
@[simp] theorem mapBank_flips (s : State) (n : Nat) (f : Bank → Bank) : (s.mapBank n f).flips = s.flips := rfl
@[simp] theorem mapBank_codeOld (s : State) (n : Nat) (f : Bank → Bank) : (s.mapBank n f).codeOld = s.codeOld := rfl
@[simp] theorem mapBank_codeStores (s : State) (n : Nat) (f : Bank → Bank) : (s.mapBank n f).codeStores = s.codeStores := rfl
@[simp] theorem mapBank_windows (s : State) (n : Nat) (f : Bank → Bank) : (s.mapBank n f).windows = s.windows := rfl
@[simp] theorem mapBank_regions (s : State) (n : Nat) (f : Bank → Bank) : (s.mapBank n f).regions = s.regions := rfl
@[simp] theorem mapBank_tileDirs (s : State) (n : Nat) (f : Bank → Bank) : (s.mapBank n f).tileDirs = s.tileDirs := rfl
@[simp] theorem mapBank_resv (s : State) (n : Nat) (f : Bank → Bank) : (s.mapBank n f).resv = s.resv := rfl
@[simp] theorem mapBank_parts (s : State) (n : Nat) (f : Bank → Bank) : (s.mapBank n f).parts = s.parts := rfl
@[simp] theorem mapBank_images (s : State) (n : Nat) (f : Bank → Bank) : (s.mapBank n f).images = s.images := rfl
@[simp] theorem mapBank_teams (s : State) (n : Nat) (f : Bank → Bank) : (s.mapBank n f).teams = s.teams := rfl
@[simp] theorem mapBank_grids (s : State) (n : Nat) (f : Bank → Bank) : (s.mapBank n f).grids = s.grids := rfl
@[simp] theorem mapBank_teamNext (s : State) (n : Nat) (f : Bank → Bank) : (s.mapBank n f).teamNext = s.teamNext := rfl
@[simp] theorem mapBank_ckImages (s : State) (n : Nat) (f : Bank → Bank) : (s.mapBank n f).ckImages = s.ckImages := rfl
@[simp] theorem mapBank_cur (s : State) (n : Nat) (f : Bank → Bank) : (s.mapBank n f).cur = s.cur := rfl
@[simp] theorem mapBank_ctx (s : State) (n : Nat) (f : Bank → Bank) : (s.mapBank n f).ctx = s.ctx := rfl
@[simp] theorem mapBank_agenda (s : State) (n : Nat) (f : Bank → Bank) : (s.mapBank n f).agenda = s.agenda := rfl
@[simp] theorem mapBank_nextCycle (s : State) (n : Nat) (f : Bank → Bank) : (s.mapBank n f).nextCycle = s.nextCycle := rfl
@[simp] theorem mapBank_stalled (s : State) (n : Nat) (f : Bank → Bank) : (s.mapBank n f).stalled = s.stalled := rfl
@[simp] theorem mapBank_ticks (s : State) (n : Nat) (f : Bank → Bank) : (s.mapBank n f).ticks = s.ticks := rfl
@[simp] theorem mapBank_born (s : State) (n : Nat) (f : Bank → Bank) : (s.mapBank n f).born = s.born := rfl
@[simp] theorem mapBank_free (s : State) (n : Nat) (f : Bank → Bank) : (s.mapBank n f).free = s.free := rfl

@[simp] theorem push_cores (s : State) (e : Event) : (s.push e).cores = s.cores := rfl
@[simp] theorem push_sites (s : State) (e : Event) : (s.push e).sites = s.sites := rfl
@[simp] theorem push_mods (s : State) (e : Event) : (s.push e).mods = s.mods := rfl
@[simp] theorem push_banks (s : State) (e : Event) : (s.push e).banks = s.banks := rfl
@[simp] theorem push_mem (s : State) (e : Event) : (s.push e).mem = s.mem := rfl
@[simp] theorem push_tags (s : State) (e : Event) : (s.push e).tags = s.tags := rfl
@[simp] theorem push_poison (s : State) (e : Event) : (s.push e).poison = s.poison := rfl
@[simp] theorem push_flips (s : State) (e : Event) : (s.push e).flips = s.flips := rfl
@[simp] theorem push_codeOld (s : State) (e : Event) : (s.push e).codeOld = s.codeOld := rfl
@[simp] theorem push_codeStores (s : State) (e : Event) : (s.push e).codeStores = s.codeStores := rfl
@[simp] theorem push_windows (s : State) (e : Event) : (s.push e).windows = s.windows := rfl
@[simp] theorem push_regions (s : State) (e : Event) : (s.push e).regions = s.regions := rfl
@[simp] theorem push_tileDirs (s : State) (e : Event) : (s.push e).tileDirs = s.tileDirs := rfl
@[simp] theorem push_resv (s : State) (e : Event) : (s.push e).resv = s.resv := rfl
@[simp] theorem push_parts (s : State) (e : Event) : (s.push e).parts = s.parts := rfl
@[simp] theorem push_images (s : State) (e : Event) : (s.push e).images = s.images := rfl
@[simp] theorem push_teams (s : State) (e : Event) : (s.push e).teams = s.teams := rfl
@[simp] theorem push_grids (s : State) (e : Event) : (s.push e).grids = s.grids := rfl
@[simp] theorem push_teamNext (s : State) (e : Event) : (s.push e).teamNext = s.teamNext := rfl
@[simp] theorem push_ckImages (s : State) (e : Event) : (s.push e).ckImages = s.ckImages := rfl
@[simp] theorem push_cur (s : State) (e : Event) : (s.push e).cur = s.cur := rfl
@[simp] theorem push_ctx (s : State) (e : Event) : (s.push e).ctx = s.ctx := rfl
@[simp] theorem push_nextCycle (s : State) (e : Event) : (s.push e).nextCycle = s.nextCycle := rfl
@[simp] theorem push_stalled (s : State) (e : Event) : (s.push e).stalled = s.stalled := rfl
@[simp] theorem push_ticks (s : State) (e : Event) : (s.push e).ticks = s.ticks := rfl
@[simp] theorem push_born (s : State) (e : Event) : (s.push e).born = s.born := rfl
@[simp] theorem push_free (s : State) (e : Event) : (s.push e).free = s.free := rfl

@[simp] theorem pushAll_cores (s : State) (es : List Event) : (s.pushAll es).cores = s.cores := rfl
@[simp] theorem pushAll_sites (s : State) (es : List Event) : (s.pushAll es).sites = s.sites := rfl
@[simp] theorem pushAll_mods (s : State) (es : List Event) : (s.pushAll es).mods = s.mods := rfl
@[simp] theorem pushAll_banks (s : State) (es : List Event) : (s.pushAll es).banks = s.banks := rfl
@[simp] theorem pushAll_mem (s : State) (es : List Event) : (s.pushAll es).mem = s.mem := rfl
@[simp] theorem pushAll_tags (s : State) (es : List Event) : (s.pushAll es).tags = s.tags := rfl
@[simp] theorem pushAll_poison (s : State) (es : List Event) : (s.pushAll es).poison = s.poison := rfl
@[simp] theorem pushAll_flips (s : State) (es : List Event) : (s.pushAll es).flips = s.flips := rfl
@[simp] theorem pushAll_codeOld (s : State) (es : List Event) : (s.pushAll es).codeOld = s.codeOld := rfl
@[simp] theorem pushAll_codeStores (s : State) (es : List Event) : (s.pushAll es).codeStores = s.codeStores := rfl
@[simp] theorem pushAll_windows (s : State) (es : List Event) : (s.pushAll es).windows = s.windows := rfl
@[simp] theorem pushAll_regions (s : State) (es : List Event) : (s.pushAll es).regions = s.regions := rfl
@[simp] theorem pushAll_tileDirs (s : State) (es : List Event) : (s.pushAll es).tileDirs = s.tileDirs := rfl
@[simp] theorem pushAll_resv (s : State) (es : List Event) : (s.pushAll es).resv = s.resv := rfl
@[simp] theorem pushAll_parts (s : State) (es : List Event) : (s.pushAll es).parts = s.parts := rfl
@[simp] theorem pushAll_images (s : State) (es : List Event) : (s.pushAll es).images = s.images := rfl
@[simp] theorem pushAll_teams (s : State) (es : List Event) : (s.pushAll es).teams = s.teams := rfl
@[simp] theorem pushAll_grids (s : State) (es : List Event) : (s.pushAll es).grids = s.grids := rfl
@[simp] theorem pushAll_teamNext (s : State) (es : List Event) : (s.pushAll es).teamNext = s.teamNext := rfl
@[simp] theorem pushAll_ckImages (s : State) (es : List Event) : (s.pushAll es).ckImages = s.ckImages := rfl
@[simp] theorem pushAll_cur (s : State) (es : List Event) : (s.pushAll es).cur = s.cur := rfl
@[simp] theorem pushAll_ctx (s : State) (es : List Event) : (s.pushAll es).ctx = s.ctx := rfl
@[simp] theorem pushAll_nextCycle (s : State) (es : List Event) : (s.pushAll es).nextCycle = s.nextCycle := rfl
@[simp] theorem pushAll_stalled (s : State) (es : List Event) : (s.pushAll es).stalled = s.stalled := rfl
@[simp] theorem pushAll_ticks (s : State) (es : List Event) : (s.pushAll es).ticks = s.ticks := rfl
@[simp] theorem pushAll_born (s : State) (es : List Event) : (s.pushAll es).born = s.born := rfl
@[simp] theorem pushAll_free (s : State) (es : List Event) : (s.pushAll es).free = s.free := rfl

@[simp] theorem again_cores (s : State) (e : Event) : (s.again e).cores = s.cores := rfl
@[simp] theorem again_sites (s : State) (e : Event) : (s.again e).sites = s.sites := rfl
@[simp] theorem again_mods (s : State) (e : Event) : (s.again e).mods = s.mods := rfl
@[simp] theorem again_banks (s : State) (e : Event) : (s.again e).banks = s.banks := rfl
@[simp] theorem again_mem (s : State) (e : Event) : (s.again e).mem = s.mem := rfl
@[simp] theorem again_tags (s : State) (e : Event) : (s.again e).tags = s.tags := rfl
@[simp] theorem again_poison (s : State) (e : Event) : (s.again e).poison = s.poison := rfl
@[simp] theorem again_flips (s : State) (e : Event) : (s.again e).flips = s.flips := rfl
@[simp] theorem again_codeOld (s : State) (e : Event) : (s.again e).codeOld = s.codeOld := rfl
@[simp] theorem again_codeStores (s : State) (e : Event) : (s.again e).codeStores = s.codeStores := rfl
@[simp] theorem again_windows (s : State) (e : Event) : (s.again e).windows = s.windows := rfl
@[simp] theorem again_regions (s : State) (e : Event) : (s.again e).regions = s.regions := rfl
@[simp] theorem again_tileDirs (s : State) (e : Event) : (s.again e).tileDirs = s.tileDirs := rfl
@[simp] theorem again_resv (s : State) (e : Event) : (s.again e).resv = s.resv := rfl
@[simp] theorem again_parts (s : State) (e : Event) : (s.again e).parts = s.parts := rfl
@[simp] theorem again_images (s : State) (e : Event) : (s.again e).images = s.images := rfl
@[simp] theorem again_teams (s : State) (e : Event) : (s.again e).teams = s.teams := rfl
@[simp] theorem again_grids (s : State) (e : Event) : (s.again e).grids = s.grids := rfl
@[simp] theorem again_teamNext (s : State) (e : Event) : (s.again e).teamNext = s.teamNext := rfl
@[simp] theorem again_ckImages (s : State) (e : Event) : (s.again e).ckImages = s.ckImages := rfl
@[simp] theorem again_cur (s : State) (e : Event) : (s.again e).cur = s.cur := rfl
@[simp] theorem again_ctx (s : State) (e : Event) : (s.again e).ctx = s.ctx := rfl
@[simp] theorem again_agenda (s : State) (e : Event) : (s.again e).agenda = s.agenda := rfl
@[simp] theorem again_stalled (s : State) (e : Event) : (s.again e).stalled = s.stalled := rfl
@[simp] theorem again_ticks (s : State) (e : Event) : (s.again e).ticks = s.ticks := rfl
@[simp] theorem again_born (s : State) (e : Event) : (s.again e).born = s.born := rfl
@[simp] theorem again_free (s : State) (e : Event) : (s.again e).free = s.free := rfl

@[simp] theorem stalling_cores (s : State) : (s.stalling).cores = s.cores := rfl
@[simp] theorem stalling_sites (s : State) : (s.stalling).sites = s.sites := rfl
@[simp] theorem stalling_mods (s : State) : (s.stalling).mods = s.mods := rfl
@[simp] theorem stalling_banks (s : State) : (s.stalling).banks = s.banks := rfl
@[simp] theorem stalling_mem (s : State) : (s.stalling).mem = s.mem := rfl
@[simp] theorem stalling_tags (s : State) : (s.stalling).tags = s.tags := rfl
@[simp] theorem stalling_poison (s : State) : (s.stalling).poison = s.poison := rfl
@[simp] theorem stalling_flips (s : State) : (s.stalling).flips = s.flips := rfl
@[simp] theorem stalling_codeOld (s : State) : (s.stalling).codeOld = s.codeOld := rfl
@[simp] theorem stalling_codeStores (s : State) : (s.stalling).codeStores = s.codeStores := rfl
@[simp] theorem stalling_windows (s : State) : (s.stalling).windows = s.windows := rfl
@[simp] theorem stalling_regions (s : State) : (s.stalling).regions = s.regions := rfl
@[simp] theorem stalling_tileDirs (s : State) : (s.stalling).tileDirs = s.tileDirs := rfl
@[simp] theorem stalling_resv (s : State) : (s.stalling).resv = s.resv := rfl
@[simp] theorem stalling_parts (s : State) : (s.stalling).parts = s.parts := rfl
@[simp] theorem stalling_images (s : State) : (s.stalling).images = s.images := rfl
@[simp] theorem stalling_teams (s : State) : (s.stalling).teams = s.teams := rfl
@[simp] theorem stalling_grids (s : State) : (s.stalling).grids = s.grids := rfl
@[simp] theorem stalling_teamNext (s : State) : (s.stalling).teamNext = s.teamNext := rfl
@[simp] theorem stalling_ckImages (s : State) : (s.stalling).ckImages = s.ckImages := rfl
@[simp] theorem stalling_cur (s : State) : (s.stalling).cur = s.cur := rfl
@[simp] theorem stalling_ctx (s : State) : (s.stalling).ctx = s.ctx := rfl
@[simp] theorem stalling_agenda (s : State) : (s.stalling).agenda = s.agenda := rfl
@[simp] theorem stalling_nextCycle (s : State) : (s.stalling).nextCycle = s.nextCycle := rfl
@[simp] theorem stalling_ticks (s : State) : (s.stalling).ticks = s.ticks := rfl
@[simp] theorem stalling_born (s : State) : (s.stalling).born = s.born := rfl
@[simp] theorem stalling_free (s : State) : (s.stalling).free = s.free := rfl

@[simp] theorem bump_cores (s : State) : (s.bump).cores = s.cores := rfl
@[simp] theorem bump_sites (s : State) : (s.bump).sites = s.sites := rfl
@[simp] theorem bump_mods (s : State) : (s.bump).mods = s.mods := rfl
@[simp] theorem bump_banks (s : State) : (s.bump).banks = s.banks := rfl
@[simp] theorem bump_mem (s : State) : (s.bump).mem = s.mem := rfl
@[simp] theorem bump_tags (s : State) : (s.bump).tags = s.tags := rfl
@[simp] theorem bump_poison (s : State) : (s.bump).poison = s.poison := rfl
@[simp] theorem bump_flips (s : State) : (s.bump).flips = s.flips := rfl
@[simp] theorem bump_codeOld (s : State) : (s.bump).codeOld = s.codeOld := rfl
@[simp] theorem bump_codeStores (s : State) : (s.bump).codeStores = s.codeStores := rfl
@[simp] theorem bump_windows (s : State) : (s.bump).windows = s.windows := rfl
@[simp] theorem bump_regions (s : State) : (s.bump).regions = s.regions := rfl
@[simp] theorem bump_tileDirs (s : State) : (s.bump).tileDirs = s.tileDirs := rfl
@[simp] theorem bump_resv (s : State) : (s.bump).resv = s.resv := rfl
@[simp] theorem bump_parts (s : State) : (s.bump).parts = s.parts := rfl
@[simp] theorem bump_images (s : State) : (s.bump).images = s.images := rfl
@[simp] theorem bump_teams (s : State) : (s.bump).teams = s.teams := rfl
@[simp] theorem bump_grids (s : State) : (s.bump).grids = s.grids := rfl
@[simp] theorem bump_teamNext (s : State) : (s.bump).teamNext = s.teamNext := rfl
@[simp] theorem bump_ckImages (s : State) : (s.bump).ckImages = s.ckImages := rfl
@[simp] theorem bump_cur (s : State) : (s.bump).cur = s.cur := rfl
@[simp] theorem bump_ctx (s : State) : (s.bump).ctx = s.ctx := rfl
@[simp] theorem bump_agenda (s : State) : (s.bump).agenda = s.agenda := rfl
@[simp] theorem bump_nextCycle (s : State) : (s.bump).nextCycle = s.nextCycle := rfl
@[simp] theorem bump_stalled (s : State) : (s.bump).stalled = s.stalled := rfl
@[simp] theorem bump_ticks (s : State) : (s.bump).ticks = s.ticks := rfl
@[simp] theorem bump_born (s : State) : (s.bump).born = s.born := rfl

@[simp] theorem setTag_cores (s : State) (g : Nat) (b : Bool) : (s.setTag g b).cores = s.cores := rfl
@[simp] theorem setTag_sites (s : State) (g : Nat) (b : Bool) : (s.setTag g b).sites = s.sites := rfl
@[simp] theorem setTag_mods (s : State) (g : Nat) (b : Bool) : (s.setTag g b).mods = s.mods := rfl
@[simp] theorem setTag_banks (s : State) (g : Nat) (b : Bool) : (s.setTag g b).banks = s.banks := rfl
@[simp] theorem setTag_mem (s : State) (g : Nat) (b : Bool) : (s.setTag g b).mem = s.mem := rfl
@[simp] theorem setTag_poison (s : State) (g : Nat) (b : Bool) : (s.setTag g b).poison = s.poison := rfl
@[simp] theorem setTag_flips (s : State) (g : Nat) (b : Bool) : (s.setTag g b).flips = s.flips := rfl
@[simp] theorem setTag_codeOld (s : State) (g : Nat) (b : Bool) : (s.setTag g b).codeOld = s.codeOld := rfl
@[simp] theorem setTag_codeStores (s : State) (g : Nat) (b : Bool) : (s.setTag g b).codeStores = s.codeStores := rfl
@[simp] theorem setTag_windows (s : State) (g : Nat) (b : Bool) : (s.setTag g b).windows = s.windows := rfl
@[simp] theorem setTag_regions (s : State) (g : Nat) (b : Bool) : (s.setTag g b).regions = s.regions := rfl
@[simp] theorem setTag_tileDirs (s : State) (g : Nat) (b : Bool) : (s.setTag g b).tileDirs = s.tileDirs := rfl
@[simp] theorem setTag_resv (s : State) (g : Nat) (b : Bool) : (s.setTag g b).resv = s.resv := rfl
@[simp] theorem setTag_parts (s : State) (g : Nat) (b : Bool) : (s.setTag g b).parts = s.parts := rfl
@[simp] theorem setTag_images (s : State) (g : Nat) (b : Bool) : (s.setTag g b).images = s.images := rfl
@[simp] theorem setTag_teams (s : State) (g : Nat) (b : Bool) : (s.setTag g b).teams = s.teams := rfl
@[simp] theorem setTag_grids (s : State) (g : Nat) (b : Bool) : (s.setTag g b).grids = s.grids := rfl
@[simp] theorem setTag_teamNext (s : State) (g : Nat) (b : Bool) : (s.setTag g b).teamNext = s.teamNext := rfl
@[simp] theorem setTag_ckImages (s : State) (g : Nat) (b : Bool) : (s.setTag g b).ckImages = s.ckImages := rfl
@[simp] theorem setTag_cur (s : State) (g : Nat) (b : Bool) : (s.setTag g b).cur = s.cur := rfl
@[simp] theorem setTag_ctx (s : State) (g : Nat) (b : Bool) : (s.setTag g b).ctx = s.ctx := rfl
@[simp] theorem setTag_agenda (s : State) (g : Nat) (b : Bool) : (s.setTag g b).agenda = s.agenda := rfl
@[simp] theorem setTag_nextCycle (s : State) (g : Nat) (b : Bool) : (s.setTag g b).nextCycle = s.nextCycle := rfl
@[simp] theorem setTag_stalled (s : State) (g : Nat) (b : Bool) : (s.setTag g b).stalled = s.stalled := rfl
@[simp] theorem setTag_ticks (s : State) (g : Nat) (b : Bool) : (s.setTag g b).ticks = s.ticks := rfl
@[simp] theorem setTag_born (s : State) (g : Nat) (b : Bool) : (s.setTag g b).born = s.born := rfl
@[simp] theorem setTag_free (s : State) (g : Nat) (b : Bool) : (s.setTag g b).free = s.free := rfl

@[simp] theorem mapPart_cores (s : State) (n : Nat) (f : Partition → Partition) : (s.mapPart n f).cores = s.cores := by
  unfold mapPart; split <;> rfl
@[simp] theorem mapPart_sites (s : State) (n : Nat) (f : Partition → Partition) : (s.mapPart n f).sites = s.sites := by
  unfold mapPart; split <;> rfl
@[simp] theorem mapPart_mods (s : State) (n : Nat) (f : Partition → Partition) : (s.mapPart n f).mods = s.mods := by
  unfold mapPart; split <;> rfl
@[simp] theorem mapPart_banks (s : State) (n : Nat) (f : Partition → Partition) : (s.mapPart n f).banks = s.banks := by
  unfold mapPart; split <;> rfl
@[simp] theorem mapPart_mem (s : State) (n : Nat) (f : Partition → Partition) : (s.mapPart n f).mem = s.mem := by
  unfold mapPart; split <;> rfl
@[simp] theorem mapPart_tags (s : State) (n : Nat) (f : Partition → Partition) : (s.mapPart n f).tags = s.tags := by
  unfold mapPart; split <;> rfl
@[simp] theorem mapPart_poison (s : State) (n : Nat) (f : Partition → Partition) : (s.mapPart n f).poison = s.poison := by
  unfold mapPart; split <;> rfl
@[simp] theorem mapPart_flips (s : State) (n : Nat) (f : Partition → Partition) : (s.mapPart n f).flips = s.flips := by
  unfold mapPart; split <;> rfl
@[simp] theorem mapPart_codeOld (s : State) (n : Nat) (f : Partition → Partition) : (s.mapPart n f).codeOld = s.codeOld := by
  unfold mapPart; split <;> rfl
@[simp] theorem mapPart_codeStores (s : State) (n : Nat) (f : Partition → Partition) : (s.mapPart n f).codeStores = s.codeStores := by
  unfold mapPart; split <;> rfl
@[simp] theorem mapPart_windows (s : State) (n : Nat) (f : Partition → Partition) : (s.mapPart n f).windows = s.windows := by
  unfold mapPart; split <;> rfl
@[simp] theorem mapPart_regions (s : State) (n : Nat) (f : Partition → Partition) : (s.mapPart n f).regions = s.regions := by
  unfold mapPart; split <;> rfl
@[simp] theorem mapPart_tileDirs (s : State) (n : Nat) (f : Partition → Partition) : (s.mapPart n f).tileDirs = s.tileDirs := by
  unfold mapPart; split <;> rfl
@[simp] theorem mapPart_resv (s : State) (n : Nat) (f : Partition → Partition) : (s.mapPart n f).resv = s.resv := by
  unfold mapPart; split <;> rfl
@[simp] theorem mapPart_images (s : State) (n : Nat) (f : Partition → Partition) : (s.mapPart n f).images = s.images := by
  unfold mapPart; split <;> rfl
@[simp] theorem mapPart_teams (s : State) (n : Nat) (f : Partition → Partition) : (s.mapPart n f).teams = s.teams := by
  unfold mapPart; split <;> rfl
@[simp] theorem mapPart_grids (s : State) (n : Nat) (f : Partition → Partition) : (s.mapPart n f).grids = s.grids := by
  unfold mapPart; split <;> rfl
@[simp] theorem mapPart_teamNext (s : State) (n : Nat) (f : Partition → Partition) : (s.mapPart n f).teamNext = s.teamNext := by
  unfold mapPart; split <;> rfl
@[simp] theorem mapPart_ckImages (s : State) (n : Nat) (f : Partition → Partition) : (s.mapPart n f).ckImages = s.ckImages := by
  unfold mapPart; split <;> rfl
@[simp] theorem mapPart_cur (s : State) (n : Nat) (f : Partition → Partition) : (s.mapPart n f).cur = s.cur := by
  unfold mapPart; split <;> rfl
@[simp] theorem mapPart_ctx (s : State) (n : Nat) (f : Partition → Partition) : (s.mapPart n f).ctx = s.ctx := by
  unfold mapPart; split <;> rfl
@[simp] theorem mapPart_agenda (s : State) (n : Nat) (f : Partition → Partition) : (s.mapPart n f).agenda = s.agenda := by
  unfold mapPart; split <;> rfl
@[simp] theorem mapPart_nextCycle (s : State) (n : Nat) (f : Partition → Partition) : (s.mapPart n f).nextCycle = s.nextCycle := by
  unfold mapPart; split <;> rfl
@[simp] theorem mapPart_stalled (s : State) (n : Nat) (f : Partition → Partition) : (s.mapPart n f).stalled = s.stalled := by
  unfold mapPart; split <;> rfl
@[simp] theorem mapPart_ticks (s : State) (n : Nat) (f : Partition → Partition) : (s.mapPart n f).ticks = s.ticks := by
  unfold mapPart; split <;> rfl
@[simp] theorem mapPart_born (s : State) (n : Nat) (f : Partition → Partition) : (s.mapPart n f).born = s.born := by
  unfold mapPart; split <;> rfl
@[simp] theorem mapPart_free (s : State) (n : Nat) (f : Partition → Partition) : (s.mapPart n f).free = s.free := by
  unfold mapPart; split <;> rfl

@[simp] theorem mapTeam_cores (s : State) (n : Nat) (f : Team → Team) : (s.mapTeam n f).cores = s.cores := by
  unfold mapTeam; split <;> rfl
@[simp] theorem mapTeam_sites (s : State) (n : Nat) (f : Team → Team) : (s.mapTeam n f).sites = s.sites := by
  unfold mapTeam; split <;> rfl
@[simp] theorem mapTeam_mods (s : State) (n : Nat) (f : Team → Team) : (s.mapTeam n f).mods = s.mods := by
  unfold mapTeam; split <;> rfl
@[simp] theorem mapTeam_banks (s : State) (n : Nat) (f : Team → Team) : (s.mapTeam n f).banks = s.banks := by
  unfold mapTeam; split <;> rfl
@[simp] theorem mapTeam_mem (s : State) (n : Nat) (f : Team → Team) : (s.mapTeam n f).mem = s.mem := by
  unfold mapTeam; split <;> rfl
@[simp] theorem mapTeam_tags (s : State) (n : Nat) (f : Team → Team) : (s.mapTeam n f).tags = s.tags := by
  unfold mapTeam; split <;> rfl
@[simp] theorem mapTeam_poison (s : State) (n : Nat) (f : Team → Team) : (s.mapTeam n f).poison = s.poison := by
  unfold mapTeam; split <;> rfl
@[simp] theorem mapTeam_flips (s : State) (n : Nat) (f : Team → Team) : (s.mapTeam n f).flips = s.flips := by
  unfold mapTeam; split <;> rfl
@[simp] theorem mapTeam_codeOld (s : State) (n : Nat) (f : Team → Team) : (s.mapTeam n f).codeOld = s.codeOld := by
  unfold mapTeam; split <;> rfl
@[simp] theorem mapTeam_codeStores (s : State) (n : Nat) (f : Team → Team) : (s.mapTeam n f).codeStores = s.codeStores := by
  unfold mapTeam; split <;> rfl
@[simp] theorem mapTeam_windows (s : State) (n : Nat) (f : Team → Team) : (s.mapTeam n f).windows = s.windows := by
  unfold mapTeam; split <;> rfl
@[simp] theorem mapTeam_regions (s : State) (n : Nat) (f : Team → Team) : (s.mapTeam n f).regions = s.regions := by
  unfold mapTeam; split <;> rfl
@[simp] theorem mapTeam_tileDirs (s : State) (n : Nat) (f : Team → Team) : (s.mapTeam n f).tileDirs = s.tileDirs := by
  unfold mapTeam; split <;> rfl
@[simp] theorem mapTeam_resv (s : State) (n : Nat) (f : Team → Team) : (s.mapTeam n f).resv = s.resv := by
  unfold mapTeam; split <;> rfl
@[simp] theorem mapTeam_parts (s : State) (n : Nat) (f : Team → Team) : (s.mapTeam n f).parts = s.parts := by
  unfold mapTeam; split <;> rfl
@[simp] theorem mapTeam_images (s : State) (n : Nat) (f : Team → Team) : (s.mapTeam n f).images = s.images := by
  unfold mapTeam; split <;> rfl
@[simp] theorem mapTeam_grids (s : State) (n : Nat) (f : Team → Team) : (s.mapTeam n f).grids = s.grids := by
  unfold mapTeam; split <;> rfl
@[simp] theorem mapTeam_teamNext (s : State) (n : Nat) (f : Team → Team) : (s.mapTeam n f).teamNext = s.teamNext := by
  unfold mapTeam; split <;> rfl
@[simp] theorem mapTeam_ckImages (s : State) (n : Nat) (f : Team → Team) : (s.mapTeam n f).ckImages = s.ckImages := by
  unfold mapTeam; split <;> rfl
@[simp] theorem mapTeam_cur (s : State) (n : Nat) (f : Team → Team) : (s.mapTeam n f).cur = s.cur := by
  unfold mapTeam; split <;> rfl
@[simp] theorem mapTeam_ctx (s : State) (n : Nat) (f : Team → Team) : (s.mapTeam n f).ctx = s.ctx := by
  unfold mapTeam; split <;> rfl
@[simp] theorem mapTeam_agenda (s : State) (n : Nat) (f : Team → Team) : (s.mapTeam n f).agenda = s.agenda := by
  unfold mapTeam; split <;> rfl
@[simp] theorem mapTeam_nextCycle (s : State) (n : Nat) (f : Team → Team) : (s.mapTeam n f).nextCycle = s.nextCycle := by
  unfold mapTeam; split <;> rfl
@[simp] theorem mapTeam_stalled (s : State) (n : Nat) (f : Team → Team) : (s.mapTeam n f).stalled = s.stalled := by
  unfold mapTeam; split <;> rfl
@[simp] theorem mapTeam_ticks (s : State) (n : Nat) (f : Team → Team) : (s.mapTeam n f).ticks = s.ticks := by
  unfold mapTeam; split <;> rfl
@[simp] theorem mapTeam_born (s : State) (n : Nat) (f : Team → Team) : (s.mapTeam n f).born = s.born := by
  unfold mapTeam; split <;> rfl
@[simp] theorem mapTeam_free (s : State) (n : Nat) (f : Team → Team) : (s.mapTeam n f).free = s.free := by
  unfold mapTeam; split <;> rfl

@[simp] theorem mapGrid_cores (s : State) (n : Nat) (f : Grid → Grid) : (s.mapGrid n f).cores = s.cores := by
  unfold mapGrid; split <;> rfl
@[simp] theorem mapGrid_sites (s : State) (n : Nat) (f : Grid → Grid) : (s.mapGrid n f).sites = s.sites := by
  unfold mapGrid; split <;> rfl
@[simp] theorem mapGrid_mods (s : State) (n : Nat) (f : Grid → Grid) : (s.mapGrid n f).mods = s.mods := by
  unfold mapGrid; split <;> rfl
@[simp] theorem mapGrid_banks (s : State) (n : Nat) (f : Grid → Grid) : (s.mapGrid n f).banks = s.banks := by
  unfold mapGrid; split <;> rfl
@[simp] theorem mapGrid_mem (s : State) (n : Nat) (f : Grid → Grid) : (s.mapGrid n f).mem = s.mem := by
  unfold mapGrid; split <;> rfl
@[simp] theorem mapGrid_tags (s : State) (n : Nat) (f : Grid → Grid) : (s.mapGrid n f).tags = s.tags := by
  unfold mapGrid; split <;> rfl
@[simp] theorem mapGrid_poison (s : State) (n : Nat) (f : Grid → Grid) : (s.mapGrid n f).poison = s.poison := by
  unfold mapGrid; split <;> rfl
@[simp] theorem mapGrid_flips (s : State) (n : Nat) (f : Grid → Grid) : (s.mapGrid n f).flips = s.flips := by
  unfold mapGrid; split <;> rfl
@[simp] theorem mapGrid_codeOld (s : State) (n : Nat) (f : Grid → Grid) : (s.mapGrid n f).codeOld = s.codeOld := by
  unfold mapGrid; split <;> rfl
@[simp] theorem mapGrid_codeStores (s : State) (n : Nat) (f : Grid → Grid) : (s.mapGrid n f).codeStores = s.codeStores := by
  unfold mapGrid; split <;> rfl
@[simp] theorem mapGrid_windows (s : State) (n : Nat) (f : Grid → Grid) : (s.mapGrid n f).windows = s.windows := by
  unfold mapGrid; split <;> rfl
@[simp] theorem mapGrid_regions (s : State) (n : Nat) (f : Grid → Grid) : (s.mapGrid n f).regions = s.regions := by
  unfold mapGrid; split <;> rfl
@[simp] theorem mapGrid_tileDirs (s : State) (n : Nat) (f : Grid → Grid) : (s.mapGrid n f).tileDirs = s.tileDirs := by
  unfold mapGrid; split <;> rfl
@[simp] theorem mapGrid_resv (s : State) (n : Nat) (f : Grid → Grid) : (s.mapGrid n f).resv = s.resv := by
  unfold mapGrid; split <;> rfl
@[simp] theorem mapGrid_parts (s : State) (n : Nat) (f : Grid → Grid) : (s.mapGrid n f).parts = s.parts := by
  unfold mapGrid; split <;> rfl
@[simp] theorem mapGrid_images (s : State) (n : Nat) (f : Grid → Grid) : (s.mapGrid n f).images = s.images := by
  unfold mapGrid; split <;> rfl
@[simp] theorem mapGrid_teams (s : State) (n : Nat) (f : Grid → Grid) : (s.mapGrid n f).teams = s.teams := by
  unfold mapGrid; split <;> rfl
@[simp] theorem mapGrid_teamNext (s : State) (n : Nat) (f : Grid → Grid) : (s.mapGrid n f).teamNext = s.teamNext := by
  unfold mapGrid; split <;> rfl
@[simp] theorem mapGrid_ckImages (s : State) (n : Nat) (f : Grid → Grid) : (s.mapGrid n f).ckImages = s.ckImages := by
  unfold mapGrid; split <;> rfl
@[simp] theorem mapGrid_cur (s : State) (n : Nat) (f : Grid → Grid) : (s.mapGrid n f).cur = s.cur := by
  unfold mapGrid; split <;> rfl
@[simp] theorem mapGrid_ctx (s : State) (n : Nat) (f : Grid → Grid) : (s.mapGrid n f).ctx = s.ctx := by
  unfold mapGrid; split <;> rfl
@[simp] theorem mapGrid_agenda (s : State) (n : Nat) (f : Grid → Grid) : (s.mapGrid n f).agenda = s.agenda := by
  unfold mapGrid; split <;> rfl
@[simp] theorem mapGrid_nextCycle (s : State) (n : Nat) (f : Grid → Grid) : (s.mapGrid n f).nextCycle = s.nextCycle := by
  unfold mapGrid; split <;> rfl
@[simp] theorem mapGrid_stalled (s : State) (n : Nat) (f : Grid → Grid) : (s.mapGrid n f).stalled = s.stalled := by
  unfold mapGrid; split <;> rfl
@[simp] theorem mapGrid_ticks (s : State) (n : Nat) (f : Grid → Grid) : (s.mapGrid n f).ticks = s.ticks := by
  unfold mapGrid; split <;> rfl
@[simp] theorem mapGrid_born (s : State) (n : Nat) (f : Grid → Grid) : (s.mapGrid n f).born = s.born := by
  unfold mapGrid; split <;> rfl
@[simp] theorem mapGrid_free (s : State) (n : Nat) (f : Grid → Grid) : (s.mapGrid n f).free = s.free := by
  unfold mapGrid; split <;> rfl

/-! Reading what was written. -/

@[simp] theorem core_setCore (s : State) (k : Nat) (c : Core) : (s.setCore k c).core k = c := Sparse.get_set_same _ _ _ _
@[simp] theorem core_setCore_other (s : State) (k j : Nat) (c : Core) (h : j ≠ k) : (s.setCore k c).core j = s.core j :=
  Sparse.get_set_other _ _ _ _ _ h
@[simp] theorem core_mapCore (s : State) (k : Nat) (f : Core → Core) : (s.mapCore k f).core k = f (s.core k) :=
  Sparse.get_set_same _ _ _ _
@[simp] theorem core_mapCore_other (s : State) (k j : Nat) (f : Core → Core) (h : j ≠ k) :
    (s.mapCore k f).core j = s.core j := Sparse.get_set_other _ _ _ _ _ h
@[simp] theorem ctxAt_setCtxAt (s : State) (k x : Nat) (t : Ctx) : (s.setCtxAt k x t).ctxAt k x = t := by
  simp [ctxAt, setCtxAt]
@[simp] theorem ctxAt_setCtxAt_other (s : State) (k x j y : Nat) (t : Ctx) (h : j ≠ k ∨ y ≠ x) :
    (s.setCtxAt k x t).ctxAt j y = s.ctxAt j y := by
  by_cases e : j = k
  · subst e; simp [ctxAt, setCtxAt, Sparse.get_set_other _ _ _ _ _ (h.resolve_left (· rfl))]
  · simp [ctxAt, setCtxAt, e]
@[simp] theorem ctxAt_mapCtx (s : State) (k x : Nat) (f : Ctx → Ctx) : (s.mapCtx k x f).ctxAt k x = f (s.ctxAt k x) :=
  ctxAt_setCtxAt _ _ _ _
@[simp] theorem ctxAt_mapCtx_other (s : State) (k x j y : Nat) (f : Ctx → Ctx) (h : j ≠ k ∨ y ≠ x) :
    (s.mapCtx k x f).ctxAt j y = s.ctxAt j y := ctxAt_setCtxAt_other _ _ _ _ _ _ h
@[simp] theorem task_setTask (s : State) (t : Ctx) : (s.setTask t).task = t := ctxAt_setCtxAt _ _ _ _
@[simp] theorem task_mapTask (s : State) (f : Ctx → Ctx) : (s.mapTask f).task = f s.task := ctxAt_setCtxAt _ _ _ _
@[simp] theorem site_setSite (s : State) (n : Nat) (t : Site) : (s.setSite n t).site n = t := Sparse.get_set_same _ _ _ _
@[simp] theorem site_mapSite (s : State) (n : Nat) (f : Site → Site) : (s.mapSite n f).site n = f (s.site n) :=
  Sparse.get_set_same _ _ _ _
@[simp] theorem site_mapSite_other (s : State) (n m : Nat) (f : Site → Site) (h : m ≠ n) :
    (s.mapSite n f).site m = s.site m := Sparse.get_set_other _ _ _ _ _ h
@[simp] theorem bank_setBank (s : State) (n : Nat) (b : Bank) : (s.setBank n b).bank n = b := Sparse.get_set_same _ _ _ _
@[simp] theorem module_mapModule (s : State) (n : Nat) (f : Module → Module) :
    (s.mapModule n f).module n = f (s.module n) := Sparse.get_set_same _ _ _ _

end Sys2Proof.Machine.State
end

