-- ==== Sys2Proof/Laws/Memory.lean ====
section
/-!
SUPPORT. Laws of the operations over stored bytes: each keeps the canonical form, and a write leaves every other byte, tag and
poisoned line as it was.
-/
namespace Sys2Proof.Machine

theorem moveCells_wf (m : Mem) (src dst n : Nat) (h : Mem.wf m = true) : Mem.wf (moveCells m src dst n) = true :=
  Mem.wf_writeAll _ _ (Mem.wf_filter _ _ h)

namespace State
variable {s : State}

@[simp] theorem keepCode_mem (s : State) (ws : List (Nat × Byte)) : (s.keepCode ws).mem = s.mem := by
  unfold keepCode; extract_lets; split <;> rfl
@[simp] theorem keepCode_tags (s : State) (ws : List (Nat × Byte)) : (s.keepCode ws).tags = s.tags := by
  unfold keepCode; extract_lets; split <;> rfl
@[simp] theorem keepCode_poison (s : State) (ws : List (Nat × Byte)) : (s.keepCode ws).poison = s.poison := by
  unfold keepCode; extract_lets; split <;> rfl

@[simp] theorem writeMem_mem (s : State) (ws : List (Nat × Byte)) : (s.writeMem ws).mem = Mem.writeAll s.mem ws := by
  simp [writeMem]

theorem writeMem_wf (ws : List (Nat × Byte)) (h : Mem.wf s.mem = true) : Mem.wf (s.writeMem ws).mem = true := by
  simpa using Mem.wf_writeAll _ ws h

/-- R123: bytes that are not written read as before. -/
theorem writeMem_read_other (ws : List (Nat × Byte)) (a : Nat) (h : a ∉ ws.map (·.1)) :
    Mem.read (s.writeMem ws).mem a = Mem.read s.mem a := by simpa using Mem.read_writeAll_other s.mem ws a h

/-- R69: a granule with no byte written keeps its tag, and one with a byte written has none. -/
theorem mem_writeMem_tags (ws : List (Nat × Byte)) (g : Nat) :
    g ∈ (s.writeMem ws).tags ↔ g ∈ s.tags ∧ ∀ a ∈ ws.map (·.1), a / 16 ≠ g := by
  simp [writeMem, List.mem_filter]

/-- R406: a line stays poisoned unless all of it is written. -/
theorem writeMem_poison_subset (ws : List (Nat × Byte)) : ∀ l ∈ (s.writeMem ws).poison, l ∈ s.poison := by
  intro l h
  simp only [writeMem, keepCode_poison] at h
  split at h
  · exact h
  · exact (List.mem_filter.1 h).1

theorem copyRange_wf (src dst n : Nat) (h : Mem.wf s.mem = true) : Mem.wf (s.copyRange src dst n).mem = true :=
  moveCells_wf _ _ _ _ h

theorem copyBlocks_wf (ps : List (Nat × Nat)) (h : Mem.wf s.mem = true) : Mem.wf (s.copyBlocks ps).mem = true := by
  have : ∀ (qs : List (Nat × Nat)) (f : Nat × Nat → List (Nat × Byte)) (m : Mem), Mem.wf m = true →
      Mem.wf (qs.foldl (fun m q => Mem.writeAll m (f q)) m) = true := by
    intro qs f
    induction qs with
    | nil => exact fun _ h => h
    | cons q qs ih => exact fun m h => ih _ (Mem.wf_writeAll _ _ h)
  exact this ps _ _ (Mem.wf_filter _ _ h)

theorem wipeStorage_wf (mine : Nat → Bool) (h : Mem.wf s.mem = true) : Mem.wf (s.wipeStorage mine).mem = true :=
  Mem.wf_filter _ _ h

theorem wipeTeams_wf (mod : Nat) (h : Mem.wf s.mem = true) : Mem.wf (s.wipeTeams mod).mem = true := Mem.wf_filter _ _ h

/-- A fold of operations that each keep the canonical form keeps it. -/
theorem foldl_wf {α : Type} (f : State → α → State) (hf : ∀ s q, Mem.wf s.mem = true → Mem.wf (f s q).mem = true) :
    ∀ (l : List α) (s : State), Mem.wf s.mem = true → Mem.wf (l.foldl f s).mem = true
  | [], _, h => h
  | q :: qs, s, h => foldl_wf f hf qs (f s q) (hf s q h)


theorem placeFifos_wf (uid : Nat) (t : Team) (h : Mem.wf s.mem = true) : Mem.wf (s.placeFifos uid t).mem = true := by
  unfold placeFifos
  refine foldl_wf _ (fun s q h => ?_) _ _ h
  obtain ⟨w, b, cells, tags⟩ := q
  exact foldl_wf (fun s g => s.setTag (w.storage / 16 + g) true) (fun _ _ h => h) tags _ (Mem.wf_writeAll _ _ h)

theorem ckLoad_wf (mod : Nat) (img : CkImage) (h : Mem.wf s.mem = true) : Mem.wf (s.ckLoad mod img).mem = true := by
  have : ∀ (l : List (Nat × Partition)) (f : Partition → Partition → Partition) (s : State),
      (l.foldl (fun s (n, p) => s.mapPart n (f p)) s).mem = s.mem := by
    intro l f
    induction l with
    | nil => exact fun _ => rfl
    | cons q qs ih =>
      intro s
      rw [List.foldl_cons, ih]
      simp only [mapPart]
      try split
      all_goals rfl
  unfold ckLoad
  rw [this img.parts (fun p q => { q with queue := p.queue ++ q.queue, stripes := [], strbase := p.strbase,
                                          gridNext := max p.gridNext q.gridNext })]
  exact Mem.wf_writeAll _ _ (Mem.wf_filter _ _ h)

theorem withFetchWord_wf (nbits w : Nat) (h : Mem.wf s.mem = true) : Mem.wf (s.withFetchWord nbits w).mem = true :=
  Mem.wf_writeAll _ _ h

theorem reset_wf : Mem.wf State.reset.mem = true := rfl

end State

end Sys2Proof.Machine
end

