-- ==== Sys2Proof/Laws/PerInstr.lean ====
section
/-!
SUPPORT. Decoding what the encoder writes, one lemma for each constructor of `Instr`: the word of a well-formed
instruction decodes to it. The rows that share a word decode to the row of operation 0 (`Instr.canonical`).
-/
set_option Elab.async false
set_option linter.unusedSimpArgs false

namespace Sys2Proof.Laws.RoundTrip

/-- The words of a well-formed instruction decode to it. -/
def Statement (i : Instr) : Prop := i.wf = true → ∀ w, encode i = some w → decode w = some i.canonical

theorem add (x0 : BitVec 6) (x1 : BitVec 6) (x2 : BitVec 6) : Statement (.add x0 x1 x2) :=
  decode_of_fields _ (packA 0x1 x0 x1 x2 0x0#8) rfl
    ((decodeFields_01 _ (majorOf_packA ..)).trans (by
      simp only [rdA_packA, raA_packA, rbA_packA, fnA_packA]
      simp +decide [decode01, fn_ne_7_1, fn_ne_2_3, fn_ne_3_2, Instr.canonical])) rfl

theorem sub (x0 : BitVec 6) (x1 : BitVec 6) (x2 : BitVec 6) : Statement (.sub x0 x1 x2) :=
  decode_of_fields _ (packA 0x1 x0 x1 x2 0x1#8) rfl
    ((decodeFields_01 _ (majorOf_packA ..)).trans (by
      simp only [rdA_packA, raA_packA, rbA_packA, fnA_packA]
      simp +decide [decode01, fn_ne_7_1, fn_ne_2_3, fn_ne_3_2, Instr.canonical])) rfl

theorem and (x0 : BitVec 6) (x1 : BitVec 6) (x2 : BitVec 6) : Statement (.and x0 x1 x2) :=
  decode_of_fields _ (packA 0x1 x0 x1 x2 0x2#8) rfl
    ((decodeFields_01 _ (majorOf_packA ..)).trans (by
      simp only [rdA_packA, raA_packA, rbA_packA, fnA_packA]
      simp +decide [decode01, fn_ne_7_1, fn_ne_2_3, fn_ne_3_2, Instr.canonical])) rfl

theorem or (x0 : BitVec 6) (x1 : BitVec 6) (x2 : BitVec 6) : Statement (.or x0 x1 x2) :=
  decode_of_fields _ (packA 0x1 x0 x1 x2 0x3#8) rfl
    ((decodeFields_01 _ (majorOf_packA ..)).trans (by
      simp only [rdA_packA, raA_packA, rbA_packA, fnA_packA]
      simp +decide [decode01, fn_ne_7_1, fn_ne_2_3, fn_ne_3_2, Instr.canonical])) rfl

theorem xor (x0 : BitVec 6) (x1 : BitVec 6) (x2 : BitVec 6) : Statement (.xor x0 x1 x2) :=
  decode_of_fields _ (packA 0x1 x0 x1 x2 0x4#8) rfl
    ((decodeFields_01 _ (majorOf_packA ..)).trans (by
      simp only [rdA_packA, raA_packA, rbA_packA, fnA_packA]
      simp +decide [decode01, fn_ne_7_1, fn_ne_2_3, fn_ne_3_2, Instr.canonical])) rfl

theorem andn (x0 : BitVec 6) (x1 : BitVec 6) (x2 : BitVec 6) : Statement (.andn x0 x1 x2) :=
  decode_of_fields _ (packA 0x1 x0 x1 x2 0x5#8) rfl
    ((decodeFields_01 _ (majorOf_packA ..)).trans (by
      simp only [rdA_packA, raA_packA, rbA_packA, fnA_packA]
      simp +decide [decode01, fn_ne_7_1, fn_ne_2_3, fn_ne_3_2, Instr.canonical])) rfl

theorem sll (x0 : BitVec 6) (x1 : BitVec 6) (x2 : BitVec 6) : Statement (.sll x0 x1 x2) :=
  decode_of_fields _ (packA 0x1 x0 x1 x2 0x6#8) rfl
    ((decodeFields_01 _ (majorOf_packA ..)).trans (by
      simp only [rdA_packA, raA_packA, rbA_packA, fnA_packA]
      simp +decide [decode01, fn_ne_7_1, fn_ne_2_3, fn_ne_3_2, Instr.canonical])) rfl

theorem srl (x0 : BitVec 6) (x1 : BitVec 6) (x2 : BitVec 6) : Statement (.srl x0 x1 x2) :=
  decode_of_fields _ (packA 0x1 x0 x1 x2 0x7#8) rfl
    ((decodeFields_01 _ (majorOf_packA ..)).trans (by
      simp only [rdA_packA, raA_packA, rbA_packA, fnA_packA]
      simp +decide [decode01, fn_ne_7_1, fn_ne_2_3, fn_ne_3_2, Instr.canonical])) rfl

theorem sra (x0 : BitVec 6) (x1 : BitVec 6) (x2 : BitVec 6) : Statement (.sra x0 x1 x2) :=
  decode_of_fields _ (packA 0x1 x0 x1 x2 0x8#8) rfl
    ((decodeFields_01 _ (majorOf_packA ..)).trans (by
      simp only [rdA_packA, raA_packA, rbA_packA, fnA_packA]
      simp +decide [decode01, fn_ne_7_1, fn_ne_2_3, fn_ne_3_2, Instr.canonical])) rfl

theorem ror (x0 : BitVec 6) (x1 : BitVec 6) (x2 : BitVec 6) : Statement (.ror x0 x1 x2) :=
  decode_of_fields _ (packA 0x1 x0 x1 x2 0x9#8) rfl
    ((decodeFields_01 _ (majorOf_packA ..)).trans (by
      simp only [rdA_packA, raA_packA, rbA_packA, fnA_packA]
      simp +decide [decode01, fn_ne_7_1, fn_ne_2_3, fn_ne_3_2, Instr.canonical])) rfl

theorem min (x0 : BitVec 6) (x1 : BitVec 6) (x2 : BitVec 6) : Statement (.min x0 x1 x2) :=
  decode_of_fields _ (packA 0x1 x0 x1 x2 0xa#8) rfl
    ((decodeFields_01 _ (majorOf_packA ..)).trans (by
      simp only [rdA_packA, raA_packA, rbA_packA, fnA_packA]
      simp +decide [decode01, fn_ne_7_1, fn_ne_2_3, fn_ne_3_2, Instr.canonical])) rfl

theorem max (x0 : BitVec 6) (x1 : BitVec 6) (x2 : BitVec 6) : Statement (.max x0 x1 x2) :=
  decode_of_fields _ (packA 0x1 x0 x1 x2 0xb#8) rfl
    ((decodeFields_01 _ (majorOf_packA ..)).trans (by
      simp only [rdA_packA, raA_packA, rbA_packA, fnA_packA]
      simp +decide [decode01, fn_ne_7_1, fn_ne_2_3, fn_ne_3_2, Instr.canonical])) rfl

theorem minu (x0 : BitVec 6) (x1 : BitVec 6) (x2 : BitVec 6) : Statement (.minu x0 x1 x2) :=
  decode_of_fields _ (packA 0x1 x0 x1 x2 0xc#8) rfl
    ((decodeFields_01 _ (majorOf_packA ..)).trans (by
      simp only [rdA_packA, raA_packA, rbA_packA, fnA_packA]
      simp +decide [decode01, fn_ne_7_1, fn_ne_2_3, fn_ne_3_2, Instr.canonical])) rfl

theorem maxu (x0 : BitVec 6) (x1 : BitVec 6) (x2 : BitVec 6) : Statement (.maxu x0 x1 x2) :=
  decode_of_fields _ (packA 0x1 x0 x1 x2 0xd#8) rfl
    ((decodeFields_01 _ (majorOf_packA ..)).trans (by
      simp only [rdA_packA, raA_packA, rbA_packA, fnA_packA]
      simp +decide [decode01, fn_ne_7_1, fn_ne_2_3, fn_ne_3_2, Instr.canonical])) rfl

theorem seq (x0 : BitVec 6) (x1 : BitVec 6) (x2 : BitVec 6) : Statement (.seq x0 x1 x2) :=
  decode_of_fields _ (packA 0x1 x0 x1 x2 0xe#8) rfl
    ((decodeFields_01 _ (majorOf_packA ..)).trans (by
      simp only [rdA_packA, raA_packA, rbA_packA, fnA_packA]
      simp +decide [decode01, fn_ne_7_1, fn_ne_2_3, fn_ne_3_2, Instr.canonical])) rfl

theorem sne (x0 : BitVec 6) (x1 : BitVec 6) (x2 : BitVec 6) : Statement (.sne x0 x1 x2) :=
  decode_of_fields _ (packA 0x1 x0 x1 x2 0xf#8) rfl
    ((decodeFields_01 _ (majorOf_packA ..)).trans (by
      simp only [rdA_packA, raA_packA, rbA_packA, fnA_packA]
      simp +decide [decode01, fn_ne_7_1, fn_ne_2_3, fn_ne_3_2, Instr.canonical])) rfl

theorem slt (x0 : BitVec 6) (x1 : BitVec 6) (x2 : BitVec 6) : Statement (.slt x0 x1 x2) :=
  decode_of_fields _ (packA 0x1 x0 x1 x2 0x10#8) rfl
    ((decodeFields_01 _ (majorOf_packA ..)).trans (by
      simp only [rdA_packA, raA_packA, rbA_packA, fnA_packA]
      simp +decide [decode01, fn_ne_7_1, fn_ne_2_3, fn_ne_3_2, Instr.canonical])) rfl

theorem sltu (x0 : BitVec 6) (x1 : BitVec 6) (x2 : BitVec 6) : Statement (.sltu x0 x1 x2) :=
  decode_of_fields _ (packA 0x1 x0 x1 x2 0x11#8) rfl
    ((decodeFields_01 _ (majorOf_packA ..)).trans (by
      simp only [rdA_packA, raA_packA, rbA_packA, fnA_packA]
      simp +decide [decode01, fn_ne_7_1, fn_ne_2_3, fn_ne_3_2, Instr.canonical])) rfl

theorem clz (x0 : BitVec 6) (x1 : BitVec 6) : Statement (.clz x0 x1) :=
  decode_of_fields _ (packA 0x1 x0 x1 0x0#6 0x12#8) rfl
    ((decodeFields_01 _ (majorOf_packA ..)).trans (by
      simp only [rdA_packA, raA_packA, rbA_packA, fnA_packA]
      simp +decide [decode01, fn_ne_7_1, fn_ne_2_3, fn_ne_3_2, Instr.canonical])) rfl

theorem ctz (x0 : BitVec 6) (x1 : BitVec 6) : Statement (.ctz x0 x1) :=
  decode_of_fields _ (packA 0x1 x0 x1 0x0#6 0x13#8) rfl
    ((decodeFields_01 _ (majorOf_packA ..)).trans (by
      simp only [rdA_packA, raA_packA, rbA_packA, fnA_packA]
      simp +decide [decode01, fn_ne_7_1, fn_ne_2_3, fn_ne_3_2, Instr.canonical])) rfl

theorem popc (x0 : BitVec 6) (x1 : BitVec 6) : Statement (.popc x0 x1) :=
  decode_of_fields _ (packA 0x1 x0 x1 0x0#6 0x14#8) rfl
    ((decodeFields_01 _ (majorOf_packA ..)).trans (by
      simp only [rdA_packA, raA_packA, rbA_packA, fnA_packA]
      simp +decide [decode01, fn_ne_7_1, fn_ne_2_3, fn_ne_3_2, Instr.canonical])) rfl

theorem bswap (x0 : BitVec 6) (x1 : BitVec 6) : Statement (.bswap x0 x1) :=
  decode_of_fields _ (packA 0x1 x0 x1 0x0#6 0x15#8) rfl
    ((decodeFields_01 _ (majorOf_packA ..)).trans (by
      simp only [rdA_packA, raA_packA, rbA_packA, fnA_packA]
      simp +decide [decode01, fn_ne_7_1, fn_ne_2_3, fn_ne_3_2, Instr.canonical])) rfl

theorem addi (x0 : BitVec 6) (x1 : BitVec 6) (x2 : BitVec 14) : Statement (.addi x0 x1 x2) :=
  decode_of_fields _ (packI 0x2 x0 x1 x2) rfl
    ((decodeFields_02 _ (majorOf_packI ..)).trans (by
      simp only [rdI_packI, raI_packI, immI_packI]
      simp +decide [decode02, fn_ne_7_1, fn_ne_2_3, fn_ne_3_2, Instr.canonical])) rfl

theorem andi (x0 : BitVec 6) (x1 : BitVec 6) (x2 : BitVec 14) : Statement (.andi x0 x1 x2) :=
  decode_of_fields _ (packI 0x3 x0 x1 x2) rfl
    ((decodeFields_03 _ (majorOf_packI ..)).trans (by
      simp only [rdI_packI, raI_packI, immI_packI]
      simp +decide [decode03, fn_ne_7_1, fn_ne_2_3, fn_ne_3_2, Instr.canonical])) rfl

theorem ori (x0 : BitVec 6) (x1 : BitVec 6) (x2 : BitVec 14) : Statement (.ori x0 x1 x2) :=
  decode_of_fields _ (packI 0x4 x0 x1 x2) rfl
    ((decodeFields_04 _ (majorOf_packI ..)).trans (by
      simp only [rdI_packI, raI_packI, immI_packI]
      simp +decide [decode04, fn_ne_7_1, fn_ne_2_3, fn_ne_3_2, Instr.canonical])) rfl

theorem xori (x0 : BitVec 6) (x1 : BitVec 6) (x2 : BitVec 14) : Statement (.xori x0 x1 x2) :=
  decode_of_fields _ (packI 0x5 x0 x1 x2) rfl
    ((decodeFields_05 _ (majorOf_packI ..)).trans (by
      simp only [rdI_packI, raI_packI, immI_packI]
      simp +decide [decode05, fn_ne_7_1, fn_ne_2_3, fn_ne_3_2, Instr.canonical])) rfl

theorem slli (x0 : BitVec 6) (x1 : BitVec 6) (x2 : BitVec 6) : Statement (.slli x0 x1 x2) :=
  decode_of_fields _ (packI 0x6 x0 x1 (0x0#8 ++ x2)) rfl
    ((decodeFields_06 _ (majorOf_packI ..)).trans (by
      simp only [rdI_packI, raI_packI, immI_packI]
      simp +decide [decode06, fn_ne_7_1, fn_ne_2_3, fn_ne_3_2, Instr.canonical])) rfl

theorem srli (x0 : BitVec 6) (x1 : BitVec 6) (x2 : BitVec 6) : Statement (.srli x0 x1 x2) :=
  decode_of_fields _ (packI 0x6 x0 x1 (0x40#8 ++ x2)) rfl
    ((decodeFields_06 _ (majorOf_packI ..)).trans (by
      simp only [rdI_packI, raI_packI, immI_packI]
      simp +decide [decode06, fn_ne_7_1, fn_ne_2_3, fn_ne_3_2, Instr.canonical])) rfl

theorem srai (x0 : BitVec 6) (x1 : BitVec 6) (x2 : BitVec 6) : Statement (.srai x0 x1 x2) :=
  decode_of_fields _ (packI 0x6 x0 x1 (0x80#8 ++ x2)) rfl
    ((decodeFields_06 _ (majorOf_packI ..)).trans (by
      simp only [rdI_packI, raI_packI, immI_packI]
      simp +decide [decode06, fn_ne_7_1, fn_ne_2_3, fn_ne_3_2, Instr.canonical])) rfl

theorem slti (x0 : BitVec 6) (x1 : BitVec 6) (x2 : BitVec 13) : Statement (.slti x0 x1 x2) :=
  decode_of_fields _ (packI 0x7 x0 x1 (0x0#1 ++ x2)) rfl
    ((decodeFields_07 _ (majorOf_packI ..)).trans (by
      simp only [rdI_packI, raI_packI, immI_packI]
      simp +decide [decode07, fn_ne_7_1, fn_ne_2_3, fn_ne_3_2, Instr.canonical])) rfl

theorem sltui (x0 : BitVec 6) (x1 : BitVec 6) (x2 : BitVec 13) : Statement (.sltui x0 x1 x2) :=
  decode_of_fields _ (packI 0x7 x0 x1 (0x1#1 ++ x2)) rfl
    ((decodeFields_07 _ (majorOf_packI ..)).trans (by
      simp only [rdI_packI, raI_packI, immI_packI]
      simp +decide [decode07, fn_ne_7_1, fn_ne_2_3, fn_ne_3_2, Instr.canonical])) rfl

theorem mul (x0 : BitVec 6) (x1 : BitVec 6) (x2 : BitVec 6) : Statement (.mul x0 x1 x2) :=
  decode_of_fields _ (packA 0x8 x0 x1 x2 0x0#8) rfl
    ((decodeFields_08 _ (majorOf_packA ..)).trans (by
      simp only [rdA_packA, raA_packA, rbA_packA, fnA_packA]
      simp +decide [decode08, fn_ne_7_1, fn_ne_2_3, fn_ne_3_2, Instr.canonical])) rfl

theorem mulh (x0 : BitVec 6) (x1 : BitVec 6) (x2 : BitVec 6) : Statement (.mulh x0 x1 x2) :=
  decode_of_fields _ (packA 0x8 x0 x1 x2 0x1#8) rfl
    ((decodeFields_08 _ (majorOf_packA ..)).trans (by
      simp only [rdA_packA, raA_packA, rbA_packA, fnA_packA]
      simp +decide [decode08, fn_ne_7_1, fn_ne_2_3, fn_ne_3_2, Instr.canonical])) rfl

theorem mulhu (x0 : BitVec 6) (x1 : BitVec 6) (x2 : BitVec 6) : Statement (.mulhu x0 x1 x2) :=
  decode_of_fields _ (packA 0x8 x0 x1 x2 0x2#8) rfl
    ((decodeFields_08 _ (majorOf_packA ..)).trans (by
      simp only [rdA_packA, raA_packA, rbA_packA, fnA_packA]
      simp +decide [decode08, fn_ne_7_1, fn_ne_2_3, fn_ne_3_2, Instr.canonical])) rfl

theorem div (x0 : BitVec 6) (x1 : BitVec 6) (x2 : BitVec 6) : Statement (.div x0 x1 x2) :=
  decode_of_fields _ (packA 0x8 x0 x1 x2 0x3#8) rfl
    ((decodeFields_08 _ (majorOf_packA ..)).trans (by
      simp only [rdA_packA, raA_packA, rbA_packA, fnA_packA]
      simp +decide [decode08, fn_ne_7_1, fn_ne_2_3, fn_ne_3_2, Instr.canonical])) rfl

theorem divu (x0 : BitVec 6) (x1 : BitVec 6) (x2 : BitVec 6) : Statement (.divu x0 x1 x2) :=
  decode_of_fields _ (packA 0x8 x0 x1 x2 0x4#8) rfl
    ((decodeFields_08 _ (majorOf_packA ..)).trans (by
      simp only [rdA_packA, raA_packA, rbA_packA, fnA_packA]
      simp +decide [decode08, fn_ne_7_1, fn_ne_2_3, fn_ne_3_2, Instr.canonical])) rfl

theorem rem (x0 : BitVec 6) (x1 : BitVec 6) (x2 : BitVec 6) : Statement (.rem x0 x1 x2) :=
  decode_of_fields _ (packA 0x8 x0 x1 x2 0x5#8) rfl
    ((decodeFields_08 _ (majorOf_packA ..)).trans (by
      simp only [rdA_packA, raA_packA, rbA_packA, fnA_packA]
      simp +decide [decode08, fn_ne_7_1, fn_ne_2_3, fn_ne_3_2, Instr.canonical])) rfl

theorem remu (x0 : BitVec 6) (x1 : BitVec 6) (x2 : BitVec 6) : Statement (.remu x0 x1 x2) :=
  decode_of_fields _ (packA 0x8 x0 x1 x2 0x6#8) rfl
    ((decodeFields_08 _ (majorOf_packA ..)).trans (by
      simp only [rdA_packA, raA_packA, rbA_packA, fnA_packA]
      simp +decide [decode08, fn_ne_7_1, fn_ne_2_3, fn_ne_3_2, Instr.canonical])) rfl

theorem cbound (x0 : BitVec 6) (x1 : BitVec 6) (x2 : BitVec 6) : Statement (.cbound x0 x1 x2) :=
  decode_of_fields _ (packA 0x9 x0 x1 x2 0x0#8) rfl
    ((decodeFields_09 _ (majorOf_packA ..)).trans (by
      simp only [rdA_packA, raA_packA, rbA_packA, fnA_packA]
      simp +decide [decode09, fn_ne_7_1, fn_ne_2_3, fn_ne_3_2, Instr.canonical])) rfl

theorem cperm (x0 : BitVec 6) (x1 : BitVec 6) (x2 : BitVec 6) : Statement (.cperm x0 x1 x2) :=
  decode_of_fields _ (packA 0x9 x0 x1 x2 0x1#8) rfl
    ((decodeFields_09 _ (majorOf_packA ..)).trans (by
      simp only [rdA_packA, raA_packA, rbA_packA, fnA_packA]
      simp +decide [decode09, fn_ne_7_1, fn_ne_2_3, fn_ne_3_2, Instr.canonical])) rfl

theorem cseal (x0 : BitVec 6) (x1 : BitVec 6) (x2 : BitVec 6) : Statement (.cseal x0 x1 x2) :=
  decode_of_fields _ (packA 0x9 x0 x1 x2 0x2#8) rfl
    ((decodeFields_09 _ (majorOf_packA ..)).trans (by
      simp only [rdA_packA, raA_packA, rbA_packA, fnA_packA]
      simp +decide [decode09, fn_ne_7_1, fn_ne_2_3, fn_ne_3_2, Instr.canonical])) rfl

theorem cunseal (x0 : BitVec 6) (x1 : BitVec 6) (x2 : BitVec 6) : Statement (.cunseal x0 x1 x2) :=
  decode_of_fields _ (packA 0x9 x0 x1 x2 0x3#8) rfl
    ((decodeFields_09 _ (majorOf_packA ..)).trans (by
      simp only [rdA_packA, raA_packA, rbA_packA, fnA_packA]
      simp +decide [decode09, fn_ne_7_1, fn_ne_2_3, fn_ne_3_2, Instr.canonical])) rfl

theorem cinc (x0 : BitVec 6) (x1 : BitVec 6) (x2 : BitVec 6) : Statement (.cinc x0 x1 x2) :=
  decode_of_fields _ (packA 0x9 x0 x1 x2 0x4#8) rfl
    ((decodeFields_09 _ (majorOf_packA ..)).trans (by
      simp only [rdA_packA, raA_packA, rbA_packA, fnA_packA]
      simp +decide [decode09, fn_ne_7_1, fn_ne_2_3, fn_ne_3_2, Instr.canonical])) rfl

theorem cbase (x0 : BitVec 6) (x1 : BitVec 6) : Statement (.cbase x0 x1) :=
  decode_of_fields _ (packA 0x9 x0 x1 0x0#6 0x5#8) rfl
    ((decodeFields_09 _ (majorOf_packA ..)).trans (by
      simp only [rdA_packA, raA_packA, rbA_packA, fnA_packA]
      simp +decide [decode09, fn_ne_7_1, fn_ne_2_3, fn_ne_3_2, Instr.canonical])) rfl

theorem clen (x0 : BitVec 6) (x1 : BitVec 6) : Statement (.clen x0 x1) :=
  decode_of_fields _ (packA 0x9 x0 x1 0x0#6 0x6#8) rfl
    ((decodeFields_09 _ (majorOf_packA ..)).trans (by
      simp only [rdA_packA, raA_packA, rbA_packA, fnA_packA]
      simp +decide [decode09, fn_ne_7_1, fn_ne_2_3, fn_ne_3_2, Instr.canonical])) rfl

theorem cgperm (x0 : BitVec 6) (x1 : BitVec 6) : Statement (.cgperm x0 x1) :=
  decode_of_fields _ (packA 0x9 x0 x1 0x0#6 0x7#8) rfl
    ((decodeFields_09 _ (majorOf_packA ..)).trans (by
      simp only [rdA_packA, raA_packA, rbA_packA, fnA_packA]
      simp +decide [decode09, fn_ne_7_1, fn_ne_2_3, fn_ne_3_2, Instr.canonical])) rfl

theorem ctag (x0 : BitVec 6) (x1 : BitVec 6) : Statement (.ctag x0 x1) :=
  decode_of_fields _ (packA 0x9 x0 x1 0x0#6 0x8#8) rfl
    ((decodeFields_09 _ (majorOf_packA ..)).trans (by
      simp only [rdA_packA, raA_packA, rbA_packA, fnA_packA]
      simp +decide [decode09, fn_ne_7_1, fn_ne_2_3, fn_ne_3_2, Instr.canonical])) rfl

theorem cclr (x0 : BitVec 6) (x1 : BitVec 6) : Statement (.cclr x0 x1) :=
  decode_of_fields _ (packA 0x9 x0 x1 0x0#6 0x9#8) rfl
    ((decodeFields_09 _ (majorOf_packA ..)).trans (by
      simp only [rdA_packA, raA_packA, rbA_packA, fnA_packA]
      simp +decide [decode09, fn_ne_7_1, fn_ne_2_3, fn_ne_3_2, Instr.canonical])) rfl

theorem csub (x0 : BitVec 6) (x1 : BitVec 6) (x2 : BitVec 6) : Statement (.csub x0 x1 x2) :=
  decode_of_fields _ (packA 0x9 x0 x1 x2 0xa#8) rfl
    ((decodeFields_09 _ (majorOf_packA ..)).trans (by
      simp only [rdA_packA, raA_packA, rbA_packA, fnA_packA]
      simp +decide [decode09, fn_ne_7_1, fn_ne_2_3, fn_ne_3_2, Instr.canonical])) rfl

theorem cinci (x0 : BitVec 6) (x1 : BitVec 6) (x2 : BitVec 13) : Statement (.cinci x0 x1 x2) :=
  decode_of_fields _ (packI 0xa x0 x1 (0x0#1 ++ x2)) rfl
    ((decodeFields_0A _ (majorOf_packI ..)).trans (by
      simp only [rdI_packI, raI_packI, immI_packI]
      simp +decide [decode0A, fn_ne_7_1, fn_ne_2_3, fn_ne_3_2, Instr.canonical])) rfl

theorem cboundi (x0 : BitVec 6) (x1 : BitVec 6) (x2 : BitVec 13) : Statement (.cboundi x0 x1 x2) :=
  decode_of_fields _ (packI 0xa x0 x1 (0x1#1 ++ x2)) rfl
    ((decodeFields_0A _ (majorOf_packI ..)).trans (by
      simp only [rdI_packI, raI_packI, immI_packI]
      simp +decide [decode0A, fn_ne_7_1, fn_ne_2_3, fn_ne_3_2, Instr.canonical])) rfl

theorem tget (x0 : BitVec 6) (x1 : BitVec 6) : Statement (.tget x0 x1) :=
  decode_of_fields _ (packA 0xb x0 x1 0x0#6 0x0#8) rfl
    ((decodeFields_0B _ (majorOf_packA ..)).trans (by
      simp only [rdA_packA, raA_packA, rbA_packA, fnA_packA]
      simp +decide [decode0B, fn_ne_7_1, fn_ne_2_3, fn_ne_3_2, Instr.canonical])) rfl

theorem tmrg (x0 : BitVec 6) (x1 : BitVec 6) : Statement (.tmrg x0 x1) :=
  decode_of_fields _ (packA 0xb x0 x1 0x0#6 0x1#8) rfl
    ((decodeFields_0B _ (majorOf_packA ..)).trans (by
      simp only [rdA_packA, raA_packA, rbA_packA, fnA_packA]
      simp +decide [decode0B, fn_ne_7_1, fn_ne_2_3, fn_ne_3_2, Instr.canonical])) rfl

theorem tclr (x0 : BitVec 6) : Statement (.tclr x0) :=
  decode_of_fields _ (packA 0xb x0 0x0#6 0x0#6 0x2#8) rfl
    ((decodeFields_0B _ (majorOf_packA ..)).trans (by
      simp only [rdA_packA, raA_packA, rbA_packA, fnA_packA]
      simp +decide [decode0B, fn_ne_7_1, fn_ne_2_3, fn_ne_3_2, Instr.canonical])) rfl

theorem twait (x0 : BitVec 6) : Statement (.twait x0) :=
  decode_of_fields _ (packA 0xb 0x0#6 x0 0x0#6 0x3#8) rfl
    ((decodeFields_0B _ (majorOf_packA ..)).trans (by
      simp only [rdA_packA, raA_packA, rbA_packA, fnA_packA]
      simp +decide [decode0B, fn_ne_7_1, fn_ne_2_3, fn_ne_3_2, Instr.canonical])) rfl

theorem ldlD (x0 : BitVec 6) (x1 : BitVec 19) : Statement (.ldlD x0 x1) :=
  decode_of_fields _ (packJ 0xc x0 (0x0#1 ++ x1)) rfl
    ((decodeFields_0C _ (majorOf_packJ ..)).trans (by
      simp only [rdJ_packJ, dispJ_packJ]
      simp +decide [decode0C, fn_ne_7_1, fn_ne_2_3, fn_ne_3_2, Instr.canonical])) rfl

theorem ldlW (x0 : BitVec 6) (x1 : BitVec 19) : Statement (.ldlW x0 x1) :=
  decode_of_fields _ (packJ 0xc x0 (0x1#1 ++ x1)) rfl
    ((decodeFields_0C _ (majorOf_packJ ..)).trans (by
      simp only [rdJ_packJ, dispJ_packJ]
      simp +decide [decode0C, fn_ne_7_1, fn_ne_2_3, fn_ne_3_2, Instr.canonical])) rfl

theorem jal (x0 : BitVec 6) (x1 : BitVec 20) : Statement (.jal x0 x1) :=
  decode_of_fields _ (packJ 0xd x0 x1) rfl
    ((decodeFields_0D _ (majorOf_packJ ..)).trans (by
      simp only [rdJ_packJ, dispJ_packJ]
      simp +decide [decode0D, fn_ne_7_1, fn_ne_2_3, fn_ne_3_2, Instr.canonical])) rfl

theorem jalr (x0 : BitVec 6) (x1 : BitVec 6) (x2 : BitVec 14) : Statement (.jalr x0 x1 x2) :=
  decode_of_fields _ (packI 0xe x0 x1 x2) rfl
    ((decodeFields_0E _ (majorOf_packI ..)).trans (by
      simp only [rdI_packI, raI_packI, immI_packI]
      simp +decide [decode0E, fn_ne_7_1, fn_ne_2_3, fn_ne_3_2, Instr.canonical])) rfl

theorem beq (x0 : BitVec 6) (x1 : BitVec 6) (x2 : BitVec 14) : Statement (.beq x0 x1 x2) :=
  decode_of_fields _ (packB 0x10 x0 x1 x2) rfl
    ((decodeFields_10 _ (majorOf_packB ..)).trans (by
      simp only [raB_packB, rbB_packB, dispB_packB]
      simp +decide [decode10, fn_ne_7_1, fn_ne_2_3, fn_ne_3_2, Instr.canonical])) rfl

theorem bne (x0 : BitVec 6) (x1 : BitVec 6) (x2 : BitVec 14) : Statement (.bne x0 x1 x2) :=
  decode_of_fields _ (packB 0x11 x0 x1 x2) rfl
    ((decodeFields_11 _ (majorOf_packB ..)).trans (by
      simp only [raB_packB, rbB_packB, dispB_packB]
      simp +decide [decode11, fn_ne_7_1, fn_ne_2_3, fn_ne_3_2, Instr.canonical])) rfl

theorem blt (x0 : BitVec 6) (x1 : BitVec 6) (x2 : BitVec 14) : Statement (.blt x0 x1 x2) :=
  decode_of_fields _ (packB 0x12 x0 x1 x2) rfl
    ((decodeFields_12 _ (majorOf_packB ..)).trans (by
      simp only [raB_packB, rbB_packB, dispB_packB]
      simp +decide [decode12, fn_ne_7_1, fn_ne_2_3, fn_ne_3_2, Instr.canonical])) rfl

theorem bge (x0 : BitVec 6) (x1 : BitVec 6) (x2 : BitVec 14) : Statement (.bge x0 x1 x2) :=
  decode_of_fields _ (packB 0x13 x0 x1 x2) rfl
    ((decodeFields_13 _ (majorOf_packB ..)).trans (by
      simp only [raB_packB, rbB_packB, dispB_packB]
      simp +decide [decode13, fn_ne_7_1, fn_ne_2_3, fn_ne_3_2, Instr.canonical])) rfl

theorem bltu (x0 : BitVec 6) (x1 : BitVec 6) (x2 : BitVec 14) : Statement (.bltu x0 x1 x2) :=
  decode_of_fields _ (packB 0x14 x0 x1 x2) rfl
    ((decodeFields_14 _ (majorOf_packB ..)).trans (by
      simp only [raB_packB, rbB_packB, dispB_packB]
      simp +decide [decode14, fn_ne_7_1, fn_ne_2_3, fn_ne_3_2, Instr.canonical])) rfl

theorem bgeu (x0 : BitVec 6) (x1 : BitVec 6) (x2 : BitVec 14) : Statement (.bgeu x0 x1 x2) :=
  decode_of_fields _ (packB 0x15 x0 x1 x2) rfl
    ((decodeFields_15 _ (majorOf_packB ..)).trans (by
      simp only [raB_packB, rbB_packB, dispB_packB]
      simp +decide [decode15, fn_ne_7_1, fn_ne_2_3, fn_ne_3_2, Instr.canonical])) rfl

theorem rep (x0 : BitVec 6) (x1 : BitVec 4) (x2 : BitVec 4) (x3 : BitVec 4) (x4 : BitVec 4) : Statement (.rep x0 x1 x2 x3 x4) :=
  decode_of_fields _ (packP 0x16 x0 x1 x2 x3 x4 0x0#4) rfl
    ((decodeFields_16 _ (majorOf_packP ..)).trans (by
      simp only [rcP_packP, lenP_packP, sdP_packP, saP_packP, sbP_packP, flP_packP]
      simp +decide [decode16, fn_ne_7_1, fn_ne_2_3, fn_ne_3_2, Instr.canonical])) rfl

theorem endTask  : Statement (.endTask) :=
  decode_of_fields _ (packA 0x17 0x0#6 0x0#6 0x0#6 0x0#8) rfl
    ((decodeFields_17 _ (majorOf_packA ..)).trans (by
      simp only [rdA_packA, raA_packA, rbA_packA, fnA_packA]
      simp +decide [decode17, fn_ne_7_1, fn_ne_2_3, fn_ne_3_2, Instr.canonical])) rfl

theorem release  : Statement (.release) :=
  decode_of_fields _ (packA 0x17 0x0#6 0x0#6 0x0#6 0x1#8) rfl
    ((decodeFields_17 _ (majorOf_packA ..)).trans (by
      simp only [rdA_packA, raA_packA, rbA_packA, fnA_packA]
      simp +decide [decode17, fn_ne_7_1, fn_ne_2_3, fn_ne_3_2, Instr.canonical])) rfl

theorem ldB (x0 : BitVec 6) (x1 : BitVec 6) (x2 : BitVec 10) : Statement (.ldB x0 x1 x2) :=
  decode_of_fields _ (packM 0x18 x0 x1 x2 0x0#4) rfl
    ((decodeFields_18 _ (majorOf_packM ..)).trans (by
      simp only [rtM_packM, rbM_packM, dispM_packM, qM_packM]
      simp +decide [decode18, fn_ne_7_1, fn_ne_2_3, fn_ne_3_2, Instr.canonical])) rfl

theorem ldBu (x0 : BitVec 6) (x1 : BitVec 6) (x2 : BitVec 10) : Statement (.ldBu x0 x1 x2) :=
  decode_of_fields _ (packM 0x18 x0 x1 x2 0x1#4) rfl
    ((decodeFields_18 _ (majorOf_packM ..)).trans (by
      simp only [rtM_packM, rbM_packM, dispM_packM, qM_packM]
      simp +decide [decode18, fn_ne_7_1, fn_ne_2_3, fn_ne_3_2, Instr.canonical])) rfl

theorem ldH (x0 : BitVec 6) (x1 : BitVec 6) (x2 : BitVec 10) : Statement (.ldH x0 x1 x2) :=
  decode_of_fields _ (packM 0x18 x0 x1 x2 0x2#4) rfl
    ((decodeFields_18 _ (majorOf_packM ..)).trans (by
      simp only [rtM_packM, rbM_packM, dispM_packM, qM_packM]
      simp +decide [decode18, fn_ne_7_1, fn_ne_2_3, fn_ne_3_2, Instr.canonical])) rfl

theorem ldHu (x0 : BitVec 6) (x1 : BitVec 6) (x2 : BitVec 10) : Statement (.ldHu x0 x1 x2) :=
  decode_of_fields _ (packM 0x18 x0 x1 x2 0x3#4) rfl
    ((decodeFields_18 _ (majorOf_packM ..)).trans (by
      simp only [rtM_packM, rbM_packM, dispM_packM, qM_packM]
      simp +decide [decode18, fn_ne_7_1, fn_ne_2_3, fn_ne_3_2, Instr.canonical])) rfl

theorem ldW (x0 : BitVec 6) (x1 : BitVec 6) (x2 : BitVec 10) : Statement (.ldW x0 x1 x2) :=
  decode_of_fields _ (packM 0x18 x0 x1 x2 0x4#4) rfl
    ((decodeFields_18 _ (majorOf_packM ..)).trans (by
      simp only [rtM_packM, rbM_packM, dispM_packM, qM_packM]
      simp +decide [decode18, fn_ne_7_1, fn_ne_2_3, fn_ne_3_2, Instr.canonical])) rfl

theorem ldWu (x0 : BitVec 6) (x1 : BitVec 6) (x2 : BitVec 10) : Statement (.ldWu x0 x1 x2) :=
  decode_of_fields _ (packM 0x18 x0 x1 x2 0x5#4) rfl
    ((decodeFields_18 _ (majorOf_packM ..)).trans (by
      simp only [rtM_packM, rbM_packM, dispM_packM, qM_packM]
      simp +decide [decode18, fn_ne_7_1, fn_ne_2_3, fn_ne_3_2, Instr.canonical])) rfl

theorem ldD (x0 : BitVec 6) (x1 : BitVec 6) (x2 : BitVec 10) : Statement (.ldD x0 x1 x2) :=
  decode_of_fields _ (packM 0x18 x0 x1 x2 0x6#4) rfl
    ((decodeFields_18 _ (majorOf_packM ..)).trans (by
      simp only [rtM_packM, rbM_packM, dispM_packM, qM_packM]
      simp +decide [decode18, fn_ne_7_1, fn_ne_2_3, fn_ne_3_2, Instr.canonical])) rfl

theorem stB (x0 : BitVec 6) (x1 : BitVec 6) (x2 : BitVec 10) : Statement (.stB x0 x1 x2) :=
  decode_of_fields _ (packM 0x19 x0 x1 x2 0x0#4) rfl
    ((decodeFields_19 _ (majorOf_packM ..)).trans (by
      simp only [rtM_packM, rbM_packM, dispM_packM, qM_packM]
      simp +decide [decode19, fn_ne_7_1, fn_ne_2_3, fn_ne_3_2, Instr.canonical])) rfl

theorem stH (x0 : BitVec 6) (x1 : BitVec 6) (x2 : BitVec 10) : Statement (.stH x0 x1 x2) :=
  decode_of_fields _ (packM 0x19 x0 x1 x2 0x2#4) rfl
    ((decodeFields_19 _ (majorOf_packM ..)).trans (by
      simp only [rtM_packM, rbM_packM, dispM_packM, qM_packM]
      simp +decide [decode19, fn_ne_7_1, fn_ne_2_3, fn_ne_3_2, Instr.canonical])) rfl

theorem stW (x0 : BitVec 6) (x1 : BitVec 6) (x2 : BitVec 10) : Statement (.stW x0 x1 x2) :=
  decode_of_fields _ (packM 0x19 x0 x1 x2 0x4#4) rfl
    ((decodeFields_19 _ (majorOf_packM ..)).trans (by
      simp only [rtM_packM, rbM_packM, dispM_packM, qM_packM]
      simp +decide [decode19, fn_ne_7_1, fn_ne_2_3, fn_ne_3_2, Instr.canonical])) rfl

theorem stD (x0 : BitVec 6) (x1 : BitVec 6) (x2 : BitVec 10) : Statement (.stD x0 x1 x2) :=
  decode_of_fields _ (packM 0x19 x0 x1 x2 0x6#4) rfl
    ((decodeFields_19 _ (majorOf_packM ..)).trans (by
      simp only [rtM_packM, rbM_packM, dispM_packM, qM_packM]
      simp +decide [decode19, fn_ne_7_1, fn_ne_2_3, fn_ne_3_2, Instr.canonical])) rfl

theorem ldc (x0 : BitVec 6) (x1 : BitVec 6) (x2 : BitVec 10) : Statement (.ldc x0 x1 x2) :=
  decode_of_fields _ (packM 0x1a x0 x1 x2 0x0#4) rfl
    ((decodeFields_1A _ (majorOf_packM ..)).trans (by
      simp only [rtM_packM, rbM_packM, dispM_packM, qM_packM]
      simp +decide [decode1A, fn_ne_7_1, fn_ne_2_3, fn_ne_3_2, Instr.canonical])) rfl

theorem stc (x0 : BitVec 6) (x1 : BitVec 6) (x2 : BitVec 10) : Statement (.stc x0 x1 x2) :=
  decode_of_fields _ (packM 0x1b x0 x1 x2 0x0#4) rfl
    ((decodeFields_1B _ (majorOf_packM ..)).trans (by
      simp only [rtM_packM, rbM_packM, dispM_packM, qM_packM]
      simp +decide [decode1B, fn_ne_7_1, fn_ne_2_3, fn_ne_3_2, Instr.canonical])) rfl

theorem lda (x0 : BitVec 6) (x1 : BitVec 6) (x2 : BitVec 3) (x3 : BitVec 2) (x4 : BitVec 1) : Statement (.lda x0 x1 x2 x3 x4) :=
  decode_of_fields _ (packM 0x1c x0 x1 (x2 ++ 0x0#7) (0x0#1 ++ x3 ++ x4)) rfl
    ((decodeFields_1C _ (majorOf_packM ..)).trans (by
      simp only [rtM_packM, rbM_packM, dispM_packM, qM_packM]
      simp +decide [decode1C, fn_ne_7_1, fn_ne_2_3, fn_ne_3_2, Instr.canonical])) rfl

theorem stl (x0 : BitVec 6) (x1 : BitVec 6) (x2 : BitVec 3) (x3 : BitVec 2) : Statement (.stl x0 x1 x2 x3) :=
  decode_of_fields _ (packM 0x1c x0 x1 (x2 ++ 0x0#7) (0x1#1 ++ x3 ++ 0x0#1)) rfl
    ((decodeFields_1C _ (majorOf_packM ..)).trans (by
      simp only [rtM_packM, rbM_packM, dispM_packM, qM_packM]
      simp +decide [decode1C, fn_ne_7_1, fn_ne_2_3, fn_ne_3_2, Instr.canonical])) rfl

theorem fence (x0 : BitVec 3) : Statement (.fence x0) :=
  decode_of_fields _ (packA 0x1d 0x0#6 0x0#6 0x0#6 (0x0#5 ++ x0)) rfl
    ((decodeFields_1D _ (majorOf_packA ..)).trans (by
      simp only [rdA_packA, raA_packA, rbA_packA, fnA_packA]
      simp +decide [decode1D, fn_ne_7_1, fn_ne_2_3, fn_ne_3_2, Instr.canonical])) rfl

theorem fenceSs (x0 : BitVec 3) : Statement (.fenceSs x0) :=
  decode_of_fields _ (packA 0x1d 0x0#6 0x0#6 0x0#6 (0x1#5 ++ x0)) rfl
    ((decodeFields_1D _ (majorOf_packA ..)).trans (by
      simp only [rdA_packA, raA_packA, rbA_packA, fnA_packA]
      simp +decide [decode1D, fn_ne_7_1, fn_ne_2_3, fn_ne_3_2, Instr.canonical])) rfl

theorem pref (x0 : BitVec 6) : Statement (.pref x0) :=
  decode_of_fields _ (packA 0x1d 0x0#6 x0 0x0#6 0x10#8) rfl
    ((decodeFields_1D _ (majorOf_packA ..)).trans (by
      simp only [rdA_packA, raA_packA, rbA_packA, fnA_packA]
      simp +decide [decode1D, fn_ne_7_1, fn_ne_2_3, fn_ne_3_2, Instr.canonical])) rfl

theorem cflush (x0 : BitVec 6) : Statement (.cflush x0) :=
  decode_of_fields _ (packA 0x1d 0x0#6 x0 0x0#6 0x11#8) rfl
    ((decodeFields_1D _ (majorOf_packA ..)).trans (by
      simp only [rdA_packA, raA_packA, rbA_packA, fnA_packA]
      simp +decide [decode1D, fn_ne_7_1, fn_ne_2_3, fn_ne_3_2, Instr.canonical])) rfl

theorem cinv (x0 : BitVec 6) : Statement (.cinv x0) :=
  decode_of_fields _ (packA 0x1d 0x0#6 x0 0x0#6 0x12#8) rfl
    ((decodeFields_1D _ (majorOf_packA ..)).trans (by
      simp only [rdA_packA, raA_packA, rbA_packA, fnA_packA]
      simp +decide [decode1D, fn_ne_7_1, fn_ne_2_3, fn_ne_3_2, Instr.canonical])) rfl

theorem czero (x0 : BitVec 6) : Statement (.czero x0) :=
  decode_of_fields _ (packA 0x1d 0x0#6 x0 0x0#6 0x13#8) rfl
    ((decodeFields_1D _ (majorOf_packA ..)).trans (by
      simp only [rdA_packA, raA_packA, rbA_packA, fnA_packA]
      simp +decide [decode1D, fn_ne_7_1, fn_ne_2_3, fn_ne_3_2, Instr.canonical])) rfl

theorem aadd (x0 : BitVec 6) (x1 : BitVec 6) (x2 : BitVec 6) (x3 : BitVec 4) : Statement (.aadd x0 x1 x2 x3) :=
  decode_of_fields _ (packA 0x1e x0 x1 x2 (0x0#4 ++ x3)) rfl
    ((decodeFields_1E _ (majorOf_packA ..)).trans (by
      simp only [rdA_packA, raA_packA, rbA_packA, fnA_packA]
      simp +decide [decode1E, fn_ne_7_1, fn_ne_2_3, fn_ne_3_2, Instr.canonical])) rfl

theorem aand (x0 : BitVec 6) (x1 : BitVec 6) (x2 : BitVec 6) (x3 : BitVec 4) : Statement (.aand x0 x1 x2 x3) :=
  decode_of_fields _ (packA 0x1e x0 x1 x2 (0x1#4 ++ x3)) rfl
    ((decodeFields_1E _ (majorOf_packA ..)).trans (by
      simp only [rdA_packA, raA_packA, rbA_packA, fnA_packA]
      simp +decide [decode1E, fn_ne_7_1, fn_ne_2_3, fn_ne_3_2, Instr.canonical])) rfl

theorem aor (x0 : BitVec 6) (x1 : BitVec 6) (x2 : BitVec 6) (x3 : BitVec 4) : Statement (.aor x0 x1 x2 x3) :=
  decode_of_fields _ (packA 0x1e x0 x1 x2 (0x2#4 ++ x3)) rfl
    ((decodeFields_1E _ (majorOf_packA ..)).trans (by
      simp only [rdA_packA, raA_packA, rbA_packA, fnA_packA]
      simp +decide [decode1E, fn_ne_7_1, fn_ne_2_3, fn_ne_3_2, Instr.canonical])) rfl

theorem axor (x0 : BitVec 6) (x1 : BitVec 6) (x2 : BitVec 6) (x3 : BitVec 4) : Statement (.axor x0 x1 x2 x3) :=
  decode_of_fields _ (packA 0x1e x0 x1 x2 (0x3#4 ++ x3)) rfl
    ((decodeFields_1E _ (majorOf_packA ..)).trans (by
      simp only [rdA_packA, raA_packA, rbA_packA, fnA_packA]
      simp +decide [decode1E, fn_ne_7_1, fn_ne_2_3, fn_ne_3_2, Instr.canonical])) rfl

theorem amin (x0 : BitVec 6) (x1 : BitVec 6) (x2 : BitVec 6) (x3 : BitVec 4) : Statement (.amin x0 x1 x2 x3) :=
  decode_of_fields _ (packA 0x1e x0 x1 x2 (0x4#4 ++ x3)) rfl
    ((decodeFields_1E _ (majorOf_packA ..)).trans (by
      simp only [rdA_packA, raA_packA, rbA_packA, fnA_packA]
      simp +decide [decode1E, fn_ne_7_1, fn_ne_2_3, fn_ne_3_2, Instr.canonical])) rfl

theorem amax (x0 : BitVec 6) (x1 : BitVec 6) (x2 : BitVec 6) (x3 : BitVec 4) : Statement (.amax x0 x1 x2 x3) :=
  decode_of_fields _ (packA 0x1e x0 x1 x2 (0x5#4 ++ x3)) rfl
    ((decodeFields_1E _ (majorOf_packA ..)).trans (by
      simp only [rdA_packA, raA_packA, rbA_packA, fnA_packA]
      simp +decide [decode1E, fn_ne_7_1, fn_ne_2_3, fn_ne_3_2, Instr.canonical])) rfl

theorem aminu (x0 : BitVec 6) (x1 : BitVec 6) (x2 : BitVec 6) (x3 : BitVec 4) : Statement (.aminu x0 x1 x2 x3) :=
  decode_of_fields _ (packA 0x1e x0 x1 x2 (0x6#4 ++ x3)) rfl
    ((decodeFields_1E _ (majorOf_packA ..)).trans (by
      simp only [rdA_packA, raA_packA, rbA_packA, fnA_packA]
      simp +decide [decode1E, fn_ne_7_1, fn_ne_2_3, fn_ne_3_2, Instr.canonical])) rfl

theorem amaxu (x0 : BitVec 6) (x1 : BitVec 6) (x2 : BitVec 6) (x3 : BitVec 4) : Statement (.amaxu x0 x1 x2 x3) :=
  decode_of_fields _ (packA 0x1e x0 x1 x2 (0x7#4 ++ x3)) rfl
    ((decodeFields_1E _ (majorOf_packA ..)).trans (by
      simp only [rdA_packA, raA_packA, rbA_packA, fnA_packA]
      simp +decide [decode1E, fn_ne_7_1, fn_ne_2_3, fn_ne_3_2, Instr.canonical])) rfl

theorem aswap (x0 : BitVec 6) (x1 : BitVec 6) (x2 : BitVec 6) (x3 : BitVec 4) : Statement (.aswap x0 x1 x2 x3) :=
  decode_of_fields _ (packA 0x1e x0 x1 x2 (0x8#4 ++ x3)) rfl
    ((decodeFields_1E _ (majorOf_packA ..)).trans (by
      simp only [rdA_packA, raA_packA, rbA_packA, fnA_packA]
      simp +decide [decode1E, fn_ne_7_1, fn_ne_2_3, fn_ne_3_2, Instr.canonical])) rfl

theorem acas (x0 : BitVec 6) (x1 : BitVec 6) (x2 : BitVec 6) (x3 : BitVec 4) : Statement (.acas x0 x1 x2 x3) :=
  decode_of_fields _ (packA 0x1e x0 x1 x2 (0x9#4 ++ x3)) rfl
    ((decodeFields_1E _ (majorOf_packA ..)).trans (by
      simp only [rdA_packA, raA_packA, rbA_packA, fnA_packA]
      simp +decide [decode1E, fn_ne_7_1, fn_ne_2_3, fn_ne_3_2, Instr.canonical])) rfl

theorem afadd (x0 : BitVec 6) (x1 : BitVec 6) (x2 : BitVec 6) (x3 : BitVec 4) : Statement (.afadd x0 x1 x2 x3) :=
  decode_of_fields _ (packA 0x1e x0 x1 x2 (0xa#4 ++ x3)) rfl
    ((decodeFields_1E _ (majorOf_packA ..)).trans (by
      simp only [rdA_packA, raA_packA, rbA_packA, fnA_packA]
      simp +decide [decode1E, fn_ne_7_1, fn_ne_2_3, fn_ne_3_2, Instr.canonical])) rfl

theorem lrw (x0 : BitVec 6) (x1 : BitVec 6) : Statement (.lrw x0 x1) :=
  decode_of_fields _ (packA 0x1f x0 x1 0x0#6 0x0#8) rfl
    ((decodeFields_1F _ (majorOf_packA ..)).trans (by
      simp only [rdA_packA, raA_packA, rbA_packA, fnA_packA]
      simp +decide [decode1F, fn_ne_7_1, fn_ne_2_3, fn_ne_3_2, Instr.canonical])) rfl

theorem sc (x0 : BitVec 6) (x1 : BitVec 6) (x2 : BitVec 6) : Statement (.sc x0 x1 x2) :=
  decode_of_fields _ (packA 0x1f x0 x1 x2 0x1#8) rfl
    ((decodeFields_1F _ (majorOf_packA ..)).trans (by
      simp only [rdA_packA, raA_packA, rbA_packA, fnA_packA]
      simp +decide [decode1F, fn_ne_7_1, fn_ne_2_3, fn_ne_3_2, Instr.canonical])) rfl

theorem xbegin (x0 : BitVec 6) : Statement (.xbegin x0) :=
  decode_of_fields _ (packA 0x20 x0 0x0#6 0x0#6 0x0#8) rfl
    ((decodeFields_20 _ (majorOf_packA ..)).trans (by
      simp only [rdA_packA, raA_packA, rbA_packA, fnA_packA]
      simp +decide [decode20, fn_ne_7_1, fn_ne_2_3, fn_ne_3_2, Instr.canonical])) rfl

theorem xend  : Statement (.xend) :=
  decode_of_fields _ (packA 0x20 0x0#6 0x0#6 0x0#6 0x1#8) rfl
    ((decodeFields_20 _ (majorOf_packA ..)).trans (by
      simp only [rdA_packA, raA_packA, rbA_packA, fnA_packA]
      simp +decide [decode20, fn_ne_7_1, fn_ne_2_3, fn_ne_3_2, Instr.canonical])) rfl

theorem xabort (x0 : BitVec 8) : Statement (.xabort x0) :=
  decode_of_fields _ (packA 0x20 0x0#6 (0x0#4 ++ x0.extractLsb' 6 2) (x0.extractLsb' 0 6) 0x2#8) rfl
    ((decodeFields_20 _ (majorOf_packA ..)).trans (by
      simp only [rdA_packA, raA_packA, rbA_packA, fnA_packA]
      simp +decide [decode20, fn_ne_7_1, fn_ne_2_3, fn_ne_3_2, Instr.canonical])) rfl

theorem xtest (x0 : BitVec 6) : Statement (.xtest x0) :=
  decode_of_fields _ (packA 0x20 x0 0x0#6 0x0#6 0x3#8) rfl
    ((decodeFields_20 _ (majorOf_packA ..)).trans (by
      simp only [rdA_packA, raA_packA, rbA_packA, fnA_packA]
      simp +decide [decode20, fn_ne_7_1, fn_ne_2_3, fn_ne_3_2, Instr.canonical])) rfl

theorem xredAdd (x0 : BitVec 6) (x1 : BitVec 6) (x2 : BitVec 1) : Statement (.xredAdd x0 x1 x2) :=
  decode_of_fields _ (packA 0x20 0x0#6 x0 x1 (0x8#7 ++ x2)) rfl
    ((decodeFields_20 _ (majorOf_packA ..)).trans (by
      simp only [rdA_packA, raA_packA, rbA_packA, fnA_packA]
      simp +decide [decode20, fn_ne_7_1, fn_ne_2_3, fn_ne_3_2, Instr.canonical])) rfl

theorem xredFadd (x0 : BitVec 6) (x1 : BitVec 6) (x2 : BitVec 1) : Statement (.xredFadd x0 x1 x2) :=
  decode_of_fields _ (packA 0x20 0x0#6 x0 x1 (0xa#7 ++ x2)) rfl
    ((decodeFields_20 _ (majorOf_packA ..)).trans (by
      simp only [rdA_packA, raA_packA, rbA_packA, fnA_packA]
      simp +decide [decode20, fn_ne_7_1, fn_ne_2_3, fn_ne_3_2, Instr.canonical])) rfl

theorem xredMin (x0 : BitVec 6) (x1 : BitVec 6) (x2 : BitVec 1) : Statement (.xredMin x0 x1 x2) :=
  decode_of_fields _ (packA 0x20 0x0#6 x0 x1 (0xc#7 ++ x2)) rfl
    ((decodeFields_20 _ (majorOf_packA ..)).trans (by
      simp only [rdA_packA, raA_packA, rbA_packA, fnA_packA]
      simp +decide [decode20, fn_ne_7_1, fn_ne_2_3, fn_ne_3_2, Instr.canonical])) rfl

theorem xredMax (x0 : BitVec 6) (x1 : BitVec 6) (x2 : BitVec 1) : Statement (.xredMax x0 x1 x2) :=
  decode_of_fields _ (packA 0x20 0x0#6 x0 x1 (0xe#7 ++ x2)) rfl
    ((decodeFields_20 _ (majorOf_packA ..)).trans (by
      simp only [rdA_packA, raA_packA, rbA_packA, fnA_packA]
      simp +decide [decode20, fn_ne_7_1, fn_ne_2_3, fn_ne_3_2, Instr.canonical])) rfl

theorem sbind (x0 : BitVec 6) (x1 : BitVec 6) : Statement (.sbind x0 x1) :=
  decode_of_fields _ (packA 0x21 x0 x1 0x0#6 0x0#8) rfl
    ((decodeFields_21 _ (majorOf_packA ..)).trans (by
      simp only [rdA_packA, raA_packA, rbA_packA, fnA_packA]
      simp +decide [decode21, fn_ne_7_1, fn_ne_2_3, fn_ne_3_2, Instr.canonical])) rfl

theorem sbindr (x0 : BitVec 6) (x1 : BitVec 6) (x2 : BitVec 6) : Statement (.sbindr x0 x1 x2) :=
  decode_of_fields _ (packA 0x21 x0 x1 x2 0x1#8) rfl
    ((decodeFields_21 _ (majorOf_packA ..)).trans (by
      simp only [rdA_packA, raA_packA, rbA_packA, fnA_packA]
      simp +decide [decode21, fn_ne_7_1, fn_ne_2_3, fn_ne_3_2, Instr.canonical])) rfl

theorem sfifoCons (x0 : BitVec 6) (x1 : BitVec 6) : Statement (.sfifoCons x0 x1) :=
  decode_of_fields _ (packA 0x21 x0 x1 0x0#6 0x2#8) rfl
    ((decodeFields_21 _ (majorOf_packA ..)).trans (by
      simp only [rdA_packA, raA_packA, rbA_packA, fnA_packA]
      simp +decide [decode21, fn_ne_7_1, fn_ne_2_3, fn_ne_3_2, Instr.canonical])) rfl

theorem sfifoProd (x0 : BitVec 6) (x1 : BitVec 6) : Statement (.sfifoProd x0 x1) :=
  decode_of_fields _ (packA 0x21 x0 x1 0x1#6 0x2#8) rfl
    ((decodeFields_21 _ (majorOf_packA ..)).trans (by
      simp only [rdA_packA, raA_packA, rbA_packA, fnA_packA]
      simp +decide [decode21, fn_ne_7_1, fn_ne_2_3, fn_ne_3_2, Instr.canonical])) rfl

theorem sunbind (x0 : BitVec 6) : Statement (.sunbind x0) :=
  decode_of_fields _ (packA 0x21 x0 0x0#6 0x0#6 0x3#8) rfl
    ((decodeFields_21 _ (majorOf_packA ..)).trans (by
      simp only [rdA_packA, raA_packA, rbA_packA, fnA_packA]
      simp +decide [decode21, fn_ne_7_1, fn_ne_2_3, fn_ne_3_2, Instr.canonical])) rfl

theorem sadv (x0 : BitVec 6) : Statement (.sadv x0) :=
  decode_of_fields _ (packA 0x21 x0 0x0#6 0x0#6 0x4#8) rfl
    ((decodeFields_21 _ (majorOf_packA ..)).trans (by
      simp only [rdA_packA, raA_packA, rbA_packA, fnA_packA]
      simp +decide [decode21, fn_ne_7_1, fn_ne_2_3, fn_ne_3_2, Instr.canonical])) rfl

theorem sstat (x0 : BitVec 6) (x1 : BitVec 6) : Statement (.sstat x0 x1) :=
  decode_of_fields _ (packA 0x21 x0 x1 0x0#6 0x5#8) rfl
    ((decodeFields_21 _ (majorOf_packA ..)).trans (by
      simp only [rdA_packA, raA_packA, rbA_packA, fnA_packA]
      simp +decide [decode21, fn_ne_7_1, fn_ne_2_3, fn_ne_3_2, Instr.canonical])) rfl

theorem bmov (x0 : BitVec 6) (x1 : BitVec 6) (x2 : BitVec 6) : Statement (.bmov x0 x1 x2) :=
  decode_of_fields _ (packA 0x21 x0 x1 x2 0x8#8) rfl
    ((decodeFields_21 _ (majorOf_packA ..)).trans (by
      simp only [rdA_packA, raA_packA, rbA_packA, fnA_packA]
      simp +decide [decode21, fn_ne_7_1, fn_ne_2_3, fn_ne_3_2, Instr.canonical])) rfl

theorem bfill (x0 : BitVec 6) (x1 : BitVec 6) (x2 : BitVec 6) : Statement (.bfill x0 x1 x2) :=
  decode_of_fields _ (packA 0x21 x0 x1 x2 0x9#8) rfl
    ((decodeFields_21 _ (majorOf_packA ..)).trans (by
      simp only [rdA_packA, raA_packA, rbA_packA, fnA_packA]
      simp +decide [decode21, fn_ne_7_1, fn_ne_2_3, fn_ne_3_2, Instr.canonical])) rfl

theorem send (x0 : BitVec 6) (x1 : BitVec 6) (x2 : BitVec 6) : Statement (.send x0 x1 x2) :=
  decode_of_fields _ (packA 0x22 x0 x1 x2 0x0#8) rfl
    ((decodeFields_22 _ (majorOf_packA ..)).trans (by
      simp only [rdA_packA, raA_packA, rbA_packA, fnA_packA]
      simp +decide [decode22, fn_ne_7_1, fn_ne_2_3, fn_ne_3_2, Instr.canonical])) rfl

theorem sendo (x0 : BitVec 6) (x1 : BitVec 6) (x2 : BitVec 6) : Statement (.sendo x0 x1 x2) :=
  decode_of_fields _ (packA 0x22 x0 x1 x2 0x1#8) rfl
    ((decodeFields_22 _ (majorOf_packA ..)).trans (by
      simp only [rdA_packA, raA_packA, rbA_packA, fnA_packA]
      simp +decide [decode22, fn_ne_7_1, fn_ne_2_3, fn_ne_3_2, Instr.canonical])) rfl

theorem sendr (x0 : BitVec 6) (x1 : BitVec 6) (x2 : BitVec 6) : Statement (.sendr x0 x1 x2) :=
  decode_of_fields _ (packA 0x22 x0 x1 x2 0x2#8) rfl
    ((decodeFields_22 _ (majorOf_packA ..)).trans (by
      simp only [rdA_packA, raA_packA, rbA_packA, fnA_packA]
      simp +decide [decode22, fn_ne_7_1, fn_ne_2_3, fn_ne_3_2, Instr.canonical])) rfl

theorem put (x0 : BitVec 6) (x1 : BitVec 6) (x2 : BitVec 6) : Statement (.put x0 x1 x2) :=
  decode_of_fields _ (packA 0x22 x0 x1 x2 0x3#8) rfl
    ((decodeFields_22 _ (majorOf_packA ..)).trans (by
      simp only [rdA_packA, raA_packA, rbA_packA, fnA_packA]
      simp +decide [decode22, fn_ne_7_1, fn_ne_2_3, fn_ne_3_2, Instr.canonical])) rfl

theorem get (x0 : BitVec 6) (x1 : BitVec 6) : Statement (.get x0 x1) :=
  decode_of_fields _ (packA 0x22 x0 x1 0x0#6 0x4#8) rfl
    ((decodeFields_22 _ (majorOf_packA ..)).trans (by
      simp only [rdA_packA, raA_packA, rbA_packA, fnA_packA]
      simp +decide [decode22, fn_ne_7_1, fn_ne_2_3, fn_ne_3_2, Instr.canonical])) rfl

theorem flushrd (x0 : BitVec 6) (x1 : BitVec 6) : Statement (.flushrd x0 x1) :=
  decode_of_fields _ (packA 0x22 x0 x1 0x0#6 0x5#8) rfl
    ((decodeFields_22 _ (majorOf_packA ..)).trans (by
      simp only [rdA_packA, raA_packA, rbA_packA, fnA_packA]
      simp +decide [decode22, fn_ne_7_1, fn_ne_2_3, fn_ne_3_2, Instr.canonical])) rfl

theorem waitm (x0 : BitVec 6) (x1 : BitVec 6) : Statement (.waitm x0 x1) :=
  decode_of_fields _ (packA 0x22 x0 x1 0x0#6 0x6#8) rfl
    ((decodeFields_22 _ (majorOf_packA ..)).trans (by
      simp only [rdA_packA, raA_packA, rbA_packA, fnA_packA]
      simp +decide [decode22, fn_ne_7_1, fn_ne_2_3, fn_ne_3_2, Instr.canonical])) rfl

theorem recvm (x0 : BitVec 6) (x1 : BitVec 6) (x2 : BitVec 6) : Statement (.recvm x0 x1 x2) :=
  decode_of_fields _ (packA 0x22 x0 x1 x2 0x7#8) rfl
    ((decodeFields_22 _ (majorOf_packA ..)).trans (by
      simp only [rdA_packA, raA_packA, rbA_packA, fnA_packA]
      simp +decide [decode22, fn_ne_7_1, fn_ne_2_3, fn_ne_3_2, Instr.canonical])) rfl

theorem peekm (x0 : BitVec 6) (x1 : BitVec 6) : Statement (.peekm x0 x1) :=
  decode_of_fields _ (packA 0x22 x0 x1 0x0#6 0x8#8) rfl
    ((decodeFields_22 _ (majorOf_packA ..)).trans (by
      simp only [rdA_packA, raA_packA, rbA_packA, fnA_packA]
      simp +decide [decode22, fn_ne_7_1, fn_ne_2_3, fn_ne_3_2, Instr.canonical])) rfl

theorem pmcfg (x0 : BitVec 6) (x1 : BitVec 6) (x2 : BitVec 6) : Statement (.pmcfg x0 x1 x2) :=
  decode_of_fields _ (packA 0x23 x0 x1 x2 0x0#8) rfl
    ((decodeFields_23 _ (majorOf_packA ..)).trans (by
      simp only [rdA_packA, raA_packA, rbA_packA, fnA_packA]
      simp +decide [decode23, fn_ne_7_1, fn_ne_2_3, fn_ne_3_2, Instr.canonical])) rfl

theorem pmpost (x0 : BitVec 6) : Statement (.pmpost x0) :=
  decode_of_fields _ (packA 0x23 0x0#6 x0 0x0#6 0x1#8) rfl
    ((decodeFields_23 _ (majorOf_packA ..)).trans (by
      simp only [rdA_packA, raA_packA, rbA_packA, fnA_packA]
      simp +decide [decode23, fn_ne_7_1, fn_ne_2_3, fn_ne_3_2, Instr.canonical])) rfl

theorem pmdrain (x0 : BitVec 6) (x1 : BitVec 6) (x2 : BitVec 6) : Statement (.pmdrain x0 x1 x2) :=
  decode_of_fields _ (packA 0x23 x0 x1 x2 0x2#8) rfl
    ((decodeFields_23 _ (majorOf_packA ..)).trans (by
      simp only [rdA_packA, raA_packA, rbA_packA, fnA_packA]
      simp +decide [decode23, fn_ne_7_1, fn_ne_2_3, fn_ne_3_2, Instr.canonical])) rfl

theorem hcopy (x0 : BitVec 6) (x1 : BitVec 6) : Statement (.hcopy x0 x1) :=
  decode_of_fields _ (packA 0x24 x0 x1 0x0#6 0x0#8) rfl
    ((decodeFields_24 _ (majorOf_packA ..)).trans (by
      simp only [rdA_packA, raA_packA, rbA_packA, fnA_packA]
      simp +decide [decode24, fn_ne_7_1, fn_ne_2_3, fn_ne_3_2, Instr.canonical])) rfl

theorem hfill (x0 : BitVec 6) (x1 : BitVec 6) (x2 : BitVec 6) : Statement (.hfill x0 x1 x2) :=
  decode_of_fields _ (packA 0x24 x0 x1 x2 0x1#8) rfl
    ((decodeFields_24 _ (majorOf_packA ..)).trans (by
      simp only [rdA_packA, raA_packA, rbA_packA, fnA_packA]
      simp +decide [decode24, fn_ne_7_1, fn_ne_2_3, fn_ne_3_2, Instr.canonical])) rfl

theorem hgathSum (x0 : BitVec 6) (x1 : BitVec 6) (x2 : BitVec 6) : Statement (.hgathSum x0 x1 x2) :=
  decode_of_fields _ (packA 0x24 x0 x1 x2 0x2#8) rfl
    ((decodeFields_24 _ (majorOf_packA ..)).trans (by
      simp only [rdA_packA, raA_packA, rbA_packA, fnA_packA]
      simp +decide [decode24, fn_ne_7_1, fn_ne_2_3, fn_ne_3_2, Instr.canonical])) rfl

theorem hgathMean (x0 : BitVec 6) (x1 : BitVec 6) (x2 : BitVec 6) : Statement (.hgathMean x0 x1 x2) :=
  decode_of_fields _ (packA 0x24 x0 x1 x2 0x3#8) rfl
    ((decodeFields_24 _ (majorOf_packA ..)).trans (by
      simp only [rdA_packA, raA_packA, rbA_packA, fnA_packA]
      simp +decide [decode24, fn_ne_7_1, fn_ne_2_3, fn_ne_3_2, Instr.canonical])) rfl

theorem hscat (x0 : BitVec 6) (x1 : BitVec 6) (x2 : BitVec 6) : Statement (.hscat x0 x1 x2) :=
  decode_of_fields _ (packA 0x24 x0 x1 x2 0x4#8) rfl
    ((decodeFields_24 _ (majorOf_packA ..)).trans (by
      simp only [rdA_packA, raA_packA, rbA_packA, fnA_packA]
      simp +decide [decode24, fn_ne_7_1, fn_ne_2_3, fn_ne_3_2, Instr.canonical])) rfl

theorem dpush (x0 : BitVec 6) (x1 : BitVec 6) (x2 : BitVec 6) : Statement (.dpush x0 x1 x2) :=
  decode_of_fields _ (packA 0x25 x0 x1 x2 0x0#8) rfl
    ((decodeFields_25 _ (majorOf_packA ..)).trans (by
      simp only [rdA_packA, raA_packA, rbA_packA, fnA_packA]
      simp +decide [decode25, fn_ne_7_1, fn_ne_2_3, fn_ne_3_2, Instr.canonical])) rfl

theorem dpop (x0 : BitVec 6) (x1 : BitVec 6) : Statement (.dpop x0 x1) :=
  decode_of_fields _ (packA 0x25 x0 x1 0x0#6 0x1#8) rfl
    ((decodeFields_25 _ (majorOf_packA ..)).trans (by
      simp only [rdA_packA, raA_packA, rbA_packA, fnA_packA]
      simp +decide [decode25, fn_ne_7_1, fn_ne_2_3, fn_ne_3_2, Instr.canonical])) rfl

theorem dsplit (x0 : BitVec 6) (x1 : BitVec 6) : Statement (.dsplit x0 x1) :=
  decode_of_fields _ (packA 0x25 x0 x1 0x0#6 0x2#8) rfl
    ((decodeFields_25 _ (majorOf_packA ..)).trans (by
      simp only [rdA_packA, raA_packA, rbA_packA, fnA_packA]
      simp +decide [decode25, fn_ne_7_1, fn_ne_2_3, fn_ne_3_2, Instr.canonical])) rfl

theorem dstealCluster (x0 : BitVec 6) : Statement (.dstealCluster x0) :=
  decode_of_fields _ (packA 0x25 x0 0x0#6 0x0#6 0x3#8) rfl
    ((decodeFields_25 _ (majorOf_packA ..)).trans (by
      simp only [rdA_packA, raA_packA, rbA_packA, fnA_packA]
      simp +decide [decode25, fn_ne_7_1, fn_ne_2_3, fn_ne_3_2, Instr.canonical])) rfl

theorem dstealSite (x0 : BitVec 6) : Statement (.dstealSite x0) :=
  decode_of_fields _ (packA 0x25 x0 0x0#6 0x0#6 0x4#8) rfl
    ((decodeFields_25 _ (majorOf_packA ..)).trans (by
      simp only [rdA_packA, raA_packA, rbA_packA, fnA_packA]
      simp +decide [decode25, fn_ne_7_1, fn_ne_2_3, fn_ne_3_2, Instr.canonical])) rfl

theorem dstealGrid (x0 : BitVec 6) : Statement (.dstealGrid x0) :=
  decode_of_fields _ (packA 0x25 x0 0x0#6 0x0#6 0x5#8) rfl
    ((decodeFields_25 _ (majorOf_packA ..)).trans (by
      simp only [rdA_packA, raA_packA, rbA_packA, fnA_packA]
      simp +decide [decode25, fn_ne_7_1, fn_ne_2_3, fn_ne_3_2, Instr.canonical])) rfl

theorem dcount (x0 : BitVec 6) : Statement (.dcount x0) :=
  decode_of_fields _ (packA 0x25 x0 0x0#6 0x0#6 0x6#8) rfl
    ((decodeFields_25 _ (majorOf_packA ..)).trans (by
      simp only [rdA_packA, raA_packA, rbA_packA, fnA_packA]
      simp +decide [decode25, fn_ne_7_1, fn_ne_2_3, fn_ne_3_2, Instr.canonical])) rfl

theorem mpath (x0 : BitVec 6) (x1 : BitVec 6) (x2 : BitVec 6) : Statement (.mpath x0 x1 x2) :=
  decode_of_fields _ (packA 0x25 x0 x1 x2 0x8#8) rfl
    ((decodeFields_25 _ (majorOf_packA ..)).trans (by
      simp only [rdA_packA, raA_packA, rbA_packA, fnA_packA]
      simp +decide [decode25, fn_ne_7_1, fn_ne_2_3, fn_ne_3_2, Instr.canonical])) rfl

theorem gjoin (x0 : BitVec 6) (x1 : BitVec 6) : Statement (.gjoin x0 x1) :=
  decode_of_fields _ (packA 0x26 x0 x1 0x0#6 0x0#8) rfl
    ((decodeFields_26 _ (majorOf_packA ..)).trans (by
      simp only [rdA_packA, raA_packA, rbA_packA, fnA_packA]
      simp +decide [decode26, fn_ne_7_1, fn_ne_2_3, fn_ne_3_2, Instr.canonical])) rfl

theorem gleave (x0 : BitVec 6) (x1 : BitVec 6) : Statement (.gleave x0 x1) :=
  decode_of_fields _ (packA 0x26 x0 x1 0x0#6 0x1#8) rfl
    ((decodeFields_26 _ (majorOf_packA ..)).trans (by
      simp only [rdA_packA, raA_packA, rbA_packA, fnA_packA]
      simp +decide [decode26, fn_ne_7_1, fn_ne_2_3, fn_ne_3_2, Instr.canonical])) rfl

theorem binit (x0 : BitVec 6) (x1 : BitVec 6) (x2 : BitVec 6) : Statement (.binit x0 x1 x2) :=
  decode_of_fields _ (packA 0x26 x0 x1 x2 0x2#8) rfl
    ((decodeFields_26 _ (majorOf_packA ..)).trans (by
      simp only [rdA_packA, raA_packA, rbA_packA, fnA_packA]
      simp +decide [decode26, fn_ne_7_1, fn_ne_2_3, fn_ne_3_2, Instr.canonical])) rfl

theorem barr (x0 : BitVec 6) (x1 : BitVec 6) : Statement (.barr x0 x1) :=
  decode_of_fields _ (packA 0x26 0x0#6 x0 x1 0x3#8) rfl
    ((decodeFields_26 _ (majorOf_packA ..)).trans (by
      simp only [rdA_packA, raA_packA, rbA_packA, fnA_packA]
      simp +decide [decode26, fn_ne_7_1, fn_ne_2_3, fn_ne_3_2, Instr.canonical])) rfl

theorem bwait (x0 : BitVec 6) : Statement (.bwait x0) :=
  decode_of_fields _ (packA 0x26 x0 0x0#6 0x0#6 0x4#8) rfl
    ((decodeFields_26 _ (majorOf_packA ..)).trans (by
      simp only [rdA_packA, raA_packA, rbA_packA, fnA_packA]
      simp +decide [decode26, fn_ne_7_1, fn_ne_2_3, fn_ne_3_2, Instr.canonical])) rfl

theorem bstat (x0 : BitVec 6) (x1 : BitVec 6) : Statement (.bstat x0 x1) :=
  decode_of_fields _ (packA 0x26 x0 x1 0x0#6 0x5#8) rfl
    ((decodeFields_26 _ (majorOf_packA ..)).trans (by
      simp only [rdA_packA, raA_packA, rbA_packA, fnA_packA]
      simp +decide [decode26, fn_ne_7_1, fn_ne_2_3, fn_ne_3_2, Instr.canonical])) rfl

theorem plread (x0 : BitVec 6) (x1 : BitVec 6) (x2 : BitVec 6) : Statement (.plread x0 x1 x2) :=
  decode_of_fields _ (packA 0x26 x0 x1 x2 0x6#8) rfl
    ((decodeFields_26 _ (majorOf_packA ..)).trans (by
      simp only [rdA_packA, raA_packA, rbA_packA, fnA_packA]
      simp +decide [decode26, fn_ne_7_1, fn_ne_2_3, fn_ne_3_2, Instr.canonical])) rfl

theorem plcfg (x0 : BitVec 6) (x1 : BitVec 6) (x2 : BitVec 6) : Statement (.plcfg x0 x1 x2) :=
  decode_of_fields _ (packA 0x26 x0 x1 x2 0x7#8) rfl
    ((decodeFields_26 _ (majorOf_packA ..)).trans (by
      simp only [rdA_packA, raA_packA, rbA_packA, fnA_packA]
      simp +decide [decode26, fn_ne_7_1, fn_ne_2_3, fn_ne_3_2, Instr.canonical])) rfl

theorem gnode (x0 : BitVec 6) (x1 : BitVec 6) : Statement (.gnode x0 x1) :=
  decode_of_fields _ (packA 0x27 x0 x1 0x0#6 0x0#8) rfl
    ((decodeFields_27 _ (majorOf_packA ..)).trans (by
      simp only [rdA_packA, raA_packA, rbA_packA, fnA_packA]
      simp +decide [decode27, fn_ne_7_1, fn_ne_2_3, fn_ne_3_2, Instr.canonical])) rfl

theorem gdec (x0 : BitVec 6) (x1 : BitVec 6) : Statement (.gdec x0 x1) :=
  decode_of_fields _ (packA 0x27 x0 x1 0x0#6 0x1#8) rfl
    ((decodeFields_27 _ (majorOf_packA ..)).trans (by
      simp only [rdA_packA, raA_packA, rbA_packA, fnA_packA]
      simp +decide [decode27, fn_ne_7_1, fn_ne_2_3, fn_ne_3_2, Instr.canonical])) rfl

theorem vld (x0 : BitVec 6) (x1 : BitVec 6) (x2 : BitVec 3) (x3 : BitVec 2) : Statement (.vld x0 x1 x2 x3) :=
  decode_of_fields _ (packV 0x28 x0 x1 0x0#6 x2 (0x0#3 ++ x3)) rfl
    ((decodeFields_28 _ (majorOf_packV ..)).trans (by
      simp only [vdV_packV, vaV_packV, vbV_packV, mkV_packV, fnV_packV]
      simp +decide [decode28, fn_ne_7_1, fn_ne_2_3, fn_ne_3_2, Instr.canonical])) rfl

theorem vst (x0 : BitVec 6) (x1 : BitVec 6) (x2 : BitVec 3) (x3 : BitVec 2) : Statement (.vst x0 x1 x2 x3) :=
  decode_of_fields _ (packV 0x28 x0 x1 0x0#6 x2 (0x1#3 ++ x3)) rfl
    ((decodeFields_28 _ (majorOf_packV ..)).trans (by
      simp only [vdV_packV, vaV_packV, vbV_packV, mkV_packV, fnV_packV]
      simp +decide [decode28, fn_ne_7_1, fn_ne_2_3, fn_ne_3_2, Instr.canonical])) rfl

theorem vlds (x0 : BitVec 6) (x1 : BitVec 6) (x2 : BitVec 6) (x3 : BitVec 3) (x4 : BitVec 2) : Statement (.vlds x0 x1 x2 x3 x4) :=
  decode_of_fields _ (packV 0x28 x0 x1 x2 x3 (0x2#3 ++ x4)) rfl
    ((decodeFields_28 _ (majorOf_packV ..)).trans (by
      simp only [vdV_packV, vaV_packV, vbV_packV, mkV_packV, fnV_packV]
      simp +decide [decode28, fn_ne_7_1, fn_ne_2_3, fn_ne_3_2, Instr.canonical])) rfl

theorem vsts (x0 : BitVec 6) (x1 : BitVec 6) (x2 : BitVec 6) (x3 : BitVec 3) (x4 : BitVec 2) : Statement (.vsts x0 x1 x2 x3 x4) :=
  decode_of_fields _ (packV 0x28 x0 x1 x2 x3 (0x3#3 ++ x4)) rfl
    ((decodeFields_28 _ (majorOf_packV ..)).trans (by
      simp only [vdV_packV, vaV_packV, vbV_packV, mkV_packV, fnV_packV]
      simp +decide [decode28, fn_ne_7_1, fn_ne_2_3, fn_ne_3_2, Instr.canonical])) rfl

theorem vgath (x0 : BitVec 6) (x1 : BitVec 6) (x2 : BitVec 6) (x3 : BitVec 3) (x4 : BitVec 2) : Statement (.vgath x0 x1 x2 x3 x4) :=
  decode_of_fields _ (packV 0x28 x0 x1 x2 x3 (0x4#3 ++ x4)) rfl
    ((decodeFields_28 _ (majorOf_packV ..)).trans (by
      simp only [vdV_packV, vaV_packV, vbV_packV, mkV_packV, fnV_packV]
      simp +decide [decode28, fn_ne_7_1, fn_ne_2_3, fn_ne_3_2, Instr.canonical])) rfl

theorem vscat (x0 : BitVec 6) (x1 : BitVec 6) (x2 : BitVec 6) (x3 : BitVec 3) (x4 : BitVec 2) : Statement (.vscat x0 x1 x2 x3 x4) :=
  decode_of_fields _ (packV 0x28 x0 x1 x2 x3 (0x5#3 ++ x4)) rfl
    ((decodeFields_28 _ (majorOf_packV ..)).trans (by
      simp only [vdV_packV, vaV_packV, vbV_packV, mkV_packV, fnV_packV]
      simp +decide [decode28, fn_ne_7_1, fn_ne_2_3, fn_ne_3_2, Instr.canonical])) rfl

theorem vldbc (x0 : BitVec 6) (x1 : BitVec 6) (x2 : BitVec 3) (x3 : BitVec 2) : Statement (.vldbc x0 x1 x2 x3) :=
  decode_of_fields _ (packV 0x28 x0 x1 0x0#6 x2 (0x6#3 ++ x3)) rfl
    ((decodeFields_28 _ (majorOf_packV ..)).trans (by
      simp only [vdV_packV, vaV_packV, vbV_packV, mkV_packV, fnV_packV]
      simp +decide [decode28, fn_ne_7_1, fn_ne_2_3, fn_ne_3_2, Instr.canonical])) rfl

theorem vadd (x0 : BitVec 6) (x1 : BitVec 6) (x2 : BitVec 6) (x3 : BitVec 3) (x4 : BitVec 2) : Statement (.vadd x0 x1 x2 x3 x4) :=
  decode_of_fields _ (packV 0x29 x0 x1 x2 x3 (0x0#3 ++ x4)) rfl
    ((decodeFields_29 _ (majorOf_packV ..)).trans (by
      simp only [vdV_packV, vaV_packV, vbV_packV, mkV_packV, fnV_packV]
      simp +decide [decode29, fn_ne_7_1, fn_ne_2_3, fn_ne_3_2, Instr.canonical])) rfl

theorem vsub (x0 : BitVec 6) (x1 : BitVec 6) (x2 : BitVec 6) (x3 : BitVec 3) (x4 : BitVec 2) : Statement (.vsub x0 x1 x2 x3 x4) :=
  decode_of_fields _ (packV 0x29 x0 x1 x2 x3 (0x1#3 ++ x4)) rfl
    ((decodeFields_29 _ (majorOf_packV ..)).trans (by
      simp only [vdV_packV, vaV_packV, vbV_packV, mkV_packV, fnV_packV]
      simp +decide [decode29, fn_ne_7_1, fn_ne_2_3, fn_ne_3_2, Instr.canonical])) rfl

theorem vmul (x0 : BitVec 6) (x1 : BitVec 6) (x2 : BitVec 6) (x3 : BitVec 3) (x4 : BitVec 2) : Statement (.vmul x0 x1 x2 x3 x4) :=
  decode_of_fields _ (packV 0x29 x0 x1 x2 x3 (0x2#3 ++ x4)) rfl
    ((decodeFields_29 _ (majorOf_packV ..)).trans (by
      simp only [vdV_packV, vaV_packV, vbV_packV, mkV_packV, fnV_packV]
      simp +decide [decode29, fn_ne_7_1, fn_ne_2_3, fn_ne_3_2, Instr.canonical])) rfl

theorem vmulh (x0 : BitVec 6) (x1 : BitVec 6) (x2 : BitVec 6) (x3 : BitVec 3) (x4 : BitVec 2) : Statement (.vmulh x0 x1 x2 x3 x4) :=
  decode_of_fields _ (packV 0x29 x0 x1 x2 x3 (0x3#3 ++ x4)) rfl
    ((decodeFields_29 _ (majorOf_packV ..)).trans (by
      simp only [vdV_packV, vaV_packV, vbV_packV, mkV_packV, fnV_packV]
      simp +decide [decode29, fn_ne_7_1, fn_ne_2_3, fn_ne_3_2, Instr.canonical])) rfl

theorem vshl (x0 : BitVec 6) (x1 : BitVec 6) (x2 : BitVec 6) (x3 : BitVec 3) (x4 : BitVec 2) : Statement (.vshl x0 x1 x2 x3 x4) :=
  decode_of_fields _ (packV 0x29 x0 x1 x2 x3 (0x4#3 ++ x4)) rfl
    ((decodeFields_29 _ (majorOf_packV ..)).trans (by
      simp only [vdV_packV, vaV_packV, vbV_packV, mkV_packV, fnV_packV]
      simp +decide [decode29, fn_ne_7_1, fn_ne_2_3, fn_ne_3_2, Instr.canonical])) rfl

theorem vshr (x0 : BitVec 6) (x1 : BitVec 6) (x2 : BitVec 6) (x3 : BitVec 3) (x4 : BitVec 2) : Statement (.vshr x0 x1 x2 x3 x4) :=
  decode_of_fields _ (packV 0x29 x0 x1 x2 x3 (0x5#3 ++ x4)) rfl
    ((decodeFields_29 _ (majorOf_packV ..)).trans (by
      simp only [vdV_packV, vaV_packV, vbV_packV, mkV_packV, fnV_packV]
      simp +decide [decode29, fn_ne_7_1, fn_ne_2_3, fn_ne_3_2, Instr.canonical])) rfl

theorem vsra (x0 : BitVec 6) (x1 : BitVec 6) (x2 : BitVec 6) (x3 : BitVec 3) (x4 : BitVec 2) : Statement (.vsra x0 x1 x2 x3 x4) :=
  decode_of_fields _ (packV 0x29 x0 x1 x2 x3 (0x6#3 ++ x4)) rfl
    ((decodeFields_29 _ (majorOf_packV ..)).trans (by
      simp only [vdV_packV, vaV_packV, vbV_packV, mkV_packV, fnV_packV]
      simp +decide [decode29, fn_ne_7_1, fn_ne_2_3, fn_ne_3_2, Instr.canonical])) rfl

theorem vand (x0 : BitVec 6) (x1 : BitVec 6) (x2 : BitVec 6) (x3 : BitVec 3) : Statement (.vand x0 x1 x2 x3) :=
  decode_of_fields _ (packV 0x29 x0 x1 x2 x3 0x1c#5) rfl
    ((decodeFields_29 _ (majorOf_packV ..)).trans (by
      simp only [vdV_packV, vaV_packV, vbV_packV, mkV_packV, fnV_packV]
      simp +decide [decode29, fn_ne_7_1, fn_ne_2_3, fn_ne_3_2, Instr.canonical])) rfl

theorem vor (x0 : BitVec 6) (x1 : BitVec 6) (x2 : BitVec 6) (x3 : BitVec 3) : Statement (.vor x0 x1 x2 x3) :=
  decode_of_fields _ (packV 0x29 x0 x1 x2 x3 0x1d#5) rfl
    ((decodeFields_29 _ (majorOf_packV ..)).trans (by
      simp only [vdV_packV, vaV_packV, vbV_packV, mkV_packV, fnV_packV]
      simp +decide [decode29, fn_ne_7_1, fn_ne_2_3, fn_ne_3_2, Instr.canonical])) rfl

theorem vxor (x0 : BitVec 6) (x1 : BitVec 6) (x2 : BitVec 6) (x3 : BitVec 3) : Statement (.vxor x0 x1 x2 x3) :=
  decode_of_fields _ (packV 0x29 x0 x1 x2 x3 0x1e#5) rfl
    ((decodeFields_29 _ (majorOf_packV ..)).trans (by
      simp only [vdV_packV, vaV_packV, vbV_packV, mkV_packV, fnV_packV]
      simp +decide [decode29, fn_ne_7_1, fn_ne_2_3, fn_ne_3_2, Instr.canonical])) rfl

theorem vfadd (x0 : BitVec 6) (x1 : BitVec 6) (x2 : BitVec 6) (x3 : BitVec 3) (x4 : BitVec 2) : Statement (.vfadd x0 x1 x2 x3 x4) :=
  decode_of_fields _ (packV 0x2a x0 x1 x2 x3 (0x0#3 ++ x4)) rfl
    ((decodeFields_2A _ (majorOf_packV ..)).trans (by
      simp only [vdV_packV, vaV_packV, vbV_packV, mkV_packV, fnV_packV]
      simp +decide [decode2A, fn_ne_7_1, fn_ne_2_3, fn_ne_3_2, Instr.canonical])) rfl

theorem vfsub (x0 : BitVec 6) (x1 : BitVec 6) (x2 : BitVec 6) (x3 : BitVec 3) (x4 : BitVec 2) : Statement (.vfsub x0 x1 x2 x3 x4) :=
  decode_of_fields _ (packV 0x2a x0 x1 x2 x3 (0x1#3 ++ x4)) rfl
    ((decodeFields_2A _ (majorOf_packV ..)).trans (by
      simp only [vdV_packV, vaV_packV, vbV_packV, mkV_packV, fnV_packV]
      simp +decide [decode2A, fn_ne_7_1, fn_ne_2_3, fn_ne_3_2, Instr.canonical])) rfl

theorem vfmul (x0 : BitVec 6) (x1 : BitVec 6) (x2 : BitVec 6) (x3 : BitVec 3) (x4 : BitVec 2) : Statement (.vfmul x0 x1 x2 x3 x4) :=
  decode_of_fields _ (packV 0x2a x0 x1 x2 x3 (0x2#3 ++ x4)) rfl
    ((decodeFields_2A _ (majorOf_packV ..)).trans (by
      simp only [vdV_packV, vaV_packV, vbV_packV, mkV_packV, fnV_packV]
      simp +decide [decode2A, fn_ne_7_1, fn_ne_2_3, fn_ne_3_2, Instr.canonical])) rfl

theorem vfma (x0 : BitVec 6) (x1 : BitVec 6) (x2 : BitVec 6) (x3 : BitVec 3) (x4 : BitVec 2) : Statement (.vfma x0 x1 x2 x3 x4) :=
  decode_of_fields _ (packV 0x2a x0 x1 x2 x3 (0x3#3 ++ x4)) rfl
    ((decodeFields_2A _ (majorOf_packV ..)).trans (by
      simp only [vdV_packV, vaV_packV, vbV_packV, mkV_packV, fnV_packV]
      simp +decide [decode2A, fn_ne_7_1, fn_ne_2_3, fn_ne_3_2, Instr.canonical])) rfl

theorem vfdiv (x0 : BitVec 6) (x1 : BitVec 6) (x2 : BitVec 6) (x3 : BitVec 3) (x4 : BitVec 2) : Statement (.vfdiv x0 x1 x2 x3 x4) :=
  decode_of_fields _ (packV 0x2a x0 x1 x2 x3 (0x4#3 ++ x4)) rfl
    ((decodeFields_2A _ (majorOf_packV ..)).trans (by
      simp only [vdV_packV, vaV_packV, vbV_packV, mkV_packV, fnV_packV]
      simp +decide [decode2A, fn_ne_7_1, fn_ne_2_3, fn_ne_3_2, Instr.canonical])) rfl

theorem vfsqrt (x0 : BitVec 6) (x1 : BitVec 6) (x2 : BitVec 3) (x3 : BitVec 2) : Statement (.vfsqrt x0 x1 x2 x3) :=
  decode_of_fields _ (packV 0x2a x0 x1 0x0#6 x2 (0x5#3 ++ x3)) rfl
    ((decodeFields_2A _ (majorOf_packV ..)).trans (by
      simp only [vdV_packV, vaV_packV, vbV_packV, mkV_packV, fnV_packV]
      simp +decide [decode2A, fn_ne_7_1, fn_ne_2_3, fn_ne_3_2, Instr.canonical])) rfl

theorem vfmin (x0 : BitVec 6) (x1 : BitVec 6) (x2 : BitVec 6) (x3 : BitVec 3) (x4 : BitVec 2) : Statement (.vfmin x0 x1 x2 x3 x4) :=
  decode_of_fields _ (packV 0x2a x0 x1 x2 x3 (0x6#3 ++ x4)) rfl
    ((decodeFields_2A _ (majorOf_packV ..)).trans (by
      simp only [vdV_packV, vaV_packV, vbV_packV, mkV_packV, fnV_packV]
      simp +decide [decode2A, fn_ne_7_1, fn_ne_2_3, fn_ne_3_2, Instr.canonical])) rfl

theorem vfmax (x0 : BitVec 6) (x1 : BitVec 6) (x2 : BitVec 6) (x3 : BitVec 3) (x4 : BitVec 2) : Statement (.vfmax x0 x1 x2 x3 x4) :=
  decode_of_fields _ (packV 0x2a x0 x1 x2 x3 (0x7#3 ++ x4)) rfl
    ((decodeFields_2A _ (majorOf_packV ..)).trans (by
      simp only [vdV_packV, vaV_packV, vbV_packV, mkV_packV, fnV_packV]
      simp +decide [decode2A, fn_ne_7_1, fn_ne_2_3, fn_ne_3_2, Instr.canonical])) rfl

theorem vcvt (x0 : BitVec 6) (x1 : BitVec 6) (x2 : BitVec 2) (x3 : BitVec 4) (x4 : BitVec 3) (x5 : BitVec 1) (x6 : BitVec 4) : Statement (.vcvt x0 x1 x2 x3 x4 x5 x6) :=
  decode_of_fields _ (packV 0x2b x0 x1 (x2 ++ x3) x4 (x5 ++ x6)) rfl
    ((decodeFields_2B _ (majorOf_packV ..)).trans (by
      simp only [vdV_packV, vaV_packV, vbV_packV, mkV_packV, fnV_packV]
      simp +decide [decode2B, fn_ne_7_1, fn_ne_2_3, fn_ne_3_2, Instr.canonical])) rfl

theorem vshuf (x0 : BitVec 6) (x1 : BitVec 6) (x2 : BitVec 6) (x3 : BitVec 3) (x4 : BitVec 2) : Statement (.vshuf x0 x1 x2 x3 x4) :=
  decode_of_fields _ (packV 0x2c x0 x1 x2 x3 (0x0#3 ++ x4)) rfl
    ((decodeFields_2C _ (majorOf_packV ..)).trans (by
      simp only [vdV_packV, vaV_packV, vbV_packV, mkV_packV, fnV_packV]
      simp +decide [decode2C, fn_ne_7_1, fn_ne_2_3, fn_ne_3_2, Instr.canonical])) rfl

theorem vbcast (x0 : BitVec 6) (x1 : BitVec 6) (x2 : BitVec 3) (x3 : BitVec 2) : Statement (.vbcast x0 x1 x2 x3) :=
  decode_of_fields _ (packV 0x2c x0 x1 0x0#6 x2 (0x1#3 ++ x3)) rfl
    ((decodeFields_2C _ (majorOf_packV ..)).trans (by
      simp only [vdV_packV, vaV_packV, vbV_packV, mkV_packV, fnV_packV]
      simp +decide [decode2C, fn_ne_7_1, fn_ne_2_3, fn_ne_3_2, Instr.canonical])) rfl

theorem vextr (x0 : BitVec 6) (x1 : BitVec 6) (x2 : BitVec 6) (x3 : BitVec 2) : Statement (.vextr x0 x1 x2 x3) :=
  decode_of_fields _ (packV 0x2c x0 x1 x2 0x0#3 (0x2#3 ++ x3)) rfl
    ((decodeFields_2C _ (majorOf_packV ..)).trans (by
      simp only [vdV_packV, vaV_packV, vbV_packV, mkV_packV, fnV_packV]
      simp +decide [decode2C, fn_ne_7_1, fn_ne_2_3, fn_ne_3_2, Instr.canonical])) rfl

theorem vins (x0 : BitVec 6) (x1 : BitVec 6) (x2 : BitVec 6) (x3 : BitVec 3) (x4 : BitVec 2) : Statement (.vins x0 x1 x2 x3 x4) :=
  decode_of_fields _ (packV 0x2c x0 x1 x2 x3 (0x3#3 ++ x4)) rfl
    ((decodeFields_2C _ (majorOf_packV ..)).trans (by
      simp only [vdV_packV, vaV_packV, vbV_packV, mkV_packV, fnV_packV]
      simp +decide [decode2C, fn_ne_7_1, fn_ne_2_3, fn_ne_3_2, Instr.canonical])) rfl

theorem vslide (x0 : BitVec 6) (x1 : BitVec 6) (x2 : BitVec 6) (x3 : BitVec 3) (x4 : BitVec 2) : Statement (.vslide x0 x1 x2 x3 x4) :=
  decode_of_fields _ (packV 0x2c x0 x1 x2 x3 (0x5#3 ++ x4)) rfl
    ((decodeFields_2C _ (majorOf_packV ..)).trans (by
      simp only [vdV_packV, vaV_packV, vbV_packV, mkV_packV, fnV_packV]
      simp +decide [decode2C, fn_ne_7_1, fn_ne_2_3, fn_ne_3_2, Instr.canonical])) rfl

theorem vred (x0 : BitVec 6) (x1 : BitVec 6) (x2 : BitVec 2) (x3 : BitVec 4) (x4 : BitVec 3) : Statement (.vred x0 x1 x2 x3 x4) :=
  decode_of_fields _ (packV 0x2c x0 x1 (x2 ++ x3) x4 0x10#5) rfl
    ((decodeFields_2C _ (majorOf_packV ..)).trans (by
      simp only [vdV_packV, vaV_packV, vbV_packV, mkV_packV, fnV_packV]
      simp +decide [decode2C, fn_ne_7_1, fn_ne_2_3, fn_ne_3_2, Instr.canonical])) rfl

theorem vscan (x0 : BitVec 6) (x1 : BitVec 6) (x2 : BitVec 2) (x3 : BitVec 4) (x4 : BitVec 3) : Statement (.vscan x0 x1 x2 x3 x4) :=
  decode_of_fields _ (packV 0x2c x0 x1 (x2 ++ x3) x4 0x11#5) rfl
    ((decodeFields_2C _ (majorOf_packV ..)).trans (by
      simp only [vdV_packV, vaV_packV, vbV_packV, mkV_packV, fnV_packV]
      simp +decide [decode2C, fn_ne_7_1, fn_ne_2_3, fn_ne_3_2, Instr.canonical])) rfl

theorem mand (x0 : BitVec 6) (x1 : BitVec 6) (x2 : BitVec 6) : Statement (.mand x0 x1 x2) :=
  decode_of_fields _ (packV 0x2d x0 x1 x2 0x0#3 0x0#5) rfl
    ((decodeFields_2D _ (majorOf_packV ..)).trans (by
      simp only [vdV_packV, vaV_packV, vbV_packV, mkV_packV, fnV_packV]
      simp +decide [decode2D, fn_ne_7_1, fn_ne_2_3, fn_ne_3_2, Instr.canonical])) rfl

theorem mor (x0 : BitVec 6) (x1 : BitVec 6) (x2 : BitVec 6) : Statement (.mor x0 x1 x2) :=
  decode_of_fields _ (packV 0x2d x0 x1 x2 0x0#3 0x1#5) rfl
    ((decodeFields_2D _ (majorOf_packV ..)).trans (by
      simp only [vdV_packV, vaV_packV, vbV_packV, mkV_packV, fnV_packV]
      simp +decide [decode2D, fn_ne_7_1, fn_ne_2_3, fn_ne_3_2, Instr.canonical])) rfl

theorem mxor (x0 : BitVec 6) (x1 : BitVec 6) (x2 : BitVec 6) : Statement (.mxor x0 x1 x2) :=
  decode_of_fields _ (packV 0x2d x0 x1 x2 0x0#3 0x2#5) rfl
    ((decodeFields_2D _ (majorOf_packV ..)).trans (by
      simp only [vdV_packV, vaV_packV, vbV_packV, mkV_packV, fnV_packV]
      simp +decide [decode2D, fn_ne_7_1, fn_ne_2_3, fn_ne_3_2, Instr.canonical])) rfl

theorem mnot (x0 : BitVec 6) (x1 : BitVec 6) : Statement (.mnot x0 x1) :=
  decode_of_fields _ (packV 0x2d x0 x1 0x0#6 0x0#3 0x3#5) rfl
    ((decodeFields_2D _ (majorOf_packV ..)).trans (by
      simp only [vdV_packV, vaV_packV, vbV_packV, mkV_packV, fnV_packV]
      simp +decide [decode2D, fn_ne_7_1, fn_ne_2_3, fn_ne_3_2, Instr.canonical])) rfl

theorem mpopc (x0 : BitVec 6) (x1 : BitVec 6) : Statement (.mpopc x0 x1) :=
  decode_of_fields _ (packV 0x2d x0 x1 0x0#6 0x0#3 0x4#5) rfl
    ((decodeFields_2D _ (majorOf_packV ..)).trans (by
      simp only [vdV_packV, vaV_packV, vbV_packV, mkV_packV, fnV_packV]
      simp +decide [decode2D, fn_ne_7_1, fn_ne_2_3, fn_ne_3_2, Instr.canonical])) rfl

theorem mfirst (x0 : BitVec 6) (x1 : BitVec 6) : Statement (.mfirst x0 x1) :=
  decode_of_fields _ (packV 0x2d x0 x1 0x0#6 0x0#3 0x5#5) rfl
    ((decodeFields_2D _ (majorOf_packV ..)).trans (by
      simp only [vdV_packV, vaV_packV, vbV_packV, mkV_packV, fnV_packV]
      simp +decide [decode2D, fn_ne_7_1, fn_ne_2_3, fn_ne_3_2, Instr.canonical])) rfl

theorem vcmp (x0 : BitVec 3) (x1 : BitVec 3) (x2 : BitVec 6) (x3 : BitVec 6) (x4 : BitVec 3) (x5 : BitVec 3) : Statement (.vcmp x0 x1 x2 x3 x4 x5) :=
  decode_of_fields _ (packV 0x2d (x0 ++ x1) x2 x3 x4 (0x1#2 ++ x5)) rfl
    ((decodeFields_2D _ (majorOf_packV ..)).trans (by
      simp only [vdV_packV, vaV_packV, vbV_packV, mkV_packV, fnV_packV]
      simp +decide [decode2D, fn_ne_7_1, fn_ne_2_3, fn_ne_3_2, Instr.canonical])) rfl

theorem vsel (x0 : BitVec 6) (x1 : BitVec 6) (x2 : BitVec 6) (x3 : BitVec 3) (x4 : BitVec 2) : Statement (.vsel x0 x1 x2 x3 x4) :=
  decode_of_fields _ (packV 0x2d x0 x1 x2 x3 (0x4#3 ++ x4)) rfl
    ((decodeFields_2D _ (majorOf_packV ..)).trans (by
      simp only [vdV_packV, vaV_packV, vbV_packV, mkV_packV, fnV_packV]
      simp +decide [decode2D, fn_ne_7_1, fn_ne_2_3, fn_ne_3_2, Instr.canonical])) rfl

theorem vmin (x0 : BitVec 6) (x1 : BitVec 6) (x2 : BitVec 6) (x3 : BitVec 3) (x4 : BitVec 2) : Statement (.vmin x0 x1 x2 x3 x4) :=
  decode_of_fields _ (packV 0x2d x0 x1 x2 x3 (0x5#3 ++ x4)) rfl
    ((decodeFields_2D _ (majorOf_packV ..)).trans (by
      simp only [vdV_packV, vaV_packV, vbV_packV, mkV_packV, fnV_packV]
      simp +decide [decode2D, fn_ne_7_1, fn_ne_2_3, fn_ne_3_2, Instr.canonical])) rfl

theorem vmax (x0 : BitVec 6) (x1 : BitVec 6) (x2 : BitVec 6) (x3 : BitVec 3) (x4 : BitVec 2) : Statement (.vmax x0 x1 x2 x3 x4) :=
  decode_of_fields _ (packV 0x2d x0 x1 x2 x3 (0x6#3 ++ x4)) rfl
    ((decodeFields_2D _ (majorOf_packV ..)).trans (by
      simp only [vdV_packV, vaV_packV, vbV_packV, mkV_packV, fnV_packV]
      simp +decide [decode2D, fn_ne_7_1, fn_ne_2_3, fn_ne_3_2, Instr.canonical])) rfl

theorem mdot (x0 : BitVec 3) (x1 : BitVec 6) (x2 : BitVec 6) (x3 : BitVec 4) (x4 : BitVec 3) (x5 : BitVec 1) (x6 : BitVec 1) (x7 : BitVec 1) : Statement (.mdot x0 x1 x2 x3 x4 x5 x6 x7) :=
  decode_of_fields _ (packX 0x2e x0 x1 x2 x3 (x4 ++ x5 ++ x6 ++ x7 ++ 0x0#1)) rfl
    ((decodeFields_2E _ (majorOf_packX ..)).trans (by
      simp only [adX_packX, opAX_packX, opBX_packX, fmtX_packX, flX_packX]
      simp +decide [decode2E, fn_ne_7_1, fn_ne_2_3, fn_ne_3_2, Instr.canonical])) rfl

theorem mopen (x0 : BitVec 3) (x1 : BitVec 6) (x2 : BitVec 3) : Statement (.mopen x0 x1 x2) :=
  decode_of_fields _ (packX 0x2f x0 x1 0x0#6 0x0#4 (x2 ++ 0x0#4)) rfl
    ((decodeFields_2F _ (majorOf_packX ..)).trans (by
      simp only [adX_packX, opAX_packX, opBX_packX, fmtX_packX, flX_packX]
      simp +decide [decode2F, fn_ne_7_1, fn_ne_2_3, fn_ne_3_2, Instr.canonical])) rfl

theorem mclose (x0 : BitVec 3) : Statement (.mclose x0) :=
  decode_of_fields _ (packX 0x2f x0 0x0#6 0x0#6 0x1#4 0x0#7) rfl
    ((decodeFields_2F _ (majorOf_packX ..)).trans (by
      simp only [adX_packX, opAX_packX, opBX_packX, fmtX_packX, flX_packX]
      simp +decide [decode2F, fn_ne_7_1, fn_ne_2_3, fn_ne_3_2, Instr.canonical])) rfl

theorem mzero (x0 : BitVec 3) : Statement (.mzero x0) :=
  decode_of_fields _ (packX 0x2f x0 0x0#6 0x0#6 0x2#4 0x0#7) rfl
    ((decodeFields_2F _ (majorOf_packX ..)).trans (by
      simp only [adX_packX, opAX_packX, opBX_packX, fmtX_packX, flX_packX]
      simp +decide [decode2F, fn_ne_7_1, fn_ne_2_3, fn_ne_3_2, Instr.canonical])) rfl

theorem muprog (x0 : BitVec 6) : Statement (.muprog x0) :=
  decode_of_fields _ (packX 0x2f 0x0#3 x0 0x0#6 0x3#4 0x0#7) rfl
    ((decodeFields_2F _ (majorOf_packX ..)).trans (by
      simp only [adX_packX, opAX_packX, opBX_packX, fmtX_packX, flX_packX]
      simp +decide [decode2F, fn_ne_7_1, fn_ne_2_3, fn_ne_3_2, Instr.canonical])) rfl

theorem mrun (x0 : BitVec 3) (x1 : BitVec 6) (x2 : BitVec 6) : Statement (.mrun x0 x1 x2) :=
  decode_of_fields _ (packX 0x2f x0 x1 x2 0x4#4 0x0#7) rfl
    ((decodeFields_2F _ (majorOf_packX ..)).trans (by
      simp only [adX_packX, opAX_packX, opBX_packX, fmtX_packX, flX_packX]
      simp +decide [decode2F, fn_ne_7_1, fn_ne_2_3, fn_ne_3_2, Instr.canonical])) rfl

theorem mrd (x0 : BitVec 3) (x1 : BitVec 6) (x2 : BitVec 6) : Statement (.mrd x0 x1 x2) :=
  decode_of_fields _ (packX 0x2f x0 x1 x2 0x5#4 0x0#7) rfl
    ((decodeFields_2F _ (majorOf_packX ..)).trans (by
      simp only [adX_packX, opAX_packX, opBX_packX, fmtX_packX, flX_packX]
      simp +decide [decode2F, fn_ne_7_1, fn_ne_2_3, fn_ne_3_2, Instr.canonical])) rfl

theorem mwr (x0 : BitVec 3) (x1 : BitVec 6) (x2 : BitVec 6) : Statement (.mwr x0 x1 x2) :=
  decode_of_fields _ (packX 0x2f x0 x1 x2 0x6#4 0x0#7) rfl
    ((decodeFields_2F _ (majorOf_packX ..)).trans (by
      simp only [adX_packX, opAX_packX, opBX_packX, fmtX_packX, flX_packX]
      simp +decide [decode2F, fn_ne_7_1, fn_ne_2_3, fn_ne_3_2, Instr.canonical])) rfl

theorem mld (x0 : BitVec 3) (x1 : BitVec 6) (x2 : BitVec 6) : Statement (.mld x0 x1 x2) :=
  decode_of_fields _ (packX 0x2f x0 x1 x2 0x7#4 0x0#7) rfl
    ((decodeFields_2F _ (majorOf_packX ..)).trans (by
      simp only [adX_packX, opAX_packX, opBX_packX, fmtX_packX, flX_packX]
      simp +decide [decode2F, fn_ne_7_1, fn_ne_2_3, fn_ne_3_2, Instr.canonical])) rfl

theorem mst (x0 : BitVec 3) (x1 : BitVec 6) (x2 : BitVec 6) : Statement (.mst x0 x1 x2) :=
  decode_of_fields _ (packX 0x2f x0 x1 x2 0x8#4 0x0#7) rfl
    ((decodeFields_2F _ (majorOf_packX ..)).trans (by
      simp only [adX_packX, opAX_packX, opBX_packX, fmtX_packX, flX_packX]
      simp +decide [decode2F, fn_ne_7_1, fn_ne_2_3, fn_ne_3_2, Instr.canonical])) rfl

theorem msumr (x0 : BitVec 3) (x1 : BitVec 5) (x2 : BitVec 3) : Statement (.msumr x0 x1 x2) :=
  decode_of_fields _ (packX 0x2f x0 (0x0#1 ++ x1) 0x0#6 0x9#4 (x2 ++ 0x0#4)) rfl
    ((decodeFields_2F _ (majorOf_packX ..)).trans (by
      simp only [adX_packX, opAX_packX, opBX_packX, fmtX_packX, flX_packX]
      simp +decide [decode2F, fn_ne_7_1, fn_ne_2_3, fn_ne_3_2, Instr.canonical])) rfl

theorem msumc (x0 : BitVec 3) (x1 : BitVec 5) (x2 : BitVec 3) : Statement (.msumc x0 x1 x2) :=
  decode_of_fields _ (packX 0x2f x0 (0x0#1 ++ x1) 0x0#6 0xa#4 (x2 ++ 0x0#4)) rfl
    ((decodeFields_2F _ (majorOf_packX ..)).trans (by
      simp only [adX_packX, opAX_packX, opBX_packX, fmtX_packX, flX_packX]
      simp +decide [decode2F, fn_ne_7_1, fn_ne_2_3, fn_ne_3_2, Instr.canonical])) rfl

theorem mmov (x0 : BitVec 3) (x1 : BitVec 3) : Statement (.mmov x0 x1) :=
  decode_of_fields _ (packX 0x2f x0 (0x1#3 ++ x1) 0x0#6 0xb#4 0x0#7) rfl
    ((decodeFields_2F _ (majorOf_packX ..)).trans (by
      simp only [adX_packX, opAX_packX, opBX_packX, fmtX_packX, flX_packX]
      simp +decide [decode2F, fn_ne_7_1, fn_ne_2_3, fn_ne_3_2, Instr.canonical])) rfl

theorem csrr (x0 : BitVec 6) (x1 : BitVec 12) : Statement (.csrr x0 x1) :=
  decode_of_fields _ (packA 0x30 x0 (x1.extractLsb' 6 6) (x1.extractLsb' 0 6) 0x0#8) rfl
    ((decodeFields_30 _ (majorOf_packA ..)).trans (by
      simp only [rdA_packA, raA_packA, rbA_packA, fnA_packA]
      simp +decide [decode30, fn_ne_7_1, fn_ne_2_3, fn_ne_3_2, Instr.canonical])) rfl

theorem csrw (x0 : BitVec 6) (x1 : BitVec 12) : Statement (.csrw x0 x1) :=
  decode_of_fields _ (packA 0x30 x0 (x1.extractLsb' 6 6) (x1.extractLsb' 0 6) 0x1#8) rfl
    ((decodeFields_30 _ (majorOf_packA ..)).trans (by
      simp only [rdA_packA, raA_packA, rbA_packA, fnA_packA]
      simp +decide [decode30, fn_ne_7_1, fn_ne_2_3, fn_ne_3_2, Instr.canonical])) rfl

theorem sealroot (x0 : BitVec 6) (x1 : BitVec 6) (x2 : BitVec 6) : Statement (.sealroot x0 x1 x2) :=
  decode_of_fields _ (packA 0x30 x0 x1 x2 0x2#8) rfl
    ((decodeFields_30 _ (majorOf_packA ..)).trans (by
      simp only [rdA_packA, raA_packA, rbA_packA, fnA_packA]
      simp +decide [decode30, fn_ne_7_1, fn_ne_2_3, fn_ne_3_2, Instr.canonical])) rfl

theorem tlbinvPage (x0 : BitVec 6) (x1 : BitVec 6) (x2 : BitVec 6) : Statement (.tlbinvPage x0 x1 x2) :=
  decode_of_fields _ (packA 0x30 x0 x1 x2 0x3#8) rfl
    ((decodeFields_30 _ (majorOf_packA ..)).trans (by
      simp only [rdA_packA, raA_packA, rbA_packA, fnA_packA]
      simp +decide [decode30, fn_ne_7_1, fn_ne_2_3, fn_ne_3_2, Instr.canonical])) rfl

theorem tlbinvAll (x0 : BitVec 6) (x1 : BitVec 6) (x2 : BitVec 6) : Statement (.tlbinvAll x0 x1 x2) :=
  decode_of_fields _ (packA 0x30 x0 x1 x2 0x3#8) rfl
    ((decodeFields_30 _ (majorOf_packA ..)).trans (by
      simp only [rdA_packA, raA_packA, rbA_packA, fnA_packA]
      simp +decide [decode30, fn_ne_7_1, fn_ne_2_3, fn_ne_3_2, Instr.canonical])) rfl

theorem tlbinvStripe (x0 : BitVec 6) (x1 : BitVec 6) (x2 : BitVec 6) : Statement (.tlbinvStripe x0 x1 x2) :=
  decode_of_fields _ (packA 0x30 x0 x1 x2 0x3#8) rfl
    ((decodeFields_30 _ (majorOf_packA ..)).trans (by
      simp only [rdA_packA, raA_packA, rbA_packA, fnA_packA]
      simp +decide [decode30, fn_ne_7_1, fn_ne_2_3, fn_ne_3_2, Instr.canonical])) rfl

theorem rowmove (x0 : BitVec 6) (x1 : BitVec 6) (x2 : BitVec 6) : Statement (.rowmove x0 x1 x2) :=
  decode_of_fields _ (packA 0x30 x0 x1 x2 0x3#8) rfl
    ((decodeFields_30 _ (majorOf_packA ..)).trans (by
      simp only [rdA_packA, raA_packA, rbA_packA, fnA_packA]
      simp +decide [decode30, fn_ne_7_1, fn_ne_2_3, fn_ne_3_2, Instr.canonical])) rfl

theorem regrel (x0 : BitVec 6) (x1 : BitVec 6) : Statement (.regrel x0 x1) :=
  decode_of_fields _ (packA 0x30 x0 x1 0x0#6 0x4#8) rfl
    ((decodeFields_30 _ (majorOf_packA ..)).trans (by
      simp only [rdA_packA, raA_packA, rbA_packA, fnA_packA]
      simp +decide [decode30, fn_ne_7_1, fn_ne_2_3, fn_ne_3_2, Instr.canonical])) rfl

theorem bankcfg (x0 : BitVec 6) (x1 : BitVec 6) (x2 : BitVec 6) : Statement (.bankcfg x0 x1 x2) :=
  decode_of_fields _ (packA 0x30 x0 x1 x2 0x5#8) rfl
    ((decodeFields_30 _ (majorOf_packA ..)).trans (by
      simp only [rdA_packA, raA_packA, rbA_packA, fnA_packA]
      simp +decide [decode30, fn_ne_7_1, fn_ne_2_3, fn_ne_3_2, Instr.canonical])) rfl

theorem freeze (x0 : BitVec 6) (x1 : BitVec 6) (x2 : BitVec 6) : Statement (.freeze x0 x1 x2) :=
  decode_of_fields _ (packA 0x30 x0 x1 x2 0x6#8) rfl
    ((decodeFields_30 _ (majorOf_packA ..)).trans (by
      simp only [rdA_packA, raA_packA, rbA_packA, fnA_packA]
      simp +decide [decode30, fn_ne_7_1, fn_ne_2_3, fn_ne_3_2, Instr.canonical])) rfl

theorem thaw (x0 : BitVec 6) (x1 : BitVec 6) (x2 : BitVec 6) : Statement (.thaw x0 x1 x2) :=
  decode_of_fields _ (packA 0x30 x0 x1 x2 0x6#8) rfl
    ((decodeFields_30 _ (majorOf_packA ..)).trans (by
      simp only [rdA_packA, raA_packA, rbA_packA, fnA_packA]
      simp +decide [decode30, fn_ne_7_1, fn_ne_2_3, fn_ne_3_2, Instr.canonical])) rfl

theorem preempt (x0 : BitVec 6) (x1 : BitVec 6) (x2 : BitVec 6) : Statement (.preempt x0 x1 x2) :=
  decode_of_fields _ (packA 0x30 x0 x1 x2 0x6#8) rfl
    ((decodeFields_30 _ (majorOf_packA ..)).trans (by
      simp only [rdA_packA, raA_packA, rbA_packA, fnA_packA]
      simp +decide [decode30, fn_ne_7_1, fn_ne_2_3, fn_ne_3_2, Instr.canonical])) rfl

theorem kill (x0 : BitVec 6) (x1 : BitVec 6) (x2 : BitVec 6) : Statement (.kill x0 x1 x2) :=
  decode_of_fields _ (packA 0x30 x0 x1 x2 0x6#8) rfl
    ((decodeFields_30 _ (majorOf_packA ..)).trans (by
      simp only [rdA_packA, raA_packA, rbA_packA, fnA_packA]
      simp +decide [decode30, fn_ne_7_1, fn_ne_2_3, fn_ne_3_2, Instr.canonical])) rfl

theorem errinj (x0 : BitVec 6) (x1 : BitVec 6) (x2 : BitVec 6) : Statement (.errinj x0 x1 x2) :=
  decode_of_fields _ (packA 0x30 x0 x1 x2 0x7#8) rfl
    ((decodeFields_30 _ (majorOf_packA ..)).trans (by
      simp only [rdA_packA, raA_packA, rbA_packA, fnA_packA]
      simp +decide [decode30, fn_ne_7_1, fn_ne_2_3, fn_ne_3_2, Instr.canonical])) rfl

theorem trap (x0 : BitVec 12) : Statement (.trap x0) :=
  decode_of_fields _ (packA 0x31 0x0#6 (x0.extractLsb' 6 6) (x0.extractLsb' 0 6) 0x0#8) rfl
    ((decodeFields_31 _ (majorOf_packA ..)).trans (by
      simp only [rdA_packA, raA_packA, rbA_packA, fnA_packA]
      simp +decide [decode31, fn_ne_7_1, fn_ne_2_3, fn_ne_3_2, Instr.canonical])) rfl

theorem bkpt  : Statement (.bkpt) :=
  decode_of_fields _ (packA 0x31 0x0#6 0x0#6 0x0#6 0x1#8) rfl
    ((decodeFields_31 _ (majorOf_packA ..)).trans (by
      simp only [rdA_packA, raA_packA, rbA_packA, fnA_packA]
      simp +decide [decode31, fn_ne_7_1, fn_ne_2_3, fn_ne_3_2, Instr.canonical])) rfl

theorem idle  : Statement (.idle) :=
  decode_of_fields _ (packA 0x31 0x0#6 0x0#6 0x0#6 0x2#8) rfl
    ((decodeFields_31 _ (majorOf_packA ..)).trans (by
      simp only [rdA_packA, raA_packA, rbA_packA, fnA_packA]
      simp +decide [decode31, fn_ne_7_1, fn_ne_2_3, fn_ne_3_2, Instr.canonical])) rfl

theorem srseedWrite (x0 : Word) : Statement (.srseedWrite x0) := fun _ _ e => nomatch (show none = some _ from e)

theorem fltdoneRetry (x0 : Nat) : Statement (.fltdoneRetry x0) := fun _ _ e => nomatch (show none = some _ from e)

theorem fltdoneFail (x0 : Nat) : Statement (.fltdoneFail x0) := fun _ _ e => nomatch (show none = some _ from e)

theorem mccntRead (x0 : BitVec 6) : Statement (.mccntRead x0) := fun _ _ e => nomatch (show none = some _ from e)

theorem csrSpread (x0 : Nat) (x1 : Nat) (x2 : Word) : Statement (.csrSpread x0 x1 x2) := fun _ _ e => nomatch (show none = some _ from e)

theorem registerWrite (x0 : Nat) (x1 : Nat) (x2 : Nat) (x3 : Word) : Statement (.registerWrite x0 x1 x2 x3) := fun _ _ e => nomatch (show none = some _ from e)

theorem messageAccept (x0 : Message) : Statement (.messageAccept x0) := fun _ _ e => nomatch (show none = some _ from e)

theorem refuse (x0 : Message) (x1 : Bool) (x2 : Bool) : Statement (.refuse x0 x1 x2) := fun _ _ e => nomatch (show none = some _ from e)

theorem roomNotice (x0 : Nat) (x1 : Nat) (x2 : Word) : Statement (.roomNotice x0 x1 x2) := fun _ _ e => nomatch (show none = some _ from e)

theorem roomReservationLapse (x0 : Nat) (x1 : Word) : Statement (.roomReservationLapse x0 x1) := fun _ _ e => nomatch (show none = some _ from e)

theorem timedRetry (x0 : Nat) (x1 : Word) : Statement (.timedRetry x0 x1) := fun _ _ e => nomatch (show none = some _ from e)

theorem chainAck (x0 : Nat) (x1 : Nat) : Statement (.chainAck x0 x1) := fun _ _ e => nomatch (show none = some _ from e)

theorem dispatch (x0 : Nat) : Statement (.dispatch x0) := fun _ _ e => nomatch (show none = some _ from e)

theorem promotion (x0 : Nat) (x1 : Word) : Statement (.promotion x0 x1) := fun _ _ e => nomatch (show none = some _ from e)

theorem replyDeposit (x0 : Reply) : Statement (.replyDeposit x0) := fun _ _ e => nomatch (show none = some _ from e)

theorem budget (x0 : Nat) (x1 : Nat) : Statement (.budget x0 x1) := fun _ _ e => nomatch (show none = some _ from e)

theorem parkResume (x0 : Nat) (x1 : Nat) : Statement (.parkResume x0 x1) := fun _ _ e => nomatch (show none = some _ from e)

theorem idleWake (x0 : Nat) (x1 : Nat) : Statement (.idleWake x0 x1) := fun _ _ e => nomatch (show none = some _ from e)

theorem niTransmit (x0 : Nat) (x1 : Nat) : Statement (.niTransmit x0 x1) := fun _ _ e => nomatch (show none = some _ from e)

theorem storeAck (x0 : Nat) (x1 : Nat) : Statement (.storeAck x0 x1) := fun _ _ e => nomatch (show none = some _ from e)

theorem flushReturn (x0 : Nat) (x1 : Nat) (x2 : Nat) : Statement (.flushReturn x0 x1 x2) := fun _ _ e => nomatch (show none = some _ from e)

theorem combineSend (x0 : Nat) (x1 : Nat) : Statement (.combineSend x0 x1) := fun _ _ e => nomatch (show none = some _ from e)

theorem remoteCopyExpiry (x0 : Nat) (x1 : Nat) : Statement (.remoteCopyExpiry x0 x1) := fun _ _ e => nomatch (show none = some _ from e)

theorem storePerform (x0 : Nat) (x1 : Nat) (x2 : Nat) : Statement (.storePerform x0 x1 x2) := fun _ _ e => nomatch (show none = some _ from e)

theorem remoteRegionAccess (x0 : Nat) (x1 : Nat) (x2 : Nat) : Statement (.remoteRegionAccess x0 x1 x2) := fun _ _ e => nomatch (show none = some _ from e)

theorem homeAmo (x0 : AmoReq) : Statement (.homeAmo x0) := fun _ _ e => nomatch (show none = some _ from e)

theorem niAtomic (x0 : Nat) (x1 : AmoReq) (x2 : Option Nat) : Statement (.niAtomic x0 x1 x2) := fun _ _ e => nomatch (show none = some _ from e)

theorem putIncrement (x0 : Nat) (x1 : Nat) (x2 : Nat) (x3 : AmoReq) : Statement (.putIncrement x0 x1 x2 x3) := fun _ _ e => nomatch (show none = some _ from e)

theorem forwardDone (x0 : Nat) (x1 : List (Nat × Nat)) : Statement (.forwardDone x0 x1) := fun _ _ e => nomatch (show none = some _ from e)

theorem txArbitration (x0 : Nat) (x1 : Nat) (x2 : Nat) (x3 : Bool) : Statement (.txArbitration x0 x1 x2 x3) := fun _ _ e => nomatch (show none = some _ from e)

theorem abortNotice (x0 : Nat) (x1 : Nat) (x2 : Nat) : Statement (.abortNotice x0 x1 x2) := fun _ _ e => nomatch (show none = some _ from e)

theorem txLock (x0 : Nat) (x1 : Nat) (x2 : Nat) : Statement (.txLock x0 x1 x2) := fun _ _ e => nomatch (show none = some _ from e)

theorem txInstall (x0 : Nat) (x1 : Nat) : Statement (.txInstall x0 x1) := fun _ _ e => nomatch (show none = some _ from e)

theorem versionedEviction (x0 : Nat) (x1 : Nat) (x2 : Nat) : Statement (.versionedEviction x0 x1 x2) := fun _ _ e => nomatch (show none = some _ from e)

theorem ticketBeacon (x0 : Nat) : Statement (.ticketBeacon x0) := fun _ _ e => nomatch (show none = some _ from e)

theorem ticketAdvance (x0 : Nat) (x1 : Nat) : Statement (.ticketAdvance x0 x1) := fun _ _ e => nomatch (show none = some _ from e)

theorem rowRead (x0 : Nat) (x1 : List Nat) : Statement (.rowRead x0 x1) := fun _ _ e => nomatch (show none = some _ from e)

theorem lrwEnqueue (x0 : Nat) (x1 : Nat) (x2 : Nat) : Statement (.lrwEnqueue x0 x1 x2) := fun _ _ e => nomatch (show none = some _ from e)

theorem scHome (x0 : Nat) (x1 : Nat) (x2 : Nat) : Statement (.scHome x0 x1 x2) := fun _ _ e => nomatch (show none = some _ from e)

theorem leaseExpiry (x0 : Nat) : Statement (.leaseExpiry x0) := fun _ _ e => nomatch (show none = some _ from e)

theorem bankDrainDone (x0 : Nat) : Statement (.bankDrainDone x0) := fun _ _ e => nomatch (show none = some _ from e)

theorem bankZeroDone (x0 : Nat) : Statement (.bankZeroDone x0) := fun _ _ e => nomatch (show none = some _ from e)

theorem hodRequest (x0 : HodReq) : Statement (.hodRequest x0) := fun _ _ e => nomatch (show none = some _ from e)

theorem hodCompletion (x0 : HodReq) (x1 : Word) : Statement (.hodCompletion x0 x1) := fun _ _ e => nomatch (show none = some _ from e)

theorem hgathOwner (x0 : BagState) : Statement (.hgathOwner x0) := fun _ _ e => nomatch (show none = some _ from e)

theorem hgathCombine (x0 : BagState) : Statement (.hgathCombine x0) := fun _ _ e => nomatch (show none = some _ from e)

theorem hscatOwner (x0 : BagState) : Statement (.hscatOwner x0) := fun _ _ e => nomatch (show none = some _ from e)

theorem stealRequest (x0 : Nat) (x1 : Nat) (x2 : Nat) (x3 : List Nat) : Statement (.stealRequest x0 x1 x2 x3) := fun _ _ e => nomatch (show none = some _ from e)

theorem stealResponse (x0 : Nat) (x1 : Nat) (x2 : Option (Nat × Nat × Nat)) (x3 : List Nat) : Statement (.stealResponse x0 x1 x2 x3) := fun _ _ e => nomatch (show none = some _ from e)

theorem mailboxPost (x0 : MailPost) : Statement (.mailboxPost x0) := fun _ _ e => nomatch (show none = some _ from e)

theorem barrierArrival (x0 : Arrival) : Statement (.barrierArrival x0) := fun _ _ e => nomatch (show none = some _ from e)

theorem flagNotice (x0 : Nat) (x1 : Nat) : Statement (.flagNotice x0 x1) := fun _ _ e => nomatch (show none = some _ from e)

theorem clearNotice (x0 : Nat) (x1 : Nat) : Statement (.clearNotice x0 x1) := fun _ _ e => nomatch (show none = some _ from e)

theorem nodeStart (x0 : Nat) : Statement (.nodeStart x0) := fun _ _ e => nomatch (show none = some _ from e)

theorem nodeComplete (x0 : Nat) (x1 : Nat) : Statement (.nodeComplete x0 x1) := fun _ _ e => nomatch (show none = some _ from e)

theorem waitPoll (x0 : Nat) (x1 : Nat) : Statement (.waitPoll x0 x1) := fun _ _ e => nomatch (show none = some _ from e)

theorem gridComplete (x0 : Nat) : Statement (.gridComplete x0) := fun _ _ e => nomatch (show none = some _ from e)

theorem postGo (x0 : Nat) (x1 : Nat) : Statement (.postGo x0 x1) := fun _ _ e => nomatch (show none = some _ from e)

theorem poststatRead (x0 : Nat) (x1 : Nat) : Statement (.poststatRead x0 x1) := fun _ _ e => nomatch (show none = some _ from e)

theorem teamPlace (x0 : Nat) : Statement (.teamPlace x0) := fun _ _ e => nomatch (show none = some _ from e)

theorem swapOut (x0 : Nat) : Statement (.swapOut x0) := fun _ _ e => nomatch (show none = some _ from e)

theorem swapIn (x0 : Nat) : Statement (.swapIn x0) := fun _ _ e => nomatch (show none = some _ from e)

theorem maildropAppend (x0 : Nat) (x1 : Message) : Statement (.maildropAppend x0 x1) := fun _ _ e => nomatch (show none = some _ from e)

theorem maildropClose (x0 : Nat) : Statement (.maildropClose x0) := fun _ _ e => nomatch (show none = some _ from e)

theorem slicePreemption (x0 : Nat) : Statement (.slicePreemption x0) := fun _ _ e => nomatch (show none = some _ from e)

theorem relocationRequest (x0 : Nat) : Statement (.relocationRequest x0) := fun _ _ e => nomatch (show none = some _ from e)

theorem pageWalk (x0 : Agent) (x1 : Nat) (x2 : Access) : Statement (.pageWalk x0 x1 x2) := fun _ _ e => nomatch (show none = some _ from e)

theorem firstTouch (x0 : Agent) (x1 : Nat) (x2 : Access) : Statement (.firstTouch x0 x1 x2) := fun _ _ e => nomatch (show none = some _ from e)

theorem tlbinvCompletion (x0 : Nat) (x1 : Nat) : Statement (.tlbinvCompletion x0 x1) := fun _ _ e => nomatch (show none = some _ from e)

theorem auditAppend (x0 : Nat) (x1 : Word) (x2 : Word) (x3 : Nat) (x4 : Nat) (x5 : Nat) : Statement (.auditAppend x0 x1 x2 x3 x4 x5) := fun _ _ e => nomatch (show none = some _ from e)

theorem ageouts (x0 : Nat) (x1 : Nat) : Statement (.ageouts x0 x1) := fun _ _ e => nomatch (show none = some _ from e)

theorem injectionStarvation (x0 : Nat) (x1 : Nat) : Statement (.injectionStarvation x0 x1) := fun _ _ e => nomatch (show none = some _ from e)

theorem reassemblyDeliver (x0 : Nat) (x1 : Nat) (x2 : Nat) : Statement (.reassemblyDeliver x0 x1 x2) := fun _ _ e => nomatch (show none = some _ from e)

theorem linkReplay (x0 : Nat) : Statement (.linkReplay x0) := fun _ _ e => nomatch (show none = some _ from e)

theorem linkDead (x0 : Nat) : Statement (.linkDead x0) := fun _ _ e => nomatch (show none = some _ from e)

theorem reroute (x0 : Nat) (x1 : Nat) (x2 : LostItem) : Statement (.reroute x0 x1 x2) := fun _ _ e => nomatch (show none = some _ from e)

theorem skip (x0 : Nat) (x1 : Nat) (x2 : Nat) : Statement (.skip x0 x1 x2) := fun _ _ e => nomatch (show none = some _ from e)

theorem windowCloseTimer (x0 : Nat) (x1 : Nat) : Statement (.windowCloseTimer x0 x1) := fun _ _ e => nomatch (show none = some _ from e)

theorem close (x0 : Nat) (x1 : Nat) (x2 : Nat) : Statement (.close x0 x1 x2) := fun _ _ e => nomatch (show none = some _ from e)

theorem laneRetire (x0 : Nat) : Statement (.laneRetire x0) := fun _ _ e => nomatch (show none = some _ from e)

theorem linkTrain (x0 : Nat) (x1 : Nat) (x2 : Nat) (x3 : List Nat) : Statement (.linkTrain x0 x1 x2 x3) := fun _ _ e => nomatch (show none = some _ from e)

theorem eccError (x0 : ErrUnit) (x1 : Bool) : Statement (.eccError x0 x1) := fun _ _ e => nomatch (show none = some _ from e)

theorem scrub (x0 : Nat) (x1 : List (ErrUnit × Bool)) : Statement (.scrub x0 x1) := fun _ _ e => nomatch (show none = some _ from e)

theorem coreLoss (x0 : Nat) : Statement (.coreLoss x0) := fun _ _ e => nomatch (show none = some _ from e)

theorem spareTakeover (x0 : Nat) : Statement (.spareTakeover x0) := fun _ _ e => nomatch (show none = some _ from e)

theorem siteLoss (x0 : Nat) : Statement (.siteLoss x0) := fun _ _ e => nomatch (show none = some _ from e)

theorem siteEvacuation (x0 : Nat) : Statement (.siteEvacuation x0) := fun _ _ e => nomatch (show none = some _ from e)

theorem evacuationTimeout (x0 : Nat) : Statement (.evacuationTimeout x0) := fun _ _ e => nomatch (show none = some _ from e)

theorem debugAttach (x0 : Nat) : Statement (.debugAttach x0) := fun _ _ e => nomatch (show none = some _ from e)

theorem debugDetach (x0 : Nat) : Statement (.debugDetach x0) := fun _ _ e => nomatch (show none = some _ from e)

theorem debugResume (x0 : Nat) (x1 : Nat) : Statement (.debugResume x0 x1) := fun _ _ e => nomatch (show none = some _ from e)

theorem debugStep (x0 : Nat) (x1 : Nat) : Statement (.debugStep x0 x1) := fun _ _ e => nomatch (show none = some _ from e)

theorem breakTask (x0 : Nat) (x1 : Nat) : Statement (.breakTask x0 x1) := fun _ _ e => nomatch (show none = some _ from e)

theorem snpinv (x0 : Nat) (x1 : Nat) : Statement (.snpinv x0 x1) := fun _ _ e => nomatch (show none = some _ from e)

theorem snpdata (x0 : Nat) (x1 : Nat) : Statement (.snpdata x0 x1) := fun _ _ e => nomatch (show none = some _ from e)

theorem snpcur (x0 : Nat) (x1 : Nat) : Statement (.snpcur x0 x1) := fun _ _ e => nomatch (show none = some _ from e)

theorem hostRead (x0 : PortId) (x1 : Nat) (x2 : Nat) : Statement (.hostRead x0 x1 x2) := fun _ _ e => nomatch (show none = some _ from e)

theorem hostWrite (x0 : PortId) (x1 : Nat) (x2 : List Byte) : Statement (.hostWrite x0 x1 x2) := fun _ _ e => nomatch (show none = some _ from e)

theorem bisnpResponse (x0 : Nat) (x1 : Nat) (x2 : Option (List Byte)) : Statement (.bisnpResponse x0 x1 x2) := fun _ _ e => nomatch (show none = some _ from e)

theorem checkpointFull (x0 : Nat) : Statement (.checkpointFull x0) := fun _ _ e => nomatch (show none = some _ from e)

theorem checkpointIncr (x0 : Nat) : Statement (.checkpointIncr x0) := fun _ _ e => nomatch (show none = some _ from e)

theorem restore (x0 : Nat) : Statement (.restore x0) := fun _ _ e => nomatch (show none = some _ from e)

theorem checkpointTimeout (x0 : Nat) : Statement (.checkpointTimeout x0) := fun _ _ e => nomatch (show none = some _ from e)

theorem checkpointComplete (x0 : Nat) : Statement (.checkpointComplete x0) := fun _ _ e => nomatch (show none = some _ from e)

theorem powerOn (x0 : Nat) : Statement (.powerOn x0) := fun _ _ e => nomatch (show none = some _ from e)

theorem moduleReset (x0 : Nat) : Statement (.moduleReset x0) := fun _ _ e => nomatch (show none = some _ from e)

theorem siteReset (x0 : Nat) : Statement (.siteReset x0) := fun _ _ e => nomatch (show none = some _ from e)

theorem hodImageUpdate (x0 : Nat) (x1 : SignedImage) : Statement (.hodImageUpdate x0 x1) := fun _ _ e => nomatch (show none = some _ from e)

theorem provisioned (x0 : Nat) (x1 : BitVec 256) (x2 : BitVec 256) (x3 : BitVec 256) : Statement (.provisioned x0 x1 x2 x3) := fun _ _ e => nomatch (show none = some _ from e)

theorem deploymentToken (x0 : Nat) (x1 : Token) : Statement (.deploymentToken x0 x1) := fun _ _ e => nomatch (show none = some _ from e)

theorem unlockToken (x0 : Nat) (x1 : Token) : Statement (.unlockToken x0 x1) := fun _ _ e => nomatch (show none = some _ from e)

theorem relockToken (x0 : Nat) (x1 : Token) : Statement (.relockToken x0 x1) := fun _ _ e => nomatch (show none = some _ from e)

theorem returnToken (x0 : Nat) (x1 : Token) : Statement (.returnToken x0 x1) := fun _ _ e => nomatch (show none = some _ from e)

theorem retireToken (x0 : Nat) (x1 : Token) : Statement (.retireToken x0 x1) := fun _ _ e => nomatch (show none = some _ from e)

theorem session (x0 : Nat) (x1 : Nat) (x2 : Token) : Statement (.session x0 x1 x2) := fun _ _ e => nomatch (show none = some _ from e)

theorem attestationReport (x0 : Nat) (x1 : Nat) (x2 : Word) : Statement (.attestationReport x0 x1 x2) := fun _ _ e => nomatch (show none = some _ from e)

theorem getVersion (x0 : Nat) (x1 : Nat) : Statement (.getVersion x0 x1) := fun _ _ e => nomatch (show none = some _ from e)

theorem getCapabilities (x0 : Nat) (x1 : Nat) : Statement (.getCapabilities x0 x1) := fun _ _ e => nomatch (show none = some _ from e)

theorem negotiateAlgorithms (x0 : Nat) (x1 : Nat) (x2 : Bool) (x3 : Bool) : Statement (.negotiateAlgorithms x0 x1 x2 x3) := fun _ _ e => nomatch (show none = some _ from e)

theorem pskExchange (x0 : Nat) (x1 : Nat) (x2 : Nat) : Statement (.pskExchange x0 x1 x2) := fun _ _ e => nomatch (show none = some _ from e)

theorem pskFinish (x0 : Nat) (x1 : Nat) (x2 : Word) : Statement (.pskFinish x0 x1 x2) := fun _ _ e => nomatch (show none = some _ from e)

theorem heartbeat (x0 : Nat) (x1 : Nat) : Statement (.heartbeat x0 x1) := fun _ _ e => nomatch (show none = some _ from e)

theorem endSession (x0 : Nat) (x1 : Nat) : Statement (.endSession x0 x1) := fun _ _ e => nomatch (show none = some _ from e)

theorem vendorDefinedRequest (x0 : Nat) (x1 : Nat) (x2 : Nat) (x3 : Word) : Statement (.vendorDefinedRequest x0 x1 x2 x3) := fun _ _ e => nomatch (show none = some _ from e)

theorem throttleRaise (x0 : Nat) : Statement (.throttleRaise x0) := fun _ _ e => nomatch (show none = some _ from e)

theorem throttleLower (x0 : Nat) : Statement (.throttleLower x0) := fun _ _ e => nomatch (show none = some _ from e)

theorem thermalShutdown (x0 : Nat) : Statement (.thermalShutdown x0) := fun _ _ e => nomatch (show none = some _ from e)

theorem sensorUpdate (x0 : Nat) (x1 : Sensors) : Statement (.sensorUpdate x0 x1) := fun _ _ e => nomatch (show none = some _ from e)

theorem capsetWrite (x0 : Nat) (x1 : Word) : Statement (.capsetWrite x0 x1) := fun _ _ e => nomatch (show none = some _ from e)

theorem powerLoss (x0 : Nat) : Statement (.powerLoss x0) := fun _ _ e => nomatch (show none = some _ from e)

theorem portLost (x0 : Nat) (x1 : Nat) : Statement (.portLost x0 x1) := fun _ _ e => nomatch (show none = some _ from e)

theorem portLinkUp (x0 : PortId) (x1 : Nat) (x2 : Nat) (x3 : Nat) (x4 : Nat) (x5 : List PortFeature) : Statement (.portLinkUp x0 x1 x2 x3 x4 x5) := fun _ _ e => nomatch (show none = some _ from e)

theorem porderRouterCycle (x0 : Nat) : Statement (.porderRouterCycle x0) := fun _ _ e => nomatch (show none = some _ from e)

theorem hostCacheGrant (x0 : Nat) (x1 : Nat) (x2 : Nat) (x3 : List Byte) : Statement (.hostCacheGrant x0 x1 x2 x3) := fun _ _ e => nomatch (show none = some _ from e)

theorem cxlIdeKeyManagement (x0 : Nat) (x1 : Nat) (x2 : BitVec 256) : Statement (.cxlIdeKeyManagement x0 x1 x2) := fun _ _ e => nomatch (show none = some _ from e)

theorem siteRejoin (x0 : Nat) (x1 : Nat) : Statement (.siteRejoin x0 x1) := fun _ _ e => nomatch (show none = some _ from e)

theorem regrelComplete (x0 : Nat) (x1 : Nat) (x2 : Nat) : Statement (.regrelComplete x0 x1 x2) := fun _ _ e => nomatch (show none = some _ from e)

theorem lineFill (x0 : Nat) (x1 : Nat) (x2 : Nat) : Statement (.lineFill x0 x1 x2) := fun _ _ e => nomatch (show none = some _ from e)

end Sys2Proof.Laws.RoundTrip
end

