-- ==== Sys2Proof/Tests/Slice0.lean ====
section
/-!
SUPPORT. Tests: ill-formed terms that the checks refuse, words of the spec's tables of encoded instructions, single steps
on small states, and for the statements with hypotheses states and operands that meet them.
-/
set_option Elab.async false

namespace Sys2Proof.Tests
open Sys2Proof.Machine

/-! WellFormed: one ill-formed term for each check (R176). -/

theorem test_wf_scopes :
    [Instr.fence 6, .fenceSs 7, .lda 1 2 6 0 0, .lda 1 2 0 3 1, .stl 1 2 6 0].all (!·.wf) = true := by decide

/-- R141, R172: the reserved variant, an acquire without a return, comm and stat where the operation has none. -/
theorem test_wf_atomics :
    [Instr.aadd 1 2 3 4, .aand 1 2 3 4, .aor 1 2 3 4, .axor 1 2 3 4, .amin 1 2 3 4, .amax 1 2 3 4, .aminu 1 2 3 4,
      .amaxu 1 2 3 4, .aswap 1 2 3 4, .acas 1 2 3 4, .afadd 1 2 3 4, .aadd 0 2 3 1, .aswap 1 2 3 8, .aand 1 2 3 12].all (!·.wf) = true := by decide

theorem test_wf_streams :
    [Instr.sbind 8 1, .sbindr 8 1 2, .sfifoCons 8 1, .sfifoProd 8 1, .sunbind 8, .sadv 8, .sstat 1 8].all (!·.wf) = true := by
  decide

theorem test_wf_blocks :
    [Instr.bmov 0 1 2, .bmov 1 0 2, .bmov 1 2 0, .bmov 1 1 2, .bmov 1 2 1, .bmov 1 2 2, .bfill 0 1 2, .bfill 1 0 2,
      .bfill 1 2 0, .bfill 1 1 2, .bfill 1 2 1, .bfill 1 2 2, .waitm 1 2, .waitm 0 2, .waitm 56 2].all (!·.wf) = true := by
  decide

theorem test_wf_vector_memory :
    [Instr.vld 32 1 0 0, .vst 32 1 0 0, .vlds 32 1 2 0 0, .vsts 32 1 2 0 0, .vgath 32 1 2 0 0, .vgath 1 1 32 0 0,
      .vscat 32 1 2 0 0, .vldbc 32 1 0 0].all (!·.wf) = true := by decide

/-- R175: a position names a register 0 to 31 or a stream 32 to 39. -/
theorem test_wf_vector_positions :
    [Instr.vadd 40 1 2 0 0, .vsub 1 40 2 0 0, .vmul 1 2 40 0 0, .vmulh 40 1 2 0 0, .vshl 40 1 2 0 0, .vshr 40 1 2 0 0,
      .vsra 40 1 2 0 0, .vand 40 1 2 0, .vor 40 1 2 0, .vxor 40 1 2 0, .vmin 40 1 2 0 0, .vmax 40 1 2 0 0,
      .vfadd 40 1 2 0 0, .vfsub 40 1 2 0 0, .vfmul 40 1 2 0 0, .vfma 32 1 2 0 0, .vfdiv 40 1 2 0 0, .vfsqrt 40 1 0 0,
      .vfmin 40 1 2 0 0, .vfmax 40 1 2 0 0].all (!·.wf) = true := by decide

theorem test_wf_vector_rest :
    [Instr.vcvt 40 1 0 0 0 0 0, .vshuf 40 1 2 0 0, .vbcast 40 1 0 0, .vextr 1 40 0 0, .vins 32 1 0 0 0, .vslide 40 1 0 0 0,
      .vred 40 1 0 0 0, .vred 1 2 3 0 0, .vred 1 2 0 5 0, .vscan 40 1 0 0 0, .vscan 1 2 3 0 0, .mand 8 1 2, .mor 1 8 2, .mxor 1 2 8, .mnot 8 1,
      .mpopc 1 8, .mfirst 1 8, .vcmp 0 0 40 2 0 0, .vcmp 0 0 1 40 0 0, .vcmp 7 0 1 2 3 4, .vsel 40 1 2 0 0].all (!·.wf) = true := by decide

/-- R302: formats, operands, rounding, scaling of MDOT; R294, R305, R312: the other matrix instructions. -/
theorem test_wf_matrix :
    [Instr.mdot 0 0 1 12 0 0 0 0, .mdot 0 48 1 0 0 0 0 0, .mdot 0 0 8 0 0 0 0 0, .mdot 0 8 0 0 7 0 0 0, .mdot 0 8 0 6 0 0 0 0,
      .mdot 0 8 0 8 0 0 0 0, .mdot 0 8 0 2 0 0 1 0, .mdot 0 0 1 0 1 0 0 0, .mdot 0 0 1 0 0 1 0 0, .mdot 0 0 1 0 0 0 1 0,
      .mdot 0 0 1 0 0 0 0 1, .mdot 0 0 1 6 0 0 0 0, .mdot 0 16 1 2 0 0 1 0, .mdot 0 0 16 2 0 0 0 1,
      .mopen 0 1 7, .mrun 0 48 0, .mrun 0 0 8, .mrd 0 15 1, .mrd 0 48 1, .mwr 0 15 1, .mwr 0 48 1, .msumr 0 1 7,
      .msumc 0 1 7].all (!·.wf) = true := by decide

/-! Words of the spec's tables and examples (ch. 08 "Encoded", ch. 09 R193 to R211, ch. 10, 12, 13, 15 to 19). -/

theorem test_decode_scalar :
    decode 0x08000000#32 = some (.addi 0 0 0) ∧ decode 0x04928B00#32 = some (.add 9 10 11)
      ∧ decode 0x08A00005#32 = some (.addi 10 0 5) ∧ decode 0x18A28010#32 = some (.slli 10 10 16)
      ∧ decode 0x20C8E500#32 = some (.mul 12 35 37) := by decide

theorem test_decode_capabilities :
    decode 0x28814235#32 = some (.cinci 8 5 0x235) ∧ decode 0x24920A00#32 = some (.cbound 9 8 10)
      ∧ decode 0x24B24006#32 = some (.clen 11 9) ∧ decode 0x24D24005#32 = some (.cbase 13 9)
      ∧ decode 0x24C1490A#32 = some (.csub 12 5 9) ∧ decode 0x2646CC04#32 = some (.cinc 36 27 12) := by decide

theorem test_decode_control :
    decode 0x30900003#32 = some (.ldlD 9 3) ∧ decode 0x40900003#32 = some (.beq 9 0 3)
      ∧ decode 0x45403FFF#32 = some (.bne 20 0 (-1)) ∧ decode 0x59431000#32 = some (.rep 20 3 1 0 0)
      ∧ decode 0x5C000000#32 = some .endTask ∧ decode 0x5C000001#32 = some .release
      ∧ decode 0xC0900100#32 = some (.csrr 9 1) ∧ decode 0xC4000001#32 = some .bkpt := by decide

theorem test_decode_memory :
    decode 0x6091C086#32 = some (.ldD 9 7 8) ∧ decode 0x6091C031#32 = some (.ldBu 9 7 3)
      ∧ decode 0x64A1FFE4#32 = some (.stW 10 7 (-2)) ∧ decode 0x68C14020#32 = some (.ldc 12 5 2)
      ∧ decode 0x6C51C010#32 = some (.stc 5 7 1) ∧ decode 0x70931806#32 = some (.lda 9 12 3 3 0)
      ∧ decode 0x70A3200E#32 = some (.stl 10 12 4 3) ∧ decode 0x7400000C#32 = some (.fenceSs 4)
      ∧ decode 0x74000003#32 = some (.fence 3) ∧ decode 0x74020013#32 = some (.czero 8) := by decide

theorem test_decode_atomics :
    decode 0x78024A0D#32 = some (.aadd 0 9 10 13) ∧ decode 0x78928B9A#32 = some (.acas 9 10 11 10)
      ∧ decode 0x7C928000#32 = some (.lrw 9 10) ∧ decode 0x7CB28C01#32 = some (.sc 11 10 12)
      ∧ decode 0x81400000#32 = some (.xbegin 20) := by decide

theorem test_decode_streams_and_blocks :
    decode 0x84824A08#32 = some (.bmov 8 9 10) ∧ decode 0x84240000#32 = some (.sbind 2 16)
      ∧ decode 0x84350102#32 = some (.sfifoProd 3 20) ∧ decode 0x84200004#32 = some (.sadv 2)
      ∧ decode 0x84131801#32 = some (.sbindr 1 12 24) := by decide

theorem test_decode_messages :
    decode 0x88038000#32 = some (.send 0 14 0) ∧ decode 0x88030002#32 = some (.sendr 0 12 0)
      ∧ decode 0x8A489D03#32 = some (.put 36 34 29) ∧ decode 0x89B65A07#32 = some (.recvm 27 25 26)
      ∧ decode 0x8CD38C00#32 = some (.pmcfg 13 14 12) ∧ decode 0x8F002F02#32 = some (.pmdrain 48 0 47)
      ∧ decode 0x90824A02#32 = some (.hgathSum 8 9 10) ∧ decode 0x90824A03#32 = some (.hgathMean 8 9 10) := by decide

theorem test_decode_sync :
    decode 0x94E33200#32 = some (.dpush 14 12 50) ∧ decode 0x95454001#32 = some (.dpop 20 21)
      ∧ decode 0x94D30002#32 = some (.dsplit 13 12) ∧ decode 0x94D00005#32 = some (.dstealGrid 13)
      ∧ decode 0x957A0C08#32 = some (.mpath 23 40 12) ∧ decode 0x9BC1CC02#32 = some (.binit 60 7 12)
      ∧ decode 0x980A4003#32 = some (.barr 41 0) ∧ decode 0x99200004#32 = some (.bwait 18) := by decide

theorem test_decode_vectors :
    decode 0xA0424022#32 = some (.vld 4 9 1 2) ∧ decode 0xA0524613#32 = some (.vgath 5 9 6 0 3)
      ∧ decode 0xA4108302#32 = some (.vadd 1 2 3 0 2) ∧ decode 0xA882624D#32 = some (.vfma 8 9 34 2 1)
      ∧ decode 0xB0324006#32 = some (.vbcast 3 9 0 2) ∧ decode 0xB4908004#32 = some (.mpopc 9 2)
      ∧ decode 0xB0C2E316#32 = some (.vslide 12 11 35 0 2) := by decide

theorem test_decode_matrix :
    decode 0xB9000800#32 = some (.mdot 2 0 1 0 0 0 0 0) ∧ decode 0xB8800B06#32 = some (.mdot 1 0 1 6 0 0 1 1)
      ∧ decode 0xB9918008#32 = some (.mdot 3 8 48 0 0 1 0 0) ∧ decode 0xBD120000#32 = some (.mopen 2 9 0)
      ∧ decode 0xBD000080#32 = some (.mclose 2) ∧ decode 0xBD000100#32 = some (.mzero 2)
      ∧ decode 0xBC180180#32 = some (.muprog 12) ∧ decode 0xBE841A00#32 = some (.mrun 5 2 3)
      ∧ decode 0xBD284A80#32 = some (.mrd 2 20 9) ∧ decode 0xBE100380#32 = some (.mld 4 8 0)
      ∧ decode 0xBD0C0480#32 = some (.msumr 2 6 0) ∧ decode 0xBF140580#32 = some (.mmov 6 10) := by decide

/-- R176: reserved majors, functions and fields that must be zero. -/
theorem test_decode_refuses :
    [0x00000000#32, 0x000000FF#32, 0xFFFFFFFF#32, 0x04928BFF#32, 0x5C000010#32, 0x5C000002#32, 0xBD000081#32, 0x7400000E#32,
      0x74000006#32].all (fun w => (decode w).isNone) = true := by decide

/-- The encoder writes the same words. -/
theorem test_encode :
    encode (.add 9 10 11) = some 0x04928B00#32 ∧ encode (.stW 10 7 (-2)) = some 0x64A1FFE4#32
      ∧ encode (.mdot 1 0 1 6 0 0 1 1) = some 0xB8800B06#32 ∧ encode (.rep 20 3 1 0 0) = some 0x59431000#32 := by decide

/-! A small machine: core 0 of site 0 runs a task of a one-core supervisor team at the code window's base (log 31), with a
share of 64 KiB in a SCRATCH bank of its cluster; beside it a share of core 1, a FIFO of sixteen 32-byte slots, a page of
device memory and one of HOST memory, both in the core's translation buffer, translation tables that hold nothing, and a
live CXL port. -/

/-- First addresses of the share, of core 1's, of the FIFO, of the device page and of the HOST page. -/
def shareBase : Nat := 2 ^ 47 + 2 ^ 30
def otherBase : Nat := 2 ^ 47 + 2 ^ 31
def fifoBase : Nat := 2 ^ 47 + 2 ^ 33
def memBase : Nat := 2 ^ 21
def hostBase : Nat := 2 ^ 22

/-- A window of the team. -/
def win (base size storage : Nat) (kind : WinKind) : Window := { part := 0, team := 0, base, size, storage, kind }

/-- A leaf, writable and dirty, of a memory type at an address (R384). -/
def leafOf (mtype pa : Nat) : Word := BitVec.ofNat 64 (0x193 + mtype * 2 ^ 9 + pa)

/-- The machine, its task with the changes of `f`. -/
def world (f : Ctx → Ctx) : State :=
  let s := State.reset.withFetchWord 32 0x04928B00
  let s := s.mapCore 0 fun c => { c with dtlb := [⟨0, memBase, 2 ^ 21, leafOf 2 (2 ^ 21), []⟩, ⟨0, hostBase, 2 ^ 21, leafOf 3 (2 ^ 45), []⟩] }
  let s := (s.mapPort 0 0 fun p => { p with up := true }).mapPart 0 fun p => { p with troot := 0 }
  ({ s with
    windows := s.windows ++ [win shareBase 65536 (bankBase 0) (.share 0), win otherBase 65536 (bankBase 0 + 65536) (.share 1),
      win fifoBase 512 (bankBase 1) (.fifo 0 1)]
    banks := [(0, { mode := .scratch, units := (List.range 32).map fun u => (u, 0) }),
      (1, { mode := .fifo, slot := 0, depthl := 4, owner := some 0 })] }).mapTask f

/-- Stored bytes put in place. -/
def poke (s : State) (a : Nat) (bs : List Byte) : State := { s with mem := Mem.writeAll s.mem ((addrRange a bs.length).zip bs) }

/-- Translation tables at 1 GiB, whose leaves map the first pages of 2 MiB: entry n of the last table is `leaves[n]`. -/
def tables (s : State) (leaves : List (Nat × Word)) : State :=
  let s := (s.mapPart 0 fun p => { p with troot := BitVec.ofNat 64 (2 ^ 30) })
  let s := poke (poke s (2 ^ 30) (bytesOf 8 (2 ^ 30 + 4096 + 1))) (2 ^ 30 + 4096) (bytesOf 8 (2 ^ 30 + 8192 + 1))
  leaves.foldl (fun s (n, e) => poke s (2 ^ 30 + 8192 + 8 * n) (bytesOf 8 e.toNat)) s

/-- A capability over 64 KiB from `base`, with its cursor at `at_`. -/
def capAt (base at_ : Nat) : Reg := { capReg (capOver [pLD, pST, pLDC, pSTC] base 65536) with val := BitVec.ofNat 64 at_ }

/-- A task's registers set. -/
def regs (l : List (Nat × Reg)) (t : Ctx) : Ctx := l.foldl (fun t (n, r) => t.putG n r) t

/-- Untagged values. -/
def vals (l : List (Nat × Word)) : Ctx → Ctx := regs (l.map fun (n, v) => (n, { val := v }))

/-- What a property of the next state is; none where there is no next state. -/
def after {α : Type} (o : Host.Outcome State Fault Refusal) (f : State → α) : Option α :=
  match o with
  | .next t => some (f t)
  | .fault _ => none
  | .refused _ => none

/-- The general register n of the task after an instruction. -/
def greg (i : Instr) (s : State) (n : Nat) : Option Word := after (exec i s) fun t => (t.task.gr n).val

/-! Integer instructions: worked from R189 to R191. -/

theorem test_add_wraps : greg (.add 1 2 3) (world (vals [(2, 0xFFFFFFFFFFFFFFFF), (3, 2)])) 1 = some 1 := by decide +kernel
theorem test_sub_borrow : greg (.sub 1 1 2) (world (vals [(1, 0), (2, 1)])) 1 = some 0xFFFFFFFFFFFFFFFF := by decide +kernel
theorem test_sra_sign : greg (.sra 1 2 3) (world (vals [(2, 0x8000000000000000), (3, 67)])) 1 = some 0xF000000000000000 := by
  decide +kernel
theorem test_ror : greg (.ror 1 2 3) (world (vals [(2, 0x0123456789ABCDEF), (3, 4)])) 1 = some 0xF0123456789ABCDE := by decide +kernel
theorem test_ror_zero : greg (.ror 1 2 3) (world (vals [(2, 5), (3, 64)])) 1 = some 5 := by decide +kernel
theorem test_slt_signed : greg (.slt 1 2 3) (world (vals [(2, 0xFFFFFFFFFFFFFFFF), (3, 0)])) 1 = some 1 := by decide +kernel
theorem test_sltu_unsigned : greg (.sltu 1 2 3) (world (vals [(2, 0xFFFFFFFFFFFFFFFF), (3, 0)])) 1 = some 0 := by decide +kernel
theorem test_clz_zero : greg (.clz 1 2) (world id) 1 = some 64 := by decide +kernel
theorem test_bswap : greg (.bswap 1 2) (world (vals [(2, 0x0102030405060708)])) 1 = some 0x0807060504030201 := by decide +kernel
theorem test_addi_negative : greg (.addi 1 2 (-1)) (world (vals [(2, 0)])) 1 = some 0xFFFFFFFFFFFFFFFF := by decide +kernel
theorem test_div_zero : greg (.div 1 2 3) (world (vals [(2, 7)])) 1 = some 0xFFFFFFFFFFFFFFFF := by decide +kernel
theorem test_div_overflow :
    greg (.div 1 2 3) (world (vals [(2, 0x8000000000000000), (3, 0xFFFFFFFFFFFFFFFF)])) 1 = some 0x8000000000000000 := by decide +kernel
theorem test_div_toward_zero : greg (.div 1 2 3) (world (vals [(2, 0xFFFFFFFFFFFFFFF9), (3, 2)])) 1 = some 0xFFFFFFFFFFFFFFFD := by
  decide +kernel
theorem test_rem_sign : greg (.rem 1 2 3) (world (vals [(2, 0xFFFFFFFFFFFFFFF9), (3, 2)])) 1 = some 0xFFFFFFFFFFFFFFFF := by
  decide +kernel
theorem test_mulh : greg (.mulh 1 2 3) (world (vals [(2, 0x8000000000000000), (3, 0x8000000000000000)])) 1 = some 0x4000000000000000 := by
  decide +kernel

/-! The worked example of ch. 09, "Narrowing a capability to an unaligned buffer". -/

/-- g5 of the example. -/
def g5 : Reg := { val := 0x1000000000, tag := true, desc := 0xC000003800010000 }
/-- g8 after its CINCI. -/
def g8 : Reg := { g5 with val := 0x1000000235 }
/-- g9 after its CBOUND. -/
def g9 : Reg := { g8 with desc := 0xC0000008011B408E }

theorem test_example_bounds : capBounds g5.desc g5.val = (0x1000000000, 0x1040000000) := by decide +kernel
theorem test_example_cinci : after (exec (.cinci 8 5 0x235) (world (regs [(5, g5)]))) (·.task.gr 8) = some g8 := by decide +kernel
theorem test_example_cbound :
    after (exec (.cbound 9 8 10) (world (regs [(8, g8), (10, { val := 0x50000 })]))) (·.task.gr 9) = some g9 := by decide +kernel
theorem test_example_clen : greg (.clen 11 9) (world (regs [(9, g9)])) 11 = some 0x50004 := by decide +kernel
theorem test_example_cbase : greg (.cbase 13 9) (world (regs [(9, g9)])) 13 = some 0x1000000234 := by decide +kernel
theorem test_example_csub : greg (.csub 12 5 9) (world (regs [(5, g5), (9, g9)])) 12 = some 1 := by decide +kernel
theorem test_csub_not : greg (.csub 12 9 5) (world (regs [(5, g5), (9, g9)])) 12 = some 0 := by decide +kernel

/-! The worked example of ch. 03, "A cursor leaves its window". -/

/-- The register of the example. -/
def gWin : Reg := { val := 0x200002000, tag := true, desc := 0xC000000002004100 }

theorem test_window_bounds : capBounds gWin.desc gWin.val = (0x200000100, 0x200004100) := by decide +kernel
theorem test_window_near :
    after (exec (.cinc 1 2 3) (world (regs [(2, gWin), (3, { val := BitVec.ofInt 64 (-0x2E00) })]))) (·.task.gr 1)
      = some { gWin with val := 0x1FFFFF200 } ∧ capBounds gWin.desc 0x1FFFFF200#64 = (0x200000100, 0x200004100) := by decide +kernel
theorem test_window_far :
    after (exec (.cinc 1 2 3) (world (regs [(2, gWin), (3, { val := BitVec.ofInt 64 (-0x4000) })])))
      (fun s => ((s.task.gr 1).val, (s.task.gr 1).tag)) = some (0x1FFFFE000, false) := by decide +kernel

/-! Ch. 04, "Worked rounding cases": code, then generator state and flags (OF 4, UF 2, NX 1). -/

/-- A positive value m·2^e rounded from generator state 1 and no flags. -/
def rounded (f : Fmt) (mode : Nat) (sat : Bool) (m : Nat) (e : Int) : Nat × FpEnv := FpEnv.round ⟨1, 0⟩ f mode sat (.fin false m e) 0

theorem test_round_bf16_rne : rounded fmtBf16 0 false 257 (-8) = (0x3F80, ⟨1, 1⟩) := by decide +kernel
theorem test_round_bf16_rna : rounded fmtBf16 4 false 257 (-8) = (0x3F81, ⟨1, 1⟩) := by decide +kernel
theorem test_round_bf16_sr : rounded fmtBf16 5 false 513 (-9) = (0x3F80, ⟨0x00042021, 1⟩) := by decide +kernel
theorem test_round_e4m3_tie : rounded fmtE4m3 0 false 464 0 = (0x7E, ⟨1, 1⟩) := by decide +kernel
theorem test_round_e4m3_over : rounded fmtE4m3 0 false 472 0 = (0x7F, ⟨1, 5⟩) := by decide +kernel
theorem test_round_e4m3_sat : rounded fmtE4m3 0 true 472 0 = (0x7E, ⟨1, 5⟩) := by decide +kernel
theorem test_round_fp16_rne : rounded fmt16 0 false 1 (-25) = (0, ⟨1, 3⟩) := by decide +kernel
theorem test_round_fp16_rup : rounded fmt16 3 false 1 (-25) = (1, ⟨1, 3⟩) := by decide +kernel
theorem test_round_e2m1 : rounded fmtE2m1 0 false 5 0 = (6, ⟨1, 1⟩) := by decide +kernel

/-! Vectors. -/

/-- A task's vector registers and masks set. -/
def vecs (l : List (Nat × VWord)) (ms : List (Nat × Word)) (t : Ctx) : Ctx :=
  ms.foldl (fun t (n, v) => t.putM n ⟨v, 0⟩) (l.foldl (fun t (n, v) => t.putV n { val := v }) t)

/-- Lane `i` of width `w` of vector register `n`. -/
def vlane (s : State) (w n i : Nat) : Nat := lane w (s.v n).val i

/-- Ch. 04, "A tree reduction against a sequential sum": 5.0 where a sequential sum gives 3. -/
theorem test_vred_tree :
    after (exec (.vred 1 4 0 8 0) (world (vecs [(4, ofLanes 64 [0x4340000000000000, 0x3FF0000000000000, 0x3FF0000000000000,
        0x3FF0000000000000, 0xC340000000000000, 0x3FF0000000000000, 0x3FF0000000000000, 0x3FF0000000000000])] [])))
      (fun s => (vlane s 64 1 0, vlane s 64 1 1, (FpEnv.of s.task.fpstat).flags)) = some (0x4014000000000000, 0, 1) := by decide +kernel

/-- Ch. 12, "A saturating narrowing into the upper half". -/
theorem test_vcvt_upper :
    after (exec (.vcvt 7 8 1 11 1 1 12) (world (vecs [(7, ofLanes 8 (List.replicate 64 0x11)),
        (8, ofLanes 16 [0x43E8, 0x43EC, 0x7FC0, 0x8000, 0x3A80, 0xC050])] [(1, 0x1F)])))
      (fun s => ((List.range 64).map (vlane s 8 7), (FpEnv.of s.task.fpstat).flags))
      = some (List.replicate 32 0x11 ++ [0x7E, 0x7E, 0x7F, 0x80, 0x00] ++ List.replicate 27 0x11, 7) := by decide +kernel

theorem test_vcvt_decode : decode 0xAC721B3C#32 = some (.vcvt 7 8 1 11 1 1 12) := by decide

/-- R283: lanes wrap and a masked-off lane keeps its value. -/
theorem test_vadd_masked :
    after (exec (.vadd 1 2 3 1 0) (world (vecs [(1, ofLanes 8 (List.replicate 64 7)), (2, ofLanes 8 (List.replicate 64 0xFF)),
        (3, ofLanes 8 (List.replicate 64 2))] [(1, 5)]))) (fun s => (List.range 4).map (vlane s 8 1)) = some [1, 7, 1, 7] := by decide +kernel
theorem test_vmulh :
    after (exec (.vmulh 1 2 3 0 1) (world (vecs [(2, ofLanes 16 [0x8000, 0x7FFF]), (3, ofLanes 16 [0x8000, 0xFFFF])] [])))
      (fun s => (vlane s 16 1 0, vlane s 16 1 1)) = some (0x4000, 0xFFFF) := by decide +kernel
theorem test_vsra :
    after (exec (.vsra 1 2 3 0 2) (world (vecs [(2, ofLanes 32 [0x80000000, 0x80000000]), (3, ofLanes 32 [33, 31])] [])))
      (fun s => (vlane s 32 1 0, vlane s 32 1 1)) = some (0xC0000000, 0xFFFFFFFF) := by decide +kernel
theorem test_vmin_signed :
    after (exec (.vmin 1 2 3 0 3) (world (vecs [(2, ofLanes 64 [0xFFFFFFFFFFFFFFFF]), (3, ofLanes 64 [1])] [])))
      (fun s => vlane s 64 1 0) = some 0xFFFFFFFFFFFFFFFF := by decide +kernel
/-- R286: the mask picks, and does not merge. -/
theorem test_vsel :
    after (exec (.vsel 1 2 3 1 2) (world (vecs [(2, ofLanes 32 [1, 2]), (3, ofLanes 32 [3, 4])] [(1, 2)])))
      (fun s => (vlane s 32 1 0, vlane s 32 1 1)) = some (3, 2) := by decide +kernel
/-- R289: lanes move up by gb. -/
theorem test_vslide :
    after (exec (.vslide 1 2 3 0 2) (world fun t => vals [(3, 1)] (vecs [(2, ofLanes 32 [5, 6, 7])] [] t)))
      (fun s => (vlane s 32 1 0, vlane s 32 1 1, vlane s 32 1 15)) = some (6, 7, 0) := by decide +kernel
theorem test_vextr_vins :
    greg (.vextr 1 2 3 1) (world fun t => vals [(3, 2)] (vecs [(2, ofLanes 16 [1, 2, 0xFFFE])] [] t)) 1 = some 0xFFFE := by decide +kernel
theorem test_mpopc : greg (.mpopc 1 2) (world (vecs [] [(2, 0xF0F)])) 1 = some 8 := by decide +kernel
theorem test_mfirst : greg (.mfirst 1 2) (world (vecs [] [(2, 0xF00)])) 1 = some 8 := by decide +kernel
theorem test_mfirst_none : greg (.mfirst 1 2) (world (vecs [] [(2, 0)])) 1 = some 64 := by decide +kernel
theorem test_mnot : after (exec (.mnot 1 2) (world (vecs [] [(2, 5)]))) (fun s => (s.m 1).val) = some 0xFFFFFFFFFFFFFFFA := by decide +kernel
/-- R284: 1/0 is an infinity with DZ; the square root of −1 is the NaN with NV. -/
theorem test_vfdiv_zero :
    after (exec (.vfdiv 1 2 3 1 0) (world (vecs [(2, ofLanes 64 [0x3FF0000000000000])] [(1, 1)])))
      (fun s => (vlane s 64 1 0, (FpEnv.of s.task.fpstat).flags)) = some (0x7FF0000000000000, 8) := by decide +kernel
theorem test_vfsqrt_negative :
    after (exec (.vfsqrt 1 2 1 0) (world (vecs [(2, ofLanes 64 [0xBFF0000000000000])] [(1, 1)])))
      (fun s => (vlane s 64 1 0, (FpEnv.of s.task.fpstat).flags)) = some (0x7FF8000000000000, 16) := by decide +kernel
/-- One rounding: (1 + 2⁻²³)² − (1 + 2⁻²²) = 2⁻⁴⁶. -/
theorem test_vfma_fused :
    after (exec (.vfma 1 2 3 1 1) (world (vecs [(1, ofLanes 32 [0xBF800002]), (2, ofLanes 32 [0x3F800001]), (3, ofLanes 32 [0x3F800001])]
      [(1, 1)]))) (fun s => (vlane s 32 1 0, (FpEnv.of s.task.fpstat).flags)) = some (0x28800000, 0) := by decide +kernel
theorem test_vfmul_bf16 :
    after (exec (.vfmul 1 2 3 0 3) (world (vecs [(2, ofLanes 16 [0x4000]), (3, ofLanes 16 [0xC040])] [])))
      (fun s => vlane s 16 1 0) = some 0xC0C0 := by decide +kernel

/-! Matrices. -/

/-- The element (i, j) of tile `p`. -/
def elem (s : State) (p i j : Nat) : Word := (s.tileAt p).elem (16 * i + j)

/-- Held B of a format, and name 0 standing for tile 2 with element (0, 0). -/
def tiled (c : Word) (etype : Nat) (b : List Byte) (f : Ctx → Ctx) : State :=
  (world fun t => f { t with tiles := [(0, 2)], heldB := some { bytes := b, scales := none, etype, taint := 0 } }).mapCore 0 fun k =>
    { k with tiles := [(2, { owner := some 0, elems := tileOf256 (c :: List.replicate 255 0) })] }

/-- Ch. 04, "One exact step against two rounded steps": the A row's four ranks in v0, the B column in held B. -/
theorem test_mdot_exact :
    after (exec (.mdot 0 16 48 0 0 0 0 0) (tiled 0x3FF0000000000000 11
        (vecBytes (ofLanes 16 ([0x4E80] ++ List.replicate 15 0 ++ [0xCE80])) ++ vecBytes (ofLanes 16 [0x3080]))
        (vecs [(0, ofLanes 16 [0x4E80, 0x4E80, 0x3080, 0])] [])))
      (fun s => (elem s 2 0 0, elem s 2 0 1, (FpEnv.of s.task.fpstat).flags)) = some (0x3FF0000000000000, 0, 1) := by decide +kernel

/-- Ch. 13, the min-plus step: min(10, 2 + 3) = 5. -/
theorem test_mrun_minplus :
    after (exec (.mrun 0 16 48) (tiled 0x4024000000000000 8 (List.replicate 6 0 ++ [0x08, 0x40] ++ List.replicate 120 0)
        fun t => vecs [(0, ofLanes 64 [0x4000000000000000])] [] { t with prog := 0x403014A0 }))
      (fun s => elem s 2 0 0) = some 0x4014000000000000 := by decide +kernel
theorem test_muprog_minplus : progOk 0x403014A0 = true := by decide +kernel

/-- R97: int8 by int8 over eight ranks, −1 times 127 eight times. -/
theorem test_mdot_integers :
    after (exec (.mdot 0 16 48 8 0 0 0 0) (tiled 0 0 (List.replicate 128 0x7F) (vecs [(0, ofLanes 8 (List.replicate 64 0xFF)), (1, 0)] [])))
      (fun s => (elem s 2 0 0, elem s 2 7 15, elem s 2 8 0)) = some (0xFFFFFFFFFFFFFC08, 0xFFFFFFFFFFFFFC08, 0) := by decide +kernel

/-! Ch. 22, "Placing three striped addresses", and ch. 05's two blocks on twenty-three peers. -/

/-- The table of the example, its override entry ACTIVE (state 1) or not. -/
def exTable (state : Nat) : Stripe :=
  { valid := true, n := 16, firstb := 0x4000, nblk := 0x1000
    peers := (List.range 16).map fun i => ⟨0, if i = 1 then 2 else if i = 2 then 7 else if i = 5 then 9 else 0, 0x10⟩
    overrides := [{ first := 0x4044, lenm1 := 0, state, npeer := 0, nslice := 0, nroff := 0, cpeer := 1, cslice := 40, croff := 0x100 }] }

theorem test_stripe_places :
    State.stripePa (exTable 1) 0x404318 = some 0xE200100018 ∧ State.stripePa (exTable 1) 0x404400 = some 0x5400010000
      ∧ State.stripePa (exTable 0) 0x404400 = some 0x12200100000 := by decide +kernel

/-- Ch. 13, "A scaled FP4 step with a NaN scale": sums of the elements (0, 0), (0, 15), (1, 0), (1, 15) and (15, 0), rounded. -/
theorem test_mx_step :
    let sums := dotSums {} fmtE2m1 fmtE2m1 16 (values 4 256 (List.replicate 8 0x33 ++ List.replicate 8 0x77 ++ List.replicate 112 0))
      (values 4 256 ((List.range 128).map fun i => if i % 8 = 0 then 0x06 else 0)) (some ([0x85, 0xFF] ++ List.replicate 14 0x7F))
      (some (0x7D :: List.replicate 15 0x7F))
    [0, 15, 16, 31, 240].map (fun n => (sums.getD n none).map fun (v, fl) => FpEnv.round ⟨1, 0⟩ fmt64 0 false v fl)
      = [some (0x4098000000000000, ⟨1, 0⟩), some (0, ⟨1, 0⟩), some (0x7FF8000000000000, ⟨1, 0⟩), some (0x7FF8000000000000, ⟨1, 0⟩),
        some (0, ⟨1, 0⟩)] := by decide +kernel

/-! Control flow. -/

/-- The PC after an instruction, from the start of the code section. -/
def pcAfter (i : Instr) (s : State) : Option Int := after (exec i s) fun t => ((t.task.pc - s.task.pc).toInt : Int)

/-- R205: branches reach backward, and compare as their names say. -/
theorem test_beq_taken : pcAfter (.beq 1 2 (-2)) (world (vals [(1, 5), (2, 5)])) = some (-8) := by decide +kernel
theorem test_blt_signed : pcAfter (.blt 1 2 3) (world (vals [(1, 0xFFFFFFFFFFFFFFFF)])) = some 12 := by decide +kernel
theorem test_bltu_unsigned : pcAfter (.bltu 1 2 3) (world (vals [(1, 0xFFFFFFFFFFFFFFFF)])) = some 4 := by decide +kernel
theorem test_bgeu : pcAfter (.bgeu 1 2 3) (world (vals [(1, 0xFFFFFFFFFFFFFFFF)])) = some 12 := by decide +kernel
/-- R206: the link is the team's code capability with its cursor behind the jump. -/
theorem test_jal : pcAfter (.jal 1 (-1)) (world id) = some (-4)
    ∧ after (exec (.jal 1 (-1)) (world id)) (fun s => ((s.task.gr 1).val, (s.task.gr 1).tag))
      = some (BitVec.ofNat 64 fetchBase + 4, true) := by decide +kernel
/-- R207: a jump through data takes CAP: the trap ends the task, which is neither in a frame nor in a transaction. -/
theorem test_jalr_data : after (exec (.jalr 1 2 0) (world (vals [(2, 64)]))) (fun s => s.task.occupied) = some false := by decide +kernel
/-- R210: RELEASE marks the task and goes on; R209: END frees its context. -/
theorem test_release : after (exec .release (world id)) (fun s => (s.task.released, s.task.occupied)) = some (true, true) := by decide +kernel
theorem test_end : after (exec .endTask (world id)) (fun s => s.task.occupied) = some false := by decide +kernel

/-! Capabilities. -/

/-- R193: permissions only shrink; CCLR drops the tag; a seal outside the sealing capability's range leaves the tag clear. -/
theorem test_cperm :
    after (exec (.cperm 1 5 2) (world (regs [(5, g5), (2, { val := 1 })]))) (fun s => hasPerm (s.task.gr 1).desc pLD && hasPerm (s.task.gr 1).desc pST)
      = some false := by decide +kernel
theorem test_cclr : after (exec (.cclr 1 5) (world (regs [(5, g5)]))) (fun s => (s.task.gr 1).tag) = some false := by decide +kernel
theorem test_ctag : greg (.ctag 1 5) (world (regs [(5, g5)])) 1 = some 1 := by decide +kernel
theorem test_cseal_data : after (exec (.cseal 1 5 2) (world (regs [(5, g5)]))) (fun s => (s.task.gr 1).tag) = some false := by decide +kernel

/-! Memory. -/

/-- R219: a store counts until its acknowledgement (R130), and R76: a load takes the lowest free slot. -/
theorem test_store_pends :
    after (exec (.stH 3 2 1) (world (regs [(2, capAt otherBase otherBase), (3, { val := 0x12345 })])))
      (fun s => s.task.pend.map fun p => (p.addrs.map (· - bankBase 0 - 65536), p.data)) = some [([2, 3], [0x45, 0x23])] := by decide +kernel
theorem test_load_takes_slot :
    after (exec (.ldD 1 2 0) (world (regs [(2, capAt memBase memBase)]))) (fun s => (s.task.slots, (s.task.gr 1).taint)) = some (1, 1) := by
  decide +kernel
/-- R217: a misaligned access takes ALIGN, one outside the bounds CAP; either ends the task. -/
theorem test_load_misaligned : after (exec (.ldW 1 2 0) (world (regs [(2, capAt memBase (memBase + 2))]))) (·.task.occupied) = some false := by
  decide +kernel
theorem test_load_outside : after (exec (.ldB 1 2 (-1)) (world (regs [(2, capAt memBase memBase)]))) (·.task.occupied) = some false := by
  decide +kernel

/-! Transactions (R146, R149, R230). -/

theorem test_xbegin : after (exec (.xbegin 1) (world (vals [(1, 7)]))) (fun s => ((s.task.gr 1).val, s.task.txn.map (·.depth))) = some (0, some 1) := by
  decide +kernel
theorem test_xtest : greg (.xtest 1) (world fun t => { t with txn := some { depth := 3, ticket := 0, dest := 0, resume := 0, snapG := [], snapS := [] } }) 1
    = some 3 := by decide +kernel
theorem test_xabort_outside : pcAfter (.xabort 9) (world id) = some 4 := by decide +kernel
theorem test_xend_outside : after (exec .xend (world id)) (·.task.occupied) = some false := by decide +kernel

/-! Vector compares, and the signed zero of a minimum (R283 to R285). -/

theorem test_vcmp_lt :
    after (exec (.vcmp 2 1 2 3 0 2) (world (vecs [(2, ofLanes 32 [0xFFFFFFFF, 5]), (3, ofLanes 32 [0, 5])] []))) (fun s => (s.m 1).val) = some 1 := by
  decide +kernel
theorem test_vfmin_zero :
    after (exec (.vfmin 1 2 3 0 1) (world (vecs [(2, 0), (3, ofLanes 32 [0x80000000])] []))) (fun s => vlane s 32 1 0) = some 0x80000000 := by
  decide +kernel
theorem test_vscan :
    after (exec (.vscan 1 2 0 3 0) (world (vecs [(2, ofLanes 32 [1, 2, 3, 4])] []))) (fun s => [0, 1, 2, 3, 15].map (vlane s 32 1))
      = some [1, 3, 6, 10, 10] := by decide +kernel
theorem test_vbcast :
    after (exec (.vbcast 1 2 0 1) (world (vals [(2, 0x12345)]))) (fun s => (vlane s 16 1 0, vlane s 16 1 31)) = some (0x2345, 0x2345) := by
  decide +kernel

/-! Registers by CSRR and CSRW (R90, R211, R214). -/

/-- FPSTAT: a flag written one is cleared, RM taken, a generator state of zero stored as one. -/
theorem test_fpstat_write : fpstatWrite 0x000000010000001F 0x0000000000000203 = 0x000000010000021C := by decide +kernel
theorem test_fpstat_reserved_mode : fpstatWrite 0x0000000700000300 0x0000000700000600 = 0x0000000700000300 := by decide +kernel
/-- A user team's read of a supervisor register takes ILLEGAL. -/
theorem test_csrr_privileged :
    let s := { world id with images := [(0, { fetchImage with sup := false })] }
    after (exec (.csrr 1 0x802) s) (·.task.occupied) = some false ∧ after (exec (.csrr 1 0x802) (world id)) (·.task.occupied) = some true := by
  decide +kernel

/-! Accesses and the machine's own steps they lead to: an instruction, then every step on the agenda, in order. -/

/-- The agenda drained, at most `n` steps of it. -/
def drain : Nat → State → State
  | 0, s => s
  | n + 1, s =>
    match s.agenda with
    | [] => s
    | e :: es => match runEvent e { s with agenda := es } with
      | .next t => drain n t
      | _ => s

/-- The doubleword at g2 of a task whose g2 is a capability over device memory, before an instruction; what is read after it. -/
def memWorld (word : Nat) (g3 g4 : Word) : State :=
  poke (world (regs [(2, capAt memBase memBase), (3, { val := g3 }), (4, { val := g4 })])) (2 ^ 21) (bytesOf 8 word)

/-- Register 1 and the doubleword after an instruction and the steps that follow. -/
def done (i : Instr) (s : State) : Option (Word × Word) :=
  after (exec i s) fun t => let t := drain 8 t; ((t.task.gr 1).val, t.readWord (2 ^ 21))

theorem test_load : done (.ldD 1 2 0) (memWorld 0x8070605040302010 0 0) = some (0x8070605040302010, 0x8070605040302010) := by decide +kernel
theorem test_load_sign : (done (.ldW 1 2 1) (memWorld 0x8070605040302010 0 0)).map (·.1) = some 0xFFFFFFFF80706050 := by decide +kernel
theorem test_load_zero : (done (.ldHu 1 2 3) (memWorld 0x8070605040302010 0 0)).map (·.1) = some 0x8070 := by decide +kernel
theorem test_store : (done (.stH 3 2 1) (memWorld 0x8070605040302010 0xAABBCCDD 0)).map (·.2) = some 0x80706050CCDD2010 := by decide +kernel
/-- R226: the returned value is the old one; MAX is signed, MAXU is not. -/
theorem test_amo_add : done (.aadd 1 2 3 0) (memWorld 0xFFFFFFFFFFFFFFFF 2 0) = some (0xFFFFFFFFFFFFFFFF, 1) := by decide +kernel
theorem test_amo_max : done (.amax 1 2 3 0) (memWorld 0x8000000000000000 5 0) = some (0x8000000000000000, 5) := by decide +kernel
theorem test_amo_maxu : done (.amaxu 1 2 3 0) (memWorld 0x8000000000000000 5 0) = some (0x8000000000000000, 0x8000000000000000) := by
  decide +kernel
/-- ACAS compares with gd and writes gb. -/
theorem test_cas_hit : done (.acas 1 2 3 0) ((memWorld 9 7 0).mapTask (vals [(1, 9)])) = some (9, 7) := by decide +kernel
theorem test_cas_miss : done (.acas 1 2 3 0) ((memWorld 9 7 0).mapTask (vals [(1, 8)])) = some (9, 9) := by decide +kernel
/-- R141: no return leaves gd as it is. -/
theorem test_amo_no_return : done (.axor 0 2 3 1) (memWorld 0xFF 0x0F 0) = some (0, 0xF0) := by decide +kernel
/-- R227, R229: SC without a reservation stores nothing and answers 0. -/
theorem test_sc_none : done (.sc 1 2 3) ((memWorld 4 5 0).mapTask (vals [(1, 9)])) = some (0, 4) := by decide +kernel

/-! Sync blocks, pallets, mailboxes: what an instruction leaves at once. -/

/-- R258: a range of register 2 pushed with a tag, then popped; register 1 has the result of the push, 4 and 5 range and tag. -/
theorem test_pallet :
    (after (exec (.dpush 1 2 3) (world (vals [(2, 0x0000000A00000003), (3, 77)]))) fun s =>
      after (exec (.dpop 4 5) s) fun t => ((t.task.gr 1).val, (t.task.gr 4).val, (t.task.gr 5).val)) = some (some (1, 0x0000000A00000003, 77)) := by
  decide +kernel
theorem test_dpop_empty : greg (.dpop 4 5) (world (vals [(4, 9)])) 4 = some 0 := by decide +kernel
/-- R233: a pop of an exhausted memory stream is all zeros. -/
theorem test_stream_exhausted :
    after (exec (.vadd 1 32 2 0 2) (world fun t => vecs [(1, ofLanes 32 [9]), (2, ofLanes 32 [4])] []
      { t with streams := [(0, { reg := 16 })] })) (fun s => vlane s 32 1 0) = some 4 := by decide +kernel
/-- R80: a read of an unbound stream takes ILLEGAL. -/
theorem test_stream_unbound : after (exec (.vadd 1 32 2 0 2) (world id)) (·.task.occupied) = some false := by decide +kernel
/-- R233: a pop reads 64 bytes at the cursor, moves it by ESTRIDE and lowers the count. -/
theorem test_stream_pop :
    after (exec (.vadd 1 32 2 0 2) (poke (world fun t => regs [(16, capAt shareBase shareBase), (17, { val := 0x0000000040000000 }), (18, { val := 3 })]
      { t with streams := [(0, { reg := 16 })] }) (bankBase 0) [1, 2, 3, 4])) (fun s =>
      let t := drain 4 s
      ((t.task.gr 16).val == BitVec.ofNat 64 (shareBase + 64), (t.task.gr 18).val)) = some (true, 2) := by decide +kernel

/-! Witnesses: states and operands that meet the hypotheses of the statements. -/

/-! States and operands that meet the hypotheses of the statements, clause by clause. -/

/-- A task with no changes, and one that waits for register 1. -/
def w0 : State := world id
def wBusy : State := world fun t => { t with pend := [{ op := 0, gen := 0, kind := .load, dest := .g 1 }] }

/-- A transaction of depth `n` over device memory. -/
def txn (n : Nat) : Txn :=
  { depth := n, ticket := 5, dest := 4, resume := 16, snapG := [], snapS := [], writes := [0x2000], reads := [0x2000] }

theorem witness_AluResults : w0.busyG 2 = false ∧ w0.busyG 3 = false := by decide +kernel

theorem witness_MultiplyDivideResults : w0.busyG 2 = false ∧ w0.busyG 3 = false := by decide +kernel

theorem witness_WriteRegister : (5 : BitVec 6) ≠ 0 ∧ (0 : BitVec 6) = 0 := by decide

theorem witness_CapabilityResults :
    let s := world (regs [(5, g5), (9, g9)])
    s.busyG 5 = false ∧ s.busyG 9 = false ∧ (capBounds g9.desc g9.val).1 ≤ (capBounds g9.desc g9.val).2 := by decide +kernel

theorem witness_SubsetTest :
    let s := world (regs [(5, g5), (9, g9)])
    let subset := fun (c x : Reg) => c.tag = true ∧ x.tag = true ∧ capOtype c.desc = capOtype x.desc
      ∧ (∀ i : Fin 12, hasPerm x.desc i = true → hasPerm c.desc i = true)
      ∧ (capBounds c.desc c.val).1 ≤ (capBounds x.desc x.val).1 ∧ (capBounds x.desc x.val).2 ≤ (capBounds c.desc c.val).2
    s.busyG 5 = false ∧ s.busyG 9 = false ∧ subset (s.g 5) (s.g 9) ∧ ¬ subset (s.g 9) (s.g 5) := by decide +kernel

theorem witness_BusySourceStalls : w0.busyG 1 = false ∧ w0.busyG 2 = false ∧ wBusy.busyG 1 = true := by decide +kernel

theorem witness_TaintInstructions :
    let s := world fun t => regs [(2, { val := 2 })] { t with slots := 1 }
    let u := world fun t => regs [(2, { val := 3 })] { t with slots := 1 }
    s.busyG 1 = false ∧ s.busyG 2 = false ∧ (s.g 2).val.extractLsb' 0 8 &&& s.task.slots = 0
      ∧ u.busyG 2 = false ∧ (u.g 2).val.extractLsb' 0 8 &&& u.task.slots ≠ 0 := by decide +kernel

/-- Both sides of a jump's check; literal loads at the start of the section, and without a code capability. -/
theorem witness_JumpsAndBranches_LiteralLoads :
    let s := world (regs [(2, { capReg (capOver [pEXEC] fetchBase 4096) with val := BitVec.ofNat 64 fetchBase })])
    let c := s.codeCap s.cur
    s.busyG 2 = false ∧ s.busyG 3 = false
      ∧ capFault (s.supAt s.cur) (s.g 2) ((s.g 2).val + BitVec.ofInt 64 (4 * (3 : BitVec 14).toInt)) 4 [pEXEC] 4 = none
      ∧ (s.task.pend.all fun q => q.acq == none) = true
      ∧ c.tag = true ∧ inBounds c s.task.pc 8 = true ∧ s.task.pc.toNat % 8 = 0
      ∧ s.codeBytes s.cur s.task.pc.toNat 8 = some [0x00, 0x8B, 0x92, 0x04, 0, 0, 0, 0]
      ∧ s.codeBytes s.cur s.task.pc.toNat 4 = some [0x00, 0x8B, 0x92, 0x04]
      ∧ (s.mapTeam 0 fun t => { t with codeCap := ⟨0, 0, false⟩ }).codeCap 0 = { val := 0, tag := false, desc := 0, taint := 0 } := by
  decide +kernel

/-- A body of one ADD after REP, with COUNT at 2; the same with COUNT at 0. -/
def repWorld (count : Word) : State :=
  let s := world (vals [(20, count)])
  { s with mem := Mem.writeAll s.mem ((addrRange (teamStore + 4) 4).zip (wordBytes 0x04928B00)) }

/-- With COUNT at 2, at 0, and of a frame that a translation fault has suspended. -/
theorem witness_RepeatBegins :
    let f : Frame := { words := [0x04928B00], rc := 20, len := 1, sd := 1, sa := 0, sb := 0 }
    let ok := fun (s : State) =>
      s.busyG 20 = false
        ∧ s.here.ctxs.all (fun (x, t) => x == s.ctx || !t.occupied || (State.runningFrame t).isNone) = true
        ∧ (s.g 20).val.toNat / 2 ^ 32 % 16 < 1
        ∧ (List.range 1).map (fun i => s.codeWord s.cur (s.task.pc + 4 + 4 * BitVec.ofNat 64 i).toNat) = [0x04928B00#32].map some
        ∧ [0x04928B00#32].all (fun w => bodyAllowed w && (decode w).isSome && !namesRc f ((s.g 20).val.toNat % 2 ^ 32) w) = true
    ok (repWorld 2) ∧ ok (repWorld 0) ∧ ok ((repWorld 2).mapTask fun t => { t with frame := some { f with suspended := true } }) := by
  decide +kernel

theorem witness_StaggeredFields : (5 : Nat) < 8 ∧ 31 < 32 ∧ 32 ≤ 39 ∧ 63 < 64 := by decide

/-- Retiring in a frame of two instructions: after the first, after the last, and after the last of the last iteration. -/
theorem witness_Retiring :
    let f : Frame := { words := [0x04928B00, 0x04928B00], rc := 20, len := 2, sd := 0, sa := 0, sb := 0 }
    let at_ := fun (v : Word) => world fun t => vals [(20, v)] { t with frame := some f }
    let next := fun (s : State) => ((s.task.gr f.rc).val.extractLsb' 32 4 : BitVec 4).toNat
    let count := fun (s : State) => ((s.task.gr f.rc).val.extractLsb' 0 32 : BitVec 32)
    State.runningFrame w0.task = none ∧ State.runningFrame (at_ 3).task = some f ∧ f.rc ≠ 0 ∧ f.rc < 64 ∧ f.len ≤ 16 ∧ next (at_ 3) + 1 < f.len
      ∧ next (at_ 0x100000003) + 1 = f.len ∧ count (at_ 0x100000003) ≠ 1
      ∧ next (at_ 0x100000001) + 1 = f.len ∧ count (at_ 0x100000001) = 1 := by decide +kernel

theorem witness_EndAndRelease :
    w0.task.txn = none ∧ (world fun t => { t with txn := some (txn 1) }).task.txn.isSome = true := by decide +kernel

theorem witness_TrapTaken :
    let s := { w0 with images := [(0, { fetchImage with retry := 2 })] }
    let t := s.task
    t.released = false ∧ cILLEGAL ≠ cPOISON ∧ t.msg.retry < (s.imageAt s.cur).retry ∧ cILLEGAL < 256 ∧ (0 : Nat) < 4096
      ∧ t.msg.payload.length ≤ 256 ∧ s.ctx < 8 ∧ t.gen < 256 ∧ t.msg.retry < 16 ∧ t.msg.handler < 4096 := by decide +kernel

/-- An untagged register fails every form's check with CAP; a tagged one at an odd address fails the aligned forms' with ALIGN. -/
theorem witness_AccessChecks :
    let s := world (regs [(3, capAt memBase (memBase + 1))])
    let fails := fun (b : BitVec 6) n perms align => capFault (s.supAt s.cur) (s.g b) (s.g b).val n perms align
    s.busyG 2 = false ∧ s.busyG 3 = false ∧ s.busyG 1 = false ∧ s.task.txn = none
      ∧ fails 2 1 [pLD] 1 = some cCAP ∧ fails 2 2 [pLD] 2 = some cCAP ∧ fails 2 4 [pLD] 4 = some cCAP
      ∧ fails 2 8 [pLD] 8 = some cCAP ∧ fails 2 16 [pLD] 16 = some cCAP ∧ fails 2 1 [pST] 1 = some cCAP
      ∧ fails 2 2 [pST] 2 = some cCAP ∧ fails 2 4 [pST] 4 = some cCAP ∧ fails 2 8 [pST] 8 = some cCAP
      ∧ fails 2 16 [pST] 16 = some cCAP ∧ fails 2 4 [pEXEC] 4 = some cCAP ∧ fails 2 8 [pLD, pST] 8 = some cCAP
      ∧ fails 3 2 [pLD] 2 = some cALIGN ∧ fails 3 8 [pST] 8 = some cALIGN ∧ fails 3 16 [pLD] 16 = some cALIGN
      ∧ fails 3 8 [pLD, pST] 8 = some cALIGN ∧ 0 < 8 := by decide +kernel

/-- `Granted` where the place is given. -/
theorem granted_of {s : State} {c : Reg} {va : Word} {n align a : Nat} {perms : List Nat} {acc : Access} {p : Place}
    (h : capFault (s.supAt s.cur) c va n perms align = none ∧ s.xlate s.cur va.toNat acc = .ok a p)
    (hp : ∀ st, p = .host st → (s.portOf st).isSome = true) : Granted s c va n perms align acc a p := ⟨h.1, h.2, hp⟩

theorem clear_of {s : State} {as : List Nat} (h : s.poisonedByte as = none ∧ s.flips = []) : Clear s as :=
  ⟨h.1, by rw [h.2]; nofun⟩

theorem bindsNow_of {s : State} {as : List Nat} (h : s.task.pend = [] ∧ ∀ l ∈ linesOf as, s.lineDraining l = false) :
    BindsNow s as :=
  And.intro h.2 fun _ hq => absurd (h.1 ▸ hq) List.not_mem_nil

/-- The task with g2 a capability over the share, g3 over core 1's, g4 over the FIFO, g5 over device memory, g6 over HOST
memory, cursors at the first byte, g7 a tagged value with GLOBAL, g8 a number. -/
def wMem (f : Ctx → Ctx) : State :=
  world fun t => regs [(2, capAt shareBase shareBase), (3, capAt otherBase otherBase),
    (4, { capReg (capOver [pLD, pST] fifoBase 512) with val := BitVec.ofNat 64 fifoBase }), (5, capAt memBase memBase),
    (6, capAt hostBase hostBase), (7, capReg (capOver [pLD, pGLOBAL] memBase 64)), (8, { val := 16 })] (f t)

/-- The same with an open transaction that has recorded the tile of the device page's first bytes. -/
def wTxn : State := wMem fun t => { t with txn := some (txn 1) }

/-- Every form of load, at one of the five places each, and inside a transaction at a place that is not tracked. -/
theorem witness_LoadsIssue :
    let s := wMem id
    let at_ := fun (b : BitVec 6) (n : Nat) => (s.g b).val + BitVec.ofInt 64 (n * (1 : BitVec 10).toInt)
    (∀ b : BitVec 6, s.busyG b = false) ∧ Untracked s .own ∧ Untracked s (.host 0) ∧ Untracked wTxn .own
      ∧ Granted s (s.g 2) (at_ 2 1) 1 [pLD] 1 .read (bankBase 0 + 1) .own ∧ Clear s (addrRange (bankBase 0 + 1) 1)
      ∧ Granted s (s.g 3) (at_ 3 2) 2 [pLD] 2 .read (bankBase 0 + 65538) (.share 1) ∧ Clear s (addrRange (bankBase 0 + 65538) 2)
      ∧ Granted s (s.g 4) (at_ 4 4) 4 [pLD] 4 .read (bankBase 1 + 4) (.fifo 1) ∧ Clear s (addrRange (bankBase 1 + 4) 4)
      ∧ Granted s (s.g 5) (at_ 5 8) 8 [pLD] 8 .read (2 ^ 21 + 8) (.home 0 0) ∧ Clear s (addrRange (2 ^ 21 + 8) 8)
      ∧ Granted s (s.g 5) (at_ 5 16) 16 [pLD] 16 .read (2 ^ 21 + 16) (.home 0 0) ∧ Clear s (addrRange (2 ^ 21 + 16) 16)
      ∧ Granted s (s.g 6) (s.g 6).val (2 ^ (3 : BitVec 2).toNat) [pLD] (2 ^ (3 : BitVec 2).toNat) .read (2 ^ 45) (.host 0)
      ∧ Clear s (addrRange (2 ^ 45) 8) ∧ s.task.txn = none ∧ wTxn.busyG 2 = false ∧ (3 : BitVec 3).toNat < 4
      ∧ Granted wTxn (wTxn.g 2) (wTxn.g 2).val 1 [pLD] 1 .read (bankBase 0) .own ∧ Clear wTxn (addrRange (bankBase 0) 1) := by
  refine ⟨by decide +kernel, .inl (by decide +kernel), .inl (by decide +kernel), .inr rfl, ?_⟩
  and_intros <;> first
    | decide +kernel
    | exact clear_of (by decide +kernel)
    | (intro st h; cases h <;> decide +kernel)

theorem witness_LoadTakesSlot :
    let s := wMem id
    let p : PendOp := { op := 0, gen := 0, kind := .load, addrs := addrRange (2 ^ 21) 8, place := .home 0 0 }
    (1 : BitVec 6) ≠ 0 ∧ s.task.pend = [] ∧ p.kind = .load ∧ p.place = .home 0 0 ∧ (∀ a ∈ p.addrs, s.l1Hit s.cur [a] = false ∧ s.clusterHit s.cur [a] = false)
      ∧ p.addrs ≠ [] ∧ p.rel = none ∧ p.after = [] := by decide +kernel

/-- Every form of store; STC of a tagged value to the team's own region, and of an untagged one to device memory. -/
theorem witness_StoresIssue :
    let s := wMem id
    let at_ := fun (b : BitVec 6) (n : Nat) => (s.g b).val + BitVec.ofInt 64 (n * (1 : BitVec 10).toInt)
    (∀ b : BitVec 6, s.busyG b = false) ∧ Untracked s .own ∧ s.counterFull .own = false ∧ Untracked s (.home 0 0)
      ∧ s.counterFull (.home 0 0) = false ∧ s.counterFull (.host 0) = false ∧ s.counterFull (.share 1) = false
      ∧ Granted s (s.g 2) (at_ 2 1) 1 [pST] 1 .write (bankBase 0 + 1) .own
      ∧ Granted s (s.g 3) (at_ 3 2) 2 [pST] 2 .write (bankBase 0 + 65538) (.share 1)
      ∧ Granted s (s.g 5) (at_ 5 4) 4 [pST] 4 .write (2 ^ 21 + 4) (.home 0 0)
      ∧ Granted s (s.g 6) (at_ 6 8) 8 [pST] 8 .write (2 ^ 45 + 8) (.host 0)
      ∧ (hasPerm (s.g 2).desc pSTC = true ∧ (hasPerm (s.g 7).desc pGLOBAL = true ∨ s.inTeamRegions s.cur (at_ 2 16).toNat = true))
      ∧ Granted s (s.g 2) (at_ 2 16) 16 [pST] 16 .write (bankBase 0 + 16) .own
      ∧ s.task.txn = none ∧ Granted s (s.g 5) (s.g 5).val (2 ^ (2 : BitVec 2).toNat) [pST] (2 ^ (2 : BitVec 2).toNat) .write (2 ^ 21) (.home 0 0)
      ∧ Granted s (s.g 5) (BitVec.ofNat 64 ((s.g 5).val.toNat / 128 * 128)) 128 [pST] 1 .write (2 ^ 21) (.home 0 0) := by
  refine ⟨by decide +kernel, .inl (by decide +kernel), by decide +kernel, .inl (by decide +kernel), ?_⟩
  and_intros <;> first
    | decide +kernel
    | exact clear_of (by decide +kernel)
    | (intro st h; cases h <;> decide +kernel)

/-- STC of a tagged value through a capability without STC, and of one without GLOBAL to device memory. -/
theorem witness_TaggedStoreChecked :
    let s := wMem (regs [(9, capReg (capOver [pLD, pST] memBase 64))])
    let va := fun (b : BitVec 6) => (s.g b).val + BitVec.ofInt 64 (16 * (0 : BitVec 10).toInt)
    s.busyG 4 = false ∧ s.busyG 7 = false ∧ s.busyG 5 = false ∧ s.busyG 9 = false
      ∧ capFault (s.supAt s.cur) (s.g 4) (va 4) 16 [pST] 16 = none ∧ (s.g 7).tag = true ∧ hasPerm (s.g 4).desc pSTC = false
      ∧ capFault (s.supAt s.cur) (s.g 5) (va 5) 16 [pST] 16 = none ∧ (s.g 9).tag = true
      ∧ hasPerm (s.g 9).desc pGLOBAL = false ∧ s.inTeamRegions s.cur (va 5).toNat = false := by decide +kernel

theorem recorded_wTxn (w : Bool) : Recorded wTxn (txn 1) (BitVec.ofNat 64 memBase + 8) (.home 0 0) w :=
  ⟨by decide +kernel, 0, 0, 0, 0, 2 ^ 21, rfl, by decide +kernel, by decide +kernel, by decide +kernel, .inl (by decide)⟩

theorem witness_TransactionalAccesses :
    let s := wTxn
    let va := (s.g 5).val + BitVec.ofInt 64 (8 * (1 : BitVec 10).toInt)
    s.busyG 5 = false ∧ (s.g 5).taint = 0 ∧ Granted s (s.g 5) va 8 [pLD] 8 .read (2 ^ 21 + 8) (.home 0 0)
      ∧ Recorded s (txn 1) va (.home 0 0) false ∧ Clear s (addrRange (2 ^ 21 + 8) 8)
      ∧ s.hostAsk 0 (addrRange (2 ^ 21 + 8) 8) false none = none ∧ BindsNow s (addrRange (2 ^ 21 + 8) 8) ∧ s.busyG 8 = false ∧ (s.g 8).taint = 0
      ∧ Granted s (s.g 5) va 8 [pST] 8 .write (2 ^ 21 + 8) (.home 0 0) ∧ Recorded s (txn 1) va (.home 0 0) true
      ∧ s.task.txn.isSome = true ∧ (([(2 ^ 21, 7), (2 ^ 21 + 1, 8)] : List (Nat × Byte)).map (·.1)).Nodup := by
  have h : (wTxn.g 5).val + BitVec.ofInt 64 (8 * (1 : BitVec 10).toInt) = BitVec.ofNat 64 memBase + 8 := by decide +kernel
  refine ⟨by decide +kernel, by decide +kernel, granted_of (by decide +kernel) nofun, h ▸ recorded_wTxn false,
    clear_of (by decide +kernel), by decide +kernel, bindsNow_of (by decide +kernel), by decide +kernel, by decide +kernel,
    granted_of (by decide +kernel) nofun, h ▸ recorded_wTxn true, by decide +kernel, by decide⟩

theorem witness_OwnRegionLoad :
    let s := wMem id
    let at_ := fun (n : Nat) => (s.g 2).val + BitVec.ofInt 64 (n * (1 : BitVec 10).toInt)
    let ok := fun n => Granted s (s.g 2) (at_ n) n [pLD] n .read (bankBase 0 + n) .own ∧ Clear s (addrRange (bankBase 0 + n) n)
      ∧ s.tileLocked (addrRange (bankBase 0 + n) n) = false ∧ ∀ x ∈ addrRange (bankBase 0 + n) n, s.serves x = .now
    (1 : BitVec 6) ≠ 0 ∧ s.task.pend = [] ∧ s.task.slots = 0 ∧ s.task.frame = none ∧ (s.g 2).taint = 0
      ∧ (∀ l ∈ s.here.l1, l.copy = none) ∧ ok 1 ∧ ok 2 ∧ ok 4 ∧ ok 8 := by
  intro s at_ ok
  have h : ∀ n ∈ [1, 2, 4, 8], ok n := by
    simp only [List.mem_cons, List.not_mem_nil, or_false, forall_eq_or_imp, forall_eq]
    exact ⟨⟨granted_of (by decide +kernel) nofun, clear_of (by decide +kernel), by decide +kernel⟩,
      ⟨granted_of (by decide +kernel) nofun, clear_of (by decide +kernel), by decide +kernel⟩,
      ⟨granted_of (by decide +kernel) nofun, clear_of (by decide +kernel), by decide +kernel⟩,
      ⟨granted_of (by decide +kernel) nofun, clear_of (by decide +kernel), by decide +kernel⟩⟩
  exact ⟨by decide, by decide +kernel, by decide +kernel, by decide +kernel, by decide +kernel, by decide +kernel, h 1 (by simp),
    h 2 (by simp), h 4 (by simp), h 8 (by simp)⟩

/-- A machine with a store of two bytes pending to device memory, and one of a tagged granule to core 1's share. -/
def wPend : State :=
  wMem fun t => { t with
    pend := [{ op := 0, gen := 0, kind := .store, addrs := addrRange (2 ^ 21) 2, data := [1, 2], place := .home 0 0, counted := true },
      { op := 1, gen := 0, kind := .store, addrs := addrRange (bankBase 0 + 65536) 16, data := List.replicate 16 3
        tags := [((bankBase 0 + 65536) / 16, true)], place := .share 1, counted := true }], opNo := 2, sack := 2 }

/-- A home that takes a step. -/
theorem homeOpen_of {s : State} {e : Event} {site : Nat} {as : List Nat} {w : Bool}
    (h : s.tileLocked as = false ∧ (∀ a ∈ as, s.serves a ≠ .later) ∧ (∀ l ∈ linesOf as, s.lineDraining l = false)
      ∧ s.hostAsk site as w (some e) = none) : HomeOpen s e site as w := h

theorem witness_StorePerformed :
    let s := wPend
    let ok := fun (p : PendOp) => p.kind = .store ∧ p.data.length = p.addrs.length ∧ p.addrs.Nodup
      ∧ ∀ q ∈ (s.ctxAt 0 0).pend, State.localPlace q.place = false
    (∃ p, s.findOp 0 0 0 = some p ∧ (ok p ∧ (∀ a ∈ p.addrs, s.placeServes p.place a = .now) ∧ p.tags = [])
        ∧ HomeOpen s (.storePerform 0 0 0) (opSite 0 p.place) p.addrs true)
      ∧ ∃ p, s.findOp 0 0 1 = some p ∧ (ok p ∧ p.place = .share 1 ∧ (s.core 1).lost ≠ 1
          ∧ (∀ q ∈ (s.ctxAt 0 0).owed, q.op ≠ 1) ∧ (∀ a ∈ p.addrs, s.placeServes p.place a = .now) ∧ (∀ g ∈ p.tags, s.placeServes p.place (g.1 * 16) = .now)
          ∧ p.tags = [((bankBase 0 + 65536) / 16, true)])
        ∧ HomeOpen s (.remoteRegionAccess 0 0 1) (opSite 0 p.place) p.addrs true :=
  ⟨⟨_, rfl, by decide +kernel, homeOpen_of (by decide +kernel)⟩, ⟨_, rfl, by decide +kernel, homeOpen_of (by decide +kernel)⟩⟩

/-- A store to units of a bank that has gone to another mode. -/
theorem witness_StorePerformed_never :
    let s := { wPend with banks := [] }
    ∃ p, s.findOp 0 0 1 = some p ∧ (∀ a ∈ p.addrs, s.placeServes p.place a = .never) ∧ ∀ g ∈ p.tags, s.placeServes p.place (g.1 * 16) = .never :=
  ⟨_, rfl, by decide +kernel⟩

theorem witness_AtomicsPerformed :
    let r : AmoReq := { core := 0, addr := 2 ^ 21, op := 0, opnd := 3, cmp := 0, comm := false, stat := false, scope := 0
                        ret := some (0, 0, 0, 4), acks := [] }
    let as := addrRange r.addr 8
    (∀ a ∈ as, w0.regionServes a = .now) ∧ ({ r with ret := none } : AmoReq).ret = none
      ∧ (∀ q ∈ (w0.ctxAt 0 0).pend, State.localPlace q.place = false)
      ∧ HomeOpen w0 (.homeAmo r) (if r.addr < 2 ^ 45 then paSite r.addr else siteOf r.core) as true
      ∧ w0.amoHold (paSite r.addr) r (.homeAmo r) = none ∧ r.addr < 2 ^ 45
      ∧ w0.heldBack (agentHod (paSite r.addr) (paSlice r.addr)) (.homeAmo r) = false ∧ w0.windowOf (.homeAmo r) = none
      ∧ r.ret = some (0, 0, 0, 4) ∧ HomeOpen w0 (.niAtomic 0 r none) (siteOf 0) as true
      ∧ w0.heldBack (agentNi 0) (.niAtomic 0 r none) = false ∧ (w0.core 0).lost ≠ 1 ∧ w0.windowOf (.niAtomic 0 r none) = none :=
  ⟨by decide +kernel, rfl, by decide +kernel, homeOpen_of (by decide +kernel), by decide +kernel, by decide, by decide +kernel, by decide +kernel, rfl,
    homeOpen_of (by decide +kernel), by decide +kernel⟩

/-- FENCE with nothing outstanding, at BLOCK scope and, its peers flushed, at SYSTEM; cache operations on device memory, on the
core's own share, and on a line the cluster holds dirty; a transaction. -/
theorem witness_FencesAndCaches :
    let s := wMem id
    let f := s.combineFlush s.cur s.ctx s.task.opNo
    let c := s.g 5
    let dirty := s.clusterInstall 0 0 (2 ^ 14) .modified none
    s.task.txn = none ∧ f.task.pend.all (fun p => !unboundOp p && p.kind != .fenceSs) = true ∧ f.task.sack = 0
      ∧ State.nextOut f.task = none ∧ (0 : BitVec 3).toNat < 4
      ∧ State.flushOver f.task f.task.flush = true
      ∧ s.busyG 5 = false ∧ capFault (s.supAt s.cur) c c.val 1 [pLD] 1 = none ∧ s.xlate s.cur c.val.toNat .read = .ok (2 ^ 21) (.home 0 0)
      ∧ s.xlateHomed s.cur c.val.toNat .read = .ok (2 ^ 21) (.home 0 0) ∧ tracked (.home 0 0) = true ∧ (s.clusterFind s.cur (2 ^ 21 / 128)).any (·.state.isDirty) = false
      ∧ (dirty.clusterFind dirty.cur (2 ^ 21 / 128)).any (·.state.isDirty) = true ∧ dirty.counterFull (.home 0 0) = false
      ∧ s.xlate s.cur (s.g 2).val.toNat .read = .ok (bankBase 0) .own ∧ tracked .own = false ∧ (s.g 2).taint = 0
      ∧ s.poisonedByte (addrRange (2 ^ 21 / 128 * 128) 128) = none ∧ c.taint = 0
      ∧ (capFault (s.supAt s.cur) (s.g 8) (s.g 8).val 1 [pLD] 1).isSome = true ∧ s.busyG 8 = false ∧ wTxn.task.txn.isSome = true := by
  decide +kernel

/-- Fill and copy of a line; a copy of 40 bytes over its own source, which goes from its end; and nothing left to do. -/
theorem witness_BlockMoves :
    let s := wMem fun t => regs [(8, { val := 300 }), (9, capAt memBase (memBase + 4096)), (10, capAt memBase (memBase + 16)),
      (11, { val := 40 })] t
    ((∀ b : BitVec 6, s.busyG b = false ∧ (s.g b).taint = 0) ∧ s.task.txn = none ∧ s.task.blockDesc = none
        ∧ (s.g 0).val.toNat = 0 ∧ (s.g 8).val.toNat ≠ 0 ∧ (s.g 11).val.toNat ≠ 0 ∧ s.counterFull (.home 0 0) = false
        ∧ min 300 (memBase / 128 * 128 + 128 - memBase) = 128
        ∧ capFault (s.supAt s.cur) (s.g 9) (s.g 9).val 128 [pLD] 1 = none ∧ (plainRead s (s.g 9).val 128 false).isSome = true
        ∧ ¬ (memBase + 4096 < memBase) ∧ (memBase < memBase + 16 ∧ memBase + 16 < memBase + 40)
        ∧ max (memBase + 16) ((memBase + 55) / 128 * 128) = memBase + 16
        ∧ capFault (s.supAt s.cur) (s.g 5) (s.g 5).val 40 [pLD] 1 = none ∧ (plainRead s (s.g 5).val 40 false).isSome = true)
      ∧ Granted s (s.g 5) (s.g 5).val 128 [pST] 1 .write (2 ^ 21) (.home 0 0)
      ∧ Granted s (s.g 10) (BitVec.ofNat 64 (memBase + 16)) 40 [pST] 1 .write (2 ^ 21 + 16) (.home 0 0) :=
  ⟨by decide +kernel, granted_of (by decide +kernel) nofun, granted_of (by decide +kernel) nofun⟩

theorem witness_AtomicsIssue :
    let s := wMem id
    let c := s.g 5
    s.busyG 5 = false ∧ s.busyG 8 = false ∧ (∀ bk, Place.home 0 0 ≠ .fifo bk) ∧ Clear s (addrRange (2 ^ 21) 8)
      ∧ s.counterFull (.home 0 0) = false ∧ s.task.txn = none ∧ Granted s c c.val 8 [pLD, pST] 8 .amo (2 ^ 21) (.home 0 0)
      ∧ c.taint = 0 ∧ (s.g 8).taint = 0 ∧ Granted s c c.val 4 [pLD, pST] 4 .amo (2 ^ 21) (.home 0 0) ∧ Clear s (addrRange (2 ^ 21) 4)
      ∧ s.busyG 9 = false :=
  ⟨by decide +kernel, by decide +kernel, nofun, clear_of (by decide +kernel), by decide +kernel, by decide +kernel,
    granted_of (by decide +kernel) nofun, by decide +kernel, by decide +kernel, granted_of (by decide +kernel) nofun,
    clear_of (by decide +kernel), by decide +kernel⟩

/-- LRW and SC of a word of device memory, and in a transaction. -/
theorem witness_ReservationsIssue :
    let s := wMem id
    let c := s.g 5
    s.busyG 5 = false ∧ s.busyG 8 = false ∧ c.taint = 0 ∧ (s.g 8).taint = 0 ∧ s.task.txn = none
      ∧ Clear s (addrRange (2 ^ 21) 8) ∧ wTxn.busyG 5 = false ∧ wTxn.busyG 8 = false ∧ (wTxn.g 5).taint = 0
      ∧ (wTxn.g 8).taint = 0 ∧ wTxn.task.txn.isSome = true ∧ Granted s c c.val 8 [pLD] 8 .read (2 ^ 21) (.home 0 0)
      ∧ Granted s c c.val 8 [pLD, pST] 8 .write (2 ^ 21) (.home 0 0) := by
  and_intros <;> first
    | decide +kernel
    | exact fun _ h => nomatch h

theorem witness_TransactionInstructions :
    let s := wTxn
    let deep := wMem fun t => { t with txn := some (txn 7) }
    let free := fun t : Ctx => t.slots = 0 ∧ t.sack = 0 ∧ ∀ q ∈ t.pend, q.acq = none
    free w0.task ∧ w0.task.txn = none ∧ free s.task ∧ s.task.txn = some (txn 1) ∧ free deep.task ∧ deep.task.txn = some (txn 7)
      ∧ (txn 7).depth ≠ 1 ∧ wPend.task.sack ≠ 0 ∧ (255 : Nat) < 256 := by decide +kernel

theorem witness_CommitBegins_TransactionAborts :
    let s := wTxn
    let f := s.combineFlush s.cur s.ctx s.task.opNo
    s.task.txn = some (txn 1) ∧ (txn 1).depth = 1 ∧ f.task.pend.all (fun p => !unboundOp p) = true ∧ f.task.sack = 0
      ∧ State.nextOut f.task = none ∧ ((txn 1).reads ++ (txn 1).writes).map (fun t => paSite (t * 256) * 64 + paSlice (t * 256)) ≠ []
      ∧ (txn 1).dest ≠ 0 ∧ (txn 1).depth < 8 := by decide +kernel

/-- Two contexts with transactions: context 0 the older, context 1 a reader of the tile. -/
def wArb : State :=
  (wMem fun t => { t with txn := some { txn 1 with reads := [], writes := [] } }).mapCtx 0 1 fun t =>
    { t with occupied := true, txn := some { txn 1 with ticket := 64, writes := [] } }

theorem witness_TransactionHomes_arbitration :
    let s := { wArb with tileDirs := [(0x2000, { readers := [(0, 1)], blocks := [0x2000] })] }
    let tx := { txn 1 with reads := [], writes := [] }
    let d : TileDir := Sparse.get {} s.tileDirs 0x2000
    let halves := d.blocks.flatMap fun b => [b * 256, b * 256 + 64, b * 256 + 128, b * 256 + 192]
    let at_ := if paSite (0x2000 * 256) = siteOf 0 then s else s.advanceTicket (paSite (0x2000 * 256)) (tx.ticket / 32)
    (s.ctxAt 0 0).txn = some tx ∧ tx.removed = none ∧ (true = true ∨ d.readers.length < 8) ∧ d.locked = false ∧ s.tileReserved d = false
      ∧ at_.hostAsk (paSite (0x2000 * 256)) halves true (some (.txArbitration 0 0 0x2000 true)) = none
      ∧ (∀ h ∈ d.readers.filter (· != (0, 0)), h ≠ (0, 0)) ∧ older tx.ticket (s.ticketOf (0, 1)) = true
      ∧ older (s.ticketOf (0, 1)) tx.ticket = false := by decide +kernel

theorem get_all {α : Type} {p : α → Prop} {d : α} (m : Sparse α) (hd : p d) (h : ∀ x ∈ m, p x.2) (k : Nat) :
    p (Sparse.get d m k) := by
  induction m with
  | nil => exact hd
  | cons y t ih =>
    obtain ⟨j, v⟩ := y
    simp only [Sparse.get]
    split
    · exact h (j, v) (by simp)
    · exact ih fun x hx => h x (by simp [hx])

/-- No context has an operation pending. -/
theorem pend_none {s : State} (h : ∀ c ∈ s.cores, ∀ t ∈ c.2.ctxs, t.2.pend = []) (j y : Nat) : (s.ctxAt j y).pend = [] := by
  refine get_all (p := fun t : Ctx => t.pend = []) _ rfl ?_ y
  exact get_all (p := fun c : Core => ∀ t ∈ c.ctxs, t.2.pend = []) s.cores (by intro t ht; cases ht) h j

theorem witness_TransactionHomes_install :
    let done := wMem fun t => { t with txn := some { txn 1 with locking := some [], spec := [(2 ^ 21, 5)] } }
    ∀ j y, ∀ q ∈ (done.ctxAt j y).pend, q.kind = .store → State.localPlace q.place = false := by
  intro done j y q hq
  rw [pend_none (by decide +kernel) j y] at hq
  cases hq

theorem witness_TransactionHomes_VersionsTicketsRows :
    let tx := { txn 1 with locking := some [0, 1] }
    let s := wMem fun t => { t with txn := some tx }
    let done := wMem fun t => { t with txn := some { txn 1 with locking := some [], spec := [(2 ^ 21, 5)] } }
    let gone := wMem fun t => { t with txn := some { txn 1 with removed := some 6 } }
    (s.ctxAt 0 0).txn = some tx ∧ tx.removed = none ∧ tx.locking = some [0, 1] ∧ 0 ∈ [0, 1]
      ∧ (∀ t ∈ tx.writes, tileHome t = 0 → (s.dirOf t).readHolds = [])
      ∧ (done.ctxAt 0 0).txn = some { txn 1 with locking := some [], spec := [(2 ^ 21, 5)] }
      ∧ (([(2 ^ 21, 5)] : Sparse Byte).map (·.1)).Nodup ∧ (txn 1).log = []
      ∧ (gone.ctxAt 0 0).txn = some { txn 1 with removed := some 6 } ∧ (gone.ctxAt 0 0).hold = none
      -- an eviction; row reads of a row not sampled before, and of one sampled eight times
      ∧ (wTxn.ctxAt 0 0).txn = some (txn 1) ∧ 0x2000 ∈ (txn 1).writes ∧ 0x2000 ∉ (txn 1).versioned
      ∧ (wTxn.cores.flatMap fun (_, c) => c.ctxs.flatMap fun (_, t) =>
           ((t.txn.map fun y => y.versioned.filter fun v => tileHome v == tileHome 0x2000).getD [])).length < 1024
      ∧ w0.rowSample 0 [0x2000] = none
      ∧ (((w0.sampleRow 0 [0x2000] 8).rowSample 0 [0x2000]).map (·.rereads)) = some 8 := by
  decide +kernel

/-- A task with stream 0 on g16, layout and count set: memory-bound, bound to the FIFO as consumer, as producer. -/
def wStream (st : Stream) : State :=
  world fun t => regs [(16, { capReg (capOver [pLD, pST] fifoBase 512) with val := BitVec.ofNat 64 fifoBase }), (18, { val := 8 }),
    (19, { val := fifoInfo false 0 1 })] { t with streams := [(0, st)] }

theorem witness_StreamInstructions :
    let s := wStream { reg := 16 }
    let c := wStream { reg := 16, fifo := some (1, false) }
    let f := wStream { reg := 24 }
    let shared := c.mapBank 1 fun b => { b with shared := true }
    let still := c.mapTask fun t => t.putG 19 {}
    let free := fun (s : State) (k r : Nat) => r % 4 = 0 ∧ 8 ≤ r ∧ r ≤ 52 ∧ ∀ q ∈ s.task.streams, q.1 ≠ k → q.2.reg ≠ r
    -- a binding, of a memory range and of the FIFO; a group that is taken, and the first and last groups of R79
    free f 1 16 ∧ free f 1 8 ∧ free f 1 52 ∧ ¬ free s 1 16 ∧ ¬ free s 1 4 ∧ ¬ free s 1 56
      ∧ f.busyG (16 + 1) = false ∧ f.busyG (16 + 2) = false ∧ layoutOk (f.g 17).val = true ∧ loScaled (f.g 17).val = false
      ∧ f.busyG 16 = false ∧ (f.g 17).val.toNat % 2 ^ 60 = 0 ∧ capHolds (f.supAt f.cur) (f.g 16) [] = true ∧ f.fifoOf (f.g 16) = some 1
      -- unbound, memory-bound, FIFO-bound; advances of a FIFO that is shared, of one slot, of none
      ∧ Sparse.find s.task.streams 5 = none ∧ s.task.txn = none ∧ Sparse.find s.task.streams 0 = some { reg := 16 }
      ∧ s.busyG (BitVec.ofNat 6 (16 + 2)) = false ∧ Sparse.find c.task.streams 0 = some { reg := 16, fifo := some (1, false) }
      ∧ c.task.txn = none ∧ c.busyG (BitVec.ofNat 6 (16 + 3)) = false ∧ (shared.bank 1).shared = true ∧ (c.bank 1).shared = false
      ∧ (infoIdx (c.g 19).val + 2 * slotCount (c.bank 1) - infoMark (c.g 19).val) % (2 * slotCount (c.bank 1)) ≠ 0
      ∧ State.heldCount c.task < 32 ∧ c.task.send.length < 32
      ∧ (infoIdx (still.g 19).val + 2 * slotCount (still.bank 1) - infoMark (still.g 19).val) % (2 * slotCount (still.bank 1)) = 0 := by
  decide +kernel

/-- A layout word with a scaled type, which the second rule of R236 limits. -/
theorem witness_StreamInstructions_scaled :
    let w : Word := 0xC800000000000000
    layoutOk w = true ∧ loScaled w = true ∧ (8 : Nat) % scaleGroup w = 0 := by decide +kernel

/-- A record of an empty stream with revocation word 7 in slot 0, its table in device memory and the team's record authority. -/
def wRecord : State :=
  let auth := 2 ^ 47 + 2 ^ 35
  let s := world (regs [(20, { val := BitVec.ofNat 64 memBase, tag := true
                               desc := mkDesc (permSet [pLD, pREC]) 1 0 (memBase % 2 ^ 17) ((memBase + 64) % 2 ^ 17) })])
  let s := { s with windows := s.windows ++ [win auth 64 (bankBase 0 + 8192) .authority] }
  let s := tables (s.mapPart 0 fun p => { p with rvkbase := BitVec.ofNat 64 (2 ^ 24) }) [(8, leafOf 2 (2 ^ 24))]
  let weight := (capOver [pLD] memBase 4096)
  let rec_ := bytesOf 8 weight.val.toNat ++ bytesOf 8 weight.desc.toNat ++ List.replicate 16 0 ++ List.replicate 8 0 ++ bytesOf 8 7
    ++ List.replicate 16 0
  let s := poke s (2 ^ 21) rec_
  let s := poke s (2 ^ 24) (bytesOf 4 7)
  let auth2 := capOver [pUNSEAL] 0 4096
  let s := poke s (bankBase 0 + 8192) (bytesOf 8 1 ++ bytesOf 8 auth2.desc.toNat)
  { s with tags := insertNat [(bankBase 0 + 8192) / 16] (2 ^ 17) }

/-- What the record's bytes are. -/
def recordBytes : List Byte := wRecord.readMem (addrRange (2 ^ 21) 64)

theorem witness_RecordBinding :
    let s := wRecord
    let c := s.g 20
    let x := c.val
    let o := s.mapTask fun t => { t with streams := t.streams.filter (·.1 != 0) }
    let as := addrRange (2 ^ 21) 64
    let bs := recordBytes
    let t := (((plainRead o x 64 true).map (·.2.2)).getD o)
    let dword := fun i => BitVec.ofNat 64 (ofBytes ((bs.drop (8 * i)).take 8))
    let capOf := fun i : Nat => { val := dword (2 * i), desc := dword (2 * i + 1), tag := t.specTag (as.getD (16 * i) 0 / 16) : Reg }
    let rva := (s.csrAt s.cur 0x802).toNat / 2 ^ 18 % 2 ^ 30 * 2 ^ 18 + 4 * ((dword 5).toNat / 2 ^ 32 % 2 ^ 16)
    let ra := 2 ^ 24
    let u := (t.agentXlate (s.partAt s.cur) true (siteOf s.cur) (siteOf s.cur, clusterOf s.cur) rva .read).1
    s.bindOk 0 16 = true ∧ s.busyG 20 = false ∧ s.busyG (16 + 2) = false ∧ s.stalled = false ∧ s.task.txn = none ∧ c.tag = true
      ∧ capOtype c.desc = 1 ∧ hasPerm c.desc pREC = true ∧ c.taint = 0 ∧ recAuthOk (s.recAuth s.cur) = true
      ∧ (hasPerm c.desc pSYS = false ∨ s.supAt s.cur = true) ∧ (capBounds c.desc x).1 ≤ x.toNat
      ∧ x.toNat + 64 ≤ (capBounds c.desc x).2 ∧ x.toNat % 64 = 0
      ∧ (plainRead o x 64 true).map (fun r => (r.1, r.2.1)) = some (as, bs)
      ∧ (t.agentXlate (s.partAt s.cur) true (siteOf s.cur) (siteOf s.cur, clusterOf s.cur) rva .read).2 = .inl ra
      ∧ u.stalled = false ∧ u.cur = s.cur ∧ u.ctx = s.ctx ∧ u.task = o.task
      ∧ Clear u (addrRange ra 4) ∧ u.tileLocked (addrRange ra 4) = false ∧ ra + 4 ≤ 2 ^ 45 ∧ u.hostAsk (paSite ra) (addrRange ra 4) false none = none
      ∧ ofBytes (u.readMem (addrRange ra 4)) = (dword 5).toNat % 2 ^ 32 ∧ u.supAt s.cur = s.supAt s.cur
      ∧ recordOk (s.supAt s.cur) (capOf 0) (capOf 1) (dword 4) (s.g (16 + 2)).val.toNat = true := by unfold Clear; decide +kernel

/-- A send to the own core (descriptor 0) of 20 bytes, one without payload, and a PUT. -/
def wSend : State :=
  wMem (regs [(9, { val := 20 }), (10, { val := 300 }), (60, capAt memBase (memBase + 64)), (11, capAt memBase (memBase + 128))])

theorem witness_SendsAndPuts :
    let s := wSend
    let part := s.partAt s.cur
    let sup := s.supAt s.cur
    let off := fun (va : Word) n => s.hostOrFifo part sup (n / 4096 + 2) va.toNat n = false
    s.task.txn = none ∧ State.heldCount s.task < 32 ∧ s.task.send.length < 32
      ∧ (∀ r ∈ ([0, 5, 9, 56, 57, 58, 59, 60] : List (BitVec 6)), s.busyG r = false ∧ (s.g r).taint = 0)
      ∧ (s.g 9).val.toNat ≤ 256 ∧ s.resolve s.cur (s.g 60) (s.g 0).val = .core 0 (some (0, 0))
      ∧ (s.g 60).tag = true ∧ s.ownTeam 0 (some (0, 0)) = true
      ∧ capFault sup (s.g 5) (s.g 5).val 20 [pLD] 1 = none ∧ (plainRead s (s.g 5).val 20 false).isSome = true
      ∧ (s.g 8).val.toNat ≤ 65536 ∧ capFault sup (s.g 60) (s.g 60).val 8 [pLD, pST] 8 = none ∧ off (s.g 60).val 8
      ∧ capFault sup (s.g 5) (s.g 5).val 16 [pST] 1 = none ∧ capFault sup (s.g 11) (s.g 11).val 16 [pLD] 1 = none
      ∧ off (s.g 5).val 16 ∧ off (s.g 11).val 16 ∧ s.anyBusy [0, 5, 10, 56, 57, 58, 59, 60] = false ∧ 256 < (s.g 10).val.toNat
      ∧ s.anyBusy [0, 0, 9, 56, 57, 58, 59, 60] = false ∧ (s.g 9).val.toNat ≠ 0 := by decide +kernel

/-- A buffer with 32 held messages, outside and inside a transaction. -/
theorem witness_FullSendBuffer :
    let full := fun (x : Option Txn) => world fun t => { t with send := List.replicate 32 { eff := .fifoHead 1 1 }, txn := x }
    let ok := fun (s : State) => State.heldCount s.task = 32
      ∧ (∀ r ∈ ([0, 0, 9, 56, 57, 58, 59, 60] : List (BitVec 6)), s.busyG r = false ∧ (s.g r).taint = 0)
      ∧ (s.g 9).val = 0 ∧ s.resolve s.cur (s.g 60) (s.g 0).val = .core 0 (some (0, 0)) ∧ (s.g 60).tag = false
    ok (full none) ∧ (full none).task.txn = none ∧ ok (full (some (txn 1))) ∧ (full (some (txn 1))).task.txn.isSome = true := by
  decide +kernel

/-- A context whose FLUSHRD has its flush's answer, one that has begun none, and one with a 3-byte window. -/
def wFlushed : State :=
  wMem fun t => regs [(9, { val := 3 }), (10, { val := 8 })]
    { t with window := [1, 2, 3, 4, 5, 6, 7, 8], flushrd := some { mods := [], since := 0, upto := 0 } }

theorem witness_Receiving :
    let s := wFlushed
    let c := s.g 5
    let f := s.mapTask fun t => { t with flushrd := none }
    let u := wMem id
    let q := u.mapNi 0 fun ni => { ni with queue := [{ msg := { noMsg with handler := 3 }, cls := 0, cls0 := 0, reserved := true, accepted := 0, moved := 0 }] }
    let p := u.mapNi 0 fun ni => { ni with queue := q.here.ni.queue.map fun e => { e with poisoned := true } }
    let v := { u with images := [(0, { fetchImage with park := 0 })] }
    (s.task.txn = none ∧ s.busyG 5 = false ∧ c.taint = 0 ∧ capHolds (s.supAt s.cur) c [pLD] = true
        ∧ (1 : BitVec 6) ≠ 0 ∧ (s.task.flushrd.map (·.mods)) = some [] ∧ u.task.flushrd = none
        ∧ u.xlate u.cur (u.g 5).val.toNat .read = .ok (2 ^ 21) (.home 0 0)
        -- WAITM with a message waiting, whole and poisoned, with none, and at the parking limit
        ∧ (State.waitmPick q.here.ni.queue 3).map (·.poisoned) = some false
        ∧ (State.waitmPick p.here.ni.queue 3).map (·.poisoned) = some true ∧ State.waitmPick s.here.ni.queue 3 = none
        ∧ parkedHere s < (s.imageAt s.cur).park ∧ (v.imageAt v.cur).park ≤ parkedHere v
        -- RECVM of 3 bytes and of none; PEEKM
        ∧ s.stalled = false ∧ min (s.g 9).val.toNat s.task.window.length ≠ 0 ∧ min (s.g 0).val.toNat s.task.window.length = 0
        ∧ c.val.toNat % 256 + 3 ≤ 256 ∧ s.counterFull (.home 0 0) = false ∧ (s.g 10).val.toNat % 8 = 0 ∧ (s.g 9).val.toNat % 8 ≠ 0)
      ∧ (∀ bk, Place.home 0 0 ≠ .fifo bk) ∧ Granted s c c.val 8 [pLD] 8 .read (2 ^ 21) (.home 0 0) ∧ Clear s (addrRange (2 ^ 21) 8)
      ∧ Granted f c c.val 8 [pLD] 8 .read (2 ^ 21) (.home 0 0) ∧ Clear f (addrRange (2 ^ 21) 8)
      ∧ Granted s c c.val 3 [pST] 1 .write (2 ^ 21) (.home 0 0) ∧ Ready s [5, 9] :=
  ⟨by decide +kernel, nofun, granted_of (by decide +kernel) nofun, clear_of (by decide +kernel), granted_of (by decide +kernel) nofun,
    clear_of (by decide +kernel), granted_of (by decide +kernel) nofun, by unfold Ready; decide +kernel⟩

/-- Requests over device memory, with a bag of two rows of four float32 elements at g12. -/
def wHod : State :=
  let s := wMem (regs [(9, { val := 4096 }), (11, { capReg (capOver [pLD] (memBase + 8192) 4096) with val := BitVec.ofNat 64 (memBase + 8192) }),
    (12, capAt memBase (memBase + 1024)), (13, capAt memBase (memBase + 2048))])
  poke s (2 ^ 21 + 1024) (bytesOf 8 (9 * 2 ^ 56 + 4 * 2 ^ 32 + 2) ++ bytesOf 4 0 ++ bytesOf 4 1)

theorem witness_HodRequestsIssue :
    let s := wHod
    let sup := s.supAt s.cur
    let part := s.partAt s.cur
    let ok := fun (c : Reg) n perms align => capFault sup c c.val n perms align = none
      ∧ s.hostOrFifo part sup (n / 4096 + 2) c.val.toNat n = false
    let hb := s.readMem (addrRange (2 ^ 21 + 1024) 8)
    let h := BitVec.ofNat 64 (ofBytes hb)
    dMode (s.g 56).val = 0 ∧ s.task.txn = none ∧ s.stalled = false ∧ State.heldCount s.task < 32 ∧ s.task.send.length < 32
      ∧ (∀ r ∈ ([5, 11, 9, 12, 13, 56, 57, 58, 59] : List (BitVec 6)), s.busyG r = false ∧ (s.g r).taint = 0)
      ∧ s.resolve s.cur (s.g 60) (s.g 56).val = .core 0 (some (0, 0))
      ∧ (capBounds (s.g 11).desc (s.g 11).val).2 - (s.g 11).val.toNat = 4096 ∧ ok (s.g 5) 4096 [pST] 1 ∧ ok (s.g 11) 4096 [pLD] 1
      ∧ (s.g 9).val.toNat ≤ 2 ^ 36
      ∧ ok (s.g 12) 8 [pLD] 8 ∧ (plainRead s (s.g 12).val 8 false).map (fun r => (r.1, r.2.1)) = some (addrRange (2 ^ 21 + 1024) 8, hb)
      ∧ bagOk false h = true ∧ bagOk true h = true ∧ ok (s.g 12) (bagSize h) [pLD] 8
      ∧ (plainRead s (s.g 12).val (bagSize h) false).isSome = true ∧ ok (s.g 5) (4 * bagRlen h) [pST] 1
      ∧ capHolds sup (s.g 13) [pLD] = true ∧ capHolds sup (s.g 5) [pLD, pST] = true
      ∧ ok (s.g 13) (bagCount h * 4 * bagRlen h) [pLD] 1 := by decide +kernel

/-- A hod request over the team's shares: 64 bytes. -/
def hodReq (kind : HodKind) : HodReq :=
  { w0.newHodReq kind noMsg with dst := shareBase, src := otherBase, len := 64, etype := 9, rlen := 4
                                 table := otherBase, tableBase := otherBase, tableTop := otherBase + 65536 }

theorem witness_HodSteps :
    let s := wMem id
    let fill := hodReq .fill
    let copy := hodReq .copy
    let home := s.hodHome fill
    let dst := addrRange (bankBase 0) 64
    let src := addrRange (bankBase 0 + 65536) 64
    let gather := { hodReq .gatherSum with idxs := [BitVec.allOnes 32] }
    let part : BagState := { req := gather, owners := [(3, [])], partials := [] }
    let whole := fun o => ({ req := gather, owners := o, partials := [] } : BagState)
    let bags := fun o => s.mapNi 0 fun ni => { ni with bags := [(0, whole o)] }
    (hodReq .fill).kind = .fill ∧ ({ fill with len := 0 } : HodReq).len = 0 ∧ 0 < fill.len ∧ fill.dst + fill.len ≤ 2 ^ 64
      ∧ copy.src + copy.len ≤ 2 ^ 64 ∧ min fill.len (128 - fill.dst % 128) = 64
      ∧ hodPlain (.hod fill) fill home.1 home.2 fill.dst 64 .write s = some (dst, s) ∧ s.tileLocked dst = false
      ∧ s.hostAsk home.1 dst true (some (.hodRequest fill)) = none
      ∧ hodPlain (.hod copy) copy home.1 home.2 copy.src 64 .read s = some (src, s) ∧ Clear s src
      ∧ s.hostAsk home.1 src false (some (.hodRequest copy)) = none
      ∧ hodPlain (.hod copy) copy home.1 home.2 copy.dst 64 .write s = some (dst, s)
      ∧ s.hostAsk home.1 dst true (some (.hodRequest copy)) = none
      ∧ gather.kind ≠ .copy ∧ gather.kind ≠ .fill ∧ gather.idxs.all (fun i => !rowValid gather i) = true ∧ fill.node = none
      ∧ ({ fill with node := some (0, 3) } : HodReq).node = some (0, 3)
      -- a part that comes back, the last one and not
      ∧ part.owners ≠ [] ∧ Sparse.find ((bags [(3, [])]).core 0).ni.bags 0 = some (whole [(3, [])])
      ∧ (bagBack (whole [(3, [])]) part).owners = [] ∧ (bagBack (whole [(3, []), (7, [])]) part).owners ≠ []
      ∧ Sparse.find ((bags [(3, []), (7, [])]).core 0).ni.bags 0 = some (whole [(3, []), (7, [])]) := by
  and_intros <;> first | decide +kernel | rfl

/-- Rows of a bag: a table row not sampled, sampled and stale, sampled and not; a row of a scatter; the end of an owner. -/
theorem witness_BagRows :
    let s := wMem id
    let o := agentHod 0 0
    let bag := fun (kind : HodKind) (n : Nat) => ({ req := { hodReq kind with idxs := [0] }
                                                    owners := [(o, List.replicate n (0, 0, .ofInt 1))], partials := [] } : BagState)
    let as := addrRange (bankBase 0 + 65536) 16
    let row := addrRange (bankBase 0) 16
    let free := fun (s : State) (as : List Nat) wr e => s.hostAsk (agentSite o) as wr (some e) = none
    let ended : BagState := { req := hodReq .gatherSum, owners := [], partials := [(o, List.replicate 4 0)] }
    let c := hodReq .gatherSum
    let tiles := s.tilesOf as
    let sampled := s.sampleRow o tiles 0
    let moved : State := { sampled with tileDirs := tiles.map fun t => (t, { stamp := 1 }) }
    hodPlain (.bag (bag .gatherSum 1)) (bag .gatherSum 1).req (agentSite o) (o % 64) otherBase 16 .read s = some (as, s)
      ∧ free s as false (.hgathOwner (bag .gatherSum 1)) ∧ Clear s as
      ∧ s.rowSample o tiles = none
      ∧ ((sampled.rowSample o tiles).map sampled.rowStale) = some false
      ∧ ((moved.rowSample o tiles).map moved.rowStale) = some true
      ∧ hodPlain (.bag (bag .scatter 2)) (bag .scatter 2).req (agentSite o) (o % 64) otherBase 16 .write s = some (as, s)
      ∧ s.heldBack (s.rowOwner (hodReq .scatter) (as.headD 0)) (.hscatOwner (bag .scatter 2)) = false
      ∧ hodPlain (.bag (bag .scatter 2)) (bag .scatter 2).req (agentSite o) (o % 64) otherBase 16 .read s = some (as, s)
      ∧ s.tileLocked (as ++ as) = false ∧ free s as false (.hscatOwner (bag .scatter 2))
      ∧ Clear s (as ++ as) ∧ free s as true (.hscatOwner (bag .scatter 2))
      ∧ (bag .gatherSum 0).owners = [(o, [])] ∧ ended.owners = []
      ∧ hodPlain (.bag ended) c (s.hodHome c).1 (s.hodHome c).2 c.dst 16 .write s = some (row, s) ∧ s.tileLocked row = false
      ∧ s.hostAsk (s.hodHome c).1 row true (some (.hgathCombine ended)) = none := by
  and_intros <;> first | decide +kernel | rfl

theorem witness_PalletInstructions :
    let s := w0
    let u := s.mapNi 0 fun ni => { ni with pallet := [⟨1, 2, 3⟩, ⟨10, 20, 4⟩] }
    (∀ r ∈ ([1, 2] : List (BitVec 6)), s.busyG r = false ∧ (s.g r).taint = 0) ∧ s.here.ni.pallet = []
      ∧ u.here.ni.pallet = [⟨1, 2, 3⟩] ++ [⟨10, 20, 4⟩] := by decide +kernel

/-- A matrix of two rows with three items. -/
def rowEnds (i : Nat) : Nat := [0, 1, 3].getD i 3

theorem witness_MergePath :
    let s := poke (wMem (regs [(9, { val := 2 * 2 ^ 32 + 2 })])) (bankBase 0) (bytesOf 4 0 ++ bytesOf 4 1 ++ bytesOf 4 3)
    let c := s.g 2
    let reads := fun i => plainRead s (c.val + BitVec.ofNat 64 (4 * i)) 4 false = some (addrRange (bankBase 0 + 4 * i) 4, bytesOf 4 (rowEnds i), s)
    (s.stalled = false ∧ (∀ r ∈ ([2, 9] : List (BitVec 6)), s.busyG r = false ∧ (s.g r).taint = 0)
        ∧ (s.g 9).val.toNat / 2 ^ 32 = 2 ∧ capFault (s.supAt s.cur) c c.val (4 * (2 + 1)) [pLD] 4 = none
        ∧ (∀ i, i < 3 → rowEnds i < 2 ^ 32 ∧ rowEnds 0 ≤ rowEnds i ∧ rowEnds i ≤ rowEnds 2)
        ∧ (∀ i, i < 3 → ∀ j, j < 3 → i ≤ j → rowEnds i ≤ rowEnds j))
      -- with the property of being this state, which reads of the core's own share keep
      ∧ reads 0 ∧ reads 1 ∧ reads 2 := ⟨by decide +kernel, by rfl, by rfl, by rfl⟩

/-- A team of two cores of one cluster whose image lets it steal. -/
def wSteal : State :=
  let s := (w0.mapTeam 0 fun t => { t with w := 2 }).mapCore 1 fun c => { c with team := some 0 }
  { s with images := [(0, { fetchImage with steal := 3, shape := some (2, 1) })] }

theorem witness_Stealing :
    let s := wSteal
    let u := s.mapNi 1 fun ni => { ni with pallet := [⟨0, 8, 1⟩] }
    let cores := s.stealDomain s.cur 1
    let p := stealPtr s.here.ni 1 % max 1 cores.length
    (w0.imageAt w0.cur).steal < 1 ∧ 3 ≤ (s.imageAt s.cur).steal ∧ ¬ (64 ≤ s.here.ni.pallet.length + s.here.ni.places)
      ∧ ((cores.drop p ++ cores.take p).filter (· != s.cur)).take 8 = [1] ∧ (s.core 1).ni.pallet = []
      ∧ (u.core 1).ni.pallet = [⟨0, 8, 1⟩] ∧ ((u.teamAt 1).map (·.grid)) = ((u.teamAt 0).map (·.grid))
      ∧ (u.teamAt 1).isSome = true ∧ siteOf 1 = siteOf 0 := by decide +kernel

def mailPost (n : Nat) : MailPost :=
  { core := 0, ctx := 0, op := 0, team := none, pos := 0, counted := true, dst := 0, inst := 0, key := BitVec.ofNat 32 n, tie := 0, value := 0, notice := noMsg, garg := 0 }

theorem witness_MailboxInstructions :
    let s := world (vals [(2, 5)])
    let box : Mailbox := { depth := 1, mode := 1, entries := [⟨mailPost 3⟩] }
    let u := s.mapNi 0 fun ni => { ni with mail := [(0, box)] }
    (∀ r ∈ ([2, 3, 60, 56, 57, 58, 59] : List (BitVec 6)), s.busyG r = false ∧ (s.g r).taint = 0)
      ∧ (s.g 0).val.toNat / 2 ^ 22 % 2 ^ 6 = 0 ∧ s.resolve s.cur (s.g 60) (s.g 0).val = .core 0 (some (0, 0))
      ∧ s.resolve s.cur (s.g 60) (s.g 58).val = .core 0 (some (0, 0)) ∧ s.counterFull (.share 0) = false
      ∧ Sparse.find s.here.ni.mail 0 = none ∧ Sparse.find u.here.ni.mail 0 = some box ∧ box.deferred = [] := by decide +kernel

/-- A post to a mailbox with room, to a closed one, to a full one, a duplicate, and the notice-only post. -/
theorem witness_MailboxPosts :
    let room : Mailbox := { depth := 2, entries := [⟨mailPost 3⟩] }
    let full : Mailbox := { depth := 1, entries := [⟨mailPost 3⟩] }
    let dup := fun (b : Mailbox) (p : MailPost) =>
      b.entries.any fun e => e.post.key == p.key && e.post.tie == p.tie && e.post.value == p.value
    let u := w0.mapNi 0 fun ni => { ni with mail := [(0, room)] }
    dup room (mailPost 4) = false ∧ room.closed = false ∧ room.entries.length < room.depth ∧ dup room (mailPost 3) = true
      ∧ ({ room with closed := true } : Mailbox).closed = true ∧ dup full (mailPost 4) = false ∧ full.depth ≤ full.entries.length
      ∧ full.mode ≠ 2 ∧ ({ full with mode := 2 } : Mailbox).mode = 2 ∧ mailWorst full.entries = some ⟨mailPost 3⟩
      ∧ w0.windowOf (.mailboxPost (mailPost 4)) = none ∧ (mailPost 4).counted = true
      ∧ ({ mailPost 4 with tie := BitVec.allOnes 32 } : MailPost).tie = BitVec.allOnes 32 ∧ (mailPost 4).tie ≠ BitVec.allOnes 32
      ∧ (w0.core (mailPost 4).dst).lost ≠ 1 ∧ Sparse.find (w0.mailAt (mailPost 4)) 0 = none
      ∧ Sparse.find (u.mailAt (mailPost 4)) 0 = some room ∧ (mailInsert room (mailPost 4)).2 = none := by decide +kernel

/-- g2 a SYNC authority, g3 the word of a new block, g4 the capability of block 0, which is set up for two arrivals; g5 no
capability; g6 the capability of block 1, a group. -/
def wSync : State :=
  let s := world (regs [(2, capReg (capOver [pSYNC] 0 64)), (3, { val := 2 }), (4, syncReg 0 true), (6, syncReg 1 true), (7, { val := 5 })])
  s.mapNi 0 fun ni => { ni with sync := [(0, { count := 2, expected := 2 }), (1, { group := true })] }

theorem witness_BlockInstructions :
    let s := wSync
    let full := s.mapNi 0 fun ni => { ni with sync := (List.range 32).map fun i => (i, { count := 1, expected := 1 }) }
    let c := s.g 2
    (∀ r ∈ ([2, 3, 4, 5] : List (BitVec 6)), s.busyG r = false ∧ (s.g r).taint = 0) ∧ c.tag = true ∧ capOtype c.desc = 0
      ∧ hasPerm c.desc pSYNC = true ∧ full.freeBlock = none ∧ s.freeBlock = some 2 ∧ (s.g 3).val.toNat / 2 ^ 17 = 0
      ∧ (s.g 3).val.toNat % 2 ^ 16 ≠ 0 ∧ syncCapOk (s.g 4) = true
      ∧ s.blockAt (s.g 4).val = some { count := 2, expected := 2 } ∧ (0 : Nat) = ({ count := 2, expected := 2 } : SyncBlock).arrived
      ∧ ({} : SyncBlock).poisoned = false ∧ syncCapOk (s.g 5) = false := by decide +kernel

theorem witness_Barriers :
    let s := wSync
    let arr : Arrival := { blk := 0, core := 0, ctx := 0, gen := 0, op := 0, cont := none }
    let grp : Arrival := { arr with blk := 1 }
    let v := { s with cur := arr.core, ctx := arr.ctx }
    let with_ := fun (n : Nat) (b : SyncBlock) => v.mapNi 0 fun ni => { ni with sync := [(n, b)] }
    let bad := with_ 0 { count := 2, expected := 2, poisoned := true }
    let join := with_ 1 { group := true, expected := 1, members := [0], roll := [0] }
    let done := s.mapTask fun t => { t with barr := some { blk := 0, op := 0, status := some 0 } }
    let open_ := s.mapTask fun t => { t with barr := some { blk := 0, op := 0 } }
    s.task.txn = none ∧ s.here.poisonMark = false ∧ (∀ r ∈ ([4, 0] : List (BitVec 6)), s.busyG r = false ∧ (s.g r).taint = 0)
      ∧ (s.g 0).val.toNat / 2 ^ 14 % 2 ^ 49 = 0 ∧ syncCapOk (s.g 4) = true
      ∧ s.blockAt (s.g 4).val = some { count := 2, expected := 2 } ∧ (0 : Nat) ≠ 3
      ∧ s.task.barr = none ∧ done.task.barr = some { blk := 0, op := 0, status := some 0 } ∧ open_.task.barr = some { blk := 0, op := 0 }
      ∧ (open_.blockAt 0).any (·.poisoned) = false ∧ parkedHere open_ < (open_.imageAt open_.cur).park
      ∧ (s.core ((s.syncOwner arr.core arr.blk).getD arr.core)).lost ≠ 1
      ∧ v.blockAt arr.blk = some { count := 2, expected := 2 }
      ∧ bad.blockAt arr.blk = some { count := 2, expected := 2, poisoned := true }
      ∧ v.blockAt grp.blk = some { group := true } ∧ v.memberKey grp.core ∉ ({ group := true } : SyncBlock).roll
      ∧ join.blockAt grp.blk = some { group := true, expected := 1, members := [0], roll := [0] } ∧ v.memberKey 0 = 0
      ∧ (join.core ((join.syncOwner grp.core grp.blk).getD grp.core)).lost ≠ 1 := by decide +kernel

theorem witness_EpisodeEnds :
    Sparse.sortedFrom 0 wSync.teams = true ∧ wSync.blockAt 0 = some { count := 2, expected := 2 }
      ∧ ({ count := 2, expected := 2 } : SyncBlock).arrivals = [] := by decide +kernel

theorem witness_GroupsAndPlumbs :
    let s := wSync
    let join := s.mapNi 0 fun ni => { ni with sync := [(1, { group := true, expected := 1, members := [0], roll := [0] })] }
    let many := s.mapNi 0 fun ni => { ni with groups := List.replicate 32 (9, 0) }
    let rec_ := s.mapNi 0 fun ni => { ni with sync := [(0, { count := 2, expected := 2, plumb := some 0 })], plumbs := [(0, { used := true, flagged := [2] })] }
    s.task.txn = none ∧ (∀ r ∈ ([6, 4, 3, 7] : List (BitVec 6)), s.busyG r = false ∧ (s.g r).taint = 0) ∧ syncCapOk (s.g 6) = true
      ∧ s.blockAt (s.g 6).val = some { group := true } ∧ s.memberKey s.cur ∉ ({ group := true } : SyncBlock).members
      ∧ join.blockAt (s.g 6).val = some { group := true, expected := 1, members := [0], roll := [0] } ∧ join.memberKey join.cur ∈ [0]
      ∧ s.here.ni.groups.length < 32 ∧ 32 ≤ many.here.ni.groups.length
      -- PLCFG: a word that is not allowed, one that lets go, one that takes a record
      ∧ (2 ^ 40 : Nat) / 2 ^ 40 ≠ 0 ∧ (s.g 0).val.toNat % 2 ^ 8 = 0 ∧ (s.g 7).val.toNat % 2 ^ 8 ≠ 0 ∧ (s.g 7).val.toNat / 2 ^ 40 = 0
      ∧ ({ group := true } : SyncBlock).plumb = none
      -- a block with a record
      ∧ rec_.blockAt 0 = some { count := 2, expected := 2, plumb := some 0 }
      ∧ rec_.plumbAt 0 { count := 2, expected := 2, plumb := some 0 } = some { used := true, flagged := [2] }
      ∧ ((List.range 4).find? fun i => !((s.syncStore 1).any fun (_, ps) => (Sparse.get {} ps i : Plumb).used)) = some 0 := by decide +kernel

theorem witness_ControlRegisters :
    let s := w0
    let user := { s with images := [(0, { fetchImage with sup := false })] }
    (csrRead s 0x001).isSome = true ∧ (0x001 : Nat) ≠ 0x825 ∧ csrRead s 0x7FF = none ∧ csrRead s 0x820 = some 0
      ∧ 0x820 ∉ [0x001, 0x002, 0x802, 0x803, 0x812, 0x813, 0x814, 0x824] ∧ 2048 ≤ 0x820 ∧ user.supAt user.cur = false
      ∧ s.busyG 2 = false ∧ (csrRead s 0x002).isSome = true ∧ (csrRead s 0x812).isSome = true ∧ (csrRead s 0x802).isSome = true
      ∧ (csrRead s 0x803).isSome = true ∧ (csrRead s 0x813).isSome = true ∧ (csrRead s 0x814).isSome = true
      ∧ (csrRead s 0x824).isSome = true ∧ s.supAt s.cur = true := by decide +kernel

theorem witness_PrivilegedRegisters :
    let s := w0.mapCore 5 fun c => { c with cycle := 1 }
    let user := { w0 with images := [(0, { fetchImage with sup := false })] }
    (Sparse.find s.parts (s.partAt s.cur)).isSome = true ∧ Sparse.sortedFrom 0 s.parts = true ∧ 5 ≠ s.cur
      ∧ (Sparse.find s.cores 5).isSome = true ∧ s.partAt 5 = s.partAt s.cur ∧ user.supAt user.cur = false
      ∧ wTxn.task.txn.isSome = true ∧ (s.part (s.partAt s.cur)).injen = false := by decide +kernel

/-- The functions of R355 to R359: a sealing range and one that is not allowed, codes that name no team and the task's own, a
bank that is in the mode asked for and one to be switched, REGREL of a region that a window maps. -/
theorem witness_PrivilegedFunctions :
    let s := world (vals [(2, 0x100), (3, 1), (4, 0x20), (5, 4), (6, 0xFFF)])
    let inj := s.mapPart 0 fun p => { p with injen := true }
    let rr := wMem id
    let att := (wMem id).mapPart 0 fun p => { p with attached := true }
    let attTx := wTxn.mapPart 0 fun p => { p with attached := true }
    s.task.txn = none ∧ s.task.frame = none
      ∧ (∀ r ∈ ([2, 3, 4, 5, 6, 0, 56, 57, 58, 59, 60] : List (BitVec 6)), s.busyG r = false ∧ (s.g r).taint = 0)
      ∧ s.supAt s.cur = true ∧ s.task.sack = 0 ∧ s.resolve s.cur (s.g 60) (s.g 56).val = .core 0 (some (0, 0))
      ∧ s.tlbinvStatus 0 1 = 0 ∧ s.tlbinvStatus 1 1 ≠ 0 ∧ s.tlbinvStatus 0 2 = 0 ∧ s.tlbinvStatus 0 3 = 0 ∧ s.tlbinvStatus 0 0 = 0
      ∧ s.bankStatus 2 1 = 0 ∧ s.bankStatus 2 7 ≠ 0 ∧ (s.g 0).val.toNat = 0 ∧ (s.g 3).val.toNat = 1 ∧ 4 ≤ (s.g 5).val.toNat
      ∧ s.teamNamed (s.g 6).val = none ∧ (s.teamNamed 0).isSome = true
      ∧ (inj.part (inj.partAt inj.cur)).injen = true
      ∧ capFault (rr.supAt rr.cur) { capReg (capOver [pST] memBase 65536) with val := BitVec.ofNat 64 memBase } (BitVec.ofNat 64 memBase) 65536 [pST] 65536 = none
      ∧ rr.xlate rr.cur memBase .write = .ok (2 ^ 21) (.home 0 0)
      ∧ (s.part (s.partAt s.cur)).attached = false ∧ (att.part (att.partAt att.cur)).attached = true ∧ att.task.txn = none
      ∧ (attTx.part (attTx.partAt attTx.cur)).attached = true ∧ attTx.task.txn.isSome = true := by decide +kernel

/-- A vector register as a source. -/
theorem source_register {s : State} {f : BitVec 6} (h : f.toNat < 32 ∧ s.busyV f.toNat = false) : Source s f (s.v f.toNat) s :=
  .inl ⟨h.1, h.2, rfl, rfl⟩

/-- An open transaction of a context whose streams are: 0 a consumer of the FIFO with one slot filled, 1 a producer, 2 a stream
at its end. -/
def wVec : State :=
  (world fun t => regs [(16, { capReg (capOver [pLD, pST] fifoBase 512) with val := BitVec.ofNat 64 fifoBase }), (18, { val := 8 }),
    (20, { capReg (capOver [pLD, pST] fifoBase 512) with val := BitVec.ofNat 64 (fifoBase + 32) }), (22, { val := 8 }),
    (23, { val := fifoInfo true 0 1 })]
    { t with streams := [(0, { reg := 16, fifo := some (1, false) }), (1, { reg := 20, fifo := some (1, true) }), (2, { reg := 24 })] }).mapBank 1
      fun b => { b with tail := 1 }

/-- The state after stream 0's pop. -/
def popped : State := fifoMoved 16 1 false wVec.popSlot.1

theorem source_stream : Source wVec 32 { val := vecOf (List.replicate 64 0), taint := wVec.popSlot.2 } popped :=
  .inr ⟨by decide, { bytes := List.replicate 64 0, taint := wVec.popSlot.2 }, rfl, fun _ => rfl⟩

theorem source_end : Source wVec 34 { val := vecOf (List.replicate 64 0) } wVec :=
  .inr ⟨by decide, { bytes := List.replicate 64 0 }, rfl, fun _ => rfl⟩

theorem streamsReady_of {s : State} {pops : List Nat} {app : Option Nat} {wide : Bool}
    (h : ((pops ++ app.toList).all fun k => (Sparse.find s.task.streams k).all fun b => !s.task.streamBusy b) = true
      ∧ (pops.all fun k => !popIllegal s.task wide k) = true ∧ (app.all fun k => !appendIllegal s.task k) = true
      ∧ s.task.txn.isNone = true) : StreamsReady s pops app wide := by
  refine ⟨fun k hk b hb => ?_, fun k hk => ?_, fun k hk => ?_, .inl (by simpa using h.2.2.2)⟩
  · have := List.all_eq_true.1 h.1 k hk
    simpa [hb] using this
  · simpa using List.all_eq_true.1 h.2.1 k hk
  · have := h.2.2.1
    rw [hk] at this
    simpa using this

/-- An append to a producer that is past its count. -/
def wFull : State := wVec.mapTask fun t => t.putG 22 {}

theorem append_stream : (∀ ok, append 1 (vecBytes 0) 0 wFull ok = ok wFull) ∧ Calm wFull wFull :=
  ⟨fun _ => rfl, by decide +kernel, by decide +kernel, by decide +kernel⟩

theorem calm_of {s t : State} (h : t.stalled = false ∧ t.task.park = s.task.park ∧ t.task.late = s.task.late) : Calm s t := h

/-- Operands in registers, at the last register; one from a stream; a result register under a mask, and a result stream. -/
theorem witness_VectorIntegers :
    Source w0 31 (w0.v 31) w0 ∧ Source w0 2 (w0.v 2) w0 ∧ Calm w0 w0 ∧ StreamsReady w0 (streamsOf [31, 2]) (streamsOf [1]).head? false
      ∧ Source wVec 32 { val := vecOf (List.replicate 64 0), taint := wVec.popSlot.2 } popped ∧ Source popped 2 (popped.v 2) popped
      ∧ Calm wVec popped ∧ StreamsReady wVec (streamsOf [32, 2]) (streamsOf [33]).head? false ∧ 32 ≤ (33 : BitVec 6).toNat
      ∧ (∀ ok, append ((33 : BitVec 6).toNat - 32) (vecBytes 0) 0 wFull ok = ok wFull) ∧ Calm wFull wFull ∧ (1 : BitVec 6).toNat < 32 :=
  ⟨source_register (by decide +kernel), source_register (by decide +kernel), calm_of (by decide +kernel), streamsReady_of (by decide +kernel),
    source_stream, source_register (by decide +kernel), calm_of (by decide +kernel), streamsReady_of (by decide +kernel), by decide,
    append_stream.1, append_stream.2, by decide⟩

theorem witness_PermutationsAndMasks :
    let s := world (vals [(3, 5)])
    (s.stalled = false ∧ s.busyV 1 = false ∧ s.busyG 2 = false ∧ s.busyG 3 = false ∧ (1 : BitVec 6).toNat < 32) ∧ Source s 2 (s.v 2) s ∧ Calm s s
      ∧ StreamsReady s [] (streamsOf [1]).head? false ∧ StreamsReady s (streamsOf [2]) none false ∧ StreamsReady s (streamsOf [2]) (streamsOf [1]).head? false :=
  ⟨by decide +kernel, source_register (by decide +kernel), calm_of (by decide +kernel), streamsReady_of (by decide +kernel),
    streamsReady_of (by decide +kernel), streamsReady_of (by decide +kernel)⟩

theorem witness_VectorFloats :
    (w0.busyV 1 = false ∧ (1 : BitVec 6).toNat < 32) ∧ Source w0 2 (w0.v 2) w0 ∧ Source w0 3 (w0.v 3) w0 ∧ Calm w0 w0
      ∧ StreamsReady w0 (streamsOf [2, 3]) (streamsOf [1]).head? false ∧ StreamsReady w0 (streamsOf [2, 3]) (streamsOf []).head? false
      ∧ StreamsReady w0 (streamsOf [2]) (streamsOf [1]).head? false :=
  ⟨by decide +kernel, source_register (by decide +kernel), source_register (by decide +kernel), calm_of (by decide +kernel),
    streamsReady_of (by decide +kernel), streamsReady_of (by decide +kernel), streamsReady_of (by decide +kernel)⟩

theorem witness_ConversionsAndReductions :
    Source w0 2 (w0.v 2) w0 ∧ Calm w0 w0 ∧ StreamsReady w0 (streamsOf [2]) (streamsOf [1]).head? false :=
  ⟨source_register (by decide +kernel), calm_of (by decide +kernel), streamsReady_of (by decide +kernel)⟩

/-- Eight unit-stride doublewords of device memory, as a load and as a store; no active lane. -/
theorem witness_VectorMemory :
    let s := wMem fun t => t.putM 1 ⟨0, 0⟩
    let c := s.g 5
    let k := s.m 0
    let on := (List.range (512 / 64)).filter fun i => k.val.getLsbD i
    let xs := on.map fun i => (c.val + BitVec.ofNat 64 (i * 8), 8)
    let ls := (List.range 8).map fun i => (⟨c.val + BitVec.ofNat 64 (i * 8), 8, 2 ^ 21 + i * 8, .home 0 0⟩ : Located)
    let ws := ls.zip (on.map fun i => bytesOf 8 (lane 64 (s.v 1).val i))
    (s.task.txn = none ∧ s.busyG 5 = false ∧ s.busyV 1 = false ∧ s.busyG 8 = false ∧ (1 : BitVec 6).toNat < 32 ∧ on ≠ []
        ∧ (List.range (512 / 64)).filter (fun i => (s.m 1).val.getLsbD i) = [])
      ∧ PiecesHeld s c pLD 8 xs ∧ PiecesAt s .read xs ls ∧ PiecesHeld s c pST 8 xs ∧ PiecesAt s .write xs ls ∧ PiecesCounted s ws := by
  refine ⟨by decide +kernel, ?_, ?_, ?_, ?_, ?_⟩
  · unfold PiecesHeld; decide +kernel
  · refine ⟨by decide +kernel, fun l hl => ?_⟩
    obtain ⟨i, hi, rfl⟩ := List.mem_map.1 hl
    have hi := List.mem_range.1 hi
    refine ⟨by revert i; decide +kernel, nofun, fun _ => clear_of (by revert i; decide +kernel)⟩
  · unfold PiecesHeld; decide +kernel
  · refine ⟨by decide +kernel, fun l hl => ?_⟩
    obtain ⟨i, hi, rfl⟩ := List.mem_map.1 hl
    have hi := List.mem_range.1 hi
    exact ⟨by revert i; decide +kernel, nofun, nofun⟩
  · unfold PiecesCounted; decide +kernel

/-- Names 0 and 1 of the task stand for tiles 2 and 5; held B holds int8 elements. -/
def wTile (f : Ctx → Ctx) : State :=
  (wMem fun t => f { t with tiles := [(0, 2), (1, 5)]
                            heldB := some { bytes := List.replicate 128 1, scales := none, etype := 0, taint := 0 } }).mapCore 0
    fun c => { c with tiles := [(2, { owner := some 0 }), (5, { owner := some 0 })] }

theorem forall_of {α : Type} {p : α → Prop} [DecidablePred p] {l : List α} (h : l.all (fun x => decide (p x)) = true) :
    ∀ x ∈ l, p x := fun x hx => of_decide_eq_true (List.all_eq_true.1 h x hx)

/-- The rows of the tile at g5, each of one piece. -/
def tileRows : List Word := (List.range 16).map fun i => BitVec.ofNat 64 memBase + BitVec.ofNat 64 i * 128
def tilePieces : List Located :=
  (List.range 16).map fun i => ⟨BitVec.ofNat 64 memBase + BitVec.ofNat 64 i * 128, 128, 2 ^ 21 + i * 128, .home 0 0⟩

/-- Every cell a store of pieces writes stands in one of the pieces. -/
theorem pieceCells_mem (ws : List (Located × List Byte)) (q : Nat × Byte × Place) (h : q ∈ pieceCells ws) :
    ∃ w ∈ ws, q.1 ∈ w.1.bytes := by
  have inner : ∀ (p : Place) (l : List (Nat × Byte)) (m : Sparse (Byte × Place)) (q : Nat × Byte × Place),
      q ∈ l.foldl (fun m (a, b) => Sparse.set m a (b, p)) m → q ∈ m ∨ q.1 ∈ l.map (·.1) := by
    intro p l
    induction l with
    | nil => exact fun m q h => .inl h
    | cons x l ih =>
      intro m q h
      rcases ih _ q h with h | h
      · rcases Sparse.mem_set _ _ _ _ h with rfl | h
        · exact .inr (by simp)
        · exact .inl h
      · exact .inr (List.mem_cons_of_mem _ h)
  have outer : ∀ (ws : List (Located × List Byte)) (m : Sparse (Byte × Place)) (q : Nat × Byte × Place),
      q ∈ ws.foldl (fun m (l, bs) => (l.bytes.zip bs).foldl (fun m (a, b) => Sparse.set m a (b, l.place)) m) m →
      q ∈ m ∨ ∃ w ∈ ws, q.1 ∈ w.1.bytes := by
    intro ws
    induction ws with
    | nil => exact fun m q h => .inl h
    | cons w ws ih =>
      intro m q h
      rcases ih _ q h with h | ⟨v, hv, h⟩
      · rcases inner _ _ _ q h with h | h
        · exact .inl h
        · obtain ⟨c, hc, e⟩ := List.mem_map.1 h
          exact .inr ⟨w, by simp, e ▸ (List.of_mem_zip hc).1⟩
      · exact .inr ⟨v, List.mem_cons_of_mem _ hv, h⟩
  exact (outer ws [] q h).resolve_left (by simp)

theorem mem_dealBytes (ls : List Located) (bs : List Byte) (w : Located × List Byte) (h : w ∈ dealBytes ls bs) : w.1 ∈ ls := by
  induction ls generalizing bs with
  | nil => simp [dealBytes] at h
  | cons l ls ih =>
    rcases List.mem_cons.1 h with rfl | h
    · simp
    · exact List.mem_cons_of_mem _ (ih _ h)

/-- The sixteen rows of a tile store write sixteen lines. -/
theorem tileCounted (s : State) (bs : List Byte) (h : s.task.sack = 0) : PiecesCounted s (dealBytes tilePieces bs) := by
  have sub : (((pieceCells (dealBytes tilePieces bs)).filter fun (_, _, p) => State.placeMod s.cur p == modOf s.cur).map
      fun (a, _) => a / 128).dedup ⊆ (List.range 16).map (2 ^ 14 + ·) := by
    intro n hn
    obtain ⟨q, hq, rfl⟩ := List.mem_map.1 (List.mem_dedup.1 hn)
    obtain ⟨w, hw, ha⟩ := pieceCells_mem _ _ (List.mem_filter.1 hq).1
    obtain ⟨i, hi, e⟩ := List.mem_map.1 (mem_dealBytes _ _ _ hw)
    rw [← e] at ha
    obtain ⟨j, hj, e⟩ := List.mem_map.1 ha
    have hj := List.mem_range.1 hj
    refine List.mem_map.2 ⟨i, hi, ?_⟩
    show 2 ^ 14 + i = q.1 / 128
    rw [← e]
    have : (⟨BitVec.ofNat 64 memBase + BitVec.ofNat 64 i * 128, 128, 2 ^ 21 + i * 128, .home 0 0⟩ : Located).len = 128 := rfl
    simp only at hj ⊢
    omega
  have := (List.nodup_dedup _).subperm sub |>.length_le
  rw [List.length_map, List.length_range] at this
  unfold PiecesCounted
  rw [h, Nat.zero_add]
  exact Nat.le_trans this (by decide)

theorem witness_TileInstructions :
    let s := wTile id
    let full := s.mapCore 0 fun c => { c with tiles := (List.range 8).map fun q => (q, { owner := some 0 }) }
    let c := s.g 5
    let rows := (List.range 16).map fun i => c.val + BitVec.ofNat 64 i * (if (0 : BitVec 6) = 0 then 128 else (s.g 0).val)
    let xs := rows.flatMap fun x => (blockParts x 128).map fun (a, _, n) => (a, n)
    let bytes := (List.range 256).flatMap fun n => bytesOf 8 (elemAt (s.tileAt 2) n).toNat
    (Sparse.find s.task.tiles 3 = none ∧ s.freeTile = some 0 ∧ full.freeTile = none ∧ Sparse.find s.task.tiles 0 = some 2
      ∧ Sparse.find s.task.tiles 1 = some 5 ∧ (0 : BitVec 3) ≠ 1 ∧ s.task.busy (.a 2) = false ∧ s.task.busy (.a 5) = false
      ∧ s.busyG 8 = false ∧ s.busyG 0 = false ∧ s.busyV 31 = false ∧ s.busyV 0 = false ∧ s.busyG 5 = false ∧ s.task.txn = none)
      ∧ (∀ x ∈ rows, x.toNat % 8 = 0) ∧ PiecesHeld s c pLD 1 (rows.map fun x => (x, 128)) ∧ PiecesAt s .read xs tilePieces
      ∧ PiecesHeld s c pST 1 (rows.map fun x => (x, 128)) ∧ PiecesAt s .write xs tilePieces
      ∧ PiecesCounted s (dealBytes tilePieces bytes) := by
  refine ⟨by decide +kernel, forall_of (by decide +kernel), ?_, ?_, ?_, ?_, ?_⟩
  · exact forall_of (by decide +kernel)
  · refine ⟨by decide +kernel, fun l hl => ?_⟩
    obtain ⟨i, hi, rfl⟩ := List.mem_map.1 hl
    have hi := List.mem_range.1 hi
    refine ⟨by revert i; decide +kernel, nofun, fun _ => clear_of (by revert i; decide +kernel)⟩
  · exact forall_of (by decide +kernel)
  · refine ⟨by decide +kernel, fun l hl => ?_⟩
    obtain ⟨i, hi, rfl⟩ := List.mem_map.1 hl
    have hi := List.mem_range.1 hi
    exact ⟨by revert i; decide +kernel, nofun, nofun⟩
  · exact tileCounted _ _ (by decide +kernel)

/-- MDOT with A and B from pairs (format 0), with A from a tile, with held B in an integer format; MRUN; MUPROG of a program that
is allowed and of one that is not. -/
theorem witness_MatrixSteps :
    let s := wTile id
    let pair := fun n => ({ bytes := vecBytes (s.v n).val ++ vecBytes (s.v (n + 1)).val, taint := (s.v n).taint ||| (s.v (n + 1)).taint } : Opnd)
    (Sparse.find s.task.tiles 0 = some 2 ∧ s.task.busy (.a 2) = false ∧ s.selOk 18 11 128 false = true ∧ s.selBusy 18 128 = false
        ∧ selTile 16 = none ∧ s.selOk 16 11 128 false = true ∧ s.selBusy 16 128 = false ∧ selTile 9 = some 1
        ∧ Sparse.find s.task.tiles 1 = some 5 ∧ s.task.busy (.a 5) = false ∧ s.selOk 48 0 128 false = true ∧ s.selBusy 48 128 = false
        ∧ (typeFmt 11).isSome = true ∧ typeFmt 0 = none ∧ s.selOk 16 8 128 false = true ∧ s.selOk 18 8 128 false = true
        ∧ s.busyG 0 = false ∧ progOk 0 = true ∧ progOk 1 = false)
      ∧ (∀ w, s.tileAt w = s.tileAt w) ∧ Calm s s ∧ StreamsReady s (selStream 16 ++ selStream 18) none true
      ∧ StreamsReady s (selStream 9 ++ selStream 48) none true ∧ (∀ ok, opnd 18 128 s ok = ok (pair 2) s)
      ∧ (∀ ok, opnd 16 128 s ok = ok (pair 0) s)
      ∧ (∀ ok, opnd 48 128 s ok = ok { bytes := List.replicate 128 1, scales := none, taint := 0 } s) :=
  ⟨by decide +kernel, fun _ => rfl, calm_of (by decide +kernel), streamsReady_of (by decide +kernel), streamsReady_of (by decide +kernel),
    fun _ => rfl, fun _ => rfl, fun _ => rfl⟩

/-- One operation of context 0 pending: to device memory, at the first doubleword of the page. -/
def wOp (kind : PendKind) : State :=
  world fun t => { t with
    pend := [{ op := 0, gen := 0, kind, addrs := addrRange (2 ^ 21) 8, data := bytesOf 8 7, place := .home 0 0, dest := .g 4, sent := true }]
    opNo := 1 }

/-- The operation of `wOp`. -/
def opOf (kind : PendKind) : PendOp :=
  { op := 0, gen := 0, kind, addrs := addrRange (2 ^ 21) 8, data := bytesOf 8 7, place := .home 0 0, dest := .g 4, sent := true }

/-- A reservation of the word, held by a task of another core. -/
def heldResv : Resv := { holder := some (9, 0, 0, 3) }

theorem witness_HomeSteps :
    let as := addrRange (2 ^ 21) 8
    let req : AmoReq := { core := 0, addr := 2 ^ 21, op := 0, opnd := 1, cmp := 0, comm := false, stat := false, scope := 0, ret := none, acks := [] }
    let other := { wOp .lrw with resv := [(2 ^ 21, heldResv)] }
    -- a line fill for a GET and for a load; PUT's increment
    ((wOp .get).askedOp 0 0 0 = some (opOf .get) ∧ (opOf .get).addrs ≠ [] ∧ State.bypasses (opOf .get) = true
        ∧ (∀ q ∈ ((wOp .get).ctxAt 0 0).pend, q.seq < (opOf .get).seq → q.kind ≠ .store)
        ∧ (wOp .load).askedOp 0 0 0 = some (opOf .load) ∧ State.bypasses (opOf .load) = false
        ∧ (wOp .put).findOp 0 0 0 = some (opOf .put) ∧ ((wOp .put).core (opOwner 0 (opOf .put).place)).lost ≠ 1
        ∧ (wOp .put).heldBack (opAgent 0 (opOf .put).place) (.putIncrement 0 0 0 req) = false
        ∧ (∀ b ∈ amoBytes req, (wOp .put).placeServes (opOf .put).place b = .now) ∧ req.op = 0
        -- LRW answered late, to a free reservation, to another's
        ∧ (wOp .lrw).askedOp 0 0 0 = some (opOf .lrw) ∧ ((wOp .lrw).ctxAt 0 0).owed.any (·.op == 0) = false
        ∧ (Sparse.get {} (wOp .lrw).resv (2 ^ 21) : Resv).holder = none
        ∧ (Sparse.get {} other.resv (2 ^ 21) : Resv).holder = some (9, 0, 0, 3)
        ∧ other.lapsed (2 ^ 21) (Sparse.get {} other.resv (2 ^ 21)) = false ∧ (9, 0, 0) ≠ (0, 0, 0)
        ∧ ((other.core 0).ctxs.filter fun (_, t) => t.park.isSome).length < (other.imageAt 0).park)
      ∧ HomeOpen (wOp .get) (.lineFill 0 0 0) 0 as false ∧ HomeOpen (wOp .load) (.lineFill 0 0 0) 0 as false
      ∧ HomeOpen (wOp .put) (.putIncrement 0 0 0 req) 0 (amoBytes req) true ∧ HomeOpen (wOp .lrw) (.lrwEnqueue 0 0 0) 0 as false :=
  ⟨by decide +kernel, homeOpen_of (by decide +kernel), homeOpen_of (by decide +kernel), homeOpen_of (by decide +kernel),
    homeOpen_of (by decide +kernel)⟩

/-- A reply owed to a task that is gone; SC with and without the reservation; a lapsed lease. -/
theorem witness_HomeSteps_reservations :
    let as := addrRange (2 ^ 21) 8
    let gone := (wOp .lrw).mapTask fun t => { t with occupied := false, pend := [], owed := [{ opOf .lrw with name := 4 }] }
    let mine := { wOp .sc with resv := [(2 ^ 21, { holder := some (0, 0, 0, 3) })] }
    let none' := { wOp .sc with resv := [(2 ^ 21, heldResv)] }
    let old := ({ wOp .lrw with resv := [(2 ^ 21, heldResv)] } : State).mapSite 0 fun t => { t with fab := 2 ^ 20 }
    ((gone.ctxAt 0 0).owed.any (·.op == 0) = true ∧ gone.askedOp 0 0 0 = some { opOf .lrw with name := 4 }
        ∧ mine.askedOp 0 0 0 = some (opOf .sc) ∧ mine.lapsed (2 ^ 21) (Sparse.get {} mine.resv (2 ^ 21)) = false
        ∧ (Sparse.get {} mine.resv (2 ^ 21) : Resv).holder = some (0, 0, 0, 3)
        ∧ none'.askedOp 0 0 0 = some (opOf .sc) ∧ none'.lapsed (2 ^ 21) (Sparse.get {} none'.resv (2 ^ 21)) = false
        ∧ (Sparse.get {} none'.resv (2 ^ 21) : Resv).holder = some (9, 0, 0, 3)
        ∧ old.lapsed (2 ^ 21) (Sparse.get {} old.resv (2 ^ 21)) = true ∧ (Sparse.get {} old.resv (2 ^ 21) : Resv).queue = [])
      ∧ HomeOpen mine (.scHome 0 0 0) 0 as true ∧ HomeOpen none' (.scHome 0 0 0) 0 as true :=
  ⟨by decide +kernel, homeOpen_of (by decide +kernel), homeOpen_of (by decide +kernel)⟩

/-- A context with nothing pending; the return of its flush; a combined request; replies to a task and to an earlier one. -/
theorem witness_ReturnSteps :
    let flush := world fun t => { t with flush := some { mods := [0], since := 0, upto := 0 }, peers := 1 }
    let comb := w0.mapNi 0 fun ni => { ni with combine := [{ place := .home 0 0, since := 0, req :=
      { core := 0, addr := 2 ^ 21, op := 0, opnd := 1, cmp := 0, comm := true, stat := false, scope := 0, ret := none, acks := [0] } }] }
    let due := comb.mapCore 0 fun c => { c with cycle := 64 }
    let owes := world fun t => { t with occupied := false, gen := 2, owed := [{ op := 0, gen := 1, kind := .get }] }
    let c := (wOp .load).ctxAt 0 0
    let f := flush.ctxAt 0 0
    (w0.ctxAt 0 0).pend = [] ∧ (w0.ctxAt 0 0).flush = none ∧ (w0.ctxAt 0 0).flushrd = none
      ∧ f.pend = [] ∧ f.flushrd = none ∧ f.flush = some { mods := [0], since := 0, upto := 0 } ∧ postedDone 0 0 f 0 = true
      -- a combined request that is not due, and one that is
      ∧ (comb.core 0).ni.combine[0]?.map (·.since) = some 0 ∧ (comb.core 0).cycle < 0 + 64
      ∧ ((due.core 0).ni.combine[0]?).map (·.since) = some 0 ∧ 0 + 64 ≤ (due.core 0).cycle
      ∧ c.occupied = true ∧ c.gen = 0 ∧ c.pend = [opOf .load] ∧ (opOf .load).op = 0 ∧ (opOf .load).gen = 0 ∧ c.owed = []
      ∧ (opOf .load).dest = .g 4 ∧ (opOf .load).fin = .int 8 false ∧ State.runningFrame c = none
      ∧ ((owes.ctxAt 0 0).owed.find? fun q => q.op == 0 && q.gen == 1).isSome = true := by decide +kernel

/-- The message of a task of grid 0, team 0, to coordinate (0, 0). -/
def teamMsg : Message := { noMsg with id := 77, team := some (0, 0), handler := 0 }

theorem witness_MessagesArrive :
    let t := fetchTeam
    let full := w0.mapNi 0 fun ni => { ni with queue := List.replicate 52 { msg := noMsg, cls := 0, cls0 := 0, reserved := false, accepted := 0, moved := 0 } }
    let four := full.mapNi 0 fun ni => { ni with
      queue := ni.queue ++ List.replicate 4 { msg := noMsg, cls := 0, cls0 := 0, reserved := true, accepted := 0, moved := 0 } }
    let away := w0.mapTeam 0 fun t => { t with col0 := 4 }
    let wait := w0.mapTeam 0 fun t => { t with state := .waiting }
    let tight := w0.mapTeam 0 fun t => { t with state := .waiting, dropSize := 0 }
    let ended := w0.mapTeam 0 fun t => { t with state := .ended }
    let open_ := w0.mapTeam 0 fun t => { t with drop := [teamMsg] }
    let chained := w0.mapNi 0 fun ni => { ni with chains := [(0, 5)] }
    let ord := { teamMsg with ordered := true }
    -- for the core's own team, without and with a coordinate, with and without an entry for it, behind a refused one
    noMsg.team = none ∧ w0.teamAt noMsg.dst = some t ∧ t.state ≠ .placing ∧ t.state ≠ .ended ∧ teamMsg.team.isSome = true ∧ t.drop = []
      ∧ w0.msgTeam teamMsg = some (0, t) ∧ t.state = .placed ∧ teamCore t teamMsg.pos.1 teamMsg.pos.2 = teamMsg.dst
      ∧ (w0.core teamMsg.dst).lost = 0 ∧ teamMsg.ordered = false ∧ (w0.entryFor teamMsg.dst teamMsg) = some true
      ∧ four.entryFor teamMsg.dst teamMsg = none ∧ (four.core 0).ni.refusals.length < 32
      ∧ ord.ordered = true ∧ (chained.core ord.dst).ni.chains = [(ord.src, 5)] ∧ (5 : Word) ≠ ord.id
      ∧ (chained.core teamMsg.dst).lost = 0 ∧ chained.teamAt noMsg.dst = some t
      -- placed elsewhere, not placed with and without room, placed with mail left, for no team at all, for one that has ended
      ∧ open_.msgTeam teamMsg = some (0, { t with drop := [teamMsg] }) ∧ Sparse.find open_.teams 0 = some { t with drop := [teamMsg] }
      ∧ [teamMsg].length < t.dropSize
      ∧ away.msgTeam teamMsg = some (0, { t with col0 := 4 }) ∧ teamCore { t with col0 := 4 } teamMsg.pos.1 teamMsg.pos.2 ≠ teamMsg.dst
      ∧ wait.msgTeam teamMsg = some (0, { t with state := .waiting }) ∧ Sparse.find wait.teams 0 = some { t with state := .waiting }
      ∧ msgSrc teamMsg ≠ 2 ∧ t.drop.length < t.dropSize
      ∧ tight.msgTeam teamMsg = some (0, { t with state := .waiting, dropSize := 0 })
      ∧ Sparse.find tight.teams 0 = some { t with state := .waiting, dropSize := 0 } ∧ w0.teamAt 9 = none
      ∧ w0.msgTeam { teamMsg with team := some (8, 0) } = none ∧ ended.msgTeam teamMsg = some (0, { t with state := .ended }) := by
  decide +kernel

/-- Refusals, to a team that stays and to one that is being swapped out; retransmission; reservations. -/
theorem witness_MessagesArrive_again :
    let t := fetchTeam
    let quits := w0.mapTeam 0 fun t => { t with state := .quiescing }
    let kept := w0.mapNi 0 fun ni => { ni with retry := [{ msg := teamMsg, listed := false, due := some 0, chain := false }] }
    let room := w0.mapNi 0 fun ni => { ni with rooms := [⟨5, 0, 0, true, 0⟩] }
    w0.teamAt teamMsg.src = some t ∧ t.state ≠ .quiescing ∧ teamMsg.ordered = false
      ∧ (quits.core teamMsg.src).team = some 0 ∧ quits.teamAt teamMsg.src = some { t with state := .quiescing }
      ∧ (kept.core 0).ni.retry.find? (·.msg.id == 77) = some { msg := teamMsg, listed := false, due := some 0, chain := false }
      ∧ 0 ≤ (kept.core 0).cycle ∧ (room.core 0).ni.rooms.find? (·.id == 5) = some ⟨5, 0, 0, true, 0⟩ ∧ 0 ≤ (room.core 0).cycle := by
  decide +kernel

/-- A message waits on a core whose image has one handler; its table holds a valid entry. -/
def wDispatch : State :=
  let e : QEntry := { msg := teamMsg, cls := 0, cls0 := 0, reserved := true, accepted := 0, moved := 0 }
  poke { (w0.mapNi 0 fun ni => { ni with queue := [e] }) with images := [(0, { fetchImage with handlers := [0x8000000000000000] })] }
    (teamStore + 2 ^ 28) (bytesOf 8 0x8000000000000000)

theorem witness_DispatchAndWakes :
    let s := wDispatch
    let t := fetchTeam
    let e : QEntry := { msg := teamMsg, cls := 0, cls0 := 0, reserved := true, accepted := 0, moved := 0 }
    let w := s.readWord (teamStore + 0 * 2 ^ 32 + 2 ^ 28 + 8 * e.msg.handler)
    let late := world fun t => { t with budget := 4194305 }
    let park := fun p => s.mapTask fun t => { t with park := some p }
    let idle := world fun t => { t with idle := some 256 }
    let due := s.mapCore 0 fun c => { c with cycle := 65536 }
    let done := (park (.bwait 4)).mapTask fun t => { t with barr := some { blk := 0, op := 0, status := some 1 } }
    (s.core 0).team = some 0 ∧ s.teamAt 0 = some t ∧ t.state = .placed ∧ (s.core 0).dispatchStop = false ∧ (s.core 0).frozen = false
      ∧ (s.core 0).lost = 0 ∧ (s.core 0).dispatched ≠ some (s.core 0).cycle
      ∧ ((s.mapCore 0 fun c => { c with dispatched := some c.cycle }).core 0).dispatched = some (s.core 0).cycle
      ∧ (s.core 0).pick = some e ∧ e.poisoned = false ∧ s.freeCtx 0 = some 1
      ∧ e.msg.handler < (s.imageOf t).handlers.length ∧ w.getLsbD 63 = true
      -- messages of another identity, due for promotion and not due; a spent budget; parked WAITM, BWAIT and stream waits; IDLE
      ∧ (late.ctxAt 0 0).occupied = true ∧ (late.imageAt 0).budget < (late.ctxAt 0 0).budget ∧ (late.ctxAt 0 0).hold = none
      ∧ (late.ctxAt 0 0).wait ≠ some .xend ∧ ((park (.waitm 8 0)).ctxAt 0 0).park = some (.waitm 8 0)
      ∧ State.waitmPick ((park (.waitm 8 0)).core 0).ni.queue 0 = some e ∧ ((park (.waitm 8 0)).ctxAt 0 0).frame = none
      ∧ (done.ctxAt 0 0).park = some (.bwait 4) ∧ (done.core 0).frozen = false ∧ (done.core 0).poisonMark = false ∧ (done.ctxAt 0 0).barr.bind (·.status) = some 1
      ∧ ((park (.pop 1)).ctxAt 0 0).park = some (.pop 1) ∧ ((park (.append 1)).ctxAt 0 0).park = some (.append 1)
      ∧ (idle.ctxAt 0 0).idle.isSome = true ∧ (s.core 0).ni.queue.find? (·.msg.id == 5) = none
      ∧ (due.core 0).ni.queue = [] ++ e :: [] ∧ e.msg.id = 77 ∧ e.cls < 3 ∧ e.moved + 65536 ≤ ((due.core 0).cycle : Int)
      ∧ ¬ e.moved + 65536 ≤ ((s.core 0).cycle : Int) := by decide +kernel

theorem witness_Transmission :
    let s := fun e => world fun t => { t with send := [{ eff := e, committed := true }] }
    let ok := fun e => State.nextOut (s e).task = some ⟨e, true, 0, false⟩ ∧ (s e).retryRoom 0 ≠ 0 ∧ (s e).task.sendHold = none ∧ (s e).task.pend = []
    let rel := { teamMsg with release := true }
    ok (.fifoHead 1 1) ∧ ok (.fifoTail 1 1) ∧ ok (.put ⟨shareBase, otherBase, 8, memBase⟩)
      ∧ ok (.msg teamMsg) ∧ (s (.msg teamMsg)).mayRoute (agentNi 0) (agentNi teamMsg.dst) = true ∧ teamMsg.release = false ∧ ok (.msg rel) ∧ rel.release = true ∧ ((s (.msg rel)).sendrReady 0 0 0).2 = true
      ∧ ok (.hod (hodReq .fill)) ∧ ((s (.hod (hodReq .fill))).sendrReady 0 0 0).2 = true
      ∧ (let u := ((s (.hod (hodReq .fill))).sendrReady 0 0 0).1
        let home := u.hodHome (hodReq .fill)
        u.mayRoute (agentNi 0) (agentHod home.1 home.2) = true)
      ∧ ok (.hod (hodReq .gatherSum)) ∧ ((s (.hod (hodReq .gatherSum))).sendrReady 0 0 0).2 = true
      ∧ (hodReq .gatherSum).kind ≠ .copy ∧ (hodReq .gatherSum).kind ≠ .fill := by decide +kernel

theorem witness_TeamSteps :
    let bank := fun b => w0.setBank 2 b
    let w := fun (s : State) => s.freeKilled 0
    let drain : Bank := { mode := .draining }
    let zero := (bank { mode := .zeroing, since := 0 }).mapSite 0 fun t => { t with fab := 2048 }
    let at_ := fun st => w0.mapTeam 0 fun t => { t with state := st }
    let wait := (at_ .waiting).mapPart 0 fun p => { p with queue := [0] }
    let mine : Image := { fetchImage with shape := some (32, 32), oversub := true }
    let big := ({ w0 with images := [(0, mine), (1, fetchImage)]
                          teams := [(0, { fetchTeam with w := 1 }), (1, { fetchTeam with idx := 1, image := 1, w := 32, h := 32, state := .waiting })]
                          grids := [(0, { part := 0, image := 0, teams := [0, 1], w := 1, h := 1, cls := 0, oversub := true })] }).mapPart 0 fun p =>
                            { p with queue := [1], w := 1, h := 1 }
    let old := big.mapCore 0 fun c => { c with cycle := 2 ^ 24 }
    let replay := at_ .replay
    let mail := replay.mapTeam 0 fun t => { t with drop := [teamMsg] }
    let quiet := (at_ .quiescing).mapCore 0 fun c => { c with ctxs := [] }
    ((bank drain).bank 2).mode = .draining ∧ ((bank drain).bank 2).drain = [] ∧ (w0.bank 2).mode ≠ .draining ∧ (zero.bank 2).mode = .zeroing ∧ (zero.bank 2).leaving = false ∧ (zero.bank 2).since + 2048 ≤ (zero.site (bankSite 2)).fab
      -- the queue's head fits, the queue is empty, the head does not fit, and then a slice has run out
      ∧ ((w wait).teams.filter fun (_, t) => t.part == 0 && t.state == .placing) = [] ∧ (w wait).paused ((w wait).part 0).mod = false
      ∧ ((w wait).placeHead 0).isSome = true ∧ ((w w0).part 0).queue = [] ∧ ((w big).part 0).queue ≠ [] ∧ (w big).placeHead 0 = none
      ∧ ((w big).teams.filter fun (_, t) => t.part == 0 && t.state == .placing) = [] ∧ (w big).paused ((w big).part 0).mod = false
      ∧ old.placeHead 0 = none ∧ (old.part 0).queue = [1] ∧ old.paused (old.part 0).mod = false
      ∧ (old.teams.filter fun (_, t) => t.part == 0 && (t.state == .placed || t.state == .replay)
          && t.cls ≤ ((Sparse.find old.teams 1).map (·.cls)).getD 0 && 2 ^ 24 ≤ (old.core (teamCore t 0 0)).cycle - t.placedAt && !t.frozen
          && (Sparse.find old.grids t.grid).any (·.oversub)) = [(0, { fetchTeam with w := 1 })]
      -- swap in, mail, replay, swap out
      ∧ (Sparse.find (at_ .placing).teams 0).isSome = true ∧ (at_ .placing).banksReady 0 = true
      ∧ fetchTeam.state ≠ .ended ∧ fetchTeam.drop.length < fetchTeam.dropSize ∧ fetchTeam.retryArea = [] ∧ fetchTeam.drop = []
      ∧ Sparse.find mail.teams 0 = some { fetchTeam with state := .replay, drop := [teamMsg] }
      ∧ (mail.core (State.redirected { fetchTeam with state := .replay, drop := [teamMsg] } teamMsg).dst).freeEntry teamMsg.cls = some true
      ∧ fetchTeam.frozen = false ∧ (Sparse.find quiet.parts fetchTeam.part).isSome = true
      ∧ (∀ k ∈ State.teamCores fetchTeam, (quiet.core k).ctxs.all (fun (_, c) => !ctxBusy c) = true ∧ quiet.messagesOut k = [] ∧ (quiet.core k).ni.own = [])
      ∧ (Sparse.find quiet.grids fetchTeam.grid).map (fun g => (g.oversub, g.part, g.teams)) = some (false, 0, [0]) := by decide +kernel

/-- A node of a kind, whose doublewords D1 to D7 are given, ready and first in the queue of site 0. -/
def wNode (kind : Nat) (ds : List Word) (f : Node → Node) : State :=
  let d : Node := f { key := 5, body := BitVec.ofNat 64 (kind * 2 ^ 60 + 5 * 2 ^ 48) :: ds, argCap := ⟨0, 0, false⟩
                      count := 0, phase := 1 }
  (wMem (vals [(9, 5)])).mapSite 0 fun t => { t with nodes := [(3, d)], ready := [3], nodeNext := 4 }

/-- The node of `wNode`. -/
def nodeAt3 (s : State) : Node := (s.nodeAt 0 3).getD { key := 0, body := [], argCap := ⟨0, 0, false⟩, count := 0 }

/-- A start of each kind of node; completions; polls. -/
theorem witness_GraphSteps :
    let none4 : List Word := [0xFFFFFFFFFFFFFFFF, 0xFFFFFFFFFFFFFFFF]
    let rd : List Word := [BitVec.ofNat 64 shareBase, 1, 0, 0, 0] ++ none4
    let ok := fun (s : State) => s.paused (0 / 24) = false ∧ (s.site 0).started = none ∧ (s.site 0).live = true ∧ (s.site 0).ready = [3] ∧ (s.nodeAt 0 3).isSome = true
    let add : List Word := [BitVec.ofNat 64 shareBase, 1, 1, 0, 0] ++ none4
    let s0 := fun (s : State) => (s.mapSite 0 fun t => { t with ready := [], started := some t.fab }).mapNode 0 3 fun d => { d with phase := 2 }
    let s2 := fun (s : State) => (s0 s).mapNode 0 3 fun d => { d with due := some 0 }
    let polled := fun (w : State) => w.mapNode 0 3 fun e => { e with lastPoll := (w.site 0).fab }
    let reaches := fun (w : State) acc => w.faultOpen 0 ((w.partOfSite 0).getD 0) shareBase = false ∧ w.agentXlate ((w.partOfSite 0).getD 0) true 0
      (w.outsideHome ((w.partOfSite 0).getD 0) shareBase) shareBase acc = (w, .inl (bankBase 0))
        ∧ (bankBase 0 < 2 ^ 45 ∨ 2 ^ 48 ≤ bankBase 0) ∧ w.tileLocked (addrRange (bankBase 0) 8) = false
        ∧ w.hostAsk 0 (addrRange (bankBase 0) 8) (accWrites acc) (some (.waitPoll 0 3)) = none
    let launch := wNode 0 ([2 ^ 32, 0, 0, BitVec.ofNat 64 (2 ^ 48 + 65), 0] ++ none4) id
    let empty := wNode 0 (([0, 0, 0, 0, 0] : List Word) ++ none4) id
    let run := wNode 3 rd fun d => { d with phase := 2 }
    let poll := wNode 5 rd fun d => { d with phase := 2, due := some 0 }
    ok (wNode 5 rd id) ∧ nodeKind (nodeHead (nodeAt3 (wNode 5 rd id))) = 5 ∧ reaches (polled (s2 (wNode 5 rd id))) .read ∧ ok (wNode 3 rd id)
      ∧ nodeKind (nodeHead (nodeAt3 (wNode 3 rd id))) = 3
      ∧ ok (wNode 2 rd id) ∧ nodeKind (nodeHead (nodeAt3 (wNode 2 rd id))) = 2 ∧ reaches (s2 (wNode 2 rd id)) .read
      ∧ ok (wNode 4 rd id) ∧ nodeKind (nodeHead (nodeAt3 (wNode 4 rd id))) = 4 ∧ nodeD (nodeAt3 (wNode 4 rd id)) 3 = 0
      ∧ (nodeD (nodeAt3 (wNode 4 rd id)) 4).getLsbD 1 = false ∧ reaches (s2 (wNode 4 rd id)) .write
      ∧ ok (wNode 4 add id) ∧ nodeKind (nodeHead (nodeAt3 (wNode 4 add id))) = 4 ∧ nodeD (nodeAt3 (wNode 4 add id)) 3 ≠ 0
      ∧ (nodeD (nodeAt3 (wNode 4 add id)) 4).getLsbD 1 = false ∧ reaches (s2 (wNode 4 add id)) .amo
      ∧ ok launch ∧ nodeKind (nodeHead (nodeAt3 launch)) = 0 ∧ ((s0 launch).launchNode 0 3 (nodeAt3 launch)).2 = none
      ∧ ok empty ∧ ((s0 empty).launchNode 0 3 (nodeAt3 empty)).2.isSome = true ∧ nodeD (nodeAt3 empty) 5 = 0
      ∧ (nodeAt3 run).phase = 2 ∧ (nodeAt3 run).hold = none ∧ nodeKind (nodeHead (nodeAt3 run)) ≠ 1
      ∧ (nodeAt3 poll).phase = 2 ∧ (nodeAt3 poll).hold = none ∧ (nodeAt3 poll).due.isSome = true ∧ reaches (polled poll) .read := by
  and_intros <;> first | decide +kernel | rfl

/-- A grid with nothing left; posts; the end of a fault; GNODE and GDEC. -/
theorem witness_GraphSteps_rest :
    let g : Grid := { part := 0, image := 0, teams := [0], w := 1, h := 1, cls := 0, oversub := false }
    let idle := w0.mapCore 0 fun c => { c with ctxs := [] }
    let post := fun (n : Nat) (ws : List Word) => w0.mapPort 0 0 fun p =>
      { p with postBusy := true, goSite := n, postrec := ws.zipIdx.map fun (w, i) => (i, w) }
    let words := fun (s : State) => (List.range 8).map fun i => Sparse.get 0 (s.port 0 0).postrec i
    let down := w0.mapModule 0 fun m => { m with powered := false }
    let fault : FaultRec := { va := 4096, part := 0, base := 4096, size := 4096, cause := 1, acc := .read, waiters := [.ctx 0 0] }
    let held := w0.mapSite 0 fun t => { t with faults := [(7, fault)] }
    let sends := w0.mapSite 0 fun t => { t with faults := [(7, { fault with waiters := [.ni 0 0] })] }
    let gone := held.mapCtx 0 0 fun t => { t with txn := some { txn 1 with removed := some 6 } }
    let s := wNode 3 [] fun d => { d with count := 2, phase := 0 }
    let none' := wNode 3 [] fun d => { d with count := 0 }
    Sparse.find idle.grids 0 = some g ∧ g.status = none ∧ idle.gridDone 0 g = true ∧ g.cwaddr = 0
      -- a post to a site that does not exist, one that is refused, one that is taken
      ∧ ((post 24 []).port 0 0).postBusy = true ∧ (post 24 []).hostWritesDue 0 = false ∧ w0.serving 0 = true ∧ down.serving 0 = false ∧ 24 ≤ ((post 24 []).port 0 0).goSite
      ∧ ((post 0 []).port 0 0).goSite < 24 ∧ ((post 0 []).partOfSite 0).isSome = true ∧ ((post 0 []).site 0).live = true
      ∧ postedNode (words (post 0 [0, 0, 0, 2 ^ 48])) = none ∧ (postedNode (words (post 0 [3 * 2 ^ 60]))).isSome = true
      ∧ Sparse.find (held.site (7 / 2 ^ 32 * 24 + 7 % 2 ^ 32 / 2 ^ 27)).faults (7 % 2 ^ 32) = some fault ∧ fault.waiters = [.ctx 0 0]
      ∧ Sparse.find (sends.site (7 / 2 ^ 32 * 24 + 7 % 2 ^ 32 / 2 ^ 27)).faults (7 % 2 ^ 32) = some { fault with waiters := [.ni 0 0] }
      ∧ (held.ctxAt 0 0).occupied = true
      ∧ (held.ctxAt 0 0).txn = none ∧ (gone.ctxAt 0 0).txn = some { txn 1 with removed := some 6 } ∧ (txn 1).removed = none
      -- GNODE from device memory; GDEC of another partition's site, of no node, of one at zero, of one that waits
      ∧ s.stalled = false ∧ (∀ r ∈ ([5, 9] : List (BitVec 6)), s.busyG r = false ∧ (s.g r).taint = 0) ∧ s.task.txn = none
      ∧ capFault (s.supAt s.cur) (s.g 5) (s.g 5).val 64 [pLD] 64 = none ∧ (plainRead s (s.g 5).val 64 false).isSome = true
      ∧ 31 ∉ s.partSites (s.partAt s.cur) ∧ 0 ∈ s.partSites (s.partAt s.cur) ∧ s.liveNode 0 9 = none
      ∧ (s.g 9).val.toNat % 2 ^ 32 = 5 ∧ s.liveNode 0 5 = some (3, nodeAt3 s) ∧ (nodeAt3 s).count ≠ 0 ∧ (nodeAt3 s).phase = 0
      ∧ s.nodeAt 0 3 = some (nodeAt3 s) ∧ none'.liveNode 0 5 = some (3, nodeAt3 none') ∧ (nodeAt3 none').count = 0 := by decide +kernel

/-- The machine whose tables map page 0 at device address 2^16, as REMOTE memory or as a HOMED region. -/
def wWalk (mtype : Nat) : State := tables w0 [(0, leafOf mtype (if mtype = 0 then 0 else 2 ^ 22))]

theorem witness_TableSteps_walks :
    let g := Agent.ctx 0 0
    let st := fun (s : State) => (s.agentPlace g).1
    let n := Agent.node 0 3
    let entry := 2 ^ 30 + 8192
    let leaf := leafOf 2 (2 ^ 22)
    let s := wWalk 2
    let node := tables (wNode 5 [] id) [(0, leaf)]
    let v := s.loadStripe 0 leaf
    let clean := leaf - 0x180
    let locked : State := { tables w0 [(0, clean)] with tileDirs := [(entry / 256, { locked := true, blocks := [entry / 256] })] }
    let walker : PageWalk := { no := 0, part := 0, base := 0, size := 2 ^ 21, waiters := [(g, 0, .read)] }
    let used := s.mapSite 0 fun t => { t with walks := [(5, walker)] }
    let dark := s.mapSite 0 fun t => { t with keyed := false }
    let stripe := tables w0 [(0, leafOf 1 0)]
    let open_ := w0.mapSite 0 fun t => { t with faults := [(5, ⟨0, 0, 0, 4096, 1, .read, []⟩)] }
    let held := w0.mapCtx 0 0 fun t => { t with hold := some 5 }
    -- a walk without a walker and with one; a leaf, no leaf, an open handle, an agent that waits for one
    (s.agentHeld g = false ∧ (s.site (st s)).walks = [] ∧ s.faultOpen (st s) 0 0 = false
        ∧ s.walk 0 (s.agentSup .read g) 0 .read = .leaf entry leaf 0 (2 ^ 21) ∧ v.leafXlate (st s) 0 leaf 0 0 = .ok (2 ^ 22) (v.placeOf (st s) (2 ^ 22))
        ∧ v.unkeyed (2 ^ 22) = false ∧ v.walkHeld entry leaf .read = none)
      ∧ ((used.site 0).walks.find? fun (_, w) => w.part == 0 && w.base ≤ 0 && 0 < w.base + w.size) = some (5, walker)
      ∧ (node.agentHeld n = false ∧ node.walk 0 (node.agentSup .read n) 0 .read = .leaf entry leaf 0 (2 ^ 21))
      ∧ (w0.walk 0 (w0.agentSup .read g) 0 .read = .fault fNOTVALID ∧ w0.faultOpen (st w0) 0 0 = false ∧ w0.agentHeld g = false)
      ∧ (open_.agentHeld g = false ∧ open_.faultOpen (st open_) 0 0 = true) ∧ held.agentHeld g = true
      -- an entry whose tile is locked; a stripe group that does not exist; a site without its keys
      ∧ ((locked.loadStripe 0 clean).walkHeld entry clean .read).isSome = true
      ∧ ((stripe.loadStripe 0 (leafOf 1 0)).leafXlate 0 0 (leafOf 1 0) 0 0 = .walk ∧ stripe.faultOpen 0 0 0 = false
        ∧ stripe.walk 0 (stripe.agentSup .read g) 0 .read = .leaf entry (leafOf 1 0) 0 (2 ^ 21))
      ∧ (dark.loadStripe 0 leaf).unkeyed (2 ^ 22) = true := by
  decide +kernel

/-- First touches; REGREL of a homed region and of one that is not; shootdowns that begin and that end. -/
theorem witness_TableSteps_regions :
    let s := wWalk 0
    let home := (s.homeRegion 0 0 0 0)
    let rr := tables (world fun t => { t with wait := some (.regrel 4) }) [(0, leafOf 0 0)]
    let homed := { rr with regions := [(State.regionKey 0 0, ⟨1, 0, 0, 0⟩)] }
    let sh : Shoot := { id := 4, op := 0, arg := 0, status := 0, comp := noMsg }
    let shoot := fun sh => w0.mapSite 0 fun t => { t with shoots := [sh] }
    let busy := (shoot { sh with removed := true }).mapSite 0 fun t => { t with walks := [(5, ⟨5, 0, 0, 4096, []⟩)] }
    (s.agentHeld (.ctx 0 0) = false ∧ s.faultOpen 0 0 0 = false ∧ s.regionHome 0 0 = none ∧ (match home with | .inl _ => true | .inr _ => false) = true)
      ∧ (homed.regionHome 0 0).isSome = true
      ∧ (rr.ctxAt 0 0).wait = some (.regrel (4 : BitVec 6).toNat)
      ∧ Sparse.find homed.regions (State.regionKey (homed.partAt 0) (0 * 65536)) = some ⟨1, 0, 0, 0⟩ ∧ homed.pageHomed 0 (0 * 65536) = true
      ∧ Sparse.find rr.regions (State.regionKey (rr.partAt 0) (0 * 65536)) = none ∧ (∀ e, (w0.ctxAt 0 0).wait ≠ some (.regrel e))
      ∧ ((shoot sh).site 0).shoots.find? (·.id == 4 % 2 ^ 32) = some sh ∧ sh.removed = false ∧ sh.op ≤ 1 ∧ (shoot sh).accesses 0 = []
      ∧ (shoot sh).bagsOut 0 = [] ∧ (shoot sh).walksOut 0 = [] ∧ sh.notes = []
      ∧ ((shoot { sh with removed := true }).shootDone 0 { sh with removed := true }) = true
      ∧ (busy.shootDone 0 { sh with removed := true, walks := [(0, 5)] }) = false
      ∧ (w0.site 0).shoots.find? (·.id == 4 % 2 ^ 32) = none := by
  have h : (w0.ctxAt 0 0).wait = none := by decide +kernel
  and_intros <;> first | decide +kernel | (intro e; rw [h]; nofun)

/-- Audit records without a ring, with one, with one that no entry maps, and with one whose bank is being zeroed. -/
theorem witness_TableSteps_audit :
    let ring := fun (s : State) va => s.mapPart 0 fun p => { p with auditctl := BitVec.ofNat 64 (5 * 2 ^ 52 + va) }
    let s := ring w0 shareBase
    let off := ring w0 4096
    let wait := s.setBank 0 { (s.bank 0) with mode := .zeroing }
    ((w0.part 0).auditctl.extractLsb' 52 4).toNat = 0 ∧ ((s.part 0).auditctl.extractLsb' 52 4).toNat ≠ 0
      ∧ s.agentXlate 0 true (siteOf 0) (s.outsideHome 0 shareBase) shareBase .write = (s, .inl (bankBase 0))
      ∧ s.tileLocked (addrRange (bankBase 0) 32) = false
      ∧ s.hostAsk (siteOf 0) (addrRange (bankBase 0) 32) true (some (.auditAppend 0 0 0 0 0 0)) = none
      ∧ off.agentXlate 0 true (siteOf 0) (off.outsideHome 0 4096) 4096 .write = (off, .inr fNOTVALID) ∧ fNOTVALID ≠ fWAIT
      ∧ wait.agentXlate 0 true (siteOf 0) (wait.outsideHome 0 shareBase) shareBase .write = (wait, .inr fWAIT) := by
  and_intros <;> first | decide +kernel | rfl

/-- A request of core 0's NI on its way to the gateway of site 1. -/
def flit (f : Flit → Flit) : Flit := f { src := agentNi 0, dst := 2 ^ 24 + 3 * 2 ^ 22, toSite := 1, step := some (.storeAck 1024 0) }

theorem witness_PorderSteps :
    let at_ := fun (f : Flit) => w0.mapSite 0 fun t => { t with flits := [f] }
    let here := flit fun f => { f with toSite := 0 }
    let away := flit id
    let old := flit fun f => { f with age := 4095 }
    let opens := flit fun f => { f with toSite := 0, opens := true }
    let part := w0.mapSite 0 fun t => { t with reasm := [opens, flit fun f => { f with toSite := 0, cls := 1, seq := 9 }] }
    -- a flit at its site and one on its way; one that is too old
    ((at_ here).site 0).mesh = [] ∧ ((at_ here).site 0).flits = [here] ∧ ((at_ here).site 0).inject = [] ∧ badFlit here = false ∧ here.kind ≠ 2 ∧ here.age < 4094
      ∧ here.toSite = 0 ∧ ((at_ here).site 0).reasm = [] ∧ here.flast = 0 ∧ here.fidx = 0
      ∧ ((at_ away).site 0).flits = [away] ∧ ((at_ away).site 0).inject = [] ∧ badFlit away = false ∧ away.toSite ≠ 0
      ∧ ((at_ away).outputs 0 away.plane away.toSite [] true).1 = [0] ∧ ((at_ away).link 0 0).version ≠ 0 ∧ ((at_ away).link 0 0).corrupt = 0
      ∧ (at_ away).neighbour 0 0 ≠ 0 ∧ ((at_ old).site 0).flits[0]? = some old ∧ old.age = 4095 ∧ old.toSite ≠ 0
      -- reassembly of a request and of an answer
      ∧ (part.site 0).reasm.find? (fun g => g.src == agentNi 0 && g.seq == 0 && g.fidx == 0 && itemWhole (part.site 0).reasm g && !part.awaitsOpen 0 g) = some opens
      ∧ agentRouter opens.dst = none ∧ opens.kind ≠ 2 ∧ opens.cls ≠ 1 ∧ opens.step = some (.storeAck 1024 0)
      ∧ ((part.site 0).reasm.find? fun g => g.src == agentNi 0 && g.seq == 9 && g.fidx == 0 && itemWhole (part.site 0).reasm g && !part.awaitsOpen 0 g).map (·.cls) = some 1 := by decide +kernel

/-- Replays, good and bad; a lane worn with a spare and with none; training in the module, with each set of versions, and between
modules. -/
theorem witness_PorderSteps_links :
    let away := flit id
    let worn := fun n => (w0.mapSite 0 fun t => { t with fab := 2 ^ 24 }).mapLink 0 0 fun l => { l with replayed := 1, spares := n }
    let bad := fun n => w0.mapLink 0 0 fun l => { l with replayBuf := [away], corrupt := n }
    let two := w0.mapModule 0 fun m => { m with domain := 2 }
    (w0.link 0 0).dead = false ∧ ((bad 1).link 0 0).replayBuf = [away] ∧ 0 < ((bad 1).link 0 0).corrupt ∧ ((bad 1).link 0 0).dead = false
      ∧ ((bad 0).link 0 0).replayBuf = [away] ∧ ((bad 0).link 0 0).corrupt = 0 ∧ w0.neighbour 0 0 ≠ 0
      ∧ (w0.link 0 0).worn (w0.site 0).fab = false ∧ ((worn 2).link 0 0).worn ((worn 2).site 0).fab = true ∧ 0 < ((worn 2).link 0 0).spares
      ∧ ((worn 0).link 0 0).worn ((worn 0).site 0).fab = true ∧ ((worn 0).link 0 0).spares = 0
      ∧ 1 ∈ [0, 1] ∧ 1 ∉ [0] ∧ 0 ∈ [0] ∧ 0 ∉ ([] : List Nat) ∧ 1 ∉ ([] : List Nat) ∧ (two.module (0 / 24)).domain ≠ 1
      ∧ two.neighbour 0 4 / 24 = 1 ∧ (w0.module (0 / 24)).domain = 1 := by decide +kernel

/-- A flit of version 1, and one of version 0 at its age limit. -/
theorem witness_PorderSteps_versions :
    let f := flit id
    let old := flit fun f => { f with ver := 0, age := 255 }
    let s := w0.mapSite 0 fun t => { t with flits := [old] }
    (f.ver = 0 → f.age < 255) ∧ (s.site 0).mesh = [] ∧ (s.site 0).flits = [old] ∧ (s.site 0).inject = [] ∧ badFlit old = false
      ∧ old.ver = 0 ∧ old.kept = false ∧ 255 ≤ old.age := by decide +kernel

/-- What the mesh carries, and an item for an agent of the mesh. -/
theorem witness_PorderSteps_mesh :
    let f := flit fun f => { f with toSite := 0, dst := agentNi 0, opens := true }
    let met := w0.mapSite 0 fun t => { t with reasm := [f] }
    let mesh := w0.mapSite 0 fun t => { t with mesh := [(48, [⟨f, (1, 2), true⟩])] }
    (mesh.site 0).mesh = [(48, [⟨f, (1, 2), true⟩])] ∧ (mesh.site 0).flits = [] ∧ (mesh.site 0).inject = [] ∧ ((48 / 4 % 4, 48 / 16) : Nat × Nat) ≠ (1, 2)
      ∧ (met.site 0).reasm.find? (fun g => g.src == agentNi 0 && g.seq == 0 && g.fidx == 0 && itemWhole (met.site 0).reasm g && !met.awaitsOpen 0 g) = some f
      ∧ agentRouter f.dst = some (0, 0) := by decide +kernel

theorem witness_SequenceSteps :
    let a := agentNi 0
    let o := agentNi 1024
    let x : XmitEntry := { owner := o, seq := 3, step := .storeAck 1024 0, flits := 1 }
    let w : SeqWindow := { src := o, base := 0, applied := [], entries := [{ seq := 3, step := some (.storeAck 0 0), done := true }], opened := 0 }
    let s := w0.mapSite 0 fun t => { t with xmit := [(a, [x])], windows := [(a, [w])] }
    let v := w0.mapSite 1 fun t => { t with windows := [(o, [{ w with src := a }])] }
    let cut := (List.range 6).foldl (fun s d => s.mapLink 0 d fun l => { l with dead := true }) s
    let thrice := s.mapSite 0 fun t => { t with xmit := [(a, [{ x with reroutes := 2 }])] }
    let key := pairKey a o
    let quiet := w0.mapSite 0 fun t => { t with quiet := [(key, 0)], fab := 2 ^ 20 }
    (Sparse.get [] (s.site (agentSite a)).windows a).find? (·.src == o) = some w ∧ s.xmitAt a o 3 = some x
      ∧ (Sparse.get [] (w0.site (agentSite a)).windows a).find? (·.src == o) = none
      ∧ (s.hops (agentSite a) (agentSite o)).isSome = true ∧ x.reroutes < 2 ∧ (cut.hops (agentSite a) (agentSite o)).isSome = false
      ∧ cut.xmitAt a o 3 = some x ∧ thrice.xmitAt a o 3 = some { x with reroutes := 2 }
      ∧ (Sparse.get [] (v.site (agentSite o)).windows o).find? (·.src == a) = some { w with src := a }
      ∧ (63 + 65536 - w.base) % 65536 < 64 ∧ 63 ∉ w.applied ∧ 64 ≤ (64 + 65536 - w.base) % 65536 ∧ (64 + 65536 - w.base) % 65536 < 32768 ∧ 64 ∉ w.applied ∧ Sparse.find (quiet.site (agentSite a)).quiet key = some 0
      ∧ 0 + 2 ^ 20 ≤ (quiet.site (agentSite a)).fab ∧ (∀ y ∈ quiet.xmitOf a, y.owner ≠ o) := by decide +kernel

theorem witness_ErrorSteps :
    let lost := w0.mapCore 0 fun c => { c with lost := 1 }
    let evac := w0.mapSite 0 fun t => { t with evacuating := some 0, fab := 2 ^ 27 }
    let dbg := (w0.mapPart 0 fun p => { p with attached := true }).mapCtx 0 0 fun t => { t with halted := true }
    let heat := fun (p c lv cap fab : Nat) => w0.mapSite 0 fun t => { t with sensors := ⟨p, 0, 0, c⟩, level := lv, capset := cap, fab }
    let hot := fun (s : State) => decide (700 < (s.site 0).sensors.power ∨ 95 ≤ (s.site 0).sensors.tcomp)
    (w0.core 0).lost = 0 ∧ clusterOf 0 ∉ (w0.site (siteOf 0)).sparesUsed ∧ (lost.core 0).lost = 1 ∧ (w0.site 0).live = true
      ∧ (w0.site 0).evacuating = none ∧ (evac.site 0).evacuating = some 0 ∧ 0 + 2 ^ 27 ≤ (evac.site 0).fab
      ∧ evac.cores.all (fun (k, c) => siteOf k != 0 || c.lost != 2) = true
      ∧ w0.l2Dirty (lineOf 0) = false ∧ ((w0.l2Touch 0 true).l2Dirty (lineOf 0)) = true
      ∧ (dbg.ctxAt 0 0).txn = none ∧ ((dbg.mapCtx 0 0 fun t => { t with txn := some (txn 1) }).ctxAt 0 0).txn.isSome = true
      ∧ dbg.debuggable 0 0 = true ∧ (dbg.ctxAt 0 0).atBkpt = false
      -- a sensor at its limit of 105; a site past 700 watts, at 95 degrees, at neither
      ∧ 105 ≤ (⟨0, 0, 0, 105⟩ : Sensors).tcomp ∧ 105 ≤ ((heat 0 105 0 0 0).site 0).sensors.tcomp
      ∧ hot (heat 701 0 0 0 (2 ^ 20)) = true ∧ hot (heat 700 95 2 0 (2 ^ 20)) = true ∧ ((heat 700 95 2 0 (2 ^ 20)).site 0).level < 3
      ∧ ((heat 700 95 2 0 (2 ^ 20)).site 0).levelSince + 2 ^ 20 ≤ ((heat 700 95 2 0 (2 ^ 20)).site 0).fab
      ∧ hot (heat 700 94 1 0 (2 ^ 24)) = false ∧ ((heat 700 94 1 0 (2 ^ 24)).site 0).capset < ((heat 700 94 1 0 (2 ^ 24)).site 0).level
      ∧ ((heat 700 94 1 0 (2 ^ 24)).site 0).levelSince + 2 ^ 24 ≤ ((heat 700 94 1 0 (2 ^ 24)).site 0).fab := by decide +kernel

theorem witness_HostSteps :
    let hpa := 2 ^ 50 + shareBase
    let s := w0.mapPort 0 0 fun p => { p with decoders := [(0, { base := 2 ^ 50, size := 2 ^ 50, committed := true })] }
    let busy := w0.mapPort 0 0 fun p => { p with postBusy := true }
    let asked := w0.mapSite 0 fun t => { t with halfReq := [(2 ^ 39, 1)], bisnp := [(5, 1)] }
    let as := addrRange (bankBase 0) 8
    let hs := (State.halvesOf as).filter fun h => h < 2 ^ 39
    let wait := s.mapModule 0 fun m => { m with ck := { m.ck with busy := true } }
    s.serving 0 = true ∧ (s.port 0 0).up = true ∧ (BitVec.ofNat 64 (2 ^ 63)).getLsbD 63 = true
      ∧ (0 : Word).getLsbD 63 = false ∧ (s.port 0 0).postBusy = false
      ∧ (busy.port 0 0).postBusy = true ∧ ((s.mapPort 0 5 fun p => { p with up := true }).port 0 5).up = true
      ∧ Sparse.find (asked.site 0).halfReq (2 ^ 39) = some 1 ∧ (List.replicate 64 (0 : Byte)).length = 64
      ∧ Sparse.find (asked.site 0).bisnp 5 = some 1
      -- reads and writes of device memory, of an address without tables, and while a checkpoint runs
      ∧ (s.port 0 0).window hpa 8 = some (0, shareBase) ∧ s.hdmXlate 0 0 shareBase 8 .read = (s, .inl as) ∧ s.tileLocked as = false
      ∧ (∀ h ∈ hs, Sparse.find (s.site (paSite (h * 64))).bisnp h = none) ∧ s.hdmOldest hs = none
      ∧ (match (s.hdmXlate 0 0 4096 8 .read).2 with | .inr c => c != fWAIT | .inl _ => false) = true ∧ s.paused 0 = false ∧ (s.port 0 0).window (hpa - shareBase + 4096) 8 = some (0, 4096) ∧ (s.port 0 0).window 0 8 = none ∧ s.hdmXlate 0 0 shareBase 8 .write = (s, .inl as)
      ∧ wait.serving 0 = true ∧ (wait.port 0 0).window hpa 8 = some (0, shareBase) ∧ wait.paused 0 = true
      -- a port that is lost beside another that is up; a port that trains
      ∧ (s.module 0).ck.busy = false ∧ ((s.mapPort 0 5 fun p => { p with up := true }).mapPort 0 0 fun p => { p with up := false, spdm := 0 }).anyPort 0 = some 5
      ∧ (s.module 0).powered = true := by 
  and_intros <;> first | decide +kernel | rfl

theorem witness_CheckpointSteps :
    let ck := fun op => ({ w0 with teams := w0.teams.map fun (u, t) => (u, { t with state := .waiting }) } : State).mapModule 0 fun m => { m with ck := { m.ck with busy := true, op } }
    let stays := (w0.mapModule 0 fun m => { m with ck := { m.ck with busy := true, op := 1 } }).mapSite 0 fun t => { t with fab := 2 ^ 27 }
    let img : CkImage := { frames := none, valid := true, mem := [], tags := [], regions := [], parts := w0.parts
                           slots := (w0.module 0).slots, teams := [], grids := [], images := [] }
    let load := { ck 2 with ckImages := [(ckKey 0 0, img)] }
    let done := w0.mapModule 0 fun m => { m with ck := { m.ck with busy := true, done := true } }
    ((ck 0).module 0).ck.busy = true ∧ ((ck 0).module 0).ck.done = false ∧ ((ck 0).module 0).ck.op = 0 ∧ (ck 0).ckTeams 0 = []
      ∧ ((ck 1).module 0).ck.op = 1 ∧ (ck 1).ckTeams 0 = []
      ∧ (let w := ((ck 1).writeBackAll 0).returnHalves 0
        let entries := (w.partsOf 0).flatMap fun n => (w.dirtyLeaves n).flatMap fun d => addrRange d.1 8
        w.tileLocked entries = false ∧ w.hostAsk (0 * 24) entries true (some (.checkpointIncr 0)) = none) ∧ stays.ckTeams 0 ≠ [] ∧ (stays.module 0).ck.op = 1
      ∧ (stays.module 0).ck.busy = true ∧ (stays.module 0).ck.done = false ∧ (stays.module 0).ck.start + 2 ^ 27 ≤ (stays.site (0 * 24)).fab
      ∧ ((ck 2).module 0).ck.op = 2 ∧ Sparse.find (ck 2).ckImages (ckKey 0 ((ck 2).module 0).ck.base) = none
      ∧ Sparse.find load.ckImages (ckKey 0 (load.module 0).ck.base) = some img ∧ load.ckFits 0 img = true
      ∧ (done.module 0).ck.busy = true ∧ (done.module 0).ck.done = true := by decide +kernel

/-- Every lifecycle state of R434, a site that has left its partition, and the steps of an SPDM session. Whether a signature is
valid is free (log 7): both answers have their clause. -/
theorem witness_ResetSteps_SessionSteps :
    let fuses := fun (n : Nat) dbg rlk => w0.mapModule 0 fun m => { m with fuses := { m.fuses with life := BitVec.ofNat 8 n, dbgcnt := dbg, rlkcnt := rlk } }
    let out := w0.mapSite 5 fun t => { t with live := false }
    let back := w0.mapSite 5 fun t => { t with rejoin := true }
    let spdm := fun n => w0.mapPort 0 0 fun p => { p with spdm := n }
    (w0.module 0).powered = true ∧ (out.site 5).live = false ∧ (back.site 5).rejoin = true ∧ 5 ∈ back.partSites 0
      ∧ (fuses 0 0 0).life 0 = .blank ∧ (fuses 1 0 0).life 0 = .provisioned ∧ (fuses 3 31 31).life 0 = .deployed
      ∧ ((fuses 3 31 31).module 0).fuses.dbgcnt < 32 ∧ (fuses 3 1 0).life 0 = .debug ∧ (fuses 7 0 0).life 0 = .returned
      ∧ (fuses 15 0 0).life 0 = .retired ∧ (w0.part 0).mod = 0 ∧ (Sparse.find w0.parts 0).isSome = true ∧ w0.life 0 = .deployed
      ∧ (w0.port 0 0).up = true ∧ ((spdm 1).port 0 0).spdm = 1 ∧ ((spdm 2).port 0 0).spdm = 2 ∧ ((spdm 3).port 0 0).spdm = 3
      ∧ ((spdm 4).port 0 0).spdm = 4 ∧ ((spdm 5).port 0 0).spdm = 5 ∧ ((spdm 5).port 0 0).up = true ∧ ((spdm 5).module 0).powered = true
      ∧ ((spdm 5).module 0).exhausted = false ∧ ((spdm 5).module 0).leaf < 2 ^ 20 := by decide +kernel

theorem witness_RoundTrip :
    (Instr.stW 10 7 (-2)).wf = true ∧ encode (.stW 10 7 (-2)) = some 0x64A1FFE4#32 ∧ (Instr.mdot 1 0 1 6 0 0 1 1).wf = true
      ∧ encode (.mdot 1 0 1 6 0 0 1 1) = some 0xB8800B06#32 := by decide

/-- A store and its performing: two steps, each from a state in canonical form. -/
theorem witness_CanonicalKept :
    let s := { wPend with agenda := [.storePerform 0 0 0] }
    Mem.wf w0.mem = true ∧ (after (step w0) fun t => (t.ctxAt 0 0).pc) = some (BitVec.ofNat 64 (fetchBase + 4))
      ∧ Mem.wf s.mem = true ∧ (after (step s) fun t => Mem.read t.mem (2 ^ 21 + 1)) = some 2 := by decide +kernel

theorem witness_IssueKeepsMemory :
    (encode (.stW 8 5 1)).isSome = true ∧ (after (exec (.stW 8 5 1) (wMem id)) fun t => t.task.sack) = some 1 := by decide +kernel

/-- A step on the agenda; a module out of service; the fetched ADD; a word that decodes to nothing; a fetch outside the section; a
body instruction of a repeat frame. -/
theorem witness_StepRuns :
    let s := w0
    let k := s.cur
    let at_ := fun (s : State) => { s.beginCycle k with cur := k, ctx := 0, stalled := false }
    let budgets := fun (s : State) => ∀ y, y < 8 → (s.core k).frozen = true ∨ (s.ctxAt k y).halted = true ∨ atBoundary (s.ctxAt k y) = false
      ∨ (s.ctxAt k y).budget ≤ (s.imageAt k).budget
    let turn := fun (s : State) => s.nextEvent = none ∧ s.inService = true ∧ budgets s ∧ (s.beginCycle k).mayIssue k = true
      ∧ ready ((s.beginCycle k).core k) ((s.beginCycle k).ctxAt k 0) = true
    let zero := poke w0 teamStore [0, 0, 0, 0]
    let out := world fun t => { t with pc := 0 }
    let off := w0.mapModule 0 fun m => { m with powered := false }
    let rep := (repWorld 2).mapTask fun t => { t with frame := some { words := [0x04928B00], rc := 20, len := 1, sd := 0, sa := 0, sb := 0 } }
    let e : State := { off with agenda := [.dispatch 0] }
    e.nextEvent = some (.dispatch 0) ∧ e.inService = false ∧ off.nextEvent = none
      ∧ turn s ∧ framed ((s.beginCycle k).core k) = none ∧ State.runningFrame ((s.beginCycle k).ctxAt k 0) = none
      ∧ slotOrder ((s.beginCycle k).core k).ptr = [] ++ 0 :: [1, 2, 3, 4, 5, 6, 7]
      ∧ (at_ s).nextWord = some 0x04928B00#32 ∧ decode 0x04928B00#32 = some (.add 9 10 11)
      ∧ (after (exec (.add 9 10 11) (at_ s).fetch) fun t => t.stalled) = some false
      ∧ (at_ zero).nextWord = some 0#32 ∧ decode 0#32 = none ∧ (at_ out).nextWord = none
      ∧ turn rep ∧ framed ((rep.beginCycle k).core k) = some 0 ∧ ((rep.beginCycle k).ctxAt k 0).hold = none
      ∧ (at_ rep).nextWord = some 0x04928B00#32
      ∧ (after (exec (.add 9 10 11) (at_ rep).fetch) fun t =>
          (t.stalled, (t.ctxAt k 0).stepping, (List.range 8).all fun y => y == 0 || !ready (t.core k) (t.ctxAt k y))) = some (false, false, true) := by
  decide +kernel

end Sys2Proof.Tests
end

section
/-!
SUPPORT. What folds, the port block, the caches and a performed write leave alone, and what the host's side reads after each of
its operations.
-/
namespace Sys2Proof.Machine

/-- What no step of a fold changes, the fold does not change. -/
theorem foldl_keeps {α β σ : Type} (π : σ → β) (f : σ → α → σ) (h : ∀ s a, π (f s a) = π s) (l : List α) (s : σ) :
    π (l.foldl f s) = π s := by
  induction l generalizing s with
  | nil => rfl
  | cons a l ih => rw [List.foldl_cons, ih, h]

theorem addrRange_succ (a n : Nat) : addrRange a (n + 1) = a :: addrRange (a + 1) n := by
  simp [addrRange, List.range_succ_eq_map, Function.comp_def, Nat.add_assoc, Nat.add_comm 1]

namespace Sparse
variable {α β : Type}

theorem find_erase_same (m : Sparse α) (k : Nat) : find (erase m k) k = none := by
  induction m with
  | nil => rfl
  | cons p t ih => obtain ⟨j, y⟩ := p; by_cases e : j = k <;> simp [erase, find, e, ih]

/-- What a map over the entries of a table leaves of each, a reader of the table finds as before. -/
theorem get_map_keeps (π : α → β) (f : Nat → α → α) (h : ∀ n x, π (f n x) = π x) (d : α) (m : Sparse α) (k : Nat) :
    π (get d (m.map fun p => (p.1, f p.1 p.2)) k) = π (get d m k) := by
  induction m with
  | nil => rfl
  | cons p t ih => by_cases e : p.1 = k <;> simp [get, e, h, ih]

end Sparse

/-- Consecutive bytes written read back one by one, and every other byte reads as before (R123). -/
theorem Mem.read_writeAll_range (m : Mem) (a : Nat) (bs : List Byte) (x : Nat) :
    read (writeAll m ((addrRange a bs.length).zip bs)) x =
      if a ≤ x ∧ x < a + bs.length then bs.getD (x - a) 0 else read m x := by
  induction bs generalizing a m with
  | nil => simp [writeAll, show ¬(a ≤ x ∧ x < a) by omega]
  | cons b bs ih =>
    rw [List.length_cons, addrRange_succ, List.zip_cons_cons, writeAll, ih]
    by_cases e : x = a
    · subst e; simp
    · by_cases g : a < x
      · obtain ⟨n, rfl⟩ : ∃ n, x = a + 1 + n := ⟨x - (a + 1), by omega⟩
        have i : a + 1 + n - a = n + 1 := by omega
        have j : a + 1 + n < a + (bs.length + 1) ↔ n < bs.length := by omega
        simp [i, j, e, show a ≤ a + 1 + n by omega]
      · simp [show ¬a ≤ x by omega, show ¬a + 1 ≤ x by omega, e]

/-! The halves of a site (R418), as a list of halves and states. -/

/-- The state a list gives a half: that of its first entry for it, else I. -/
def halfIn (l : List (Nat × Nat)) (h : Nat) : Nat := ((l.find? (·.1 == h)).map (·.2)).getD 0

theorem State.halfState_eq (s : State) (site h : Nat) : s.halfState site h = halfIn (s.site site).halves h := rfl

theorem find?_half_filter_ne (l : List (Nat × Nat)) (h : Nat) : (l.filter (·.1 != h)).find? (·.1 == h) = none := by
  simp [List.find?_eq_none]

theorem halfIn_append_set (l : List (Nat × Nat)) (h w : Nat) : halfIn (l.filter (·.1 != h) ++ [(h, w)]) h = w := by
  rw [halfIn, List.find?_append, find?_half_filter_ne]; simp

/-- A half that is cut down to some state, and leaves the list where that is I, reads as that state (R418). -/
theorem halfIn_cut (l : List (Nat × Nat)) (h w : Nat) (hw : halfIn l h = 0 → w = 0) :
    halfIn (if w = 0 then l.filter (·.1 != h) else l.map fun p => (p.1, if p.1 = h then w else p.2)) h = w := by
  split
  case isTrue e => subst e; rw [halfIn, find?_half_filter_ne]; rfl
  case isFalse e =>
    replace hw := mt hw e
    clear e
    induction l with
    | nil => simp [halfIn] at hw
    | cons p l ih => by_cases g : p.1 = h <;> simp_all [halfIn]

namespace State

/-! Sites and modules through updates that are not about them. -/

theorem module_of_mods {s t : State} (h : t.mods = s.mods) (n : Nat) : t.module n = s.module n := by simp [module, h]
theorem site_of_sites {s t : State} (h : t.sites = s.sites) (n : Nat) : t.site n = s.site n := by simp [site, h]

@[simp] theorem module_mapPort_ck (s : State) (mod k : Nat) (f : Port → Port) :
    ((s.mapPort mod k f).module mod).ck = (s.module mod).ck := by simp [mapPort]

@[simp] theorem module_push (s : State) (e : Event) (n : Nat) : (s.push e).module n = s.module n := rfl
@[simp] theorem module_bump (s : State) (n : Nat) : s.bump.module n = s.module n := rfl
@[simp] theorem module_mapCk (s : State) (n : Nat) (f : Checkpoint → Checkpoint) :
    (s.mapCk n f).module n = { s.module n with ck := f (s.module n).ck } := by simp [mapCk]

@[simp] theorem pushOnce_mods (s : State) (e : Event) : (s.pushOnce e).mods = s.mods := by unfold pushOnce; split <;> rfl
@[simp] theorem pushOnce_ckImages (s : State) (e : Event) : (s.pushOnce e).ckImages = s.ckImages := by
  unfold pushOnce; split <;> rfl

@[simp] theorem keepCode_sites (s : State) (ws : List (Nat × Byte)) : (s.keepCode ws).sites = s.sites := by
  unfold keepCode; extract_lets; split <;> rfl
@[simp] theorem keepCode_ckImages (s : State) (ws : List (Nat × Byte)) : (s.keepCode ws).ckImages = s.ckImages := by
  unfold keepCode; extract_lets; split <;> rfl
@[simp] theorem writeMem_sites (s : State) (ws : List (Nat × Byte)) : (s.writeMem ws).sites = s.sites := by simp [writeMem]
@[simp] theorem writeMem_ckImages (s : State) (ws : List (Nat × Byte)) : (s.writeMem ws).ckImages = s.ckImages := by
  simp [writeMem]

@[simp] theorem checkRead_mem (s : State) (as : List Nat) : (s.checkRead as).mem = s.mem := by
  unfold checkRead; extract_lets; split <;> rfl

/-! Checkpoint images through the steps of a performed write: notices to holders of its tiles, and the caches. -/

@[simp] theorem leave_ckImages (s : State) (src : Nat) (fs : List Flit) : (s.leave src fs).ckImages = s.ckImages := by
  simp [leave]
@[simp] theorem inject_ckImages (s : State) (src dst flits cls seq : Nat) (r o : Bool) (e : Option Event) :
    (s.inject src dst flits cls seq r o e).ckImages = s.ckImages := by simp [inject]
@[simp] theorem route_ckImages (s : State) (src owner flits cls : Nat) (e : Event) :
    (s.route src owner flits cls e).ckImages = s.ckImages := by
  simp only [route]
  split
  · rfl
  · split <;> simp
@[simp] theorem routeOnce_ckImages (s : State) (src owner flits cls : Nat) (e : Event) :
    (s.routeOnce src owner flits cls e).ckImages = s.ckImages := by unfold routeOnce; split <;> simp
@[simp] theorem notice_ckImages (s : State) (tile : Nat) (h : Nat × Nat) (code : Nat) :
    (s.notice tile h code).ckImages = s.ckImages := by simp only [notice]; split <;> simp
@[simp] theorem removeHolders_ckImages (s : State) (tiles : List Nat) (code : Nat) (keep : Option (Nat × Nat)) :
    (s.removeHolders tiles code keep).ckImages = s.ckImages :=
  foldl_keeps State.ckImages _ (fun _ _ => by simp) _ _

@[simp] theorem l2Touch_ckImages (s : State) (line : Nat) (d : Bool) : (s.l2Touch line d).ckImages = s.ckImages := by
  unfold l2Touch; split <;> rfl
@[simp] theorem evictLine_ckImages (s : State) (site cl : Nat) (e : ClusterLine) :
    (s.evictLine site cl e).ckImages = s.ckImages := by
  unfold evictLine; extract_lets
  split
  · rw [l2Touch_ckImages]; rfl
  · rfl
@[simp] theorem wroteLine_ckImages (s : State) (writer : Option Nat) (line : Nat) :
    (s.wroteLine writer line).ckImages = s.ckImages := by
  have drop : ∀ (s : State) (l : List (Nat × Nat × ClusterLine)),
      (l.foldl (fun s q => s.evictLine q.1 q.2.1 ⟨line, 0, .shared, none⟩) s).ckImages = s.ckImages :=
    fun s l => foldl_keeps State.ckImages _ (fun _ _ => by simp) l s
  unfold wroteLine; extract_lets mine _ s₁ others s₂
  have h : s₂.ckImages = s.ckImages := drop s₁ others
  clear_value s₂ others mine
  cases mine with
  | some k => exact h
  | none => exact (l2Touch_ckImages _ _ _).trans h
@[simp] theorem writeHome_ckImages (s : State) (ws : List (Nat × Byte)) (tags : List (Nat × Bool)) (writer : Option Nat) :
    (s.writeHome ws tags writer).ckImages = s.ckImages := by
  unfold writeHome
  rw [foldl_keeps State.ckImages _ (fun _ _ => by simp), foldl_keeps State.ckImages _ (fun _ _ => by simp), writeMem_ckImages]
@[simp] theorem performWrite_ckImages (s : State) (ws : List (Nat × Byte)) (tags : List (Nat × Bool)) (writer : Option Nat) :
    (s.performWrite ws tags writer).ckImages = s.ckImages := by simp [performWrite]
@[simp] theorem forgetXlate_ckImages (s : State) (part : Nat) : (s.forgetXlate part).ckImages = s.ckImages := by
  simp [forgetXlate, shootRemove, mapTlbs]

/-! Lines that leave the caches change nothing of a site but its cluster caches. -/

theorem site_forgetLines_keeps {β : Type} (π : Site → β) (h : ∀ (t : Site) c, π { t with clusters := c } = π t) (s : State)
    (at_ gone : Nat → Bool) (n : Nat) : π ((s.forgetLines at_ gone).site n) = π (s.site n) := by
  let kept := fun (ls : List ClusterLine) => ls.filter fun e => !(gone e.line && e.copy.isNone)
  refine Sparse.get_map_keeps π (fun n t => if at_ n then { t with clusters := Sparse.mapVals kept t.clusters } else t)
    (fun n t => ?_) {} s.sites n
  split
  · exact h _ _
  · rfl

theorem forgetLines_sameStorage (s : State) (at_ gone : Nat → Bool) : SameStorage s (s.forgetLines at_ gone) :=
  ⟨fun _ => rfl, rfl, rfl⟩

theorem dropSiteLine_mods (s : State) (site line : Nat) : (s.dropSiteLine site line).mods = s.mods := rfl

end State
end Sys2Proof.Machine
end

section
/-!
SUPPORT. The host's accesses (R414 to R420): what each operation of the host's side does.
-/
namespace Sys2Proof.Machine

/-! The register block (R416, R422, R438). -/

theorem Port.configure_other (p : Port) (mine : Nat → Bool) (off : Nat) (v : Word) (h : off < 0x1000) :
    p.configure mine off v = p := by
  simp [Port.configure, show off ≠ 0x1800 by omega, show ¬0x1000 ≤ off by omega]

/-- A decoder that is not committed is set up (R415). -/
def Port.setDecoder (p : Port) (i : Nat) (f : HdmDecoder → HdmDecoder) : Port :=
  { p with decoders := Sparse.set p.decoders i (let d : HdmDecoder := Sparse.get {} p.decoders i; if d.committed then d else f d) }

theorem decoder_offset (i off : Nat) (hi : i < 4) (ho : off < 32) : 0x1000 + 32 * i + off ≠ 0x1800
    ∧ 0x1000 ≤ 0x1000 + 32 * i + off ∧ 0x1000 + 32 * i + off < 0x1080
    ∧ (0x1000 + 32 * i + off - 0x1000) / 32 = i ∧ (0x1000 + 32 * i + off) % 32 = off := by omega

theorem Port.configure_base (p : Port) (mine : Nat → Bool) (v : Word) (i : Nat) (hi : i < 4) :
    p.configure mine (0x1000 + 32 * i + 0) v = p.setDecoder i fun d => { d with base := v.toNat } := by
  simp only [configure, setDecoder, decoder_offset i 0 hi (by decide)]
  cases (Sparse.get {} p.decoders i : HdmDecoder).committed <;> simp

theorem Port.configure_size (p : Port) (mine : Nat → Bool) (v : Word) (i : Nat) (hi : i < 4) :
    p.configure mine (0x1000 + 32 * i + 8) v = p.setDecoder i fun d => { d with size := v.toNat } := by
  simp only [configure, setDecoder, decoder_offset i 8 hi (by decide)]
  cases (Sparse.get {} p.decoders i : HdmDecoder).committed <;> simp

theorem Port.configure_part (p : Port) (mine : Nat → Bool) (v : Word) (i : Nat) (hi : i < 4) :
    p.configure mine (0x1000 + 32 * i + 24) v = p.setDecoder i fun d => { d with part := v.toNat } := by
  simp only [configure, setDecoder, decoder_offset i 24 hi (by decide)]
  cases (Sparse.get {} p.decoders i : HdmDecoder).committed <;> simp

section
variable {s : State} {mod port : Nat} (v : Word) (hs : s.serving mod = true) (hu : (s.port mod port).up = true)
include hs hu

theorem registerWrite_go_idle (hv : v.getLsbD 63 = true) (hb : (s.port mod port).postBusy = false) :
    exec (.registerWrite mod port 0x008 v) s =
      .next (((s.mapPort mod port fun p => { p with postSite := v.toNat % 32 }).mapPort mod port fun p =>
        { p with postBusy := true, goSite := p.postSite }).push (.postGo mod port)) := by
  simp [exec_registerWrite, execRegisterWrite, hs, hu, hv, hb]

theorem registerWrite_go_busy (hv : v.getLsbD 63 = true) (hb : (s.port mod port).postBusy = true) :
    exec (.registerWrite mod port 0x008 v) s =
      .next ((s.mapPort mod port fun p => { p with postSite := v.toNat % 32 }).mapPort mod port fun p =>
        { p with overrun := true }) := by
  simp [exec_registerWrite, execRegisterWrite, hs, hu, hv, hb]

theorem registerWrite_site (hv : v.getLsbD 63 = false) :
    exec (.registerWrite mod port 0x008 v) s = .next (s.mapPort mod port fun p => { p with postSite := v.toNat % 32 }) := by
  simp only [exec_registerWrite, execRegisterWrite, hs, hu, hv]; simp

theorem registerWrite_nstat :
    exec (.registerWrite mod port 0x018 v) s = .next (s.mapPort mod port fun p => { p with nstat := p.nstat &&& ~~~v }) := by
  simp [exec_registerWrite, execRegisterWrite, hs, hu]

theorem registerWrite_postrec (i : Nat) (hi : i < 8) :
    exec (.registerWrite mod port (0x040 + 8 * i) v) s =
      .next (s.mapPort mod port fun p => { p with postrec := Sparse.set p.postrec i v }) := by
  have h : 0x040 + 8 * i ≠ 0x008 ∧ 0x040 + 8 * i ≠ 0x018 ∧ 0x040 + 8 * i ≠ 0x020 ∧ 0x040 + 8 * i ≠ 0x028
      ∧ 0x040 + 8 * i < 0x080 ∧ (0x040 + 8 * i) % 8 = 0 := by omega
  simp [exec_registerWrite, execRegisterWrite, hs, hu, h]

theorem registerWrite_capset (i : Nat) (hi : i < 24) :
    exec (.registerWrite mod port (0x500 + 8 * i) v) s = .next (s.push (.capsetWrite (mod * 24 + i) v)) := by
  have h : 0x500 + 8 * i ≠ 0x008 ∧ 0x500 + 8 * i ≠ 0x018 ∧ 0x500 + 8 * i ≠ 0x020 ∧ 0x500 + 8 * i ≠ 0x028
      ∧ ¬ 0x500 + 8 * i < 0x080 ∧ 0x500 + 8 * i < 0x5C0 ∧ (0x500 + 8 * i) % 8 = 0 := by omega
  simp [exec_registerWrite, execRegisterWrite, hs, hu, h]

/-- A write outside the post block, the checkpoint registers and the power caps configures the port (R415). -/
theorem registerWrite_configure (off : Nat) (h : off ≠ 0x008 ∧ off ≠ 0x018 ∧ (port = 0 → off ≠ 0x020 ∧ off ≠ 0x028)
      ∧ ¬(0x040 ≤ off ∧ off < 0x080) ∧ ¬(0x500 ≤ off ∧ off < 0x5C0)) :
    exec (.registerWrite mod port off v) s = .next (s.mapPort mod port fun p =>
      p.configure (fun n => (Sparse.find s.parts n).any fun q => q.mod == mod) off v) := by
  have h' : off ≠ 0x008 ∧ off ≠ 0x018 ∧ ¬(off = 0x020 ∧ port = 0) ∧ ¬(off = 0x028 ∧ port = 0)
      ∧ ¬(0x040 ≤ off ∧ off < 0x080 ∧ off % 8 = 0) ∧ ¬(0x500 ≤ off ∧ off < 0x5C0 ∧ off % 8 = 0) := by omega
  simp [exec_registerWrite, execRegisterWrite, hs, hu, h']

/-- A read-only offset ignores the write (R416). -/
theorem registerWrite_readOnly (off : Nat) (h : off ≠ 0x008 ∧ off ≠ 0x018 ∧ (port = 0 → off ≠ 0x020 ∧ off ≠ 0x028)
      ∧ ¬(0x040 ≤ off ∧ off < 0x080) ∧ ¬(0x500 ≤ off ∧ off < 0x5C0)) (hl : off < 0x1000) :
    exec (.registerWrite mod port off v) s = .next (s.mapPort mod port fun p => p) := by
  rw [registerWrite_configure v hs hu off h]
  simp only [Port.configure_other _ _ _ _ hl]

theorem registerWrite_msix :
    exec (.registerWrite mod port 0x1800 v) s = .next (s.mapPort mod port fun p => { p with msixOn := v.getLsbD 0 }) := by
  rw [registerWrite_configure v hs hu 0x1800 (by omega)]
  simp only [Port.configure, if_true]

/-- A write that sets up a decoder of the port (R415). -/
theorem registerWrite_decoder (i off : Nat) (f : HdmDecoder → HdmDecoder)
    (hf : ∀ (p : Port) mine, p.configure mine (0x1000 + 32 * i + off) v = p.setDecoder i f) :
    exec (.registerWrite mod port (0x1000 + 32 * i + off) v) s = .next (s.mapPort mod port fun p => p.setDecoder i f) := by
  rw [registerWrite_configure v hs hu _ (by omega)]
  simp only [hf]

end

section
variable {s : State} {mod : Nat} (v : Word) (hs : s.serving mod = true) (hu : (s.port mod 0).up = true)
include hs hu

theorem registerWrite_ckctl : exec (.registerWrite mod 0 0x020 v) s = .next (s.ckctl mod v) := by
  simp [exec_registerWrite, execRegisterWrite, hs, hu]

theorem registerWrite_ckbase : exec (.registerWrite mod 0 0x028 v) s =
    .next (s.mapModule mod fun m => { m with ck := { m.ck with base := v.toNat % 2 ^ 45 / 4096 * 4096 } }) := by
  have e : (v.extractLsb' 12 33).toNat * 4096 = v.toNat % 2 ^ 45 / 4096 * 4096 := by
    simp only [BitVec.extractLsb'_toNat, Nat.shiftRight_eq_div_pow]; omega
  simp only [exec_registerWrite, execRegisterWrite, hs, hu, e]; rfl

end

/-! CXL.cache (R418). -/

namespace State

theorem halfState_snoop (s : State) (site h keep : Nat) : (s.snoop site h keep).halfState site h = min (s.halfState site h) keep := by
  have e : (((s.snoop site h keep).site site).halves) = if min (s.halfState site h) keep = 0
      then (s.site site).halves.filter (·.1 != h)
      else (s.site site).halves.map fun p => (p.1, if p.1 = h then min (s.halfState site h) keep else p.2) := by
    simp only [snoop]; split
    · rw [dropSiteLine, site_forgetLines_keeps Site.halves (fun _ _ => rfl)]; simp
    · simp
  rw [halfState_eq, e]
  exact halfIn_cut _ _ _ fun h0 => by rw [halfState_eq, h0, Nat.zero_min]

theorem snoop_sameStorage (s : State) (site h keep : Nat) : SameStorage s (s.snoop site h keep) := by
  simp only [snoop]; split
  · exact forgetLines_sameStorage _ _ _
  · exact ⟨fun _ => rfl, rfl, rfl⟩

theorem snoopData_snoop (s : State) (site h keep : Nat) : ((s.snoop site h keep).site site).snoopData =
    if s.halfState site h = 3 then s.readMem (addrRange (h * 64) 64) else [] := by
  simp only [snoop]; split
  · rw [dropSiteLine, site_forgetLines_keeps Site.snoopData (fun _ _ => rfl)]; simp
  · simp

/-! What waits for the host at a site (R418, R420). -/

@[simp] theorem hostOn_mem (s : State) (st : Nat) : (s.hostOn st).mem = s.mem := rfl
@[simp] theorem site_hostOn (s : State) (st : Nat) : (s.hostOn st).site st = { s.site st with hostWait := [] } :=
  site_mapSite s st fun t => { t with hostWait := [] }
theorem hostOn_agenda (s : State) (st : Nat) : (s.hostOn st).agenda = s.agenda ++ (s.site st).hostWait := rfl

/-- The tracking makes room by returning one line's halves, or has room (R418). -/
theorem makeRoom_eq (s : State) (site h : Nat) : s.makeRoom site h = s ∨ ∃ l, s.makeRoom site h = s.evictHalves site l := by
  simp only [makeRoom]
  split
  · exact .inl rfl
  · split
    · exact .inr ⟨_, rfl⟩
    · exact .inl rfl

theorem evictHalves_mem (s : State) (site line : Nat) : (s.evictHalves site line).mem = s.mem := by
  unfold evictHalves; split <;> rfl
theorem evictHalves_hostWait (s : State) (site line : Nat) :
    ((s.evictHalves site line).site site).hostWait = (s.site site).hostWait := by
  unfold evictHalves
  split
  · rfl
  · rw [site_forgetLines_keeps Site.hostWait (fun _ _ => rfl), site_mapSite]

theorem makeRoom_mem (s : State) (site h : Nat) : (s.makeRoom site h).mem = s.mem := by
  obtain e | ⟨l, e⟩ := s.makeRoom_eq site h
  · rw [e]
  · rw [e, evictHalves_mem]
theorem makeRoom_hostWait (s : State) (site h : Nat) :
    ((s.makeRoom site h).site site).hostWait = (s.site site).hostWait := by
  obtain e | ⟨l, e⟩ := s.makeRoom_eq site h
  · rw [e]
  · rw [e, evictHalves_hostWait]

theorem hdmTrack_fold_mem (hs : List Nat) (s : State) : (hs.foldl (fun s h => s.hdmTrack h) s).mem = s.mem :=
  foldl_keeps State.mem (fun s h => s.hdmTrack h) (fun _ _ => rfl) hs s

end State

/-- A grant that answers the request: the half in the granted state with its bytes, and what waited goes on (R418). -/
theorem hostCacheGrant_granted (s : State) (site half want st : Nat) (data : List Byte)
    (hq : Sparse.find (s.site site).halfReq half = some want) (h1 : 1 ≤ st) (h3 : st ≤ 3) (hown : want = 1 → 2 ≤ st)
    (hsh : want = 0 → st ≠ 3) (hd : data.length = 64) :
    Completes (exec (.hostCacheGrant site half st data) s) fun w => w.halfState site half = st
      ∧ Sparse.find (w.site site).halfReq half = none ∧ (∀ e ∈ (s.site site).hostWait, e ∈ w.agenda)
      ∧ ∀ a, Mem.read w.mem a = if half * 64 ≤ a ∧ a < half * 64 + 64 then data.getD (a - half * 64) 0 else Mem.read s.mem a := by
  have hok : ¬(st = 0 ∨ 3 < st ∨ (want = 0 ∧ st = 3) ∨ (want = 1 ∧ st < 2)) := by omega
  simp only [exec_hostCacheGrant, execHostCacheGrant, hq, if_neg hok]
  refine ⟨_, rfl, ?_, ?_, ?_, ?_⟩
  · simp [State.halfState_eq, halfIn_append_set]
  · simp [Sparse.find_erase_same]
  · intro e he
    have hw := State.site_of_sites (State.writeMem_sites (s.makeRoom site half) ((addrRange (half * 64) 64).zip data)) site
    simp [State.hostOn_agenda, hw, State.makeRoom_hostWait, he]
  · intro a
    simpa [State.makeRoom_mem, hd] using Mem.read_writeAll_range s.mem (half * 64) data a

/-- An answer to a back-invalidate that brings no data (R420). -/
theorem bisnpResponse_clean (s : State) (site half kind : Nat) (hk : Sparse.find (s.site site).bisnp half = some kind) :
    Completes (exec (.bisnpResponse site half none) s) fun w =>
      Sparse.find (w.site site).bisnp half = none ∧ (kind = 1 → ∀ h ∈ (w.site site).hdm, h.1 ≠ half)
        ∧ (∀ e ∈ (s.site site).hostWait, e ∈ w.agenda) ∧ SameStorage s w := by
  simp only [exec_bisnpResponse, execBisnpResponse, hk]
  refine ⟨_, rfl, ?_, ?_, ?_, fun _ => rfl, rfl, rfl⟩
  · simp [Sparse.find_erase_same]
  · rintro rfl h hh
    have hh' : h ∈ (s.site site).hdm ∧ h.1 ≠ half := by simpa using hh
    exact hh'.2
  · intro e he; simp [State.hostOn_agenda, he]

/-! Device memory (R420, R424). -/

section
variable {s : State} {port : PortId} (hs : s.serving port.mod = true) (hu : (s.port port.mod port.port).up = true)
include hs hu

theorem hdmAccess_window {hpa n part va : Nat} (ok : Nat → Nat → Host.Outcome State Fault Refusal)
    (hw : (s.port port.mod port.port).window hpa n = some (part, va)) : hdmAccess port hpa n s ok = ok part va := by
  simp [hdmAccess, hs, hu, hw]

theorem hdmAccess_noWindow {hpa n : Nat} (ok : Nat → Nat → Host.Outcome State Fault Refusal)
    (hw : (s.port port.mod port.port).window hpa n = none) : hdmAccess port hpa n s ok = .next s := by
  simp [hdmAccess, hs, hu, hw]

theorem hostRead_fault {u : State} {hpa len part va c : Nat} (hw : (s.port port.mod port.port).window hpa len = some (part, va))
    (hx : s.hdmXlate (portSite port.mod port.port) part va len .read = (u, .inr c)) (hc : c ≠ fWAIT) :
    Completes (exec (.hostRead port hpa len) s) fun w =>
      (w.module port.mod).hdmData = List.replicate len 0 ∧ (w.module port.mod).hdmPoison = true := by
  simp only [exec_hostRead, execHostRead, hdmAccess_window hs hu _ hw, hx, if_neg hc]
  exact ⟨_, rfl, by simp⟩

theorem hostRead_served {u : State} {hpa len part va : Nat} {as : List Nat}
    (hw : (s.port port.mod port.port).window hpa len = some (part, va))
    (hx : s.hdmXlate (portSite port.mod port.port) part va len .read = (u, .inl as)) (hl : u.tileLocked as = false)
    (hb : ∀ h ∈ (State.halvesOf as).filter fun h => h < 2 ^ 39, Sparse.find (u.site (paSite (h * 64))).bisnp h = none)
    (ho : u.hdmOldest ((State.halvesOf as).filter fun h => h < 2 ^ 39) = none) :
    Completes (exec (.hostRead port hpa len) s) fun w => (w.module port.mod).hdmData = as.map (Mem.read u.mem)
      ∧ (w.module port.mod).hdmPoison = (u.poisonedByte as).isSome ∧ w.mem = u.mem := by
  have hf : ((State.halvesOf as).filter fun h => h < 2 ^ 39).find? (fun h => (Sparse.find (u.site (paSite (h * 64))).bisnp h).isSome)
      = none := List.find?_eq_none.2 fun h hh => by simp [hb h hh]
  simp only [exec_hostRead, execHostRead, hdmAccess_window hs hu _ hw, hx, hl, hf, ho]
  refine ⟨_, rfl, ?_, ?_, ?_⟩
  · simp [State.readMem, Mem.readAll, State.hdmTrack_fold_mem]
  · simp
  · simp [State.hdmTrack_fold_mem]

theorem hostWrite_paused {hpa part va : Nat} {data : List Byte}
    (hw : (s.port port.mod port.port).window hpa data.length = some (part, va)) (hp : s.paused port.mod = true) :
    exec (.hostWrite port hpa data) s = .next (s.mapModule port.mod fun m =>
      { m with ck := { m.ck with stalled := m.ck.stalled ++ [.hostWrite port hpa data] } }) := by
  simp only [exec_hostWrite, execHostWrite, hdmAccess_window hs hu _ hw, hp, if_true]

theorem hostWrite_performed {u : State} {hpa part va : Nat} {data : List Byte} {as : List Nat}
    (hw : (s.port port.mod port.port).window hpa data.length = some (part, va)) (hp : s.paused port.mod = false)
    (hx : s.hdmXlate (portSite port.mod port.port) part va data.length .write = (u, .inl as)) (hl : u.tileLocked as = false) :
    exec (.hostWrite port hpa data) s = .next (u.performWrite (as.zip data) []) := by
  simp [exec_hostWrite, execHostWrite, hdmAccess_window hs hu _ hw, hp, hx, hl]

end

/-! Ports (R414, R415). -/

/-- A port is lost beside another that is up: no access fails, and a checkpoint runs on (R414, R426). -/
theorem portLost_other (s : State) (mod port : Nat) (hu : (s.port mod port).up = true)
    (hc : port ≠ 0 ∨ (s.module mod).ck.busy = false)
    (ha : ((s.mapPort mod port fun p => { p with up := false, spdm := 0 }).anyPort mod).isSome = true) :
    exec (.portLost mod port) s = .next (s.mapPort mod port fun p => { p with up := false, spdm := 0 }) := by
  have hck : ¬(port = 0 ∧ (s.module mod).ck.busy = true) := by
    rintro ⟨hp, hb⟩
    exact hc.elim (· hp) fun h => by simp [h] at hb
  simp only [exec_portLost, execPortLost, hu, State.module_mapPort_ck, if_neg hck, ha]; rfl

theorem portLinkUp_trained (s : State) (mod port width rate major minor : Nat) (features : List PortFeature) (hp : port < 8)
    (hw : width = 4 ∨ width = 8 ∨ width = 16) (hr : rate = 16 ∨ rate = 32 ∨ rate = 64) (hm : (s.module mod).powered = true)
    (hv : major < 3 ∨ (major = 3 ∧ minor ≤ 2)) (hf : .standardFlit ∈ features ∨ .latencyFlit ∈ features)
    (hd : .cxlIo ∈ features ∧ .cxlCache ∈ features ∧ .cxlMem ∈ features) :
    exec (.portLinkUp ⟨mod, port⟩ width rate major minor features) s = .next (s.mapPort mod port fun p =>
      { p with up := true, width, rate, cxlMajor := major, cxlMinor := minor, features := portFeatures.filter features.contains }) := by
  simp [exec_portLinkUp, execPortLinkUp, hp, hw, hr, hm, hv, hf, hd, portFeatures]

end Sys2Proof.Machine
end

section
/-!
SUPPORT. Checkpoints and restores (R422 to R426): what an image holds, and how each operation ends.
-/
namespace Sys2Proof.Machine

/-! Checkpoint images (R423, R425). -/

theorem CkImage.over_valid (new old : CkImage) : (new.over old).valid = new.valid := by
  unfold CkImage.over; split <;> rfl
theorem CkImage.over_full {new : CkImage} (old : CkImage) (h : new.frames = none) : new.over old = new := by
  simp [CkImage.over, h]
theorem CkImage.mem_over {new : CkImage} (old : CkImage) {c : Nat × Byte} (h : c ∈ new.mem) : c ∈ (new.over old).mem := by
  unfold CkImage.over; split
  · exact h
  · exact List.mem_append_right _ h

theorem mem_insertNat {l : List Nat} {k n : Nat} : n ∈ insertNat l k ↔ n = k ∨ n ∈ l := by
  induction l with
  | nil => simp [insertNat]
  | cons j t ih =>
    unfold insertNat
    split
    · simp
    · split
      case isTrue h => simp [h]
      case isFalse => simp [ih, or_left_comm]

theorem mem_foldl_insertNat {l acc : List Nat} {n : Nat} : n ∈ l.foldl insertNat acc ↔ n ∈ l ∨ n ∈ acc := by
  induction l generalizing acc with
  | nil => simp
  | cons k l ih => simp [ih, mem_insertNat, or_left_comm, or_assoc]

namespace State

@[simp] theorem writeBackAll_mods (s : State) (mod : Nat) : (s.writeBackAll mod).mods = s.mods := rfl
theorem returnHalves_mods (s : State) (mod : Nat) : (s.returnHalves mod).mods = s.mods := by
  refine foldl_keeps State.mods _ (fun s i => ?_) _ _
  exact foldl_keeps State.mods _ (fun s p => by rw [dropSiteLine_mods, mapSite_mods]) _ _

/-- The image that a checkpoint saves is valid, and holds every byte of the module in the frames it names, or in every frame. -/
theorem ckSave_image (s : State) (mod : Nat) (frames : Option (List Nat)) :
    ∃ i, Sparse.find (s.ckSave mod frames).ckImages (ckKey mod (s.module mod).ck.base) = some i ∧ i.valid = true
      ∧ (frames = none → i.frames = none)
      ∧ ∀ c ∈ s.mem, c.1 < 2 ^ 45 → c.1 / 2 ^ 42 = mod → (∀ fs, frames = some fs → c.1 / 65536 ∈ fs) → c ∈ i.mem := by
  unfold ckSave
  extract_lets mine parts ours teams img img'
  have written : img' = img ∨ ∃ old, img' = img.over old := by
    simp only [img']; split
    · exact .inr ⟨_, rfl⟩
    · exact .inl rfl
  have valid : img'.valid = true := by
    obtain e | ⟨old, e⟩ := written
    · rw [e]
    · rw [e, CkImage.over_valid]
  have full (h : frames = none) : img'.frames = none := by
    obtain e | ⟨old, e⟩ := written
    · rw [e]; exact h
    · rw [e, CkImage.over_full old h]; exact h
  have holds (c) (h : c ∈ img.mem) : c ∈ img'.mem := by
    obtain e | ⟨old, e⟩ := written
    · rwa [e]
    · rw [e]; exact CkImage.mem_over old h
  refine ⟨img', Sparse.find_set_same _ _ _, valid, full, fun c hc hlt hmod hin => holds c ?_⟩
  have hmine : mine c.1 = true := by cases frames <;> simp_all [mine]
  exact List.mem_filter.2 ⟨hc, by simp [hmine]⟩

/-- A checkpoint that ends: BUSY falls, CODE tells the result, and the host's stalled writes go on (R422, R424). -/
theorem ckEnd_ends (s : State) (mod code : Nat) : ((s.ckEnd mod code).module mod).ck.busy = false
    ∧ ((s.ckEnd mod code).module mod).ck.code = code ∧ ((s.ckEnd mod code).module mod).ck.stalled = []
    ∧ ∀ e ∈ (s.module mod).ck.stalled, e ∈ (s.ckEnd mod code).agenda := by
  unfold ckEnd
  extract_lets stalled s₁ now s₂ s₃ s₄ s₅
  have h4 : s₄.mods = s₃.mods := foldl_keeps State.mods _ (fun _ _ => pushOnce_mods _ _) _ _
  have h5 : s₅.mods = s₄.mods := foldl_keeps State.mods _ (fun s i => by split <;> simp) _ _
  have hck : ((s₅.pushAll stalled).module mod).ck = (s₃.module mod).ck := by
    rw [module_of_mods (pushAll_mods _ _), module_of_mods h5, module_of_mods h4]
  rw [hck]
  have h3 : (s₃.module mod).ck = (s₂.module mod).ck := module_mapPort_ck _ _ _ _
  simp only [h3, s₂, module_mapCk]
  exact ⟨trivial, trivial, trivial, fun e he => List.mem_append_right _ he⟩

/-! The phases of a checkpoint (R423). -/

/-- A checkpoint whose teams still stand: those that have not begun to quiesce begin, and are noted (R423). -/
def ckQuiesce (s : State) (mod : Nat) : State :=
  let new := (s.ckTeams mod).filter fun u => (Sparse.find s.teams u).any fun t =>
    (t.state == .placed || t.state == .replay) && !t.frozen
  (new.foldl (fun s u => s.beginQuiesce u) s).mapCk mod fun c => { c with quiesced := c.quiesced ++ new }

/-- The dirty leaves of a module's partitions, each with its partition (R423). -/
def ckDirty (w : State) (mod : Nat) : List (Nat × Nat × Word × Nat × Nat) :=
  (w.partsOf mod).flatMap fun n => (w.dirtyLeaves n).map fun d => (n, d)

/-- The bytes of the entries of the dirty leaves. -/
def ckEntries (w : State) (mod : Nat) : List Nat := (w.ckDirty mod).flatMap fun d => addrRange d.2.1 8

/-- The frames of the dirty leaves' pages, as a set. -/
def ckFrames (w : State) (mod : Nat) : List Nat :=
  ((w.ckDirty mod).flatMap fun d => w.pageFrames d.1 d.2.2.1 d.2.2.2.1 d.2.2.2.2).foldl insertNat []

/-- The frames of the dirty leaves saved, their D bits cleared, and every translation of the partitions forgotten (R423). -/
def ckCleaned (w : State) (mod : Nat) : State :=
  let u := (w.ckDirty mod).foldl (fun s d =>
    s.performWrite ((addrRange d.2.1 8).zip (bytesOf 8 (d.2.2.1 &&& ~~~0x100#64).toNat)) []) (w.ckSave mod (some (w.ckFrames mod)))
  (u.partsOf mod).foldl (fun s n => s.forgetXlate n) u

theorem ckEntries_eq (w : State) (mod : Nat) :
    w.ckEntries mod = (w.partsOf mod).flatMap fun n => (w.dirtyLeaves n).flatMap fun d => addrRange d.1 8 := by
  simp only [ckEntries, ckDirty, List.flatMap_assoc, List.flatMap_map]

theorem mem_ckFrames (w : State) (mod n : Nat) : n ∈ w.ckFrames mod ↔
    n ∈ (w.partsOf mod).flatMap fun n => (w.dirtyLeaves n).flatMap fun d => w.pageFrames n d.2.1 d.2.2.1 d.2.2.2 := by
  simp only [ckFrames, ckDirty, mem_foldl_insertNat, List.flatMap_assoc, List.flatMap_map, List.not_mem_nil, or_false]

theorem ckCleaned_ckImages (w : State) (mod : Nat) :
    (w.ckCleaned mod).ckImages = (w.ckSave mod (some (w.ckFrames mod))).ckImages := by
  unfold ckCleaned
  rw [foldl_keeps State.ckImages _ (fun _ _ => forgetXlate_ckImages _ _),
    foldl_keeps State.ckImages _ (fun _ _ => performWrite_ckImages _ _ _ _)]

@[simp] theorem ckStreamed_ckImages (s : State) (mod : Nat) : (s.ckStreamed mod).ckImages = s.ckImages := rfl
theorem ckStreamed_done (s : State) (mod : Nat) : ((s.ckStreamed mod).module mod).ck.done = true := by simp [ckStreamed]
theorem mem_ckStreamed_agenda (s : State) (mod : Nat) : Event.checkpointComplete mod ∈ (s.ckStreamed mod).agenda := by
  simp [ckStreamed, push]

/-- What a checkpoint begins to stream from: the state with everything dirty written back (R423). -/
theorem module_written (s : State) (mod : Nat) : ((s.writeBackAll mod).returnHalves mod).module mod = s.module mod :=
  module_of_mods ((returnHalves_mods _ _).trans (writeBackAll_mods _ _)) _

end State

section
variable {s : State} {mod : Nat} (hb : (s.module mod).ck.busy = true) (hd : (s.module mod).ck.done = false)
include hb hd

theorem ckPhases_written {op : Nat} (ho : (s.module mod).ck.op = op) (ht : s.ckTeams mod = [])
    (rest : State → Host.Outcome State Fault Refusal) :
    ckPhases mod op s rest = rest ((s.writeBackAll mod).returnHalves mod) := by simp [ckPhases, hb, hd, ho, ht]

theorem ckPhases_quiesce {op : Nat} (ho : (s.module mod).ck.op = op) (ht : s.ckTeams mod ≠ [])
    (rest : State → Host.Outcome State Fault Refusal) : ckPhases mod op s rest = .next (s.ckQuiesce mod) := by
  obtain ⟨t, ts, e⟩ := List.exists_cons_of_ne_nil ht
  simp [ckPhases, hb, hd, ho, e, State.ckQuiesce]

theorem checkpointFull_quiesces (ho : (s.module mod).ck.op = 0) (ht : s.ckTeams mod ≠ []) :
    exec (.checkpointFull mod) s = .next (s.ckQuiesce mod) := by
  rw [exec_checkpointFull, execCheckpointFull, ckPhases_quiesce hb hd ho ht]

theorem checkpointIncr_quiesces (ho : (s.module mod).ck.op = 1) (ht : s.ckTeams mod ≠ []) :
    exec (.checkpointIncr mod) s = .next (s.ckQuiesce mod) := by
  rw [exec_checkpointIncr, execCheckpointIncr, ckPhases_quiesce hb hd ho ht]

theorem checkpointFull_streams (ho : (s.module mod).ck.op = 0) (ht : s.ckTeams mod = []) :
    exec (.checkpointFull mod) s = .next ((((s.writeBackAll mod).returnHalves mod).ckSave mod none).ckStreamed mod) := by
  rw [exec_checkpointFull, execCheckpointFull, ckPhases_written hb hd ho ht]

theorem checkpointIncr_streams (ho : (s.module mod).ck.op = 1) (ht : s.ckTeams mod = []) (w : State)
    (hw : (s.writeBackAll mod).returnHalves mod = w) (hl : w.tileLocked (w.ckEntries mod) = false)
    (hh : w.hostAsk (mod * 24) (w.ckEntries mod) true (some (.checkpointIncr mod)) = none) :
    exec (.checkpointIncr mod) s = .next ((w.ckCleaned mod).ckStreamed mod) := by
  rw [exec_checkpointIncr, execCheckpointIncr, ckPhases_written hb hd ho ht, hw]
  extract_lets dirty entries frames saved cleaned
  have he : entries = w.ckEntries mod := rfl
  rw [he, if_neg (Bool.not_eq_true _ ▸ hl), State.hostHold, hh]
  rfl

/-- A full checkpoint saves every byte of the module (R423). -/
theorem checkpointFull_saved (ho : (s.module mod).ck.op = 0) (ht : s.ckTeams mod = []) :
    Completes (exec (.checkpointFull mod) s) fun u => (u.module mod).ck.done = true ∧ Event.checkpointComplete mod ∈ u.agenda
      ∧ ∃ i, Sparse.find u.ckImages (ckKey mod (s.module mod).ck.base) = some i ∧ i.valid = true ∧ i.frames = none
        ∧ ∀ c ∈ ((s.writeBackAll mod).returnHalves mod).mem, c.1 < 2 ^ 45 → c.1 / 2 ^ 42 = mod → c ∈ i.mem := by
  rw [checkpointFull_streams hb hd ho ht, ← s.module_written mod]
  generalize (s.writeBackAll mod).returnHalves mod = w
  obtain ⟨i, hi, hv, hf, hm⟩ := w.ckSave_image mod none
  exact ⟨_, rfl, State.ckStreamed_done _ _, State.mem_ckStreamed_agenda _ _, i, hi, hv, hf rfl,
    fun c hc hlt hmod => hm c hc hlt hmod (by simp)⟩

/-- An incremental one saves every byte of the frames that back dirty pages (R423). -/
theorem checkpointIncr_saved (ho : (s.module mod).ck.op = 1) (ht : s.ckTeams mod = []) (w : State)
    (hw : (s.writeBackAll mod).returnHalves mod = w) (hl : w.tileLocked (w.ckEntries mod) = false)
    (hh : w.hostAsk (mod * 24) (w.ckEntries mod) true (some (.checkpointIncr mod)) = none) :
    Completes (exec (.checkpointIncr mod) s) fun u => (u.module mod).ck.done = true ∧ Event.checkpointComplete mod ∈ u.agenda
      ∧ ∃ i, Sparse.find u.ckImages (ckKey mod (s.module mod).ck.base) = some i ∧ i.valid = true
        ∧ ∀ c ∈ w.mem, c.1 < 2 ^ 45 → c.1 / 2 ^ 42 = mod → c.1 / 65536 ∈ w.ckFrames mod → c ∈ i.mem := by
  rw [checkpointIncr_streams hb hd ho ht w hw hl hh, ← s.module_written mod, hw]
  obtain ⟨i, hi, hv, -, hm⟩ := w.ckSave_image mod (some (w.ckFrames mod))
  rw [← w.ckCleaned_ckImages mod] at hi
  exact ⟨_, rfl, State.ckStreamed_done _ _, State.mem_ckStreamed_agenda _ _, i, hi, hv,
    fun c hc hlt hmod hin => hm c hc hlt hmod (by simpa using hin)⟩

theorem checkpointTimeout_ends (ho : (s.module mod).ck.op < 2) (ht : s.ckTeams mod ≠ [])
    (hf : (s.module mod).ck.start + 2 ^ 27 ≤ (s.site (mod * 24)).fab) :
    exec (.checkpointTimeout mod) s = .next (s.ckEnd mod 1) := by
  simp only [exec_checkpointTimeout, execCheckpointTimeout]
  refine if_neg ?_
  simp only [hb, hd, ht, Nat.not_le.2 ho, Nat.not_lt.2 hf, List.isEmpty_iff, decide_false, Bool.or_eq_true]
  decide

/-- A restore of the image in the window, if any, that fits the module; it answers NOIMAGE otherwise (R425). -/
theorem restore_image (ho : (s.module mod).ck.op = 2) (img : CkImage)
    (hi : Sparse.find s.ckImages (ckKey mod (s.module mod).ck.base) = some img) :
    exec (.restore mod) s =
      if s.ckFits mod img then
        .next (((s.ckLoad mod img).mapCk mod fun c => { c with done := true, result := 0 }).push (.checkpointComplete mod))
      else .next ((s.mapCk mod fun c => { c with done := true, result := 3 }).push (.checkpointComplete mod)) := by
  simp [exec_restore, execRestore, hb, hd, ho, hi]

theorem restore_noImage (ho : (s.module mod).ck.op = 2)
    (hi : Sparse.find s.ckImages (ckKey mod (s.module mod).ck.base) = none) :
    exec (.restore mod) s = .next ((s.mapCk mod fun c => { c with done := true, result := 3 }).push (.checkpointComplete mod)) := by
  simp [exec_restore, execRestore, hb, hd, ho, hi]

end

theorem checkpointComplete_ends (s : State) (mod : Nat) (hb : (s.module mod).ck.busy = true) (hd : (s.module mod).ck.done = true) :
    Completes (exec (.checkpointComplete mod) s) fun u => (u.module mod).ck.busy = false
      ∧ (u.module mod).ck.code = (if (s.module mod).ck.media then 2 else (s.module mod).ck.result)
      ∧ (u.module mod).ck.stalled = [] ∧ ∀ e ∈ (s.module mod).ck.stalled, e ∈ u.agenda := by
  have ends : ∃ t : State, t.mods = s.mods ∧ exec (.checkpointComplete mod) s =
      .next (t.ckEnd mod (if (s.module mod).ck.media then 2 else (s.module mod).ck.result)) := by
    cases hm : (s.module mod).ck.media
    · exact ⟨s, rfl, by simp [exec_checkpointComplete, execCheckpointComplete, hb, hd, hm]⟩
    · simp only [exec_checkpointComplete, execCheckpointComplete, hb, hd, hm]
      refine ⟨_, ?_, rfl⟩
      split
      · split <;> rfl
      · rfl
  obtain ⟨t, ht, e⟩ := ends
  rw [e, ← State.module_of_mods ht]
  exact ⟨_, rfl, t.ckEnd_ends mod _⟩

end Sys2Proof.Machine
end

section
/-!
CERTIFICATE. The host's accesses, checkpoints and restores.
-/
namespace Sys2Proof.Machine

/-- Settles O53: each clause by the law of its operation. The three snoops are one law at three bounds, the read-only offsets one
law of the register block, and a checkpoint's image is what `ckSave` leaves, since no later write of it touches the images. -/
theorem hostSteps : Obligations.HostSteps := by
  unfold Obligations.HostSteps
  refine ⟨fun s u mod port site half want st i part va hpa len kind width rate major minor v data as features => ?_,
    fun s mod img => ?_⟩
  · intro p writes low snooped nothing decodes frm hs
    have snoops (ins keep) (h : exec ins s = .next (s.snoop site half keep)) : snooped ins keep :=
      ⟨_, h, s.halfState_snoop site half keep, s.snoop_sameStorage site half keep, s.snoopData_snoop site half keep⟩
    refine ⟨fun hm hu => ?_, snoops _ 0 exec_snpinv, snoops _ 1 exec_snpdata, snoops _ 3 exec_snpcur,
      hostCacheGrant_granted s site half want st data, bisnpResponse_clean s site half kind,
      fun hm hu => ⟨?_, ?_, ?_⟩, portLost_other s mod port, portLinkUp_trained s mod port width rate major minor features⟩
    · have ignored := registerWrite_readOnly v hm hu
      refine ⟨registerWrite_go_idle v hm hu, registerWrite_go_busy v hm hu, registerWrite_site v hm hu, registerWrite_nstat v hm hu,
        ?_, fun hp => ⟨ignored _ (by omega) (by omega), ignored _ (by omega) (by omega)⟩, ?_,
        registerWrite_postrec v hm hu i, registerWrite_capset v hm hu i,
        ignored _ (by omega) (by omega), ignored _ (by omega) (by omega), ignored _ (by omega) (by omega),
        fun hi => ignored _ (by omega) (by omega), registerWrite_msix v hm hu, ?_, ?_, ?_⟩
      · rintro rfl; exact registerWrite_ckctl v hm hu
      · rintro rfl; exact registerWrite_ckbase v hm hu
      · exact fun hi => registerWrite_decoder v hm hu i 0 _ fun p mine => p.configure_base mine v i hi
      · exact fun hi => registerWrite_decoder v hm hu i 8 _ fun p mine => p.configure_size mine v i hi
      · exact fun hi => registerWrite_decoder v hm hu i 24 _ fun p mine => p.configure_part mine v i hi
    · intro hw
      rw [exec_hostRead, execHostRead, hdmAccess_noWindow hm hu _ hw]
    · exact fun hw => ⟨fun c hx hc => hostRead_fault hm hu hw hx hc,
        fun hx hl hb ho => hostRead_served hm hu hw hx hl hb ho⟩
    · exact fun hw => ⟨fun hp => hostWrite_paused hm hu hw hp,
        fun hp hx hl => hostWrite_performed hm hu hw hp hx hl⟩
  · intro c key saved new quiesced w entries frames holds restored
    refine ⟨fun hb hd => ⟨fun ho ht => ?_, fun ho ht hl hh => ?_,
      fun ht => ⟨fun ho => checkpointFull_quiesces hb hd ho ht, fun ho => checkpointIncr_quiesces hb hd ho ht,
        fun ho hf => checkpointTimeout_ends hb hd ho ht hf⟩,
      fun ho hi => restore_image hb hd ho img hi, restore_noImage hb hd⟩, checkpointComplete_ends s mod⟩
    · obtain ⟨u, hu, hdone, hpush, i, hi, hv, hf, hm⟩ := checkpointFull_saved hb hd ho ht
      exact ⟨u, hu, hdone, hpush, i, hi, hv, hf, fun c hc hlt hmod _ => hm c hc hlt hmod⟩
    · have he : entries = w.ckEntries mod := (w.ckEntries_eq mod).symm
      rw [he] at hl hh
      obtain ⟨u, hu, hdone, hpush, i, hi, hv, hm⟩ := checkpointIncr_saved hb hd ho ht w rfl hl hh
      exact ⟨u, hu, hdone, hpush, i, hi, hv, fun c hc hlt hmod hin => hm c hc hlt hmod ((w.mem_ckFrames mod _).2 hin)⟩

end Sys2Proof.Machine
end

section
/-!
SUPPORT. One step of the machine (R12, R43, R113, R166, R178, R180, R380): when it takes a step of the agenda and when a
core's turn, and what issues in that turn.
-/
namespace Sys2Proof.Machine

/-! The agenda and the turn (R113). -/

theorem step_of_nextEvent {s : State} {e : Event} (h : s.between = true ∨ s.inService = false) (he : s.nextEvent = some e) :
    step s = runEvent e { s with agenda := s.agenda.erase e } := by
  have hc : (s.between || !s.inService) = true := by simpa using h
  simp [step, hc, he]

theorem step_stopped {s : State} (he : s.nextEvent = none) (h : s.inService = false) : step s = .fault .stopped := by
  simp [step, he, h]

theorem step_of_turn {s : State} (h : s.between = true → s.nextEvent = none) (hs : s.inService = true) :
    step s = coreTurn s.cur s := by
  cases hb : s.between
  · simp [step, hb, hs]
  · simp [step, hb, hs, h hb]

/-- No context of a list takes BUDGET: its core is frozen, it is halted, it is not at a boundary, or its count is within its
budget (R43). -/
theorem takeBudgets_within {s : State} {k : Nat} {l : List Nat}
    (h : ∀ y ∈ l, (s.core k).frozen = true ∨ (s.ctxAt k y).halted = true ∨ atBoundary (s.ctxAt k y) = false
      ∨ (s.ctxAt k y).budget ≤ (s.imageAt k).budget) : takeBudgets k l s = .next s := by
  induction l with
  | nil => rfl
  | cons x l ih =>
    have hx := h x List.mem_cons_self
    rw [takeBudgets, if_pos (by simpa [or_assoc] using hx), ih fun y hy => h y (List.mem_cons_of_mem _ hy)]

/-- A turn in which no budget is exceeded is what both slots do in the cycle that begins, and the cycle's end (R43, R380). -/
theorem step_of_coreSlots {s t : State} (h : s.between = true → s.nextEvent = none) (hs : s.inService = true)
    (hb : ∀ y, y < 8 → (s.core s.cur).frozen = true ∨ (s.ctxAt s.cur y).halted = true ∨ atBoundary (s.ctxAt s.cur y) = false
      ∨ (s.ctxAt s.cur y).budget ≤ (s.imageAt s.cur).budget)
    (ht : coreSlots s.cur (s.beginCycle s.cur) = .next t) : step s = .next (t.endCycle s.cur) := by
  have within : takeBudgets s.cur (List.range 8) s = .next s :=
    takeBudgets_within fun y hy => hb y (List.mem_range.1 hy)
  rw [step_of_turn h hs, coreTurn, within, andThen, ht, andThen]

/-! What the issuing context runs (R166, R176). -/

theorem runNext_decoded {u : State} {w : BitVec 32} {i : Instr} (hw : u.nextWord = some w) (hi : decode w = some i) :
    runNext u = exec i u.fetch := by simp [runNext, hw, hi]
theorem runNext_illegal {u : State} {w : BitVec 32} (hw : u.nextWord = some w) (hi : decode w = none) :
    runNext u = trapped u.fetch cILLEGAL 0 := by simp [runNext, hw, hi, trap, trapped]
theorem runNext_outside {u : State} (hw : u.nextWord = none) :
    runNext u = trapped u cCAP (State.instrPc u.task) := by simp [runNext, hw, trap, trapped]

/-! The issue slot (R380). -/

theorem issueSlot_skips {s : State} {k unit : Nat} {before : List Nat} (rest : List Nat)
    (h : ∀ y ∈ before, ready (s.core k) (s.ctxAt k y) = false) :
    issueSlot k unit (before ++ rest) s = issueSlot k unit rest s := by
  induction before with
  | nil => rfl
  | cons x l ih =>
    have hx := h x List.mem_cons_self
    rw [List.cons_append, issueSlot, if_pos (by simp [hx]), ih fun y hy => h y (List.mem_cons_of_mem _ hy)]

theorem issueSlot_issues {b t : State} {k x : Nat} {after : List Nat} (hr : ready (b.core k) (b.ctxAt k x) = true)
    (hf : State.runningFrame (b.ctxAt k x) = none) (hi : issueFrom k x b = .next t) (ht : t.stalled = false) :
    issueSlot k 0 (x :: after) b = .next (t.issued k x) := by
  simp [issueSlot, hr, hf, hi, andThen, ht]

theorem lt_of_mem_slotOrder {p y : Nat} (h : y ∈ slotOrder p) : y < 8 := by
  obtain ⟨i, -, rfl⟩ := List.mem_map.1 h
  exact Nat.mod_lt _ (by decide)

theorem State.stepped_of_not_stepping {s : State} {k x : Nat} (h : (s.ctxAt k x).stepping = false) : s.stepped k x = s := by
  simp [stepped, h]

/-! Both slots of a cycle (R12, R178, R380). -/

/-- The slots of a core that issues in this cycle: the sequencer's, then the issue slot, for the contexts without the frame. -/
theorem coreSlots_of_mayIssue {s : State} {k : Nat} (hm : s.mayIssue k = true) :
    coreSlots k s = sequencerSlot k s fun unit t =>
      issueSlot k unit ((slotOrder (s.core k).ptr).filter fun x => framed (s.core k) != some x) t := by
  rw [coreSlots, hm]; rfl

theorem sequencerSlot_unframed {s : State} {k : Nat} (hn : framed (s.core k) = none)
    (ok : Nat → State → Host.Outcome State Fault Refusal) : sequencerSlot k s ok = ok 0 s := by
  simp only [sequencerSlot, hn]

theorem sequencerSlot_issues {b t : State} {k x : Nat} (hn : framed (b.core k) = some x) (hh : (b.ctxAt k x).hold = none)
    (hr : ready (b.core k) (b.ctxAt k x) = true) (hi : issueFrom k x b = .next t) (ht : t.stalled = false)
    (ok : Nat → State → Host.Outcome State Fault Refusal) : ∃ unit, sequencerSlot k b ok = ok unit (t.stepped k x) := by
  simp only [sequencerSlot, hn, hh, hr, hi, andThen, ht, Option.isSome_none, Bool.not_true, Bool.false_eq_true, if_false]
  exact ⟨_, rfl⟩

/-- No frame runs: the first ready context in pointer order issues, and the pointer moves past it. -/
theorem coreSlots_issue {b t : State} {k x : Nat} {before after : List Nat} (hm : b.mayIssue k = true)
    (hn : framed (b.core k) = none) (ho : slotOrder (b.core k).ptr = before ++ x :: after)
    (hbefore : ∀ y ∈ before, ready (b.core k) (b.ctxAt k y) = false) (hr : ready (b.core k) (b.ctxAt k x) = true)
    (hf : State.runningFrame (b.ctxAt k x) = none) (hi : issueFrom k x b = .next t) (ht : t.stalled = false) :
    coreSlots k b = .next (t.issued k x) := by
  have all : (slotOrder (b.core k).ptr).filter (fun y => framed (b.core k) != some y) = before ++ x :: after := by
    rw [hn, ← ho]; exact List.filter_eq_self.2 fun _ _ => rfl
  rw [coreSlots_of_mayIssue hm, sequencerSlot_unframed hn, all, issueSlot_skips _ hbefore, issueSlot_issues hr hf hi ht]

/-- A frame runs and nobody else is ready after its instruction: the sequencer's slot is all that issues. -/
theorem coreSlots_frame {b t : State} {k x : Nat} (hm : b.mayIssue k = true) (hn : framed (b.core k) = some x)
    (hh : (b.ctxAt k x).hold = none) (hr : ready (b.core k) (b.ctxAt k x) = true) (hi : issueFrom k x b = .next t)
    (ht : t.stalled = false) (hs : (t.ctxAt k x).stepping = false)
    (hidle : ∀ y, y < 8 → y ≠ x → ready (t.core k) (t.ctxAt k y) = false) : coreSlots k b = .next t := by
  have others : ∀ y ∈ (slotOrder (b.core k).ptr).filter (fun y => framed (b.core k) != some y),
      ready (t.core k) (t.ctxAt k y) = false := by
    intro y hy
    obtain ⟨hy, hx⟩ := List.mem_filter.1 hy
    exact hidle y (lt_of_mem_slotOrder hy) fun e => by simp [hn, e] at hx
  obtain ⟨unit, h⟩ := sequencerSlot_issues hn hh hr hi ht fun unit u =>
    issueSlot k unit ((slotOrder (b.core k).ptr).filter fun y => framed (b.core k) != some y) u
  rw [coreSlots_of_mayIssue hm, h, State.stepped_of_not_stepping hs]
  simpa [issueSlot] using issueSlot_skips (unit := unit) [] others

end Sys2Proof.Machine
end

section
/-!
CERTIFICATE. One step of the machine.
-/
namespace Sys2Proof.Machine

/-- Settles O60: a step is the agenda's or a core's turn; the turn is what its two slots do, and what the slot's context issues
is `runNext`, by the word it is at. -/
theorem stepRuns : Obligations.StepRuns := by
  unfold Obligations.StepRuns
  intro s t e x before after w i k b u turn budgets
  refine ⟨step_of_nextEvent, step_stopped, fun hturn hbudgets hm hr ht => ?_⟩
  obtain ⟨hagenda, hservice⟩ := hturn
  have ends {t' : State} (h : coreSlots k b = .next t') : step s = .next (t'.endCycle k) :=
    step_of_coreSlots hagenda hservice hbudgets h
  refine ⟨fun hn hf ho hbefore => ?_, fun hn hh hs hidle hw hi he => ?_⟩
  · have issues (h : runNext u = .next t) : step s = .next ((t.issued k x).endCycle k) :=
      ends (coreSlots_issue hm hn ho hbefore hr hf h ht)
    exact ⟨fun hw hi he => issues ((runNext_decoded hw hi).trans he), fun hw hi he => issues ((runNext_illegal hw hi).trans he),
      fun hw he => issues ((runNext_outside hw).trans he)⟩
  · exact ends (coreSlots_frame hm hn hh hr ((runNext_decoded hw hi).trans he) ht hs hidle)

end Sys2Proof.Machine
end

section
/-!
SUPPORT. What the fabric's operations, the answers to requests and the settling of a refusal change: each leaves the rest of the
machine as it is (R25 to R27, R324 to R327).
-/
namespace Sys2Proof.Machine

/-- What a reflexive and transitive relation holds of each step of a fold, it holds of the fold. -/
theorem foldl_rel {α σ : Type} {R : σ → σ → Prop} (refl : ∀ s, R s s) (trans : ∀ {s t u}, R s t → R t u → R s u)
    {f : σ → α → σ} (h : ∀ s a, R s (f s a)) (l : List α) (s : σ) : R s (l.foldl f s) := by
  induction l generalizing s with
  | nil => exact refl s
  | cons a l ih => exact trans (h s a) (ih _)

namespace State

/-! Sites and agenda only. -/

/-- `t` is `s` but for its sites and its agenda. -/
def FabricOnly (s t : State) : Prop := ∃ sites agenda, t = { s with sites, agenda }

namespace FabricOnly
variable {s t u : State}

theorem refl (s : State) : FabricOnly s s := ⟨_, _, rfl⟩
theorem trans (h : FabricOnly s t) (g : FabricOnly t u) : FabricOnly s u := by
  obtain ⟨_, _, rfl⟩ := h; obtain ⟨_, _, rfl⟩ := g; exact ⟨_, _, rfl⟩
theorem foldl {α : Type} {f : State → α → State} (h : ∀ s a, FabricOnly s (f s a)) (l : List α) (s : State) :
    FabricOnly s (l.foldl f s) := foldl_rel refl trans h l s

theorem core (h : FabricOnly s t) (k : Nat) : t.core k = s.core k := by obtain ⟨_, _, rfl⟩ := h; rfl
theorem teams (h : FabricOnly s t) : t.teams = s.teams := by obtain ⟨_, _, rfl⟩ := h; rfl
theorem sameStorage (h : FabricOnly s t) : SameStorage s t := by obtain ⟨_, _, rfl⟩ := h; exact ⟨fun _ => rfl, rfl, rfl⟩

end FabricOnly

theorem push_fabric (s : State) (e : Event) : FabricOnly s (s.push e) := ⟨_, _, rfl⟩
theorem pushOnce_fabric (s : State) (e : Event) : FabricOnly s (s.pushOnce e) := by
  unfold pushOnce; split
  · exact .refl s
  · exact s.push_fabric e
theorem pushAll_fabric (s : State) (es : List Event) : FabricOnly s (s.pushAll es) := ⟨_, _, rfl⟩
theorem mapSite_fabric (s : State) (n : Nat) (f : Site → Site) : FabricOnly s (s.mapSite n f) := ⟨_, _, rfl⟩
theorem leave_fabric (s : State) (src : Nat) (fs : List Flit) : FabricOnly s (s.leave src fs) :=
  (s.mapSite_fabric _ _).trans (pushOnce_fabric _ _)
theorem inject_fabric (s : State) (src dst flits cls seq : Nat) (r o : Bool) (e : Option Event) :
    FabricOnly s (s.inject src dst flits cls seq r o e) := s.leave_fabric _ _
theorem injectCtl_fabric (s : State) (st ctl src dst seq : Nat) (e : Option Event) :
    FabricOnly s (s.injectCtl st ctl src dst seq e) := by
  simp only [injectCtl]; split
  · exact s.leave_fabric _ _
  · exact (s.mapSite_fabric _ _).trans (pushOnce_fabric _ _)
theorem route_fabric (s : State) (src owner flits cls : Nat) (e : Event) : FabricOnly s (s.route src owner flits cls e) := by
  simp only [route]; split
  · exact s.push_fabric e
  · split
    · exact .trans ⟨_, _, rfl⟩ (inject_fabric _ _ _ _ _ _ _ _ _)
    · exact ⟨_, _, rfl⟩
theorem setXmit_fabric (s : State) (a : Nat) (xs : List XmitEntry) : FabricOnly s (s.setXmit a xs) := s.mapSite_fabric _ _
theorem sendNext_fabric (s : State) (a : Nat) : FabricOnly s (s.sendNext a) :=
  .foldl (fun s x => by
    extract_lets; split
    · exact (s.setXmit_fabric _ _).trans (inject_fabric _ _ _ _ _ _ _ _ _)
    · exact .refl s) _ s
theorem freeXmit_fabric (s : State) (a owner seq : Nat) : FabricOnly s (s.freeXmit a owner seq) :=
  ((s.setXmit_fabric _ _).trans (mapSite_fabric _ _ _)).trans (sendNext_fabric _ _)
theorem mapWindow_fabric (s : State) (owner src : Nat) (f : SeqWindow → SeqWindow) :
    FabricOnly s (s.mapWindow owner src f) := s.mapSite_fabric _ _
theorem resume_fabric (s : State) (es : List Event) : FabricOnly s (s.resume es) :=
  .foldl (fun s e => by
    split
    · exact .refl s
    · exact s.push_fabric e) es s
theorem markApplied_fabric (s : State) (owner src n : Nat) : FabricOnly s (s.markApplied owner src n) :=
  ((s.mapWindow_fabric _ _ _).trans ⟨_, _, rfl⟩).trans (resume_fabric _ _)
theorem cacheAnswer_fabric (s : State) (owner src seq : Nat) (e : Option Event) :
    FabricOnly s (s.cacheAnswer owner src seq e) := (s.mapWindow_fabric _ _ _).trans (markApplied_fabric _ _ _ _)
theorem ack_fabric (s : State) (e : Event) : FabricOnly s (s.ack e) := by
  unfold ack; split
  · exact (s.cacheAnswer_fabric _ _ _ _).trans (injectCtl_fabric _ _ _ _ _ _ _)
  · exact .refl s
theorem giveUp_fabric (s : State) (a : Nat) (id : Word) : FabricOnly s (s.giveUp a id) :=
  .foldl (fun s x => by
    split
    · split
      · exact (s.freeXmit_fabric _ _ _).trans (injectCtl_fabric _ _ _ _ _ _ _)
      · exact .refl s
    · exact .refl s) _ s
theorem sendRoom_fabric (s : State) (k sender : Nat) (id : Word) : FabricOnly s (s.sendRoom k sender id) := by
  simp only [sendRoom]; split
  · exact s.push_fabric _
  · split
    · split
      · exact (s.mapWindow_fabric _ _ _).trans (injectCtl_fabric _ _ _ _ _ _ _)
      · exact s.injectCtl_fabric _ _ _ _ _ _
    · exact s.injectCtl_fabric _ _ _ _ _ _
theorem resendLater_fabric (s : State) (m : Message) : FabricOnly s (s.resendLater m) := by
  simp only [resendLater]; exact s.mapSite_fabric _ _
theorem sendRefusal_fabric (s : State) (m : Message) (nolist chain : Bool) :
    FabricOnly s (s.sendRefusal m nolist chain) := by
  simp only [sendRefusal]; split
  · exact (s.mapWindow_fabric _ _ _).trans (injectCtl_fabric _ _ _ _ _ _ _)
  · split
    · exact s.push_fabric _
    · exact s.resendLater_fabric m
theorem replayOn_fabric (s : State) (k : Nat) : FabricOnly s (s.replayOn k) := by
  unfold replayOn; split
  · split
    · exact s.pushOnce_fabric _
    · exact .refl s
  · exact .refl s
theorem quietOn_fabric (s : State) (k : Nat) : FabricOnly s (s.quietOn k) := by
  unfold quietOn; split
  · split
    · exact s.pushOnce_fabric _
    · split
      · exact s.pushOnce_fabric _
      · exact .refl s
  · exact .refl s
theorem strayFault_fabric (s : State) (m : Message) : FabricOnly s (s.strayFault m) := by
  simp only [strayFault]; split
  · exact (s.mapSite_fabric _ _).trans (push_fabric _ _)
  · exact .refl s
theorem wakeWaitm_fabric (s : State) (k h : Nat) : FabricOnly s (s.wakeWaitm k h) := by
  unfold wakeWaitm; split
  · exact s.pushOnce_fabric _
  · exact .refl s

theorem pushOnce_agenda (s : State) (e x : Event) (h : x ∈ s.agenda) : x ∈ (s.pushOnce e).agenda := by
  unfold pushOnce; split
  · exact h
  · exact List.mem_append_left _ h

/-! Sites, agenda, grids, and what NIs list. -/

/-- `t` is `s` but for its sites, agenda and grids, and for what its NIs list, reserve and chain. -/
structure ListsOnly (s t : State) : Prop where
  rest : ∃ cores sites agenda grids, t = { s with cores, sites, agenda, grids }
  core : ∀ k, ∃ refusals rooms chains, t.core k = { s.core k with ni := { (s.core k).ni with refusals, rooms, chains } }

theorem FabricOnly.lists {s t : State} (h : FabricOnly s t) : ListsOnly s t where
  rest := by obtain ⟨_, _, rfl⟩ := h; exact ⟨_, _, _, _, rfl⟩
  core := fun k => ⟨_, _, _, h.core k⟩

namespace ListsOnly
variable {s t u : State}

theorem refl (s : State) : ListsOnly s s := (FabricOnly.refl s).lists
theorem trans (h : ListsOnly s t) (g : ListsOnly t u) : ListsOnly s u where
  rest := by
    obtain ⟨_, _, _, _, rfl⟩ := h.rest; obtain ⟨_, _, _, _, rfl⟩ := g.rest; exact ⟨_, _, _, _, rfl⟩
  core := fun k => by
    obtain ⟨_, _, _, eh⟩ := h.core k; obtain ⟨_, _, _, eg⟩ := g.core k; rw [eg, eh]; exact ⟨_, _, _, rfl⟩
theorem foldl {α : Type} {f : State → α → State} (h : ∀ s a, ListsOnly s (f s a)) (l : List α) (s : State) :
    ListsOnly s (l.foldl f s) := foldl_rel refl trans h l s

theorem teams (h : ListsOnly s t) : t.teams = s.teams := by obtain ⟨_, _, _, _, rfl⟩ := h.rest; rfl
theorem sameStorage (h : ListsOnly s t) : SameStorage s t := by
  obtain ⟨_, _, _, _, rfl⟩ := h.rest; exact ⟨fun _ => rfl, rfl, rfl⟩

end ListsOnly

/-- An update of one NI's listings, reservations and chains. -/
theorem mapNi_lists {s : State} {k : Nat} {f : NI → NI}
    (h : ∀ n : NI, ∃ refusals rooms chains, f n = { n with refusals, rooms, chains }) : ListsOnly s (s.mapNi k f) where
  rest := ⟨_, _, _, _, rfl⟩
  core := fun j => by
    by_cases e : j = k
    · subst e
      obtain ⟨r, ro, ch, hf⟩ := h (s.core j).ni
      exact ⟨r, ro, ch, by simp [mapNi, hf]⟩
    · exact ⟨_, _, _, core_mapCore_other s k j _ e⟩

theorem workDown_lists (s : State) (g : Option Nat) : ListsOnly s (s.workDown g) := by
  unfold workDown mapGrid; split
  · split
    · exact ⟨⟨_, _, _, _, rfl⟩, fun k => ⟨_, _, _, rfl⟩⟩
    · exact (s.push_fabric _).lists
  · exact .refl s

theorem entryFreed_lists (s : State) (k : Nat) : ListsOnly s (s.entryFreed k) := by
  refine (s.replayOn_fabric k).lists.trans ?_
  unfold entryFreed; extract_lets s₁ c listed; clear_value listed
  rcases listed with _ | ⟨id, cls, sender⟩
  · exact .refl s₁
  · exact (mapNi_lists fun n => ⟨_, _, _, rfl⟩).trans (sendRoom_fabric _ _ _ _).lists

end State

/-- What an NI knows of a refused message that is refused no longer: nothing (R25, R27). -/
def NI.settled (ni : NI) (id : Word) : NI :=
  { ni with refusals := ni.refusals.filter (·.1 != id), rooms := ni.rooms.filter (·.id != id)
            chains := ni.chains.filter (·.2 != id) }

/-- A core whose NI knows nothing of a message. -/
def Core.settled (c : Core) (id : Word) : Core := { c with ni := c.ni.settled id }

theorem Core.settled_idem (c : Core) (id : Word) : (c.settled id).settled id = c.settled id := by
  simp [Core.settled, NI.settled]

/-- An NI that knows nothing of a message has nothing to forget. -/
theorem Core.settled_of_unknown {c : Core} {id : Word} (h : (c.ni.refusals.any (·.1 == id) || c.ni.rooms.any (·.id == id)
    || c.ni.chains.any (·.2 == id)) = false) : c.settled id = c := by
  simp only [Bool.or_eq_false_iff, List.any_eq_false, beq_iff_eq] at h
  obtain ⟨⟨hr, ho⟩, hc⟩ := h
  have er : c.ni.refusals.filter (·.1 != id) = c.ni.refusals := List.filter_eq_self.2 fun x hx => by simpa using hr x hx
  have eo : c.ni.rooms.filter (·.id != id) = c.ni.rooms := List.filter_eq_self.2 fun x hx => by simpa using ho x hx
  have ec : c.ni.chains.filter (·.2 != id) = c.ni.chains := List.filter_eq_self.2 fun x hx => by simpa using hc x hx
  rw [Core.settled, NI.settled, er, eo, ec]

/-- What a table holds under a key is an entry of it, or the default. -/
theorem Sparse.get_mem_or {α : Type} (d : α) (m : Sparse α) (k : Nat) : (k, get d m k) ∈ m ∨ get d m k = d := by
  induction m with
  | nil => exact .inr rfl
  | cons p t ih =>
    obtain ⟨j, y⟩ := p
    by_cases e : j = k
    · subst e; simp [get]
    · simp only [get, if_neg e]; exact ih.imp_left (List.mem_cons_of_mem _)

namespace State

/-- One NI settles a message: it forgets it, acknowledges its chain, and has an entry freed, unless the message takes it. -/
def settleAt (at_ : Option Nat) (m : Message) (s : State) (q : Nat × NI) : State :=
  let s := s.mapNi q.1 fun ni => ni.settled m.id
  let s := if q.2.chains.any (·.2 == m.id) then s.route (agentNi q.1) (agentNi m.src) 1 0 (.chainAck m.src q.1) else s
  if q.2.rooms.any (·.id == m.id) && at_ != some q.1 then s.entryFreed q.1 else s

theorem settleMsg_eq (s : State) (at_ : Option Nat) (m : Message) : s.settleMsg at_ m =
    ((s.cores.filter fun q => q.2.ni.refusals.any (·.1 == m.id) || q.2.ni.rooms.any (·.id == m.id)
      || q.2.ni.chains.any (·.2 == m.id)).map fun q => (q.1, q.2.ni)).foldl (settleAt at_ m) s := rfl

theorem settleMsg_lists (s : State) (at_ : Option Nat) (m : Message) : ListsOnly s (s.settleMsg at_ m) := by
  rw [settleMsg_eq]
  refine .foldl (fun s q => ?_) _ s
  unfold settleAt; extract_lets s₁ s₂
  have h1 : ListsOnly s s₁ := mapNi_lists fun n => ⟨_, _, _, rfl⟩
  have h2 : ListsOnly s₁ s₂ := by
    simp only [s₂]; split
    · exact (route_fabric _ _ _ _ _ _).lists
    · exact .refl s₁
  split
  · exact (h1.trans h2).trans (entryFreed_lists _ _)
  · exact h1.trans h2

theorem core_mapNi (s : State) (k : Nat) (f : NI → NI) : (s.mapNi k f).core k = { s.core k with ni := f (s.core k).ni } :=
  core_mapCore _ _ _
theorem core_mapNi_other (s : State) (k j : Nat) (f : NI → NI) (h : j ≠ k) : (s.mapNi k f).core j = s.core j :=
  core_mapCore_other _ _ _ _ h

theorem core_entryFreed_other (s : State) (k j : Nat) (h : j ≠ k) : (s.entryFreed k).core j = s.core j := by
  unfold entryFreed; extract_lets s₁ c listed; clear_value listed
  have h1 : s₁.core j = s.core j := (s.replayOn_fabric k).core j
  rcases listed with _ | ⟨id, cls, sender⟩
  · exact h1
  · exact ((sendRoom_fabric _ _ _ _).core j).trans ((core_mapNi_other _ _ _ _ h).trans h1)

theorem core_settleAt_other (s : State) (at_ : Option Nat) (m : Message) (q : Nat × NI) (k : Nat) (h : k ≠ q.1) :
    (settleAt at_ m s q).core k = s.core k := by
  unfold settleAt; extract_lets s₁ s₂
  have h2 : s₂.core k = s.core k := by
    rw [← core_mapNi_other s q.1 k _ h]
    simp only [s₂]; split
    · exact (route_fabric _ _ _ _ _ _).core k
    · rfl
  split
  · exact (core_entryFreed_other _ _ _ h).trans h2
  · exact h2

theorem core_settleAt_some (s : State) (k : Nat) (m : Message) (ni : NI) :
    (settleAt (some k) m s (k, ni)).core k = (s.core k).settled m.id := by
  unfold settleAt; extract_lets s₁ s₂
  rw [if_neg (by simp)]
  refine Eq.trans ?_ (core_mapNi s k fun ni => ni.settled m.id)
  simp only [s₂]; split
  · exact (route_fabric _ _ _ _ _ _).core k
  · rfl

theorem core_foldl_settleAt (k : Nat) (m : Message) (l : List (Nat × NI)) (s : State) :
    (l.foldl (settleAt (some k) m) s).core k =
      if k ∈ l.map (·.1) then (s.core k).settled m.id else s.core k := by
  induction l generalizing s with
  | nil => rfl
  | cons q l ih =>
    obtain ⟨j, ni⟩ := q
    rw [List.foldl_cons, ih]
    by_cases e : k = j
    · subst e; simp [core_settleAt_some, Core.settled_idem]
    · rw [core_settleAt_other _ _ _ (j, ni) _ e]; simp only [List.map_cons, List.mem_cons, e, false_or]

/-- The NI that accepts a message forgets that it was refused (R25, R27). -/
theorem core_settleMsg_some (s : State) (k : Nat) (m : Message) :
    (s.settleMsg (some k) m).core k = (s.core k).settled m.id := by
  rw [settleMsg_eq, core_foldl_settleAt]
  split
  · rfl
  next h =>
    refine (Core.settled_of_unknown ?_).symm
    obtain hm | hd := Sparse.get_mem_or (s.idleCore k) s.cores k
    · by_contra hk
      exact h (List.mem_map_of_mem (List.mem_map_of_mem (List.mem_filter.2 ⟨hm, Bool.eq_true_of_not_eq_false hk⟩)))
    · rw [show s.core k = s.idleCore k from hd]; rfl

end State
end Sys2Proof.Machine
end

section
/-!
SUPPORT. Messages at a core (R20, R24 to R27, R51): what an entry taken, a refusal and a discard leave, and which of them
MESSAGE_ACCEPT and MAILDROP_APPEND are.
-/
namespace Sys2Proof.Machine

theorem SameStorage.trans {s t u : State} (h : SameStorage s t) (g : SameStorage t u) : SameStorage s u :=
  ⟨fun a => (g.1 a).trans (h.1 a), g.2.1.trans h.2.1, g.2.2.trans h.2.2⟩

namespace State
namespace ListsOnly
variable {s t : State} (h : ListsOnly s t) (k : Nat)
include h

theorem queue : (t.core k).ni.queue = (s.core k).ni.queue := by obtain ⟨_, _, _, e⟩ := h.core k; rw [e]
theorem refused : (t.core k).ni.refused = (s.core k).ni.refused := by obtain ⟨_, _, _, e⟩ := h.core k; rw [e]
theorem redirects : (t.core k).ni.redirects = (s.core k).ni.redirects := by obtain ⟨_, _, _, e⟩ := h.core k; rw [e]
theorem strays : (t.core k).ni.strays = (s.core k).ni.strays := by obtain ⟨_, _, _, e⟩ := h.core k; rw [e]

end ListsOnly

theorem mapNi_sameStorage (s : State) (k : Nat) (f : NI → NI) : SameStorage s (s.mapNi k f) := ⟨fun _ => rfl, rfl, rfl⟩

/-- The message waits behind a refused one of its channel (R27). -/
def behind (s : State) (m : Message) : Bool :=
  m.ordered && (s.core m.dst).ni.chains.any fun (src, id) => src == m.src && id != m.id

theorem behind_iff (s : State) (m : Message) :
    s.behind m = true ↔ m.ordered = true ∧ ∃ c ∈ (s.core m.dst).ni.chains, c.1 = m.src ∧ c.2 ≠ m.id := by
  simp [behind]

/-! Entries and refusals. -/

/-- The queue entry of a message accepted now (R24, R378). -/
def entryNow (s : State) (k : Nat) (m : Message) (reserved : Bool) : QEntry :=
  { msg := m, cls := m.cls, cls0 := m.cls, reserved, accepted := (s.core k).nextAccept
    arrived := some (s.core k).cycle, moved := (s.core k).cycle }

theorem enqueue_fabric (s : State) (k : Nat) (m : Message) (b : Bool) :
    FabricOnly (s.mapNi k fun ni => { ni with queue := ni.queue ++ [s.entryNow k m b] }) (s.enqueue k m b) :=
  ((push_fabric _ _).trans (pushAll_fabric _ _)).trans (wakeWaitm_fabric _ _ _)

theorem wakeWaitm_agenda (s : State) (k h : Nat) (x : Event) (hx : x ∈ s.agenda) : x ∈ (s.wakeWaitm k h).agenda := by
  unfold wakeWaitm; split
  · exact pushOnce_agenda _ _ _ hx
  · exact hx

theorem dispatch_mem_enqueue (s : State) (k : Nat) (m : Message) (b : Bool) :
    Event.dispatch k ∈ (s.enqueue k m b).agenda :=
  wakeWaitm_agenda _ _ _ _ (List.mem_append_left _ (List.mem_append_right _ (List.mem_singleton_self _)))

/-- An accepted message stands at the queue's tail, and its core's NI has forgotten that it was refused (R24 to R27). -/
theorem core_acceptAt (s : State) (k : Nat) (m : Message) (b : Bool) : (s.acceptAt k m b).core k =
    { s.core k with ni := { (s.core k).ni.settled m.id with queue := (s.core k).ni.queue ++ [s.entryNow k m b] } } := by
  have hc : ((s.ack (.messageAccept m)).settleMsg (some k) m).core k = (s.core k).settled m.id := by
    rw [core_settleMsg_some, (s.ack_fabric _).core]
  have he : ((s.ack (.messageAccept m)).settleMsg (some k) m).entryNow k m b = s.entryNow k m b := by
    unfold entryNow; rw [hc]; rfl
  unfold acceptAt
  rw [(enqueue_fabric _ _ _ _).core, core_mapNi, hc, he]; rfl

theorem acceptAt_sameStorage (s : State) (k : Nat) (m : Message) (b : Bool) : SameStorage s (s.acceptAt k m b) :=
  ((s.ack_fabric _).lists.trans (settleMsg_lists _ _ _)).sameStorage.trans
    ((mapNi_sameStorage _ _ _).trans (enqueue_fabric _ _ _ _).sameStorage)

/-- A refusal counts in REFUSED, and changes no more of the NI than what it lists, reserves and chains. -/
theorem refuseAt_lists (s : State) (k : Nat) (m : Message) (chain list : Bool) :
    ListsOnly (s.mapNi k fun ni => { ni with refused := sat32 (ni.refused + 1) }) (s.refuseAt k m chain list) := by
  unfold refuseAt; extract_lets s₁ ni listed room s₂
  split
  · exact (sendRefusal_fabric _ _ _ _).lists
  · exact (mapNi_lists fun n => ⟨_, _, _, rfl⟩).trans (sendRefusal_fabric _ _ _ _).lists

/-- A chain refusal does no more than go back (R27). -/
theorem refuseAt_chain_fabric (s : State) (k : Nat) (m : Message) (list : Bool) :
    FabricOnly (s.mapNi k fun ni => { ni with refused := sat32 (ni.refused + 1) }) (s.refuseAt k m true list) :=
  sendRefusal_fabric _ _ _ _

/-- A message refused for want of an entry is listed while the list has room (R25). -/
theorem refuseAt_listed (s : State) (k : Nat) (m : Message) (h : (s.core k).ni.refusals.length < 32) :
    ∃ x ∈ ((s.refuseAt k m false true).core k).ni.refusals, x.1 = m.id := by
  unfold refuseAt; extract_lets s₁ ni listed room s₂
  have hr : ni.refusals = (s.core k).ni.refusals := by simp [ni, s₁, core_mapNi]
  rw [if_neg (by decide), (sendRefusal_fabric _ _ _ _).core, core_mapNi]
  by_cases hl : listed = true
  · have hx := hl
    simp only [listed, Bool.true_and, List.any_eq_true, beq_iff_eq] at hx
    simpa [hl] using hx
  · have hroom : room = true := by simp [room, hr, h]
    simp [hl, hroom]

end State
end Sys2Proof.Machine
end

section
/-!
SUPPORT. The steps of a message (R20, R24 to R27, R51): where MESSAGE_ACCEPT takes it, what MAILDROP_APPEND does with it, and what a
refusal leaves at its sender.
-/
namespace Sys2Proof.Machine

namespace State

theorem stray_core (s : State) (k : Nat) (m : Message) :
    ListsOnly (s.mapNi k fun ni => { ni with strays := sat32 (ni.strays + 1) }) (s.stray k m) :=
  (workDown_lists _ _).trans (settleMsg_lists _ _ _)

theorem find_mapTeam_same {s : State} {n : Nat} {t : Team} (h : Sparse.find s.teams n = some t) (f : Team → Team) :
    Sparse.find (s.mapTeam n f).teams n = some (f t) := by
  simp [mapTeam, h]

/-- A message that a drop takes is acknowledged, and its NI, unless the sequencer sent it, counts it in REDIRECTS (R51). -/
def redirectCounted (s : State) (m : Message) : State :=
  if msgSrc m ≠ 2 then (s.ack (.messageAccept m)).mapNi m.dst fun ni => { ni with redirects := sat32 (ni.redirects + 1) }
  else s.ack (.messageAccept m)

theorem redirectCounted_teams (s : State) (m : Message) : (s.redirectCounted m).teams = s.teams := by
  unfold redirectCounted; split <;> exact (s.ack_fabric _).teams

theorem redirectCounted_sameStorage (s : State) (m : Message) : SameStorage s (s.redirectCounted m) := by
  unfold redirectCounted; split <;> exact (s.ack_fabric _).sameStorage

theorem core_redirectCounted (s : State) {m : Message} (h : msgSrc m ≠ 2) : (s.redirectCounted m).core m.dst =
    { s.core m.dst with ni := { (s.core m.dst).ni with redirects := sat32 ((s.core m.dst).ni.redirects + 1) } } := by
  rw [redirectCounted, if_pos h, core_mapNi, (s.ack_fabric _).core]

end State

/-! The mail drop (R51, R52). -/

theorem Team.byDrop_iff (t : Team) : t.byDrop = true ↔
    t.state ≠ .ended ∧ (t.drop ≠ [] ∨ (t.state ≠ .placed ∧ t.state ≠ .quiescing)) := by
  unfold Team.byDrop
  cases t.state <;> simp

section
variable {s : State} {uid : Nat} {t : Team} {m : Message} (ht : Sparse.find s.teams uid = some t)
include ht

theorem maildropAppend_ended (he : t.state = .ended) : exec (.maildropAppend uid m) s =
    .next (if msgSrc m ≠ 2 then (s.ack (.messageAccept m)).stray m.dst m else s.consume m) := by
  simp [exec_maildropAppend, execMaildropAppend, ht, he]

theorem maildropAppend_behind (hd : t.byDrop = true) (hv : msgSrc m ≠ 2) (hb : s.behind m = true) :
    exec (.maildropAppend uid m) s = .next (s.refuseAt m.dst m true false) := by
  have he := (t.byDrop_iff.1 hd).1
  unfold State.behind at hb
  simp_all [exec_maildropAppend, execMaildropAppend]

theorem maildropAppend_full (hd : t.byDrop = true) (hb : ¬(msgSrc m ≠ 2 ∧ s.behind m = true)) (hf : t.dropSize ≤ t.drop.length) :
    exec (.maildropAppend uid m) s =
      .next (if msgSrc m ≠ 2 then s.refuseAt m.dst m false false else s.sendRefusal m true false) := by
  have he := (t.byDrop_iff.1 hd).1
  unfold State.behind at hb
  simp_all [exec_maildropAppend, execMaildropAppend]

theorem maildropAppend_room (hd : t.byDrop = true) (hb : ¬(msgSrc m ≠ 2 ∧ s.behind m = true)) (hf : t.drop.length < t.dropSize) :
    Completes (exec (.maildropAppend uid m) s) fun u => SameStorage s u
      ∧ Sparse.find u.teams uid = some { t with drop := t.drop ++ [m] }
      ∧ (msgSrc m ≠ 2 → (u.core m.dst).ni.redirects = sat32 ((s.core m.dst).ni.redirects + 1)
          ∧ (u.core m.dst).ni.queue = (s.core m.dst).ni.queue) := by
  let v := (s.redirectCounted m).settleMsg none m
  let w := v.mapTeam uid fun t => { t with drop := t.drop ++ [m] }
  have he := (t.byDrop_iff.1 hd).1
  have step : exec (.maildropAppend uid m) s =
      .next (if t.state = .replay ∨ t.state = .placed then w.pushOnce (.maildropClose uid) else w) := by
    simp only [exec_maildropAppend, execMaildropAppend, ht, if_neg he, hd, Nat.not_le.2 hf, if_false]
    rw [if_neg (by decide), if_neg (by simpa [State.behind] using hb)]
    simp only [w, v, State.redirectCounted, bne_iff_ne]
  have hv : State.ListsOnly (s.redirectCounted m) v := State.settleMsg_lists _ _ _
  have hw : SameStorage v w ∧ ∀ k, w.core k = v.core k := by
    simp only [w, State.mapTeam]; split <;> exact ⟨⟨fun _ => rfl, rfl, rfl⟩, fun _ => rfl⟩
  have hteam : Sparse.find w.teams uid = some { t with drop := t.drop ++ [m] } :=
    State.find_mapTeam_same (by rw [hv.teams, s.redirectCounted_teams, ht]) _
  have hu (u : State) (h : State.FabricOnly w u) : SameStorage s u ∧ Sparse.find u.teams uid = some { t with drop := t.drop ++ [m] }
      ∧ (msgSrc m ≠ 2 → (u.core m.dst).ni.redirects = sat32 ((s.core m.dst).ni.redirects + 1)
          ∧ (u.core m.dst).ni.queue = (s.core m.dst).ni.queue) := by
    refine ⟨(s.redirectCounted_sameStorage m).trans (hv.sameStorage.trans (hw.1.trans h.sameStorage)), by rw [h.teams, hteam], fun hm => ?_⟩
    rw [h.core, hw.2, hv.redirects, hv.queue, s.core_redirectCounted hm]
    exact ⟨rfl, rfl⟩
  rw [step]
  split
  · exact ⟨_, rfl, hu _ (w.pushOnce_fabric _)⟩
  · exact ⟨_, rfl, hu _ (.refl w)⟩
end

/-! MESSAGE_ACCEPT (R20, R24, R51). -/

theorem messageAccept_absolute {s : State} {m : Message} {t : Team} (hm : m.team = none) (ht : s.teamAt m.dst = some t)
    (hp : t.state ≠ .placing) (he : t.state ≠ .ended) : exec (.messageAccept m) s = .next (s.inbound m.dst m) := by
  simp [exec_messageAccept, execMessageAccept, hm, ht, hp, he]

section
variable {s : State} {m : Message} {uid : Nat} {t : Team} (hm : m.team.isSome = true)
include hm

theorem messageAccept_noTeam (ht : s.msgTeam m = none) :
    exec (.messageAccept m) s = .next (((s.ack (.messageAccept m)).stray m.dst m).strayFault m) := by
  obtain ⟨g, hg⟩ := Option.isSome_iff_exists.1 hm
  simp [exec_messageAccept, execMessageAccept, hg, ht]

variable (ht : s.msgTeam m = some (uid, t))
include ht

theorem messageAccept_ended (he : t.state = .ended) :
    exec (.messageAccept m) s = .next (((s.ack (.messageAccept m)).stray m.dst m).strayFault m) := by
  obtain ⟨g, hg⟩ := Option.isSome_iff_exists.1 hm
  simp [exec_messageAccept, execMessageAccept, hg, ht, he]

theorem messageAccept_drop (hd : t.byDrop = true) : exec (.messageAccept m) s = exec (.maildropAppend uid m) s := by
  obtain ⟨g, hg⟩ := Option.isSome_iff_exists.1 hm
  simp [exec_messageAccept, execMessageAccept, exec_maildropAppend, hg, ht, hd, (t.byDrop_iff.1 hd).1]

variable (hd : t.byDrop = false) (he : t.state ≠ .ended)
include hd he

theorem messageAccept_home (hk : teamCore t m.pos.1 m.pos.2 = m.dst) :
    exec (.messageAccept m) s = .next (s.inbound m.dst m) := by
  obtain ⟨g, hg⟩ := Option.isSome_iff_exists.1 hm
  simp [exec_messageAccept, execMessageAccept, hg, ht, hd, he, hk]

theorem messageAccept_away (hk : teamCore t m.pos.1 m.pos.2 ≠ m.dst) : exec (.messageAccept m) s = .next
    (if s.behind m then s.refuseAt m.dst m true false
     else ((s.ack (.messageAccept m)).mapNi m.dst fun ni => { ni with redirects := sat32 (ni.redirects + 1) }).route
      (agentNi m.dst) (agentNi (teamCore t m.pos.1 m.pos.2)) (msgFlits m) 3
      (.messageAccept { m with dst := teamCore t m.pos.1 m.pos.2 })) := by
  obtain ⟨g, hg⟩ := Option.isSome_iff_exists.1 hm
  simp [exec_messageAccept, execMessageAccept, hg, ht, hd, he, hk, State.behind]
end

end Sys2Proof.Machine
end

section
/-!
SUPPORT. Retransmission (R25 to R27, R50): what a refusal leaves at its sender, and when a message goes again.
-/
namespace Sys2Proof.Machine

/-- The delayed entry of a refused message (R25, R26). -/
def refusedEntry (s : State) (m : Message) (nolist chain : Bool) : RetryEntry :=
  { msg := m, listed := !nolist && !chain, chain, due := if nolist then some ((s.core m.src).cycle + timedDelay m) else none }

theorem retryInsert_unordered {r : RetryEntry} (h : r.msg.ordered = false) (l : List RetryEntry) : retryInsert r l = l ++ [r] := by
  have later (q : RetryEntry) : (!(q.fresh && State.sameChannel q.msg r.msg)) = true := by simp [State.sameChannel, h]
  have ht : l.takeWhile (fun q => !(q.fresh && State.sameChannel q.msg r.msg)) = l := List.takeWhile_eq_self_iff.2 fun q _ => later q
  have hd : l.dropWhile (fun q => !(q.fresh && State.sameChannel q.msg r.msg)) = [] := List.dropWhile_eq_nil_iff.2 fun q _ => later q
  simp only [retryInsert, ht, hd]

namespace State

theorem mapRetry_of_stays {s : State} {k : Nat} (h : ∀ v, s.teamAt k = some v → v.state ≠ .quiescing)
    (f : List RetryEntry → List RetryEntry) : s.mapRetry k f = s.mapNi k fun ni => { ni with retry := f ni.retry } := by
  unfold mapRetry
  split
  next uid t hk ht => rw [if_neg (h t ht)]
  · rfl

theorem mapRetry_of_quiescing {s : State} {k uid : Nat} {t : Team} (hk : (s.core k).team = some uid) (ht : s.teamAt k = some t)
    (hq : t.state = .quiescing) (f : List RetryEntry → List RetryEntry) :
    SameStorage s (s.mapRetry k f) ∧ ∀ j, (s.mapRetry k f).core j = s.core j := by
  simp only [mapRetry, hk, ht, if_pos hq, mapTeam]
  split <;> exact ⟨⟨fun _ => rfl, rfl, rfl⟩, fun _ => rfl⟩

theorem FabricOnly.teamAt {s t : State} (h : FabricOnly s t) (k : Nat) : t.teamAt k = s.teamAt k := by
  obtain ⟨_, _, rfl⟩ := h; rfl

end State

section
variable {s : State} {m : Message} {nolist chain : Bool}

theorem refuse_kept (h : ∀ v, s.teamAt m.src = some v → v.state ≠ .quiescing) : exec (.refuse m nolist chain) s =
    .next (s.mapNi m.src fun n =>
      { n with retry := retryInsert (refusedEntry s m nolist chain) (n.retry.filter (·.msg.id != m.id)) }) := by
  have hq : (s.teamAt m.src).any (·.state == .quiescing) = false := by
    cases ht : s.teamAt m.src with
    | none => rfl
    | some v => simpa using h v ht
  simp only [exec_refuse, execRefuse, hq]
  rw [if_neg (by decide), State.mapRetry_of_stays h]; rfl

/-- The team that is being swapped out takes the refused message to its swap area (R50). -/
theorem refuse_saved {uid : Nat} {t : Team} (hk : (s.core m.src).team = some uid) (ht : s.teamAt m.src = some t)
    (hq : t.state = .quiescing) : Completes (exec (.refuse m nolist chain) s) fun u =>
      SameStorage s u ∧ (u.core m.src).ni.retry = (s.core m.src).ni.retry := by
  have hf := s.giveUp_fabric (agentNi m.src) m.id
  obtain ⟨hs, hc⟩ := State.mapRetry_of_quiescing (s := s.giveUp (agentNi m.src) m.id) (hf.core m.src ▸ hk) (hf.teamAt m.src ▸ ht) hq
    fun l => retryInsert (refusedEntry s m nolist chain) (l.filter (·.msg.id != m.id))
  refine ⟨_, ?_, hf.sameStorage.trans (hs.trans (State.quietOn_fabric _ m.src).sameStorage), ?_⟩
  · simp only [exec_refuse, execRefuse, ht]; rw [if_pos (by simp [hq])]; rfl
  · rw [(State.quietOn_fabric _ m.src).core, hc, hf.core]
end

section
variable {s : State} {k : Nat} {id : Word} {r : RetryEntry} (hr : (s.core k).ni.retry.find? (·.msg.id == id) = some r)
include hr

theorem roomNotice_sends (target : Nat) : exec (.roomNotice k target id) s = .next (s.sendAgain k r.msg r.msg) := by
  simp only [exec_roomNotice, execRoomNotice, hr]

theorem timedRetry_sends (hc : r.chain = false) {d : Nat} (hd : r.due = some d) (h : d ≤ (s.core k).cycle) :
    exec (.timedRetry k id) s = .next ((s.mapNi k fun n => { n with timedretry := sat32 (n.timedretry + 1) }).sendAgain k r.msg
      { r.msg with timed := r.msg.timed + 1 }) := by
  simp [exec_timedRetry, execTimedRetry, hr, hc, hd, Nat.not_lt.2 h]
end

theorem State.entryFreed_rooms (s : State) (k : Nat) : ((s.entryFreed k).core k).ni.refusals = (s.core k).ni.refusals
    ∧ ∀ x ∈ ((s.entryFreed k).core k).ni.rooms, x ∈ (s.core k).ni.rooms ∨ ∃ q ∈ (s.core k).ni.refusals, q.1 = x.id := by
  unfold entryFreed; extract_lets s₁ c listed
  have hc : c = s.core k := (s.replayOn_fabric k).core k
  have hl (q) (h : listed = some q) : q ∈ (s.core k).ni.refusals := hc ▸ List.mem_of_find?_eq_some h
  clear_value listed
  rcases listed with _ | ⟨id, cls, sender⟩
  · simp only
    rw [(s.replayOn_fabric k).core]
    exact ⟨rfl, fun x hx => .inl hx⟩
  · simp only
    rw [(sendRoom_fabric _ _ _ _).core, core_mapNi, (s.replayOn_fabric k).core]
    refine ⟨rfl, fun x hx => ?_⟩
    obtain hx | hx := List.mem_append.1 hx
    · exact .inl hx
    · exact .inr ⟨_, hl _ rfl, by rw [List.mem_singleton.1 hx]⟩

/-- What an update of one NI leaves of every NI, a reader finds as before. -/
theorem State.mapNi_keeps {β : Type} (π : NI → β) {f : NI → NI} (h : ∀ n, π (f n) = π n) (s : State) (k j : Nat) :
    π ((s.mapNi k f).core j).ni = π (s.core j).ni := by
  by_cases e : j = k
  · subst e; rw [core_mapNi]; exact h _
  · rw [core_mapNi_other _ _ _ _ e]

/-- A reservation that lapses goes, with its listing (R25). -/
theorem roomReservationLapse_forgets {s : State} {k : Nat} {id : Word} {room : RoomRes}
    (hr : (s.core k).ni.rooms.find? (·.id == id) = some room) (h : room.until_ ≤ (s.core k).cycle) :
    Completes (exec (.roomReservationLapse k id) s) fun u => SameStorage s u
      ∧ (∀ x ∈ (u.core k).ni.rooms, x.id ≠ id) ∧ ∀ x ∈ (u.core k).ni.refusals, x.1 ≠ id := by
  simp only [exec_roomReservationLapse, execRoomReservationLapse, hr, if_neg (Nat.not_lt.2 h)]
  refine ⟨_, rfl, ?_⟩
  generalize hv : (s.mapNi k fun ni =>
    { ni with rooms := ni.rooms.filter (·.id != id), refusals := ni.refusals.filter (·.1 != id) }) = v
  have hc : (v.core k).ni.rooms = (s.core k).ni.rooms.filter (·.id != id)
      ∧ (v.core k).ni.refusals = (s.core k).ni.refusals.filter (·.1 != id) := by
    rw [← hv, State.core_mapNi]; exact ⟨rfl, rfl⟩
  generalize hw : (v.mapNi room.sender _) = w
  have rooms : (w.core k).ni.rooms = (s.core k).ni.rooms.filter (·.id != id) := by
    rw [← hw]; refine (State.mapNi_keeps NI.rooms ?_ v room.sender k).trans hc.1; exact fun _ => rfl
  have refusals : (w.core k).ni.refusals = (s.core k).ni.refusals.filter (·.1 != id) := by
    rw [← hw]; refine (State.mapNi_keeps NI.refusals ?_ v room.sender k).trans hc.2; exact fun _ => rfl
  have gone (x) (hx : x ∈ (w.core k).ni.refusals) : x.1 ≠ id := by
    rw [refusals] at hx; simpa using (List.mem_filter.1 hx).2
  obtain ⟨same, from_⟩ := w.entryFreed_rooms k
  refine ⟨?_, fun x hx => ?_, fun x hx => gone x (same ▸ hx)⟩
  · subst hw hv
    exact (State.mapNi_sameStorage _ _ _).trans ((State.mapNi_sameStorage _ _ _).trans (State.entryFreed_lists _ _).sameStorage)
  · obtain hx | ⟨q, hq, e⟩ := from_ x hx
    · rw [rooms] at hx; simpa using (List.mem_filter.1 hx).2
    · exact e ▸ gone q hq

/-! Messages for the core's own team (R24, R27). -/

theorem Team.byDrop_of_settled {t : Team} (h : t.state = .placed ∨ t.state = .quiescing) (hd : t.drop = []) :
    t.byDrop = false ∧ t.state ≠ .ended := by
  obtain h | h := h <;> simp [Team.byDrop, h, hd]

section
variable {s : State} {m : Message}

theorem inbound_behind (hb : s.behind m = true) : s.inbound m.dst m = s.refuseAt m.dst m true false := if_pos hb

variable (hb : ¬s.behind m = true) (hl : (s.core m.dst).lost = 0)
include hb hl

theorem inbound_room {b : Bool} (he : s.entryFor m.dst m = some b) : s.inbound m.dst m = s.acceptAt m.dst m b :=
  (if_neg hb).trans ((if_neg (not_not.2 hl)).trans (by rw [he]))

theorem inbound_full (he : s.entryFor m.dst m = none) : s.inbound m.dst m = s.refuseAt m.dst m false true :=
  (if_neg hb).trans ((if_neg (not_not.2 hl)).trans (by rw [he]))
end

/-- A message that is discarded counts in STRAYS (R20, R51). -/
theorem discarded_counts (s : State) (m : Message) :
    let u := ((s.ack (.messageAccept m)).stray m.dst m).strayFault m
    SameStorage s u ∧ (u.core m.dst).ni.strays = sat32 ((s.core m.dst).ni.strays + 1)
      ∧ (u.core m.dst).ni.queue = (s.core m.dst).ni.queue := by
  intro u
  have ha := s.ack_fabric (.messageAccept m)
  have hu : State.ListsOnly _ u := (State.stray_core _ m.dst m).trans (State.strayFault_fabric _ m).lists
  refine ⟨ha.sameStorage.trans ((State.mapNi_sameStorage _ _ _).trans hu.sameStorage), ?_, ?_⟩
  · rw [hu.strays, State.core_mapNi, ha.core]
  · rw [hu.queue, State.core_mapNi, ha.core]

/-- A refused message counts in REFUSED; the queue stays. -/
theorem refuseAt_counts (s : State) (k : Nat) (m : Message) (chain list : Bool) :
    let u := s.refuseAt k m chain list
    SameStorage s u ∧ (u.core k).ni.refused = sat32 ((s.core k).ni.refused + 1) ∧ (u.core k).ni.queue = (s.core k).ni.queue
      ∧ (u.core k).ni.redirects = (s.core k).ni.redirects ∧ u.teams = s.teams := by
  intro u
  have hu := s.refuseAt_lists k m chain list
  refine ⟨(State.mapNi_sameStorage _ _ _).trans hu.sameStorage, ?_, ?_, ?_, hu.teams⟩
  · rw [hu.refused, State.core_mapNi]
  · rw [hu.queue, State.core_mapNi]
  · rw [hu.redirects, State.core_mapNi]

theorem refuseAt_chain_refusals (s : State) (k : Nat) (m : Message) (list : Bool) :
    ((s.refuseAt k m true list).core k).ni.refusals = (s.core k).ni.refusals := by
  rw [(s.refuseAt_chain_fabric k m list).core, State.core_mapNi]

end Sys2Proof.Machine
end

section
/-!
CERTIFICATE. Messages at a core.
-/
namespace Sys2Proof.Machine

/-- Settles O46: where MESSAGE_ACCEPT takes the message is a case of its team; what the NI holds afterwards is what an entry taken, a
refusal or a discard leaves there, since nothing else of the fabric touches it. -/
theorem messagesArrive : Obligations.MessagesArrive := by
  unfold Obligations.MessagesArrive
  intro s m k target uid t id nolist chain r room ni mine elsewhere dropped behind arrives held kept counted
  have hb : behind ↔ s.behind m = true := (s.behind_iff m).symm
  have home (h : mine) : exec (.messageAccept m) s = .next (s.inbound m.dst m) := by
    obtain ⟨hm, ht, hp, he⟩ | ⟨hm, ht, hs, hd, hk⟩ := h
    · exact messageAccept_absolute hm ht hp he
    · obtain ⟨hd, he⟩ := Team.byDrop_of_settled hs hd
      exact messageAccept_home hm ht hd he hk
  have away (h : elsewhere) := by
    obtain ⟨hm, ht, hs, hd, hk⟩ := h
    obtain ⟨hd, he⟩ := Team.byDrop_of_settled hs hd
    exact messageAccept_away hm ht hd he hk
  have drop (h : dropped) : t.byDrop = true := by
    obtain ⟨-, -, -, -, he, hd⟩ := h
    exact t.byDrop_iff.2 ⟨he, hd⟩
  have drops (h : dropped) : exec (.messageAccept m) s = exec (.maildropAppend uid m) s :=
    messageAccept_drop h.1 h.2.1 (drop h)
  refine ⟨fun h hbehind => ?_, fun h hl hn => ⟨fun b he => ?_, fun he => ?_⟩, fun h hn => ?_,
    fun h hn => ⟨drops h, fun hr => ?_, fun hf => ?_⟩,
    fun h => ?_, refuse_kept, fun h l => retryInsert_unordered (r := kept) h l, fun v hk ht hq => refuse_saved hk ht hq,
    fun hr => ⟨roomNotice_sends hr target, fun d hc hd h => timedRetry_sends hr hc hd h⟩, roomReservationLapse_forgets, rfl⟩
  · rw [hb] at hbehind
    have refused : exec (.messageAccept m) s = .next (s.refuseAt m.dst m true false) := by
      obtain h | h | h := h
      · rw [home h, inbound_behind hbehind]
      · rw [away h, if_pos hbehind]
      · rw [drops h, maildropAppend_behind h.2.2.1 (drop h) h.2.2.2.1 hbehind]
    obtain ⟨same, count, queue, -⟩ := refuseAt_counts s m.dst m true false
    exact ⟨_, refused, same, ⟨count, queue⟩, refuseAt_chain_refusals _ _ _ _⟩
  · refine ⟨_, (home h).trans (by rw [inbound_room (hb.not.1 hn) hl he]), s.acceptAt_sameStorage m.dst m b, ?_⟩
    rw [s.core_acceptAt]
    exact ⟨rfl, rfl, State.dispatch_mem_enqueue _ _ _ _⟩
  · obtain ⟨same, count, queue, -⟩ := refuseAt_counts s m.dst m false true
    exact ⟨_, (home h).trans (by rw [inbound_full (hb.not.1 hn) hl he]), same, queue, count, s.refuseAt_listed m.dst m⟩
  · rw [hb] at hn
    have hf := (s.ack_fabric (.messageAccept m))
    refine ⟨_, (away h).trans (by rw [if_neg hn]), ?_, ?_⟩
    · exact hf.sameStorage.trans ((State.mapNi_sameStorage _ _ _).trans (State.route_fabric _ _ _ _ _ _).sameStorage)
    · rw [(State.route_fabric _ _ _ _ _ _).core, State.core_mapNi, hf.core]; exact ⟨rfl, rfl⟩
  · obtain ⟨u, hu, same, team, ni⟩ := maildropAppend_room h.2.2.1 (drop h) (fun c => hn (hb.2 c.2)) hr
    obtain ⟨hr, hq⟩ := ni h.2.2.2.1
    exact ⟨u, (drops h).trans hu, same, hr, hq, by rw [team]; rfl⟩
  · obtain ⟨same, count, queue, redirects, teams⟩ := refuseAt_counts s m.dst m false false
    refine ⟨_, (drops h).trans ((maildropAppend_full h.2.2.1 (drop h) (fun c => hn (hb.2 c.2)) hf).trans (by rw [if_pos h.2.2.2.1])),
      same, ⟨count, queue⟩, redirects, teams⟩
  · obtain ⟨same, strays, queue⟩ := discarded_counts s m
    have gone : exec (.messageAccept m) s = .next (((s.ack (.messageAccept m)).stray m.dst m).strayFault m) := by
      obtain ⟨hm, ht⟩ | ⟨hm, ht⟩ | ⟨hm, ht, he⟩ := h
      · simp [exec_messageAccept, execMessageAccept, hm, ht]
      · exact messageAccept_noTeam hm ht
      · exact messageAccept_ended hm ht he
    exact ⟨_, gone, same, strays, queue⟩

end Sys2Proof.Machine
end

section
/-!
SUPPORT. What the start of a task leaves (R29, R32, R61): marks of withheld contexts, the copies a SENDR message drops, and the
context it sets up.
-/
namespace Sys2Proof.Machine

namespace Sparse
variable {α : Type}

/-- What a map over the entries of a table does to each, a reader of the table finds done. -/
theorem get_map_rel {R : α → α → Prop} (f : Nat → α → α) (h : ∀ n x, R x (f n x)) (d : α) (hd : R d d) (m : Sparse α) (k : Nat) :
    R (get d m k) (get d (m.map fun p => (p.1, f p.1 p.2)) k) := by
  induction m with
  | nil => exact hd
  | cons p t ih => by_cases e : p.1 = k <;> simp [get, e, h, ih]

/-- Two defaults that agree on what a reader looks at give it the same. -/
theorem get_default {β : Type} (π : α → β) {d d' : α} (h : π d = π d') (m : Sparse α) (k : Nat) :
    π (get d m k) = π (get d' m k) := by
  induction m with
  | nil => exact h
  | cons p t ih => by_cases e : p.1 = k <;> simp [get, e, ih]

end Sparse

namespace State

/-! Remote copies (R126, R137). -/

/-- A core but for its L1 and what its contexts have pending. -/
def copiesOnly (c c' : Core) : Prop :=
  (∃ ctxs l1, c' = { c with ctxs, l1 }) ∧ ∀ x, ∃ pend, (Sparse.get {} c'.ctxs x : Ctx) = { (Sparse.get {} c.ctxs x : Ctx) with pend }

theorem copiesOnly_refl (c : Core) : copiesOnly c c := ⟨⟨_, _, rfl⟩, fun _ => ⟨_, rfl⟩⟩

/-- `t` is `s` but for its sites, and in its cores for the L1 and what contexts have pending. -/
structure CopiesOnly (s t : State) : Prop where
  rest : ∃ cores sites, t = { s with cores, sites }
  core : ∀ k, copiesOnly (s.core k) (t.core k)

namespace CopiesOnly
variable {s t u : State}

theorem refl (s : State) : CopiesOnly s s := ⟨⟨_, _, rfl⟩, fun _ => copiesOnly_refl _⟩
theorem trans (h : CopiesOnly s t) (g : CopiesOnly t u) : CopiesOnly s u where
  rest := by obtain ⟨_, _, rfl⟩ := h.rest; obtain ⟨_, _, rfl⟩ := g.rest; exact ⟨_, _, rfl⟩
  core := fun k => by
    obtain ⟨⟨_, _, eh⟩, ph⟩ := h.core k
    obtain ⟨⟨_, _, eg⟩, pg⟩ := g.core k
    refine ⟨by rw [eg, eh]; exact ⟨_, _, rfl⟩, fun x => ?_⟩
    obtain ⟨_, eh⟩ := ph x
    obtain ⟨_, eg⟩ := pg x
    rw [eg, eh]; exact ⟨_, rfl⟩

theorem ctxAt (h : CopiesOnly s t) (k x : Nat) : ∃ pend, t.ctxAt k x = { s.ctxAt k x with pend } := (h.core k).2 x
theorem sameStorage (h : CopiesOnly s t) : SameStorage s t := by
  obtain ⟨_, _, rfl⟩ := h.rest; exact ⟨fun _ => rfl, rfl, rfl⟩
theorem ni (h : CopiesOnly s t) (k : Nat) : (t.core k).ni = (s.core k).ni := by
  obtain ⟨⟨_, _, e⟩, -⟩ := h.core k; rw [e]
theorem dispatched (h : CopiesOnly s t) (k : Nat) : (t.core k).dispatched = (s.core k).dispatched := by
  obtain ⟨⟨_, _, e⟩, -⟩ := h.core k; rw [e]

end CopiesOnly

/-- A map over the cores that keeps each but for its L1 and what its contexts have pending. -/
theorem mapCores_copies {s : State} {f : Nat → Core → Core} (h : ∀ k c, copiesOnly c (f k c)) :
    CopiesOnly s { s with cores := s.cores.map fun p => (p.1, f p.1 p.2) } :=
  ⟨⟨_, _, rfl⟩, fun k => Sparse.get_map_rel f h (s.idleCore k) (copiesOnly_refl _) s.cores k⟩

theorem dropL1_copies (s : State) (at_ : Nat → Bool) (gone : L1Line → Bool) : CopiesOnly s (s.dropL1 at_ gone) := by
  refine mapCores_copies (f := fun k c => if at_ k then { c with l1 := c.l1.filter fun l => !gone l || s.specLine k l.line } else c)
    fun k c => ?_
  split
  · exact ⟨⟨_, _, rfl⟩, fun _ => ⟨_, rfl⟩⟩
  · exact copiesOnly_refl c

/-- What a context has pending as fills that are stale now (R126). -/
def staleCtx (hit : Nat → Bool) (t : Ctx) : Ctx :=
  { t with pend := t.pend.map fun p =>
    { p with stale := p.stale || (p.sent && (p.kind == .load || p.kind == .pref) && p.addrs.any fun a => hit (lineOf a)) } }

theorem staleFills_copies (s : State) (k : Nat) (hit : Nat → Bool) : CopiesOnly s (s.staleFills k hit) := by
  refine mapCores_copies (f := fun j c => if inCluster (siteOf k) (clusterOf k) j
    then { c with ctxs := Sparse.mapVals (staleCtx hit) c.ctxs } else c) fun j c => ?_
  split
  · refine ⟨⟨_, _, rfl⟩, fun x => ?_⟩
    rw [Sparse.get_mapVals _ _ _ _ rfl]; exact ⟨_, rfl⟩
  · exact copiesOnly_refl c

theorem setClusterLines_copies (s : State) (site cl : Nat) (ls : List ClusterLine) :
    CopiesOnly s (s.setClusterLines site cl ls) := ⟨⟨_, _, rfl⟩, fun _ => copiesOnly_refl _⟩

theorem dropCopies_copies (s : State) (k : Nat) : CopiesOnly s (s.dropCopies k) := by
  unfold dropCopies dropCopiesOf; extract_lets site cl s₁
  have h : CopiesOnly s s₁ := (s.staleFills_copies _ _).trans (dropL1_copies _ _ _)
  split
  · exact h
  · exact h.trans (setClusterLines_copies _ _ _ _)

end State
end Sys2Proof.Machine
end

section
/-!
SUPPORT. DISPATCH (R29, R32, R61, R378, R379): the context that a message's task starts in.
-/
namespace Sys2Proof.Machine
namespace State

/-! Withheld contexts (R32). -/

/-- `t` is `s` but for core `k`'s count of withheld contexts and their marks. -/
structure MarksOnly (k : Nat) (s t : State) : Prop where
  rest : ∃ cores, t = { s with cores }
  core : ∃ ctxs genhold, t.core k = { s.core k with ctxs, ni := { (s.core k).ni with genhold } }
  ctx : ∀ x, ∃ withheld, t.ctxAt k x = { s.ctxAt k x with withheld }

namespace MarksOnly
variable {k : Nat} {s t u : State}

theorem refl (s : State) : MarksOnly k s s := ⟨⟨_, rfl⟩, ⟨_, _, rfl⟩, fun _ => ⟨_, rfl⟩⟩
theorem trans (h : MarksOnly k s t) (g : MarksOnly k t u) : MarksOnly k s u where
  rest := by obtain ⟨_, rfl⟩ := h.rest; obtain ⟨_, rfl⟩ := g.rest; exact ⟨_, rfl⟩
  core := by obtain ⟨_, _, eh⟩ := h.core; obtain ⟨_, _, eg⟩ := g.core; rw [eg, eh]; exact ⟨_, _, rfl⟩
  ctx := fun x => by obtain ⟨_, eh⟩ := h.ctx x; obtain ⟨_, eg⟩ := g.ctx x; rw [eg, eh]; exact ⟨_, rfl⟩

theorem freeCtx (h : MarksOnly k s t) : t.freeCtx k = s.freeCtx k := by
  have hx (x : Nat) : (!(t.ctxAt k x).occupied && !genHeld (t.ctxAt k x) && (t.ctxAt k x).turned != some (t.core k).cycle)
      = (!(s.ctxAt k x).occupied && !genHeld (s.ctxAt k x) && (s.ctxAt k x).turned != some (s.core k).cycle) := by
    obtain ⟨_, e⟩ := h.ctx x; obtain ⟨_, _, ec⟩ := h.core; rw [e, ec]; rfl
  exact congrArg (List.find? · _) (funext hx)

end MarksOnly

theorem markHeld_marks (s : State) (k : Nat) : MarksOnly k s (s.markHeld k) := by
  refine foldl_rel MarksOnly.refl MarksOnly.trans (fun s x => ?_) _ s
  extract_lets t
  split
  · refine ⟨⟨_, rfl⟩, ⟨_, _, by rw [core_mapNi, setCtxAt, core_setCore]⟩, fun y => ?_⟩
    have h : ((s.setCtxAt k x { t with withheld := true }).mapNi k fun ni => { ni with genhold := sat32 (ni.genhold + 1) }).ctxAt k y
        = (s.setCtxAt k x { t with withheld := true }).ctxAt k y := by simp only [ctxAt, core_mapNi]
    by_cases e : y = x
    · subst e; exact ⟨true, by rw [h, ctxAt_setCtxAt]⟩
    · exact ⟨_, h.trans (ctxAt_setCtxAt_other _ _ _ _ _ _ (.inr e))⟩
  · exact .refl s

end State

/-! The start of a task (R23, R29). -/

/-- The registers of a new task that R29 gives (R61). -/
theorem startRegs_get (img : Image) (t : Team) (m : Message) (va x : Nat) :
    let g := fun n => (Sparse.get {} (startRegs img t m va x) n : Reg)
    g 1 = { val := m.a1 } ∧ g 2 = { val := m.a2 } ∧ g 3 = { val := m.a3 } ∧ g 4 = { val := m.a4 }
      ∧ g 5 = (if m.cap.tag then capReg m.cap else {}) ∧ g 6 = capReg t.tableCap
      ∧ g 7 = capReg (capOver [pLD, pST, pLDC, pSTC, pSYNC] va (shareBytes img)) ∧ ∀ n, 8 ≤ n → n ≠ 61 → g n = {} := by
  intro g
  refine ⟨rfl, rfl, rfl, rfl, rfl, rfl, rfl, fun n hn h61 => ?_⟩
  have low : (1 : Nat) ≠ n ∧ 2 ≠ n ∧ 3 ≠ n ∧ 4 ≠ n ∧ 5 ≠ n ∧ 6 ≠ n ∧ 7 ≠ n ∧ 61 ≠ n := by omega
  simp only [g, startRegs]
  cases stackOf img.regions 0 <;> simp [Sparse.get, low]

/-- A valid entry of the handler table starts its task: the context is that of R61, and the entry leaves the queue. -/
theorem startTask_started {s : State} {k x uid : Nat} {t : Team} {e : QEntry}
    (hh : e.msg.handler < (s.imageOf t).handlers.length)
    (hw : (s.readWord (teamStore + uid * 2 ^ 32 + 2 ^ 28 + 8 * e.msg.handler)).getLsbD 63 = true) :
    let u := s.startTask k x uid t e
    let pc := BitVec.ofNat 64 (t.base
      + 4 * ((s.readWord (teamStore + uid * 2 ^ 32 + 2 ^ 28 + 8 * e.msg.handler)).extractLsb' 0 32).toNat)
    let g := startRegs (s.imageOf t) t e.msg (shareVa uid (savedKey t (teamPos t k).1 (teamPos t k).2)) x
    SameStorage s u ∧ (∃ pend, u.ctxAt k x = { startCtx (s.ctxAt k x) e pc g (s.core k).cycle with pend })
      ∧ (u.core k).ni.queue = (s.core k).ni.queue.erase e ∧ (u.core k).dispatched = some (s.core k).cycle := by
  intro u pc g
  let w := s.mapNi k fun ni => { ni with queue := ni.queue.erase e }
  let v := (w.setCtxAt k x (startCtx (w.ctxAt k x) e pc g (w.core k).cycle)).mapCore k fun c => { c with dispatched := some c.cycle }
  have hok : (decide (e.msg.handler < (s.imageOf t).handlers.length)
      && (s.readWord (teamStore + uid * 2 ^ 32 + 2 ^ 28 + 8 * e.msg.handler)).getLsbD 63) = true := by
    rw [hw, Bool.and_true]; exact decide_eq_true hh
  have hu : u = if e.msg.release then v.dropCopies k else v := by
    simp only [u, State.startTask, hok, if_true]; rfl
  have hv : State.CopiesOnly v u := by
    rw [hu]; split
    · exact v.dropCopies_copies k
    · exact .refl v
  have hw : w.core k = { s.core k with ni := { (s.core k).ni with queue := (s.core k).ni.queue.erase e } } := s.core_mapNi k _
  have old : w.ctxAt k x = s.ctxAt k x := by simp only [State.ctxAt, hw]
  have hc : v.core k = { w.core k with
      ctxs := Sparse.set (w.core k).ctxs x (startCtx (w.ctxAt k x) e pc g (w.core k).cycle), dispatched := some (w.core k).cycle } :=
    (State.core_mapCore _ _ _).trans (by simp only [State.setCtxAt, State.core_setCore])
  have hx : v.ctxAt k x = startCtx (s.ctxAt k x) e pc g (s.core k).cycle := by
    rw [State.ctxAt, hc, old, hw]; exact Sparse.get_set_same _ _ _ _
  refine ⟨.trans ⟨fun _ => rfl, rfl, rfl⟩ hv.sameStorage, ?_, ?_, ?_⟩
  · obtain ⟨pend, h⟩ := hv.ctxAt k x
    exact ⟨pend, by rw [h, hx]⟩
  · rw [hv.ni, hc, hw]
  · rw [hv.dispatched, hc, hw]

/-- DISPATCH starts the task of the message picked in the lowest free context (R29, R378, R379). -/
theorem dispatch_starts {s : State} {k x uid : Nat} {t : Team} {e : QEntry} (hk : (s.core k).team = some uid)
    (ht : s.teamAt k = some t) (hs : t.state = .placed ∨ t.state = .replay) (hstop : (s.core k).dispatchStop = false)
    (hf : (s.core k).frozen = false) (hl : (s.core k).lost = 0) (hd : (s.core k).dispatched ≠ some (s.core k).cycle)
    (hp : (s.core k).pick = some e) (hpo : e.poisoned = false) (hx : s.freeCtx k = some x) :
    exec (.dispatch k) s = .next ((s.markHeld k).startTask k x uid t e) := by
  have hs' : ¬(t.state ≠ .placed ∧ t.state ≠ .replay) := by tauto
  simp [exec_dispatch, execDispatch, hk, ht, hstop, hf, hl, hd, hs', hp, hpo, (s.markHeld_marks k).freeCtx, hx]

theorem dispatch_once {s : State} {k : Nat} (h : (s.core k).dispatched = some (s.core k).cycle) :
    exec (.dispatch k) s = .next s := by
  simp only [exec_dispatch, execDispatch]
  split
  · exact if_pos (by simp [h])
  · rfl

/-! PROMOTION (R378). -/

/-- An entry put by age stands behind entries of its class that are no younger, and ahead of its class's next younger one. -/
theorem placeByAge_split (e : QEntry) (l : List QEntry) : ∃ a b, a ++ b = l ∧ placeByAge e l = a ++ e :: b
    ∧ (∀ p ∈ a, p.cls = e.cls → p.accepted ≤ e.accepted) ∧ ∀ p ∈ b.head?, p.cls = e.cls ∧ e.accepted < p.accepted := by
  induction l with
  | nil => exact ⟨[], [], rfl, rfl, by simp, by simp⟩
  | cons q l ih =>
    by_cases h : q.cls = e.cls ∧ e.accepted < q.accepted
    · exact ⟨[], q :: l, rfl, if_pos h, by simp, by simpa using h⟩
    · obtain ⟨a, b, hl, hp, ha, hb⟩ := ih
      refine ⟨q :: a, b, by simp [hl], (if_neg h).trans (by rw [hp]; rfl), ?_, hb⟩
      exact List.forall_mem_cons.2 ⟨fun hc => not_lt.1 fun hlt => h ⟨hc, hlt⟩, ha⟩

/-- The queue after PROMOTION of a message. -/
def promoted (now : Nat) (id : Word) (l : List QEntry) : List QEntry :=
  match l.find? (·.msg.id == id) with
  | none => l
  | some e => if e.cls < 3 ∧ e.moved + 65536 ≤ now then placeByAge { e with cls := e.cls + 1, moved := now } (l.erase e) else l

theorem promotion_eq (s : State) (k : Nat) (id : Word) : exec (.promotion k id) s =
    .next ((s.mapNi k fun ni => { ni with queue := promoted (s.core k).cycle id (s.core k).ni.queue }).push (.dispatch k)) := rfl

theorem promoted_first {now : Nat} {id : Word} {q : QEntry} {pre post : List QEntry} (hq : q.msg.id = id)
    (hpre : ∀ p ∈ pre, p.msg.id ≠ id) : promoted now id (pre ++ q :: post) =
      if q.cls < 3 ∧ q.moved + 65536 ≤ now then placeByAge { q with cls := q.cls + 1, moved := now } (pre ++ post)
      else pre ++ q :: post := by
  have first : (pre ++ q :: post).find? (·.msg.id == id) = some q := by
    rw [List.find?_append, List.find?_eq_none.2 fun p hp => by simpa using hpre p hp]; simp [hq]
  have rest : (pre ++ q :: post).erase q = pre ++ post := by
    rw [List.erase_append_right _ fun h => hpre q h hq, List.erase_cons_head]
  simp only [promoted, first, rest]

end Sys2Proof.Machine
end

section
/-!
SUPPORT. Register writes of a context (R81, R183), the message that a WAITM takes (R249), and the ends of parked waits (R33, R267).
-/
namespace Sys2Proof.Machine

/-- A register with no taint keeps its value where slots leave the taint of every register. -/
theorem Ctx.gr_mapVals {t : Ctx} {b : BitVec 8} {n : Nat} {g : Sparse Reg}
    (hg : g = Sparse.mapVals (fun r => { r with taint := r.taint &&& ~~~b }) t.g) (h : (t.gr n).taint = 0) :
    ({ t with g } : Ctx).gr n = t.gr n := by
  unfold gr at h ⊢
  split
  · rfl
  next hn =>
    rw [if_neg hn] at h
    rw [hg, Sparse.get_mapVals _ _ _ _ (by simp), h]
    generalize Sparse.get {} t.g n = r at h ⊢
    obtain ⟨v, tag, desc, taint⟩ := r
    simp_all

namespace State

/-- `t` is `s` but for tiles of core `k` and the registers and pending deposits of its context `x`, in which an untainted register
keeps its value. -/
structure SlotsOnly (k x : Nat) (s t : State) : Prop where
  rest : ∃ cores, t = { s with cores }
  core : ∃ ctxs tiles, t.core k = { s.core k with ctxs, tiles }
  ctx : ∃ g v m heldB pend slots slot7, t.ctxAt k x = { s.ctxAt k x with g, v, m, heldB, pend, slots, slot7 }
  reg : ∀ n, ((s.ctxAt k x).gr n).taint = 0 → (t.ctxAt k x).gr n = (s.ctxAt k x).gr n

namespace SlotsOnly
variable {k x : Nat} {s t u : State}

theorem refl (s : State) : SlotsOnly k x s s := ⟨⟨_, rfl⟩, ⟨_, _, rfl⟩, ⟨_, _, _, _, _, _, _, rfl⟩, fun _ _ => rfl⟩
theorem trans (h : SlotsOnly k x s t) (g : SlotsOnly k x t u) : SlotsOnly k x s u where
  rest := by obtain ⟨_, rfl⟩ := h.rest; obtain ⟨_, rfl⟩ := g.rest; exact ⟨_, rfl⟩
  core := by obtain ⟨_, _, eh⟩ := h.core; obtain ⟨_, _, eg⟩ := g.core; rw [eg, eh]; exact ⟨_, _, rfl⟩
  ctx := by
    obtain ⟨_, _, _, _, _, _, _, eh⟩ := h.ctx; obtain ⟨_, _, _, _, _, _, _, eg⟩ := g.ctx
    rw [eg, eh]; exact ⟨_, _, _, _, _, _, _, rfl⟩
  reg := fun n hn => (g.reg n (by rw [h.reg n hn, hn])).trans (h.reg n hn)

end SlotsOnly

/-- An update of one context's registers and pending deposits, and of its core's tiles. -/
theorem setCore_slots {s : State} {k x : Nat} {t' : Ctx} {tiles : Sparse Tile}
    (ht : ∃ g v m heldB pend slots slot7, t' = { s.ctxAt k x with g, v, m, heldB, pend, slots, slot7 })
    (hr : ∀ n, ((s.ctxAt k x).gr n).taint = 0 → t'.gr n = (s.ctxAt k x).gr n) :
    SlotsOnly k x s (s.setCore k { s.core k with ctxs := Sparse.set (s.core k).ctxs x t', tiles }) := by
  have hx : (s.setCore k { s.core k with ctxs := Sparse.set (s.core k).ctxs x t', tiles }).ctxAt k x = t' := by
    rw [ctxAt, core_setCore]; exact Sparse.get_set_same _ _ _ _
  exact ⟨⟨_, rfl⟩, ⟨_, _, core_setCore _ _ _⟩, by rw [hx]; exact ht, fun n hn => by rw [hx]; exact hr n hn⟩

theorem bindSlot_slots (s : State) (k x n : Nat) : SlotsOnly k x s (s.bindSlot k x n) := by
  unfold bindSlot; extract_lets t t' c
  split
  · exact setCore_slots ⟨_, _, _, _, _, _, _, rfl⟩ fun n _ => rfl
  · exact setCore_slots ⟨_, _, _, _, _, _, _, rfl⟩ fun n hn => Ctx.gr_mapVals rfl hn

theorem cancel_slots (s : State) (d : Dest) : SlotsOnly s.cur s.ctx s (s.cancel d) := by
  unfold cancel; extract_lets hit s₁
  split
  · exact .refl s
  have h₁ : SlotsOnly s.cur s.ctx s s₁ := setCore_slots ⟨_, _, _, _, _, _, _, rfl⟩ fun n _ => rfl
  suffices h : ∀ (l : List Nat) (v : State), v.cur = s.cur → v.ctx = s.ctx →
      SlotsOnly s.cur s.ctx v (l.foldl (fun s n => s.bindSlot s.cur s.ctx n) v) from h₁.trans (h _ s₁ rfl rfl)
  intro l
  induction l with
  | nil => exact fun v _ _ => .refl v
  | cons n l ih =>
    intro v hc hx
    have hb := v.bindSlot_slots s.cur s.ctx n
    obtain ⟨cores, e⟩ := hb.rest
    rw [List.foldl_cons, hc, hx]
    exact hb.trans (ih _ (by rw [e]; exact hc) (by rw [e]; exact hx))

/-! Writes of general registers (R183). -/


/-- `t` is `s` but for tiles of the issuing core and registers and pending deposits of the issuing context. -/
structure RegsOnly (s t : State) : Prop where
  rest : ∃ cores, t = { s with cores }
  core : ∃ ctxs tiles, t.core s.cur = { s.core s.cur with ctxs, tiles }
  task : ∃ g v m heldB pend slots slot7, t.task = { s.task with g, v, m, heldB, pend, slots, slot7 }

theorem RegsOnly.ni {s t : State} (h : RegsOnly s t) : (t.core s.cur).ni = (s.core s.cur).ni := by
  obtain ⟨_, _, e⟩ := h.core; rw [e]

theorem RegsOnly.refl (s : State) : RegsOnly s s := ⟨⟨_, rfl⟩, ⟨_, _, rfl⟩, _, _, _, _, _, _, _, rfl⟩
theorem RegsOnly.trans {s t u : State} (h : RegsOnly s t) (g : RegsOnly t u) : RegsOnly s u := by
  obtain ⟨⟨_, rfl⟩, ⟨_, _, ch⟩, _, _, _, _, _, _, _, th⟩ := h
  obtain ⟨⟨_, rfl⟩, ⟨_, _, cg⟩, _, _, _, _, _, _, _, tg⟩ := g
  exact ⟨⟨_, rfl⟩, ⟨_, _, cg.trans (by rw [ch])⟩, _, _, _, _, _, _, _, tg.trans (by rw [th])⟩

theorem SlotsOnly.regs {s t : State} (h : SlotsOnly s.cur s.ctx s t) : RegsOnly s t := by
  obtain ⟨⟨_, rfl⟩, hc, hx, -⟩ := h; exact ⟨⟨_, rfl⟩, hc, hx⟩

theorem mapTask_regs {s : State} {f : Ctx → Ctx}
    (h : ∃ g v m heldB pend slots slot7, f s.task = { s.task with g, v, m, heldB, pend, slots, slot7 }) : RegsOnly s (s.mapTask f) :=
  ⟨⟨_, rfl⟩, ⟨_, _, core_setCore _ _ _⟩, by rw [task_mapTask]; exact h⟩

end State

theorem Ctx.gr_putG_same (t : Ctx) {n : Nat} (hn : n ≠ 0) (r : Reg) : (t.putG n r).gr n = r := by
  rw [putG, if_neg hn, gr, if_neg hn]; exact Sparse.get_set_same _ _ _ _

theorem Ctx.gr_putG_other (t : Ctx) {n j : Nat} (hj : j ≠ n) (r : Reg) : (t.putG n r).gr j = t.gr j := by
  unfold putG
  split
  · rfl
  · unfold gr; rw [Sparse.get_set_other _ _ _ _ _ hj]

namespace State
section
variable (s : State) {n : Nat} (hn : n ≠ 0) (r : Reg)
include hn

theorem writeG_eq : s.writeG n r = (s.cancel (.g n)).mapTask fun t => t.putG n { r with taint := s.cancelTaint (.g n) r.taint } :=
  if_neg hn

/-- A register reads as an untainted value written to it (R183). -/
theorem gr_writeG_same (h : r.taint = 0) : (s.writeG n r).task.gr n = r := by
  obtain ⟨v, tag, desc, taint⟩ := r
  obtain rfl : taint = 0 := h
  rw [writeG_eq s hn, task_mapTask, Ctx.gr_putG_same _ hn]
  simp [cancelTaint, Ctx.liveTaint]
end

/-- A write of a general register changes registers and pending deposits alone (R81, R183). -/
theorem writeG_regs (s : State) (n : Nat) (r : Reg) : RegsOnly s (s.writeG n r) := by
  by_cases hn : n = 0
  · subst hn; exact .refl s
  · rw [writeG_eq s hn]
    exact (s.cancel_slots _).regs.trans (mapTask_regs ⟨_, _, _, _, _, _, _, if_neg hn⟩)

/-- A write keeps every other register that holds no taint. -/
theorem gr_writeG_other {s : State} {n j : Nat} {r : Reg} (r' : Reg) (hj : j ≠ n) (h : s.task.gr j = r) (ht : r.taint = 0) :
    (s.writeG n r').task.gr j = r := by
  by_cases hn : n = 0
  · subst hn; exact h
  · have hc := s.cancel_slots (.g n)
    have ht' : (s.cancel (.g n)).task = (s.cancel (.g n)).ctxAt s.cur s.ctx := by obtain ⟨_, e⟩ := hc.rest; rw [e]; rfl
    rw [writeG_eq s hn, task_mapTask, Ctx.gr_putG_other _ hj, ht']
    exact (hc.reg j (by rw [← h] at ht; exact ht)).trans h

/-- Writes of several registers. -/
def writeAllG (ws : List (Nat × Reg)) (s : State) : State := ws.foldl (fun s w => s.writeG w.1 w.2) s

theorem writeAllG_regs (ws : List (Nat × Reg)) (s : State) : RegsOnly s (writeAllG ws s) :=
  foldl_rel (α := Nat × Reg) (f := fun s w => s.writeG w.1 w.2) RegsOnly.refl RegsOnly.trans (fun s w => s.writeG_regs w.1 w.2) ws s

theorem gr_writeAllG_other {ws : List (Nat × Reg)} {s : State} {j : Nat} {r : Reg} (hj : j ∉ ws.map (·.1))
    (h : s.task.gr j = r) (ht : r.taint = 0) : (writeAllG ws s).task.gr j = r := by
  induction ws generalizing s with
  | nil => exact h
  | cons w ws ih =>
    simp only [List.map_cons, List.mem_cons, not_or] at hj
    exact ih hj.2 (gr_writeG_other _ hj.1 h ht)

/-- Different registers written with untainted values read as those values. -/
theorem gr_writeAllG {ws : List (Nat × Reg)} {s : State} (hk : (ws.map (·.1)).Nodup) (h : ∀ w ∈ ws, w.1 ≠ 0 ∧ w.2.taint = 0) :
    ∀ w ∈ ws, (writeAllG ws s).task.gr w.1 = w.2 := by
  induction ws generalizing s with
  | nil => simp
  | cons v ws ih =>
    obtain ⟨hv, hk⟩ := List.nodup_cons.1 hk
    obtain ⟨⟨hn, ht⟩, h⟩ := List.forall_mem_cons.1 h
    exact List.forall_mem_cons.2 ⟨gr_writeAllG_other (ws := ws) (s := s.writeG v.1 v.2) hv (gr_writeG_same s hn _ ht) ht, ih hk h⟩

theorem ni_setCtxAt (s : State) (k x j : Nat) (t : Ctx) : ((s.setCtxAt k x t).core j).ni = (s.core j).ni := by
  by_cases e : j = k
  · subst e; rw [setCtxAt, core_setCore]
  · rw [setCtxAt, core_setCore_other _ _ _ _ e]
theorem ni_mapTask (s : State) (f : Ctx → Ctx) (j : Nat) : ((s.mapTask f).core j).ni = (s.core j).ni := s.ni_setCtxAt _ _ _ _

/-! A message taken (R249). -/

/-- The registers of a message that a task takes (R249). -/
def msgRegs (d : Nat) (m : Message) : List (Nat × Reg) :=
  [(d, { val := m.a1 }), (d + 1, { val := m.a2 }), (d + 2, { val := m.a3 }), (d + 3, { val := m.a4 }),
   (d + 4, if m.cap.tag then capReg m.cap else {})]

theorem msgRegs_distinct (d : Nat) (m : Message) : ((msgRegs d m).map (·.1)).Nodup := by simp [msgRegs]

theorem msgRegs_untainted {d : Nat} (hd : 0 < d) (m : Message) : ∀ w ∈ msgRegs d m, w.1 ≠ 0 ∧ w.2.taint = 0 := by
  have hcap : (if m.cap.tag then capReg m.cap else {} : Reg).taint = 0 := by split <;> rfl
  simp only [msgRegs, List.forall_mem_cons]
  exact ⟨⟨hd.ne', trivial⟩, ⟨by omega, trivial⟩, ⟨by omega, trivial⟩, ⟨by omega, trivial⟩, ⟨by omega, hcap⟩, by simp⟩

/-- The state in which the registers of a message taken are written. -/
def taking (s : State) (e : QEntry) : State :=
  (s.mapNi s.cur fun ni => { ni with queue := ni.queue.erase e }).mapTask fun t =>
    { t with taken := t.taken ++ [e], window := e.msg.payload, park := none }

theorem taking_task (s : State) (e : QEntry) : (s.taking e).task =
    { s.task with taken := s.task.taken ++ [e], window := e.msg.payload, park := none } := by
  have h : (s.mapNi s.cur fun ni => { ni with queue := ni.queue.erase e }).task = s.task := by
    unfold task ctxAt; rw [show (s.mapNi s.cur _).cur = s.cur from rfl, core_mapNi]; rfl
  rw [taking, task_mapTask, h]

theorem queue_taking (s : State) (e : QEntry) : ((s.taking e).core s.cur).ni.queue = (s.core s.cur).ni.queue.erase e := by
  rw [taking, ni_mapTask, core_mapNi]

theorem takeMsg_eq (s : State) (d : Nat) (e : QEntry) : s.takeMsg d e =
    if e.msg.release then (writeAllG (msgRegs d e.msg) (s.taking e)).dropCopies (writeAllG (msgRegs d e.msg) (s.taking e)).cur
    else writeAllG (msgRegs d e.msg) (s.taking e) := rfl

theorem advance_unframed {s : State} (h : s.task.frame = none) :
    s.advance = s.mapTask fun t => { t with pc := t.pc + 4, retired := t.retired + 1 } := by
  unfold advance; rw [show runningFrame s.task = none by simp [runningFrame, h]]

/-- A task outside a repeat frame goes on after register writes and a drop of remote copies. -/
theorem advance_written {s t u : State} (hw : RegsOnly s t) (hm : CopiesOnly t u) (hf : s.task.frame = none) :
    u.advance.cur = s.cur ∧ u.advance.ctx = s.ctx ∧ SameStorage s u.advance
      ∧ (u.advance.core s.cur).ni = (s.core s.cur).ni
      ∧ ∃ v m heldB pend slots slot7, u.advance.task = { s.task with
          g := t.task.g, v, m, heldB, pend, slots, slot7, pc := s.task.pc + 4, retired := s.task.retired + 1 } := by
  have hni := hw.ni
  obtain ⟨⟨_, et⟩, -, g, v, m, heldB, pend, slots, slot7, hr⟩ := hw
  obtain ⟨_, _, eu⟩ := hm.rest
  have hcur : u.cur = s.cur := by rw [eu, et]
  have hctx : u.ctx = s.ctx := by rw [eu, et]
  have ht : t.ctxAt s.cur s.ctx = t.task := by rw [et]; rfl
  obtain ⟨pend', hp⟩ := hm.ctxAt s.cur s.ctx
  have hu : u.task = { t.task with pend := pend' } := by rw [task, hcur, hctx, hp, ht]
  rw [advance_unframed (s := u) (by rw [hu, hr]; exact hf)]
  refine ⟨hcur, hctx, ?_, ?_, v, m, heldB, pend', slots, slot7, ?_⟩
  · have hs : SameStorage s t := by rw [et]; exact ⟨fun _ => rfl, rfl, rfl⟩
    exact hs.trans (hm.sameStorage.trans ⟨fun _ => rfl, rfl, rfl⟩)
  · rw [ni_mapTask, hm.ni, hni]
  · rw [task_mapTask, hu, hr]

/-- A task outside a repeat frame has taken a message and goes on (R249). -/
theorem takeMsg_advance {s : State} {d : Nat} {e : QEntry} (hf : s.task.frame = none) :
    let u := (s.takeMsg d e).advance
    u.cur = s.cur ∧ u.ctx = s.ctx ∧ SameStorage s u ∧ (u.core s.cur).ni.queue = (s.core s.cur).ni.queue.erase e
      ∧ u.task.park = none ∧ u.task.pc = s.task.pc + 4 ∧ u.task.window = e.msg.payload ∧ u.task.taken = s.task.taken ++ [e]
      ∧ (0 < d → ∀ w ∈ msgRegs d e.msg, u.task.gr w.1 = w.2) := by
  intro u
  have hreg (hd : 0 < d) := gr_writeAllG (s := s.taking e) (msgRegs_distinct d e.msg) (msgRegs_untainted hd e.msg)
  have hw := writeAllG_regs (msgRegs d e.msg) (s.taking e)
  have hm : CopiesOnly (writeAllG (msgRegs d e.msg) (s.taking e)) (s.takeMsg d e) := by
    rw [takeMsg_eq]; split
    · exact dropCopies_copies _ _
    · exact .refl _
  generalize writeAllG (msgRegs d e.msg) (s.taking e) = t at hreg hw hm
  obtain ⟨hcur, hctx, same, hni, _, _, _, _, _, _, htask⟩ := advance_written hw hm (by rw [taking_task]; exact hf)
  have hq := s.queue_taking e
  rw [taking_task] at htask
  refine ⟨hcur, hctx, .trans ⟨fun _ => rfl, rfl, rfl⟩ same, (congrArg NI.queue hni).trans hq, ?_, ?_, ?_, ?_, fun hd w hmem => ?_⟩
  · exact congrArg Ctx.park htask
  · exact congrArg Ctx.pc htask
  · exact congrArg Ctx.window htask
  · exact congrArg Ctx.taken htask
  · rw [← hreg hd w hmem]; simp only [Ctx.gr, u, htask]

end State
end Sys2Proof.Machine
end

section
/-!
SUPPORT. Wakes (R33, R43, R249, R267, R402) and transmission (R28, R36, R130, R137, R140, R246).
-/
namespace Sys2Proof.Machine

namespace State

/-! The issuing core and context are read by no other context, and by an unlisted core's CYCLE alone. -/

theorem ctxAt_focus (s : State) (cur ctx k x : Nat) : ({ s with cur, ctx } : State).ctxAt k x = s.ctxAt k x :=
  congrArg (Sparse.get ({} : Ctx) · x)
    (Sparse.get_default (d := ({ s with cur, ctx } : State).idleCore k) (d' := s.idleCore k) Core.ctxs rfl s.cores k)
theorem ni_focus (s : State) (cur ctx k : Nat) : (({ s with cur, ctx } : State).core k).ni = (s.core k).ni :=
  Sparse.get_default (d := ({ s with cur, ctx } : State).idleCore k) (d' := s.idleCore k) Core.ni rfl s.cores k

theorem ctxAt_asCtx (s : State) (k x : Nat) (f : State → State) (j y : Nat) :
    (s.asCtx k x f).ctxAt j y = (f { s with cur := k, ctx := x }).ctxAt j y := ctxAt_focus _ _ _ _ _
theorem ni_asCtx (s : State) (k x : Nat) (f : State → State) (j : Nat) :
    ((s.asCtx k x f).core j).ni = ((f { s with cur := k, ctx := x }).core j).ni := ni_focus _ _ _ _

end State

section
variable {s : State} {k x : Nat}

/-- A parked WAITM takes the message picked for it, and goes on (R249). -/
theorem parkResume_waitm {d h : Nat} {e : QEntry} (hp : (s.ctxAt k x).park = some (.waitm d h))
    (he : State.waitmPick (s.core k).ni.queue h = some e) (hpo : e.poisoned = false) (hf : (s.ctxAt k x).frame = none) :
    Completes (exec (.parkResume k x) s) fun u => SameStorage s u
      ∧ (u.core k).ni.queue = (s.core k).ni.queue.erase e ∧ (u.ctxAt k x).park = none ∧ (u.ctxAt k x).pc = (s.ctxAt k x).pc + 4
      ∧ (u.ctxAt k x).window = e.msg.payload ∧ (u.ctxAt k x).taken = (s.ctxAt k x).taken ++ [e]
      ∧ (0 < d → ∀ w ∈ State.msgRegs d e.msg, (u.ctxAt k x).gr w.1 = w.2) := by
  have step : exec (.parkResume k x) s = .next ((s.asCtx k x fun s => (s.takeMsg d e).advance).wakeWaitm k h) := by
    simp only [exec_parkResume, execParkResume, hp, he, hpo]; rfl
  have hv : ({ s with cur := k, ctx := x } : State).task = s.ctxAt k x := s.ctxAt_focus k x k x
  have hq : (({ s with cur := k, ctx := x } : State).core k).ni.queue = (s.core k).ni.queue := congrArg NI.queue (s.ni_focus k x k)
  obtain ⟨hcur, hctx, same, queue, park, pc, window, taken, regs⟩ :=
    State.takeMsg_advance (s := { s with cur := k, ctx := x }) (d := d) (e := e) (by rw [hv]; exact hf)
  have hw := (s.asCtx k x fun s => (s.takeMsg d e).advance).wakeWaitm_fabric k h
  have task : ((s.asCtx k x fun s => (s.takeMsg d e).advance).wakeWaitm k h).ctxAt k x =
      ((({ s with cur := k, ctx := x } : State).takeMsg d e).advance).task := by
    rw [State.ctxAt, hw.core, ← State.ctxAt, State.ctxAt_asCtx, State.task, hcur, hctx]
  rw [hv] at pc taken
  rw [hq] at queue
  refine ⟨_, step, .trans same (hw.sameStorage), ?_, ?_⟩
  · rw [hw.core, State.ni_asCtx]; exact queue
  · rw [task]; exact ⟨park, pc, window, taken, regs⟩

theorem parkResume_bwait {d st : Nat} (hp : (s.ctxAt k x).park = some (.bwait d)) (hf : (s.core k).frozen = false)
    (hm : (s.core k).poisonMark = false) (hb : (s.ctxAt k x).barr.bind (·.status) = some st) (h3 : st ≠ 3) :
    exec (.parkResume k x) s =
      .next ((s.mapCtx k x fun t => { t with park := none }).asCtx k x fun s => s.bwaitDone d st) := by
  simp [exec_parkResume, execParkResume, hp, hf, hm, hb]

theorem parkResume_stream {b : Nat} (hp : (s.ctxAt k x).park = some (.pop b) ∨ (s.ctxAt k x).park = some (.append b)) :
    exec (.parkResume k x) s = .next (s.mapCtx k x fun t => { t with park := none }) := by
  obtain hp | hp := hp <;> simp only [exec_parkResume, execParkResume, hp]

theorem idleWake_wakes (h : (s.ctxAt k x).idle.isSome = true) : exec (.idleWake k x) s =
    .next (s.asCtx k x fun s => (s.mapTask fun t => { t with idle := none }).advance) := by
  simp only [exec_idleWake, execIdleWake]
  rw [if_neg (by simpa [Option.isSome_iff_ne_none] using h)]

theorem budget_traps (ho : (s.ctxAt k x).occupied = true) (hb : (s.imageAt k).budget < (s.ctxAt k x).budget)
    (hh : (s.ctxAt k x).hold = none) (hw : (s.ctxAt k x).wait ≠ some .xend) :
    exec (.budget k x) s = .next (s.takeTrap k x cBUDGET 0 (State.instrPc (s.ctxAt k x)) 0 false) := by
  simp [exec_budget, execBudget, ho, Nat.not_le.2 hb, hh, hw]
end

/-! NI_TRANSMIT (R28, R36, R130). -/

section
variable {s : State} {k x after : Nat} {eff : Effect} {ended : Bool}
  (hp : ∀ p ∈ (s.ctxAt k x).pend, p.seq < after → p.rel = none ∧ p.acq = none ∧ p.kind ≠ .fenceSs)
  (hr : s.retryRoom k ≠ 0) (hh : (s.ctxAt k x).sendHold = none)
include hp hr hh

/-- Nothing holds back the effect that a context sends next. -/
theorem transmit_open : ((s.ctxAt k x).pend.any (fun p => p.seq < after && (p.rel.isSome || p.kind == .fenceSs || p.acq.isSome))
    || decide (s.retryRoom k = 0) || (s.ctxAt k x).sendHold.isSome) = false := by
  have waits : (s.ctxAt k x).pend.any (fun p => p.seq < after && (p.rel.isSome || p.kind == .fenceSs || p.acq.isSome)) = false := by
    rw [List.any_eq_false]
    intro p hp'
    by_cases h : p.seq < after
    · obtain ⟨hrel, hacq, hk⟩ := hp p hp' h
      simp [hrel, hacq, hk]
    · simp [h]
  rw [waits, hh, decide_eq_false hr]; rfl

end

section
variable {s s' : State} {k x after : Nat} {ended : Bool}
  (open_ : ((s.ctxAt k x).pend.any (fun p => p.seq < after && (p.rel.isSome || p.kind == .fenceSs || p.acq.isSome))
    || decide (s.retryRoom k = 0) || (s.ctxAt k x).sendHold.isSome) = false)
include open_

theorem niTransmit_fifoHead {bk n : Nat} (ho : State.nextOut (s.ctxAt k x) = some ⟨.fifoHead bk n, true, after, ended⟩) :
    exec (.niTransmit k x) s = .next ((s.moveFifo bk true n).sent k x) := by
  simp only [exec_niTransmit, execNiTransmit, ho]
  exact if_neg (Bool.eq_false_iff.1 open_)

theorem niTransmit_fifoTail {bk n : Nat} (ho : State.nextOut (s.ctxAt k x) = some ⟨.fifoTail bk n, true, after, ended⟩) :
    exec (.niTransmit k x) s = .next ((s.moveFifo bk false n).sent k x) := by
  simp only [exec_niTransmit, execNiTransmit, ho]
  exact if_neg (Bool.eq_false_iff.1 open_)

theorem niTransmit_put {q : PutReq} (ho : State.nextOut (s.ctxAt k x) = some ⟨.put q, true, after, ended⟩) :
    exec (.niTransmit k x) s = .next (s.sendPut k x after q) := by
  simp only [exec_niTransmit, execNiTransmit, ho]
  exact if_neg (Bool.eq_false_iff.1 open_)

section
variable {m : Message} (ho : State.nextOut (s.ctxAt k x) = some ⟨.msg m, true, after, ended⟩)
  (hm : s.mayRoute (agentNi k) (agentNi m.dst) = true)
include ho hm

theorem niTransmit_msg (hrel : m.release = false) : exec (.niTransmit k x) s = .next ((s.niSend k m).sent k x) := by
  simp only [exec_niTransmit, execNiTransmit, ho, hm, hrel]
  exact if_neg (Bool.eq_false_iff.1 open_)

/-- A SENDR leaves once what came before it is performed and the written peers are flushed (R137). -/
theorem niTransmit_release (hrel : m.release = true) (hready : s.sendrReady k x after = (s', true)) :
    exec (.niTransmit k x) s = .next ((s'.niSend k m).sent k x) := by
  simp only [exec_niTransmit, execNiTransmit, ho, hm, hrel, hready]
  exact if_neg (Bool.eq_false_iff.1 open_)
end

section
variable {r : HodReq} (ho : State.nextOut (s.ctxAt k x) = some ⟨.hod r, true, after, ended⟩)
  (hready : s.sendrReady k x after = (s', true))
include ho hready

/-- A bag is split at the core's own NI (R256). -/
theorem niTransmit_bag (hc : r.kind ≠ .copy) (hf : r.kind ≠ .fill) : exec (.niTransmit k x) s =
    .next ((s'.push (.hodRequest { r with hod := some (s'.hodHome r) })).sent k x) := by
  simp only [exec_niTransmit, execNiTransmit, ho, hready]
  exact (if_neg (Bool.eq_false_iff.1 open_)).trans (if_pos (by simp [hc, hf]))

/-- Any other request goes to its hod (R253). -/
theorem niTransmit_hod (hk : r.kind = .copy ∨ r.kind = .fill)
    (hm : s'.mayRoute (agentNi k) (agentHod (s'.hodHome r).1 (s'.hodHome r).2) = true) : exec (.niTransmit k x) s =
    .next ((s'.route (agentNi k) (agentHod (s'.hodHome r).1 (s'.hodHome r).2) 1 0
      (.hodRequest { r with hod := some (s'.hodHome r) })).sent k x) := by
  simp only [exec_niTransmit, execNiTransmit, ho, hready, hm]
  exact (if_neg (Bool.eq_false_iff.1 open_)).trans (if_neg (by obtain h | h := hk <;> simp [h]))
end
end

end Sys2Proof.Machine
end

section
/-!
CERTIFICATE. Dispatch, wakes and transmission.
-/
namespace Sys2Proof.Machine

/-- Settles O47: a dispatch is the start of a task in the marked state, a WAITM takes its message as the task itself would, and an
effect leaves by the case of what it is, once `transmit_open` finds nothing in its way. -/
theorem dispatchAndTransmission : Obligations.DispatchAndTransmission := by
  unfold Obligations.DispatchAndTransmission
  refine ⟨fun s k x uid d h t e id => ?_, fun s s' k x after eff => ?_⟩
  · intro c m img w share
    refine ⟨fun hk ht hs hstop hf hl hd hp hpo hx hh hw => ?_, dispatch_once, ?_, budget_traps,
      fun hp he hpo hf => ?_, fun st hp hf hm hb h3 => parkResume_bwait hp hf hm hb h3, fun b hp => parkResume_stream hp, idleWake_wakes⟩
    · have hm := s.markHeld_marks k
      obtain ⟨_, er⟩ := hm.rest
      obtain ⟨_, _, ec⟩ := hm.core
      obtain ⟨_, ex⟩ := hm.ctx x
      have hh' : m.handler < ((s.markHeld k).imageOf t).handlers.length := by rw [er]; exact hh
      have hw' : ((s.markHeld k).readWord (teamStore + uid * 2 ^ 32 + 2 ^ 28 + 8 * m.handler)).getLsbD 63 = true := by
        rw [er]; exact hw
      obtain ⟨same, ⟨_, hv⟩, queue, disp⟩ := startTask_started (k := k) (x := x) hh' hw'
      refine ⟨_, dispatch_starts hk ht hs hstop hf hl hd hp hpo hx, ?_⟩
      dsimp only
      have hW : (s.markHeld k).readWord (teamStore + uid * 2 ^ 32 + 2 ^ 28 + 8 * m.handler) = w := by rw [er]; rfl
      have hI : (s.markHeld k).imageOf t = img := by rw [er]; rfl
      rw [hW, hI, ex] at hv
      generalize ((s.markHeld k).startTask k x uid t e).ctxAt k x = v at hv ⊢
      have gr (n : Nat) (hn : n ≠ 0) : v.gr n = Sparse.get {} (startRegs img t m share x) n := by
        rw [Ctx.gr, if_neg hn, hv]; rfl
      obtain ⟨g1, g2, g3, g4, g5, g6, g7, rest⟩ := startRegs_get img t m share x
      refine ⟨by rw [hv]; rfl, by rw [hv]; rfl, by rw [hv]; rfl, by rw [hv]; rfl, by rw [hv]; rfl, by rw [hv]; rfl,
        (gr 1 (by decide)).trans g1, (gr 2 (by decide)).trans g2, (gr 3 (by decide)).trans g3, (gr 4 (by decide)).trans g4,
        (gr 5 (by decide)).trans g5, (gr 6 (by decide)).trans g6, (gr 7 (by decide)).trans g7,
        fun n hn h61 => (gr n (by omega)).trans (rest n hn h61), fun n => by rw [hv]; rfl, by rw [hv]; rfl, by rw [hv]; rfl, ?_, ?_, ?_⟩
      · rw [queue, ec]
      · rw [disp, ec]
      · refine .trans ?_ same
        rw [er]; exact ⟨fun _ => rfl, rfl, rfl⟩
    · rw [promotion_eq]
      generalize hu : (s.mapNi k fun ni => { ni with queue := promoted (s.core k).cycle id (s.core k).ni.queue }).push (.dispatch k) = u
      have queue : (u.core k).ni.queue = promoted (s.core k).cycle id (s.core k).ni.queue := by
        rw [← hu, (State.push_fabric _ _).core, State.core_mapNi]
      refine ⟨u, rfl, by rw [← hu]; exact List.mem_append_right _ (List.mem_singleton_self _),
        by rw [← hu]; exact ⟨fun _ => rfl, rfl, rfl⟩, fun hn => by rw [queue, promoted, hn], fun q pre post hq hid hpre => ?_⟩
      rw [queue, hq, promoted_first hid hpre]
      split
      · exact placeByAge_split _ _
      · rfl
    · obtain ⟨u, hu, same, queue, park, pc, window, taken, regs⟩ := parkResume_waitm hp he hpo hf
      refine ⟨u, hu, park, pc, window, taken, fun hd _ => ?_, queue, same⟩
      have hregs := regs hd
      simp only [State.msgRegs, List.forall_mem_cons] at hregs
      obtain ⟨h0, h1, h2, h3, h4, -⟩ := hregs
      exact ⟨h0, h1, h2, h3, h4⟩
  · intro c ended ho hr hh hp go
    have open_ := transmit_open hp hr hh
    refine ⟨?_, ?_, ?_, ?_, fun hready => ⟨?_, ?_⟩⟩
    · rintro b n rfl; exact niTransmit_fifoHead open_ ho
    · rintro b n rfl; exact niTransmit_fifoTail open_ ho
    · rintro q rfl; exact niTransmit_put open_ ho
    · rintro m rfl hm hrel; exact niTransmit_msg open_ ho hm hrel
    · rintro m rfl hm hrel; exact niTransmit_release open_ ho hm hrel hready
    · rintro r rfl; exact ⟨niTransmit_bag open_ ho hready, niTransmit_hod open_ ho hready⟩

end Sys2Proof.Machine
end

section
/-!
SUPPORT. Banks and places (R50, R110, R373, R375): what the switch of a bank, a freed rectangle and a notice to refused senders leave
of the machine, and what placement loads.
-/
namespace Sys2Proof.Machine
namespace State

/-! Everything but the tables of teams, partitions and grids, and storage. -/

/-- `t` is `s` but for its cores, sites, agenda, banks and windows, and what it remembers of stores to code. -/
def PlacesOnly (s t : State) : Prop :=
  ∃ cores sites agenda banks windows codeOld codeStores, t = { s with cores, sites, agenda, banks, windows, codeOld, codeStores }

namespace PlacesOnly
variable {s t u : State}

theorem refl (s : State) : PlacesOnly s s := ⟨_, _, _, _, _, _, _, rfl⟩
theorem trans (h : PlacesOnly s t) (g : PlacesOnly t u) : PlacesOnly s u := by
  obtain ⟨_, _, _, _, _, _, _, rfl⟩ := h; obtain ⟨_, _, _, _, _, _, _, rfl⟩ := g; exact ⟨_, _, _, _, _, _, _, rfl⟩
theorem foldl {α : Type} {f : State → α → State} (h : ∀ s a, PlacesOnly s (f s a)) (l : List α) (s : State) :
    PlacesOnly s (l.foldl f s) := foldl_rel refl trans h l s

theorem teams (h : PlacesOnly s t) : t.teams = s.teams := by obtain ⟨_, _, _, _, _, _, _, rfl⟩ := h; rfl
theorem parts (h : PlacesOnly s t) : t.parts = s.parts := by obtain ⟨_, _, _, _, _, _, _, rfl⟩ := h; rfl
theorem grids (h : PlacesOnly s t) : t.grids = s.grids := by obtain ⟨_, _, _, _, _, _, _, rfl⟩ := h; rfl

end PlacesOnly

theorem FabricOnly.places {s t : State} (h : FabricOnly s t) : PlacesOnly s t := by
  obtain ⟨_, _, rfl⟩ := h; exact ⟨_, _, _, _, _, _, _, rfl⟩
theorem CopiesOnly.places {s t : State} (h : CopiesOnly s t) : PlacesOnly s t := by
  obtain ⟨_, _, rfl⟩ := h.rest; exact ⟨_, _, _, _, _, _, _, rfl⟩
theorem mapCore_places (s : State) (k : Nat) (f : Core → Core) : PlacesOnly s (s.mapCore k f) := ⟨_, _, _, _, _, _, _, rfl⟩
theorem setBank_places (s : State) (n : Nat) (b : Bank) : PlacesOnly s (s.setBank n b) := ⟨_, _, _, _, _, _, _, rfl⟩
theorem forgetCode_places (s : State) (p : Nat → Bool) : PlacesOnly s (s.forgetCode p) := ⟨_, _, _, _, _, _, _, rfl⟩

theorem drainWay_copies (s : State) (bk : Nat) : CopiesOnly s (s.drainWay bk).1 := by
  unfold drainWay; extract_lets site cl mine s₁
  change CopiesOnly s s₁
  simp only [s₁]; split
  · exact .refl s
  · exact (s.dropL1_copies _ _).trans (setClusterLines_copies _ _ _ _)

theorem switchBank_places (s : State) (bk : Nat) (w : Word) : PlacesOnly s (s.switchBank bk w) := by
  unfold switchBank; extract_lets b since s₁
  have h : PlacesOnly s s₁ := (s.mapSite_fabric _ _).places
  split
  · exact (h.trans (s₁.drainWay_copies bk).places).trans (setBank_places _ _ _)
  · exact h.trans (setBank_places _ _ _)

theorem noticeAll_places (s : State) (k : Nat) : PlacesOnly s (s.noticeAll k) :=
  (s.mapCore_places k _).trans (.foldl (α := Word × Nat × Nat) (fun s q => (s.sendRoom_fabric k q.2.2 q.1).places) _ _)

/-- A freed rectangle leaves the tables of teams, partitions and grids as they are (R375). -/
theorem unplace_places (s : State) (uid : Nat) (t : Team) : PlacesOnly s (s.unplace uid t) := by
  unfold unplace; extract_lets s₁ mine s₂ s₃
  have h₁ : PlacesOnly s s₁ := .foldl (fun s k => s.mapCore_places k _) _ _
  have h₃ : PlacesOnly s₁ s₃ := (s₁.forgetCode_places _).trans ⟨_, _, _, _, _, _, _, rfl⟩
  refine (h₁.trans h₃).trans (.foldl (fun s q => ?_) _ _)
  obtain ⟨bk, old⟩ := q
  dsimp only
  split
  · split
    · exact s.setBank_places _ _
    · exact .refl s
  · split
    · exact s.switchBank_places _ _
    · exact .refl s

/-! Teams through what placement loads (R375). -/

@[simp] theorem keepCode_teams (s : State) (ws : List (Nat × Byte)) : (s.keepCode ws).teams = s.teams := by
  unfold keepCode; extract_lets; split <;> rfl
@[simp] theorem load_teams (s : State) (a : Nat) (bs : List Byte) : (s.load a bs).teams = s.teams := s.keepCode_teams _
@[simp] theorem loadCap_teams (s : State) (a : Nat) (c : CapVal) : (s.loadCap a c).teams = s.teams := s.load_teams _ _
@[simp] theorem foldl_setTag_teams (f : Nat → Nat) (l : List Nat) (s : State) :
    (l.foldl (fun s g => s.setTag (f g) true) s).teams = s.teams := foldl_keeps State.teams (fun s g => s.setTag (f g) true) (fun _ _ => rfl) l s

@[simp] theorem placeCore_teams (s : State) (uid : Nat) (t : Team) (img : Image) (flags : List Nat) (k : Nat) :
    (s.placeCore uid t img flags k).teams = s.teams := by
  unfold placeCore
  rcases teamPos t k with ⟨x, y⟩
  dsimp (zeta := false) only
  extract_lets key share sv s₁ s₂
  have h₁ : s₁.teams = s.teams := by
    simp only [s₁]
    rcases share with - | w <;> rcases sv with - | c
    · rfl
    · rfl
    · exact s.load_teams _ _
    · exact foldl_setTag_teams _ _ _
  have h₂ : s₂.teams = s₁.teams := by
    simp only [s₂]
    rcases share with - | w
    · rfl
    · exact foldl_keeps State.teams _ (fun s ci => s.loadCap_teams _ _) _ _
  exact h₂.trans h₁

@[simp] theorem placeGroups_teams (s : State) (t : Team) (img : Image) : (s.placeGroups t img).teams = s.teams := by
  refine foldl_keeps State.teams _ (fun s c => ?_) _ s
  extract_lets
  split <;> rfl

@[simp] theorem placeFifos_teams (s : State) (uid : Nat) (t : Team) : (s.placeFifos uid t).teams = s.teams := by
  unfold placeFifos; extract_lets ws kept
  refine foldl_keeps State.teams _ (fun s q => ?_) _ s
  obtain ⟨w, b, cells, tags⟩ := q
  exact foldl_setTag_teams _ _ _

end State
end Sys2Proof.Machine
end

section
/-!
SUPPORT. The steps of banks and of placement (R110, R373, R376) and of a mail drop (R51, R52): what each is in the cases that TeamSteps
names.
-/
namespace Sys2Proof.Machine

/-- A table without the keys of a range reads there as absent, and elsewhere as before. -/
theorem Sparse.get_filter_key {α : Type} (p : Nat → Bool) (d : α) (m : Sparse α) (k : Nat) :
    Sparse.get d (m.filter fun c => p c.1) k = if p k then Sparse.get d m k else d := by
  induction m with
  | nil => simp [get]
  | cons c m ih => by_cases hc : c.1 = k <;> by_cases hp : p c.1 <;> grind [get]

/-- Memory without the bytes of a range reads as zero there (R110). -/
theorem Mem.read_without (m : Mem) (lo n a : Nat) :
    Mem.read (m.filter fun c => !(lo ≤ c.1 && c.1 < lo + n)) a = if lo ≤ a ∧ a < lo + n then 0 else Mem.read m a := by
  have h := Sparse.get_filter_key (fun j => !(decide (lo ≤ j) && decide (j < lo + n))) (0 : Byte) m a
  rw [Mem.read, h]
  by_cases ha : lo ≤ a ∧ a < lo + n
  · rw [if_pos ha, if_neg (by simpa using ha)]
  · rw [if_neg ha, if_pos (by simp only [Bool.not_eq_true', Bool.and_eq_false_iff, decide_eq_false_iff_not]; omega)]
    rfl

section
variable {s : State} {bk : Nat}

/-! Banks (R110). -/

theorem bankDrainDone_drained (hm : (s.bank bk).mode = .draining) (hd : (s.bank bk).drain = []) : exec (.bankDrainDone bk) s =
    .next (s.setBank bk { s.bank bk with mode := .zeroing, since := (s.site (bankSite bk)).fab }) := by
  simp [exec_bankDrainDone, execBankDrainDone, hm, hd]

theorem bankDrainDone_waits (h : (s.bank bk).mode ≠ .draining ∨ (s.bank bk).drain ≠ []) : exec (.bankDrainDone bk) s = .next s := by
  simp only [exec_bankDrainDone, execBankDrainDone]
  exact if_pos (by simpa using h)

theorem State.placeAgain_fabric (s : State) (site : Nat) : State.FabricOnly s (s.placeAgain site) := by
  unfold State.placeAgain; split
  · exact s.pushOnce_fabric _
  · exact .refl s

theorem bankZeroDone_zeroed (hm : (s.bank bk).mode = .zeroing) (hl : (s.bank bk).leaving = false)
    (hs : (s.bank bk).since + 2048 ≤ (s.site (bankSite bk)).fab) : Completes (exec (.bankZeroDone bk) s) fun u =>
      (u.bank bk).mode = wordMode (s.bank bk).target ∧ (u.bank bk).head = 0 ∧ (u.bank bk).tail = 0 ∧ (u.bank bk).poison = []
        ∧ ∀ a, Mem.read u.mem a = if bankBase bk ≤ a ∧ a < bankBase bk + 2 ^ 18 then 0 else Mem.read s.mem a := by
  simp only [exec_bankZeroDone, execBankZeroDone]
  rw [if_neg (by simp [hm, hs])]
  refine ⟨_, rfl, ?_⟩
  simp only [hl, Bool.false_eq_true, if_false]
  generalize hv : State.setBank _ bk _ = v
  obtain ⟨_, _, e⟩ := v.placeAgain_fabric (bankSite bk)
  have hb : (v.placeAgain (bankSite bk)).bank bk = v.bank bk := by rw [e]; rfl
  have hmem : (v.placeAgain (bankSite bk)).mem = v.mem := by rw [e]
  rw [hb, hmem]
  subst hv
  simp only [State.bank_setBank, State.setBank_mem, true_and]
  exact Mem.read_without _ _ _
end

/-! Placement (R373, R376). -/

section
variable {s : State} {part : Nat}

theorem placeHead_empty (h : (s.part part).queue = []) : s.placeHead part = none := by
  simp [State.placeHead, State.headTeams, h]

variable (hf : ((s.freeKilled part).teams.filter fun (_, t) => t.part == part && t.state == .placing) = [])
  (hp : (s.freeKilled part).paused ((s.freeKilled part).part part).mod = false)
include hf hp

theorem teamPlace_fits {t : State} (h : (s.freeKilled part).placeHead part = some t) :
    exec (.teamPlace part) s = .next (t.push (.teamPlace part)) := by
  simp [exec_teamPlace, execTeamPlace, hf, hp, h]

theorem teamPlace_waits (h : (s.freeKilled part).placeHead part = none) : exec (.teamPlace part) s =
    .next (if ((s.freeKilled part).part part).queue = [] then (s.freeKilled part).freeBanks part
      else ((s.freeKilled part).freeBanks part).pushOnce (.slicePreemption part)) := by
  simp [exec_teamPlace, execTeamPlace, hf, hp, h]
end

/-- The one team that may give way is preempted when the head of the queue does not fit (R376). -/
theorem slicePreemption_single {s : State} {part v uid : Nat} {tv : Team} {q : List Nat} (hq : (s.part part).queue = v :: q)
    (hh : s.placeHead part = none) (hp : s.paused (s.part part).mod = false)
    (ho : (s.teams.filter fun (_, t) => t.part == part && (t.state == .placed || t.state == .replay)
      && t.cls ≤ ((Sparse.find s.teams v).map (·.cls)).getD 0 && 2 ^ 24 ≤ (s.core (teamCore t 0 0)).cycle - t.placedAt && !t.frozen
      && (Sparse.find s.grids t.grid).any (·.oversub)) = [(uid, tv)]) :
    exec (.slicePreemption part) s = .next (s.beginQuiesce uid) := by
  simp only [exec_slicePreemption, execSlicePreemption, hq, hh, hp]
  rw [ho]
  rfl

/-! A mail drop (R51, R52). -/

section
variable {s : State} {uid : Nat} {t : Team} {m : Message}

/-- A message that a closed or full drop, or one of its channel before it, keeps out leaves the teams and storage (R27, R51). -/
theorem maildropAppend_refused (ht : Sparse.find s.teams uid = some t) (h : t.state = .ended
      ∨ (t.byDrop = true ∧ ((msgSrc m ≠ 2 ∧ s.behind m = true) ∨ t.dropSize ≤ t.drop.length))) :
    Completes (exec (.maildropAppend uid m) s) fun u => u.teams = s.teams ∧ SameStorage s u := by
  have refused (c l : Bool) : (s.refuseAt m.dst m c l).teams = s.teams ∧ SameStorage s (s.refuseAt m.dst m c l) :=
    have ⟨hs, _, _, _, hteams⟩ := refuseAt_counts s m.dst m c l
    ⟨hteams, hs⟩
  obtain he | ⟨hd, hb | hfull⟩ := h
  · refine ⟨_, maildropAppend_ended ht he, ?_⟩
    split
    · have ha := s.ack_fabric (.messageAccept m)
      have hl := (s.ack (.messageAccept m)).stray_core m.dst m
      exact ⟨hl.teams.trans ha.teams, ha.sameStorage.trans ((State.mapNi_sameStorage _ _ _).trans hl.sameStorage)⟩
    · have hl : State.ListsOnly s (s.consume m) := s.workDown_lists _
      exact ⟨hl.teams, hl.sameStorage⟩
  · exact ⟨_, maildropAppend_behind ht hd hb.1 hb.2, refused _ _⟩
  · by_cases hb : msgSrc m ≠ 2 ∧ s.behind m = true
    · exact ⟨_, maildropAppend_behind ht hd hb.1 hb.2, refused _ _⟩
    · refine ⟨_, maildropAppend_full ht hd hb hfull, ?_⟩
      split
      · exact refused _ _
      · have hr := s.sendRefusal_fabric m true false
        exact ⟨hr.teams, hr.sameStorage⟩

variable (ht : Sparse.find s.teams uid = some t) (hs : t.state = .replay ∨ t.state = .placed) (hr : t.retryArea = [])
include ht hs hr

theorem maildropClose_empty (hd : t.drop = []) : Completes (exec (.maildropClose uid) s) fun u =>
    (∃ t', Sparse.find u.teams uid = some t' ∧ t'.state = .placed ∧ t'.dropOpen = false)
      ∧ ∀ k ∈ State.teamCores t, Event.dispatch k ∈ u.agenda := by
  have step : exec (.maildropClose uid) s = .next ((s.mapTeam uid fun t => { t with state := .placed, dropOpen := false }).pushAll
      ((State.teamCores t).map .dispatch)) := by
    obtain h | h := hs <;> simp [exec_maildropClose, execMaildropClose, State.restoreRetry, ht, h, hr, hd]
  refine ⟨_, step, ⟨_, State.find_mapTeam_same ht _, rfl, rfl⟩, fun k hk => ?_⟩
  exact List.mem_append_right _ (List.mem_map_of_mem hk)

theorem maildropClose_oldest {rest : List Message} {b : Bool} (hd : t.drop = m :: rest)
    (hb : (s.core (State.redirected t m).dst).freeEntry m.cls = some b) :
    Completes (exec (.maildropClose uid) s) fun u => (∃ t', Sparse.find u.teams uid = some t' ∧ t'.drop = rest)
      ∧ ∃ e ∈ (u.core (State.redirected t m).dst).ni.queue, e.msg = State.redirected t m ∧ e.reserved = b := by
  let v := s.mapTeam uid fun t => { t with drop := rest }
  let k := (State.redirected t m).dst
  have step : exec (.maildropClose uid) s =
      .next ((v.enqueue k (State.redirected t m) b).push (.maildropClose uid)) := by
    have hb' : (s.core (State.redirected t m).dst).freeEntry (State.redirected t m).cls = some b := hb
    obtain h | h := hs <;> simp [exec_maildropClose, execMaildropClose, State.restoreRetry, ht, h, hr, hd, hb', v, k]
  refine ⟨_, step, ?_⟩
  have hf := (v.enqueue_fabric k (State.redirected t m) b).trans (State.push_fabric _ (.maildropClose uid))
  dsimp only
  rw [hf.teams, hf.core, State.core_mapNi]
  exact ⟨⟨_, State.find_mapTeam_same ht _, rfl⟩,
    v.entryNow k (State.redirected t m) b, List.mem_append_right _ (List.mem_singleton_self _), rfl, rfl⟩
end

end Sys2Proof.Machine
end

section
/-!
SUPPORT. A team takes its place, stops and is swapped out (R50, R52, R375): SWAP_IN, RELOCATION_REQUEST and SWAP_OUT.
-/
namespace Sys2Proof.Machine

/-! SWAP_IN (R52, R375). -/

theorem length_flatMap_bytesOf {n w : Nat} (k : Nat) (l : List (BitVec w)) (h : ∀ m, (bytesOf k m).length = n) :
    (l.flatMap fun w => bytesOf k w.toNat).length = n * l.length := by
  induction l with
  | nil => rfl
  | cons a l ih => rw [List.flatMap_cons, List.length_append, ih, h, List.length_cons, Nat.mul_succ, Nat.add_comm]

section
variable {s : State} {uid : Nat} {t : Team} (ht : Sparse.find s.teams uid = some t)
include ht

theorem swapIn_places (hs : t.state = .placing) (hb : s.banksReady uid = true) : Completes (exec (.swapIn uid) s) fun u =>
    Event.maildropClose uid ∈ u.agenda ∧ ∃ t', Sparse.find u.teams uid = some t'
      ∧ t'.state = (if t.saved.isNone then .placed else .replay) ∧ t'.saved = none ∧ t'.base = teamWindow uid
      ∧ t'.codeCap = capOver [pEXEC] (teamWindow uid) (4 * (s.imageOf t).code.length)
      ∧ t'.tableCap = capOver [pLD] (tableVa uid) (8 * (s.imageOf t).handlers.length) := by
  refine ⟨_, rfl, ?_⟩
  unfold State.finishPlace
  rw [ht]
  dsimp (zeta := false) only
  rw [if_neg (by simp [hs, hb])]
  extract_lets img store code table size s₁ s₂ s₃ flags s₄ s₅ s₆ s₇ s₈
  have hcode : code.length = 4 * img.code.length := length_flatMap_bytesOf 4 _ fun m => by simp [bytesOf]
  have h₁ : s₁.teams = s.teams := by
    simp only [s₁]; split
    · rw [State.load_teams, State.load_teams]
    · rfl
  have h₃ : s₃.teams = s.teams := by simp only [s₃, s₂, State.load_teams, State.loadCap_teams, h₁]
  clear_value s₃
  have h₅ : s₅.teams = s₃.teams := rfl
  have h₆ : s₆.teams = s₅.teams := foldl_keeps State.teams _ (fun s k => s.placeCore_teams _ _ _ _ k) _ _
  have h₇ : s₇.teams = s₆.teams := by
    simp only [s₇]; split
    · exact State.placeGroups_teams _ _ _
    · exact State.placeFifos_teams _ _ _
  have h : Sparse.find s₇.teams uid = some t := by rw [h₇, h₆, h₅, h₃, ht]
  have h₈ := State.find_mapTeam_same h fun t => { t with
    state := if t.saved.isNone then .placed else .replay, saved := none, start := []
    placedAt := (s₇.core (teamCore t 0 0)).cycle, base := teamWindow uid
    codeCap := capOver [pEXEC] (teamWindow uid) code.length
    tableCap := capOver [pLD] (tableVa uid) (img.handlers.length * 8) }
  clear_value s₇
  refine ⟨List.mem_append_right _ (List.mem_singleton_self _), _, h₈, rfl, rfl, rfl, ?_, ?_⟩ <;> dsimp only
  · rw [hcode]
  · rw [Nat.mul_comm 8]
end

/-! RELOCATION_REQUEST (R50, R375). -/

/-- A fold passes each of its elements: what comes before and what comes after it is related by what each step keeps. -/
theorem foldl_passes {α σ : Type} {R : σ → σ → Prop} (refl : ∀ s, R s s) (trans : ∀ {s t u}, R s t → R t u → R s u)
    {f : σ → α → σ} (h : ∀ s a, R s (f s a)) {l : List α} {a : α} (ha : a ∈ l) (s : σ) :
    ∃ v, R s v ∧ R (f v a) (l.foldl f s) := by
  obtain ⟨l₁, l₂, rfl⟩ := List.append_of_mem ha
  refine ⟨l₁.foldl f s, foldl_rel refl trans h _ _, ?_⟩
  rw [List.foldl_append, List.foldl_cons]
  exact foldl_rel refl trans h _ _

namespace State

/-- A core's dispatch stops and its messages awaiting retransmission go to its team's swap area (R50). -/
def quiesceCore (uid : Nat) (t : Team) (s : State) (k : Nat) : State :=
  let (x, y) := teamPos t k
  let rs := (s.core k).ni.retry
  let s := s.mapCore k fun c => { c with dispatchStop := true, ni := { c.ni with retry := [] } }
  let s := rs.foldl (fun s r => s.giveUp (agentNi k) r.msg.id) s
  let add := fun (t : Team) => Sparse.set t.retryArea (savedKey t x y) (Sparse.get [] t.retryArea (savedKey t x y) ++ rs)
  if rs.isEmpty then s else s.mapTeam uid fun t => { t with retryArea := add t }

theorem beginQuiesce_eq {s : State} {uid : Nat} {t : Team} (ht : Sparse.find s.teams uid = some t)
    (hs : t.state = .placed ∨ t.state = .replay) (hf : t.frozen = false) : s.beginQuiesce uid =
      (((teamCores t).foldl (quiesceCore uid t) s).mapTeam uid fun t => { t with state := .quiescing }).push (.swapOut uid) := by
  unfold beginQuiesce
  rw [ht]
  refine if_neg ?_
  obtain h | h := hs <;> simp [h, hf]

/-- `t` stops dispatch wherever `s` does, and knows the team if `s` does. -/
def StopsStay (uid : Nat) (s t : State) : Prop :=
  (∀ k, (s.core k).dispatchStop = true → (t.core k).dispatchStop = true)
    ∧ ((Sparse.find s.teams uid).isSome = true → (Sparse.find t.teams uid).isSome = true)

namespace StopsStay
variable {uid : Nat} {s t u : State}

theorem refl (s : State) : StopsStay uid s s := ⟨fun _ h => h, fun h => h⟩
theorem trans (h : StopsStay uid s t) (g : StopsStay uid t u) : StopsStay uid s u :=
  ⟨fun k x => g.1 k (h.1 k x), fun x => g.2 (h.2 x)⟩

end StopsStay

theorem FabricOnly.stops {uid : Nat} {s t : State} (h : FabricOnly s t) : StopsStay uid s t :=
  ⟨fun k x => by rwa [h.core], fun x => by rwa [h.teams]⟩

theorem mapTeam_core (s : State) (n : Nat) (f : Team → Team) (k : Nat) : (s.mapTeam n f).core k = s.core k := by
  unfold mapTeam; split <;> rfl

theorem mapTeam_stops (s : State) (uid : Nat) (f : Team → Team) : StopsStay uid s (s.mapTeam uid f) := by
  refine ⟨fun k x => by rwa [mapTeam_core], fun h => ?_⟩
  obtain ⟨t, ht⟩ := Option.isSome_iff_exists.1 h
  rw [find_mapTeam_same ht]
  rfl

theorem quiesceCore_stops (uid : Nat) (t : Team) (s : State) (k : Nat) :
    StopsStay uid s (quiesceCore uid t s k) ∧ ((quiesceCore uid t s k).core k).dispatchStop = true := by
  unfold quiesceCore
  rcases teamPos t k with ⟨x, y⟩
  dsimp (zeta := false) only
  extract_lets rs s₁ s₂ add
  have h₁ : StopsStay uid s s₁ := by
    refine ⟨fun j hj => ?_, fun h => h⟩
    by_cases e : j = k
    · subst e; simp [s₁]
    · simpa [s₁, e] using hj
  have h₂ : StopsStay uid s₁ s₂ := (FabricOnly.foldl (fun s r => s.giveUp_fabric _ _) _ _).stops
  have hk : (s₂.core k).dispatchStop = true := h₂.1 k (by simp [s₁])
  split
  · exact ⟨h₁.trans h₂, hk⟩
  · have h₃ := s₂.mapTeam_stops uid fun t => { t with retryArea := add t }
    exact ⟨(h₁.trans h₂).trans h₃, h₃.1 k hk⟩

end State

theorem relocationRequest_stops {s : State} {uid : Nat} {t : Team} (ht : Sparse.find s.teams uid = some t)
    (hs : t.state = .placed ∨ t.state = .replay) (hf : t.frozen = false) :
    Completes (exec (.relocationRequest uid) s) fun u => (∃ t', Sparse.find u.teams uid = some t' ∧ t'.state = .quiescing)
      ∧ Event.swapOut uid ∈ u.agenda ∧ ∀ k ∈ State.teamCores t, (u.core k).dispatchStop = true := by
  refine ⟨_, rfl, ?_⟩
  rw [State.beginQuiesce_eq ht hs hf]
  have step (s k) := (State.quiesceCore_stops uid t s k).1
  have hall : State.StopsStay uid s ((State.teamCores t).foldl (State.quiesceCore uid t) s) := foldl_rel .refl .trans step _ s
  obtain ⟨t', ht'⟩ := Option.isSome_iff_exists.1 (hall.2 (by rw [ht]; rfl))
  refine ⟨⟨_, State.find_mapTeam_same ht' _, rfl⟩, List.mem_append_right _ (List.mem_singleton_self _), fun k hk => ?_⟩
  obtain ⟨v, _, hv⟩ := foldl_passes .refl .trans step hk s
  exact (State.mapTeam_core _ _ _ k).symm ▸ hv.1 k (State.quiesceCore_stops uid t v k).2

end Sys2Proof.Machine
end

section
/-!
SUPPORT. SWAP_OUT (R50, R373, R375): a quiescent team is saved and freed, and stands in its placement queue.
-/
namespace Sys2Proof.Machine

/-- A fold whose steps leave the state leaves it. -/
theorem foldl_stays {α σ : Type} {f : σ → α → σ} {s : σ} {l : List α} (h : ∀ a ∈ l, f s a = s) : l.foldl f s = s := by
  induction l with
  | nil => rfl
  | cons a l ih =>
    rw [List.foldl_cons, h a (.head _)]
    exact ih fun b hb => h b (.tail _ hb)

theorem Sparse.get_of_find {α : Type} {m : Sparse α} {k : Nat} {x : α} (h : find m k = some x) (d : α) : get d m k = x := by
  induction m with
  | nil => cases h
  | cons p m ih => by_cases e : p.1 = k <;> simp_all [get, find]

theorem State.mem_queueInsert (cls : Nat → Nat) (q : List Nat) (u v : Nat) : v ∈ queueInsert cls q u ↔ v = u ∨ v ∈ q := by
  have h : v ∈ q ↔ v ∈ q.takeWhile (fun w => cls u ≤ cls w) ∨ v ∈ q.dropWhile (fun w => cls u ≤ cls w) := by
    rw [← List.mem_append, List.takeWhile_append_dropWhile]
  rw [State.queueInsert, List.mem_append, List.mem_cons, h]
  tauto

namespace State

/-! The placement queue (R373). -/

/-- `t` has the teams and partitions of `s`, and no queue loses a team. -/
def QueuesGrow (s t : State) : Prop :=
  t.teams = s.teams ∧ ∀ p, ((Sparse.find s.parts p).isSome = true → (Sparse.find t.parts p).isSome = true)
    ∧ ∀ v ∈ (s.part p).queue, v ∈ (t.part p).queue

namespace QueuesGrow
variable {s t u : State}

theorem refl (s : State) : QueuesGrow s s := ⟨rfl, fun _ => ⟨fun h => h, fun _ h => h⟩⟩
theorem trans (h : QueuesGrow s t) (g : QueuesGrow t u) : QueuesGrow s u :=
  ⟨g.1.trans h.1, fun p => ⟨fun x => (g.2 p).1 ((h.2 p).1 x), fun v x => (g.2 p).2 v ((h.2 p).2 v x)⟩⟩

end QueuesGrow

theorem FabricOnly.queues {s t : State} (h : FabricOnly s t) : QueuesGrow s t := by
  obtain ⟨_, _, rfl⟩ := h; exact .refl s

theorem part_mapPart {s : State} {n : Nat} {p : Partition} (h : Sparse.find s.parts n = some p) (f : Partition → Partition) :
    (s.mapPart n f).part n = f (s.part n) := by
  simp [mapPart, h, part, Sparse.get_of_find h]

/-- A team enters the queue of its partition, and no other leaves one. -/
theorem enqueueTeam_grows (s : State) (v : Nat) : QueuesGrow s (s.enqueueTeam v) := by
  unfold enqueueTeam; extract_lets cls; split
  · exact .refl s
  · rename_i t _
    refine .trans ⟨by simp, fun p => ?_⟩ (pushOnce_fabric _ _).queues
    cases hp : Sparse.find s.parts t.part with
    | none => simp [mapPart, hp]
    | some x =>
      by_cases e : p = t.part
      · subst e
        rw [part_mapPart hp]
        exact ⟨fun _ => by simp [mapPart, hp], fun v hv => (mem_queueInsert _ _ _ _).2 (.inr hv)⟩
      · simp [mapPart, hp, part, e]

theorem mem_enqueueTeam {s : State} {v : Nat} {t : Team} (ht : Sparse.find s.teams v = some t)
    (hp : (Sparse.find s.parts t.part).isSome = true) : v ∈ ((s.enqueueTeam v).part t.part).queue := by
  obtain ⟨p, hp⟩ := Option.isSome_iff_exists.1 hp
  unfold enqueueTeam
  simp only [ht]
  refine ((pushOnce_fabric _ _).queues.2 t.part).2 v ?_
  rw [part_mapPart hp]
  dsimp only
  exact (mem_queueInsert _ _ _ _).2 (.inl rfl)

/-- A waiting team that enters stands in the queue of its partition; a gang enters once none of its teams is quiescing. -/
theorem enterQueue_enters {s : State} {uid : Nat} {t : Team} (ht : Sparse.find s.teams uid = some t) (hs : t.state = .waiting)
    (hp : (Sparse.find s.parts t.part).isSome = true)
    (hg : ∀ g, Sparse.find s.grids t.grid = some g → g.oversub = false → g.part = t.part ∧ uid ∈ g.teams
      ∧ ∀ v ∈ g.teams, ∀ w, Sparse.find s.teams v = some w → w.state ≠ .quiescing) :
    (s.enterQueue uid t.grid).teams = s.teams ∧ uid ∈ ((s.enterQueue uid t.grid).part t.part).queue := by
  unfold enterQueue
  extract_lets is enter
  have hin : is uid .waiting = true := by simp [is, ht, hs]
  have grows (w v) : QueuesGrow w (enter w v) := by
    simp only [enter]; split
    · exact w.enqueueTeam_grows v
    · exact .refl w
  have enters {w} (h : QueuesGrow s w) : uid ∈ ((enter w uid).part t.part).queue := by
    simp only [enter, hin, if_true]
    exact mem_enqueueTeam (h.1.symm ▸ ht) ((h.2 _).1 hp)
  split
  · exact ⟨(grows s uid).1, enters (.refl s)⟩
  · next g hgrid =>
    cases ho : g.oversub with
    | true => exact ⟨(grows s uid).1, enters (.refl s)⟩
    | false =>
      obtain ⟨hpart, hmem, hquiet⟩ := hg g hgrid ho
      have hno : g.teams.any (is · .quiescing) = false := by
        rw [List.any_eq_false]
        intro v hv
        cases hw : Sparse.find s.teams v with
        | none => simp [is, hw]
        | some w => simpa [is, hw] using hquiet v hv w hw
      simp only [Bool.false_eq_true, if_false, hno]
      have hall := foldl_rel QueuesGrow.refl .trans grows (g.teams.filter fun u => !(s.part g.part).queue.contains u) s
      refine ⟨hall.1, ?_⟩
      by_cases hq : uid ∈ (s.part t.part).queue
      · exact (hall.2 _).2 uid hq
      · have hl : uid ∈ g.teams.filter fun u => !(s.part g.part).queue.contains u := by
          simp [hmem, hpart, hq]
        obtain ⟨v, hv, hend⟩ := foldl_passes QueuesGrow.refl .trans grows hl s
        exact (hend.2 _).2 uid (enters hv)

theorem find_mapTeam_other (s : State) {n j : Nat} (f : Team → Team) (h : j ≠ n) :
    Sparse.find (s.mapTeam n f).teams j = Sparse.find s.teams j := by
  unfold mapTeam; split
  · exact Sparse.find_set_other _ _ _ _ h
  · rfl

/-! What quiescence leaves to give up (R50). -/

theorem giveUpOwed_idle {s : State} {k : Nat} (h : (s.core k).ctxs.all (fun (_, c) => !ctxBusy c) = true) : s.giveUpOwed k = s := by
  have owes (x) : (s.ctxAt k x).owed = [] := by
    obtain hm | hd := Sparse.get_mem_or {} (s.core k).ctxs x
    · have hidle := List.all_eq_true.1 h _ hm
      simp only [ctxBusy, Bool.not_eq_true', Bool.or_eq_false_iff, Bool.not_eq_false'] at hidle
      exact List.isEmpty_iff.1 hidle.1.1.1.2
    · rw [show s.ctxAt k x = {} from hd]
  refine foldl_stays fun x _ => ?_
  dsimp only
  split
  · rw [owes]; rfl
  · rfl

end State

/-- A quiescent team is saved, its rectangle freed and its drop opened; it waits in its queue (R50, R375). -/
theorem swapOut_saves {s : State} {uid : Nat} {t : Team} (ht : Sparse.find s.teams uid = some t) (hs : t.state = .quiescing)
    (hf : t.frozen = false) (hp : (Sparse.find s.parts t.part).isSome = true)
    (hg : ∀ g, Sparse.find s.grids t.grid = some g → g.oversub = false → g.part = t.part ∧ uid ∈ g.teams
      ∧ ∀ v ∈ g.teams, v = uid ∨ ∀ w, Sparse.find s.teams v = some w → w.state ≠ .quiescing)
    (hq : ∀ k ∈ State.teamCores t, (s.core k).ctxs.all (fun (_, c) => !ctxBusy c) = true ∧ s.messagesOut k = []
      ∧ (s.core k).ni.own = []) :
    Completes (exec (.swapOut uid) s) fun u => (∃ t', Sparse.find u.teams uid = some t' ∧ t'.state = .waiting ∧ t'.dropOpen = true
      ∧ t'.saved.isSome = true ∧ t'.drop = t.drop) ∧ uid ∈ (u.part t.part).queue := by
  have hidle : (State.teamCores t).foldl (fun s k => s.giveUpOwed k) s = s :=
    foldl_stays fun k hk => State.giveUpOwed_idle (hq k hk).1
  have hbusy : ((State.teamCores t).any fun k => (s.core k).ctxs.any fun (_, c) => ctxBusy c) = false := by
    rw [List.any_eq_false]
    intro k hk
    simpa using (hq k hk).1
  have hout : ((State.teamCores t).any fun k => !(s.messagesOut k).isEmpty || !(s.core k).ni.own.isEmpty) = false := by
    rw [List.any_eq_false]
    intro k hk
    simp [(hq k hk).2]
  obtain ⟨saved, step⟩ : ∃ saved, exec (.swapOut uid) s =
      .next (((((State.teamCores t).foldl (fun s k => s.noticeAll k) s).unplace uid t).mapTeam uid fun t =>
        { t with state := .waiting, saved := some saved, dropOpen := true }).enterQueue uid t.grid) := by
    simp only [exec_swapOut, execSwapOut, ht]
    rw [if_pos hs, hidle, if_neg (by rw [hs, hf, hbusy]; decide), if_neg (by rw [hout]; decide)]
    exact ⟨_, rfl⟩
  refine ⟨_, step, ?_⟩
  generalize hv : State.unplace _ uid t = v
  have hpl : State.PlacesOnly s v :=
    hv ▸ (State.PlacesOnly.foldl (fun s k => s.noticeAll_places k) _ _).trans (State.unplace_places _ uid t)
  let t' : Team := { t with state := .waiting, saved := some saved, dropOpen := true }
  let w := v.mapTeam uid fun t => { t with state := .waiting, saved := some saved, dropOpen := true }
  have hteam : Sparse.find w.teams uid = some t' := State.find_mapTeam_same (hpl.teams ▸ ht) _
  have hothers (j) (hj : j ≠ uid) : Sparse.find w.teams j = Sparse.find s.teams j := by
    rw [State.find_mapTeam_other _ _ hj, hpl.teams]
  have hparts : w.parts = s.parts := (State.mapTeam_parts _ _ _).trans hpl.parts
  have hgrids : w.grids = s.grids := (State.mapTeam_grids _ _ _).trans hpl.grids
  obtain ⟨hteams, hin⟩ := State.enterQueue_enters hteam rfl (hparts.symm ▸ hp) fun g hgrid ho => by
    obtain ⟨hpart, hmem, hothersQuiet⟩ := hg g (hgrids ▸ hgrid) ho
    refine ⟨hpart, hmem, fun j hj x hx => ?_⟩
    by_cases e : j = uid
    · obtain rfl : t' = x := Option.some.inj (hteam.symm.trans (e ▸ hx))
      exact TeamState.noConfusion
    · exact (hothersQuiet j hj).resolve_left e x (hothers j e ▸ hx)
  exact ⟨⟨t', hteams.symm ▸ hteam, rfl, rfl, rfl, rfl⟩, hin⟩

end Sys2Proof.Machine
end

section
/-!
CERTIFICATE. Banks switch, teams are placed, swapped and replayed (R50 to R52, R110, R373 to R377).
-/
namespace Sys2Proof.Machine

/-- Settles O48: each clause is one step of a bank, of placement, of a mail drop or of a swap. -/
theorem teamSteps : Obligations.TeamSteps := by
  intro s s' bk uid part v t tv m q b lo queue teamIs old w toDrop behind
  refine ⟨bankDrainDone_drained, bankDrainDone_waits, bankZeroDone_zeroed, fun hf hp => ?_, slicePreemption_single, fun ht => ?_⟩
  · refine ⟨teamPlace_fits hf hp, fun hq => ?_, fun hn hq => ?_⟩
    · exact (teamPlace_waits hf hp (placeHead_empty hq)).trans (by rw [if_pos hq])
    · exact (teamPlace_waits hf hp hn).trans (by rw [if_neg hq])
  have hbehind : behind ↔ msgSrc m ≠ 2 ∧ s.behind m = true := and_congr_right fun _ => (s.behind_iff m).symm
  refine ⟨swapIn_places ht, fun h => ?_, fun hd hb hroom => ?_, fun hs hr => ?_, swapOut_saves ht, relocationRequest_stops ht⟩
  · exact maildropAppend_refused ht (h.imp_right fun ⟨hd, hb⟩ => ⟨t.byDrop_iff.2 hd, hb.imp_left hbehind.1⟩)
  · obtain ⟨u, hu, hstore, hteam, _⟩ := maildropAppend_room ht (t.byDrop_iff.2 hd) (hb ∘ hbehind.2) hroom
    exact ⟨u, hu, ⟨_, hteam, rfl, rfl⟩, hstore⟩
  · exact ⟨maildropClose_empty ht hs hr, fun _ _ => maildropClose_oldest ht hs hr⟩

end Sys2Proof.Machine
end

section
/-!
SUPPORT. A sequencer whose node table lists one serial number twice: a started LOOP steps both entries (R366), each by its own count.
-/
namespace Sys2Proof.Machine

/-- A LOOP of a given count (R366). -/
def loopNode (count : Word) : Node := { key := 0, body := [3#64 <<< 60, count], argCap := ⟨0, 0, false⟩, count := 0 }

/-- The machine after reset, but that the sequencer of site 0 has LOOPs of counts 2 and 0 under serial number 0, which is ready. -/
def loopTwins : State :=
  State.reset.mapSite 0 fun t => { t with ready := [0], nodes := [(0, loopNode 2), (0, loopNode 0)] }

/-- The rounds that the LOOPs of site 0 count in the state after a step. -/
def loopRounds : Host.Outcome State Fault Refusal → List Nat
  | .next s => (s.site 0).nodes.map fun (_, d) => d.loop
  | _ => []

theorem loopRounds_nodeStart : loopRounds (exec (.nodeStart 0) loopTwins) = [1, 0] := by decide

end Sys2Proof.Machine
end

section
/-!
CERTIFICATE. Nodes are posted, start and complete (R55, R56, R366 to R372, R389, R416, R417).
-/
namespace Sys2Proof.Machine

/-- Refutes O49: NODE_START steps each entry of a LOOP's serial number by that entry's own count, while the statement's successor steps
all of them by the count of the first. The two differ in `loopTwins`, where serial number 0 is listed twice: the second LOOP, of
count 0, keeps its round at 0, and the statement has it at 1. No post makes such a table, and the statement asks for no ordered one. -/
theorem not_graphSteps : ¬ Obligations.GraphSteps := by
  intro h
  obtain ⟨hstart, -⟩ := h loopTwins loopTwins loopTwins 0 0 0 0 0 0 0 0 [] (loopNode 2) (loopNode 2)
    { part := 0, image := 0, teams := [], w := 0, h := 0, cls := 0, oversub := false }
    { va := 0, part := 0, base := 0, size := 0, cause := 0, acc := .read, waiters := [] } 0 0 [] []
  have hrested : ∀ c, (loopTwins.site 0).started = some c → c + 16 ≤ (loopTwins.site 0).fab := fun _ hc => nomatch hc
  obtain ⟨-, hloop, -⟩ := hstart rfl hrested rfl rfl rfl
  have hrounds := congrArg loopRounds (hloop rfl)
  rw [loopRounds_nodeStart] at hrounds
  exact absurd hrounds (by decide)

end Sys2Proof.Machine
end

section
/-!
SUPPORT. Slots that leave the taint of a context's registers (R76, R81), and the frame of a register write (R60, R183).
-/
namespace Sys2Proof.Machine

theorem and_not_and_not {w : Nat} (a b c : BitVec w) : a &&& ~~~b &&& ~~~c = a &&& ~~~(b ||| c) := by
  rw [BitVec.not_or, BitVec.and_assoc]

theorem and_not_zero (b : BitVec 8) : b &&& ~~~0#8 = b := BitVec.and_allOnes

@[simp] theorem Reg.without_zero (r : Reg) : r.without 0#8 = r := by simp only [without, and_not_zero]
@[simp] theorem VReg.without_zero (r : VReg) : r.without 0#8 = r := by simp only [without, and_not_zero]
@[simp] theorem MReg.without_zero (r : MReg) : r.without 0#8 = r := by simp only [without, and_not_zero]
theorem Reg.without_of_untainted {r : Reg} (h : r.taint = 0) (m : BitVec 8) : r.without m = r := by
  obtain ⟨_, _, _, _⟩ := r; subst h; simp [without]
theorem Reg.without_without (r : Reg) (a b : BitVec 8) : (r.without a).without b = r.without (a ||| b) := by
  simp [without, and_not_and_not]
theorem VReg.without_without (r : VReg) (a b : BitVec 8) : (r.without a).without b = r.without (a ||| b) := by
  simp [without, and_not_and_not]
theorem MReg.without_without (r : MReg) (a b : BitVec 8) : (r.without a).without b = r.without (a ||| b) := by
  simp [without, and_not_and_not]

namespace Ctx

theorem gr_clearTaint (t : Ctx) (b : BitVec 8) (n : Nat) : (t.clearTaint b).gr n = (t.gr n).without b := by
  unfold gr
  split
  · simp [Reg.without]
  · exact Sparse.get_mapVals (Reg.without · b) {} t.g n (by simp [Reg.without])

theorem vr_clearTaint (t : Ctx) (b : BitVec 8) (n : Nat) : (t.clearTaint b).vr n = (t.vr n).without b :=
  Sparse.get_mapVals (VReg.without · b) {} t.v n (by simp [VReg.without])

theorem mr_clearTaint (t : Ctx) (b : BitVec 8) {n : Nat} (hn : n ≠ 0) : (t.clearTaint b).mr n = (t.mr n).without b := by
  simp only [mr, if_neg hn]
  exact Sparse.get_mapVals (MReg.without · b) {} t.m n (by simp [MReg.without])

theorem busy_clearTaint (t : Ctx) (b : BitVec 8) (d : Dest) : (t.clearTaint b).busy d = t.busy d := by
  simp [busy, clearTaint, List.any_map, Function.comp_def]

@[simp] theorem vr_putG (t : Ctx) (n : Nat) (r : Reg) (j : Nat) : (t.putG n r).vr j = t.vr j := by unfold putG; split <;> rfl
@[simp] theorem mr_putG (t : Ctx) (n : Nat) (r : Reg) (j : Nat) : (t.putG n r).mr j = t.mr j := by unfold putG; split <;> rfl
@[simp] theorem busy_putG (t : Ctx) (n : Nat) (r : Reg) (d : Dest) : (t.putG n r).busy d = t.busy d := by unfold putG; split <;> rfl

end Ctx

namespace State

/-- `t` is `s` but for tiles of core `k` and the registers and pending deposits of its context `x`, where the slots of `m` have left
the taint of every register, and none awaits a value that did not. -/
structure SlotsGone (k x : Nat) (m : BitVec 8) (s t : State) : Prop where
  slots : SlotsOnly k x s t
  cores : ∀ j, j ≠ k → t.core j = s.core j
  ctxs : ∀ y, y ≠ x → t.ctxAt k y = s.ctxAt k y
  gr : ∀ n, (t.ctxAt k x).gr n = ((s.ctxAt k x).gr n).without m
  vr : ∀ n, (t.ctxAt k x).vr n = ((s.ctxAt k x).vr n).without m
  mr : ∀ n, n ≠ 0 → (t.ctxAt k x).mr n = ((s.ctxAt k x).mr n).without m
  busy : ∀ d, (s.ctxAt k x).busy (.g d) = false → (t.ctxAt k x).busy (.g d) = false

namespace SlotsGone
variable {k x : Nat} {a b : BitVec 8} {s t u : State}

theorem refl (s : State) : SlotsGone k x 0 s s where
  slots := .refl s
  cores := fun _ _ => rfl
  ctxs := fun _ _ => rfl
  gr := fun _ => (Reg.without_zero _).symm
  vr := fun _ => (VReg.without_zero _).symm
  mr := fun _ _ => (MReg.without_zero _).symm
  busy := fun _ h => h

theorem trans (h : SlotsGone k x a s t) (g : SlotsGone k x b t u) : SlotsGone k x (a ||| b) s u where
  slots := h.slots.trans g.slots
  cores := fun j hj => (g.cores j hj).trans (h.cores j hj)
  ctxs := fun y hy => (g.ctxs y hy).trans (h.ctxs y hy)
  gr := fun n => by rw [g.gr, h.gr, Reg.without_without]
  vr := fun n => by rw [g.vr, h.vr, VReg.without_without]
  mr := fun n hn => by rw [g.mr n hn, h.mr n hn, MReg.without_without]
  busy := fun d hd => g.busy d (h.busy d hd)

theorem cur (h : SlotsGone k x a s t) : t.cur = s.cur := by obtain ⟨_, e⟩ := h.slots.rest; rw [e]
theorem ctx (h : SlotsGone k x a s t) : t.ctx = s.ctx := by obtain ⟨_, e⟩ := h.slots.rest; rw [e]

end SlotsGone

/-- An update of one context's registers and pending deposits, and of its core's tiles, in which slots leave the taint. -/
theorem setCore_gone {s : State} {k x : Nat} {m : BitVec 8} {t' : Ctx} {tiles : Sparse Tile}
    (ht : ∃ g v m heldB pend slots slot7, t' = { s.ctxAt k x with g, v, m, heldB, pend, slots, slot7 })
    (hgr : ∀ n, t'.gr n = ((s.ctxAt k x).gr n).without m) (hvr : ∀ n, t'.vr n = ((s.ctxAt k x).vr n).without m)
    (hmr : ∀ n, n ≠ 0 → t'.mr n = ((s.ctxAt k x).mr n).without m)
    (hbusy : ∀ d, (s.ctxAt k x).busy (.g d) = false → t'.busy (.g d) = false) :
    SlotsGone k x m s (s.setCore k { s.core k with ctxs := Sparse.set (s.core k).ctxs x t', tiles }) := by
  have hx : (s.setCore k { s.core k with ctxs := Sparse.set (s.core k).ctxs x t', tiles }).ctxAt k x = t' := by
    rw [ctxAt, core_setCore]; exact Sparse.get_set_same _ _ _ _
  refine ⟨setCore_slots ht fun n hn => ?_, fun j hj => core_setCore_other _ _ _ _ hj, fun y hy => ?_,
    fun n => ?_, fun n => ?_, fun n hn => ?_, fun d hd => ?_⟩
  · rw [hgr, Reg.without_of_untainted hn]
  · rw [ctxAt, core_setCore]; exact Sparse.get_set_other _ _ _ _ _ hy
  · rw [hx, hgr]
  · rw [hx, hvr]
  · rw [hx, hmr n hn]
  · rw [hx, hbusy d hd]

/-- An update of one context's pending deposits, and of its slots in use. -/
theorem setCore_pend {s : State} {k x : Nat} {t' : Ctx} (ht : ∃ pend slots slot7, t' = { s.ctxAt k x with pend, slots, slot7 })
    (hbusy : ∀ d, (s.ctxAt k x).busy (.g d) = false → t'.busy (.g d) = false) : SlotsGone k x 0 s (s.setCtxAt k x t') := by
  obtain ⟨_, _, _, rfl⟩ := ht
  refine setCore_gone ⟨_, _, _, _, _, _, _, rfl⟩ (fun _ => ?_) (fun _ => ?_) (fun _ _ => ?_) hbusy
  · exact (Reg.without_zero _).symm
  · exact (VReg.without_zero _).symm
  · exact (MReg.without_zero _).symm

/-- A slot that is bound leaves the taint of its context, unless loads still share it (R74, R76). -/
theorem bindSlot_gone (s : State) (k x n : Nat) :
    ∃ m : BitVec 8, (∀ i, m.getLsbD i = true → i = n) ∧ SlotsGone k x m s (s.bindSlot k x n) := by
  unfold bindSlot
  extract_lets t t' c
  split
  · exact ⟨0, by simp, setCore_pend ⟨_, _, _, rfl⟩ fun _ h => h⟩
  · refine ⟨slotBit n, fun i hi => ?_, setCore_gone ⟨_, _, _, _, _, _, _, rfl⟩ (t.gr_clearTaint _) (t.vr_clearTaint _)
      (fun _ h => t.mr_clearTaint _ h) fun d h => (t.busy_clearTaint _ _).trans h⟩
    simp [slotBit] at hi; omega

theorem bindSlots_gone (l : List Nat) (s : State) : ∃ m : BitVec 8, (∀ i, m.getLsbD i = true → i ∈ l)
    ∧ SlotsGone s.cur s.ctx m s (l.foldl (fun s n => s.bindSlot s.cur s.ctx n) s) := by
  induction l generalizing s with
  | nil => exact ⟨0, by simp, .refl s⟩
  | cons n l ih =>
    obtain ⟨a, ha, h⟩ := s.bindSlot_gone s.cur s.ctx n
    obtain ⟨b, hb, g⟩ := ih (s.bindSlot s.cur s.ctx n)
    rw [h.cur, h.ctx] at g
    refine ⟨a ||| b, fun i hi => ?_, h.trans g⟩
    rw [BitVec.getLsbD_or, Bool.or_eq_true] at hi
    exact hi.elim (fun hi => List.mem_cons.2 (.inl (ha i hi))) (fun hi => List.mem_cons_of_mem _ (hb i hi))

/-- What cancels the deposits on a register binds their slots, and the register awaits nothing more (R81). -/
theorem cancel_gone (s : State) (d : Nat) : ∃ m : BitVec 8, (∀ i, m.getLsbD i = true → i ∈ slotsOn s d)
    ∧ SlotsGone s.cur s.ctx m s (s.cancel (.g d)) ∧ ((s.cancel (.g d)).ctxAt s.cur s.ctx).busy (.g d) = false := by
  unfold cancel
  extract_lets hit s₁
  split
  next hnone =>
    refine ⟨0, by simp, .refl s, ?_⟩
    have hno : s.task.pend.filter (fun p => p.dest == .g d) = [] := List.isEmpty_iff.1 hnone
    change s.task.busy _ = false
    simpa [Ctx.busy, List.filter_eq_nil_iff] using hno
  next =>
    have hbusy (e : Nat) (he : e = d ∨ s.task.busy (.g e) = false) : s₁.task.busy (.g e) = false := by
      rw [task_mapTask]
      simp only [Ctx.busy, List.any_map, List.any_eq_false, Function.comp_apply] at he ⊢
      intro p hp
      split
      · simp
      next hne => exact he.elim (fun h => h ▸ hne) (fun h => h p hp)
    have h₁ : SlotsGone s.cur s.ctx 0 s s₁ := setCore_pend ⟨_, _, _, rfl⟩ fun e he => by
      rw [← hbusy e (.inr he), task_mapTask]
    obtain ⟨m, hm, h⟩ := bindSlots_gone (hit.filterMap (·.slot)) s₁
    refine ⟨m, hm, ?_, h.busy _ (hbusy d (.inl rfl))⟩
    simpa using h₁.trans h

/-- Where only registers and tiles of the issuing core have changed, and no other core or context, all else stands. -/
theorem RegsOnly.sameOthers {s t : State} (h : RegsOnly s t) (hcores : ∀ k, k ≠ s.cur → t.core k = s.core k)
    (hctxs : ∀ x, x ≠ s.ctx → t.ctxAt s.cur x = s.ctxAt s.cur x) : SameOthers s t := by
  obtain ⟨⟨_, rfl⟩, ⟨_, _, hc⟩, -⟩ := h
  refine ⟨⟨⟨fun _ => rfl, rfl, rfl⟩, rfl, rfl, rfl, rfl, rfl, rfl, rfl, rfl, rfl, rfl, rfl⟩, rfl, rfl, rfl, hcores, rfl, hctxs,
    ?_⟩
  simp only [here, hc, and_self]

/-- What a write of a general register leaves of the others, and of the machine (R60, R81, R183). -/
theorem writeG_frame (s : State) (n : Nat) (r : Reg) : ∃ m : BitVec 8, (∀ i, m.getLsbD i = true → i ∈ slotsOn s n)
    ∧ SameOthers s (s.writeG n r) ∧ SameRegs s (s.writeG n r) n m ∧ (n ≠ 0 → (s.writeG n r).task.busy (.g n) = false) := by
  have hregs := s.writeG_regs n r
  by_cases hn : n = 0
  · subst hn
    exact ⟨0, by simp, hregs.sameOthers (fun _ _ => rfl) fun _ _ => rfl, by simp [SameRegs, writeG], fun h => absurd rfl h⟩
  obtain ⟨m, hm, h, hbusy⟩ := s.cancel_gone n
  have htask : (s.cancel (.g n)).task = (s.cancel (.g n)).ctxAt s.cur s.ctx := by rw [task, h.cur, h.ctx]
  have ht : (s.writeG n r).task = (s.cancel (.g n)).task.putG n { r with taint := s.cancelTaint (.g n) r.taint } := by
    rw [writeG_eq s hn, task_mapTask]
  refine ⟨m, hm, hregs.sameOthers (fun k hk => ?_) fun x hx => ?_, ?_, fun _ => ?_⟩
  · rw [writeG_eq s hn, ← h.cores k hk]
    exact core_setCore_other _ _ _ _ (by rwa [h.cur])
  · rw [writeG_eq s hn, ← h.ctxs x hx]
    exact ctxAt_setCtxAt_other _ _ _ _ _ _ (.inr (by rwa [h.ctx]))
  · obtain ⟨_, _, _, _, _, _, _, e⟩ := hregs.task
    refine ⟨fun j hj => ?_, fun j => ?_, fun j hj => ?_, ?_⟩
    · rw [ht, Ctx.gr_putG_other _ hj, htask]; exact h.gr j
    · rw [ht, Ctx.vr_putG, htask]; exact h.vr j
    · rw [ht, Ctx.mr_putG, htask]; exact h.mr j hj
    · simp only [e, and_self]
  · rw [ht, Ctx.busy_putG, htask]; exact hbusy

end State
end Sys2Proof.Machine
end

section
/-!
CERTIFICATE. What a write of a general register changes (R60, R81, R183).
-/
namespace Sys2Proof.Machine

/-- Settles O3: a write to a register other than g0 is the cancelling of its deposits, which takes their slots from the taint of
every register, and the new value; one to g0 is nothing. -/
theorem writeRegister : Obligations.WriteRegister := by
  unfold Obligations.WriteRegister
  intro s d r
  obtain ⟨m, hm, hothers, hregs, hbusy⟩ := s.writeG_frame d.toNat r
  obtain ⟨_, _, _, _, _, _, _, htask⟩ := (s.writeG_regs d.toNat r).task
  refine ⟨m, hothers, hregs, ?_, ?_, ?_, hm, fun hd => ?_, ?_⟩
  · rw [htask]
  · rw [htask]
  · rw [htask]
  · have hn : d.toNat ≠ 0 := fun h => hd (BitVec.eq_of_toNat_eq h)
    exact ⟨by rw [State.g, State.writeG_eq s hn, State.task_mapTask, Ctx.gr_putG_same _ hn], hbusy hn⟩
  · rintro rfl; exact ⟨rfl, rfl⟩

end Sys2Proof.Machine
end

section
/-!
SUPPORT. The checks of R68, and where the accesses make them (R183, R217).
-/
namespace Sys2Proof.Machine

/-! Addresses (R217). -/

theorem ofNat_mul_sext {w : Nat} (n : Nat) (i : BitVec w) : BitVec.ofNat 64 n * sext64 i = BitVec.ofInt 64 (n * i.toInt) := by
  rw [BitVec.ofInt_mul, BitVec.ofInt_natCast]; rfl

theorem dispAddr_eq (c : Reg) (n : Nat) (i : BitVec 10) : dispAddr c n i = c.val + BitVec.ofInt 64 (n * i.toInt) := by
  rw [dispAddr, ofNat_mul_sext]

/-! What the checks are (R68). -/

theorem capHolds_iff (sup : Bool) (c : Reg) (perms : List Nat) : capHolds sup c perms = true ↔
    c.tag = true ∧ capOtype c.desc = 0 ∧ (∀ p ∈ perms, hasPerm c.desc p = true) ∧ (sup = true ∨ hasPerm c.desc pSYS = false) := by
  simp [capHolds, and_assoc]

theorem inBounds_iff (c : Reg) (x : Word) (n : Nat) : inBounds c x n = true ↔
    (capBounds c.desc c.val).1 ≤ x.toNat ∧ x.toNat + n ≤ (capBounds c.desc c.val).2 := by
  simp [inBounds]

section
variable {sup : Bool} {c : Reg} {x : Word} {n align : Nat} {perms : List Nat}

theorem capFault_of_refused (h : ¬(capHolds sup c perms = true ∧ inBounds c x n = true)) :
    capFault sup c x n perms align = some cCAP := by
  refine if_pos ?_
  rw [not_and_or] at h
  simpa using h

theorem capFault_of_allowed (h : capHolds sup c perms = true ∧ inBounds c x n = true) :
    capFault sup c x n perms align = if x.toNat % align ≠ 0 then some cALIGN else none := if_neg (by simp [h])

/-- The checks of R68 in their order: CAP, then ALIGN. -/
theorem capFault_iff : let ok := capHolds sup c perms = true ∧ inBounds c x n = true
    (capFault sup c x n perms align = some cCAP ↔ ¬ok)
      ∧ (capFault sup c x n perms align = some cALIGN ↔ ok ∧ x.toNat % align ≠ 0)
      ∧ (capFault sup c x n perms align = none ↔ ok ∧ x.toNat % align = 0) := by
  intro ok
  by_cases h : ok
  · by_cases ha : x.toNat % align = 0 <;> simp [capFault_of_allowed h, h, ha, cCAP, cALIGN]
  · simp [capFault_of_refused h, h, cCAP, cALIGN]

/-! Where the accesses make them (R183). -/

/-- An access whose check fails takes the trap of the cause at its address. -/
theorem checked_fails {s : State} {cause : Nat} (h : capFault (s.supAt s.cur) c x n perms align = some cause)
    (ok : State → Host.Outcome State Fault Refusal) : checked c x n perms align s ok = trapped s cause x := by
  rw [checked, h]; rfl

end

section
variable {s : State} {t b : BitVec 6} {cause : Nat} (hb : s.busyG b = false)
include hb

theorem loadInt_fails {n : Nat} {sgn : Bool} {i : BitVec 10}
    (h : capFault (s.supAt s.cur) (s.g b) ((s.g b).val + BitVec.ofInt 64 (n * i.toInt)) n [pLD] n = some cause) :
    loadInt n sgn t b i s = trapped s cause ((s.g b).val + BitVec.ofInt 64 (n * i.toInt)) := by
  simp only [loadInt, hb, dispAddr_eq, Bool.false_eq_true, if_false]
  exact checked_fails h _

theorem ldc_fails {i : BitVec 10}
    (h : capFault (s.supAt s.cur) (s.g b) ((s.g b).val + BitVec.ofInt 64 ((16 : Nat) * i.toInt)) 16 [pLD] 16 = some cause) :
    exec (.ldc t b i) s = trapped s cause ((s.g b).val + BitVec.ofInt 64 ((16 : Nat) * i.toInt)) := by
  simp only [exec_ldc, execLdc, hb, dispAddr_eq, Bool.false_eq_true, if_false]
  exact checked_fails h _

theorem lda_fails {sc : BitVec 3} {z : BitVec 2} {x : BitVec 1} (htxn : s.task.txn = none)
    (h : capFault (s.supAt s.cur) (s.g b) (s.g b).val (2 ^ z.toNat) [pLD] (2 ^ z.toNat) = some cause) :
    exec (.lda t b sc z x) s = trapped s cause (s.g b).val := by
  simp only [exec_lda, execLda, htxn, hb, Option.isSome_none, Bool.false_and, Bool.false_eq_true, if_false]
  exact checked_fails h _

theorem jalr_fails {j : BitVec 14}
    (h : capFault (s.supAt s.cur) (s.g b) ((s.g b).val + BitVec.ofInt 64 (4 * j.toInt)) 4 [pEXEC] 4 = some cause) :
    exec (.jalr t b j) s = trapped s cause ((s.g b).val + BitVec.ofInt 64 (4 * j.toInt)) := by
  have hj : (4 : Word) * sext64 j = BitVec.ofInt 64 (4 * j.toInt) := ofNat_mul_sext 4 j
  simp only [exec_jalr, execJalr, hb, hj, Bool.false_eq_true, if_false]
  exact checked_fails h _

theorem get_fails (h : capFault (s.supAt s.cur) (s.g b) (s.g b).val 8 [pLD] 8 = some cause) :
    exec (.get t b) s = trapped s cause (s.g b).val := by
  simp only [exec_get, execGet, hb, Bool.false_eq_true, if_false]
  exact checked_fails h _

theorem lrw_fails (htxn : s.task.txn = none) (h : capFault (s.supAt s.cur) (s.g b) (s.g b).val 8 [pLD] 8 = some cause) :
    exec (.lrw t b) s = trapped s cause (s.g b).val := by
  simp only [exec_lrw, execLrw, noTxn, htxn, hb, Option.isSome_none, Bool.false_eq_true, if_false]
  exact checked_fails h _

variable (ht : s.busyG t = false)
include ht

theorem storeInt_fails {n : Nat} {i : BitVec 10}
    (h : capFault (s.supAt s.cur) (s.g b) ((s.g b).val + BitVec.ofInt 64 (n * i.toInt)) n [pST] n = some cause) :
    storeInt n t b i s = trapped s cause ((s.g b).val + BitVec.ofInt 64 (n * i.toInt)) := by
  simp only [storeInt, hb, ht, dispAddr_eq, Bool.or_self, Bool.false_eq_true, if_false]
  exact checked_fails h _

theorem stc_fails {i : BitVec 10}
    (h : capFault (s.supAt s.cur) (s.g b) ((s.g b).val + BitVec.ofInt 64 ((16 : Nat) * i.toInt)) 16 [pST] 16 = some cause) :
    exec (.stc t b i) s = trapped s cause ((s.g b).val + BitVec.ofInt 64 ((16 : Nat) * i.toInt)) := by
  simp only [exec_stc, execStc, hb, ht, dispAddr_eq, Bool.or_self, Bool.false_eq_true, if_false]
  exact checked_fails h _

theorem stl_fails {sc : BitVec 3} {z : BitVec 2} (htxn : s.task.txn = none)
    (h : capFault (s.supAt s.cur) (s.g b) (s.g b).val (2 ^ z.toNat) [pST] (2 ^ z.toNat) = some cause) :
    exec (.stl t b sc z) s = trapped s cause (s.g b).val := by
  simp only [exec_stl, execStl, htxn, hb, ht, Option.isSome_none, Bool.false_and, Bool.or_self, Bool.false_eq_true, if_false]
  exact checked_fails h _

theorem aadd_fails {v : BitVec 4} (h : capFault (s.supAt s.cur) (s.g b) (s.g b).val 8 [pLD, pST] 8 = some cause) :
    exec (.aadd t b t v) s = trapped s cause (s.g b).val := by
  simp only [exec_aadd, execAadd, amo, hb, ht, Bool.or_self, Bool.and_false, Bool.false_eq_true, if_false]
  exact checked_fails h _

end
end Sys2Proof.Machine
end

section
/-!
CERTIFICATE. The checks of the accesses (R68, R183, R217).
-/
namespace Sys2Proof.Machine

/-- Settles O12: each access makes its check before anything else, so that a failing one is its trap; and the check is CAP where
one of the conditions of R68 fails, ALIGN where only the alignment does. -/
theorem accessChecks : Obligations.AccessChecks := by
  unfold Obligations.AccessChecks
  refine ⟨fun s t b i j v sc z x cause hb ht htxn => ?_, fun sup c x n align perms _ => ?_⟩
  · intro c fails at_
    exact ⟨loadInt_fails hb, loadInt_fails hb, loadInt_fails hb, loadInt_fails hb, ldc_fails hb, storeInt_fails hb ht,
      storeInt_fails hb ht, storeInt_fails hb ht, storeInt_fails hb ht, stc_fails hb ht, lda_fails hb htxn, stl_fails hb ht htxn,
      jalr_fails hb, get_fails hb, lrw_fails hb htxn, aadd_fails hb ht⟩
  · intro ok
    have hok : (capHolds sup c perms = true ∧ inBounds c x n = true) = ok := by
      simp only [capHolds_iff, inBounds_iff, and_assoc, ok]
    rw [← hok]
    exact capFault_iff

end Sys2Proof.Machine
end

section
/-!
SUPPORT. A named region whose storage begins at the last byte of its bank: an access to it reaches into the next bank, which is a FIFO
and backs no unit of a region (R112).
-/
namespace Sys2Proof.Machine

/-- The machine after reset, but that the runtime team's core 0 has a region of 4 KiB which begins at the last byte of bank 0, in
SCRATCH mode; bank 1 is a FIFO, whose first byte holds 1. Register g1 of context 0 may load from all of the address space. -/
def regionAcross : State :=
  { State.reset with
    windows := [⟨0, 0, 0, 4096, bankBase 1 - 1, .share 0⟩]
    banks := [(0, { mode := .scratch, units := [(63, 0)] }), (1, { mode := .fifo })]
    mem := [(bankBase 1, 1)] }.mapTask fun t =>
    { t with g := [(1, { tag := true, desc := mkDesc (permSet [pLD]) 0 47 0 0 })] }

/-- A general register after an instruction. -/
def valueAfter (d : BitVec 6) : Host.Outcome State Fault Refusal → Option Word
  | .next s => some (s.g d).val
  | _ => none

/-- The second byte of the halfword stands in a bank that backs no region: the load finds zero there (log 78). -/
theorem ldHu_regionAcross : valueAfter 2 (exec (.ldHu 2 1 0) regionAcross) = some 0 := by decide

theorem granted_regionAcross : Granted regionAcross (regionAcross.g 1)
    ((regionAcross.g 1).val + BitVec.ofInt 64 ((2 : Nat) * (0 : BitVec 10).toInt)) 2 [pLD] 2 .read (bankBase 1 - 1) .own :=
  ⟨by decide, by decide, fun _ h => nomatch h⟩

theorem serves_regionAcross : ∀ x ∈ addrRange (bankBase 1 - 1) 2, regionAcross.serves x = .now := by decide

theorem clear_regionAcross : Clear regionAcross (addrRange (bankBase 1 - 1) 2) := ⟨by decide, fun _ h => nomatch h⟩

/-- The stored bytes of the halfword: 0 and 1. -/
theorem stored_regionAcross : ofBytes ((addrRange (bankBase 1 - 1) 2).map (Mem.read regionAcross.mem)) = 256 := by decide

end Sys2Proof.Machine
end

section
/-!
CERTIFICATE. Loads from the core's own region (R76, R112, R123).
-/
namespace Sys2Proof.Machine

/-- Refutes O16: the statement asks of every byte that `serves` answers `now`, as it does for each byte of a FIFO bank, but a load
from a region finds a byte of such a bank not served at all (`regionServes`, R112) and reads it as zero. In `regionAcross`, where the
region's storage crosses into a FIFO bank, LD.hu brings 0 where the stored bytes are 256. No placement makes such a region, and the
statement asks for none that lies within its bank. -/
theorem not_ownRegionLoad : ¬ Obligations.OwnRegionLoad := by
  intro h
  obtain ⟨-, -, -, hload, -⟩ := h regionAcross 2 1 0 (bankBase 1 - 1) (by decide) rfl rfl rfl rfl rfl (by decide) (by decide)
  obtain ⟨u, hu, hval, -⟩ := hload granted_regionAcross clear_regionAcross (by decide) serves_regionAcross
  have hbrought := ldHu_regionAcross
  rw [hu] at hbrought
  simp only [valueAfter, hval, stored_regionAcross] at hbrought
  exact absurd hbrought (by decide)

end Sys2Proof.Machine
end

section
/-!
SUPPORT. What binds, advances and reads streams (R79, R232, R236, R238, R240, R241).
-/
namespace Sys2Proof.Machine

namespace State

theorem bindOk_iff (s : State) (k r : Nat) : s.bindOk k r = true ↔
    r % 4 = 0 ∧ 8 ≤ r ∧ r ≤ 52 ∧ ∀ q ∈ s.task.streams, q.1 ≠ k → q.2.reg ≠ r := by
  simp [bindOk, and_assoc]

theorem ListsOnly.cur {s t : State} (h : ListsOnly s t) : t.cur = s.cur := by obtain ⟨_, _, _, _, rfl⟩ := h.rest; rfl
theorem ListsOnly.ctx {s t : State} (h : ListsOnly s t) : t.ctx = s.ctx := by obtain ⟨_, _, _, _, rfl⟩ := h.rest; rfl

/-- A release point leaves the turn where it is. -/
theorem release_turn (s : State) (k x : Nat) : (s.release k x).cur = s.cur ∧ (s.release k x).ctx = s.ctx := by
  unfold release
  extract_lets t gone s₁ s₂
  have h : ListsOnly s₁ s₂ := ListsOnly.foldl (fun s e => (s.workDown_lists _).trans (entryFreed_lists _ _)) _ _
  have hall : ListsOnly s₁ (if t.send.isEmpty then s₂ else s₂.pushOnce (.niTransmit k x)) := by
    split
    · exact h
    · exact h.trans (pushOnce_fabric _ _).lists
  exact ⟨hall.cur, hall.ctx⟩

/-- An effect is held where the send buffer has room (R36). -/
theorem hold_of_room {s : State} (h : Room s) (e : Effect) (done : State → Host.Outcome State Fault Refusal) :
    s.hold e done = done (s.mapTask fun t => { t with send := t.send ++ [{ eff := e }] }) := by
  obtain ⟨hheld, hsend⟩ := h
  simp only [hold, if_neg hheld.ne, if_neg (Nat.not_le.2 hsend)]

end State

section
variable {s : State} {k n : BitVec 6}

/-! Binding (R79, R236, R238). -/

section
variable (hk : s.bindOk k.toNat n.toNat = false)
include hk

theorem sbind_illegal : exec (.sbind k n) s = trapped s cILLEGAL 0 := by simp only [exec_sbind, execSbind, hk]; rfl
theorem sfifoCons_illegal : exec (.sfifoCons k n) s = trapped s cILLEGAL 0 := by
  simp only [exec_sfifoCons, execSfifoCons, sfifo, hk]; rfl
theorem sfifoProd_illegal : exec (.sfifoProd k n) s = trapped s cILLEGAL 0 := by
  simp only [exec_sfifoProd, execSfifoProd, sfifo, hk]; rfl

end

section
variable (hk : s.bindOk k.toNat n.toNat = true)
include hk

theorem sbind_binds (hl : s.busyG (n + 1) = false) (hc : s.busyG (n + 2) = false) (hw : layoutOk (s.g (n + 1)).val = true)
    (hscale : loScaled (s.g (n + 1)).val = true → (s.g (n + 2)).val.toNat % scaleGroup (s.g (n + 1)).val = 0) :
    exec (.sbind k n) s = retired (s.bindStream k.toNat { reg := n.toNat }) := by
  have hbad : (!layoutOk (s.g (n + 1)).val || (loScaled (s.g (n + 1)).val
      && (s.g (n + 2)).val.toNat % scaleGroup (s.g (n + 1)).val != 0)) = false := by
    rw [hw]; simpa using hscale
  simp only [exec_sbind, execSbind, hk, hl, hc, hbad]
  rfl

theorem sfifo_binds {prod : Bool} {bk : Nat} (hb : s.busyG n = false) (hw : s.busyG (n + 1) = false)
    (hz : (s.g (n + 1)).val.toNat % 2 ^ 60 = 0) (hc : capHolds (s.supAt s.cur) (s.g n) [] = true)
    (hf : s.fifoOf (s.g n) = some bk) :
    let b := s.bank bk
    let idx := if prod then b.tail else b.head
    let u := s.writeG (n.toNat + 3)
      { val := fifoInfo prod (if prod then 0 else idx) idx, taint := (s.task.gr (n.toNat + 3)).taint }
    sfifo prod k n s = retired ((u.writeG n.toNat { (s.g n).move (u.slotAddr bk idx) with taint := (u.g n).taint }).bindStream k.toNat
      { reg := n.toNat, fifo := some (bk, prod) }) := by
  have hzero : ((s.g (n + 1)).val.extractLsb' 0 60 != 0) = false := by
    rw [bne_eq_false_iff_eq]
    exact BitVec.eq_of_toNat_eq (by simpa [BitVec.extractLsb'_toNat] using hz)
  simp only [sfifo, hk, hb, hw, hzero, hc, hf]
  rfl

end

/-! A FIFO's consumer goes on, and what a stream's state is (R240, R241). -/

theorem sstat_unbound {d : BitVec 6} (h : Sparse.find s.task.streams k.toNat = none) :
    exec (.sstat d k) s = trapped s cILLEGAL 0 := by simp only [exec_sstat, execSstat, h]; rfl

theorem sstat_memory {d : BitVec 6} {g : Nat} (h : Sparse.find s.task.streams k.toNat = some { reg := g })
    (hb : s.busyG (BitVec.ofNat 6 (g + 2)) = false) :
    exec (.sstat d k) s = wrote s d (s.g (BitVec.ofNat 6 (g + 2))).val 0 := by
  simp only [exec_sstat, execSstat, h, hb]; rfl

theorem sstat_fifo {d : BitVec 6} {g bk : Nat} {prod : Bool}
    (h : Sparse.find s.task.streams k.toNat = some { reg := g, fifo := some (bk, prod) }) :
    exec (.sstat d k) s = wrote s d (fifoWord (s.bank bk)) 0 := by simp only [exec_sstat, execSstat, h]; rfl

theorem sadv_unbound (h : Sparse.find s.task.streams k.toNat = none) (htxn : s.task.txn = none) :
    exec (.sadv k) s = trapped s cILLEGAL 0 := by simp only [exec_sadv, execSadv, noTxn, htxn, h]; rfl

/-- The slots of a FIFO's consumer that SADV hands back (R240). -/
def advancedSlots (s : State) (g bk : Nat) : Nat :=
  let v := (s.g (BitVec.ofNat 6 (g + 3))).val
  (infoIdx v + 2 * slotCount (s.bank bk) - infoMark v) % (2 * slotCount (s.bank bk))

/-- The FIFO information of a consumer whose mark has come up to its index (R240), as `s` has it, set in `u`. -/
def markAdvanced (s : State) (g : Nat) (u : State) : State :=
  let v := (s.g (BitVec.ofNat 6 (g + 3))).val
  u.mapTask fun t => t.putG (g + 3) { t.gr (g + 3) with val := fifoInfo false (infoIdx v) (infoIdx v), tag := false, desc := 0 }

section
variable {g bk : Nat} (h : Sparse.find s.task.streams k.toNat = some { reg := g, fifo := some (bk, false) })
  (htxn : s.task.txn = none) (hb : s.busyG (BitVec.ofNat 6 (g + 3)) = false)
include h htxn hb

theorem sadv_shared (hs : (s.bank bk).shared = true) : exec (.sadv k) s = retired (markAdvanced s g
    (((s.release s.cur s.ctx).mapTask fun t => if advancedSlots s g bk = 0 then t else
      { t with divert := t.divert ++ [{ eff := .fifoHead bk (advancedSlots s g bk), committed := true, after := t.opNo }]
               opNo := t.opNo + 1 }).pushOnce (.niTransmit s.cur s.ctx))) := by
  obtain ⟨hcur, hctx⟩ := s.release_turn s.cur s.ctx
  simp only [exec_sadv, execSadv, noTxn, htxn, h, hb, hs, hcur, hctx]
  rfl

theorem sadv_still (hs : (s.bank bk).shared = false) (hn : advancedSlots s g bk = 0) :
    exec (.sadv k) s = retired (markAdvanced s g s) := by
  simp only [advancedSlots] at hn
  simp only [exec_sadv, execSadv, noTxn, htxn, h, hb, hs, hn]
  rfl

theorem sadv_holds (hs : (s.bank bk).shared = false) (hn : advancedSlots s g bk ≠ 0) (hroom : Room s) :
    exec (.sadv k) s = retired (markAdvanced s g (s.mapTask fun t =>
      { t with send := t.send ++ [{ eff := .fifoHead bk (advancedSlots s g bk) }] })) := by
  simp only [advancedSlots] at hn
  simp only [exec_sadv, execSadv, noTxn, htxn, h, hb, hs, if_neg hn, State.hold_of_room hroom]
  rfl

end
end
end Sys2Proof.Machine
end

section
/-!
SUPPORT. Lines brought into L1 (R104, R107), and reads that bind at once with nothing in their way (R37, R76, R112, R124, R406, R420).
-/
namespace Sys2Proof.Machine
namespace State

/-! What a line's way into L1 leaves of a state. -/

/-- `t` is `s` but for its sites, its agenda and the L1 of its cores. -/
structure LinesOnly (s t : State) : Prop where
  rest : ∃ cores sites agenda, t = { s with cores, sites, agenda }
  core : ∀ k, ∃ l1, t.core k = { s.core k with l1 }

theorem FabricOnly.lines {s t : State} (h : FabricOnly s t) : LinesOnly s t where
  rest := by obtain ⟨_, _, rfl⟩ := h; exact ⟨_, _, _, rfl⟩
  core := fun k => ⟨_, h.core k⟩

namespace LinesOnly
variable {s t u : State}

theorem refl (s : State) : LinesOnly s s := (FabricOnly.refl s).lines
theorem trans (h : LinesOnly s t) (g : LinesOnly t u) : LinesOnly s u where
  rest := by obtain ⟨_, _, _, rfl⟩ := h.rest; obtain ⟨_, _, _, rfl⟩ := g.rest; exact ⟨_, _, _, rfl⟩
  core := fun k => by obtain ⟨_, eh⟩ := h.core k; obtain ⟨_, eg⟩ := g.core k; rw [eg, eh]; exact ⟨_, rfl⟩
theorem foldl {α : Type} {f : State → α → State} (h : ∀ s a, LinesOnly s (f s a)) (l : List α) (s : State) :
    LinesOnly s (l.foldl f s) := foldl_rel refl trans h l s

theorem cur (h : LinesOnly s t) : t.cur = s.cur := by obtain ⟨_, _, _, rfl⟩ := h.rest; rfl
theorem task (h : LinesOnly s t) : t.task = s.task := by
  have hctx : t.ctx = s.ctx := by obtain ⟨_, _, _, rfl⟩ := h.rest; rfl
  obtain ⟨_, e⟩ := h.core s.cur
  simp only [State.task, ctxAt, h.cur, hctx, e]

end LinesOnly

theorem mapCore_lines {s : State} {k : Nat} {f : Core → Core} (h : ∃ l1, f (s.core k) = { s.core k with l1 }) :
    LinesOnly s (s.mapCore k f) where
  rest := ⟨_, _, _, rfl⟩
  core := fun j => by
    by_cases e : j = k
    · subst e; rw [core_mapCore]; exact h
    · rw [core_mapCore_other _ _ _ _ e]; exact ⟨_, rfl⟩

theorem dropL1_lines (s : State) (at_ : Nat → Bool) (gone : L1Line → Bool) : LinesOnly s (s.dropL1 at_ gone) := by
  refine ⟨⟨_, _, _, rfl⟩, fun k => Sparse.get_map_rel (R := fun c c' : Core => ∃ l1, c' = { c with l1 })
    (fun k c => if at_ k then { c with l1 := c.l1.filter fun l => !gone l || s.specLine k l.line } else c)
    (fun k c => ?_) (s.idleCore k) ⟨_, rfl⟩ s.cores k⟩
  split <;> exact ⟨_, rfl⟩

theorem setClusterLines_lines (s : State) (site cl : Nat) (ls : List ClusterLine) : LinesOnly s (s.setClusterLines site cl ls) :=
  (s.mapSite_fabric _ _).lines

theorem l2Touch_lines (s : State) (line : Nat) (dirty : Bool) : LinesOnly s (s.l2Touch line dirty) := by
  unfold l2Touch; split
  · exact .refl s
  · exact (s.mapSite_fabric _ _).lines

theorem evictLine_lines (s : State) (site cl : Nat) (e : ClusterLine) : LinesOnly s (s.evictLine site cl e) := by
  unfold evictLine; extract_lets s₁ s₂
  have h : LinesOnly s s₂ := (s.setClusterLines_lines _ _ _).trans (dropL1_lines _ _ _)
  split
  · exact h.trans (l2Touch_lines _ _ _)
  · exact h

theorem clusterInstall_lines (s : State) (site cl line : Nat) (st : Moesi) (copy : Option RemoteCopy) :
    LinesOnly s (s.clusterInstall site cl line st copy) := by
  unfold clusterInstall; extract_lets ls set; clear_value set
  split
  · exact s.setClusterLines_lines _ _ _
  · split
    · exact s.setClusterLines_lines _ _ _
    · split
      · exact .refl s
      · exact (s.evictLine_lines _ _ _).trans (setClusterLines_lines _ _ _ _)

theorem clusterRead_lines (s : State) (k line : Nat) (copy : Option RemoteCopy) : LinesOnly s (s.clusterRead k line copy) := by
  unfold clusterRead; extract_lets site cl hs share s₁ s₂
  have h₁ : LinesOnly s s₁ := LinesOnly.foldl (fun _ _ => setClusterLines_lines _ _ _ _) _ _
  have h₂ : LinesOnly s₁ s₂ := by
    unfold s₂; split
    · exact .refl _
    · exact l2Touch_lines _ _ _
  exact (h₁.trans h₂).trans (clusterInstall_lines _ _ _ _ _ _)

theorem l1Install_lines (s : State) (k line : Nat) (copy : Option RemoteCopy) : LinesOnly s (s.l1Install k line copy) := by
  unfold l1Install; extract_lets l1 set
  split
  · exact mapCore_lines ⟨_, rfl⟩
  · exact (mapCore_lines ⟨_, rfl⟩).trans (LinesOnly.foldl (fun _ _ => (pushOnce_fabric _ _).lines) _ _)

/-- The lines of an access come into L1, and nothing but caches and the agenda changes. -/
theorem loadLines_lines (s : State) (k : Nat) (far : Bool) (as : List Nat) : LinesOnly s (s.loadLines k far as) := by
  refine LinesOnly.foldl (fun s l => ?_) _ s
  split
  · exact mapCore_lines ⟨_, rfl⟩
  · split
    · exact s.l1Install_lines _ _ _
    · split
      · exact .refl s
      · exact (s.clusterRead_lines _ _ _).trans (l1Install_lines _ _ _ _)

/-! A read with nothing in its way. -/

theorem checkRead_clear {s : State} {as : List Nat} (h : ∀ f ∈ s.flips, as.any (flipMet f.1) = false) : s.checkRead as = s := by
  have hnone : s.flips.filter (fun f => as.any (flipMet f.1)) = [] := by
    rw [List.filter_eq_nil_iff]; exact fun f hf => by simp only [h f hf]; decide
  simp only [checkRead, hnone]
  rfl

/-- A read of device memory, or of cluster SRAM, is none of HOST memory's halves (R418). -/
theorem hostUse_device {s : State} {site : Nat} {as : List Nat} {w : Bool} (h : ∀ a ∈ as, a < 2 ^ 45 ∨ 2 ^ 48 ≤ a) :
    s.hostUse site as w = s := by
  have hnone : (halvesOf as).filter (fun h => 2 ^ 39 ≤ h && h < 2 ^ 42) = [] := by
    rw [List.filter_eq_nil_iff]
    intro x hx
    simp only [halvesOf, mem_foldl_insertNat, List.not_mem_nil, List.mem_map] at hx
    obtain ⟨a, ha, rfl⟩ := hx.resolve_right id
    have := h a ha
    simp only [Bool.and_eq_true, decide_eq_true_eq, not_and, not_lt]
    omega
  simp only [hostUse, hnone]
  rfl

end State

theorem unpoisoned_clear {s : State} {as : List Nat} (h : Clear s as) (va : Word) (ok : State → Host.Outcome State Fault Refusal) :
    unpoisoned as va s ok = ok s := by
  obtain ⟨hp, hf⟩ := h
  simp only [unpoisoned, hp, State.checkRead_clear hf]

end Sys2Proof.Machine
end

section
/-!
SUPPORT. A read of a range that binds at once, where nothing makes it wait (R37, R76).
-/
namespace Sys2Proof.Machine

/-- Nothing stands in the way of a read of a located part: it is clear and no other operation, draining way, locked tile or host
holds it, it is not HOST memory, and where the read would be a release point it is no other core's region. -/
structure InPlace (s : State) (rel : Bool) (l : Located) : Prop where
  xlate : s.xlate s.cur l.va.toNat .read = .ok l.addr l.place
  near : ∀ st, l.place ≠ .host st
  share : rel = true → remoteShare l.place = false
  home : ∀ st sl, l.place = .home st sl → s.hostAsk st l.bytes false none = none ∧ ∀ a ∈ l.bytes, a < 2 ^ 45 ∨ 2 ^ 48 ≤ a
  clear : Clear s l.bytes
  first : ∀ ok : State → Host.Outcome State Fault Refusal, bindReady l.bytes s ok = ok s
  unlocked : s.tileLocked l.bytes = false

theorem partRead_inPlace {s : State} {va : Word} {n : Nat} {rel : Bool} {l : Located} (h : partRead s va n rel = some l) :
    l.va = va ∧ l.len = n ∧ InPlace s rel l := by
  unfold partRead at h
  split at h
  next a p hx =>
    extract_lets as plain before clear at h
    split at h
    next hok =>
      obtain rfl := Option.some.inj h
      simp only [Bool.and_eq_true, Bool.not_eq_true'] at hok
      obtain ⟨⟨⟨⟨hplain, hclear⟩, hbefore⟩, hdrain⟩, hlock⟩ := hok
      refine ⟨rfl, rfl, hx, fun st e => ?_, fun hr => ?_, fun st sl e => ?_, ?_, fun ok => ?_, hlock⟩
      · obtain rfl : p = .host st := e
        exact absurd hplain (by simp [plain])
      · cases p with
        | share o => exact absurd hplain (by simp [plain, hr])
        | own | fifo | home | host => rfl
      · obtain rfl : p = .home st sl := e
        simp only [plain, Bool.and_eq_true, List.all_eq_true, List.mem_range, Bool.or_eq_true, decide_eq_true_eq] at hplain
        obtain ⟨⟨-, hask⟩, hdevice⟩ := hplain
        refine ⟨Option.isNone_iff_eq_none.1 hask, fun b hb => ?_⟩
        obtain ⟨i, hi, rfl⟩ := List.mem_map.1 hb
        exact hdevice i (List.mem_range.1 hi)
      · simp only [clear, Bool.and_eq_true, Option.isNone_iff_eq_none, Bool.not_eq_true', List.any_eq_false] at hclear
        exact ⟨hclear.1, fun f hf => eq_false_of_ne_true (hclear.2 f hf)⟩
      · change (if s.task.pend.any before || (linesOf as).any s.lineDraining then stall s else ok s) = ok s
        rw [hbefore, hdrain]; rfl
    next => simp at h
  next => simp at h

section
variable {s : State}

/-- A step over pieces that goes on at each of them goes on. -/
theorem eachPiece_passes {f : Located → State → (State → Host.Outcome State Fault Refusal) → Host.Outcome State Fault Refusal}
    {ls : List Located} (h : ∀ l ∈ ls, ∀ k, f l s k = k s) (ok : State → Host.Outcome State Fault Refusal) :
    eachPiece f ls s ok = ok s := by
  unfold eachPiece
  induction ls with
  | nil => rfl
  | cons l ls ih =>
    rw [List.foldr_cons, h l List.mem_cons_self]
    exact ih fun l hl => h l (List.mem_cons_of_mem _ hl)

namespace InPlace
variable {rel : Bool} {l : Located} (h : InPlace s rel l)
include h

theorem located (ok : Nat → Place → Host.Outcome State Fault Refusal) : located l.va .read s ok = ok l.addr l.place := by
  rw [Machine.located, h.xlate]

theorem reachable (va : Word) (ok : State → Host.Outcome State Fault Refusal) : hostReachable l.place va s ok = ok s := by
  unfold hostReachable
  split
  next st e => exact absurd e (h.near st)
  · rfl

theorem served (ok : State → Host.Outcome State Fault Refusal) : hostServed l.place l.bytes s ok = ok s := by
  unfold hostServed
  split
  next st sl e =>
    obtain ⟨hask, hdevice⟩ := h.home st sl e
    simp only [hask, State.hostUse_device hdevice]
  next st e => exact absurd e (h.near st)
  · rfl

end InPlace

/-- The parts of a range that a plain read finds, and what it answers. -/
theorem plainParts_found {rel : Bool} {parts : List (Word × Nat × Nat)} {r : List Nat × List Byte × State}
    {last : List Located → Option (List Nat × List Byte × State)} {acc : List Located}
    (h : parts.foldr (fun (x, _, len) k ls => (partRead s x len rel).bind fun l => k (ls ++ [l])) last acc = some r) :
    ∃ ls : List Located, ls.map (fun l => (l.va, l.len)) = parts.map (fun (x, _, len) => (x, len)) ∧ (∀ l ∈ ls, InPlace s rel l)
      ∧ last (acc ++ ls) = some r := by
  induction parts generalizing acc with
  | nil => exact ⟨[], rfl, by simp, by simpa using h⟩
  | cons p parts ih =>
    obtain ⟨x, o, len⟩ := p
    obtain ⟨l, hl, h⟩ := Option.bind_eq_some_iff.1 h
    obtain ⟨hva, hlen, hin⟩ := partRead_inPlace hl
    obtain ⟨ls, hparts, hall, hlast⟩ := ih h
    exact ⟨l :: ls, by simp [hva, hlen, hparts], List.forall_mem_cons.2 ⟨hin, hall⟩, by simpa using hlast⟩

theorem locatePieces_found {rel : Bool} {ls : List Located} (h : ∀ l ∈ ls, InPlace s rel l)
    (ok : List Located → Host.Outcome State Fault Refusal) :
    locatePieces .read (ls.map fun l => (l.va, l.len)) s ok = ok ls := by
  induction ls generalizing ok with
  | nil => rfl
  | cons l ls ih =>
    obtain ⟨hl, hls⟩ := List.forall_mem_cons.1 h
    rw [List.map_cons, locatePieces, hl.located, ih hls]

/-- A plain read goes on with what it finds. -/
theorem readNow_plain {va : Word} {n : Nat} {rel trk : Bool} {as : List Nat} {bs : List Byte} {t : State} (htxn : s.task.txn = none)
    (h : plainRead s va n rel = some (as, bs, t)) :
    (∀ ok : List Nat → List Byte → State → Host.Outcome State Fault Refusal, readNow va n rel trk s ok = ok as bs t)
      ∧ s.LinesOnly t := by
  obtain ⟨ls, hparts, hin, hlast⟩ := plainParts_found h
  simp only [List.nil_append, Option.some.injEq, Prod.mk.injEq] at hlast
  obtain ⟨has, hbs, ht⟩ := hlast
  rw [ht] at hbs
  have hlines : s.LinesOnly t := by
    rw [← ht]
    refine State.LinesOnly.foldl (fun s l => ?_) ls s
    split
    · exact s.loadLines_lines _ _ _
    · exact .refl s
  have hpieces : pieces va n = ls.map fun l => (l.va, l.len) := hparts.symm
  have huntracked : t.task.txn.isSome = false := by rw [hlines.task, htxn]; rfl
  have hshare : (rel && s.task.txn.isNone && ls.any (remoteShare ·.place)) = false := by
    cases rel with
    | false => rfl
    | true => simpa using fun _ l hl => (hin l hl).share rfl
  refine ⟨fun ok => ?_, hlines⟩
  rw [readNow, hpieces, locatePieces_found hin, readPieces, readPiecesBy,
    eachPiece_passes fun l hl k => (hin l hl).reachable l.va k,
    eachPiece_passes fun l hl k => by rw [unpoisoned_clear (hin l hl).clear, (hin l hl).first, (hin l hl).served],
    eachPiece_passes fun l hl k => by simp [State.tracks, htxn, (hin l hl).unlocked]]
  simp only [hshare, Bool.false_eq_true, if_false, ht, has, State.tracks, huntracked, Bool.false_and, Bool.and_false, hbs]

end
end Sys2Proof.Machine
end

section
/-!
SUPPORT. SBINDR (R73, R237, R363): the record opened, its revocation word read, and the stream bound.
-/
namespace Sys2Proof.Machine

theorem extract_toNat (w : Word) (i n : Nat) : (w.extractLsb' i n).toNat = w.toNat / 2 ^ i % 2 ^ n := by
  rw [BitVec.extractLsb'_toNat, Nat.shiftRight_eq_div_pow]

/-- Unsealing leaves the permissions (R63, R68). -/
theorem hasPerm_unsealed (d : Word) : hasPerm (d &&& ~~~(0xFFF#64 <<< 40)) pSYS = hasPerm d pSYS := by
  simp [hasPerm, capPerms, pSYS]

/-- A register put in a context changes its registers alone. -/
theorem Ctx.putG_regs (t : Ctx) (n : Nat) (r : Reg) : ∃ g, t.putG n r = { t with g } := by
  unfold putG; split <;> exact ⟨_, rfl⟩

namespace State

/-! What a core's team gives it. -/

/-- `t` has the teams, images and partitions of `s`, and each core its team and its values of partition-wide registers. -/
structure SameTeams (s t : State) : Prop where
  teams : t.teams = s.teams
  images : t.images = s.images
  parts : t.parts = s.parts
  core : ∀ k, (t.core k).team = (s.core k).team ∧ (t.core k).csrOld = (s.core k).csrOld

namespace SameTeams
variable {s t u : State}

theorem trans (h : SameTeams s t) (g : SameTeams t u) : SameTeams s u :=
  ⟨g.teams.trans h.teams, g.images.trans h.images, g.parts.trans h.parts,
    fun k => ⟨(g.core k).1.trans (h.core k).1, (g.core k).2.trans (h.core k).2⟩⟩

variable (h : SameTeams s t) (k : Nat)
include h

theorem teamAt : t.teamAt k = s.teamAt k := by simp only [State.teamAt, h.teams, h.core k]
theorem supAt : t.supAt k = s.supAt k := by simp only [State.supAt, imageAt, imageOf, h.teamAt, h.images]
theorem partAt : t.partAt k = s.partAt k := by simp only [State.partAt, h.teamAt, h.parts]
theorem csrAt (n : Nat) : t.csrAt k n = s.csrAt k n := by simp only [State.csrAt, h.core k, part, h.partAt, h.parts]

end SameTeams

theorem LinesOnly.sameTeams {s t : State} (h : LinesOnly s t) : SameTeams s t := by
  have hcore := h.core
  obtain ⟨_, _, _, rfl⟩ := h.rest
  exact ⟨rfl, rfl, rfl, fun k => by obtain ⟨_, e⟩ := hcore k; rw [e]; exact ⟨rfl, rfl⟩⟩

theorem core_mapTask (s : State) (f : Ctx → Ctx) (k : Nat) : ∃ ctxs, (s.mapTask f).core k = { s.core k with ctxs } := by
  by_cases e : k = s.cur
  · subst e; exact ⟨_, core_setCore _ _ _⟩
  · exact ⟨_, core_setCore_other _ _ _ _ e⟩

theorem mapTask_sameTeams (s : State) (f : Ctx → Ctx) : SameTeams s (s.mapTask f) :=
  ⟨rfl, rfl, rfl, fun k => by obtain ⟨_, e⟩ := s.core_mapTask f k; rw [e]; exact ⟨rfl, rfl⟩⟩

theorem recAuth_mapTask (s : State) (f : Ctx → Ctx) (k : Nat) : (s.mapTask f).recAuth k = s.recAuth k := by
  simp only [recAuth, mapTask_windows, (s.mapTask_sameTeams f).core k]
  rfl

/-! An instruction of several accesses that retires. -/

/-- What the PC's move leaves of a context. -/
theorem advance_task (s : State) : s.advance.stalled = s.stalled
    ∧ ∃ g pc retired frame, s.advance.task = { s.task with g, pc, retired, frame } := by
  unfold advance
  split
  · exact ⟨rfl, by rw [task_mapTask]; exact ⟨_, _, _, _, rfl⟩⟩
  next f _ =>
    extract_lets r count next last count' next' s₁
    obtain ⟨g, hg⟩ := s.task.putG_regs f.rc { r with val := (0 : BitVec 28) ++ next' ++ count', tag := false, desc := 0 }
    have h₁ : s₁.task = { s.task with g, retired := s.task.retired + 1 } := by rw [task_mapTask, hg]
    split
    · exact ⟨rfl, by rw [task_mapTask, h₁]; exact ⟨_, _, _, _, rfl⟩⟩
    · exact ⟨rfl, h₁ ▸ ⟨_, _, _, _, rfl⟩⟩

/-- A write of registers parks no context and notes no poison. -/
theorem RegsOnly.waits {s t : State} (h : RegsOnly s t) : t.task.park = s.task.park ∧ t.task.late = s.task.late := by
  obtain ⟨_, _, _, _, _, _, _, e⟩ := h.task; rw [e]; exact ⟨rfl, rfl⟩

/-- An instruction of several accesses that has neither stalled, parked nor popped poisoned data ends as it retires (R42, R76). -/
theorem rollback_retired {s t : State} (hs : t.stalled = false) (hpark : t.task.park = s.task.park)
    (hlate : t.task.late = s.task.late) : rollback s (retire t) = finished t := by
  obtain ⟨hstall, _, _, _, _, htask⟩ := t.advance_task
  have hnext : t.advance.task.late = s.task.late := by rw [htask]; exact hlate
  have hnone : s.latePoison t.advance = none := by
    unfold latePoison
    split
    next h => simp only [Bool.and_eq_true, Option.isNone_iff_eq_none] at h; rw [hnext]; tauto
    next => rfl
  have hstays : (t.advance.stalled
      || (t.advance.task.park.isSome && s.task.park.isNone && t.advance.task.gen == s.task.gen)) = false := by
    rw [hstall, hs, htask]
    simp only [hpark]
    cases s.task.park <;> rfl
  simp only [retire, rollback, hnone, hstays]
  rfl

end State

/-! The record (R73, R237). -/

/-- The state in which SBINDR reads the record: stream `k` is bound no more. -/
def State.unbound (s : State) (k : Nat) : State := s.mapTask fun t => { t with streams := t.streams.filter (·.1 != k) }

/-- A doubleword of a record. -/
def recordWord (bs : List Byte) (i : Nat) : Word := BitVec.ofNat 64 (ofBytes ((bs.drop (8 * i)).take 8))

/-- A capability of a record that stands at `as`, as the issuing context sees its tag. -/
def recordCap (t : State) (as : List Nat) (bs : List Byte) (i : Nat) : Reg :=
  { val := recordWord bs (2 * i), desc := recordWord bs (2 * i + 1), tag := t.specTag (as.getD (16 * i) 0 / 16) }

theorem regOfBytes_record (t : State) (as : List Nat) (bs : List Byte) (i : Nat) :
    regOfBytes (bs.drop (16 * i)) (t.specTag (as.getD (16 * i) 0 / 16)) = recordCap t as bs i := by
  simp only [regOfBytes, recordCap, recordWord, List.drop_drop]
  congr 5 <;> omega

/-- The virtual address of a record's revocation word (R73, R363). -/
def rvkAddr (s : State) (bs : List Byte) : Nat :=
  (s.csrAt s.cur 0x802).toNat / 2 ^ 18 % 2 ^ 30 * 2 ^ 18 + 4 * ((recordWord bs 5).toNat / 2 ^ 32 % 2 ^ 16)

/-- The checks that SBINDR makes before it reads the record through `gr` (R73): the group may be bound, the registers await nothing,
the capability is sealed as a record, the team's record authority opens it, and its cursor is within bounds and aligned. -/
structure RecordOpens (s : State) (k n r : BitVec 6) : Prop where
  group : s.bindOk k.toNat n.toNat = true
  idle : s.busyG r = false ∧ s.busyG (n + 2) = false
  tagged : (s.g r).tag = true
  sealed : capOtype (s.g r).desc = 1
  record : hasPerm (s.g r).desc pREC = true
  untainted : (s.g r).taint = 0
  authority : recAuthOk (s.recAuth s.cur) = true
  level : hasPerm (s.g r).desc pSYS = false ∨ s.supAt s.cur = true
  bounds : (capBounds (s.g r).desc (s.g r).val).1 ≤ (s.g r).val.toNat
    ∧ (s.g r).val.toNat + 64 ≤ (capBounds (s.g r).desc (s.g r).val).2
  aligned : (s.g r).val.toNat % 64 = 0

/-- The revocation word stands at `ra` in device memory, where nothing makes its read wait, and holds `epoch`. -/
structure RevocationWord (u : State) (ra epoch : Nat) : Prop where
  clear : Clear u (addrRange ra 4)
  unlocked : u.tileLocked (addrRange ra 4) = false
  device : ra + 4 ≤ 2 ^ 45
  unasked : u.hostAsk (paSite ra) (addrRange ra 4) false none = none
  epoch : ofBytes (u.readMem (addrRange ra 4)) = epoch

namespace RecordOpens
variable {s : State} {k n r : BitVec 6} (h : RecordOpens s k n r)
include h

/-- The record's seal and the team's authority pass as SBINDR tests them (checks 1 and 2 of R73). -/
theorem passes : (!((s.g r).tag && capOtype (s.g r).desc == 1 && hasPerm (s.g r).desc pREC)
    || !recAuthOk ((s.unbound k.toNat).recAuth s.cur)) = false := by
  rw [State.unbound, State.recAuth_mapTask, h.authority, h.tagged, h.sealed, h.record]; rfl

/-- The record lies within its bounds and its level is the task's, as SBINDR tests them (R353). -/
theorem within : (!((capBounds (s.g r).desc (s.g r).val).1 ≤ (s.g r).val.toNat
      && (s.g r).val.toNat + 64 ≤ (capBounds (s.g r).desc (s.g r).val).2)
    || (hasPerm ((s.g r).desc &&& ~~~(0xFFF#64 <<< 40)) pSYS && !(s.unbound k.toNat).supAt s.cur)) = false := by
  rw [hasPerm_unsealed, State.unbound, (s.mapTask_sameTeams _).supAt, decide_eq_true h.bounds.1, decide_eq_true h.bounds.2]
  rcases h.level with e | e <;> simp [e]

end RecordOpens

theorem RevocationWord.served {u : State} {ra epoch : Nat} (h : RevocationWord u ra epoch) (site : Nat)
    (ok : State → Host.Outcome State Fault Refusal) : hostServed (u.placeOf site ra) (addrRange ra 4) u ok = ok u := by
  have hbound := h.device
  have hplace : u.placeOf site ra = .home (paSite ra) (paSlice ra) := if_pos (by omega)
  have huse : u.hostUse (paSite ra) (addrRange ra 4) false = u := by
    refine State.hostUse_device fun a ha => .inl ?_
    obtain ⟨i, hi, rfl⟩ := List.mem_map.1 ha
    have := List.mem_range.1 hi
    omega
  simp only [hostServed, hplace, h.unasked, huse]

/-- The context with a record's capabilities and layout in the group of `gn`, and stream `k` bound to it (R237). -/
def recordBound (u : State) (k n : BitVec 6) (weight scale : Reg) (layout : Word) : State :=
  (((u.writeG n.toNat weight).writeG (n + 1).toNat { val := layout }).writeG
    (n + 3).toNat (if loScaled layout then scale else {})).bindStream k.toNat { reg := n.toNat }

/-- SBINDR ends once it has bound the stream: its accesses have neither stalled nor parked it. -/
theorem recordBound_finishes {s u : State} {k n : BitVec 6} {weight scale : Reg} {layout : Word} (hstall : u.stalled = false)
    (htask : u.task = s.task) :
    rollback s (retire (recordBound u k n weight scale layout)) = finished (recordBound u k n weight scale layout) := by
  have hregs := ((u.writeG_regs n.toNat weight).trans (State.writeG_regs _ (n + 1).toNat { val := layout })).trans
    (State.writeG_regs _ (n + 3).toNat (if loScaled layout then scale else {}))
  obtain ⟨hpark, hlate⟩ := hregs.waits
  refine State.rollback_retired ?_ ?_ ?_
  · obtain ⟨_, e⟩ := hregs.rest; exact (congrArg State.stalled e).trans hstall
  · rw [recordBound, State.bindStream, State.task_mapTask]; exact hpark.trans (congrArg Ctx.park htask)
  · rw [recordBound, State.bindStream, State.task_mapTask]; exact hlate.trans (congrArg Ctx.late htask)

section
variable {s t u : State} {k n r : BitVec 6} {as : List Nat} {bs : List Byte} {ra : Nat}

/-- SBINDR of a good record binds the stream to it. -/
theorem sbindr_binds (hopen : RecordOpens s k n r) (htxn : s.task.txn = none)
    (hread : plainRead (s.unbound k.toNat) (s.g r).val 64 true = some (as, bs, t))
    (hx : t.agentXlate (s.partAt s.cur) true (siteOf s.cur) (siteOf s.cur, clusterOf s.cur) (rvkAddr s bs) .read = (u, .inl ra))
    (hstall : u.stalled = false) (hcur : u.cur = s.cur) (htask : u.task = (s.unbound k.toNat).task)
    (hword : RevocationWord u ra ((recordWord bs 5).toNat % 2 ^ 32)) (hsup : u.supAt s.cur = s.supAt s.cur)
    (hok : recordOk (s.supAt s.cur) (recordCap t as bs 0) (recordCap t as bs 1) (recordWord bs 4) (s.g (n + 2)).val.toNat = true) :
    exec (.sbindr k n r) s = finished (recordBound u k n (recordCap t as bs 0) (recordCap t as bs 1) (recordWord bs 4)) := by
  obtain ⟨hr, hn⟩ := hopen.idle
  have htxn' : (s.unbound k.toNat).task.txn = none := by rw [State.unbound, State.task_mapTask]; exact htxn
  obtain ⟨hplain, hlines⟩ := readNow_plain (trk := true) htxn' hread
  have hteams : s.SameTeams t := (s.mapTask_sameTeams _).trans hlines.sameTeams
  rw [exec_sbindr, execSbindr, if_neg (by rw [hopen.group]; decide), if_neg (by rw [hr, hn]; decide)]
  extract_lets c x unsealed o
  refine (if_neg (Bool.not_eq_true _ ▸ hopen.passes)).trans ((if_neg (Bool.not_eq_true _ ▸ hopen.within)).trans
    ((if_neg (not_not.2 hopen.aligned)).trans ((if_neg (by simp [c, hopen.untainted])).trans
      ((congrArg (rollback o) (hplain _)).trans ?_))))
  extract_lets word tg weight scale layout rvk slot epoch rva
  have hrva : rva = rvkAddr s bs := by
    simp only [rva, slot, rvk, word, rvkAddr, recordWord, hlines.cur, hteams.csrAt, extract_toNat]; rfl
  have hweight : weight = recordCap t as bs 0 := regOfBytes_record t as bs 0
  have hscale : scale = recordCap t as bs 1 := regOfBytes_record t as bs 1
  have hepoch : epoch = (recordWord bs 5).toNat % 2 ^ 32 := by
    simp only [epoch, extract_toNat, Nat.pow_zero, Nat.div_one]; rfl
  have hcount : u.g (n + 2) = s.g (n + 2) := by rw [State.g, htask, State.unbound, State.task_mapTask]; rfl
  have hgood : recordOk (u.supAt u.cur) weight scale layout (u.g (n + 2)).val.toNat = true := by
    rw [hcur, hsup, hcount, hweight, hscale]; exact hok
  have hcur_t : t.cur = s.cur := hlines.cur
  rw [hcur_t, hteams.partAt, hrva, hx]
  change rollback o (unpoisoned (addrRange ra 4) _ u _) = _
  rw [unpoisoned_clear hword.clear, if_neg (by rw [hword.unlocked]; decide), hword.served]
  extract_lets now tid count v w
  rw [if_neg (not_not.2 (hword.epoch.trans hepoch.symm)), if_neg (by rw [hgood]; decide)]
  have hbound : w.bindStream k.toNat { reg := n.toNat }
      = recordBound u k n (recordCap t as bs 0) (recordCap t as bs 1) (recordWord bs 4) := by
    simp only [w, v, hweight, hscale]; rfl
  rw [hbound]
  exact recordBound_finishes hstall htask

end
end Sys2Proof.Machine
end

section
/-!
CERTIFICATE. The stream instructions (R73, R79, R232, R236 to R241, R363).
-/
namespace Sys2Proof.Machine

/-- Settles O24: a group is free where `bindOk` says so, and each instruction is its law; SBINDR is the plain read of the record, the
read of its revocation word, and the binding. -/
theorem streamInstructions : Obligations.StreamInstructions := by
  unfold Obligations.StreamInstructions
  refine ⟨fun s k n d => ?_, fun s k n r as bs t u ra => ?_⟩
  · intro r free w sfifo
    refine ⟨fun hfree => ?_, fun hfree => ?_, by rw [exec_sunbind]; rfl, fun h => ⟨sstat_unbound h, sadv_unbound h⟩,
      fun g h hb => sstat_memory h hb, fun g bk prod h => sstat_fifo h, fun g bk h htxn hb =>
      ⟨fun hs => sadv_shared h htxn hb hs, fun hs hn => sadv_still h htxn hb hs hn, fun hs hn hroom => sadv_holds h htxn hb hs hn hroom⟩⟩
    · have hk : s.bindOk k.toNat n.toNat = true := (s.bindOk_iff _ _).2 hfree
      exact ⟨sbind_binds hk, fun bk hb hw hz hc hf => sfifo_binds hk hb hw hz hc hf, fun bk hb hw hz hc hf => sfifo_binds hk hb hw hz hc hf⟩
    · have hk : s.bindOk k.toNat n.toNat = false := Bool.eq_false_iff.2 (mt (s.bindOk_iff _ _).1 hfree)
      exact ⟨sbind_illegal hk, sfifoCons_illegal hk, sfifoProd_illegal hk⟩
  · intro c x o dword capAt layout slot rva hgroup hr hn _ htxn htag hseal hrec htaint hauth hlevel hlo hhi halign hread hx hstall hcur
      _ htask hclear hlock hdevice hask hepoch hsup hok
    exact sbindr_binds ⟨hgroup, ⟨hr, hn⟩, htag, hseal, hrec, htaint, hauth, hlevel, ⟨hlo, hhi⟩, halign⟩ htxn hread hx hstall hcur htask
      ⟨hclear, hlock, hdevice, hask, hepoch⟩ hsup hok

end Sys2Proof.Machine
end

section
/-!
SUPPORT. CSRR and CSRW (R211, R360): what a read and a write are where the number is assigned, and which refuse it.
-/
namespace Sys2Proof.Machine

theorem csrRead_user {s : State} {n : Nat} (hn : 2048 ≤ n) (h : s.supAt s.cur = false) : csrRead s n = none := by
  rw [csrRead, if_neg (Nat.not_lt.2 hn), h]; rfl

theorem csrRead_sup {s : State} {n : Nat} (hn : 2048 ≤ n) (h : s.supAt s.cur = true) : csrRead s n = supCsr s n := by
  rw [csrRead, if_neg (Nat.not_lt.2 hn), if_pos h]

theorem csrWritable_iff (n : Nat) :
    csrWritable n = true ↔ n ∈ [0x001, 0x002, 0x802, 0x803, 0x812, 0x813, 0x814, 0x824] := List.contains_iff_mem

/-- What a CSRW of `x` to the register of number `n` leaves before it retires (R90, R211, R360). -/
def csrWritten (s : State) (n : Nat) (x : Word) : State :=
  let h := modOf s.cur * 2 ^ 32 + x.toNat % 2 ^ 32
  if n = 0x001 then s.mapTask fun t => { t with fpstat := fpstatWrite t.fpstat x }
  else if n = 0x002 then s.mapTask fun t => { t with fpstat := srseedWrite t.fpstat x }
  else if n = 0x812 then
    if x.toNat / 2 ^ 32 % 2 ^ 2 = 0 then s.push (.fltdoneRetry h)
    else if x.toNat / 2 ^ 32 % 2 ^ 2 = 1 then s.push (.fltdoneFail h) else s
  else s.spreadCsr n (csrStored n x)

section
variable {s : State} {d g : BitVec 6} {c : BitVec 12}

theorem csrr_reads {v : Word} (h : csrRead s c.toNat = some v) (hc : c.toNat ≠ 0x825) : exec (.csrr d c) s = wrote s d v 0 := by
  have hc' : c ≠ 0x825 := fun e => hc (e ▸ rfl)
  simp only [exec_csrr, execCsrr, h, if_neg hc']
  rfl

theorem csrr_illegal (h : csrRead s c.toNat = none) : exec (.csrr d c) s = trapped s cILLEGAL 0 := by
  simp only [exec_csrr, execCsrr, h]; rfl

/-- A read of MCCNT is the read that clears its counters (R405). -/
theorem csrr_mccnt (h : s.supAt s.cur = true) : exec (.csrr d 0x825) s = exec (.mccntRead d) s := by
  have hread : csrRead s (0x825 : BitVec 12).toNat = some (mcCnt (s.site (siteOf s.cur))) := csrRead_sup (by decide) h
  rw [exec_csrr, execCsrr, hread]
  rfl

theorem csrw_illegal (h : csrRead s c.toNat = none ∨ csrWritable c.toNat = false) :
    exec (.csrw g c) s = trapped s cILLEGAL 0 := by
  have hrefused : ((csrRead s c.toNat).isNone || !csrWritable c.toNat) = true := by simpa using h
  simp only [exec_csrw, execCsrw, hrefused]
  rfl

theorem csrw_writes {v : Word} (hread : csrRead s c.toNat = some v) (hw : csrWritable c.toNat = true) (hb : s.busyG g = false) :
    exec (.csrw g c) s = retired (csrWritten s c.toNat (s.g g).val) := by
  have hopen : ((csrRead s c.toNat).isNone || !csrWritable c.toNat) = false := by rw [hread, hw]; rfl
  simp only [exec_csrw, execCsrw, hopen, hb, Bool.false_eq_true, if_false, extract_toNat, Nat.pow_zero, Nat.div_one, csrWritten]
  split
  · next hn => rw [if_pos hn]; rfl
  · next hn => rw [if_neg (hn ▸ by decide), if_pos hn]; rfl
  · next hn =>
    rw [if_neg (hn ▸ by decide), if_neg (hn ▸ by decide), if_pos hn]
    split
    · next h => rw [if_pos h]; rfl
    · next h => rw [if_neg (h ▸ by decide), if_pos h]; rfl
    · next h₀ h₁ => rw [if_neg h₀, if_neg h₁]; rfl
  · next h₁ h₂ h₃ => rw [if_neg h₁, if_neg h₂, if_neg h₃]; rfl

end

end Sys2Proof.Machine
end

section
/-!
SUPPORT. Writes of FPSTAT and SRSEED (R90): the fields of the word they leave.
-/
namespace Sys2Proof.Machine

theorem toNat_append_add {m n : Nat} (x : BitVec m) (y : BitVec n) : (x ++ y).toNat = x.toNat * 2 ^ n + y.toNat := by
  rw [BitVec.toNat_append, ← Nat.shiftLeft_add_eq_or_of_lt y.isLt, Nat.shiftLeft_eq]

/-! What a write leaves, part by part: `++` gives the parts' widths as a sum, which is 64 by evaluation. -/

/-- The generator state that a write stores: never zero (R90). -/
def srStored (sr : BitVec 32) : BitVec 32 := if sr = 0 then 1 else sr

/-- The rounding mode that a write stores: not one of the two that are reserved (R90). -/
def rmStored (old w : Word) : BitVec 3 := if 6 ≤ (w.extractLsb' 8 3).toNat then old.extractLsb' 8 3 else w.extractLsb' 8 3

theorem srStored_toNat (sr : BitVec 32) : (srStored sr).toNat = if sr.toNat = 0 then 1 else sr.toNat := by
  have hzero : sr = 0 ↔ sr.toNat = 0 := BitVec.toNat_inj.symm
  simp only [srStored, hzero]
  split <;> rfl

theorem rmStored_toNat (old w : Word) : (rmStored old w).toNat
    = if 6 ≤ w.toNat / 2 ^ 8 % 8 then old.toNat / 2 ^ 8 % 8 else w.toNat / 2 ^ 8 % 8 := by
  rw [rmStored, apply_ite BitVec.toNat, extract_toNat, extract_toNat]; rfl

section
variable (old w : Word)

theorem fpstatWrite_toNat : (fpstatWrite old w).toNat = (srStored (w.extractLsb' 32 32)).toNat * 2 ^ 32
    + (rmStored old w).toNat * 2 ^ 8 + (old.extractLsb' 0 5 &&& ~~~(w.extractLsb' 0 5)).toNat := by
  have happend : (fpstatWrite old w).toNat = (srStored (w.extractLsb' 32 32) ++ 0#21 ++ rmStored old w ++ 0#3
    ++ (old.extractLsb' 0 5 &&& ~~~(w.extractLsb' 0 5))).toNat := rfl
  rw [happend, toNat_append_add, toNat_append_add, toNat_append_add, toNat_append_add]
  simp only [BitVec.toNat_ofNat]
  omega

theorem fpstatWrite_sr :
    (fpstatWrite old w).toNat / 2 ^ 32 = if w.toNat / 2 ^ 32 = 0 then 1 else w.toNat / 2 ^ 32 := by
  have hrm := (rmStored old w).isLt
  have hflags := (old.extractLsb' 0 5 &&& ~~~(w.extractLsb' 0 5)).isLt
  have htop : (w.extractLsb' 32 32).toNat = w.toNat / 2 ^ 32 := by rw [extract_toNat]; omega
  rw [fpstatWrite_toNat, ← htop, ← srStored_toNat]
  omega

theorem fpstatWrite_rm : (fpstatWrite old w).toNat / 2 ^ 8 % 8
    = if 6 ≤ w.toNat / 2 ^ 8 % 8 then old.toNat / 2 ^ 8 % 8 else w.toNat / 2 ^ 8 % 8 := by
  have hrm := (rmStored old w).isLt
  have hflags := (old.extractLsb' 0 5 &&& ~~~(w.extractLsb' 0 5)).isLt
  rw [fpstatWrite_toNat, ← rmStored_toNat]
  omega

theorem fpstatWrite_getLsbD (i : Nat) : (fpstatWrite old w).getLsbD i =
    if i < 5 then (old.extractLsb' 0 5 &&& ~~~(w.extractLsb' 0 5)).getLsbD i
    else if i - 5 < 3 then false
    else if i - 5 - 3 < 3 then (rmStored old w).getLsbD (i - 5 - 3)
    else if i - 5 - 3 - 3 < 21 then false
    else (srStored (w.extractLsb' 32 32)).getLsbD (i - 5 - 3 - 3 - 21) := by
  have happend : (fpstatWrite old w).getLsbD i = (srStored (w.extractLsb' 32 32) ++ 0#21 ++ rmStored old w ++ 0#3
    ++ (old.extractLsb' 0 5 &&& ~~~(w.extractLsb' 0 5))).getLsbD i := rfl
  simp only [happend, BitVec.getLsbD_append, BitVec.getLsbD_zero]

theorem fpstatWrite_flag {i : Nat} (hi : i < 5) : (fpstatWrite old w).getLsbD i = (old.getLsbD i && !w.getLsbD i) := by
  rw [fpstatWrite_getLsbD, if_pos hi]
  simp [hi]

/-- The bits of FPSTAT that no field holds are zero. -/
theorem fpstatWrite_reserved {i : Nat} (hi : (5 ≤ i ∧ i < 8) ∨ (11 ≤ i ∧ i < 32)) : (fpstatWrite old w).getLsbD i = false := by
  rw [fpstatWrite_getLsbD, if_neg (by omega)]
  rcases hi with ⟨hlo, hhi⟩ | ⟨hlo, hhi⟩
  · rw [if_pos (by omega)]
  · rw [if_neg (by omega), if_neg (by omega), if_pos (by omega)]

theorem srseedWrite_toNat : (srseedWrite old w).toNat
    = (if w.toNat % 2 ^ 32 = 0 then 1 else w.toNat % 2 ^ 32) * 2 ^ 32 + old.toNat % 2 ^ 32 := by
  have happend : (srseedWrite old w).toNat = (srStored (w.extractLsb' 0 32) ++ old.extractLsb' 0 32).toNat := rfl
  rw [happend, toNat_append_add, srStored_toNat, extract_toNat, extract_toNat, Nat.pow_zero, Nat.div_one, Nat.div_one]

theorem srseedWrite_sr :
    (srseedWrite old w).toNat / 2 ^ 32 = if w.toNat % 2 ^ 32 = 0 then 1 else w.toNat % 2 ^ 32 := by
  rw [srseedWrite_toNat]; omega

theorem srseedWrite_rest : (srseedWrite old w).toNat % 2 ^ 32 = old.toNat % 2 ^ 32 := by
  rw [srseedWrite_toNat]; omega

end
end Sys2Proof.Machine
end

section
/-!
CERTIFICATE. Control registers (R90, R211 to R214, R360, R397, R400).
-/
namespace Sys2Proof.Machine

/-- Settles O35: a read and a write are their laws where the number is assigned and open, and traps elsewhere; the fields of FPSTAT
are read off the word that each write leaves. -/
theorem controlRegisters : Obligations.ControlRegisters := by
  unfold Obligations.ControlRegisters
  refine ⟨fun s d g c v => ?_, fun s => ?_, fun old w => ?_⟩
  · intro n x writable h
    have hshut : ¬ writable → csrWritable n = false := fun hw => Bool.eq_false_iff.2 (mt (csrWritable_iff n).1 hw)
    refine ⟨csrr_reads, fun hr => ⟨csrr_illegal hr, csrw_illegal (.inl hr)⟩, fun hw => csrw_illegal (.inr (hshut hw)), csrRead_user,
      fun hr hw hb => ?_, rfl, ?_, rfl⟩
    · have hwrites : exec (.csrw g c) s = retired (csrWritten s n x) := csrw_writes hr ((csrWritable_iff n).2 hw) hb
      rw [hwrites]
      refine ⟨fun hn => ?_, fun hn => ?_, fun hn => ?_, fun h₁ h₂ h₃ => ?_⟩
      · rw [csrWritten, if_pos hn]
      · rw [csrWritten, hn]; rfl
      · rw [csrWritten, hn]; rfl
      · rw [csrWritten, if_neg h₁, if_neg h₂, if_neg h₃]
    · rintro rfl hsup
      exact csrr_mccnt hsup
  · refine ⟨rfl, rfl, rfl, rfl, rfl, rfl, rfl, rfl, rfl, rfl, rfl, fun h => ?_⟩
    exact ⟨csrRead_sup (by decide) h, csrRead_sup (by decide) h, csrRead_sup (by decide) h, csrRead_sup (by decide) h,
      csrRead_sup (by decide) h, csrRead_sup (by decide) h⟩
  · exact ⟨fpstatWrite_sr old w, fpstatWrite_rm old w, fun i => fpstatWrite_flag old w, fun i => fpstatWrite_reserved old w,
      srseedWrite_sr old w, srseedWrite_rest old w⟩

end Sys2Proof.Machine
end

section
/-!
SUPPORT. The machine right after reset (R428, R429): each table is read at a key that it lists or at one that it does not.
-/
namespace Sys2Proof.Machine

/-- A core is as the wipe leaves it, but for a runtime team on the first core of each of the 24 sites. -/
theorem reset_core (k : Nat) :
    (∃ n, n < 24 ∧ k = n * 1024 ∧ State.reset.core k = { team := some (n + 2) }) ∨ State.reset.core k = {} := by
  have hidle : State.reset.idleCore k = {} := by simp [State.idleCore, State.reset, Sparse.get]
  rcases Sparse.get_mem_or (State.reset.idleCore k) State.reset.cores k with hlisted | hd
  · obtain ⟨n, hn, hentry⟩ := List.mem_map.1 hlisted
    obtain ⟨hk, hcore⟩ := Prod.mk.inj hentry
    exact .inl ⟨n, List.mem_range.1 hn, hk.symm, hcore.symm⟩
  · exact .inr (hd.trans hidle)

theorem reset_core_blank (k : Nat) : ∃ team, State.reset.core k = { team } := by
  rcases reset_core k with ⟨n, _, _, hcore⟩ | hcore
  · exact ⟨_, hcore⟩
  · exact ⟨none, hcore⟩

theorem reset_ctxAt (k x : Nat) : State.reset.ctxAt k x = {} := by
  obtain ⟨team, hcore⟩ := reset_core_blank k
  rw [State.ctxAt, hcore]; rfl

theorem reset_site (n : Nat) : State.reset.site n = {} := by
  rcases Sparse.get_mem_or {} State.reset.sites n with hlisted | hd
  · obtain ⟨_, _, hentry⟩ := List.mem_map.1 hlisted
    exact (Prod.mk.inj hentry).2.symm
  · exact hd

/-- A runtime team stands on the core it is made for. -/
theorem teamCore_runtimeTeam (part image k : Nat) : teamCore (runtimeTeam part image k) 0 0 = k := by
  simp only [runtimeTeam, teamCore, coreAt]; omega

theorem reset_teamAt {n : Nat} (hn : n < 24) : State.reset.teamAt (n * 1024) = some (runtimeTeam 0 1 (n * 1024)) := by
  revert n; decide

end Sys2Proof.Machine
end

section
/-!
CERTIFICATE. The reset state (R90, R110, R352, R354, R428, R429).
-/
namespace Sys2Proof.Machine

/-- Settles O55: what every core, context and site holds is the wipe's, and the teams stand where the boot firmware has placed them. -/
theorem resetState : Obligations.ResetState := by
  unfold Obligations.ResetState
  intro s
  refine ⟨fun _ => rfl, rfl, rfl, State.reset_wf, fun _ => rfl, fun k x => ?_, fun k => ?_, fun n => ?_, fun n hn => ?_, fun k hteam => ?_,
    rfl, rfl, rfl, rfl, rfl⟩
  · rw [reset_ctxAt]; exact ⟨rfl, rfl, rfl⟩
  · obtain ⟨team, hcore⟩ := reset_core_blank k
    rw [hcore]; exact ⟨rfl, rfl, rfl⟩
  · rw [reset_site]; exact ⟨rfl, rfl, rfl⟩
  · rw [reset_teamAt hn, Option.any_some, teamCore_runtimeTeam, beq_self_eq_true, Bool.and_true]; rfl
  · rcases reset_core k with ⟨n, hn, rfl, _⟩ | hcore
    · omega
    · rw [hcore] at hteam; cases hteam

end Sys2Proof.Machine
end

section
/-!
SUPPORT. A request for a reservation that comes to its home for the first time, where the word is free (R228).
-/
namespace Sys2Proof.Machine

/-- A request for a reservation on the first doubleword of device memory, on its way to the home. -/
def lrwRequest : PendOp := { op := 0, gen := 0, kind := .lrw, dest := .g 1, addrs := addrRange 0 8, place := .home 0 0, sent := true }

/-- The machine after reset, but that context 0 of core 0 waits for the home's decision on `lrwRequest` (log 87). -/
def lrwAsked : State := State.reset.mapCtx 0 0 fun t => { t with occupied := true, wait := some (.lrw 0), pend := [lrwRequest] }

theorem homeOpen_lrwAsked : HomeOpen lrwAsked (.lrwEnqueue 0 0 0) (opSite 0 lrwRequest.place) lrwRequest.addrs false :=
  ⟨by decide, by decide, by decide, by decide⟩

/-- Which operations of context 0 of core 0 are marked, in the state after a step, as having waited at their homes. -/
def waitedMarks : Host.Outcome State Fault Refusal → List Bool
  | .next s => (s.ctxAt 0 0).pend.map (·.waited)
  | _ => []

/-- LRW_ENQUEUE marks the request that it grants. -/
theorem waitedMarks_lrwEnqueue : waitedMarks (exec (.lrwEnqueue 0 0 0) lrwAsked) = [true] := by decide

end Sys2Proof.Machine
end

section
/-!
CERTIFICATE. What happens at homes, and what comes back (R104, R112, R118, R139, R226 to R229).
-/
namespace Sys2Proof.Machine

/-- Refutes O45: LRW_ENQUEUE marks its request as one that has waited before the home decides on it, and the mark stays with the
operation until its reply comes back; the statement's successors of a grant, of an answer and of a place in the queue leave the
operation as it was. In `lrwAsked` the word's reservation is free and the request is in its first cycle at the home: the step leaves
the mark set, and the statement has it clear. It is so for every request that
stands among its context's pending operations and is not marked yet. -/
theorem not_homesAndReturns : ¬ Obligations.HomesAndReturns := by
  intro h
  obtain ⟨hhomes, -⟩ := h
  obtain ⟨-, -, hlrw, -⟩ := hhomes lrwAsked 0 0 0 0 lrwRequest
    { core := 0, addr := 0, op := 0, opnd := 0, cmp := 0, comm := false, stat := false, scope := 0, ret := none, acks := [] } []
  obtain ⟨-, hfree, -⟩ := hlrw (by decide) homeOpen_lrwAsked
  have hmarks := congrArg waitedMarks (hfree rfl rfl)
  rw [waitedMarks_lrwEnqueue] at hmarks
  exact absurd hmarks (by decide)

end Sys2Proof.Machine
end

section
/-!
SUPPORT. A partition table out of order, whose two partitions have the same sites: a partition that a shootdown writes back comes to
stand before the other, and the cores without a team change sides (R361, R392).
-/
namespace Sys2Proof.Machine

/-- A partition of all sites of module 0 (R361). -/
def moduleWide : Partition := { mod := 0, sx0 := 0, sy0 := 0, w := 6, h := 4, sealLo := 0, sealHi := 0 }

/-- A pending load of the first doubleword of device memory. -/
def pendingLoad : PendOp := { op := 0, gen := 0, kind := .load, dest := .g 1, addrs := addrRange 0 8, place := .home 0 0, sent := true }

/-- A TLBINV.ALL that has removed nothing yet (R392). -/
def invalidateAll : Shoot := { id := 0, op := 1, arg := 0, status := 0, comp := noMsg }

/-- The machine after reset, but that its partition table lists partition 1 before partition 0, each with all sites; site 0 has
`invalidateAll` under way, and core 1, which no team holds, has `pendingLoad`. -/
def partsFalling : State :=
  (({ State.reset with parts := [(1, moduleWide), (0, moduleWide)] }).mapSite 0 fun t => { t with shoots := [invalidateAll] }).mapCtx 1 0
    fun t => { t with occupied := true, pend := [pendingLoad] }

/-- The team of core 0 is of partition 0. -/
theorem partAt_partsFalling : partsFalling.partAt 0 = 0 := by decide

/-- Core 1 counts for partition 1: partition 0 has no access to wait for. -/
theorem accesses_partsFalling : partsFalling.accesses 0 = [] := by decide

/-- The numbers of the shootdowns that site 0 has under way in the state after a step. -/
def shootsLeft : Host.Outcome State Fault Refusal → List Nat
  | .next s => (s.site 0).shoots.map (·.id)
  | _ => []

/-- Once the buffers are cleared core 1 counts for partition 0, and the shootdown waits for its load. -/
theorem shootsLeft_partsFalling : shootsLeft (exec (.tlbinvCompletion 0 0) partsFalling) = [0] := by decide

end Sys2Proof.Machine
end

section
/-!
CERTIFICATE. Walks, first touches, releases, shootdowns and audit records (R115 to R117, R364, R386 to R392).
-/
namespace Sys2Proof.Machine

/-- Refutes O50: a shootdown writes its partition back into the partition table, and gathers only then the accesses of the partition
that it waits for. The statement asks before the step that there be none, and of no order in that table. In `partsFalling`, whose table
lists partition 1 before partition 0, the entry written back comes to stand first; core 1 belongs to partition 0 from then on, its load
is waited for, and the shootdown stays, where the statement has it gone. No step makes a table out of order. -/
theorem not_tableSteps : ¬ Obligations.TableSteps := by
  intro h
  obtain ⟨-, -, -, -, -, hshoot, -⟩ := h partsFalling partsFalling (.ctx 0 0) 0 0 0 0 0 0 0 0 0 0 0 .read 0 invalidateAll 0 0 0 0 0
  rw [partAt_partsFalling] at hshoot
  obtain ⟨hremove, -⟩ := hshoot rfl
  obtain ⟨u, hu, -, hgone, -⟩ := hremove rfl (by decide) accesses_partsFalling (by decide) (by decide) rfl
  have hleft : (u.site 0).shoots.map (·.id) = [0] := by rw [← shootsLeft_partsFalling, hu]; rfl
  obtain ⟨o, ho, hid⟩ := List.mem_map.1 (hleft ▸ List.mem_singleton_self 0)
  exact hgone o ho hid

end Sys2Proof.Machine
end

section
/-!
SUPPORT. Operations that go on (R77, R123, R218): what the launching of pending operations, the sending of combined requests and the
acknowledgement of performed ones leave as it is: storage, and which operations are pending.
-/
namespace Sys2Proof.Machine

/-- Every operation pending in `c'` is one pending in `c`, of its number, kind and place. -/
def Ctx.pendFrom (c c' : Ctx) : Prop := ∀ q ∈ c'.pend, ∃ p ∈ c.pend, q.op = p.op ∧ q.kind = p.kind ∧ q.place = p.place

theorem Ctx.pendFrom_of_eq {c c' : Ctx} (h : c'.pend = c.pend) : c.pendFrom c' := fun q hq => ⟨q, h ▸ hq, rfl, rfl, rfl⟩

theorem Ctx.pendFrom_trans {c c' c'' : Ctx} (h : c.pendFrom c') (g : c'.pendFrom c'') : c.pendFrom c'' := by
  intro q hq
  obtain ⟨p, hp, eop, ekind, eplace⟩ := g q hq
  obtain ⟨o, ho, fop, fkind, fplace⟩ := h p hp
  exact ⟨o, ho, eop.trans fop, ekind.trans fkind, eplace.trans fplace⟩

theorem Ctx.pendFrom_filter {c c' : Ctx} {hit : PendOp → Bool} (h : c'.pend = c.pend.filter hit) : c.pendFrom c' :=
  fun q hq => ⟨q, (List.mem_filter.1 (h ▸ hq)).1, rfl, rfl, rfl⟩

theorem Ctx.pendFrom_map {c c' : Ctx} {f : PendOp → PendOp} (h : c'.pend = c.pend.map f)
    (hf : ∀ p, (f p).op = p.op ∧ (f p).kind = p.kind ∧ (f p).place = p.place) : c.pendFrom c' := by
  intro q hq
  obtain ⟨p, hp, rfl⟩ := List.mem_map.1 (h ▸ hq)
  exact ⟨p, hp, hf p⟩

theorem Ctx.pendFrom_putG (t : Ctx) (n : Nat) (r : Reg) : t.pendFrom (t.putG n r) := by
  obtain ⟨_, e⟩ := t.putG_regs n r; exact Ctx.pendFrom_of_eq (by rw [e])

namespace State

/-- `t` has the storage and the turn of `s`, and nothing is pending in it that was not in `s`. -/
structure GoesOn (s t : State) : Prop where
  storage : SameStorage s t
  cur : t.cur = s.cur
  ctx : t.ctx = s.ctx
  pend : ∀ k x, (s.ctxAt k x).pendFrom (t.ctxAt k x)

namespace GoesOn
variable {s t u : State}

theorem refl (s : State) : GoesOn s s := ⟨⟨fun _ => rfl, rfl, rfl⟩, rfl, rfl, fun _ _ => Ctx.pendFrom_of_eq rfl⟩

theorem trans (h : GoesOn s t) (g : GoesOn t u) : GoesOn s u where
  storage := h.storage.trans g.storage
  cur := g.cur.trans h.cur
  ctx := g.ctx.trans h.ctx
  pend := fun k x => Ctx.pendFrom_trans (h.pend k x) (g.pend k x)

theorem foldl {α : Type} {f : State → α → State} (h : ∀ s a, GoesOn s (f s a)) (l : List α) (s : State) :
    GoesOn s (l.foldl f s) := foldl_rel refl trans h l s

/-- A fold whose steps go on from any state with a property that is kept on the way. -/
theorem foldl_of {α : Type} {P : State → Prop} (keeps : ∀ {s t}, P s → GoesOn s t → P t) {f : State → α → State}
    (h : ∀ s a, P s → GoesOn s (f s a)) (l : List α) {s : State} (hs : P s) : GoesOn s (l.foldl f s) := by
  induction l generalizing s with
  | nil => exact refl s
  | cons a l ih => exact (h s a hs).trans (ih (keeps hs (h s a hs)))

end GoesOn

theorem FabricOnly.goesOn {s t : State} (h : FabricOnly s t) : GoesOn s t := by
  obtain ⟨_, _, rfl⟩ := h; exact ⟨⟨fun _ => rfl, rfl, rfl⟩, rfl, rfl, fun _ _ => Ctx.pendFrom_of_eq rfl⟩

theorem LinesOnly.goesOn {s t : State} (h : LinesOnly s t) : GoesOn s t := by
  have hctx : ∀ k x, t.ctxAt k x = s.ctxAt k x := fun k x => by obtain ⟨_, e⟩ := h.core k; rw [ctxAt, e]; rfl
  obtain ⟨_, _, _, rfl⟩ := h.rest
  exact ⟨⟨fun _ => rfl, rfl, rfl⟩, rfl, rfl, fun k x => Ctx.pendFrom_of_eq (by rw [hctx])⟩

/-- An update of one core that adds nothing to what its contexts have pending. -/
theorem setCore_goesOn {s : State} {k : Nat} {c : Core} (h : ∀ x, (s.ctxAt k x).pendFrom (Sparse.get {} c.ctxs x)) :
    GoesOn s (s.setCore k c) := by
  refine ⟨⟨fun _ => rfl, rfl, rfl⟩, rfl, rfl, fun j x => ?_⟩
  by_cases e : j = k
  · subst e; rw [ctxAt, ctxAt, core_setCore]; exact h x
  · rw [ctxAt, ctxAt, core_setCore_other _ _ _ _ e]; exact Ctx.pendFrom_of_eq rfl

/-- An update of one context, and of its core outside its contexts, that adds nothing to what the context has pending. -/
theorem setCore_ctx_goesOn {s : State} {k x : Nat} {t : Ctx} {c : Core} (hc : c.ctxs = Sparse.set (s.core k).ctxs x t)
    (h : (s.ctxAt k x).pendFrom t) : GoesOn s (s.setCore k c) := by
  refine setCore_goesOn fun y => ?_
  by_cases e : y = x
  · subst e; rw [hc, Sparse.get_set_same]; exact h
  · rw [hc, Sparse.get_set_other _ _ _ _ _ e]; exact Ctx.pendFrom_of_eq rfl

theorem mapCtx_goesOn {s : State} {k x : Nat} {f : Ctx → Ctx} (h : (s.ctxAt k x).pendFrom (f (s.ctxAt k x))) :
    GoesOn s (s.mapCtx k x f) := setCore_ctx_goesOn rfl h
theorem mapCore_goesOn {s : State} {k : Nat} {f : Core → Core} (h : (f (s.core k)).ctxs = (s.core k).ctxs) :
    GoesOn s (s.mapCore k f) := setCore_goesOn fun x => Ctx.pendFrom_of_eq (by rw [h]; rfl)
theorem mapNi_goesOn (s : State) (k : Nat) (f : NI → NI) : GoesOn s (s.mapNi k f) := mapCore_goesOn rfl

theorem dropOp_goesOn (s : State) (k x op : Nat) : GoesOn s (s.dropOp k x op) := mapCtx_goesOn (Ctx.pendFrom_filter rfl)
theorem mapOp_goesOn {f : PendOp → PendOp} (s : State) (k x op : Nat)
    (hf : ∀ p, (f p).op = p.op ∧ (f p).kind = p.kind ∧ (f p).place = p.place) : GoesOn s (s.mapOp k x op f) :=
  mapCtx_goesOn (Ctx.pendFrom_map rfl fun p => by
    split
    · exact hf p
    · exact ⟨rfl, rfl, rfl⟩)

/-! Caches. -/

theorem staleFills_goesOn (s : State) (k : Nat) (hit : Nat → Bool) : GoesOn s (s.staleFills k hit) := by
  refine ⟨⟨fun _ => rfl, rfl, rfl⟩, rfl, rfl, fun j x => ?_⟩
  refine Sparse.get_map_rel (R := fun c c' : Core => (Sparse.get {} c.ctxs x : Ctx).pendFrom (Sparse.get {} c'.ctxs x))
    (fun j c => if inCluster (siteOf k) (clusterOf k) j then { c with ctxs := Sparse.mapVals (staleCtx hit) c.ctxs } else c)
    (fun j c => ?_) (s.idleCore j) (Ctx.pendFrom_of_eq rfl) s.cores j
  split
  · rw [Sparse.get_mapVals _ _ _ _ rfl]; exact Ctx.pendFrom_map rfl fun p => ⟨rfl, rfl, rfl⟩
  · exact Ctx.pendFrom_of_eq rfl

theorem dropCopiesOf_goesOn (s : State) (k : Nat) (hit : Nat → Bool) : GoesOn s (s.dropCopiesOf k hit) := by
  unfold dropCopiesOf; extract_lets site cl s₁
  have h : GoesOn s s₁ := (s.staleFills_goesOn _ _).trans (dropL1_lines _ _ _).goesOn
  split
  · exact h
  · exact h.trans (setClusterLines_lines _ _ _ _).goesOn

theorem dropLine_lines (s : State) (k line : Nat) : LinesOnly s (s.dropLine k line) := by
  unfold dropLine; split
  · exact s.evictLine_lines _ _ _
  · exact s.dropL1_lines _ _

theorem forgetLines_lines (s : State) (at_ gone : Nat → Bool) : LinesOnly s (s.forgetLines at_ gone) :=
  (s.dropL1_lines _ _).trans (FabricOnly.lines ⟨_, _, rfl⟩)

theorem evictHalves_lines (s : State) (site line : Nat) : LinesOnly s (s.evictHalves site line) := by
  unfold evictHalves; split
  · exact .refl s
  · exact (s.mapSite_fabric _ _).lines.trans (forgetLines_lines _ _ _)

/-! Values that bind (R76). -/

theorem bindSlot_goesOn (s : State) (k x n : Nat) : GoesOn s (s.bindSlot k x n) := by
  unfold bindSlot; extract_lets t t' c
  split
  · exact setCore_ctx_goesOn rfl (Ctx.pendFrom_of_eq rfl)
  · exact setCore_ctx_goesOn rfl (Ctx.pendFrom_map rfl fun p => ⟨rfl, rfl, rfl⟩)

theorem deposit_goesOn (s : State) (k x : Nat) (p : PendOp) (bytes : List Byte) (tg : Bool) :
    GoesOn s (s.deposit k x p bytes tg) := by
  unfold deposit; extract_lets s₁ elems s₂
  have h₂ : GoesOn s₁ s₂ := by
    unfold s₂; split
    · exact mapCtx_goesOn (Ctx.pendFrom_putG _ _ _)
    · exact mapCtx_goesOn (Ctx.pendFrom_putG _ _ _)
    · exact mapCtx_goesOn (Ctx.pendFrom_of_eq rfl)
    · exact mapCore_goesOn rfl
    · exact .refl _
  refine ((s.dropOp_goesOn _ _ _).trans h₂).trans ?_
  split
  · exact bindSlot_goesOn _ _ _ _
  · exact .refl _

theorem bindLoad_goesOn (s : State) (k x : Nat) (p : PendOp) : GoesOn s (s.bindLoad k x p) := by
  unfold bindLoad; extract_lets t bytes tg s₁ s₂
  have h₁ : GoesOn s s₁ := (s.deposit_goesOn _ _ _ _ _).trans (.foldl (fun s l => by
    split
    · exact (mapCore_lines ⟨_, rfl⟩).goesOn
    · exact .refl s) _ _)
  have h₂ : GoesOn s₁ s₂ := by
    unfold s₂; split
    · exact dropCopiesOf_goesOn _ _ _
    · exact .refl _
  refine (h₁.trans h₂).trans ?_
  split
  · exact (pushOnce_fabric _ _).goesOn
  · exact .refl _

theorem fillFromCluster_goesOn (s : State) (k : Nat) (as : List Nat) : GoesOn s (s.fillFromCluster k as) :=
  .foldl (fun s l => by
    split
    · split
      · exact .refl s
      · exact (s.l1Install_lines _ _ _).goesOn
    · exact .refl s) _ s

/-! Combined requests (R142). -/

theorem routeOnce_fabric (s : State) (src owner flits cls : Nat) (e : Event) : FabricOnly s (s.routeOnce src owner flits cls e) := by
  unfold routeOnce; split
  · exact .refl s
  · exact s.route_fabric _ _ _ _ _

theorem sendAmo_fabric (s : State) (k : Nat) (r : AmoReq) (p : Place) : FabricOnly s (s.sendAmo k r p) := by
  unfold sendAmo; split
  · exact s.push_fabric _
  · exact s.route_fabric _ _ _ _ _
  · exact s.route_fabric _ _ _ _ _

theorem combineSend_goesOn (s : State) (k i : Nat) : GoesOn s (s.combineSend k i) := by
  unfold combineSend; split
  · exact .refl s
  · exact (s.mapNi_goesOn _ _).trans (sendAmo_fabric _ _ _ _).goesOn

theorem combineEnter_goesOn (s : State) (k : Nat) (r : AmoReq) (p : Place) : GoesOn s (s.combineEnter k r p) := by
  unfold combineEnter; extract_lets ni s₁
  split
  · exact s.mapNi_goesOn _ _
  · have h₁ : GoesOn s s₁ := by
      unfold s₁; split
      · exact s.combineSend_goesOn _ _
      · exact .refl s
    exact h₁.trans (mapNi_goesOn _ _ _)

theorem combineFlush_goesOn (s : State) (k x n : Nat) : GoesOn s (s.combineFlush k x n) :=
  .foldl (fun s e => by
    split
    · exact s.combineSend_goesOn _ _
    · exact .refl s) _ s

/-! Launches (R218). -/

/-- What is launched, but for a store by its core's own bank ports (R113), writes nothing. -/
theorem launch_goesOn (s : State) (k x : Nat) (p : PendOp) (h : p.kind = .store → localPlace p.place = false) :
    GoesOn s (s.launch k x p) := by
  have hsent : GoesOn s (s.mapOp k x p.op fun q => { q with sent := true }) := s.mapOp_goesOn _ _ _ fun _ => ⟨rfl, rfl, rfl⟩
  unfold launch; extract_lets sent go byRoute
  have hgo (owner : Nat) (e : Event) : GoesOn s (go owner e) := by
    unfold go; split
    · exact hsent.trans (route_fabric _ _ _ _ _ _).goesOn
    · exact .refl s
  have hby (e : Event) : GoesOn s (byRoute e) := hgo _ e
  split
  next =>
    split
    · exact s.bindLoad_goesOn _ _ _
    · exact s.bindLoad_goesOn _ _ _
    · exact hby _
    · split
      · exact hby _
      · split
        · exact s.bindLoad_goesOn _ _ _
        · split
          · exact (s.fillFromCluster_goesOn _ _).trans (bindLoad_goesOn _ _ _ _)
          · exact hby _
  next =>
    split
    · exact s.dropOp_goesOn _ _ _
    · exact hby _
  next => exact hby _
  next => exact hby _
  next hkind => rw [if_neg (by simp [h hkind])]; exact hby _
  next => exact hby _
  next =>
    split
    · exact .refl s
    · split
      · refine GoesOn.trans ?_ (combineEnter_goesOn _ _ _ _)
        split
        · exact s.dropOp_goesOn _ _ _
        · exact hsent
      · split
        · exact hsent.trans (sendAmo_fabric _ _ _ _).goesOn
        · exact .refl s
  next => exact hby _
  next => exact hby _
  next =>
    split
    · exact .refl s
    · split
      · exact hgo _ _
      · exact hby _
      · exact hgo _ _
  next =>
    split
    · exact .refl s
    · exact hgo _ _
  next => exact s.dropOp_goesOn _ _ _
  next =>
    split
    · exact .refl s
    · extract_lets owner
      split
      · exact (s.dropOp_goesOn _ _ _).trans (route_fabric _ _ _ _ _ _).goesOn
      · exact .refl s

theorem askFlush_fabric (s : State) (k x : Nat) (mods : List Nat) : FabricOnly s (s.askFlush k x mods) :=
  .foldl (fun s _ => s.routeOnce_fabric _ _ _ _ _) mods s

theorem startFlush_goesOn (s : State) (k x : Nat) (p : PendOp) : GoesOn s (s.startFlush k x p) := by
  unfold startFlush; extract_lets t
  split
  · refine .trans ?_ (askFlush_fabric _ _ _ _).goesOn
    exact s.mapOp_goesOn _ _ _ fun _ => ⟨rfl, rfl, rfl⟩
  · exact .refl s

/-- No store of the context is one that its core's own bank ports would perform next (R113). -/
def NoLocalStore (s : State) (k x : Nat) : Prop := ∀ q ∈ (s.ctxAt k x).pend, q.kind = .store → localPlace q.place = false

theorem NoLocalStore.of_pendFrom {s t : State} {k x : Nat} (hn : NoLocalStore s k x) (h : (s.ctxAt k x).pendFrom (t.ctxAt k x)) :
    NoLocalStore t k x := by
  intro q hq hkind
  obtain ⟨p, hp, -, ekind, eplace⟩ := h q hq
  rw [eplace]; exact hn p hp (ekind ▸ hkind)

theorem NoLocalStore.goesOn {s t : State} {k x : Nat} (hn : NoLocalStore s k x) (h : GoesOn s t) : NoLocalStore t k x :=
  hn.of_pendFrom (h.pend k x)

/-- A pending operation of a context is looked at: it is launched where it is ready, its flush begun and its combined requests
sent where it waits for them (R133, R134, R142). -/
def kickOp (k x : Nat) (s : State) (op : Nat) : State :=
  match s.findOp k x op with
  | none => s
  | some p =>
    let s := if p.rel.isSome then (s.startFlush k x p).combineFlush k x p.seq else s
    if s.opReady (s.ctxAt k x) p && !s.behindPut k (s.ctxAt k x) p then s.launch k x p else s

theorem kickOp_goesOn {s : State} {k x : Nat} (hn : NoLocalStore s k x) (op : Nat) : GoesOn s (kickOp k x s op) := by
  unfold kickOp
  split
  · exact .refl s
  next p hp =>
    extract_lets s₁
    have h₁ : GoesOn s s₁ := by
      unfold s₁; split
      · exact (s.startFlush_goesOn _ _ _).trans (combineFlush_goesOn _ _ _ _)
      · exact .refl s
    split
    · exact h₁.trans (launch_goesOn _ _ _ _ (hn p (List.mem_of_find?_eq_some hp)))
    · exact h₁

/-- Where no store of a context is its core's own bank ports' to perform, what the context has pending goes on with nothing
written. -/
theorem kick_goesOn {s : State} {k x : Nat} (hn : NoLocalStore s k x) : GoesOn s (s.kick k x) := by
  unfold kick; extract_lets s₁ t onWay s₂
  have h₁ : GoesOn s s₁ := .foldl_of (f := kickOp k x) NoLocalStore.goesOn (fun s op hs => kickOp_goesOn hs op) _ hn
  have h₂ : GoesOn s₁ s₂ := .foldl (fun s _ => (s.pushOnce_fabric _).goesOn) _ _
  split
  · exact (h₁.trans h₂).trans (pushOnce_fabric _ _).goesOn
  · exact h₁.trans h₂

end State
end Sys2Proof.Machine
end

section
/-!
SUPPORT. Fences and cache operations (R135, R142, R150, R221): what each does, in a transaction and outside.
-/
namespace Sys2Proof.Machine

/-! FENCE and FENCE.ss (R135). -/

section
variable {s : State} {sc : BitVec 3}

theorem fence_aborts (htxn : s.task.txn.isSome = true) (hsc : 4 ≤ sc.toNat) :
    exec (.fence sc) s = .next (s.abortTxn s.cur s.ctx 4 0 false) := by
  simp only [exec_fence, execFence, htxn, hsc, decide_true, Bool.and_self, if_true]; rfl

theorem fenceSs_aborts (htxn : s.task.txn.isSome = true) (hsc : 4 ≤ sc.toNat) :
    exec (.fenceSs sc) s = .next (s.abortTxn s.cur s.ctx 4 0 false) := by
  simp only [exec_fenceSs, execFenceSs, htxn, hsc, decide_true, Bool.and_self, if_true]; rfl

section
variable (htxn : s.task.txn = none)
include htxn

theorem fence_over {f : State} (hf : s.combineFlush s.cur s.ctx s.task.opNo = f)
    (hpend : f.task.pend.all (fun p => !unboundOp p && p.kind != .fenceSs) = true) (hsack : f.task.sack = 0)
    (hout : State.nextOut f.task = none) (hflush : sc.toNat < 4 ∨ State.flushOver f.task f.task.flush = true) :
    exec (.fence sc) s = retired (if 4 ≤ sc.toNat then (f.mapTask fun t => { t with flush := none }).dropCopies s.cur
      else f.mapTask fun t => { t with flush := none }) := by
  have hcur : f.cur = s.cur := hf ▸ (s.combineFlush_goesOn _ _ _).cur
  have hbound : (f.task.pend.any (fun p => unboundOp p || p.kind == .fenceSs) || !drained f.task) = false := by
    rw [Bool.or_eq_false_iff, List.any_eq_false]
    refine ⟨fun p hp => ?_, by simp [drained, hsack, hout]⟩
    simpa using List.all_eq_true.1 hpend p hp
  have hfar : (decide (4 ≤ sc.toNat) && !State.flushOver f.task f.task.flush) = false := by
    rcases hflush with h | h
    · simp [show ¬4 ≤ sc.toNat by omega]
    · simp [h]
  simp only [exec_fence, execFence, htxn, hf, hbound, hfar, Option.isSome_none, Bool.false_and,
    Bool.false_eq_true, if_false, State.mapTask_cur, hcur]
  rfl

theorem fenceSs_placed : exec (.fenceSs sc) s =
    retired ((s.addOp { op := 0, gen := 0, kind := .fenceSs, rel := some sc.toNat }).kick s.cur s.ctx) := by
  simp only [exec_fenceSs, execFenceSs, htxn, Option.isSome_none, Bool.false_and, Bool.false_eq_true, if_false]; rfl

end
end

/-! PREF (R221). -/

section
variable {s : State} {a : BitVec 6} (hb : s.busyG a = false)
include hb

theorem pref_txn (htxn : s.task.txn.isSome = true) : exec (.pref a) s = retired s := by
  simp only [exec_pref, execPref, hb, htxn, Bool.false_eq_true, if_false, if_true]; rfl

theorem pref_refused (htxn : s.task.txn = none)
    (hc : (capFault (s.supAt s.cur) (s.g a) (s.g a).val 1 [pLD] 1).isSome = true) : exec (.pref a) s = retired s := by
  simp only [exec_pref, execPref, hb, htxn, hc, Option.isSome_none, Bool.false_eq_true, if_false, if_true]; rfl

/-- A line of memory, or of HOST memory that a port reaches, with no unit poisoned is fetched. -/
theorem pref_fetches (htxn : s.task.txn = none) (hc : capFault (s.supAt s.cur) (s.g a) (s.g a).val 1 [pLD] 1 = none) {b : Nat} {p : Place}
    (hx : s.xlateHomed s.cur (s.g a).val.toNat .read = .ok b p) (hp : tracked p = true)
    (hport : ∀ st, p = .host st → (s.portOf st).isSome = true) (hclear : s.poisonedByte (addrRange (b / 128 * 128) 128) = none) :
    exec (.pref a) s = retired ((s.addOp { op := 0, gen := 0, kind := .pref, va := (s.g a).val
                                           addrs := addrRange (b / 128 * 128) 128, place := p, deps := (s.g a).taint }).kick s.cur s.ctx) := by
  have hclear' : s.poisonedByte (addrRange (lineOf b * 128) 128) = none := hclear
  simp only [exec_pref, execPref, hb, htxn, hc, hx, hclear', Option.isSome_none, Option.isNone_none, Bool.false_eq_true, if_false]
  cases p with
  | home _ _ => rfl
  | host st => simp only [hport st rfl]; rfl
  | own => cases hp
  | share _ => cases hp
  | fifo _ => cases hp

end

/-! CFLUSH and CINV (R221, R418). -/

/-- The line of an address has left the caches of the issuing core's cluster, and its halves have gone back to the host. -/
def State.lineGone (s : State) (b : Nat) : State := (s.dropLine s.cur (b / 128)).evictHalves (siteOf s.cur) (b / 128)

section
variable {s : State} {a : BitVec 6}

theorem cacheOp_txn (htxn : s.task.txn.isSome = true) : cacheOp a s = retired s := by
  simp only [cacheOp, htxn, if_true]; rfl

section
variable (htxn : s.task.txn = none) (hb : s.busyG a = false) (hc : capFault (s.supAt s.cur) (s.g a) (s.g a).val 1 [pLD] 1 = none)
  (ht : (s.g a).taint = 0) {b : Nat} {p : Place} (hx : s.xlate s.cur (s.g a).val.toNat .read = .ok b p)
include htxn hb hc ht hx

/-- Its checks made and its address translated, the operation turns on the line. -/
theorem cacheOp_located : cacheOp a s =
    if !tracked p then retire s
    else if !(s.clusterFind s.cur (b / 128)).any (·.state.isDirty) then retire (s.lineGone b)
    else if s.counterFull p then stall s
    else
      let u := (s.lineGone b).countOp (modOf s.cur)
      retire ((u.addOp { op := 0, gen := 0, kind := .clean, place := p, counted := true }).kick u.cur u.ctx) := by
  have hhomed : s.xlateHomed s.cur (s.g a).val.toNat .read = .ok b p := by rw [State.xlateHomed, hx]
  simp only [cacheOp, htxn, hb, checked, hc, ht, hhomed, located, hx, Option.isSome_none, Bool.false_eq_true, if_false]
  rfl

theorem cacheOp_region (hp : tracked p = false) : cacheOp a s = retired s := by
  rw [cacheOp_located htxn hb hc ht hx, hp]; rfl

variable (hp : tracked p = true)
include hp

theorem cacheOp_clean (hd : (s.clusterFind s.cur (b / 128)).any (·.state.isDirty) = false) : cacheOp a s = retired (s.lineGone b) := by
  rw [cacheOp_located htxn hb hc ht hx, hp, hd]; rfl

theorem cacheOp_dirty (hd : (s.clusterFind s.cur (b / 128)).any (·.state.isDirty) = true) (hfull : s.counterFull p = false) :
    cacheOp a s = retired ((((s.lineGone b).countOp (modOf s.cur)).addOp
      { op := 0, gen := 0, kind := .clean, place := p, counted := true }).kick s.cur s.ctx) := by
  have hgone : State.GoesOn s (s.lineGone b) := ((s.dropLine_lines _ _).trans (State.evictHalves_lines _ _ _)).goesOn
  have hcur : ((s.lineGone b).countOp (modOf s.cur)).cur = s.cur := hgone.cur
  have hctx : ((s.lineGone b).countOp (modOf s.cur)).ctx = s.ctx := hgone.ctx
  rw [cacheOp_located htxn hb hc ht hx, hp, hd, hfull]
  simp only [hcur, hctx]; rfl

end
end
end Sys2Proof.Machine
end

section
/-!
CERTIFICATE. Fences and cache operations (R130, R135, R142, R221, R418).
-/
namespace Sys2Proof.Machine

/-- Settles O18: inside a transaction a far fence aborts and a cache operation only retires; outside, a fence turns on what its
context waits for, PREF on what it may fetch, CFLUSH and CINV on whether the line is dirty. -/
theorem fencesAndCaches : Obligations.FencesAndCaches := by
  unfold Obligations.FencesAndCaches
  intro s sc a c f adds drops
  refine ⟨fun htxn => ⟨fence_over htxn rfl, fenceSs_placed htxn, fun hb hc => ?_, fun hb hc => pref_refused hb htxn hc⟩,
    fun htxn => ⟨fun hsc => ⟨fence_aborts htxn hsc, fenceSs_aborts htxn hsc⟩, cacheOp_txn htxn, cacheOp_txn htxn,
      fun hb => pref_txn hb htxn⟩⟩
  have drops_of {i : Instr} (hi : exec i s = cacheOp a s) : drops i := fun b p ht hx =>
    ⟨fun hp => hi.trans (cacheOp_region htxn hb hc ht hx hp), fun hp hd => hi.trans (cacheOp_clean htxn hb hc ht hx hp hd),
      fun hp hd hfull => hi.trans (cacheOp_dirty htxn hb hc ht hx hp hd hfull)⟩
  exact ⟨fun b p hx hp hport hclear => pref_fetches hb htxn hc hx hp hport hclear, drops_of rfl, drops_of rfl⟩

end Sys2Proof.Machine
end

section
/-!
SUPPORT. Sync blocks (R264 to R266): a block written reads back, wherever its team's core stands.
-/
namespace Sys2Proof.Machine

namespace Sparse
variable {α : Type}

/-- An entry of a sorted table is what its key finds. -/
theorem find_of_mem_sorted {lo k : Nat} {x : α} {m : Sparse α} (hs : sortedFrom lo m = true) (h : (k, x) ∈ m) :
    lo ≤ k ∧ find m k = some x := by
  induction m generalizing lo with
  | nil => cases h
  | cons p t ih =>
    obtain ⟨j, y⟩ := p
    simp only [sortedFrom, Bool.and_eq_true, decide_eq_true_eq] at hs
    rcases List.mem_cons.1 h with h | h
    · cases h; exact ⟨hs.1, if_pos rfl⟩
    · obtain ⟨hlt, hf⟩ := ih hs.2 h
      exact ⟨by omega, by rw [find, if_neg (by omega)]; exact hf⟩

/-- The first entry of a sorted table that a test selects stays the first, written anew, while the test selects it. -/
theorem find?_set_first {lo k : Nat} {x y : α} {m : Sparse α} {P : Nat × α → Bool} (hs : sortedFrom lo m = true)
    (h : m.find? P = some (k, x)) (hy : P (k, y) = true) : (set m k y).find? P = some (k, y) := by
  induction m generalizing lo with
  | nil => cases h
  | cons p t ih =>
    obtain ⟨j, z⟩ := p
    simp only [sortedFrom, Bool.and_eq_true, decide_eq_true_eq] at hs
    by_cases hp : P (j, z) = true
    · rw [List.find?_cons_of_pos hp] at h
      cases h
      simp [set, List.find?_cons_of_pos hy]
    · rw [List.find?_cons_of_neg hp] at h
      have hlt := (find_of_mem_sorted hs.2 (List.mem_of_find?_eq_some h)).1
      rw [set, if_neg (by omega), if_neg (by omega), List.find?_cons_of_neg hp]
      exact ih hs.2 h

end Sparse

namespace State

theorem mapNi_sameTeams (s : State) (k : Nat) (f : NI → NI) : SameTeams s (s.mapNi k f) := by
  refine ⟨rfl, rfl, rfl, fun j => ?_⟩
  by_cases e : j = k
  · subst e; rw [core_mapNi]; exact ⟨rfl, rfl⟩
  · rw [core_mapNi_other _ _ _ _ e]; exact ⟨rfl, rfl⟩

section
variable {s : State} {grid idx uid : Nat} {t : Team} (hs : Sparse.sortedFrom 0 s.teams = true)
  (ht : s.teamUid grid idx = some (uid, t))
include hs ht

/-- The teams after an update of one that its grid and index name. -/
theorem mapTeam_named (f : Team → Team) : s.mapTeam uid f = { s with teams := Sparse.set s.teams uid (f t) } := by
  rw [mapTeam, (Sparse.find_of_mem_sorted hs (List.mem_of_find?_eq_some ht)).2]

/-- Each core is in the partition it was in, where its team keeps its partition. -/
theorem partAt_mapTeam {f : Team → Team} (hf : (f t).part = t.part) (k : Nat) : (s.mapTeam uid f).partAt k = s.partAt k := by
  have hfind := (Sparse.find_of_mem_sorted hs (List.mem_of_find?_eq_some ht)).2
  have hteam : ((s.mapTeam uid f).teamAt k).map (·.part) = (s.teamAt k).map (·.part) := by
    rw [mapTeam_named hs ht]
    show ((s.core k).team.bind _).map _ = ((s.core k).team.bind _).map _
    rcases (s.core k).team with _ | u
    · rfl
    · by_cases e : u = uid
      · subst e; simp [hfind, hf]
      · simp [Sparse.find_set_other _ _ _ _ e]
  rcases hb : s.teamAt k with _ | t₀
  · have ha : (s.mapTeam uid f).teamAt k = none := by simpa [hb] using hteam
    simp only [partAt, ha, hb, mapTeam_parts]
  · obtain ⟨t₁, ha, hpart⟩ : ∃ t₁, (s.mapTeam uid f).teamAt k = some t₁ ∧ t₁.part = t₀.part := by simpa [hb] using hteam
    simp only [partAt, ha, hb, hpart]

/-- A team whose grid, index and partition an update keeps is found by them as before. -/
theorem teamUid_mapTeam {f : Team → Team} (hf : (f t).part = t.part ∧ (f t).grid = t.grid ∧ (f t).idx = t.idx) :
    (s.mapTeam uid f).teamUid grid idx = some (uid, f t) := by
  obtain ⟨hpart, hgrid, hidx⟩ := hf
  have hp := List.find?_some ht
  simp only [teamUid, partAt_mapTeam hs ht hpart, mapTeam_cur]
  rw [mapTeam_named hs ht]
  exact Sparse.find?_set_first hs ht (by simpa only [hpart, hgrid, hidx] using hp)

end

/-- A core's blocks and records in its team's swap area, written (R50). -/
def syncSaved (w : Word) (t : Team) (sv : Sparse SavedCore) (b : Sparse SyncBlock) (p : Sparse Plumb) (u : Team) : Team :=
  { u with saved := some (Sparse.set sv (savedKey t (blkX w) (blkY w))
      { (Sparse.get {} sv (savedKey t (blkX w) (blkY w)) : SavedCore) with sync := b, plumbs := p }) }

section
variable {s : State} {w : Word} {uid : Nat} {t : Team} (ht : s.teamUid (blkGrid w) (blkTeam w) = some (uid, t))
include ht

theorem putSyncStore_saved {sv : Sparse SavedCore} (h : t.saved = some sv) (b : Sparse SyncBlock) (p : Sparse Plumb) :
    s.putSyncStore w b p = s.mapTeam uid (syncSaved w t sv b p) := by simp only [putSyncStore, ht, h]; rfl

theorem putSyncStore_placed (h : t.saved = none) (b : Sparse SyncBlock) (p : Sparse Plumb) :
    s.putSyncStore w b p = s.mapNi (teamCore t (blkX w) (blkY w)) fun ni => { ni with sync := b, plumbs := p } := by
  simp only [putSyncStore, ht, h]

variable (hin : (w.getLsbD 5 || t.w ≤ blkX w || t.h ≤ blkY w || t.state == .ended) = false)
include hin

theorem syncStore_saved {sv : Sparse SavedCore} (h : t.saved = some sv) : s.syncStore w =
    some ((Sparse.get {} sv (savedKey t (blkX w) (blkY w)) : SavedCore).sync,
      (Sparse.get {} sv (savedKey t (blkX w) (blkY w)) : SavedCore).plumbs) := by
  simp only [syncStore, ht, hin, h]; rfl

theorem syncStore_placed (h : t.saved = none) : s.syncStore w =
    some ((s.core (teamCore t (blkX w) (blkY w))).ni.sync, (s.core (teamCore t (blkX w) (blkY w))).ni.plumbs) := by
  simp only [syncStore, ht, hin, h]; rfl

end

/-- A core whose blocks a name word names belongs to a team's rectangle. -/
theorem named_of_syncStore {s : State} {w : Word} {r : Sparse SyncBlock × Sparse Plumb} (h : s.syncStore w = some r) :
    ∃ uid t, s.teamUid (blkGrid w) (blkTeam w) = some (uid, t)
      ∧ (w.getLsbD 5 || t.w ≤ blkX w || t.h ≤ blkY w || t.state == .ended) = false := by
  unfold syncStore at h
  split at h
  · cases h
  next uid t ht =>
    split at h
    · cases h
    next hin => exact ⟨uid, t, ht, Bool.eq_false_of_not_eq_true hin⟩

/-- The blocks and records of a core that a name word names, written, read back (R264). -/
theorem syncStore_putSyncStore {s : State} {w : Word} {old : Sparse SyncBlock × Sparse Plumb} (hs : Sparse.sortedFrom 0 s.teams = true)
    (h : s.syncStore w = some old) (b : Sparse SyncBlock) (p : Sparse Plumb) :
    (s.putSyncStore w b p).syncStore w = some (b, p) := by
  obtain ⟨uid, t, ht, hin⟩ := named_of_syncStore h
  cases hsaved : t.saved with
  | some sv =>
    have hu : (s.mapTeam uid (syncSaved w t sv b p)).teamUid (blkGrid w) (blkTeam w) = some (uid, syncSaved w t sv b p t) :=
      teamUid_mapTeam hs ht ⟨rfl, rfl, rfl⟩
    rw [putSyncStore_saved ht hsaved, syncStore_saved hu hin rfl, show savedKey (syncSaved w t sv b p t) = savedKey t from rfl,
      Sparse.get_set_same]
  | none =>
    have hu : (s.mapNi (teamCore t (blkX w) (blkY w)) fun ni => { ni with sync := b, plumbs := p }).teamUid (blkGrid w) (blkTeam w)
        = some (uid, t) := by
      rw [← ht]; simp only [teamUid, (s.mapNi_sameTeams _ _).partAt]; rfl
    rw [putSyncStore_placed ht hsaved, syncStore_placed hu hin hsaved, core_mapNi]

/-- A block written reads back (R264). -/
theorem blockAt_putBlock {s : State} {w : Word} {old : SyncBlock} (hs : Sparse.sortedFrom 0 s.teams = true)
    (h : s.blockAt w = some old) (b : SyncBlock) : (s.putBlock w b).blockAt w = some b := by
  obtain ⟨⟨bs, ps⟩, hstore, -⟩ := Option.bind_eq_some_iff.1 h
  simp only [putBlock, hstore, blockAt, syncStore_putSyncStore hs hstore, Option.bind_some, Sparse.find_set_same]

/-- The end of an episode in which no arrival stands counted opens the next one (R265, R266). -/
theorem blockAt_endEpisode {s : State} {w : Word} {b : SyncBlock} (hs : Sparse.sortedFrom 0 s.teams = true)
    (h : s.blockAt w = some b) (ha : b.arrivals = []) (broken : Bool) (expected : Nat) :
    (s.endEpisode w b broken expected).blockAt w = some { b with
      episode := (b.episode + 1) % 2 ^ 24, arrived := 0, expected, lastBroken := broken, arrivals := [], roll := b.members
      openedAt := (s.core (s.blockOwner w)).cycle, frozen := s.gridFrozen (blkGrid w) } := by
  simp only [endEpisode, ha, List.foldl_nil]
  exact blockAt_putBlock hs h _

end State
end Sys2Proof.Machine
end

section
/-!
SUPPORT. BARR, BWAIT and the arrivals at a block (R143, R266, R267).
-/
namespace Sys2Proof.Machine

theorem getLsbD_top (w : Word) : w.getLsbD 63 = decide (w.toNat / 2 ^ 63 = 1) := by
  rw [← BitVec.testBit_toNat, Nat.testBit_eq_decide_div_mod_eq, Nat.mod_eq_of_lt (by omega)]

/-- Registers that are ready bring no taint (R244). -/
theorem taintOf_ready {s : State} {rs : List (BitVec 6)} (h : Ready s rs) : s.taintOf rs = 0 := by
  unfold State.taintOf
  induction rs with
  | nil => rfl
  | cons r rs ih =>
    rw [List.foldl_cons, (h r List.mem_cons_self).2]
    exact ih fun q hq => h q (List.mem_cons_of_mem _ hq)

theorem anyBusy_ready {s : State} {rs : List (BitVec 6)} (h : Ready s rs) : s.anyBusy rs = false :=
  List.any_eq_false.2 fun r hr => by rw [(h r hr).1]; decide

/-- The continuation message that a BARR's descriptor in `gb` asks for (R266). -/
def State.barrMsg (s : State) (b : BitVec 6) : Message :=
  s.posed { noMsg with
    dst := s.cur, team := (s.teamAt s.cur).map fun t => (t.grid, t.idx), handler := (s.g b).val.toNat % 2 ^ 12
    cls := (s.g b).val.toNat / 2 ^ 12 % 4, release := true, a2 := (s.g 56).val, a3 := (s.g 57).val, a4 := (s.g 58).val }

/-- The arrival of a BARR at the block that `ga` names, with its continuation where the descriptor in `gb` asks for one (R266). -/
def State.barrArrival (s : State) (a b : BitVec 6) : Arrival :=
  { blk := (s.g a).val, core := s.cur, ctx := s.ctx, gen := s.task.gen, op := s.task.opNo
    cont := if decide ((s.g b).val.toNat / 2 ^ 63 = 1) then some (s.barrMsg b) else none }

theorem barr_arrives {s : State} {a b : BitVec 6} {blk : SyncBlock} (htxn : s.task.txn = none) (hmark : s.here.poisonMark = false)
    (hready : Ready s ([a, b] ++ if decide ((s.g b).val.toNat / 2 ^ 63 = 1) then [56, 57, 58] else []))
    (hres : (s.g b).val.toNat / 2 ^ 14 % 2 ^ 49 = 0) (hcap : syncCapOk (s.g a) = true) (hblk : s.blockAt (s.g a).val = some blk)
    (hpoison : blk.poisoned = false) : exec (.barr a b) s =
      retired (((s.mapTask fun t => { t with barr := some { blk := (s.g a).val, op := s.task.opNo } }).addOp
        { op := 0, gen := 0, kind := .arrival, rel := some 5, arr := some (s.barrArrival a b) }).kick s.cur s.ctx) := by
  have hzero : (s.g b).val.extractLsb' 14 49 = 0 := BitVec.eq_of_toNat_eq (by rw [extract_toNat, hres]; rfl)
  have hhandler : ((s.g b).val.extractLsb' 0 12).toNat = (s.g b).val.toNat % 2 ^ 12 := by
    rw [extract_toNat, Nat.pow_zero, Nat.div_one]
  have hcls : ((s.g b).val.extractLsb' 12 2).toNat = (s.g b).val.toNat / 2 ^ 12 % 4 := extract_toNat _ 12 2
  simp only [exec_barr, execBarr, noTxn, htxn, getLsbD_top, anyBusy_ready hready, hzero, syncBlock, hcap, hblk, unmarked, hmark, hpoison,
    taintOf_ready hready, hhandler, hcls]
  rfl

/-! BWAIT (R267). -/

section
variable {s : State} {d : BitVec 6} (htxn : s.task.txn = none)
include htxn

theorem bwait_illegal (h : s.task.barr = none) : exec (.bwait d) s = trapped s cILLEGAL 0 := by
  simp only [exec_bwait, execBwait, noTxn, htxn, h]; rfl

variable {r : BarrRec} (hmark : s.here.poisonMark = false) (hr : s.task.barr = some r) (hp : (s.blockAt r.blk).any (·.poisoned) = false)
include hmark hr hp

theorem bwait_known {st : Nat} (hst : r.status = some st) (hne : st ≠ 3) : exec (.bwait d) s =
    wrote (if st = 0 then s.dropCopies s.cur else s) d (BitVec.ofNat 64 st) 0 := by
  have hstatus : (some st == some 3) = false := by simpa using hne
  simp only [exec_bwait, execBwait, noTxn, htxn, hr, unmarked, hmark, hp, hst, hstatus, State.bwaitDone, State.writeInt,
    BitVec.ofNat_toNat, BitVec.setWidth_eq]
  rfl

theorem bwait_parks (hst : r.status = none) (hlimit : parkedHere s < (s.imageAt s.cur).park) :
    exec (.bwait d) s = parkedAs s (.bwait d.toNat) := by
  have hfull : s.parkFull = false := decide_eq_false (by simpa [parkedHere] using hlimit)
  simp only [exec_bwait, execBwait, noTxn, htxn, hr, unmarked, hmark, hp, hst, hfull, parkHere]
  rfl

end

/-! Arrivals (R266, R269). -/

theorem barrierArrival_arrives {s : State} {a : Arrival} (h : (s.core ((s.syncOwner a.core a.blk).getD a.core)).lost ≠ 1) :
    exec (.barrierArrival a) s = .next (s.asCtx a.core a.ctx (·.arrive a)) := by
  rw [exec_barrierArrival, execBarrierArrival, unlessCopied, if_neg h]

/-- An arrival as its block counts it. -/
def countedAs (a : Arrival) : Counted := ⟨a.core, a.ctx, a.gen, a.op, a.cont⟩

/-- An arrival is counted in its block (R266): its core's list of groups notes the episode, and the block's plumb record the time of
the arrival's site. -/
def State.arrivalCounted (s : State) (a : Arrival) (b : SyncBlock) : State :=
  let u := s.mapNi a.core fun ni => { ni with groups := ni.groups.map fun (g, e) =>
    if g = a.blk then (g, b.episode + 1) else (g, e) }
  let site := siteOf a.core % 24
  let time := sat32 (((s.core (s.blockOwner a.blk)).cycle : Int) - b.openedAt).toNat
  let u := match b.plumb, u.plumbAt a.blk b with
    | some i, some p => u.putPlumb a.blk i { p with cur := Sparse.set p.cur site time, lastSite := site }
    | _, _ => u
  u.putBlock a.blk { b with arrived := b.arrived + 1, arrivals := b.arrivals ++ [countedAs a] }

section
variable {s : State} {a : Arrival} {b : SyncBlock} (hb : s.blockAt a.blk = some b)
include hb

theorem arrive_poisoned (hp : b.poisoned = true) : s.arrive a = s.barrStatus (countedAs a) a.blk 3 := by
  rw [State.arrive, hb]; exact if_pos hp

variable (hp : b.poisoned = false)
include hp

theorem arrive_refused (hg : b.group = true) (hk : s.memberKey a.core ∉ b.roll) : s.arrive a = s.barrStatus (countedAs a) a.blk 2 := by
  have hkey : (b.group && !b.roll.contains (s.memberKey a.core)) = true := by simpa [hg] using hk
  rw [State.arrive, hb]; exact (if_neg (ne_true_of_eq_false hp)).trans (if_pos hkey)

theorem arrive_counts (hk : b.group = true → s.memberKey a.core ∈ b.roll) :
    s.arrive a = (s.arrivalCounted a b).completeIf a.blk (siteOf a.core % 24) := by
  have hkey : (b.group && !b.roll.contains (s.memberKey a.core)) = false := by simpa using hk
  rw [State.arrive, hb]; exact (if_neg (ne_true_of_eq_false hp)).trans (if_neg (ne_true_of_eq_false hkey))

end
end Sys2Proof.Machine
end

section
/-!
CERTIFICATE. Barriers (R143, R265 to R267).
-/
namespace Sys2Proof.Machine

/-- Settles O33: BARR and BWAIT by what they find in the block and in the context's record of its arrival, an arrival by what its block
makes of it, and the end of an episode by the block it writes. -/
theorem barriers : Obligations.Barriers := by
  unfold Obligations.Barriers
  refine ⟨fun s d a b blk arr => ?_, fun s w b broken expected hs hb ha => ?_⟩
  · intro c w cont team msg here counted v key free
    refine ⟨fun htxn hmark hready hres hcap hblk hp => barr_arrives htxn hmark hready hres hcap hblk hp, fun htxn hmark => ?_,
      fun hfree => ⟨_, barrierArrival_arrives hfree, rfl, rfl⟩, fun hfree hblk hp => ?_, fun hfree hblk hp hg hk => ?_,
      fun hfree hblk hp hk => ?_⟩
    · exact ⟨bwait_illegal htxn, fun r hr hp => ⟨fun st hst hne => bwait_known htxn hmark hr hp hst hne,
        fun hst hlimit => bwait_parks htxn hmark hr hp hst hlimit⟩⟩
    · rw [barrierArrival_arrives hfree, State.asCtx, arrive_poisoned hblk hp]; rfl
    · rw [barrierArrival_arrives hfree, State.asCtx, arrive_refused hblk hp hg hk]; rfl
    · rw [barrierArrival_arrives hfree, State.asCtx, arrive_counts hblk hp hk]; rfl
  · exact ⟨_, State.blockAt_endEpisode hs hb ha broken expected, rfl, rfl, rfl, rfl, rfl, rfl, rfl, rfl, rfl⟩

end Sys2Proof.Machine
end

section
/-!
SUPPORT. Writes at a home (R69, R113, R123, R158): the bytes and tags that they leave, what of the caches and of transactions follows
them, and that nothing else is written as the context goes on.
-/
namespace Sys2Proof.Machine

/-- Different addresses written with as many bytes read as those bytes. -/
theorem Mem.map_read_writeAll_zip (m : Mem) {as : List Nat} {bs : List Byte} (hl : bs.length = as.length) (hn : as.Nodup) :
    as.map (read (writeAll m (as.zip bs))) = bs := by
  induction as generalizing m bs with
  | nil => exact (List.eq_nil_of_length_eq_zero hl).symm
  | cons a as ih =>
    obtain ⟨b, bs, rfl⟩ := List.exists_cons_of_length_eq_add_one hl
    obtain ⟨ha, hn⟩ := List.nodup_cons.1 hn
    have hkeys : ((as.zip bs).map (·.1)) = as := List.map_fst_zip (by simpa using hl.ge)
    rw [List.zip_cons_cons, List.map_cons, writeAll, ih _ (by simpa using hl) hn, read_writeAll_other _ _ _ (by rwa [hkeys]),
      read_write_same]

/-- Memories that read alike read alike after the same writes. -/
theorem Mem.read_writeAll_congr {m m' : Mem} (h : ∀ a, Mem.read m' a = Mem.read m a) (ws : List (Nat × Byte)) (a : Nat) :
    Mem.read (Mem.writeAll m' ws) a = Mem.read (Mem.writeAll m ws) a := by
  induction ws generalizing m m' with
  | nil => exact h a
  | cons w ws ih =>
    refine ih fun c => ?_
    by_cases e : c = w.1
    · subst e; simp
    · simp [e, h]

namespace State

/-- The tagged granules after a write (R69): a granule with a byte written loses its tag, and those named get theirs. -/
def tagsAfter (l : List Nat) (ws : List (Nat × Byte)) (tags : List (Nat × Bool)) : List Nat :=
  tags.foldl (fun l g => if g.2 then insertNat l g.1 else eraseNat l g.1) (l.filter fun gr => !(ws.map (·.1)).any fun a => a / 16 == gr)

/-- `t` has the storage of `s` with some bytes and tags written, and nothing is pending in it that was not in `s`. -/
structure Written (ws : List (Nat × Byte)) (tags : List (Nat × Bool)) (s t : State) : Prop where
  read : ∀ a, Mem.read t.mem a = Mem.read (Mem.writeAll s.mem ws) a
  tags : t.tags = tagsAfter s.tags ws tags
  pend : ∀ k x, (s.ctxAt k x).pendFrom (t.ctxAt k x)

section
variable {ws : List (Nat × Byte)} {tags : List (Nat × Bool)} {s t u : State}

theorem Written.goesOn (h : Written ws tags s t) (g : GoesOn t u) : Written ws tags s u where
  read := fun a => (g.storage.1 a).trans (h.read a)
  tags := g.storage.2.1.trans h.tags
  pend := fun k x => Ctx.pendFrom_trans (h.pend k x) (g.pend k x)

theorem GoesOn.written (g : GoesOn s t) (h : Written ws tags t u) : Written ws tags s u where
  read := fun a => (h.read a).trans (Mem.read_writeAll_congr g.storage.1 ws a)
  tags := by rw [h.tags, g.storage.2.1]
  pend := fun k x => Ctx.pendFrom_trans (g.pend k x) (h.pend k x)

end

/-! What a write leaves outside storage. -/

theorem writeMem_rest (s : State) (ws : List (Nat × Byte)) : ∃ poison flips codeOld codeStores, s.writeMem ws =
    { s with mem := Mem.writeAll s.mem ws, tags := s.tags.filter fun gr => !(ws.map (·.1)).any fun a => a / 16 == gr
             poison, flips, codeOld, codeStores } := by
  unfold writeMem keepCode; extract_lets as code hit u
  unfold u; split <;> exact ⟨_, _, _, _, rfl⟩

theorem setTags_eq (s : State) (tags : List (Nat × Bool)) : tags.foldl (fun s g => s.setTag g.1 g.2) s =
    { s with tags := tags.foldl (fun l g => if g.2 then insertNat l g.1 else eraseNat l g.1) s.tags } := by
  induction tags generalizing s with
  | nil => rfl
  | cons g tags ih => exact ih _

theorem wroteLine_lines (s : State) (writer : Option Nat) (line : Nat) : LinesOnly s (s.wroteLine writer line) := by
  unfold wroteLine; extract_lets mine mod s₁ others s₂
  have h₁ : LinesOnly s s₁ := s.dropL1_lines _ _
  have h₂ : LinesOnly s₁ s₂ := .foldl (fun _ _ => evictLine_lines _ _ _ _) _ _
  have h := h₁.trans h₂
  clear_value s₂ mine
  cases mine with
  | some k => exact (h.trans (mapCore_lines ⟨_, rfl⟩)).trans (setClusterLines_lines _ _ _ _)
  | none => exact (h.trans (dropL1_lines _ _ _)).trans (l2Touch_lines _ _ _)

theorem writeHome_written (s : State) (ws : List (Nat × Byte)) (tags : List (Nat × Bool)) (writer : Option Nat) :
    Written ws tags s (s.writeHome ws tags writer) := by
  obtain ⟨_, _, _, _, hw⟩ := s.writeMem_rest ws
  have h : Written ws tags s (tags.foldl (fun s g => s.setTag g.1 g.2) (s.writeMem ws)) := by
    rw [hw, setTags_eq]; exact ⟨fun _ => rfl, rfl, fun _ _ => Ctx.pendFrom_of_eq rfl⟩
  exact h.goesOn (GoesOn.foldl (fun s l => (s.wroteLine_lines _ _).goesOn) _ _)

theorem notice_fabric (s : State) (tile : Nat) (h : Nat × Nat) (code : Nat) : FabricOnly s (s.notice tile h code) := by
  unfold notice; extract_lets home dir s₁
  have h₁ : FabricOnly s s₁ := s.routeOnce_fabric _ _ _ _ _
  split
  · exact h₁
  · exact h₁.trans (routeOnce_fabric _ _ _ _ _ _)

theorem tileDirs_goesOn (s : State) (tileDirs : Sparse TileDir) : GoesOn s { s with tileDirs } :=
  ⟨⟨fun _ => rfl, rfl, rfl⟩, rfl, rfl, fun _ _ => Ctx.pendFrom_of_eq rfl⟩

theorem removeHolders_goesOn (s : State) (tiles : List Nat) (code : Nat) (keep : Option (Nat × Nat)) :
    GoesOn s (s.removeHolders tiles code keep) := by
  refine .foldl (fun s q => ?_) _ s
  refine .trans ?_ (notice_fabric _ q.1 q.2 code).goesOn
  exact (s.tileDirs_goesOn _).trans (mapCtx_goesOn (Ctx.pendFrom_of_eq rfl))

theorem performWrite_written (s : State) (ws : List (Nat × Byte)) (tags : List (Nat × Bool)) (writer : Option Nat) :
    Written ws tags s (s.performWrite ws tags writer) :=
  (s.removeHolders_goesOn _ _ _).written (writeHome_written _ _ _ _)

/-! A store performed (R112, R113, R130). -/

theorem clearSlots_goesOn (s : State) (p : Place) (as : List Nat) : GoesOn s (s.clearSlots p as) := by
  unfold clearSlots; split
  · extract_lets b size
    split
    · exact .refl s
    · exact ⟨⟨fun _ => rfl, rfl, rfl⟩, rfl, rfl, fun _ _ => Ctx.pendFrom_of_eq rfl⟩
  · exact .refl s

theorem afterPosted_goesOn (s : State) (k : Nat) (p : PendOp) : GoesOn s (s.afterPosted k p) := by
  unfold afterPosted; extract_lets hit
  split
  · exact .refl s
  · split
    · exact s.staleFills_goesOn _ _
    · exact s.dropCopiesOf_goesOn _ _

theorem settled_fabric (s : State) (k x : Nat) : FabricOnly s (s.settled k x) := by
  unfold settled; extract_lets t
  split
  · exact .refl s
  · split
    · exact (s.push_fabric _).trans (quietOn_fabric _ _)
    · exact .refl s

theorem answer_fabric (s : State) (req e : Event) : FabricOnly s (s.answer req e) := by
  unfold answer; split
  · exact (s.cacheAnswer_fabric _ _ _ _).trans (inject_fabric _ _ _ _ _ _ _ _ _)
  · exact s.push_fabric _

theorem ackStore_fabric (s : State) (k x : Nat) (p : PendOp) : FabricOnly s (s.ackStore k x p) := by
  unfold ackStore; split
  · exact s.answer_fabric _ _
  · exact (s.ack_fabric _).trans (settled_fabric _ _ _)

/-- The bytes and tags of a store that its home's bank takes (R112). -/
def landing (s : State) (p : PendOp) : List (Nat × Byte) := (p.addrs.zip p.data).filter fun w => s.placeServes p.place w.1 == .now
def landingTags (s : State) (p : PendOp) : List (Nat × Bool) := p.tags.filter fun g => s.placeServes p.place (g.1 * 16) == .now

/-- A store performed has written what its bank takes of it, and nothing else as its context goes on (R113, R123). -/
theorem performStore_written {s : State} {k x : Nat} {p : PendOp}
    (h : ∀ q ∈ (s.ctxAt k x).pend, q.op ≠ p.op → q.kind = .store → localPlace q.place = false) :
    Written (s.landing p) (s.landingTags p) s (s.performStore k x p) := by
  let u := (s.performWrite (s.landing p) (s.landingTags p) (some k)).clearSlots p.place ((s.landing p).map (·.1))
  have hu : Written (s.landing p) (s.landingTags p) s u := (s.performWrite_written _ _ _).goesOn (clearSlots_goesOn _ _ _)
  have hdropped : NoLocalStore (u.dropOp k x p.op) k x := by
    intro q hq hkind
    rw [dropOp, ctxAt_mapCtx] at hq
    obtain ⟨hq, hop⟩ := List.mem_filter.1 hq
    obtain ⟨o, ho, eop, ekind, eplace⟩ := hu.pend k x q hq
    rw [eplace]
    exact h o ho (by simpa [eop] using hop) (ekind ▸ hkind)
  have hdone : GoesOn (u.dropOp k x p.op) (s.storeDone k x p) := (afterPosted_goesOn _ _ _).trans (ackStore_fabric _ _ _ _).goesOn
  exact ((hu.goesOn (u.dropOp_goesOn _ _ _)).goesOn hdone).goesOn (kick_goesOn (hdropped.goesOn hdone))

end State
end Sys2Proof.Machine
end

section
/-!
SUPPORT. Stores performed (R69, R112, R113, R123): STORE_PERFORM and REMOTE_REGION_ACCESS, and what a store leaves where its bank
takes all of it, and where it takes nothing.
-/
namespace Sys2Proof.Machine
namespace State

theorem hostUse_fabric (s : State) (site : Nat) (as : List Nat) (w : Bool) : FabricOnly s (s.hostUse site as w) :=
  .foldl (fun s _ => s.mapSite_fabric _ _) _ s

theorem FabricOnly.placeServes {s t : State} (h : FabricOnly s t) (p : Place) (a : Nat) : t.placeServes p a = s.placeServes p a := by
  obtain ⟨_, _, rfl⟩ := h; rfl
theorem FabricOnly.regionServes {s t : State} (h : FabricOnly s t) (a : Nat) : t.regionServes a = s.regionServes a := by
  obtain ⟨_, _, rfl⟩ := h; rfl
theorem FabricOnly.ctxAt {s t : State} (h : FabricOnly s t) (k x : Nat) : t.ctxAt k x = s.ctxAt k x := by
  obtain ⟨_, _, rfl⟩ := h; rfl

end State

/-- A home that is open takes its step. -/
theorem homeStep_open {s : State} {e : Event} {site : Nat} {as : List Nat} {w : Bool} (h : HomeOpen s e site as w)
    (ok : State → Host.Outcome State Fault Refusal) : homeStep e site as w s ok = ok (s.hostUse site as w) := by
  obtain ⟨hlock, hserves, hdrain, hask⟩ := h
  have hlater : as.any (fun a => s.serves a == .later) = false := List.any_eq_false.2 fun a ha => by simpa using hserves a ha
  have hline : (linesOf as).any s.lineDraining = false := List.any_eq_false.2 fun l hl => by simpa using hdrain l hl
  simp only [homeStep, hlock, hlater, hline, State.hostHold, hask]; rfl

/-- The state in which the home of a store has performed it. -/
def State.storedAt (s : State) (k x : Nat) (p : PendOp) : State := (s.hostUse (opSite k p.place) p.addrs true).performStore k x p

section
variable {s : State} {k x op : Nat} {p : PendOp} (hp : s.findOp k x op = some p) (hkind : p.kind = .store)
include hp hkind

theorem storePerform_performs (ho : HomeOpen s (.storePerform k x op) (opSite k p.place) p.addrs true) :
    exec (.storePerform k x op) s = .next (s.storedAt k x p) := by
  have hclean : p.kind ≠ .clean := by rw [hkind]; decide
  rw [exec_storePerform]
  simp only [execStorePerform, hp, if_neg hclean, homeStep_open ho]; rfl

theorem remoteRegionAccess_performs {o : Nat} (hplace : p.place = .share o) (hlost : (s.core o).lost ≠ 1)
    (howed : ∀ q ∈ (s.ctxAt k x).owed, q.op ≠ op) (ho : HomeOpen s (.remoteRegionAccess k x op) (opSite k p.place) p.addrs true) :
    exec (.remoteRegionAccess k x op) s = .next (s.storedAt k x p) := by
  have hasked : s.askedOp k x op = some p := by
    rw [State.askedOp, List.find?_eq_none.2 fun q hq => by simpa using howed q hq, hp]
  have hsite : opSite k p.place = siteOf k := by rw [hplace]; rfl
  have howner : opOwner k p.place = o := by rw [hplace]; rfl
  rw [hsite] at ho
  rw [exec_remoteRegionAccess]
  simp only [execRemoteRegionAccess, hasked, unlessCopied, howner, if_neg hlost, hkind, beq_self_eq_true, homeStep_open ho, if_true,
    State.storedAt, hsite]

omit hkind in
theorem storedAt_written (hlocal : ∀ q ∈ (s.ctxAt k x).pend, q.op ≠ op → q.kind = .store → State.localPlace q.place = false) :
    State.Written (s.landing p) (s.landingTags p) s (s.storedAt k x p) := by
  have hu := s.hostUse_fabric (opSite k p.place) p.addrs true
  have hop : p.op = op := by simpa using List.find?_some hp
  have hw := State.performStore_written (s := s.hostUse (opSite k p.place) p.addrs true) (k := k) (x := x) (p := p)
    (by rw [hu.ctxAt, hop]; exact hlocal)
  simp only [State.landing, State.landingTags, hu.placeServes] at hw
  exact hu.goesOn.written hw

end

/-! What a write leaves of bytes and tags. -/

namespace State
variable {s u : State} {p : PendOp} (h : Written (s.landing p) (s.landingTags p) s u)
include h

theorem Written.nothing (ha : ∀ a ∈ p.addrs, s.placeServes p.place a = .never)
    (ht : ∀ g ∈ p.tags, s.placeServes p.place (g.1 * 16) = .never) : (∀ a, Mem.read u.mem a = Mem.read s.mem a) ∧ u.tags = s.tags := by
  have hws : s.landing p = [] := List.filter_eq_nil_iff.2 fun w hw => by rw [ha w.1 (List.of_mem_zip hw).1]; decide
  have htags : s.landingTags p = [] := List.filter_eq_nil_iff.2 fun g hg => by rw [ht g hg]; decide
  rw [hws, htags] at h
  exact ⟨h.read, by rw [h.tags]; simp [tagsAfter]⟩

section
variable (ha : ∀ a ∈ p.addrs, s.placeServes p.place a = .now) (ht : ∀ g ∈ p.tags, s.placeServes p.place (g.1 * 16) = .now)
include ha ht

theorem Written.all : Written (p.addrs.zip p.data) p.tags s u := by
  have hws : s.landing p = p.addrs.zip p.data := List.filter_eq_self.2 fun w hw => by rw [ha w.1 (List.of_mem_zip hw).1]; rfl
  have htags : s.landingTags p = p.tags := List.filter_eq_self.2 fun g hg => by rw [ht g hg]; rfl
  rwa [hws, htags] at h

variable (hl : p.data.length = p.addrs.length)
include hl

theorem Written.bytes (hn : p.addrs.Nodup) :
    u.readMem p.addrs = p.data ∧ ∀ a, a ∉ p.addrs → Mem.read u.mem a = Mem.read s.mem a := by
  have hw := h.all ha ht
  have hkeys : (p.addrs.zip p.data).map (·.1) = p.addrs := List.map_fst_zip hl.ge
  refine ⟨?_, fun a hout => (hw.read a).trans (Mem.read_writeAll_other _ _ _ (by rwa [hkeys]))⟩
  calc u.readMem p.addrs = p.addrs.map (Mem.read (Mem.writeAll s.mem (p.addrs.zip p.data))) := List.map_congr_left fun a _ => hw.read a
    _ = p.data := Mem.map_read_writeAll_zip _ hl hn

/-- A granule with no byte stored to keeps its tag, one with a byte stored to has none (R69). -/
theorem Written.untagged (hnone : p.tags = []) (gr : Nat) :
    u.tags.contains gr = (s.tags.contains gr && !p.addrs.any fun a => a / 16 == gr) := by
  have hw := h.all ha ht
  rw [hw.tags, hnone, tagsAfter, List.map_fst_zip hl.ge, List.foldl_nil, Bool.eq_iff_iff]
  simp only [List.contains_iff_mem, List.mem_filter, Bool.and_eq_true]

/-- The granule that a store tags has the tag it gives, and every other one keeps its own unless the store touches it (R69). -/
theorem Written.tagged {gr : Nat} {b : Bool} (hone : p.tags = [(gr, b)]) : u.tags.contains gr = b
    ∧ ∀ gr', gr' ≠ gr → u.tags.contains gr' = (s.tags.contains gr' && !p.addrs.any fun a => a / 16 == gr') := by
  have hw := h.all ha ht
  rw [hw.tags, hone, tagsAfter, List.map_fst_zip hl.ge, List.foldl_cons, List.foldl_nil]
  cases b with
  | true => exact ⟨by simp [mem_insertNat], fun gr' hne => by
      rw [Bool.eq_iff_iff]; simp [mem_insertNat, hne]⟩
  | false => exact ⟨by simp [eraseNat], fun gr' hne => by
      rw [Bool.eq_iff_iff]; simp [eraseNat, hne]⟩

end
end State
end Sys2Proof.Machine
end

section
/-!
SUPPORT. Requests under way at other sites (R326): a write at a home opens none.
-/
namespace Sys2Proof.Machine.State

/-- Every window of a site of `t` is a window of a site of `s`. -/
def OpensNone (s t : State) : Prop := ∀ q ∈ t.sites, q.2.windows = [] ∨ ∃ p ∈ s.sites, p.2.windows = q.2.windows

namespace OpensNone
variable {s t u : State}

theorem of_sites (h : t.sites = s.sites) : OpensNone s t := fun q hq => .inr ⟨q, h ▸ hq, rfl⟩
theorem refl (s : State) : OpensNone s s := .of_sites rfl
theorem trans (h : OpensNone s t) (g : OpensNone t u) : OpensNone s u := fun q hq => by
  rcases g q hq with e | ⟨p, hp, e⟩
  · exact .inl e
  · rw [← e]; exact h p hp
theorem foldl {α : Type} {f : State → α → State} (h : ∀ s a, OpensNone s (f s a)) (l : List α) (s : State) :
    OpensNone s (l.foldl f s) := foldl_rel refl trans h l s

/-- A request that no window holds is held by none that comes from them. -/
theorem windowOf (h : OpensNone s t) {e : Event} (he : s.windowOf e = none) : t.windowOf e = none := by
  unfold State.windowOf at he ⊢
  rw [List.findSome?_eq_none_iff] at he ⊢
  intro q hq
  rcases h q hq with hw | ⟨p, hp, hw⟩
  · simp only [hw]; rfl
  · simp only [← hw]; exact he p hp

end OpensNone

theorem setSite_opensNone {s : State} {n : Nat} {t : Site} (h : t.windows = (s.site n).windows) : OpensNone s (s.setSite n t) := by
  intro q hq
  rcases Sparse.mem_set _ _ _ _ hq with rfl | hq
  · rcases Sparse.get_mem_or ({} : Site) s.sites n with hm | hd
    · exact .inr ⟨_, hm, h.symm⟩
    · exact .inl (h.trans (congrArg Site.windows hd))
  · exact .inr ⟨q, hq, rfl⟩

theorem mapSite_opensNone {s : State} {n : Nat} {f : Site → Site} (h : (f (s.site n)).windows = (s.site n).windows) :
    OpensNone s (s.mapSite n f) := setSite_opensNone h

/-! The fabric. -/

theorem pushOnce_opensNone (s : State) (e : Event) : OpensNone s (s.pushOnce e) := by
  unfold pushOnce; split
  · exact .refl s
  · exact .of_sites rfl
theorem leave_opensNone (s : State) (src : Nat) (fs : List Flit) : OpensNone s (s.leave src fs) :=
  (mapSite_opensNone (by split <;> rfl)).trans (pushOnce_opensNone _ _)
theorem route_opensNone (s : State) (src owner flits cls : Nat) (e : Event) : OpensNone s (s.route src owner flits cls e) := by
  unfold route; split
  · exact .of_sites rfl
  · extract_lets st key seq opens mine go st' s₁
    have h₁ : OpensNone s s₁ := setSite_opensNone rfl
    split
    · exact h₁.trans (leave_opensNone _ _ _)
    · exact h₁
theorem routeOnce_opensNone (s : State) (src owner flits cls : Nat) (e : Event) : OpensNone s (s.routeOnce src owner flits cls e) := by
  unfold routeOnce; split
  · exact .refl s
  · exact s.route_opensNone _ _ _ _ _
theorem notice_opensNone (s : State) (tile : Nat) (h : Nat × Nat) (code : Nat) : OpensNone s (s.notice tile h code) := by
  unfold notice; extract_lets home dir s₁
  have h₁ : OpensNone s s₁ := s.routeOnce_opensNone _ _ _ _ _
  split
  · exact h₁
  · exact h₁.trans (routeOnce_opensNone _ _ _ _ _ _)
theorem removeHolders_opensNone (s : State) (tiles : List Nat) (code : Nat) (keep : Option (Nat × Nat)) :
    OpensNone s (s.removeHolders tiles code keep) := by
  refine .foldl (fun s q => ?_) _ s
  exact .trans (.of_sites rfl) (notice_opensNone _ q.1 q.2 code)

/-! Caches. -/

theorem setClusterLines_opensNone (s : State) (site cl : Nat) (ls : List ClusterLine) :
    OpensNone s (s.setClusterLines site cl ls) := mapSite_opensNone rfl
theorem l2Touch_opensNone (s : State) (line : Nat) (dirty : Bool) : OpensNone s (s.l2Touch line dirty) := by
  unfold l2Touch; split
  · exact .refl s
  · exact mapSite_opensNone rfl
theorem evictLine_opensNone (s : State) (site cl : Nat) (e : ClusterLine) : OpensNone s (s.evictLine site cl e) := by
  unfold evictLine; extract_lets s₁ s₂
  have h : OpensNone s s₂ := (s.setClusterLines_opensNone _ _ _).trans (.of_sites rfl)
  split
  · exact h.trans (l2Touch_opensNone _ _ _)
  · exact h
theorem wroteLine_opensNone (s : State) (writer : Option Nat) (line : Nat) : OpensNone s (s.wroteLine writer line) := by
  unfold wroteLine; extract_lets mine mod s₁ others s₂
  have h₁ : OpensNone s s₁ := .of_sites rfl
  have h₂ : OpensNone s₁ s₂ := .foldl (fun _ _ => evictLine_opensNone _ _ _ _) _ _
  have h := h₁.trans h₂
  clear_value s₂ mine
  cases mine with
  | some k => exact (h.trans (.of_sites rfl)).trans (setClusterLines_opensNone _ _ _ _)
  | none => exact (h.trans (.of_sites rfl)).trans (l2Touch_opensNone _ _ _)
theorem hostUse_opensNone (s : State) (site : Nat) (as : List Nat) (w : Bool) : OpensNone s (s.hostUse site as w) :=
  .foldl (fun _ _ => mapSite_opensNone rfl) _ s

/-! Writes. -/

theorem writeHome_opensNone (s : State) (ws : List (Nat × Byte)) (tags : List (Nat × Bool)) (writer : Option Nat) :
    OpensNone s (s.writeHome ws tags writer) := by
  unfold writeHome; extract_lets s₁
  have h₁ : s₁.sites = s.sites := by unfold s₁; rw [setTags_eq]; exact s.writeMem_sites ws
  exact (OpensNone.of_sites h₁).trans (.foldl (fun s _ => s.wroteLine_opensNone _ _) _ _)
theorem performWrite_opensNone (s : State) (ws : List (Nat × Byte)) (tags : List (Nat × Bool)) (writer : Option Nat) :
    OpensNone s (s.performWrite ws tags writer) := (s.removeHolders_opensNone _ _ _).trans (writeHome_opensNone _ _ _ _)

end Sys2Proof.Machine.State
end

section
/-!
SUPPORT. Atomics performed (R113, R225, R226, R231, R251, R414, R419): the word that one leaves, what it answers, and HOME_AMO and
NI_ATOMIC where nothing holds them back.
-/
namespace Sys2Proof.Machine

theorem length_bytesOf (n v : Nat) : (bytesOf n v).length = n := by
  induction n generalizing v with
  | zero => rfl
  | succ n ih => rw [bytesOf, List.length_cons, ih]

theorem length_addrRange (a n : Nat) : (addrRange a n).length = n := by rw [addrRange, List.length_map, List.length_range]

theorem nodup_addrRange (a n : Nat) : (addrRange a n).Nodup := List.nodup_range.map fun _ _ => Nat.add_left_cancel

namespace State

/-- The word that an atomic finds (R225). -/
def amoOld (s : State) (r : AmoReq) : Word := BitVec.ofNat 64 (ofBytes (s.readMem (amoBytes r)))

/-- The bytes that an atomic writes (R225). -/
def amoWrites (s : State) (r : AmoReq) : List (Nat × Byte) :=
  (amoBytes r).zip (bytesOf (amoSize r.op) (amoResult r.op (s.amoOld r) r.opnd r.cmp).toNat)

/-- Where each of its bytes is served, an atomic writes its result, no window opens, and what it finds is what it answers. -/
theorem amoApply_performs {s : State} {r : AmoReq} (h : ∀ a ∈ amoBytes r, s.serves a = .now) :
    (s.amoApply r).2 = s.amoOld r ∧ Written (s.amoWrites r) [] s (s.amoApply r).1 ∧ OpensNone s (s.amoApply r).1 := by
  have hserved : ((amoBytes r).any fun a => s.serves a != .now) = false := List.any_eq_false.2 fun a ha => by simp [h a ha]
  have hhome := s.writeHome_written (s.amoWrites r) [] none
  have whome := s.writeHome_opensNone (s.amoWrites r) [] none
  simp only [amoApply, hserved, Bool.false_eq_true, if_false]
  split
  · split
    · exact ⟨rfl, hhome, whome⟩
    · refine ⟨rfl, ?_⟩
      dsimp only
      split
      · exact ⟨hhome.goesOn (mapCtx_goesOn (Ctx.pendFrom_of_eq rfl)), whome.trans (.of_sites rfl)⟩
      · exact ⟨hhome, whome⟩
  · exact ⟨rfl, s.performWrite_written _ _ _, s.performWrite_opensNone _ _ _⟩

/-! What an atomic answers (R130, R226). -/

section
variable {s : State} {k : Nat} (h : ∀ x, NoLocalStore s k x)
include h

theorem performed_goesOn (x op : Nat) (counted : Bool) (e : Event) : GoesOn s (s.performed k x op counted e) := by
  have kicked {t : State} (g : GoesOn s t) : GoesOn s (t.kick k x) := g.trans (kick_goesOn ((h x).goesOn g))
  unfold performed; split
  · split
    · exact (s.answer_fabric _ _).goesOn
    · exact (s.ack_fabric _).goesOn
  next p _ =>
    extract_lets s₁
    have h₁ : GoesOn s s₁ := s.dropOp_goesOn _ _ _
    split
    · exact kicked (h₁.trans (answer_fabric _ _ _).goesOn)
    · exact kicked (h₁.trans ((afterPosted_goesOn _ _ _).trans ((ack_fabric _ _).trans (settled_fabric _ _ _)).goesOn))

theorem endOps_goesOn (owner : Nat) (req : Event) (ops : List (Nat × Nat)) : GoesOn s (s.endOps owner k req ops) := by
  unfold endOps; split
  · exact (s.ack_fabric _).goesOn
  next x op more =>
    extract_lets counted s'
    have hfold : GoesOn s s' := by
      refine .foldl_of (P := fun s => ∀ x, NoLocalStore s k x) (fun hs g x => (hs x).goesOn g) (fun s y hs => ?_) more h
      extract_lets own s₁
      have h₁ : GoesOn s s₁ := by
        unfold s₁; split
        · exact .refl s
        · exact (s.dropOp_goesOn _ _ _).trans (afterPosted_goesOn _ _ _)
      split
      · exact h₁.trans (route_fabric _ _ _ _ _ _).goesOn
      · have h₂ := h₁.trans (settled_fabric s₁ k y.1).goesOn
        exact h₂.trans (kick_goesOn ((hs _).goesOn h₂))
    exact hfold.trans (performed_goesOn (fun x => (h x).goesOn hfold) _ _ _ _)

end

theorem amoAnswer_goesOn {s : State} {r : AmoReq} (h : r.ret = none → ∀ x, NoLocalStore s r.core x) (owner : Nat) (req : Event)
    (old : Word) : GoesOn s (s.amoAnswer owner req r old) := by
  unfold amoAnswer
  split
  · exact (s.answer_fabric _ _).goesOn
  next hret =>
    split
    · exact (s.ack_fabric _).goesOn
    · exact endOps_goesOn (h hret) _ _ _

/-- An atomic with a return whose request no window holds answers with the word it found (R226). -/
theorem amoAnswer_answers {s : State} {r : AmoReq} {x gen op d : Nat} (hret : r.ret = some (x, gen, op, d)) {req : Event}
    (hwin : s.windowOf req = none) (owner : Nat) (old : Word) :
    ∃ rep : Reply, Event.replyDeposit rep ∈ (s.amoAnswer owner req r old).agenda
      ∧ rep.core = r.core ∧ rep.ctx = x ∧ rep.gen = gen ∧ rep.op = op ∧ rep.val = old := by
  simp only [amoAnswer, hret, answer, hwin]
  exact ⟨_, List.mem_append_right _ (List.mem_singleton_self _), rfl, rfl, rfl, rfl, rfl⟩

/-- The state in which `owner` has performed an atomic and answered it. -/
def amoDone (s : State) (owner site : Nat) (req : Event) (r : AmoReq) : State :=
  ((s.hostUse site (amoBytes r) true).amoApply r).1.amoAnswer owner req r ((s.hostUse site (amoBytes r) true).amoApply r).2

theorem serves_of_region {s : State} {a : Nat} (h : s.regionServes a = .now) : s.serves a = .now := by
  unfold regionServes at h
  split at h
  · cases h
  · exact h

theorem NoLocalStore.written {s t : State} {k x : Nat} {ws : List (Nat × Byte)} {tags : List (Nat × Bool)} (hn : NoLocalStore s k x)
    (h : Written ws tags s t) : NoLocalStore t k x := hn.of_pendFrom (h.pend k x)

/-- An atomic performed is one read-modify-write of its bytes, and what goes back is what they held (R225, R226). -/
theorem amoDone_performs {s : State} {r : AmoReq} (hserved : ∀ a ∈ amoBytes r, s.regionServes a = .now)
    (hlocal : r.ret = none → ∀ x, NoLocalStore s r.core x) (owner site : Nat) (req : Event) :
    ((amoBytes r).map (Mem.read (s.amoDone owner site req r).mem) = bytesOf (amoSize r.op) (amoResult r.op (s.amoOld r) r.opnd r.cmp).toNat
      ∧ ∀ y, y ∉ amoBytes r → Mem.read (s.amoDone owner site req r).mem y = Mem.read s.mem y)
    ∧ (s.windowOf req = none → ∀ x gen op d, r.ret = some (x, gen, op, d) →
        ∃ rep : Reply, Event.replyDeposit rep ∈ (s.amoDone owner site req r).agenda ∧ rep.core = r.core ∧ rep.ctx = x
          ∧ rep.gen = gen ∧ rep.op = op ∧ rep.val = s.amoOld r) := by
  have hu := s.hostUse_fabric site (amoBytes r) true
  have hold : (s.hostUse site (amoBytes r) true).amoOld r = s.amoOld r := by
    obtain ⟨_, _, e⟩ := hu; rw [e]; rfl
  obtain ⟨hanswer, hwrite, hopens⟩ := amoApply_performs (s := s.hostUse site (amoBytes r) true) (r := r) fun a ha =>
    serves_of_region ((hu.regionServes a).trans (hserved a ha))
  rw [hold] at hanswer
  have hws : (s.hostUse site (amoBytes r) true).amoWrites r = s.amoWrites r := by rw [amoWrites, hold]; rfl
  rw [hws] at hwrite
  have happlied := hu.goesOn.written hwrite
  have hgone : GoesOn _ (s.amoDone owner site req r) :=
    amoAnswer_goesOn (fun hret x => NoLocalStore.written (hlocal hret x) happlied) _ _ _
  have hall := happlied.goesOn hgone
  have hlen : (bytesOf (amoSize r.op) (amoResult r.op (s.amoOld r) r.opnd r.cmp).toNat).length = (amoBytes r).length := by
    rw [length_bytesOf, amoBytes, length_addrRange]
  refine ⟨⟨?_, fun y hy => (hall.read y).trans (Mem.read_writeAll_other _ _ _ ?_)⟩, fun hwin x gen op d hret => ?_⟩
  · rw [List.map_congr_left fun a _ => hall.read a]
    exact Mem.map_read_writeAll_zip _ hlen (nodup_addrRange _ _)
  · rwa [amoWrites, List.map_fst_zip hlen.ge]
  · have hwin' := ((s.hostUse_opensNone site (amoBytes r) true).trans hopens).windowOf hwin
    rw [amoDone, hanswer]
    exact amoAnswer_answers hret hwin' _ _

end State

/-! HOME_AMO and NI_ATOMIC with nothing in their way. -/

section
variable {s : State} {r : AmoReq}

/-- The site whose hod or CXL agent applies an atomic (R226). -/
def amoSite (r : AmoReq) : Nat := if r.addr < 2 ^ 45 then paSite r.addr else siteOf r.core

theorem homeAmo_performs (ho : HomeOpen s (.homeAmo r) (amoSite r) (amoBytes r) true) (hacq : s.amoHold (amoSite r) r (.homeAmo r) = none)
    (hport : r.addr < 2 ^ 45 ∨ 2 ^ 48 ≤ r.addr ∨ (s.portOf (amoSite r)).isSome = true)
    (hheld : s.heldBack (agentHod (paSite r.addr) (paSlice r.addr)) (.homeAmo r) = false) :
    exec (.homeAmo r) s = .next (s.amoDone (if r.addr < 2 ^ 45 then agentHod (paSite r.addr) (paSlice r.addr) else agentGw (amoSite r))
      (amoSite r) (.homeAmo r) r) := by
  have hreach : ¬(2 ^ 45 ≤ r.addr ∧ r.addr < 2 ^ 48 ∧ (s.portOf (amoSite r)).isNone = true) := by
    rintro ⟨hlo, hhi, hnone⟩
    rcases hport with h | h | h
    · omega
    · omega
    · rw [Option.isNone_iff_eq_none] at hnone; rw [hnone] at h; cases h
  rw [exec_homeAmo, execHomeAmo]
  simp only [hheld, Bool.false_eq_true, if_false]
  exact (if_neg hreach).trans (by rw [← amoSite, hacq]; exact homeStep_open ho _)

theorem niAtomic_performs {k : Nat} (ho : HomeOpen s (.niAtomic k r none) (siteOf k) (amoBytes r) true)
    (hheld : s.heldBack (agentNi k) (.niAtomic k r none) = false) (hlost : (s.core k).lost ≠ 1)
    (hserved : ∀ a ∈ amoBytes r, s.regionServes a = .now) :
    exec (.niAtomic k r none) s = .next (s.amoDone (agentNi k) (siteOf k) (.niAtomic k r none) r) := by
  have hall : ((amoBytes r).all fun a => (s.hostUse (siteOf k) (amoBytes r) true).regionServes a == .now) = true :=
    List.all_eq_true.2 fun a ha => by rw [(s.hostUse_fabric _ _ _).regionServes, hserved a ha]; rfl
  simp only [exec_niAtomic, execNiAtomic, unlessCopied, if_neg hlost, hheld, Option.isSome_none, Bool.false_and, Bool.or_self,
    Bool.false_eq_true, if_false, homeStep_open ho, hall, if_true]
  rfl

end
end Sys2Proof.Machine
end

section
/-!
SUPPORT. The value that an atomic leaves (R225, R231), as a number.
-/
namespace Sys2Proof.Machine

theorem intOf_toInt (w : Word) : intOf 32 true w.toNat = (BitVec.ofNat 32 w.toNat).toInt := by
  rw [BitVec.toInt_eq_toNat_cond, BitVec.toNat_ofNat]
  simp only [intOf, Bool.true_and, decide_eq_true_eq]
  split <;> split <;> omega

/-- The low word of a result of 32 bits beside the upper half of what stood there. -/
theorem toNat_low_append (m x : Word) :
    ((m.extractLsb' 32 32 ++ (x.extractLsb' 0 32 : BitVec 32) : Word)).toNat % 2 ^ 32 = x.toNat % 2 ^ 32 := by
  rw [toNat_append_add, extract_toNat, extract_toNat]; omega

section
variable (m o e : Word)

theorem amoResult_signed : State.amoResult 4 m o e = (if m.toInt < o.toInt then m else o)
    ∧ State.amoResult 5 m o e = (if m.toInt < o.toInt then o else m) := by
  simp only [State.amoResult, State.combineOp, BitVec.slt, decide_eq_true_eq, and_self]

theorem amoResult_unsigned : State.amoResult 6 m o e = (if m.toNat < o.toNat then m else o)
    ∧ State.amoResult 7 m o e = (if m.toNat < o.toNat then o else m) := by
  simp only [State.amoResult, State.combineOp, BitVec.ult, decide_eq_true_eq, and_self]

theorem amoResult_low_add : (State.amoResult 16 m o e).toNat % 2 ^ 32 = (m.toNat % 2 ^ 32 + o.toNat % 2 ^ 32) % 2 ^ 32 := by
  simp only [State.amoResult, toNat_low_append, State.combineOp, BitVec.toNat_ofNat]; omega

theorem amoResult_low_signed :
    (State.amoResult 18 m o e).toNat % 2 ^ 32 = (if (BitVec.ofNat 32 m.toNat).toInt < (BitVec.ofNat 32 o.toNat).toInt
        then m.toNat % 2 ^ 32 else o.toNat % 2 ^ 32)
      ∧ (State.amoResult 19 m o e).toNat % 2 ^ 32 = (if (BitVec.ofNat 32 m.toNat).toInt < (BitVec.ofNat 32 o.toNat).toInt
        then o.toNat % 2 ^ 32 else m.toNat % 2 ^ 32) := by
  simp only [State.amoResult, toNat_low_append, State.combineOp, intOf_toInt]
  constructor <;> split <;> rfl

end
end Sys2Proof.Machine
end

section
/-!
CERTIFICATE. Stores and atomics as they are performed (R69, R112, R113, R123, R225, R226, R231, R414, R419).
-/
namespace Sys2Proof.Machine

/-- Settles O17: a store's home writes what its bank takes of it, an atomic's the result of its operation, and nothing that goes on
after either writes more. -/
theorem performed : Obligations.Performed := by
  unfold Obligations.Performed
  refine ⟨fun s k x op p hp hkind hl hn hlocal => ?_, fun s r k => ?_, fun m o e => ?_⟩
  · intro lands
    have hw := storedAt_written hp hlocal
    have hlands : lands (s.storedAt k x p) :=
      ⟨fun ha ht => ⟨(hw.bytes ha ht hl hn).1, (hw.bytes ha ht hl hn).2, hw.untagged ha ht hl, fun gr b => hw.tagged ha ht hl⟩, hw.nothing⟩
    exact ⟨fun ho => ⟨_, storePerform_performs hp hkind ho, hlands⟩,
      fun o hplace hlost howed ho => ⟨_, remoteRegionAccess_performs hp hkind hplace hlost howed ho, hlands⟩⟩
  · intro n as old new st applied answers hserved hlocal
    have hdone := State.amoDone_performs (s := s) (r := r) hserved hlocal
    exact ⟨fun ho hacq hport hheld => ⟨_, homeAmo_performs ho hacq hport hheld, hdone _ _ _⟩,
      fun ho hheld hlost => ⟨_, niAtomic_performs ho hheld hlost hserved, hdone _ _ _⟩⟩
  · obtain ⟨hmin, hmax⟩ := amoResult_signed m o e
    obtain ⟨hminu, hmaxu⟩ := amoResult_unsigned m o e
    exact ⟨rfl, rfl, rfl, rfl, hmin, hmax, hminu, hmaxu, rfl, rfl, amoResult_low_add m o e, amoResult_low_signed m o e⟩

end Sys2Proof.Machine
end

section
/-!
SUPPORT. What lasts (R32, R47, R408, R411): what the fabric, the caches, the NIs' lists and the operations under way leave as it is
of sites, of cores and of contexts.
-/
namespace Sys2Proof.Machine

/-- What of a site only its loss, its evacuation, its firmware, its links and its spares change (R323, R408, R411). -/
def Site.lasting (t : Site) : Bool × Option Nat × Sparse Node × Sparse Link × List Nat :=
  (t.live, t.evacuating, t.nodes, t.links, t.sparesUsed)

/-- A context but for its registers with their taint, its slots, its pending operations and its transaction. -/
def Ctx.still (c : Ctx) : Ctx :=
  { c with g := [], v := [], m := [], heldB := none, slots := 0, slot7 := 0, pend := [], txn := none }

/-- A context without registers, for none of which a deposit is pending. -/
structure Ctx.Bare (c : Ctx) : Prop where
  g : c.g = []
  v : c.v = []
  m : c.m = []
  slots : c.slots = 0
  pend : ∀ p ∈ c.pend, p.dest = .none ∧ p.slot = none

/-- What operations under way do to a context: they write its registers and end, and its transaction may be removed. -/
structure Ctx.Runs (c c' : Ctx) : Prop where
  still : c'.still = c.still
  txn : c.txn = none → c'.txn = none

/-- Operations under way write no register that they are not to write. -/
structure Ctx.RunsBare (c c' : Ctx) : Prop extends Ctx.Runs c c' where
  bare : c.Bare → c'.Bare

/-- What the end of tasks does to a context: it keeps its generation, and starts no task. -/
structure Ctx.Ends (c c' : Ctx) : Prop where
  gen : c'.gen = c.gen
  occupied : c'.occupied = true → c.occupied = true

namespace Ctx
variable {c c' c'' : Ctx}

theorem Runs.refl (c : Ctx) : c.Runs c := ⟨rfl, id⟩
theorem Runs.trans (h : c.Runs c') (g : c'.Runs c'') : c.Runs c'' := ⟨g.still.trans h.still, g.txn ∘ h.txn⟩
theorem RunsBare.refl (c : Ctx) : c.RunsBare c := ⟨.refl c, id⟩
theorem RunsBare.trans (h : c.RunsBare c') (g : c'.RunsBare c'') : c.RunsBare c'' := ⟨h.toRuns.trans g.toRuns, g.bare ∘ h.bare⟩
theorem Ends.refl (c : Ctx) : c.Ends c := ⟨rfl, id⟩
theorem Ends.trans (h : c.Ends c') (g : c'.Ends c'') : c.Ends c'' := ⟨g.gen.trans h.gen, h.occupied ∘ g.occupied⟩
theorem Runs.ends (h : c.Runs c') : c.Ends c' where
  gen := (congrArg Ctx.gen h.still : c'.still.gen = c.still.gen)
  occupied := (congrArg Ctx.occupied h.still : c'.still.occupied = c.still.occupied).symm.trans

/-- An update of what is pending that gives no operation a destination. -/
theorem runsBare_pend {pend : List PendOp} (h : ∀ q ∈ pend, ∃ p ∈ c.pend, q.dest = p.dest ∧ q.slot = p.slot) :
    c.RunsBare { c with pend } := by
  refine ⟨⟨rfl, id⟩, fun hb => ⟨hb.g, hb.v, hb.m, hb.slots, fun q hq => ?_⟩⟩
  obtain ⟨p, hp, ed, es⟩ := h q hq
  rw [ed, es]; exact hb.pend p hp

/-- A removed transaction leaves the rest of its context. -/
theorem runsBare_txn {f : Txn → Txn} {d : Ctx} (h : d = { c with txn := c.txn.map f }) : c.RunsBare d :=
  h ▸ ⟨⟨rfl, fun h => congrArg (Option.map f) h⟩, fun hb => ⟨hb.g, hb.v, hb.m, hb.slots, hb.pend⟩⟩

end Ctx

namespace State

/-- The turn, what lasts of sites and the loss of cores are in `t` as in `s`, and its contexts have changed by `R`. -/
structure Stays (R : Ctx → Ctx → Prop) (s t : State) : Prop where
  cur : t.cur = s.cur
  ctx : t.ctx = s.ctx
  site : ∀ n, (t.site n).lasting = (s.site n).lasting
  lost : ∀ k, (t.core k).lost = (s.core k).lost
  copyStart : ∀ k, (t.core k).copyStart = (s.core k).copyStart
  ctxAt : ∀ k x, R (s.ctxAt k x) (t.ctxAt k x)

section
variable {R Q : Ctx → Ctx → Prop} {s t u : State}

theorem Stays.refl (hR : ∀ c, R c c) (s : State) : Stays R s s :=
  ⟨rfl, rfl, fun _ => rfl, fun _ => rfl, fun _ => rfl, fun _ _ => hR _⟩
theorem Stays.trans (hR : ∀ {c c' c''}, R c c' → R c' c'' → R c c'') (h : Stays R s t) (g : Stays R t u) : Stays R s u where
  cur := g.cur.trans h.cur
  ctx := g.ctx.trans h.ctx
  site := fun n => (g.site n).trans (h.site n)
  lost := fun k => (g.lost k).trans (h.lost k)
  copyStart := fun k => (g.copyStart k).trans (h.copyStart k)
  ctxAt := fun k x => hR (h.ctxAt k x) (g.ctxAt k x)
theorem Stays.live (h : Stays R s t) (n : Nat) : (t.site n).live = (s.site n).live := congrArg (·.1) (h.site n)
theorem Stays.evacuating (h : Stays R s t) (n : Nat) : (t.site n).evacuating = (s.site n).evacuating := congrArg (·.2.1) (h.site n)
theorem Stays.nodes (h : Stays R s t) (n : Nat) : (t.site n).nodes = (s.site n).nodes := congrArg (·.2.2.1) (h.site n)
theorem Stays.links (h : Stays R s t) (n : Nat) : (t.site n).links = (s.site n).links := congrArg (·.2.2.2.1) (h.site n)
theorem Stays.sparesUsed (h : Stays R s t) (n : Nat) : (t.site n).sparesUsed = (s.site n).sparesUsed :=
  congrArg (·.2.2.2.2) (h.site n)
theorem Stays.mono (hR : ∀ {c c'}, R c c' → Q c c') (h : Stays R s t) : Stays Q s t :=
  { h with ctxAt := fun k x => hR (h.ctxAt k x) }
end

/-- Contexts are as they were. -/
def Quiet : State → State → Prop := Stays Eq
/-- Contexts have at most gone on with what was under way. -/
def Runs : State → State → Prop := Stays Ctx.RunsBare
/-- Contexts have at most ended their tasks. -/
def Ends : State → State → Prop := Stays Ctx.Ends

section
variable {s t u : State}

theorem Quiet.refl (s : State) : Quiet s s := Stays.refl (fun _ => rfl) s
theorem Quiet.trans (h : Quiet s t) (g : Quiet t u) : Quiet s u := Stays.trans Eq.trans h g
theorem Quiet.runs (h : Quiet s t) : Runs s t := Stays.mono (R := Eq) (fun e => e ▸ .refl _) h
theorem Runs.refl (s : State) : Runs s s := (Quiet.refl s).runs
theorem Runs.trans (h : Runs s t) (g : Runs t u) : Runs s u := Stays.trans Ctx.RunsBare.trans h g
theorem Runs.ends (h : Runs s t) : Ends s t := h.mono fun e => e.toRuns.ends
theorem Quiet.ends (h : Quiet s t) : Ends s t := h.runs.ends
theorem Ends.refl (s : State) : Ends s s := (Quiet.refl s).ends
theorem Ends.trans (h : Ends s t) (g : Ends t u) : Ends s u := Stays.trans Ctx.Ends.trans h g

/-- A context without a task stays without one. -/
theorem Ends.unoccupied (h : Ends s t) {k x : Nat} (ho : (s.ctxAt k x).occupied = false) : (t.ctxAt k x).occupied = false :=
  Bool.eq_false_iff.2 fun ht => absurd ((h.ctxAt k x).occupied ht) (by rw [ho]; decide)

theorem Quiet.foldl {α : Type} {f : State → α → State} (h : ∀ s a, Quiet s (f s a)) (l : List α) (s : State) :
    Quiet s (l.foldl f s) := foldl_rel refl trans h l s
theorem Runs.foldl {α : Type} {f : State → α → State} (h : ∀ s a, Runs s (f s a)) (l : List α) (s : State) :
    Runs s (l.foldl f s) := foldl_rel refl trans h l s
theorem Ends.foldl {α : Type} {f : State → α → State} (h : ∀ s a, Ends s (f s a)) (l : List α) (s : State) :
    Ends s (l.foldl f s) := foldl_rel refl trans h l s

end

/-! Updates. -/

/-- An update outside cores, sites, turn and clock. -/
theorem quiet_aside {s t : State} (h : (t.cores, t.sites, t.cur, t.ctx, t.ticks, t.born)
    = (s.cores, s.sites, s.cur, s.ctx, s.ticks, s.born)) : Quiet s t := by
  obtain ⟨hcores, hsites, hcur, hctx, hticks, hborn⟩ : _ ∧ _ ∧ _ ∧ _ ∧ _ ∧ _ := by simpa only [Prod.mk.injEq] using h
  have hcore : ∀ k, t.core k = s.core k := fun k => by simp only [core, idleCore, hcores, hcur, hticks, hborn]
  exact ⟨hcur, hctx, fun n => by rw [site_of_sites hsites], fun k => by rw [hcore], fun k => by rw [hcore],
    fun k x => by rw [State.ctxAt, State.ctxAt, hcore]⟩

theorem setSite_quiet {s : State} {n : Nat} {t : Site} (h : t.lasting = (s.site n).lasting) : Quiet s (s.setSite n t) := by
  refine ⟨rfl, rfl, fun m => ?_, fun _ => rfl, fun _ => rfl, fun _ _ => rfl⟩
  by_cases e : m = n
  · subst e; rw [site_setSite, h]
  · exact congrArg Site.lasting (Sparse.get_set_other _ _ _ _ _ e)
theorem mapSite_quiet {s : State} {n : Nat} {f : Site → Site} (h : (f (s.site n)).lasting = (s.site n).lasting) :
    Quiet s (s.mapSite n f) := setSite_quiet h

/-- A map over the sites that keeps what lasts of each. -/
theorem mapSites_quiet {s : State} {f : Nat → Site → Site} (h : ∀ n t, (f n t).lasting = t.lasting) :
    Quiet s { s with sites := s.sites.map fun p => (p.1, f p.1 p.2) } :=
  ⟨rfl, rfl, fun n => Sparse.get_map_keeps Site.lasting f h {} s.sites n, fun _ => rfl, fun _ => rfl, fun _ _ => rfl⟩

/-- An update of a core that is neither its loss nor its contexts. -/
theorem setCore_quiet {s : State} {k : Nat} {c : Core}
    (h : (c.lost, c.copyStart, c.ctxs) = ((s.core k).lost, (s.core k).copyStart, (s.core k).ctxs)) : Quiet s (s.setCore k c) := by
  obtain ⟨hl, hs, hc⟩ : _ ∧ _ ∧ _ := by simpa only [Prod.mk.injEq] using h
  have hcore : ∀ j, ((s.setCore k c).core j).lost = (s.core j).lost ∧ ((s.setCore k c).core j).copyStart = (s.core j).copyStart
      ∧ ((s.setCore k c).core j).ctxs = (s.core j).ctxs := fun j => by
    by_cases e : j = k
    · subst e; rw [core_setCore]; exact ⟨hl, hs, hc⟩
    · rw [core_setCore_other _ _ _ _ e]; exact ⟨rfl, rfl, rfl⟩
  exact ⟨rfl, rfl, fun _ => rfl, fun j => (hcore j).1, fun j => (hcore j).2.1,
    fun j x => by rw [State.ctxAt, State.ctxAt, (hcore j).2.2]⟩
theorem mapCore_quiet {s : State} {k : Nat} {f : Core → Core}
    (h : ((f (s.core k)).lost, (f (s.core k)).copyStart, (f (s.core k)).ctxs)
      = ((s.core k).lost, (s.core k).copyStart, (s.core k).ctxs)) : Quiet s (s.mapCore k f) := setCore_quiet h
theorem mapNi_quiet (s : State) (k : Nat) (f : NI → NI) : Quiet s (s.mapNi k f) := mapCore_quiet rfl

/-- A map over the cores that keeps the loss of each, and changes its contexts by `R`. -/
theorem mapCores_stays {R : Ctx → Ctx → Prop} (hR : ∀ c, R c c) {s : State} {f : Nat → Core → Core}
    (h : ∀ k c, ((f k c).lost, (f k c).copyStart) = (c.lost, c.copyStart)
      ∧ ∀ x, R (Sparse.get {} c.ctxs x) (Sparse.get {} (f k c).ctxs x)) :
    Stays R s { s with cores := s.cores.map fun p => (p.1, f p.1 p.2) } := by
  have hcore := fun k => Sparse.get_map_rel (R := fun c c' : Core => (c'.lost, c'.copyStart) = (c.lost, c.copyStart)
    ∧ ∀ x, R (Sparse.get {} c.ctxs x) (Sparse.get {} c'.ctxs x)) f h (s.idleCore k) ⟨rfl, fun _ => hR _⟩ s.cores k
  exact ⟨rfl, rfl, fun _ => rfl, fun k => congrArg Prod.fst (hcore k).1, fun k => congrArg Prod.snd (hcore k).1,
    fun k x => (hcore k).2 x⟩

/-- An update of one context, and of its core outside its contexts and its loss. -/
theorem setCore_ctx_stays {R : Ctx → Ctx → Prop} (hR : ∀ c, R c c) {s : State} {k x : Nat} {t : Ctx} {c : Core}
    (hc : (c.lost, c.copyStart, c.ctxs) = ((s.core k).lost, (s.core k).copyStart, Sparse.set (s.core k).ctxs x t))
    (h : R (s.ctxAt k x) t) : Stays R s (s.setCore k c) := by
  obtain ⟨hl, hs, hx⟩ : _ ∧ _ ∧ _ := by simpa only [Prod.mk.injEq] using hc
  have hcore : ∀ j, ((s.setCore k c).core j).lost = (s.core j).lost ∧ ((s.setCore k c).core j).copyStart = (s.core j).copyStart :=
    fun j => by
      by_cases e : j = k
      · subst e; rw [core_setCore]; exact ⟨hl, hs⟩
      · rw [core_setCore_other _ _ _ _ e]; exact ⟨rfl, rfl⟩
  refine ⟨rfl, rfl, fun _ => rfl, fun j => (hcore j).1, fun j => (hcore j).2, fun j y => ?_⟩
  by_cases e : j = k
  · subst e
    rw [State.ctxAt, State.ctxAt, core_setCore, hx]
    by_cases e : y = x
    · subst e; rw [Sparse.get_set_same]; exact h
    · rw [Sparse.get_set_other _ _ _ _ _ e]; exact hR _
  · rw [State.ctxAt, State.ctxAt, core_setCore_other _ _ _ _ e]; exact hR _
theorem mapCtx_stays {R : Ctx → Ctx → Prop} (hR : ∀ c, R c c) {s : State} {k x : Nat} {f : Ctx → Ctx}
    (h : R (s.ctxAt k x) (f (s.ctxAt k x))) : Stays R s (s.mapCtx k x f) := setCore_ctx_stays hR rfl h

theorem mapGrid_quiet (s : State) (n : Nat) (f : Grid → Grid) : Quiet s (s.mapGrid n f) := by
  unfold mapGrid; split <;> exact quiet_aside rfl
theorem mapTeam_quiet (s : State) (n : Nat) (f : Team → Team) : Quiet s (s.mapTeam n f) := by
  unfold mapTeam; split <;> exact quiet_aside rfl
theorem mapPart_quiet (s : State) (n : Nat) (f : Partition → Partition) : Quiet s (s.mapPart n f) := by
  unfold mapPart; split <;> exact quiet_aside rfl

/-! The fabric (R318 to R327). -/

theorem push_quiet (s : State) (e : Event) : Quiet s (s.push e) := quiet_aside rfl
theorem pushAll_quiet (s : State) (es : List Event) : Quiet s (s.pushAll es) := quiet_aside rfl
theorem pushOnce_quiet (s : State) (e : Event) : Quiet s (s.pushOnce e) := by
  unfold pushOnce; split <;> exact quiet_aside rfl
theorem leave_quiet (s : State) (src : Nat) (fs : List Flit) : Quiet s (s.leave src fs) :=
  (mapSite_quiet (by split <;> rfl)).trans (pushOnce_quiet _ _)
theorem inject_quiet (s : State) (src dst flits cls seq : Nat) (r o : Bool) (e : Option Event) :
    Quiet s (s.inject src dst flits cls seq r o e) := s.leave_quiet _ _
theorem injectCtl_quiet (s : State) (st ctl src dst seq : Nat) (e : Option Event) : Quiet s (s.injectCtl st ctl src dst seq e) := by
  simp only [injectCtl]; split
  · exact s.leave_quiet _ _
  · exact (mapSite_quiet rfl).trans (pushOnce_quiet _ _)
theorem route_quiet (s : State) (src owner flits cls : Nat) (e : Event) : Quiet s (s.route src owner flits cls e) := by
  simp only [route]; split
  · exact s.push_quiet e
  · split
    · refine .trans (setSite_quiet ?_) (inject_quiet _ _ _ _ _ _ _ _ _)
      rfl
    · exact setSite_quiet rfl
theorem routeOnce_quiet (s : State) (src owner flits cls : Nat) (e : Event) : Quiet s (s.routeOnce src owner flits cls e) := by
  unfold routeOnce; split
  · exact .refl s
  · exact s.route_quiet _ _ _ _ _
theorem setXmit_quiet (s : State) (a : Nat) (xs : List XmitEntry) : Quiet s (s.setXmit a xs) := mapSite_quiet rfl
theorem sendNext_quiet (s : State) (a : Nat) : Quiet s (s.sendNext a) :=
  .foldl (fun s x => by
    extract_lets; split
    · exact (s.setXmit_quiet _ _).trans (inject_quiet _ _ _ _ _ _ _ _ _)
    · exact .refl s) _ s
theorem freeXmit_quiet (s : State) (a owner seq : Nat) : Quiet s (s.freeXmit a owner seq) :=
  ((s.setXmit_quiet _ _).trans (mapSite_quiet rfl)).trans (sendNext_quiet _ _)
theorem mapWindow_quiet (s : State) (owner src : Nat) (f : SeqWindow → SeqWindow) : Quiet s (s.mapWindow owner src f) :=
  mapSite_quiet rfl
theorem resume_quiet (s : State) (es : List Event) : Quiet s (s.resume es) :=
  .foldl (fun s e => by split <;> exact quiet_aside rfl) es s
theorem markApplied_quiet (s : State) (owner src n : Nat) : Quiet s (s.markApplied owner src n) := by
  unfold markApplied; extract_lets drop s₁ s₂
  have h₂ : Quiet s₁ s₂ := mapSites_quiet
    (f := fun _ t => if t.fwdHold.isEmpty then t else { t with fwdHold := Sparse.mapVals drop t.fwdHold }) fun _ t => by
      split <;> rfl
  exact ((s.mapWindow_quiet _ _ _).trans h₂).trans (resume_quiet _ _)
theorem cacheAnswer_quiet (s : State) (owner src seq : Nat) (e : Option Event) : Quiet s (s.cacheAnswer owner src seq e) :=
  (s.mapWindow_quiet _ _ _).trans (markApplied_quiet _ _ _ _)
theorem ack_quiet (s : State) (e : Event) : Quiet s (s.ack e) := by
  unfold ack; split
  · exact (s.cacheAnswer_quiet _ _ _ _).trans (injectCtl_quiet _ _ _ _ _ _ _)
  · exact .refl s
theorem answer_quiet (s : State) (req e : Event) : Quiet s (s.answer req e) := by
  unfold answer; split
  · exact (s.cacheAnswer_quiet _ _ _ _).trans (inject_quiet _ _ _ _ _ _ _ _ _)
  · exact s.push_quiet _
theorem giveUp_quiet (s : State) (a : Nat) (id : Word) : Quiet s (s.giveUp a id) :=
  .foldl (fun s x => by
    split
    · split
      · exact (s.freeXmit_quiet _ _ _).trans (injectCtl_quiet _ _ _ _ _ _ _)
      · exact .refl s
    · exact .refl s) _ s
theorem sendRoom_quiet (s : State) (k sender : Nat) (id : Word) : Quiet s (s.sendRoom k sender id) := by
  simp only [sendRoom]; split
  · exact s.push_quiet _
  · split
    · split
      · exact (s.mapWindow_quiet _ _ _).trans (injectCtl_quiet _ _ _ _ _ _ _)
      · exact s.injectCtl_quiet _ _ _ _ _ _
    · exact s.injectCtl_quiet _ _ _ _ _ _
theorem askFlush_quiet (s : State) (k x : Nat) (mods : List Nat) : Quiet s (s.askFlush k x mods) :=
  .foldl (fun s _ => s.routeOnce_quiet _ _ _ _ _) mods s
theorem sendAmo_quiet (s : State) (k : Nat) (r : AmoReq) (p : Place) : Quiet s (s.sendAmo k r p) := by
  unfold sendAmo; split
  · exact s.push_quiet _
  · exact s.route_quiet _ _ _ _ _
  · exact s.route_quiet _ _ _ _ _
theorem notice_quiet (s : State) (tile : Nat) (h : Nat × Nat) (code : Nat) : Quiet s (s.notice tile h code) := by
  unfold notice; extract_lets home dir s₁
  have h₁ : Quiet s s₁ := s.routeOnce_quiet _ _ _ _ _
  split
  · exact h₁
  · exact h₁.trans (routeOnce_quiet _ _ _ _ _ _)
theorem machineCheck_quiet (s : State) (site cls sev agent pa : Nat) : Quiet s (s.machineCheck site cls sev agent pa) := by
  unfold machineCheck machineCheckWith; extract_lets same
  exact mapSite_quiet (by split <;> rfl)
theorem ctlSend_quiet (s : State) (site : Nat) (d a1 a2 a3 a4 : Word) (payload : List Byte) :
    Quiet s (s.ctlSend site d a1 a2 a3 a4 payload) := by
  unfold ctlSend; split
  · exact mapSite_quiet rfl
  · exact (mapSite_quiet rfl).trans (route_quiet _ _ _ _ _ _)

/-! Messages that go, and teams that are looked at again (R25, R50, R55). -/

theorem replayOn_quiet (s : State) (k : Nat) : Quiet s (s.replayOn k) := by
  unfold replayOn; split
  · split
    · exact s.pushOnce_quiet _
    · exact .refl s
  · exact .refl s
theorem quietOn_quiet (s : State) (k : Nat) : Quiet s (s.quietOn k) := by
  unfold quietOn; split
  · split
    · exact s.pushOnce_quiet _
    · split
      · exact s.pushOnce_quiet _
      · exact .refl s
  · exact .refl s
theorem settled_quiet (s : State) (k x : Nat) : Quiet s (s.settled k x) := by
  unfold settled; extract_lets t
  split
  · exact .refl s
  · split
    · exact (s.push_quiet _).trans (quietOn_quiet _ _)
    · exact .refl s
theorem workDown_quiet (s : State) (g : Option Nat) : Quiet s (s.workDown g) := by
  unfold workDown; split
  · exact (s.mapGrid_quiet _ _).trans (push_quiet _ _)
  · exact .refl s
theorem consume_quiet (s : State) (m : Message) : Quiet s (s.consume m) := s.workDown_quiet _
theorem entryFreed_quiet (s : State) (k : Nat) : Quiet s (s.entryFreed k) := by
  refine (s.replayOn_quiet k).trans ?_
  unfold entryFreed; extract_lets s₁ c listed; clear_value listed
  rcases listed with _ | ⟨id, cls, sender⟩
  · exact .refl s₁
  · exact (mapNi_quiet _ _ _).trans (sendRoom_quiet _ _ _ _)
theorem settleMsg_quiet (s : State) (at_ : Option Nat) (m : Message) : Quiet s (s.settleMsg at_ m) := by
  rw [settleMsg_eq]
  refine .foldl (fun s q => ?_) _ s
  unfold settleAt; extract_lets s₁ s₂
  have h₁ : Quiet s s₁ := s.mapNi_quiet _ _
  have h₂ : Quiet s₁ s₂ := by
    unfold s₂; split
    · exact route_quiet _ _ _ _ _ _
    · exact .refl s₁
  split
  · exact (h₁.trans h₂).trans (entryFreed_quiet _ _)
  · exact h₁.trans h₂
theorem stray_quiet (s : State) (k : Nat) (m : Message) : Quiet s (s.stray k m) :=
  ((s.mapNi_quiet _ _).trans (workDown_quiet _ _)).trans (settleMsg_quiet _ _ _)
theorem noticeAll_quiet (s : State) (k : Nat) : Quiet s (s.noticeAll k) :=
  (s.mapNi_quiet _ _).trans (.foldl (fun s _ => s.sendRoom_quiet _ _ _) _ _)
theorem release_quiet_entries (s : State) (k : Nat) (es : List QEntry) :
    Quiet s (es.foldl (fun s e => (s.consume e.msg).entryFreed k) s) :=
  .foldl (fun s _ => (s.consume_quiet _).trans (entryFreed_quiet _ _)) es s

/-! Caches (R104, R107, R123). -/

theorem dropL1_quiet (s : State) (at_ : Nat → Bool) (gone : L1Line → Bool) : Quiet s (s.dropL1 at_ gone) :=
  mapCores_stays (fun _ => rfl)
    (f := fun k c => if at_ k then { c with l1 := c.l1.filter fun l => !gone l || s.specLine k l.line } else c)
    fun k c => by split <;> exact ⟨rfl, fun _ => rfl⟩
theorem setClusterLines_quiet (s : State) (site cl : Nat) (ls : List ClusterLine) : Quiet s (s.setClusterLines site cl ls) :=
  mapSite_quiet rfl
theorem l2Touch_quiet (s : State) (line : Nat) (dirty : Bool) : Quiet s (s.l2Touch line dirty) := by
  unfold l2Touch; split
  · exact .refl s
  · exact mapSite_quiet rfl
theorem evictLine_quiet (s : State) (site cl : Nat) (e : ClusterLine) : Quiet s (s.evictLine site cl e) := by
  unfold evictLine; extract_lets s₁ s₂
  have h : Quiet s s₂ := (s.setClusterLines_quiet _ _ _).trans (dropL1_quiet _ _ _)
  split
  · exact h.trans (l2Touch_quiet _ _ _)
  · exact h
theorem l1Install_quiet (s : State) (k line : Nat) (copy : Option RemoteCopy) : Quiet s (s.l1Install k line copy) := by
  unfold l1Install; extract_lets l1 set
  split
  · exact mapCore_quiet rfl
  · exact (mapCore_quiet rfl).trans (.foldl (fun _ _ => pushOnce_quiet _ _) _ _)
theorem clusterInstall_quiet (s : State) (site cl line : Nat) (st : Moesi) (copy : Option RemoteCopy) :
    Quiet s (s.clusterInstall site cl line st copy) := by
  unfold clusterInstall; extract_lets ls set; clear_value set
  split
  · exact s.setClusterLines_quiet _ _ _
  · split
    · exact s.setClusterLines_quiet _ _ _
    · split
      · exact .refl s
      · exact (s.evictLine_quiet _ _ _).trans (setClusterLines_quiet _ _ _ _)
theorem fillFromCluster_quiet (s : State) (k : Nat) (as : List Nat) : Quiet s (s.fillFromCluster k as) :=
  .foldl (fun s l => by
    split
    · split
      · exact .refl s
      · exact s.l1Install_quiet _ _ _
    · exact .refl s) _ s
theorem wroteLine_quiet (s : State) (writer : Option Nat) (line : Nat) : Quiet s (s.wroteLine writer line) := by
  unfold wroteLine; extract_lets mine mod s₁ others s₂
  have h₁ : Quiet s s₁ := s.dropL1_quiet _ _
  have h₂ : Quiet s₁ s₂ := .foldl (fun _ _ => evictLine_quiet _ _ _ _) _ _
  have h := h₁.trans h₂
  clear_value s₂ mine
  cases mine with
  | some k => exact (h.trans (mapCore_quiet rfl)).trans (setClusterLines_quiet _ _ _ _)
  | none => exact (h.trans (dropL1_quiet _ _ _)).trans (l2Touch_quiet _ _ _)
theorem forgetLines_quiet (s : State) (at_ gone : Nat → Bool) : Quiet s (s.forgetLines at_ gone) :=
  (s.dropL1_quiet _ _).trans (mapSites_quiet (f := fun n t => if at_ n then
    { t with clusters := Sparse.mapVals (fun ls => ls.filter fun e => !(gone e.line && e.copy.isNone)) t.clusters } else t)
    fun n t => by split <;> rfl)
theorem l2Forget_quiet (s : State) (gone : Nat → Bool) : Quiet s (s.l2Forget gone) :=
  mapSites_quiet (f := fun _ t => { t with l2 := Sparse.mapVals (fun ls => ls.filter fun l => !gone l.line) t.l2 }) fun _ _ => rfl
theorem mapTlbs_quiet (s : State) (cores sites : Nat → Bool) (f : List TlbEntry → List TlbEntry) :
    Quiet s (s.mapTlbs cores sites f) := by
  have hc : Quiet s { s with cores := s.cores.map fun p =>
      (p.1, if cores p.1 && !p.2.dtlb.isEmpty then { p.2 with dtlb := f p.2.dtlb } else p.2) } :=
    mapCores_stays (fun _ => rfl) (f := fun k c => if cores k && !c.dtlb.isEmpty then { c with dtlb := f c.dtlb } else c)
      fun k c => by split <;> exact ⟨rfl, fun _ => rfl⟩
  exact hc.trans (mapSites_quiet (f := fun n t => if sites n then { t with l2tlb := Sparse.mapVals f t.l2tlb } else t)
    fun n t => by split <;> rfl)
theorem writeHome_quiet (s : State) (ws : List (Nat × Byte)) (tags : List (Nat × Bool)) (writer : Option Nat) :
    Quiet s (s.writeHome ws tags writer) := by
  obtain ⟨_, _, _, _, hw⟩ := s.writeMem_rest ws
  have h : Quiet s (tags.foldl (fun s g => s.setTag g.1 g.2) (s.writeMem ws)) := by
    rw [hw, setTags_eq]; exact quiet_aside rfl
  exact h.trans (.foldl (fun s _ => s.wroteLine_quiet _ _) _ _)
theorem clearSlots_quiet (s : State) (p : Place) (as : List Nat) : Quiet s (s.clearSlots p as) := by
  unfold clearSlots; split
  · extract_lets b size
    split <;> exact quiet_aside rfl
  · exact .refl s
theorem leaveWalks_quiet (s : State) (k x : Nat) : Quiet s (s.leaveWalks k x) := by
  unfold leaveWalks; extract_lets stays t
  split
  · exact .refl s
  · exact mapSite_quiet rfl

/-! Combined requests (R142). -/

theorem combineSend_quiet (s : State) (k i : Nat) : Quiet s (s.combineSend k i) := by
  unfold combineSend; split
  · exact .refl s
  · exact (s.mapNi_quiet _ _).trans (sendAmo_quiet _ _ _ _)
theorem combineEnter_quiet (s : State) (k : Nat) (r : AmoReq) (p : Place) : Quiet s (s.combineEnter k r p) := by
  unfold combineEnter; extract_lets ni s₁
  split
  · exact s.mapNi_quiet _ _
  · have h₁ : Quiet s s₁ := by
      unfold s₁; split
      · exact s.combineSend_quiet _ _
      · exact .refl s
    exact h₁.trans (mapNi_quiet _ _ _)
theorem combineFlush_quiet (s : State) (k x n : Nat) : Quiet s (s.combineFlush k x n) :=
  .foldl (fun s e => by
    split
    · exact s.combineSend_quiet _ _
    · exact .refl s) _ s

end State
end Sys2Proof.Machine
end

section
/-!
SUPPORT. What lasts while operations under way go on (R32, R76, R130), and the context that the end of a task leaves (R47, R209).
-/
namespace Sys2Proof.Machine
namespace State

/-! What is pending changes (R76, R126). -/

theorem mapCtx_runs {s : State} {k x : Nat} {f : Ctx → Ctx} (h : (s.ctxAt k x).RunsBare (f (s.ctxAt k x))) :
    Runs s (s.mapCtx k x f) := mapCtx_stays Ctx.RunsBare.refl h
theorem dropOp_runs (s : State) (k x op : Nat) : Runs s (s.dropOp k x op) :=
  mapCtx_runs (Ctx.runsBare_pend fun q hq => ⟨q, (List.mem_filter.1 hq).1, rfl, rfl⟩)
theorem mapOp_runs {f : PendOp → PendOp} (s : State) (k x op : Nat) (hf : ∀ p, (f p).dest = p.dest ∧ (f p).slot = p.slot) :
    Runs s (s.mapOp k x op f) := mapCtx_runs (Ctx.runsBare_pend fun q hq => by
  obtain ⟨p, hp, rfl⟩ := List.mem_map.1 hq
  refine ⟨p, hp, ?_⟩
  split
  · exact hf p
  · exact ⟨rfl, rfl⟩)
theorem staleFills_runs (s : State) (k : Nat) (hit : Nat → Bool) : Runs s (s.staleFills k hit) := by
  refine mapCores_stays Ctx.RunsBare.refl (f := fun j c => if inCluster (siteOf k) (clusterOf k) j
    then { c with ctxs := Sparse.mapVals (staleCtx hit) c.ctxs } else c) fun j c => ?_
  split
  · refine ⟨rfl, fun x => ?_⟩
    rw [Sparse.get_mapVals _ _ _ _ rfl]
    exact Ctx.runsBare_pend fun q hq => by obtain ⟨p, hp, rfl⟩ := List.mem_map.1 hq; exact ⟨p, hp, rfl, rfl⟩
  · exact ⟨rfl, fun x => .refl _⟩
theorem dropCopiesOf_runs (s : State) (k : Nat) (hit : Nat → Bool) : Runs s (s.dropCopiesOf k hit) := by
  unfold dropCopiesOf; extract_lets site cl s₁
  have h : Runs s s₁ := (s.staleFills_runs _ _).trans (dropL1_quiet _ _ _).runs
  split
  · exact h
  · exact h.trans (setClusterLines_quiet _ _ _ _).runs

/-! Values that bind (R76). -/

theorem bindSlot_stays (s : State) (k x n : Nat) : Stays Ctx.Runs s (s.bindSlot k x n) := by
  unfold bindSlot; extract_lets t t' c
  split
  · exact setCore_ctx_stays Ctx.Runs.refl rfl ⟨rfl, id⟩
  · exact setCore_ctx_stays Ctx.Runs.refl rfl ⟨rfl, id⟩
theorem ctxAt_bindSlot_other (s : State) {k x j y : Nat} (n : Nat) (h : j ≠ k ∨ y ≠ x) :
    (s.bindSlot k x n).ctxAt j y = s.ctxAt j y := by
  unfold bindSlot; extract_lets t t' c
  split
  · exact s.ctxAt_setCtxAt_other _ _ _ _ _ h
  · by_cases e : j = k
    · subst e
      simp only [ctxAt, core_setCore]
      exact Sparse.get_set_other _ _ _ _ _ (h.resolve_left fun hn => hn rfl)
    · rw [ctxAt, core_setCore_other _ _ _ _ e, ctxAt]

theorem putG_runs (c : Ctx) (n : Nat) (r : Reg) : c.Runs (c.putG n r) := by
  unfold Ctx.putG; split <;> exact ⟨rfl, id⟩

theorem deposit_stays (s : State) (k x : Nat) (p : PendOp) (bytes : List Byte) (tg : Bool) :
    Stays Ctx.Runs s (s.deposit k x p bytes tg)
      ∧ ∀ j y, (j ≠ k ∨ y ≠ x) → (s.deposit k x p bytes tg).ctxAt j y = s.ctxAt j y := by
  unfold deposit; extract_lets s₁ elems s₂
  have h₁ : Stays Ctx.Runs s s₁ := mapCtx_stays Ctx.Runs.refl ⟨rfl, id⟩
  have e₁ : ∀ j y, (j ≠ k ∨ y ≠ x) → s₁.ctxAt j y = s.ctxAt j y := fun j y h => s.ctxAt_mapCtx_other _ _ _ _ _ h
  have h₂ : Stays Ctx.Runs s₁ s₂ ∧ ∀ j y, (j ≠ k ∨ y ≠ x) → s₂.ctxAt j y = s₁.ctxAt j y := by
    have put (f : Ctx → Ctx) (h : ∀ c : Ctx, c.Runs (f c)) : Stays Ctx.Runs s₁ (s₁.mapCtx k x f)
        ∧ ∀ j y, (j ≠ k ∨ y ≠ x) → (s₁.mapCtx k x f).ctxAt j y = s₁.ctxAt j y :=
      ⟨mapCtx_stays Ctx.Runs.refl (h _), fun j y h => s₁.ctxAt_mapCtx_other _ _ _ _ _ h⟩
    unfold s₂; split
    · exact put _ fun c => putG_runs _ _ _
    · exact put _ fun c => putG_runs _ _ _
    · exact put _ fun c => ⟨rfl, id⟩
    next n _ =>
      have h (f : Core → Core) (hf : ∀ c, (f c).lost = c.lost ∧ (f c).copyStart = c.copyStart ∧ (f c).ctxs = c.ctxs) :
          Quiet s₁ (s₁.mapCore k f) := mapCore_quiet (by rw [(hf _).1, (hf _).2.1, (hf _).2.2])
      have hq := h (fun c => { c with tiles := Sparse.set c.tiles n { (Sparse.get {} c.tiles n : Tile) with elems } })
        fun c => ⟨rfl, rfl, rfl⟩
      exact ⟨hq.runs.mono Ctx.RunsBare.toRuns, fun j y _ => (hq.ctxAt j y).symm⟩
    · exact ⟨.refl Ctx.Runs.refl _, fun _ _ _ => rfl⟩
  have h := Stays.trans (R := Ctx.Runs) Ctx.Runs.trans h₁ h₂.1
  have e := fun j y hj => (h₂.2 j y hj).trans (e₁ j y hj)
  clear_value s₂
  split
  · exact ⟨Stays.trans (R := Ctx.Runs) Ctx.Runs.trans h (bindSlot_stays _ _ _ _),
      fun j y hj => (ctxAt_bindSlot_other _ _ hj).trans (e j y hj)⟩
  · exact ⟨h, e⟩

/-- The value of an operation without destination goes nowhere. -/
theorem deposit_nowhere (s : State) (k x : Nat) {p : PendOp} (hd : p.dest = .none) (hs : p.slot = none)
    (bytes : List Byte) (tg : Bool) :
    s.deposit k x p bytes tg = s.dropOp k x p.op := by
  simp only [deposit, hd, hs]

theorem deposit_runs {s : State} {k x : Nat} {p : PendOp} (hp : (s.ctxAt k x).Bare → p.dest = .none ∧ p.slot = none)
    (bytes : List Byte) (tg : Bool) : Runs s (s.deposit k x p bytes tg) := by
  by_cases hb : (s.ctxAt k x).Bare
  · rw [deposit_nowhere _ _ _ (hp hb).1 (hp hb).2]; exact s.dropOp_runs _ _ _
  · obtain ⟨h, hother⟩ := s.deposit_stays k x p bytes tg
    refine { h with ctxAt := fun j y => ?_ }
    by_cases e : j ≠ k ∨ y ≠ x
    · rw [hother j y e]; exact .refl _
    · obtain ⟨rfl, rfl⟩ : j = k ∧ y = x := by simpa using e
      exact ⟨h.ctxAt j y, fun h => absurd h hb⟩

theorem bindLoad_runs {s : State} {k x : Nat} {p : PendOp} (hp : (s.ctxAt k x).Bare → p.dest = .none ∧ p.slot = none) :
    Runs s (s.bindLoad k x p) := by
  unfold bindLoad; extract_lets t bytes tg s₁ s₂
  have h₁ : Runs s s₁ := (deposit_runs hp _ _).trans (.foldl (fun s l => by
    split
    · exact (mapCore_quiet rfl).runs
    · exact .refl s) _ _)
  have h₂ : Runs s₁ s₂ := by
    unfold s₂; split
    · exact dropCopiesOf_runs _ _ _
    · exact .refl _
  refine (h₁.trans h₂).trans ?_
  split
  · exact (pushOnce_quiet _ _).runs
  · exact .refl _

/-! Stores performed (R123, R158). -/

theorem tileDirs_quiet (s : State) (tileDirs : Sparse TileDir) : Quiet s { s with tileDirs } := quiet_aside rfl
theorem resv_quiet (s : State) (resv : Sparse Resv) : Quiet s { s with resv } := quiet_aside rfl

theorem removeHolders_runs (s : State) (tiles : List Nat) (code : Nat) (keep : Option (Nat × Nat)) :
    Runs s (s.removeHolders tiles code keep) := by
  refine .foldl (fun s q => ?_) _ s
  refine .trans ?_ (notice_quiet _ q.1 q.2 code).runs
  exact (s.tileDirs_quiet _).runs.trans (mapCtx_runs (Ctx.runsBare_txn rfl))
theorem performWrite_runs (s : State) (ws : List (Nat × Byte)) (tags : List (Nat × Bool)) (writer : Option Nat) :
    Runs s (s.performWrite ws tags writer) := (s.removeHolders_runs _ _ _).trans (writeHome_quiet _ _ _ _).runs
theorem afterPosted_runs (s : State) (k : Nat) (p : PendOp) : Runs s (s.afterPosted k p) := by
  unfold afterPosted; extract_lets hit
  split
  · exact .refl s
  · split
    · exact s.staleFills_runs _ _
    · exact s.dropCopiesOf_runs _ _
theorem ackStore_quiet (s : State) (k x : Nat) (p : PendOp) : Quiet s (s.ackStore k x p) := by
  unfold ackStore; split
  · exact s.answer_quiet _ _
  · exact (s.ack_quiet _).trans (settled_quiet _ _ _)
theorem storeDone_runs (s : State) (k x : Nat) (p : PendOp) : Runs s (s.storeDone k x p) :=
  ((((s.performWrite_runs _ _ _).trans (clearSlots_quiet _ _ _).runs).trans (dropOp_runs _ _ _ _)).trans
    (afterPosted_runs _ _ _)).trans (ackStore_quiet _ _ _ _).runs

/-! Launches (R218). -/

theorem launch_runs {s : State} {k x : Nat} {p : PendOp} (hp : (s.ctxAt k x).Bare → p.dest = .none ∧ p.slot = none) :
    Runs s (s.launch k x p) := by
  have hsent : Runs s (s.mapOp k x p.op fun q => { q with sent := true }) := s.mapOp_runs _ _ _ fun _ => ⟨rfl, rfl⟩
  unfold launch; extract_lets sent go byRoute
  have hgo (owner : Nat) (e : Event) : Runs s (go owner e) := by
    unfold go; split
    · exact hsent.trans (route_quiet _ _ _ _ _ _).runs
    · exact .refl s
  have hby (e : Event) : Runs s (byRoute e) := hgo _ e
  split
  next =>
    split
    · exact bindLoad_runs hp
    · exact bindLoad_runs hp
    · exact hby _
    · split
      · exact hby _
      · split
        · exact bindLoad_runs hp
        · split
          · have hfill := s.fillFromCluster_quiet k p.addrs
            exact hfill.runs.trans (bindLoad_runs (by rw [← hfill.ctxAt k x]; exact hp))
          · exact hby _
  next =>
    split
    · exact s.dropOp_runs _ _ _
    · exact hby _
  next => exact hby _
  next => exact hby _
  next =>
    split
    · exact s.storeDone_runs _ _ _
    · exact hby _
  next => exact hby _
  next =>
    split
    · exact .refl s
    · split
      · refine Runs.trans ?_ (combineEnter_quiet _ _ _ _).runs
        split
        · exact s.dropOp_runs _ _ _
        · exact hsent
      · split
        · exact hsent.trans (sendAmo_quiet _ _ _ _).runs
        · exact .refl s
  next => exact hby _
  next => exact hby _
  next =>
    split
    · exact .refl s
    · split
      · exact hgo _ _
      · exact hby _
      · exact hgo _ _
  next =>
    split
    · exact .refl s
    · exact hgo _ _
  next => exact s.dropOp_runs _ _ _
  next =>
    split
    · exact .refl s
    · extract_lets owner
      split
      · exact (s.dropOp_runs _ _ _).trans (route_quiet _ _ _ _ _ _).runs
      · exact .refl s

theorem startFlush_runs (s : State) (k x : Nat) (p : PendOp) : Runs s (s.startFlush k x p) := by
  unfold startFlush; extract_lets t
  split
  · refine .trans ?_ (askFlush_quiet _ _ _ _).runs
    exact s.mapOp_runs _ _ _ fun _ => ⟨rfl, rfl⟩
  · exact .refl s

/-- An operation whose flush begins keeps its destination. -/
theorem mem_pend_startFlush {s : State} {k x : Nat} {p : PendOp} (h : p ∈ (s.ctxAt k x).pend) :
    ∃ q ∈ ((s.startFlush k x p).ctxAt k x).pend, q.dest = p.dest ∧ q.slot = p.slot := by
  unfold startFlush; extract_lets t
  split
  · rw [← (askFlush_quiet _ _ _ _).ctxAt, mapOp, ctxAt_mapCtx]
    refine ⟨_, List.mem_map_of_mem h, ?_⟩
    rw [if_pos rfl]; exact ⟨rfl, rfl⟩
  · exact ⟨p, h, rfl, rfl⟩

theorem kickOp_runs (s : State) (k x op : Nat) : Runs s (kickOp k x s op) := by
  unfold kickOp
  split
  · exact .refl s
  next p hp =>
    have hmem : p ∈ (s.ctxAt k x).pend := List.mem_of_find?_eq_some hp
    extract_lets s₁
    have h₁ : Runs s s₁ ∧ ∃ q ∈ (s₁.ctxAt k x).pend, q.dest = p.dest ∧ q.slot = p.slot := by
      unfold s₁; split
      · have hflush := (s.startFlush k x p).combineFlush_quiet k x p.seq
        exact ⟨(s.startFlush_runs _ _ _).trans hflush.runs, hflush.ctxAt k x ▸ mem_pend_startFlush hmem⟩
      · exact ⟨.refl s, p, hmem, rfl, rfl⟩
    obtain ⟨h₁, q, hq, ed, es⟩ := h₁
    split
    · exact h₁.trans (launch_runs fun hb => by rw [← ed, ← es]; exact hb.pend q hq)
    · exact h₁

theorem kick_runs (s : State) (k x : Nat) : Runs s (s.kick k x) := by
  unfold kick; extract_lets s₁ t onWay s₂
  have h₁ : Runs s s₁ := .foldl (f := kickOp k x) (fun s op => s.kickOp_runs k x op) _ _
  have h₂ : Runs s₁ s₂ := .foldl (fun s _ => (s.pushOnce_quiet _).runs) _ _
  split
  · exact (h₁.trans h₂).trans (pushOnce_quiet _ _).runs
  · exact h₁.trans h₂
theorem kickAll_runs (s : State) : Runs s s.kickAll := .foldl (fun s _ => s.kick_runs _ _) _ s

/-! Reservations that pass on (R228, R229). -/

theorem resv_goesOn (s : State) (resv : Sparse Resv) : GoesOn s { s with resv } :=
  ⟨⟨fun _ => rfl, rfl, rfl⟩, rfl, rfl, fun _ _ => Ctx.pendFrom_of_eq rfl⟩

theorem grant_runs (s : State) (addr : Nat) (h : Nat × Nat × Nat × Nat) : Runs s (s.grant addr h) := by
  unfold grant; split
  extract_lets s₁ old r s₂
  have h₂ : Runs s s₂ := (s.removeHolders_runs _ _ _).trans (s₁.resv_quiet _).runs
  split
  · exact h₂
  · exact h₂.trans (answer_quiet _ _ _).runs
theorem grant_goesOn (s : State) (addr : Nat) (h : Nat × Nat × Nat × Nat) : GoesOn s (s.grant addr h) := by
  unfold grant; split
  extract_lets s₁ old r s₂
  have h₂ : GoesOn s s₂ := (s.removeHolders_goesOn _ _ _).trans (s₁.resv_goesOn _)
  split
  · exact h₂
  · exact h₂.trans (answer_fabric _ _ _).goesOn

theorem passResv_runs (s : State) (addr : Nat) : Runs s (s.passResv addr) := by
  unfold passResv; extract_lets r; clear_value r
  split
  · exact (s.resv_quiet _).runs
  · exact (s.resv_quiet _).runs.trans (grant_runs _ _ _)
theorem passResv_goesOn (s : State) (addr : Nat) : GoesOn s (s.passResv addr) := by
  unfold passResv; extract_lets r; clear_value r
  split
  · exact s.resv_goesOn _
  · exact (s.resv_goesOn _).trans (grant_goesOn _ _ _)

theorem dropResv_runs (s : State) (k x : Nat) : Runs s (s.dropResv k x) :=
  (s.resv_quiet _).runs.trans (.foldl (fun s _ => s.passResv_runs _) _ _)
theorem dropResv_goesOn (s : State) (k x : Nat) : GoesOn s (s.dropResv k x) :=
  (s.resv_goesOn _).trans (.foldl (fun s _ => s.passResv_goesOn _) _ _)

theorem leaveWalks_fabric (s : State) (k x : Nat) : FabricOnly s (s.leaveWalks k x) := by
  unfold leaveWalks; extract_lets stays t
  split
  · exact .refl s
  · exact s.mapSite_fabric _ _

end State

/-! The end of a task (R47, R61, R209). -/

/-- What the end of task `t` leaves as its context: no task, no registers, no streams, tiles, slots, frame, transaction or queue
entries, and of the operations pending none that writes a register. -/
structure Ctx.Left (t c : Ctx) : Prop extends Ctx.Bare c where
  occupied : c.occupied = false
  streams : c.streams = []
  tiles : c.tiles = []
  frame : c.frame = none
  txn : c.txn = none
  entry : c.entry = none
  taken : c.taken = []
  gen : c.gen = t.gen
  idle : t.pend = [] → c.pend = []

/-- What goes on in a context that is left leaves it so. -/
theorem Ctx.Left.runs {t c c' : Ctx} (h : t.Left c) (r : c.RunsBare c') : c'.Bare ∧ c'.occupied = false ∧ c'.streams = []
    ∧ c'.tiles = [] ∧ c'.frame = none ∧ c'.txn = none ∧ c'.entry = none ∧ c'.taken = [] ∧ c'.gen = t.gen := by
  have keep {β : Type} (π : Ctx → β) : π c'.still = π c.still := congrArg π r.still
  exact ⟨r.bare h.toBare, (keep Ctx.occupied).trans h.occupied, (keep Ctx.streams).trans h.streams, (keep Ctx.tiles).trans h.tiles,
    (keep Ctx.frame).trans h.frame, r.txn h.txn, (keep Ctx.entry).trans h.entry, (keep Ctx.taken).trans h.taken,
    (keep Ctx.gen).trans h.gen⟩

namespace State

/-- The end of a task: what it passes on before and after, and between them the context as the task leaves it. -/
theorem endCtx_left (s : State) (k x : Nat) : ∃ u c, Runs s u ∧ GoesOn s u ∧ (s.ctxAt k x).Left c
    ∧ Runs (u.setCtxAt k x c) (s.endCtx k x) ∧ (c.pend = [] → GoesOn (u.setCtxAt k x c) (s.endCtx k x)) := by
  unfold endCtx; extract_lets t queued gone owing s₁ s₂ s₃ leave s₄ s₅
  have r₁ : Runs s s₁ :=
    ((s.dropResv_runs _ _).trans (leaveWalks_quiet _ _ _).runs).trans (.foldl (fun s _ => (s.ack_quiet _).runs) _ _)
  have g₁ : GoesOn s s₁ :=
    ((s.dropResv_goesOn _ _).trans (leaveWalks_fabric _ _ _).goesOn).trans (.foldl (fun s _ => (s.ack_fabric _).goesOn) _ _)
  have r₄ : Quiet s₃ s₄ :=
    mapSites_quiet (f := fun _ st => { st with faults := Sparse.mapVals leave st.faults }) fun _ _ => rfl
  have g₄ : GoesOn s₃ s₄ := FabricOnly.goesOn ⟨_, _, rfl⟩
  have r₅ : Runs s₃ s₅ := r₄.runs.trans ((s₄.kick_runs k x).trans (push_quiet _ _).runs)
  obtain ⟨c, h₃, hc⟩ : ∃ c, s₃ = s₂.setCtxAt k x c ∧ (s.ctxAt k x).Left c := by
    refine ⟨_, rfl, ⟨rfl, rfl, rfl, rfl, fun p hp => ?_⟩, rfl, rfl, rfl, rfl, rfl, rfl, rfl, rfl, fun h => ?_⟩
    · obtain ⟨q, -, rfl⟩ := List.mem_map.1 hp; exact ⟨rfl, rfl⟩
    · simp only [show t.pend = [] from h, List.filter_nil, List.map_nil]
  have r₂ : Runs s s₂ := r₁.trans (mapCore_quiet rfl).runs
  have g₂ : GoesOn s s₂ := g₁.trans (mapCore_goesOn rfl)
  have g₅ (h : c.pend = []) : GoesOn s₃ s₅ := by
    have hn : NoLocalStore s₃ k x := fun q hq => by rw [h₃, ctxAt_setCtxAt, h] at hq; cases hq
    exact g₄.trans ((kick_goesOn (hn.goesOn g₄)).trans (push_fabric _ _).goesOn)
  clear_value s₅ s₄ s₃ s₂
  refine ⟨s₂, c, r₂, g₂, hc, ?_, fun h => ?_⟩
  · rw [← h₃]; split
    · exact r₅.trans ((push_quiet _ _).trans (quietOn_quiet _ _)).runs
    · exact r₅
  · rw [← h₃]; split
    · exact (g₅ h).trans ((push_fabric _ _).trans (quietOn_fabric _ _)).goesOn
    · exact g₅ h

/-- A task that ends leaves its context without one, and starts none elsewhere. -/
theorem endCtx_ends (s : State) (k x : Nat) : Ends s (s.endCtx k x) ∧ ((s.endCtx k x).ctxAt k x).occupied = false := by
  obtain ⟨u, c, hu, -, hc, ht, -⟩ := s.endCtx_left k x
  have hset : Ends u (u.setCtxAt k x c) := mapCtx_stays (f := fun _ => c) Ctx.Ends.refl
    ⟨hc.gen.trans (hu.ends.ctxAt k x).gen.symm, fun h => absurd h (by rw [hc.occupied]; decide)⟩
  refine ⟨(hu.ends.trans hset).trans ht.ends, ?_⟩
  have r := ht.ctxAt k x
  rw [ctxAt_setCtxAt] at r
  exact (hc.runs r).2.1

end State
end Sys2Proof.Machine
end

section
/-!
SUPPORT. Release points, aborts, and the end of the issuing task (R37, R39, R147, R209).
-/
namespace Sys2Proof.Machine

namespace State

/-- What a release point makes of its context (R37, R39). -/
def releasedCtx (t : Ctx) : Ctx :=
  { t with send := commitAll t.opNo t.send, opNo := t.opNo + heldCount t, entry := none, taken := [], released := true }

theorem commitAll_eff (n : Nat) (es : List SendEntry) : (commitAll n es).map (·.eff) = es.map (·.eff) := by
  induction es generalizing n with
  | nil => rfl
  | cons e es ih => unfold commitAll; split <;> rw [List.map_cons, List.map_cons, ih]
theorem commitAll_committed (n : Nat) (es : List SendEntry) : (commitAll n es).all (·.committed) = true := by
  induction es generalizing n with
  | nil => rfl
  | cons e es ih =>
    unfold commitAll; split
    next he => rw [List.all_cons, he, ih]; rfl
    next => rw [List.all_cons, ih]; rfl

/-- A release point changes its context, and beside it the NIs' lists and the agenda. -/
theorem release_lists (s : State) (k x : Nat) : ListsOnly (s.mapCtx k x releasedCtx) (s.release k x)
    ∧ Quiet (s.mapCtx k x releasedCtx) (s.release k x) := by
  unfold release; extract_lets t gone s₁ s₂
  have h₁ : s₁ = s.mapCtx k x releasedCtx := rfl
  have h : ListsOnly s₁ s₂ ∧ Quiet s₁ s₂ :=
    ⟨.foldl (fun s e => (s.workDown_lists _).trans (entryFreed_lists _ _)) _ _, release_quiet_entries _ _ _⟩
  rw [← h₁]; clear_value s₁ s₂
  split
  · exact h
  · exact ⟨h.1.trans (pushOnce_fabric _ _).lists, h.2.trans (pushOnce_quiet _ _)⟩

theorem release_ctxAt (s : State) (k x : Nat) : (s.release k x).ctxAt k x = releasedCtx (s.ctxAt k x) := by
  rw [← (s.release_lists k x).2.ctxAt, ctxAt_mapCtx]
theorem release_sameStorage (s : State) (k x : Nat) : SameStorage s (s.release k x) := (s.release_lists k x).1.sameStorage
theorem release_task (s : State) : (s.release s.cur s.ctx).task = releasedCtx s.task := by
  obtain ⟨hcur, hctx⟩ := s.release_turn s.cur s.ctx
  rw [task, hcur, hctx, release_ctxAt]; rfl

/-! Aborts (R147, R148). -/

/-- The context that an abort of `tx` leaves: the snapshot without taint, the abort word in the register of the outermost XBEGIN,
and the task after it. -/
structure Aborted (tx : Txn) (word : Word) (c : Ctx) : Prop where
  txn : c.txn = none
  ticket : c.ticket = some tx.ticket
  pc : c.pc = tx.resume
  streams : c.streams = tx.snapS
  slots : c.slots = 0
  frame : c.frame = none
  snapshot : ∀ n : Nat, n ≠ 0 → n ≠ tx.dest → c.gr n = { Sparse.get {} tx.snapG n with taint := 0 }
  word : tx.dest ≠ 0 → c.gr tx.dest = { val := word }

theorem abortTxn_none {s : State} {k x : Nat} (h : (s.ctxAt k x).txn = none) (code arg : Nat) (held : Bool) :
    s.abortTxn k x code arg held = s := by
  unfold abortTxn; rw [h]

theorem clearTiles_quiet (s : State) (k x : Nat) : Quiet s (s.clearTiles k x) := mapCore_quiet rfl
theorem dropSpec_quiet (s : State) (k : Nat) (tx : Txn) : Quiet s (s.dropSpec k tx) := by
  unfold dropSpec; extract_lets gone
  split
  · exact .refl s
  · exact mapCore_quiet rfl
theorem dropSpec_rest (s : State) (k : Nat) (tx : Txn) : ∃ cores, s.dropSpec k tx = { s with cores } := by
  unfold dropSpec; extract_lets gone
  split
  · exact ⟨_, rfl⟩
  · exact ⟨_, rfl⟩

/-- A context with the snapshot in it, that then gets the abort word. -/
theorem aborted_putG {tx : Txn} {t : Ctx} (word : Word) (hg : t.g = Sparse.mapVals (fun r => { r with taint := 0 }) tx.snapG)
    (ht : (t.txn, t.ticket, t.pc, t.streams, t.slots, t.frame) = (none, some tx.ticket, tx.resume, tx.snapS, 0, none)) :
    Aborted tx word ((t.clearTaint 0xFF).putG tx.dest { val := word }) := by
  obtain ⟨htxn, hticket, hpc, hstreams, hslots, hframe⟩ : _ ∧ _ ∧ _ ∧ _ ∧ _ ∧ _ := by simpa only [Prod.mk.injEq] using ht
  have keep {β : Type} (π : Ctx → β) (hπ : ∀ c g, π { c with g } = π c) :
      π ((t.clearTaint 0xFF).putG tx.dest { val := word }) = π (t.clearTaint 0xFF) := by
    unfold Ctx.putG; split
    · rfl
    · exact hπ _ _
  refine ⟨(keep _ fun _ _ => rfl).trans htxn, (keep _ fun _ _ => rfl).trans hticket, (keep _ fun _ _ => rfl).trans hpc,
    (keep _ fun _ _ => rfl).trans hstreams, (keep _ fun _ _ => rfl).trans hslots, (keep _ fun _ _ => rfl).trans hframe,
    fun n hn hd => ?_, fun hd => Ctx.gr_putG_same _ hd _⟩
  rw [Ctx.gr_putG_other _ hd, Ctx.gr_clearTaint, Ctx.gr, if_neg hn, hg, Sparse.get_mapVals _ _ _ _ rfl]
  simp only [Reg.without]; rfl

/-- An abort: the homes of the transaction and its core forget it, and its context is as an abort leaves it. -/
theorem abortTxn_some {s : State} {k x : Nat} {tx : Txn} (h : (s.ctxAt k x).txn = some tx) (code arg : Nat) (held : Bool) :
    ∃ u c, Quiet s u ∧ SameStorage s u ∧ u.tileDirs = (s.dropTxn k x).tileDirs
      ∧ Aborted tx (abortWord held tx.depth arg code) c ∧ s.abortTxn k x code arg held = u.setCtxAt k x c := by
  have hu : Quiet s ((((s.dropTxn k x).clearTiles k x).dropSpec k tx).leaveWalks k x)
      ∧ SameStorage s ((((s.dropTxn k x).clearTiles k x).dropSpec k tx).leaveWalks k x)
      ∧ ((((s.dropTxn k x).clearTiles k x).dropSpec k tx).leaveWalks k x).tileDirs = (s.dropTxn k x).tileDirs := by
    refine ⟨(((s.tileDirs_quiet _).trans (clearTiles_quiet _ _ _)).trans (dropSpec_quiet _ _ _)).trans (leaveWalks_quiet _ _ _), ?_⟩
    obtain ⟨_, _, hl⟩ := leaveWalks_fabric (((s.dropTxn k x).clearTiles k x).dropSpec k tx) k x
    obtain ⟨_, hd⟩ := dropSpec_rest ((s.dropTxn k x).clearTiles k x) k tx
    rw [hl, hd]; exact ⟨⟨fun _ => rfl, rfl, rfl⟩, rfl⟩
  unfold abortTxn; rw [h]; dsimp only
  exact ⟨_, _, hu.1, hu.2.1, hu.2.2, aborted_putG _ rfl rfl, rfl⟩

theorem abortTxn_turn (s : State) (k x code arg : Nat) (held : Bool) :
    (s.abortTxn k x code arg held).cur = s.cur ∧ (s.abortTxn k x code arg held).ctx = s.ctx := by
  cases h : (s.ctxAt k x).txn with
  | none => rw [abortTxn_none h]; exact ⟨rfl, rfl⟩
  | some tx =>
    obtain ⟨u, c, hu, -, -, -, e⟩ := abortTxn_some h code arg held
    rw [e]; exact ⟨hu.cur, hu.ctx⟩

/-! The end of the issuing task (R209). -/

/-- The end of the issuing task: what is left of its context, and the turn. -/
theorem endCtx_task (s : State) : ∃ c, (s.task).Left c ∧ c.RunsBare (s.endCtx s.cur s.ctx).task
    ∧ (s.endCtx s.cur s.ctx).cur = s.cur ∧ (s.endCtx s.cur s.ctx).ctx = s.ctx
    ∧ (c.pend = [] → SameStorage s (s.endCtx s.cur s.ctx)) := by
  obtain ⟨u, c, hu, gu, hc, ht, gt⟩ := s.endCtx_left s.cur s.ctx
  have hcur : (s.endCtx s.cur s.ctx).cur = s.cur := ht.cur.trans hu.cur
  have hctx : (s.endCtx s.cur s.ctx).ctx = s.ctx := ht.ctx.trans hu.ctx
  refine ⟨c, hc, ?_, hcur, hctx, fun h => gu.storage.trans (gt h).storage⟩
  have h := ht.ctxAt s.cur s.ctx
  rw [ctxAt_setCtxAt] at h
  rw [task, hcur, hctx]; exact h

end State
end Sys2Proof.Machine
end

section
/-!
CERTIFICATE. The end of a task and release points (R37, R39, R47, R61, R150, R209, R210, R295).
-/
namespace Sys2Proof.Machine
/-- Settles O10: a release point changes its context and the NIs' lists, and what goes on after the end of a task leaves its context
as the end leaves it. -/
theorem tasksEnd : Obligations.TasksEnd := by
  unfold Obligations.TasksEnd
  refine ⟨fun s => ⟨fun h => ⟨?_, ?_⟩, fun h => ⟨?_, ?_⟩⟩, fun s => ?_, fun s => ?_⟩
  · simp only [exec_endTask, execEndTask, h, Option.isSome_none, Bool.false_eq_true, if_false]
    rw [State.abortTxn_none h]
  · simp only [exec_release, execRelease, noTxn, h, Option.isSome_none, Bool.false_eq_true, if_false]; rfl
  · simp only [exec_release, execRelease, noTxn, h, if_true]; rfl
  · intro u
    obtain ⟨hcur, hctx⟩ := (s.mapCore s.cur fun c => { c with discarded := c.discarded + 1 }).abortTxn_turn s.cur s.ctx
      5 0 false
    rw [exec_endTask, execEndTask, if_pos h]
    exact congrArg₂ (fun k x => Host.Outcome.next ((u.release k x).endCtx k x)) hcur hctx
  · intro t
    have ht : t.task = State.releasedCtx s.task := s.release_task
    obtain ⟨hcur, hctx⟩ := s.release_turn s.cur s.ctx
    rw [ht]
    exact ⟨State.commitAll_eff _ _, State.commitAll_committed _ _, rfl, rfl, rfl, rfl, rfl, rfl, rfl, rfl,
      s.release_sameStorage _ _, hcur, hctx⟩
  · intro t
    obtain ⟨c, hc, hr, hcur, hctx, hs⟩ := s.endCtx_task
    obtain ⟨hbare, hocc, hstr, htiles, hframe, htxn, hentry, htaken, hgen⟩ := hc.runs hr
    exact ⟨hocc, hbare.g, hbare.v, hbare.m, hstr, htiles, hbare.slots, hframe, htxn, hentry, htaken, hgen, hcur, hctx,
      fun h => hs (hc.idle h)⟩

end Sys2Proof.Machine
end

section
/-!
SUPPORT. A load, in a transaction, of a tile that the transaction has recorded for writing but not for reading (R151, R154).
-/
namespace Sys2Proof.Machine

/-- A page of device memory of 2 MiB from physical address 2 MiB, as the TLB holds it: a leaf that is valid, writable and dirty. -/
def devicePage : TlbEntry := ⟨0, 2 ^ 30, 2 ^ 21, BitVec.ofNat 64 (0x193 + 2 * 2 ^ 9 + 2 ^ 21), []⟩

/-- A transaction that has recorded the page's first tile for writing only. -/
def writeOnly : Txn := { depth := 1, ticket := 0, dest := 0, resume := 0, snapG := [], snapS := [], writes := [0x2000] }

/-- The machine after reset, but that core 0's TLB holds `devicePage` and its context 0 has `writeOnly` open. Register g1 points to
the page's first byte, and may load from all of the address space. -/
def writtenTile : State :=
  (State.reset.mapCore 0 fun c => { c with dtlb := [devicePage] }).mapTask fun t =>
    { t with
      g := [(1, { val := BitVec.ofNat 64 (2 ^ 30), tag := true, desc := mkDesc (permSet [pLD]) 0 47 0 0 })]
      txn := some writeOnly }

/-- The tiles that the transaction of the issuing context has read, in the state after an instruction. -/
def readTiles : Host.Outcome State Fault Refusal → Option (List Nat)
  | .next s => s.task.txn.map (·.reads)
  | _ => none

/-- The load adds the tile to the transaction's read set (R151). -/
theorem readTiles_writtenTile : readTiles (exec (.ldD 2 1 0) writtenTile) = some [0x2000] := by decide

theorem granted_writtenTile : Granted writtenTile (writtenTile.g 1)
    ((writtenTile.g 1).val + BitVec.ofInt 64 (8 * (0 : BitVec 10).toInt)) 8 [pLD] 8 .read (2 ^ 21) (.home 0 0) :=
  ⟨by decide, by decide, fun _ h => nomatch h⟩

theorem recorded_writtenTile : Recorded writtenTile writeOnly
    ((writtenTile.g 1).val + BitVec.ofInt 64 (8 * (0 : BitVec 10).toInt)) (.home 0 0) false :=
  ⟨by rfl, 0, 0, 0, 0, 2 ^ 21, rfl, by decide, by decide, by decide, .inl (by decide)⟩

theorem clear_writtenTile : Clear writtenTile (addrRange (2 ^ 21) 8) := ⟨by decide, fun _ h => nomatch h⟩

theorem bindsNow_writtenTile : BindsNow writtenTile (addrRange (2 ^ 21) 8) :=
  ⟨by decide, fun _ h => nomatch h⟩

/-- The state in which the statement has the load bind: with the host's answer, and the line in L1. -/
def writtenTileLoaded : State :=
  let as := addrRange (2 ^ 21) 8
  let u := writtenTile.hostUse 0 as false
  (u.loadLines writtenTile.cur false as).bindNow (gDest 2) (.int 8 false) 0
    (as.map fun x => (Sparse.find writeOnly.spec x).getD (Mem.read writtenTile.mem x)) (u.specTag (2 ^ 21 / 16))

/-- In that state the transaction has read no tile. -/
theorem readTiles_writtenTileLoaded : readTiles (retired writtenTileLoaded) = some [] := by decide

end Sys2Proof.Machine
end

section
/-!
CERTIFICATE. Tracked accesses of a transaction (R151, R154).
-/
namespace Sys2Proof.Machine

/-- Refutes O15: the statement counts a load's tile as recorded where the transaction has written it, and leaves the transaction's
sets as they are; but a load of a tile that is only written adds it to the read set (R151). In `writtenTile` the write set is one
tile and the read set is empty: after LD.D from the tile the read set holds it, and in the statement's state it is still empty. -/
theorem not_transactionalAccesses : ¬ Obligations.TransactionalAccesses := by
  intro h
  obtain ⟨hload, -⟩ := h.1 writtenTile 2 1 0 (2 ^ 21) 0 0 writeOnly (by decide) (by decide)
  have hbound := hload granted_writtenTile recorded_writtenTile clear_writtenTile (by decide) bindsNow_writtenTile
  have hread := readTiles_writtenTile
  rw [hbound] at hread
  exact absurd (readTiles_writtenTileLoaded.symm.trans hread) (by decide)

end Sys2Proof.Machine
end

section
/-!
SUPPORT. The instructions of a transaction, an equation per case, and the abort word (R146 to R149, R157, R161, R230).
-/
namespace Sys2Proof.Machine

section
variable {s : State} {d : BitVec 6} {k : BitVec 8} {tx : Txn}

/-! XBEGIN (R146, R155). -/

section
variable (hslots : s.task.slots = 0) (hsack : s.task.sack = 0) (hacq : ∀ q ∈ s.task.pend, q.acq = none)
include hslots hsack hacq

theorem xbegin_goes : (s.task.slots != 0 || s.task.sack != 0 || s.task.pend.any (·.acq.isSome)) = false := by
  simp only [hslots, hsack, bne_self_eq_false, Bool.or_self, Bool.false_or, List.any_eq_false]
  intro q hq; rw [hacq q hq]; decide

theorem xbegin_opens (htxn : s.task.txn = none) :
    let st := siteOf s.cur
    let n := s.task.ticket.getD ((s.site st).ticket * 32 + st % 24)
    let u := if s.task.ticket.isSome then s else s.mapSite st fun x => { x with ticket := (x.ticket + 1) % 2 ^ 48 }
    let tx : Txn := { depth := 1, ticket := n, dest := d.toNat, resume := s.task.pc + 4, snapG := s.task.g, snapS := s.task.streams
                      heldBase := State.heldCount s.task }
    exec (.xbegin d) s = wrote (u.mapTask fun t => { t with txn := some tx, ticket := some n }) d 0 0 := by
  rw [exec_xbegin, execXbegin]
  simp only [xbegin_goes hslots hsack hacq, htxn]
  cases s.task.ticket <;> rfl

theorem xbegin_deepens (htxn : s.task.txn = some tx) :
    exec (.xbegin d) s = if tx.depth = 7 then .next (s.abortTxn s.cur s.ctx 8 0 false)
      else wrote (s.mapTask fun t => { t with txn := some { tx with depth := tx.depth + 1 } }) d 0 0 := by
  rw [exec_xbegin, execXbegin]
  simp only [xbegin_goes hslots hsack hacq, htxn]
  rfl
end

theorem xbegin_stalls (h : s.task.slots ≠ 0 ∨ s.task.sack ≠ 0 ∨ ∃ q ∈ s.task.pend, q.acq ≠ none) :
    exec (.xbegin d) s = stalled s := by
  have hbusy : (s.task.slots != 0 || s.task.sack != 0 || s.task.pend.any (·.acq.isSome)) = true := by
    simpa only [Bool.or_eq_true, bne_iff_ne, List.any_eq_true, Option.isSome_iff_ne_none, or_assoc] using h
  rw [exec_xbegin, execXbegin]
  simp only [hbusy, if_true]; rfl

/-! XEND and XABORT (R146, R149). -/

theorem xend_inner (htxn : s.task.txn = some tx) (hd : tx.depth ≠ 1) :
    exec .xend s = retired (s.mapTask fun t => { t with txn := some { tx with depth := tx.depth - 1 } }) := by
  rw [exec_xend, execXend]; simp only [htxn, if_pos hd]; rfl

theorem xend_outside (htxn : s.task.txn = none) : exec .xend s = trapped s cILLEGAL 0 := by
  rw [exec_xend, execXend]; simp only [htxn]; rfl

theorem xabort_outside (htxn : s.task.txn = none) : exec (.xabort k) s = retired s := by
  rw [exec_xabort, execXabort]; simp only [htxn]; rfl

theorem xabort_inside (htxn : s.task.txn.isSome = true) : exec (.xabort k) s = .next (s.abortTxn s.cur s.ctx 3 k.toNat false) := by
  rw [exec_xabort, execXabort, if_pos htxn]; rfl

end

/-! The outermost XEND (R161). -/

/-- Messages to several homes leave from the NI of the core whose turn it was. -/
theorem foldl_route_cur {s : State} {k x : Nat} (h : s.cur = k) (hx : s.ctx = x) (dst : Nat → Nat) (flits cls : Nat)
    (e : Nat → Nat → Nat → Event) (l : List Nat) :
    l.foldl (fun s h => s.route (agentNi s.cur) (dst h) flits cls (e s.cur s.ctx h)) s
      = l.foldl (fun s h => s.route (agentNi k) (dst h) flits cls (e k x h)) s := by
  induction l generalizing s with
  | nil => rw [List.foldl_nil, List.foldl_nil]
  | cons a l ih =>
    have hr := s.route_quiet (agentNi k) (dst a) flits cls (e k x a)
    rw [List.foldl_cons, List.foldl_cons, h, hx, ih (hr.cur.trans h) (hr.ctx.trans hx)]

theorem xend_outermost {s : State} {tx : Txn} (htxn : s.task.txn = some tx) (hd : tx.depth = 1) :
    let f := s.combineFlush s.cur s.ctx s.task.opNo
    f.task.pend.all (fun p => !unboundOp p) = true → f.task.sack = 0 → State.nextOut f.task = none →
    let homes := ((tx.reads ++ tx.writes).map fun t => paSite (t * 256) * 64 + paSlice (t * 256)).foldl insertNat []
    let w := f.mapTask fun t => { t with wait := some .xend, txn := some { tx with locking := some homes } }
    exec .xend s = stalled (if homes = [] then w.push (.txInstall s.cur s.ctx)
      else homes.foldl (fun u h => u.route (agentNi s.cur) (agentDir (h / 64) (h % 64)) 1 0 (.txLock s.cur s.ctx h)) w) := by
  intro f hbound hsack hout homes w
  have hf := s.combineFlush_quiet s.cur s.ctx s.task.opNo
  have hcur : w.cur = s.cur := hf.cur
  have hctx : w.ctx = s.ctx := hf.ctx
  have hgo : (f.task.pend.any unboundOp || !drained f.task) = false := by
    have hany : f.task.pend.any unboundOp = false := by
      rw [List.any_eq_false]; intro p hp; simpa using List.all_eq_true.1 hbound p hp
    simp [hany, drained, hsack, hout]
  rw [exec_xend, execXend]
  simp only [htxn]
  rw [if_neg (not_not_intro hd), if_neg (by rw [hgo]; decide)]
  change stall (if homes.isEmpty then w.push (.txInstall w.cur w.ctx) else homes.foldl
    (fun s h => s.route (agentNi s.cur) (agentDir (h / 64) (h % 64)) 1 0 (.txLock s.cur s.ctx h)) w) = _
  rw [foldl_route_cur hcur hctx _ 1 0 .txLock, hcur, hctx]
  simp only [List.isEmpty_iff]; rfl

/-! Aborts (R147, R148, R157). -/

/-- The fields of the abort word. -/
theorem abortWord_fields (held : Bool) {depth arg code : Nat} (hd : depth < 8) (ha : arg < 256) (hc : code < 256) :
    let w := (State.abortWord held depth arg code).toNat
    w % 256 = code ∧ w / 2 ^ 8 % 256 = arg ∧ w / 2 ^ 16 % 8 = depth
      ∧ (w / 2 ^ 19 % 2 = 1 ↔ code = 1 ∨ code = 6 ∨ code = 9 ∨ code = 10) ∧ (w / 2 ^ 20 = 1 ↔ held = true) ∧ w / 2 ^ 21 = 0 := by
  simp only [State.abortWord, BitVec.toNat_ofNat]
  by_cases hcode : code = 1 ∨ code = 6 ∨ code = 9 ∨ code = 10
  · cases held <;> simp only [hcode, if_true, Bool.false_eq_true, if_false, iff_true, iff_false] <;> omega
  · cases held <;> simp only [hcode, if_true, Bool.false_eq_true, if_false, iff_true, iff_false] <;> omega

theorem not_mem_tileHolders_tileDrop (d : TileDir) (h : Nat × Nat) : h ∉ State.tileHolders (State.tileDrop d h) := by
  simp only [State.tileHolders, State.tileDrop, List.mem_append, List.mem_filter, bne_self_eq_false, Bool.false_eq_true, and_false,
    false_or, Option.mem_toList]
  split
  · exact nofun
  next hne => exact hne

theorem not_mem_tileHolders_dropTxn (s : State) (k x tile : Nat) :
    (k, x) ∉ State.tileHolders (Sparse.get {} (s.dropTxn k x).tileDirs tile) := by
  have h : State.tileDrop {} (k, x) = ({} : TileDir) := by simp [State.tileDrop]
  have e : Sparse.get {} (s.dropTxn k x).tileDirs tile = State.tileDrop (Sparse.get {} s.tileDirs tile) (k, x) :=
    Sparse.get_mapVals (fun d => State.tileDrop d (k, x)) {} s.tileDirs tile h
  rw [e]; exact not_mem_tileHolders_tileDrop _ _

end Sys2Proof.Machine
end

section
/-!
CERTIFICATE. The instructions of a transaction, and what an abort restores (R130, R146 to R150, R155, R161, R230).
-/
namespace Sys2Proof.Machine

/-- Settles O22: the instructions by their cases, and an abort by the context it leaves. -/
theorem transactionInstructions : Obligations.TransactionInstructions := by
  unfold Obligations.TransactionInstructions
  refine ⟨fun s d k => ?_, fun s tx htxn hd => xend_outermost htxn hd, fun s tx code arg held htxn => ?_⟩
  · intro t free
    exact ⟨fun ⟨hslots, hsack, hacq⟩ htxn => xbegin_opens hslots hsack hacq htxn,
      fun tx ⟨hslots, hsack, hacq⟩ htxn => xbegin_deepens hslots hsack hacq htxn,
      fun tx htxn hd => xend_inner htxn hd, fun htxn => ⟨xend_outside htxn, xabort_outside htxn⟩, xabort_inside, rfl, xbegin_stalls⟩
  · intro u
    obtain ⟨v, c, hv, hstore, hdirs, hc, hu⟩ := State.abortTxn_some (s := s) (k := s.cur) (x := s.ctx) htxn code arg held
    have ht : u.task = c := by
      obtain ⟨hcur, hctx⟩ := s.abortTxn_turn s.cur s.ctx code arg held
      rw [State.task, hcur, hctx, show u = v.setCtxAt s.cur s.ctx c from hu, State.ctxAt_setCtxAt]
    have hut : u.tileDirs = (s.dropTxn s.cur s.ctx).tileDirs := by
      rw [show u = v.setCtxAt s.cur s.ctx c from hu]; exact hdirs
    rw [ht, hut]
    refine ⟨hc.txn, hc.ticket, hc.pc, hc.streams, hc.slots, hc.frame, hc.snapshot, fun hd => ?_, ?_,
      not_mem_tileHolders_dropTxn s _ _⟩
    · rw [hc.word hd]
      exact ⟨rfl, rfl, abortWord_fields held⟩
    · rw [show u = v.setCtxAt s.cur s.ctx c from hu]; exact hstore

end Sys2Proof.Machine
end

section
/-!
SUPPORT. The homes of transactions: arbitration, locks, the install and its storage, versioned lines, and row reads (R154 to R157,
R161, R163).
-/
namespace Sys2Proof.Machine

namespace Sparse
variable {α : Type}

/-- What a map over the entries of a table makes of an entry that stands in it. -/
theorem get_map_of_isSome (f : Nat → α → α) (d : α) {m : Sparse α} {k : Nat} (h : (find m k).isSome = true) :
    get d (m.map fun p => (p.1, f p.1 p.2)) k = f k (get d m k) := by
  induction m with
  | nil => cases h
  | cons p m ih =>
    by_cases e : p.1 = k
    · simp [get, e]
    · simpa [get, e] using ih (by simpa [find, e] using h)

/-- What stands in a table where several entries have been set to values that do not depend on the table. -/
theorem get_foldl_set (f : Nat → α) (d : α) (l : List Nat) (m : Sparse α) (k : Nat) :
    get d (l.foldl (fun m j => set m j (f j)) m) k = if k ∈ l then f k else get d m k := by
  induction l generalizing m with
  | nil => simp
  | cons j l ih =>
    rw [List.foldl_cons, ih]
    by_cases e : k = j
    · subst e; simp
    · simp [e]

end Sparse

/-- After writes to distinct addresses a byte is the one written there, or as before. -/
theorem Mem.read_writeAll_find (m : Mem) {ws : List (Nat × Byte)} (hn : (ws.map (·.1)).Nodup) (a : Nat) :
    read (writeAll m ws) a = (Sparse.find ws a).getD (read m a) := by
  induction ws generalizing m with
  | nil => rfl
  | cons w ws ih =>
    obtain ⟨b, v⟩ := w
    obtain ⟨hb, hn⟩ := List.nodup_cons.1 hn
    rw [writeAll, Sparse.find]
    split
    next h => subst h; rw [read_writeAll_other _ _ _ hb, read_write_same]; rfl
    next h => rw [ih _ hn, read_write_other _ _ _ _ (Ne.symm h)]

namespace State

/-! Arbitration (R155, R156). -/

section
variable {s : State} {q : Nat × Nat} {tile : Nat}

/-- A tile with a writer: the older of the two stays. -/
theorem arbitrate_writer {write : Bool} {h : Nat × Nat}
    (hw : (Sparse.get {} s.tileDirs tile : TileDir).writer = some h) (hq : h ≠ q) :
    s.arbitrate q tile write = if older (s.ticketOf q) (s.ticketOf h) then (s.abortHolder tile h 1).recordTile q tile write
      else s.abortHolder tile q 1 := by
  unfold arbitrate; simp only [hw, if_neg hq]

/-- A tile to be written, without a writer: its readers go where all are younger. -/
theorem arbitrate_readers (hw : (Sparse.get {} s.tileDirs tile : TileDir).writer = none) :
    s.arbitrate q tile true =
      let others := (Sparse.get {} s.tileDirs tile : TileDir).readers.filter (· != q)
      if others.all fun h => older (s.ticketOf q) (s.ticketOf h) then
        (others.foldl (fun s h => s.abortHolder tile h 1) s).recordTile q tile true
      else s.abortHolder tile q 1 := by
  unfold arbitrate; simp only [hw, if_true]

/-- A tile to be read, without a writer and with room for a reader. -/
theorem arbitrate_read (hw : (Sparse.get {} s.tileDirs tile : TileDir).writer = none)
    (hroom : (Sparse.get {} s.tileDirs tile : TileDir).readers.length < 8) :
    s.arbitrate q tile false = s.recordTile q tile false := by
  have hothers := (List.length_filter_le (· != q) (Sparse.get {} s.tileDirs tile : TileDir).readers).trans_lt hroom
  unfold arbitrate
  simp only [hw, decide_eq_true hothers, Bool.or_true, Bool.false_eq_true, if_false, if_true]
end

/-! The install (R161). -/

theorem writeMem_quiet (s : State) (ws : List (Nat × Byte)) : Quiet s (s.writeMem ws) := by
  obtain ⟨_, _, _, _, hw⟩ := s.writeMem_rest ws
  rw [hw]; exact quiet_aside rfl
theorem setTags_quiet (s : State) (tags : List (Nat × Bool)) : Quiet s (tags.foldl (fun s g => s.setTag g.1 g.2) s) := by
  rw [setTags_eq]; exact quiet_aside rfl

theorem installLines_quiet (s : State) (k : Nat) (lines : List Nat) : Quiet s (s.installLines k lines) := by
  unfold installLines; extract_lets kept s₁
  have h₁ : Quiet s s₁ := .foldl (fun s _ => s.wroteLine_quiet _ _) _ _
  exact h₁.trans (.foldl (fun s _ => (s.clusterInstall_quiet _ _ _ _ _).trans (l1Install_quiet _ _ _ _)) _ _)
theorem installLines_lines (s : State) (k : Nat) (lines : List Nat) : LinesOnly s (s.installLines k lines) := by
  unfold installLines; extract_lets kept s₁
  have h₁ : LinesOnly s s₁ := .foldl (fun s _ => s.wroteLine_lines _ _) _ _
  exact h₁.trans (.foldl (fun s _ => (s.clusterInstall_lines _ _ _ _ _).trans (l1Install_lines _ _ _ _)) _ _)

theorem Quiet.noLocalStore {s t : State} (h : Quiet s t) {k x : Nat} (hn : NoLocalStore s k x) : NoLocalStore t k x := by
  unfold NoLocalStore; rw [← h.ctxAt]; exact hn

theorem kickAll_goesOn {s : State} (hn : ∀ k x, NoLocalStore s k x) : GoesOn s s.kickAll :=
  GoesOn.foldl_of (P := fun s => ∀ k x, NoLocalStore s k x) (fun hn h k x => (hn k x).goesOn h)
    (fun _ _ hn => kick_goesOn (hn _ _)) _ hn

/-- A release point leaves pending what is. -/
theorem release_noLocalStore {s : State} {k x j y : Nat} (hn : NoLocalStore s j y) : NoLocalStore (s.release k x) j y :=
  (s.release_lists k x).2.noLocalStore (hn.goesOn (mapCtx_goesOn (Ctx.pendFrom_of_eq rfl)))

/-- What the install makes of its context (R161). -/
def committedCtx (c : Ctx) : Ctx := { c with txn := none, ticket := none, wait := none, pc := c.pc + 4, retired := c.retired + 1 }

/-- The homes of a transaction at its commit: its speculative bytes and tags are stored, and its tiles are free,
their stamps raised. -/
def committedHomes (s : State) (k x : Nat) (tx : Txn) : State :=
  let s := tx.specTags.foldl (fun s (g, b) => s.setTag g b) (s.writeMem tx.spec)
  { s with tileDirs := s.tileDirs.map fun (t, d) =>
    (t, if tx.writes.contains t then { tileDrop d (k, x) with locked := false, stamp := (d.stamp + 1) % 2 ^ 16 }
      else tileDrop d (k, x)) }

theorem committedHomes_quiet (s : State) (k x : Nat) (tx : Txn) : Quiet s (s.committedHomes k x tx) :=
  ((s.writeMem_quiet _).trans (setTags_quiet _ _)).trans (tileDirs_quiet _ _)

theorem committedHomes_mem (s : State) (k x : Nat) (tx : Txn) : (s.committedHomes k x tx).mem = Mem.writeAll s.mem tx.spec := by
  obtain ⟨_, _, _, _, hw⟩ := s.writeMem_rest tx.spec
  rw [committedHomes, hw, setTags_eq]

end State

/-- The install of a transaction without a reduction log: its homes, its context, the lines it wrote, a release point, and
what waited. -/
theorem txInstall_commits {s : State} {k x : Nat} {tx : Txn} (htxn : (s.ctxAt k x).txn = some tx) (hlock : tx.locking = some [])
    (hlog : tx.log = []) : ∃ lines, exec (.txInstall k x) s = .next
      ((((s.committedHomes k x tx).mapCtx k x State.committedCtx).installLines k lines).release k x).kickAll := by
  refine ⟨((s.committedHomes k x tx).mapCtx k x State.committedCtx).tileLines tx.writes, ?_⟩
  rw [exec_txInstall, execTxInstall]
  simp only [htxn, hlock, hlog, ne_eq, not_true_eq_false, if_false, List.foldl_nil]
  rfl

theorem txInstall_completes {s : State} {k x : Nat} {tx : Txn} (htxn : (s.ctxAt k x).txn = some tx) (hlock : tx.locking = some [])
    (hlog : tx.log = []) (hspec : (tx.spec.map (·.1)).Nodup) (hn : ∀ j y, State.NoLocalStore s j y) :
    Completes (exec (.txInstall k x) s) fun u =>
      (∀ a, Mem.read u.mem a = (Sparse.find tx.spec a).getD (Mem.read s.mem a)) ∧ (u.ctxAt k x).txn = none
        ∧ (u.ctxAt k x).pc = (s.ctxAt k x).pc + 4 ∧ (u.ctxAt k x).retired = (s.ctxAt k x).retired + 1
        ∧ (u.ctxAt k x).ticket = none ∧ (u.ctxAt k x).released = true := by
  obtain ⟨lines, hexec⟩ := txInstall_commits htxn hlock hlog
  refine ⟨_, hexec, ?_⟩
  have hhomes := s.committedHomes_quiet k x tx
  have hmem := s.committedHomes_mem k x tx
  generalize s.committedHomes k x tx = v at hhomes hmem ⊢
  have hcommit : State.GoesOn v (v.mapCtx k x State.committedCtx) := State.mapCtx_goesOn (Ctx.pendFrom_of_eq rfl)
  have hctx : (v.mapCtx k x State.committedCtx).ctxAt k x = State.committedCtx (s.ctxAt k x) := by
    rw [State.ctxAt_mapCtx, ← hhomes.ctxAt]
  generalize v.mapCtx k x State.committedCtx = w at hcommit hctx ⊢
  have hlines := w.installLines_quiet k lines
  have hgo := hcommit.trans (w.installLines_lines k lines).goesOn
  generalize w.installLines k lines = y at hlines hgo ⊢
  have hstore := hgo.storage.trans (y.release_sameStorage k x)
  have hreleased : (y.release k x).ctxAt k x = State.releasedCtx (State.committedCtx (s.ctxAt k x)) := by
    rw [y.release_ctxAt, ← hlines.ctxAt, hctx]
  have hno : ∀ j z, State.NoLocalStore (y.release k x) j z := fun j z =>
    State.release_noLocalStore ((hhomes.noLocalStore (hn j z)).goesOn hgo)
  generalize y.release k x = z at hstore hreleased hno ⊢
  have hkick := z.kickAll_runs.ctxAt k x
  rw [hreleased] at hkick
  have keep {β : Type} (π : Ctx → β) :
      π (z.kickAll.ctxAt k x).still = π (State.releasedCtx (State.committedCtx (s.ctxAt k x))).still :=
    congrArg π hkick.still
  refine ⟨fun a => ?_, hkick.txn rfl, keep Ctx.pc, keep Ctx.retired, keep Ctx.ticket, keep Ctx.released⟩
  rw [(hstore.trans (State.kickAll_goesOn hno).storage).1, hmem, Mem.read_writeAll_find _ hspec]

/-! Locks (R161, R163). -/

/-- What a home makes of its tile `t` at the lock request of a transaction: its read is dropped, and a tile it has
written is locked. -/
def lockTile (h : Nat × Nat) (home : Nat) (writes : List Nat) (t : Nat) (d : TileDir) : TileDir :=
  if tileHome t == home then { d with
    readers := d.readers.filter (· != h), locked := d.locked || (writes.filter fun t => tileHome t == home).contains t }
  else d

theorem txLock_completes {s : State} {k x home : Nat} {tx : Txn} {homes : List Nat} (htxn : (s.ctxAt k x).txn = some tx)
    (hrem : tx.removed = none) (hlock : tx.locking = some homes) (hmem : home ∈ homes)
    (hfree : ∀ t ∈ tx.writes, tileHome t = home → (s.dirOf t).readHolds = []) :
    let rest := homes.filter (· != home)
    Completes (exec (.txLock k x home) s) fun u =>
      (u.ctxAt k x).txn = some { tx with locking := some rest } ∧ (rest = [] → Event.txInstall k x ∈ u.agenda)
        ∧ ∀ t ∈ tx.writes, tileHome t = home → (Sparse.find s.tileDirs t).isSome = true →
            (Sparse.get {} u.tileDirs t : TileDir).locked = true := by
  intro rest
  have hnone : ((tx.writes.filter fun t => tileHome t == home).any fun t =>
      !(Sparse.get {} s.tileDirs t : TileDir).readHolds.isEmpty) = false := by
    rw [List.any_eq_false]; intro t ht
    obtain ⟨ht, he⟩ := List.mem_filter.1 ht
    rw [show (Sparse.get {} s.tileDirs t : TileDir).readHolds = [] from hfree t ht (beq_iff_eq.1 he)]; decide
  rw [exec_txLock, execTxLock]
  simp only [htxn, hrem, hlock, List.contains_iff_mem.2 hmem, Bool.not_true, Bool.false_eq_true, if_false]
  rw [if_neg (by rw [hnone]; decide)]
  refine ⟨_, rfl, ?_⟩
  have hdirs (u : State) (e : u.tileDirs = s.tileDirs.map fun p => (p.1, lockTile (k, x) home tx.writes p.1 p.2)) :
      ∀ t ∈ tx.writes, tileHome t = home → (Sparse.find s.tileDirs t).isSome = true →
        (Sparse.get {} u.tileDirs t : TileDir).locked = true := fun t ht he hs => by
    rw [e, Sparse.get_map_of_isSome (lockTile (k, x) home tx.writes) _ hs]
    simp [lockTile, he, ht]
  split
  next =>
    refine ⟨?_, fun _ => List.mem_append_right _ (List.mem_singleton_self _), hdirs _ rfl⟩
    rw [← (State.push_quiet _ _).ctxAt, State.ctxAt_mapCtx]
  next hne =>
    refine ⟨?_, fun h => absurd (List.isEmpty_iff.2 h) hne, hdirs _ rfl⟩
    rw [State.ctxAt_mapCtx]

/-! Arbitration as it happens at the home (R156). -/

theorem txArbitration_decides {s : State} {k x tile : Nat} {write : Bool} {tx : Txn} (htxn : (s.ctxAt k x).txn = some tx) :
    let d : TileDir := Sparse.get {} s.tileDirs tile
    let at_ := if paSite (tile * 256) = siteOf k then s else s.advanceTicket (paSite (tile * 256)) (tx.ticket / 32)
    let halves := d.blocks.flatMap fun b => [b * 256, b * 256 + 64, b * 256 + 128, b * 256 + 192]
    let other := match d.writer with
      | some h => [h]
      | none => if write then d.readers.filter (· != (k, x)) else []
    tx.removed = none → d.locked = false → s.tileReserved d = false → (write = true ∨ d.readers.length < 8) →
      at_.hostAsk (paSite (tile * 256)) halves write (some (.txArbitration k x tile write)) = none →
      (∀ h ∈ other, h ≠ (k, x)) →
      exec (.txArbitration k x tile write) s = .next
        (if other.all fun h => older tx.ticket (s.ticketOf h) then
          (other.foldl (fun s h => s.abortHolder tile h 1) at_).recordTile (k, x) tile write
        else at_.abortHolder tile (k, x) 1) := by
  intro d at_ halves other hrem hlock hresv hroom hhost hother
  have hdirs : at_.tileDirs = s.tileDirs := by unfold at_; split <;> rfl
  have hticket (h : Nat × Nat) : at_.ticketOf h = s.ticketOf h := by unfold at_; split <;> rfl
  have hreserved : at_.tileReserved d = s.tileReserved d := by unfold at_; split <;> rfl
  have hmine : s.ticketOf (k, x) = tx.ticket := by simp only [State.ticketOf, htxn, Option.map_some, Option.getD_some]
  have hat : (if paSite (tile * 256) = siteOf k then s else s.advanceTicket (paSite (tile * 256)) (tx.ticket / 32)) = at_ := rfl
  clear_value at_
  have hexec : exec (.txArbitration k x tile write) s = .next (at_.arbitrate (k, x) tile write) := by
    rw [exec_txArbitration, execTxArbitration]
    simp only [htxn, hrem, Option.isSome_none, Bool.false_eq_true, if_false, hat, hdirs]
    rw [State.hostHold, show at_.hostAsk _ _ _ _ = none from hhost]
    simp only [show (Sparse.get {} s.tileDirs tile : TileDir).locked = false from hlock,
      show at_.tileReserved (Sparse.get {} s.tileDirs tile) = false from hreserved.trans hresv, Bool.false_eq_true, if_false]
  rw [hexec]
  have hd : (Sparse.get {} at_.tileDirs tile : TileDir) = d := by rw [hdirs]
  cases hw : d.writer with
  | some h =>
    have ho : other = [h] := by unfold other; rw [hw]
    rw [State.arbitrate_writer (by rw [hd, hw]) (hother h (by rw [ho]; exact List.mem_singleton_self _)), ho]
    simp only [hticket, hmine, List.all_cons, List.all_nil, Bool.and_true, List.foldl_cons, List.foldl_nil]
  | none =>
    cases write with
    | true =>
      have ho : other = d.readers.filter (· != (k, x)) := by unfold other; rw [hw]; rfl
      rw [State.arbitrate_readers (by rw [hd, hw]), hd, ho]
      simp only [hticket, hmine]
    | false =>
      have ho : other = [] := by unfold other; rw [hw]; rfl
      rw [State.arbitrate_read (by rw [hd, hw]) (by rw [hd]; exact hroom.resolve_left (by decide)), ho]
      rfl

/-! Versioned lines (R154). -/

theorem versionedEviction_takes {s : State} {k x tile : Nat} {tx : Txn} (htxn : (s.ctxAt k x).txn = some tx) (hw : tile ∈ tx.writes)
    (hv : tile ∉ tx.versioned)
    (hroom : (s.cores.flatMap fun (_, c) => c.ctxs.flatMap fun (_, t) =>
      ((t.txn.map fun y => y.versioned.filter fun v => tileHome v == tileHome tile).getD [])).length < 1024) :
    exec (.versionedEviction k x tile) s = .next (s.mapCtx k x fun t =>
      { t with txn := t.txn.map fun y => { y with versioned := insertNat y.versioned tile } }) := by
  have hholders : (s.cores.flatMap fun (k, c) => c.ctxs.flatMap fun (x, t) =>
      ((t.txn.map fun y => y.versioned.filter fun v => tileHome v == tileHome tile).getD []).map fun _ => (k, x)).length < 1024 := by
    simpa only [List.length_flatMap, List.length_map] using hroom
  rw [exec_versionedEviction, execVersionedEviction]
  simp only [htxn, List.contains_iff_mem.2 hw, Bool.not_true, Bool.false_or, List.contains_eq_mem, hv, decide_false,
    Bool.false_eq_true, if_false]
  rw [if_pos hholders]

/-! Row reads (R163). -/

namespace State

theorem rowSample_sampleRow (s : State) (hod : Nat) (tiles : List Nat) (rereads : Nat) :
    ∃ r, (s.sampleRow hod tiles rereads).rowSample hod tiles = some r ∧ r.rereads = rereads ∧ r.stamps = s.stamps tiles := by
  refine ⟨{ hod, tiles, stamps := s.stamps tiles, locked := tiles.any fun t => (s.dirOf t).locked
            since := (s.site (agentSite hod)).fab, rereads }, ?_, rfl, rfl⟩
  rw [rowSample, sampleRow, site_mapSite, List.find?_append, List.find?_eq_none.2, Option.none_or, List.find?_singleton]
  · simp
  · intro r hr; simpa only [Bool.not_eq_true', Bool.not_eq_true] using (List.mem_filter.1 hr).2

theorem mem_readHolds_holdRow (s : State) (hod : Nat) {tiles : List Nat} {t : Nat} (ht : t ∈ tiles) :
    hod ∈ ((s.holdRow hod tiles true).dirOf t).readHolds := by
  have e : (s.holdRow hod tiles true).dirOf t = { s.dirOf t with readHolds := insertNat (s.dirOf t).readHolds hod } := by
    refine (Sparse.get_foldl_set (fun t => { s.dirOf t with readHolds := insertNat (s.dirOf t).readHolds hod }) {} tiles
      s.tileDirs t).trans ?_
    rw [if_pos ht]
  rw [e]; exact mem_insertNat.2 (.inl rfl)

end State

theorem rowRead_again {s : State} {hod : Nat} {tiles : List Nat} {r : RowSample} (h : s.rowSample hod tiles = some r) :
    Completes (exec (.rowRead hod tiles) s) fun u =>
      (∃ r', u.rowSample hod tiles = some r' ∧ r'.rereads = r.rereads + 1 ∧ r'.stamps = s.stamps tiles)
        ∧ (u.site (agentSite hod)).rowreread = min ((s.site (agentSite hod)).rowreread + 1) 0xFFFFFFFF
        ∧ (r.rereads = 8 → ∀ t ∈ tiles, hod ∈ (u.dirOf t).readHolds) ∧ SameStorage s u := by
  rw [exec_rowRead, execRowRead]; simp only [h]
  refine ⟨_, rfl, ?_⟩
  obtain ⟨r', hr', hre, hst⟩ := s.rowSample_sampleRow hod tiles (r.rereads + 1)
  have hcount (u : State) (hu : u.sites = ((s.sampleRow hod tiles (r.rereads + 1)).mapSite (agentSite hod) fun t =>
      { t with rowreread := sat32 (t.rowreread + 1) }).sites) :
      (∃ r', u.rowSample hod tiles = some r' ∧ r'.rereads = r.rereads + 1 ∧ r'.stamps = s.stamps tiles)
        ∧ (u.site (agentSite hod)).rowreread = min ((s.site (agentSite hod)).rowreread + 1) 0xFFFFFFFF := by
    have hsite := State.site_of_sites hu (agentSite hod)
    rw [State.site_mapSite] at hsite
    refine ⟨⟨r', ?_, hre, hst⟩, ?_⟩
    · rw [State.rowSample, hsite]; exact hr'
    · rw [hsite, State.sampleRow, State.site_mapSite]; rfl
  split
  next =>
    exact and_assoc.1 ⟨hcount _ rfl, fun _ t ht => State.mem_readHolds_holdRow _ _ ht, fun _ => rfl, rfl, rfl⟩
  next hne =>
    exact and_assoc.1 ⟨hcount _ rfl, fun h8 => absurd h8 hne, fun _ => rfl, rfl, rfl⟩

/-! Notices, counters, and the first read of a row (R155, R157, R163). -/

theorem abortNotice_aborts {s : State} {k x code : Nat} {tx : Txn} (htxn : (s.ctxAt k x).txn = some tx)
    (hrem : tx.removed = some code) (hhold : (s.ctxAt k x).hold = none) : exec (.abortNotice k x code) s = .next (s.abortTxn k x code 0 false) := by
  rw [exec_abortNotice, execAbortNotice]
  simp only [htxn, Option.bind_some, hrem, hhold, Option.isSome_none, Bool.false_eq_true, if_false, if_true]

theorem ticketAdvance_takes (s : State) (site c : Nat) : exec (.ticketAdvance site c) s = .next (s.mapSite site fun t =>
    if c ≠ t.ticket ∧ (c + 2 ^ 48 - t.ticket) % 2 ^ 48 < 2 ^ 47 then { t with ticket := c } else t) := by
  rw [exec_ticketAdvance, execTicketAdvance, State.advanceTicket]
  simp only [later, Bool.and_eq_true, decide_eq_true_eq]

theorem rowRead_first {s : State} {hod : Nat} {tiles : List Nat} (h : s.rowSample hod tiles = none) :
    exec (.rowRead hod tiles) s = .next (s.sampleRow hod tiles 0) := by
  rw [exec_rowRead, execRowRead]; simp only [h]

end Sys2Proof.Machine
end

section
/-!
CERTIFICATE. The steps of the homes of transactions (R154 to R157, R161, R163).
-/
namespace Sys2Proof.Machine

/-- Settles O23: each step of the homes by its own lemma. -/
theorem transactionHomes : Obligations.TransactionHomes := by
  unfold Obligations.TransactionHomes
  refine ⟨fun s k x tile home code write tx htxn => ?_, fun s k x tile site c hod tiles => ?_⟩
  · exact ⟨txArbitration_decides htxn, fun homes hrem hlock hmem hfree => txLock_completes htxn hrem hlock hmem hfree,
      fun hlock hlog hspec hn => txInstall_completes htxn hlock hlog hspec hn,
      fun hrem hhold => abortNotice_aborts htxn hrem hhold⟩
  · exact ⟨fun tx htxn hw hv hroom => versionedEviction_takes htxn hw hv hroom, rfl, ticketAdvance_takes s site c, rowRead_first,
      fun r hr => rowRead_again hr⟩

end Sys2Proof.Machine
end

section
/-!
SUPPORT. Tasks that a trap, the end of their team or the loss of what they wait for ends (R39, R41, R57, R409, R411), and teams that
are to leave (R44, R50).
-/
namespace Sys2Proof.Machine
namespace State

/-! Traps and teams that are killed (R39, R41, R57). -/

theorem mapCtx_ends {s : State} {k x : Nat} {f : Ctx → Ctx}
    (h : ((f (s.ctxAt k x)).gen, (f (s.ctxAt k x)).occupied) = ((s.ctxAt k x).gen, (s.ctxAt k x).occupied)) :
    Ends s (s.mapCtx k x f) :=
  mapCtx_stays Ctx.Ends.refl ⟨congrArg Prod.fst h, (congrArg Prod.snd h).symm.trans⟩

theorem dropTxn_quiet (s : State) (k x : Nat) : Quiet s (s.dropTxn k x) := tileDirs_quiet _ _

theorem enqueueTeam_quiet (s : State) (uid : Nat) : Quiet s (s.enqueueTeam uid) := by
  unfold enqueueTeam; extract_lets cls
  split
  · exact .refl s
  · exact (s.mapPart_quiet _ _).trans (pushOnce_quiet _ _)
theorem enterQueue_quiet (s : State) (uid gk : Nat) : Quiet s (s.enterQueue uid gk) := by
  unfold enterQueue; extract_lets is enter
  have h (s : State) (u : Nat) : Quiet s (enter s u) := by
    unfold enter; split
    · exact s.enqueueTeam_quiet _
    · exact .refl s
  split
  · exact h _ _
  · split
    · exact h _ _
    · split
      · exact .refl s
      · exact .foldl h _ _
theorem forgetFlags_quiet (s : State) (t : Team) : Quiet s (s.forgetFlags t) := .foldl (fun s _ => s.mapNi_quiet _ _) _ _

theorem killTask_ends (s : State) (t : Team) (k x : Nat) (c : Ctx) : Ends s (s.killTask t k x c) := by
  unfold killTask; extract_lets s₁ s₂ s₃ s₄
  have h₂ : Quiet s s₂ := (s.dropTxn_quiet k x).trans (mapNi_quiet _ _ _)
  have h₃ : Quiet s₂ s₃ := by
    unfold s₃; split
    · exact mapGrid_quiet _ _ _
    · exact .refl _
  have h₄ : Quiet s₃ s₄ := .foldl (fun s _ => s.consume_quiet _) _ _
  exact (((h₂.trans h₃).trans h₄).ends.trans (mapCtx_ends rfl)).trans (endCtx_ends _ _ _).1

theorem killTeam_ends (s : State) (uid : Nat) : Ends s (s.killTeam uid) := by
  unfold killTeam
  split
  · exact .refl s
  next t _ =>
    split
    · exact .refl s
    extract_lets cores s₁ lost s₂ s₃ s₄
    have h₁ : Ends s s₁ := .foldl (fun s k => by
      extract_lets u queued
      have hu : Ends s u := .foldl (fun s xc => by split; exact s.killTask_ends _ _ _ _) _ _
      clear_value u
      exact (hu.trans (u.noticeAll_quiet k).ends).trans (Quiet.foldl (fun s (e : QEntry) => s.stray_quiet k e.msg) _ _).ends) _ _
    have h₂ : Quiet s₁ s₂ := .foldl (fun s _ => (s.consume_quiet _).trans (settleMsg_quiet _ _ _)) _ _
    have h₃ : Quiet s₂ s₃ := (forgetFlags_quiet _ _).trans (mapTeam_quiet _ _ _)
    have h₄ : Quiet s₃ s₄ := mapPart_quiet _ _ _
    exact h₁.trans ((((h₂.trans h₃).trans h₄).trans (mapGrid_quiet _ _ _)).trans
      ((enterQueue_quiet _ _ _).trans (pushAll_quiet _ _))).ends

theorem finalAction_ends (s : State) (k x : Nat) (t : Ctx) (ws : List Word) : Ends s (s.finalAction k x t ws) := by
  unfold finalAction
  split
  · extract_lets img home
    split
    · exact (mapCtx_ends rfl).trans (push_quiet _ _).ends
    · exact (ctlSend_quiet _ _ _ _ _ _ _ _).ends.trans (killTeam_ends _ _)
  · exact .refl s

/-- A trap ends its task. -/
theorem takeTrap_ends (s : State) (k x cause code : Nat) (pc addr : Word) (keep : Bool) :
    Ends s (s.takeTrap k x cause code pc addr keep) ∧ ((s.takeTrap k x cause code pc addr keep).ctxAt k x).occupied = false := by
  have ended {u : State} (h : Ends s u) : Ends s (u.endCtx k x) ∧ ((u.endCtx k x).ctxAt k x).occupied = false :=
    ⟨h.trans (u.endCtx_ends k x).1, (u.endCtx_ends k x).2⟩
  have final {u : State} (h : Ends s u) (t : Ctx) (ws : List Word) :
      Ends s ((u.endCtx k x).finalAction k x t ws) ∧ (((u.endCtx k x).finalAction k x t ws).ctxAt k x).occupied = false := by
    obtain ⟨hend, hocc⟩ := ended h
    have hfinal := (u.endCtx k x).finalAction_ends k x t ws
    exact ⟨hend.trans hfinal, hfinal.unoccupied hocc⟩
  unfold takeTrap; extract_lets t r s₁ s₂ count s₃ s₄ s₅ s₆ fin back s₇ s₈
  have h₂ : Quiet s s₂ := (s.dropTxn_quiet k x).trans (mapCore_quiet rfl)
  clear_value s₂
  split
  · have h₄ : Quiet s₃ s₄ := by
      unfold s₄; split
      · exact mapGrid_quiet _ _ _
      · exact .refl _
    exact final ((h₂.trans ((mapNi_quiet _ _ _).trans h₄)).trans (release_quiet_entries _ _ _)).ends _ _
  · have h₈ : Ends s s₈ := ((h₂.trans (mapNi_quiet _ _ _)).trans (mapNi_quiet _ _ _)).ends.trans (mapCtx_ends rfl)
    split
    · exact final (h₈.trans (release_quiet_entries _ _ _).ends) _ _
    · exact ended h₈

/-! Operations whose answer cannot come any more (R409). -/

theorem failOp_ends (s : State) (cause target k x op : Nat) : Ends s (s.failOp cause target k x op) := by
  unfold failOp; extract_lets t
  split
  · exact .refl s
  · have hdrop := (s.dropOp_runs k x op).ends
    split
    · exact (hdrop.trans (mapCtx_ends rfl)).trans ((quietOn_quiet _ _).trans (settled_quiet _ _ _)).ends
    · split
      · exact hdrop.trans (takeTrap_ends _ _ _ _ _ _ _ _).1
      · have hu := hdrop.trans (kick_runs (s.dropOp k x op) k x).ends
        split
        · exact hu.trans (push_quiet _ _).ends
        · exact hu.trans (settled_quiet _ _ _).ends
theorem cancelOp_ends (s : State) (target k x op : Nat) : Ends s (s.cancelOp target k x op) := s.failOp_ends _ _ _ _ _
theorem cancelAmo_ends (s : State) (target : Nat) (r : AmoReq) : Ends s (s.cancelAmo target r) := by
  unfold cancelAmo; split
  · exact s.cancelOp_ends _ _ _ _
  · split
    · exact .refl s
    · exact .foldl (fun s _ => s.cancelOp_ends _ _ _ _) _ _
theorem cancelWait_ends (s : State) (target k x : Nat) : Ends s (s.cancelWait target k x) := by
  unfold cancelWait; extract_lets t
  split
  · exact (s.takeTrap_ends _ _ _ _ _ _ _).1
  · exact .refl s
theorem cancelSteal_ends (s : State) (target k x : Nat) : Ends s (s.cancelSteal target k x) := by
  unfold cancelSteal; extract_lets t
  split
  · exact (mapNi_quiet _ _ _).ends.trans (takeTrap_ends _ _ _ _ _ _ _ _).1
  · exact .refl s
theorem loseMsg_quiet (s : State) (m : Message) : Quiet s (s.loseMsg m) := by
  unfold loseMsg; extract_lets u
  split
  · exact (s.consume_quiet _).trans (mapNi_quiet _ _ _)
  · exact s.consume_quiet _
theorem chainOn_quiet (s : State) (e : Event) : Quiet s (s.chainOn e) := by
  unfold chainOn; split
  · split
    · exact s.push_quiet _
    · exact .refl s
  · exact .refl s
theorem cancelStep_ends (s : State) (target : Nat) (e : Event) : Ends s (s.cancelStep target e) := by
  unfold cancelStep
  split
  · exact ((s.loseMsg_quiet _).trans (chainOn_quiet _ _)).ends
  iterate 6 exact s.cancelOp_ends _ _ _ _
  iterate 2 exact s.cancelAmo_ends _ _
  · exact s.cancelOp_ends _ _ _ _
  iterate 3 exact s.cancelWait_ends _ _ _
  iterate 2 exact s.cancelSteal_ends _ _ _
  · exact .refl s
theorem xmitOn_runs (s : State) (a : Nat) : Runs s (s.xmitOn a) := by
  unfold xmitOn; split
  · exact .refl s
  · extract_lets k
    refine .trans (.foldl (fun s xt => ?_) _ _) (quietOn_quiet _ _).runs
    split
    exact s.kick_runs _ _

/-! The loss of a site (R411). -/

theorem loseGrid_ends (s : State) (gk : Nat) : Ends s (s.loseGrid gk) :=
  (s.mapGrid_quiet _ _).ends.trans (.foldl (fun s _ => s.killTeam_ends _) _ _)
theorem loseUnplaceable_ends (s : State) (part : Nat) : Ends s (s.loseUnplaceable part) := by
  refine .foldl (fun s ug => ?_) _ _
  split
  split
  · exact .refl s
  · extract_lets us
    split
    · exact .refl s
    · exact s.loseGrid_ends _
theorem loseRequests_ends (s : State) (site : Nat) : Ends s (s.loseRequests site) := by
  refine .foldl (fun s ax => ?_) _ _
  split
  next a x =>
  have hfree := (s.freeXmit_quiet a x.owner x.seq).trans (machineCheck_quiet _ (agentSite a) 6 1 a 0)
  exact (hfree.ends.trans (cancelStep_ends _ _ _)).trans (xmitOn_runs _ _).ends
theorem dropNodes_quiet (s : State) (site : Nat) : Quiet s (s.dropNodes site) := quiet_aside rfl

/-! Teams that are to leave (R44, R50), and regions (R391). -/

theorem beginQuiesce_quiet (s : State) (uid : Nat) : Quiet s (s.beginQuiesce uid) := by
  unfold beginQuiesce
  split
  · exact .refl s
  · split
    · exact .refl s
    · refine .trans (.foldl (fun s k => ?_) _ _) ((mapTeam_quiet _ _ _).trans (push_quiet _ _))
      split
      extract_lets rs s₁ s₂ add
      have h₂ : Quiet s s₂ := (mapCore_quiet rfl).trans (.foldl (fun s r => s.giveUp_quiet (agentNi k) r.msg.id) rs s₁)
      split
      · exact h₂
      · exact h₂.trans (mapTeam_quiet _ _ _)
theorem preemptTeam_quiet (s : State) (uid : Nat) : Quiet s (s.preemptTeam uid) := by
  unfold preemptTeam
  split
  · exact .refl s
  · split
    · exact s.beginQuiesce_quiet _
    · exact .foldl (fun s _ => s.beginQuiesce_quiet _) _ _
theorem regions_quiet (s : State) (regions : Sparse Region) : Quiet s { s with regions } := quiet_aside rfl
theorem releaseRegion_runs (s : State) (key : Nat) (r : Region) : Runs s (s.releaseRegion key r) := by
  unfold releaseRegion; extract_lets lo gone tiles u drop v
  have hu : Runs s u := (s.removeHolders_runs _ _ _).trans ((forgetLines_quiet _ _ _).trans (l2Forget_quiet _ _)).runs
  have hv : Quiet u v := mapTlbs_quiet _ _ _ _
  exact hu.trans (hv.trans (v.regions_quiet _)).runs

end State
end Sys2Proof.Machine
end

section
/-!
SUPPORT. Errors and scrubs, the loss of cores and of sites, the debugger, and the throttle (R404, R408, R411, R412, R437).
-/
namespace Sys2Proof.Machine
namespace State

/-! Scrubs (R404). -/

/-- The check of a doubleword's own address meets what is altered in it. -/
theorem flipMet_flipAddr (u : ErrUnit) : flipMet u (flipAddr u) = true := by cases u <;> simp [flipMet, flipAddr]

/-- The check of a site's altered doublewords leaves none there. -/
theorem checkRead_site (s : State) (site : Nat) :
    let u := s.checkRead ((s.flips.map fun (u, _) => flipAddr u).filter fun a => paSite a == site)
    SameStorage s u ∧ ∀ f ∈ u.flips, f ∈ s.flips ∧ paSite (flipAddr f.1) ≠ site := by
  intro u
  have hmet {f : ErrUnit × Word} (hf : f ∈ s.flips) (hsite : paSite (flipAddr f.1) = site) :
      ((s.flips.map fun (u, _) => flipAddr u).filter fun a => paSite a == site).any (flipMet f.1) = true :=
    List.any_eq_true.2 ⟨_, List.mem_filter.2 ⟨List.mem_map_of_mem hf, beq_iff_eq.2 hsite⟩, flipMet_flipAddr _⟩
  unfold u checkRead; extract_lets hits
  split
  next hnone =>
    refine ⟨⟨fun _ => rfl, rfl, rfl⟩, fun f hf => ⟨hf, fun hsite => ?_⟩⟩
    have hhit : f ∈ hits := List.mem_filter.2 ⟨hf, hmet hf hsite⟩
    rw [List.isEmpty_iff.1 hnone] at hhit; cases hhit
  next =>
    refine ⟨⟨fun _ => rfl, rfl, rfl⟩, fun f hf => ?_⟩
    obtain ⟨e, m⟩ := f
    obtain ⟨hf, hclean⟩ := List.mem_filter.1 hf
    exact ⟨hf, fun hsite => absurd (hmet hf hsite) (by simpa only [Bool.not_eq_true', Bool.not_eq_true] using hclean)⟩

/-! The loss of a core (R408). -/

/-- A task that a lost core had takes MCHECK, unless it has ended. -/
def checkTask (k : Nat) (s : State) (xt : Nat × Ctx) : State :=
  if (s.ctxAt k xt.1).occupied && (s.ctxAt k xt.1).gen == xt.2.gen then
    s.takeTrap k xt.1 cMCHECK 0 (instrPc xt.2) 0 true else s

theorem checkTask_ends (k : Nat) (s : State) (xt : Nat × Ctx) : Ends s (s.checkTask k xt)
    ∧ ((s.ctxAt k xt.1).gen = xt.2.gen → ((s.checkTask k xt).ctxAt k xt.1).occupied = false) := by
  unfold checkTask; split
  · exact ⟨(s.takeTrap_ends _ _ _ _ _ _ _).1, fun _ => (s.takeTrap_ends _ _ _ _ _ _ _).2⟩
  next h =>
    refine ⟨.refl s, fun hgen => Bool.eq_false_iff.2 fun hocc => h ?_⟩
    rw [hocc, hgen, beq_self_eq_true]; rfl

theorem foldl_checkTask (k : Nat) (l : List (Nat × Ctx)) (s : State) : Ends s (l.foldl (checkTask k) s)
    ∧ ∀ xt ∈ l, (s.ctxAt k xt.1).gen = xt.2.gen → ((l.foldl (checkTask k) s).ctxAt k xt.1).occupied = false := by
  induction l generalizing s with
  | nil => exact ⟨.refl s, fun _ h => absurd h List.not_mem_nil⟩
  | cons xt l ih =>
    obtain ⟨hfirst, hover⟩ := s.checkTask_ends k xt
    obtain ⟨hrest, hall⟩ := ih (s.checkTask k xt)
    refine ⟨hfirst.trans hrest, fun yt hyt hgen => ?_⟩
    rcases List.mem_cons.1 hyt with rfl | hyt
    · exact hrest.unoccupied (hover hgen)
    · exact hall yt hyt ((hfirst.ctxAt k yt.1).gen.trans hgen)

/-- No task of the core is left. -/
theorem checkTasks_unoccupied (s : State) (k x : Nat) :
    ((((s.core k).ctxs.filter fun (_, t) => t.occupied).foldl (checkTask k) s).ctxAt k x).occupied = false := by
  obtain ⟨hends, hall⟩ := foldl_checkTask k ((s.core k).ctxs.filter fun (_, t) => t.occupied) s
  cases hocc : (s.ctxAt k x).occupied with
  | false => exact hends.unoccupied hocc
  | true =>
    rcases Sparse.get_mem_or ({} : Ctx) (s.core k).ctxs x with hm | hd
    · exact hall (x, s.ctxAt k x) (List.mem_filter.2 ⟨hm, hocc⟩) rfl
    · rw [ctxAt, hd] at hocc; cases hocc

/-! The loss of a site (R411). -/

/-- A link of a lost site goes down at both ends. -/
def cutLink (site : Nat) (s : State) (d : Nat) : State :=
  let u := s.mapLink site d fun l => { l with dead := true, replayBuf := [], unacked := [] }
  if s.neighbour site d = site then u else u.killEnd (s.neighbour site d) (backDir d)

/-- The other end of a link that goes down is at another site. -/
theorem killEnd_site (s : State) {n st : Nat} (dir : Nat) (h : n ≠ st) :
    ((s.killEnd st dir).site n).lasting = (s.site n).lasting := by
  unfold killEnd; extract_lets fs u firsts
  have hreroute : Quiet u (firsts.foldl (fun s f => s.rerouteFlit st f) u) := .foldl (fun s _ => s.injectCtl_quiet _ _ _ _ _ _) _ _
  exact (hreroute.site n).trans (congrArg Site.lasting (site_mapSite_other _ _ _ _ h))

theorem cutLink_site (site : Nat) (s : State) (d : Nat) : ((s.cutLink site d).site site).lasting =
    ((s.mapLink site d fun l => { l with dead := true, replayBuf := [], unacked := [] }).site site).lasting := by
  unfold cutLink; split
  · rfl
  next h => exact killEnd_site _ _ (Ne.symm h)

theorem cutLink_link (site : Nat) (s : State) (d e : Nat) : (s.cutLink site d).link site e =
    if e = d then { s.link site d with dead := true, replayBuf := [], unacked := [] } else s.link site e := by
  have h : ((s.cutLink site d).site site).links = Sparse.set (s.site site).links d
      { s.link site d with dead := true, replayBuf := [], unacked := [] } :=
    (congrArg (·.2.2.2.1) (cutLink_site site s d)).trans (congrArg Site.links (site_mapSite _ _ _))
  rw [link, h]
  split
  next he => rw [he, Sparse.get_set_same]
  next he => rw [Sparse.get_set_other _ _ _ _ _ he]; rfl

/-- A site with some of its links cut: they are dead, as are those that were. -/
theorem foldl_cutLink (site : Nat) (l : List Nat) (s : State) :
    ((l.foldl (cutLink site) s).site site).live = (s.site site).live
      ∧ ((l.foldl (cutLink site) s).site site).nodes = (s.site site).nodes
      ∧ ∀ d, d ∈ l ∨ (s.link site d).dead = true → ((l.foldl (cutLink site) s).link site d).dead = true := by
  induction l generalizing s with
  | nil => exact ⟨rfl, rfl, fun d h => h.resolve_left List.not_mem_nil⟩
  | cons e l ih =>
    have hcut := (cutLink_site site s e).trans (congrArg Site.lasting (site_mapSite _ _ _))
    obtain ⟨hlive, hnodes, hdead⟩ := ih (s.cutLink site e)
    refine ⟨hlive.trans (congrArg (·.1) hcut), hnodes.trans (congrArg (·.2.2.1) hcut), fun d h => hdead d ?_⟩
    rw [cutLink_link]
    split
    next => exact .inr rfl
    next he => exact h.imp (fun hm => (List.mem_cons.1 hm).resolve_left he) id

/-! The debugger (R412). -/

theorem thawTeam_quiet (s : State) (uid : Nat) : Quiet s (s.thawTeam uid) := by
  unfold thawTeam
  split
  · exact .refl s
  · extract_lets s₁ s₂ s₃ parked
    have h₁ : Quiet s s₁ := .foldl (fun s k => mapCore_quiet rfl) _ _
    have h₂ : Quiet s₁ s₂ := mapTeam_quiet _ _ _
    have h₃ : Quiet s₂ s₃ := by
      unfold s₃; split
      · exact pushOnce_quiet _ _
      · exact .refl _
    exact ((h₁.trans h₂).trans h₃).trans (pushAll_quiet _ _)

theorem passBkpt_of_not {s : State} {k x : Nat} (h : (s.ctxAt k x).atBkpt = false) : s.passBkpt k x = s := by
  rw [passBkpt, h]; rfl

end State

section
variable {s : State} {k x site : Nat}

theorem scrub_completes (s : State) (site : Nat) (found : List (ErrUnit × Bool)) :
    Completes (exec (.scrub site found) s) fun w => SameStorage s w
      ∧ (∀ f ∈ w.flips, f ∈ s.flips ∧ paSite (State.flipAddr f.1) ≠ site)
      ∧ ∀ u c, (u, c) ∈ found → unitSite u = site → Event.eccError u c ∈ w.agenda := by
  rw [exec_scrub, execScrub]
  refine ⟨_, rfl, (s.checkRead_site site).1, (s.checkRead_site site).2, fun u c hf hu => List.mem_append_right _ ?_⟩
  exact List.mem_map.2 ⟨(u, c), List.mem_filter.2 ⟨hf, beq_iff_eq.2 hu⟩, rfl⟩

theorem coreLoss_completes (hlost : (s.core k).lost = 0) (hspare : clusterOf k ∉ (s.site (siteOf k)).sparesUsed) :
    Completes (exec (.coreLoss k) s) fun w =>
      (w.core k).lost = 1 ∧ (w.core k).copyStart = (s.core k).cycle ∧ (∀ x, (w.ctxAt k x).occupied = false) ∧ (w.core k).l1 = []
        ∧ (w.core k).tiles = [] ∧ clusterOf k ∈ (w.site (siteOf k)).sparesUsed := by
  rw [exec_coreLoss, execCoreLoss, if_neg (not_not_intro hlost)]
  extract_lets u v w
  have hv : v = ((u.core k).ctxs.filter fun (_, t) => t.occupied).foldl (State.checkTask k) u := rfl
  have hends : State.Ends u v := hv ▸ (State.foldl_checkTask _ _ _).1
  have hocc (x : Nat) : (v.ctxAt k x).occupied = false := hv ▸ u.checkTasks_unoccupied k x
  have huk : u.core k = { s.core k with lost := 1, copyStart := (s.core k).cycle } := State.core_mapCore _ _ _
  clear_value v
  have hwk : w.core k = { v.core k with tiles := [], l1 := [], l1i := [], dtlb := [] } := State.core_mapCore _ _ _
  have hsite : (w.site (siteOf k)).sparesUsed = (s.site (siteOf k)).sparesUsed := hends.sparesUsed _
  rw [hsite, show (s.site (siteOf k)).sparesUsed.contains (clusterOf k) = false by simpa using hspare]
  refine ⟨_, rfl, ?_, ?_, fun x => ?_, ?_, ?_, ?_⟩
  · exact (congrArg Core.lost hwk).trans ((hends.lost k).trans (congrArg Core.lost huk))
  · exact (congrArg Core.copyStart hwk).trans ((hends.copyStart k).trans (congrArg Core.copyStart huk))
  · exact (congrArg (fun c : Core => (Sparse.get ({} : Ctx) c.ctxs x).occupied) hwk).trans (hocc x)
  · exact congrArg Core.l1 hwk
  · exact congrArg Core.tiles hwk
  · rw [State.site_mapSite]; exact mem_insertNat.2 (.inl rfl)

theorem spareTakeover_completes (hlost : (s.core k).lost = 1) :
    Completes (exec (.spareTakeover k) s) fun w =>
      (w.core k).lost = 0 ∧ (w.core k).waiting = [] ∧ (∀ e ∈ (s.core k).waiting, e ∈ w.agenda) ∧ Event.dispatch k ∈ w.agenda := by
  rw [exec_spareTakeover, execSpareTakeover, if_neg (not_not_intro hlost)]
  extract_lets u
  have hu : u.core k = { s.core k with lost := 0, waiting := [] } := State.core_mapCore _ _ _
  refine ⟨_, rfl, congrArg Core.lost hu, congrArg Core.waiting hu, fun e he => ?_, ?_⟩
  · exact List.mem_append_left _ (List.mem_append_right _ he)
  · exact List.mem_append_right _ (List.mem_singleton_self _)

theorem siteLoss_completes (hlive : (s.site site).live = true) :
    Completes (exec (.siteLoss site) s) fun w =>
      (w.site site).live = false ∧ (w.site site).nodes = [] ∧ ∀ d, d < 6 → (w.link site d).dead = true := by
  rw [exec_siteLoss, execSiteLoss, hlive]
  extract_lets part s₁ s₂ s₃ gone s₄ s₅ s₆ teller s₇
  have h₂ : (s₂.site site).live = false ∧ (s₂.site site).nodes = [] := by
    unfold s₂; rw [State.site_mapSite]; exact ⟨rfl, rfl⟩
  have h₄ : State.Ends s₂ s₄ := (s₂.dropNodes_quiet site).ends.trans (.foldl (fun s _ => s.loseGrid_ends _) _ _)
  have e₅ : s₅ = (List.range 6).foldl (State.cutLink site) s₄ := rfl
  clear_value s₂ s₄
  obtain ⟨hlive₅, hnodes₅, hdead₅⟩ := State.foldl_cutLink site (List.range 6) s₄
  rw [← e₅] at hlive₅ hnodes₅ hdead₅
  clear_value s₅
  have h₇ : State.Ends s₅ s₇ := (s₅.loseRequests_ends site).trans (State.machineCheck_quiet _ _ _ _ _ _).ends
  clear_value s₇
  have lost (w : State) (h : State.Ends s₅ w) : (w.site site).live = false ∧ (w.site site).nodes = []
      ∧ ∀ d, d < 6 → (w.link site d).dead = true := by
    refine ⟨(h.live site).trans (hlive₅.trans ((h₄.live site).trans h₂.1)),
      (h.nodes site).trans (hnodes₅.trans ((h₄.nodes site).trans h₂.2)),
      fun d hd => ?_⟩
    rw [State.link, h.links site]; exact hdead₅ d (.inl (List.mem_range.2 hd))
  refine ⟨_, rfl, lost _ ?_⟩
  clear_value part
  cases part with
  | none => exact h₇
  | some p => exact h₇.trans ((State.loseUnplaceable_ends _ _).trans (State.pushOnce_quiet _ _).ends)

theorem siteEvacuation_completes (hlive : (s.site site).live = true) (hev : (s.site site).evacuating = none) :
    Completes (exec (.siteEvacuation site) s) fun w => (w.site site).evacuating = some (s.site site).fab := by
  rw [exec_siteEvacuation, execSiteEvacuation, hlive, hev]
  extract_lets u mine v
  have hu : (u.site site).evacuating = some (s.site site).fab := by unfold u; rw [State.site_mapSite]
  have hv : State.Quiet u v := .foldl (fun s ut => by split; exact s.preemptTeam_quiet _) _ _
  refine ⟨_, rfl, (State.Stays.evacuating (R := Ctx.RunsBare) (hv.runs.trans (.foldl (fun s kr => ?_) _ _)) site).trans hu⟩
  split
  exact s.releaseRegion_runs _ _

theorem evacuationTimeout_loses {since : Nat} (hev : (s.site site).evacuating = some since)
    (hover : since + 2 ^ 27 ≤ (s.site site).fab) (hcores : s.cores.all (fun (k, c) => siteOf k != site || c.lost != 2) = true) :
    exec (.evacuationTimeout site) s = .next (s.push (.siteLoss site)) := by
  have hdead : (s.cores.filter fun (k, c) => siteOf k == site && c.lost == 2 && c.copyStart + 2 ^ 26 ≤ c.cycle) = [] := by
    rw [List.filter_eq_nil_iff]
    rintro ⟨k, c⟩ hc
    have hk := List.all_eq_true.1 hcores _ hc
    simp only [Bool.or_eq_true, bne_iff_ne, Bool.and_eq_true, beq_iff_eq] at hk ⊢
    exact fun h => hk.elim (fun hne => hne h.1.1) fun hne => hne h.1.2
  rw [exec_evacuationTimeout, execEvacuationTimeout, hdead]
  simp only [List.filterMap_nil, List.map_nil, List.foldl_nil, hev, if_neg (Nat.not_lt.2 hover)]

theorem debugResume_completes (hd : s.debuggable k x = true) (hb : (s.ctxAt k x).atBkpt = false) :
    Completes (exec (.debugResume k x) s) fun w => (w.ctxAt k x).halted = false ∧ (w.ctxAt k x).pc = (s.ctxAt k x).pc := by
  rw [exec_debugResume, execDebugResume, hd, State.passBkpt_of_not hb]
  extract_lets u
  have hu : u.ctxAt k x = { s.ctxAt k x with halted := false, stepping := false } := State.ctxAt_mapCtx _ _ _ _
  have runs (w : State) (h : State.Quiet u w) : (w.ctxAt k x).halted = false ∧ (w.ctxAt k x).pc = (s.ctxAt k x).pc := by
    rw [← h.ctxAt, hu]; exact ⟨rfl, rfl⟩
  refine ⟨_, rfl, runs _ ?_⟩
  split
  · exact .refl u
  · exact .foldl (fun s ut => by split; exact s.thawTeam_quiet _) _ _

theorem debugStep_steps (hd : s.debuggable k x = true) (hb : (s.ctxAt k x).atBkpt = false) : exec (.debugStep k x) s =
    .next ((s.abortTxn k x 10 0 false).mapCtx k x fun t => { t with stepping := true }) := by
  rw [exec_debugStep, execDebugStep, hd, State.passBkpt_of_not hb]; rfl

theorem sensorUpdate_completes (s : State) (site : Nat) (r : Sensors) :
    Completes (exec (.sensorUpdate site r) s) fun w => (w.site site).sensors = r ∧ (w.site site).level = (s.site site).level
      ∧ (105 ≤ r.tcomp → (s.site site).live = true → Event.thermalShutdown site ∈ w.agenda) := by
  rw [exec_sensorUpdate, execSensorUpdate]
  refine ⟨_, rfl, ?_⟩
  split
  next =>
    rw [State.site_of_sites (State.push_sites _ _), State.site_mapSite]
    exact ⟨rfl, rfl, fun _ _ => List.mem_append_right _ (List.mem_singleton_self _)⟩
  next h =>
    rw [State.site_mapSite]
    exact ⟨rfl, rfl, fun ht hlive => absurd (by rw [decide_eq_true ht, hlive]; rfl) h⟩

/-! Corrected errors, and the throttle (R404, R437, R438). -/

theorem dramCorrected_counts (s : State) (a : Nat) :
    ((s.dramCorrected a).site (paSite a)).dramc = min ((s.site (paSite a)).dramc + 1) 0xFFFF := by
  unfold State.dramCorrected; extract_lets st row bank t times u used
  have hu : (u.site st).dramc = min ((s.site st).dramc + 1) 0xFFFF := by unfold u; rw [State.site_mapSite]; rfl
  split
  · exact hu
  · rw [State.machineCheck, State.machineCheckWith]
    rw [State.site_mapSite, State.site_mapSite]
    split <;> exact hu

theorem throttleRaise_raises (hot : 700 < (s.site site).sensors.power ∨ 95 ≤ (s.site site).sensors.tcomp)
    (hlevel : (s.site site).level < 3)
    (hsince : (s.site site).levelSince + 2 ^ 20 ≤ (s.site site).fab) : exec (.throttleRaise site) s =
      .next (s.mapSite site fun t => { t with level := t.level + 1, levelSince := t.fab }) := by
  have hover : overLimit (s.site site).sensors = true := by simpa [overLimit] using hot
  rw [exec_throttleRaise, execThrottleRaise]; exact congrArg _ (if_pos ⟨hover, hlevel, hsince⟩)

theorem throttleLower_lowers (hot : ¬ (700 < (s.site site).sensors.power ∨ 95 ≤ (s.site site).sensors.tcomp))
    (hlevel : (s.site site).capset < (s.site site).level) (hsince : (s.site site).levelSince + 2 ^ 24 ≤ (s.site site).fab) :
    exec (.throttleLower site) s = .next (s.mapSite site fun t => { t with level := t.level - 1, levelSince := t.fab }) := by
  have hover : (!overLimit (s.site site).sensors) = true := by simpa [overLimit] using hot
  rw [exec_throttleLower, execThrottleLower]; exact congrArg _ (if_pos ⟨hover, hlevel, hsince⟩)

theorem capsetWrite_sets (s : State) (site : Nat) (v : Word) : exec (.capsetWrite site v) s = .next (s.mapSite site fun t =>
    { t with capset := v.toNat % 4, level := max t.level (v.toNat % 4) }) := by
  have hv : (v.extractLsb' 0 2).toNat = v.toNat % 4 := by simp
  rw [exec_capsetWrite, execCapsetWrite, hv]

end
end Sys2Proof.Machine
end

section
/-!
CERTIFICATE. Errors, losses, the debugger and the throttle (R149, R404, R408, R411, R412, R435, R437, R438).
-/
namespace Sys2Proof.Machine

/-- Settles O52: an equation for each error and each step of the throttle; for losses, what the end of tasks and of teams leaves of
sites and cores. -/
theorem errorSteps : Obligations.ErrorSteps := by
  unfold Obligations.ErrorSteps
  intro s a k x site part found since r v t c hot
  refine ⟨⟨_, rfl, dramCorrected_counts s a⟩, rfl, fun h => ?_, fun h => ?_, ?_, fun e he => ?_, fun e => by cases e <;> rfl,
    scrub_completes s site found, coreLoss_completes, spareTakeover_completes, siteLoss_completes, siteEvacuation_completes,
    evacuationTimeout_loses, rfl, rfl, fun hd hb => ⟨debugResume_completes hd hb, fun htxn => ?_, fun _ => debugStep_steps hd hb, ?_⟩,
    sensorUpdate_completes s site r, fun h => congrArg _ (if_pos h), fun h => throttleRaise_raises (of_decide_eq_true h),
    fun h => throttleLower_lowers (of_decide_eq_false h), capsetWrite_sets s site v⟩
  · exact congrArg Host.Outcome.next (if_neg (by rw [h]; decide))
  · exact congrArg Host.Outcome.next (if_pos h)
  · rw [exec_eccError, execEccError, State.uncorrectable]; split <;> rfl
  · simp only [List.mem_cons, List.not_mem_nil, or_false] at he
    rcases he with rfl | rfl | rfl | rfl <;> rfl
  · rw [debugStep_steps hd hb, State.abortTxn_none htxn]
  · exact congrArg Host.Outcome.next (if_pos hd)

end Sys2Proof.Machine
end

section
/-!
CERTIFICATE. Decoding and encoding (R166 to R177, R358, R392).
-/
namespace Sys2Proof

/-- The word of a well-formed instruction decodes to it (R167 to R177): row by row of the opcode table; the steps of the machine's own
have no word. -/
theorem decode_encode (i : Instr) : Laws.RoundTrip.Statement i := by
  cases i with
  | add => apply Laws.RoundTrip.add | sub => apply Laws.RoundTrip.sub | and => apply Laws.RoundTrip.and | or => apply Laws.RoundTrip.or
  | xor => apply Laws.RoundTrip.xor | andn => apply Laws.RoundTrip.andn | sll => apply Laws.RoundTrip.sll
  | srl => apply Laws.RoundTrip.srl | sra => apply Laws.RoundTrip.sra | ror => apply Laws.RoundTrip.ror
  | min => apply Laws.RoundTrip.min | max => apply Laws.RoundTrip.max | minu => apply Laws.RoundTrip.minu
  | maxu => apply Laws.RoundTrip.maxu | seq => apply Laws.RoundTrip.seq | sne => apply Laws.RoundTrip.sne
  | slt => apply Laws.RoundTrip.slt | sltu => apply Laws.RoundTrip.sltu | clz => apply Laws.RoundTrip.clz
  | ctz => apply Laws.RoundTrip.ctz | popc => apply Laws.RoundTrip.popc | bswap => apply Laws.RoundTrip.bswap
  | addi => apply Laws.RoundTrip.addi | andi => apply Laws.RoundTrip.andi | ori => apply Laws.RoundTrip.ori
  | xori => apply Laws.RoundTrip.xori | slli => apply Laws.RoundTrip.slli | srli => apply Laws.RoundTrip.srli
  | srai => apply Laws.RoundTrip.srai | slti => apply Laws.RoundTrip.slti | sltui => apply Laws.RoundTrip.sltui
  | mul => apply Laws.RoundTrip.mul | mulh => apply Laws.RoundTrip.mulh | mulhu => apply Laws.RoundTrip.mulhu
  | div => apply Laws.RoundTrip.div | divu => apply Laws.RoundTrip.divu | rem => apply Laws.RoundTrip.rem
  | remu => apply Laws.RoundTrip.remu | cbound => apply Laws.RoundTrip.cbound | cperm => apply Laws.RoundTrip.cperm
  | cseal => apply Laws.RoundTrip.cseal | cunseal => apply Laws.RoundTrip.cunseal | cinc => apply Laws.RoundTrip.cinc
  | cbase => apply Laws.RoundTrip.cbase | clen => apply Laws.RoundTrip.clen | cgperm => apply Laws.RoundTrip.cgperm
  | ctag => apply Laws.RoundTrip.ctag | cclr => apply Laws.RoundTrip.cclr | csub => apply Laws.RoundTrip.csub
  | cinci => apply Laws.RoundTrip.cinci | cboundi => apply Laws.RoundTrip.cboundi | tget => apply Laws.RoundTrip.tget
  | tmrg => apply Laws.RoundTrip.tmrg | tclr => apply Laws.RoundTrip.tclr | twait => apply Laws.RoundTrip.twait
  | ldlD => apply Laws.RoundTrip.ldlD | ldlW => apply Laws.RoundTrip.ldlW | jal => apply Laws.RoundTrip.jal
  | jalr => apply Laws.RoundTrip.jalr | beq => apply Laws.RoundTrip.beq | bne => apply Laws.RoundTrip.bne
  | blt => apply Laws.RoundTrip.blt | bge => apply Laws.RoundTrip.bge | bltu => apply Laws.RoundTrip.bltu
  | bgeu => apply Laws.RoundTrip.bgeu | rep => apply Laws.RoundTrip.rep | endTask => apply Laws.RoundTrip.endTask
  | release => apply Laws.RoundTrip.release | ldB => apply Laws.RoundTrip.ldB | ldBu => apply Laws.RoundTrip.ldBu
  | ldH => apply Laws.RoundTrip.ldH | ldHu => apply Laws.RoundTrip.ldHu | ldW => apply Laws.RoundTrip.ldW
  | ldWu => apply Laws.RoundTrip.ldWu | ldD => apply Laws.RoundTrip.ldD | stB => apply Laws.RoundTrip.stB
  | stH => apply Laws.RoundTrip.stH | stW => apply Laws.RoundTrip.stW | stD => apply Laws.RoundTrip.stD
  | ldc => apply Laws.RoundTrip.ldc | stc => apply Laws.RoundTrip.stc | lda => apply Laws.RoundTrip.lda
  | stl => apply Laws.RoundTrip.stl | fence => apply Laws.RoundTrip.fence | fenceSs => apply Laws.RoundTrip.fenceSs
  | pref => apply Laws.RoundTrip.pref | cflush => apply Laws.RoundTrip.cflush | cinv => apply Laws.RoundTrip.cinv
  | czero => apply Laws.RoundTrip.czero | aadd => apply Laws.RoundTrip.aadd | aand => apply Laws.RoundTrip.aand
  | aor => apply Laws.RoundTrip.aor | axor => apply Laws.RoundTrip.axor | amin => apply Laws.RoundTrip.amin
  | amax => apply Laws.RoundTrip.amax | aminu => apply Laws.RoundTrip.aminu | amaxu => apply Laws.RoundTrip.amaxu
  | aswap => apply Laws.RoundTrip.aswap | acas => apply Laws.RoundTrip.acas | afadd => apply Laws.RoundTrip.afadd
  | lrw => apply Laws.RoundTrip.lrw | sc => apply Laws.RoundTrip.sc | xbegin => apply Laws.RoundTrip.xbegin
  | xend => apply Laws.RoundTrip.xend | xabort => apply Laws.RoundTrip.xabort | xtest => apply Laws.RoundTrip.xtest
  | xredAdd => apply Laws.RoundTrip.xredAdd | xredFadd => apply Laws.RoundTrip.xredFadd | xredMin => apply Laws.RoundTrip.xredMin
  | xredMax => apply Laws.RoundTrip.xredMax | sbind => apply Laws.RoundTrip.sbind | sbindr => apply Laws.RoundTrip.sbindr
  | sfifoCons => apply Laws.RoundTrip.sfifoCons | sfifoProd => apply Laws.RoundTrip.sfifoProd | sunbind => apply Laws.RoundTrip.sunbind
  | sadv => apply Laws.RoundTrip.sadv | sstat => apply Laws.RoundTrip.sstat | bmov => apply Laws.RoundTrip.bmov
  | bfill => apply Laws.RoundTrip.bfill | send => apply Laws.RoundTrip.send | sendo => apply Laws.RoundTrip.sendo
  | sendr => apply Laws.RoundTrip.sendr | put => apply Laws.RoundTrip.put | get => apply Laws.RoundTrip.get
  | flushrd => apply Laws.RoundTrip.flushrd | waitm => apply Laws.RoundTrip.waitm | recvm => apply Laws.RoundTrip.recvm
  | peekm => apply Laws.RoundTrip.peekm | pmcfg => apply Laws.RoundTrip.pmcfg | pmpost => apply Laws.RoundTrip.pmpost
  | pmdrain => apply Laws.RoundTrip.pmdrain | hcopy => apply Laws.RoundTrip.hcopy | hfill => apply Laws.RoundTrip.hfill
  | hgathSum => apply Laws.RoundTrip.hgathSum | hgathMean => apply Laws.RoundTrip.hgathMean | hscat => apply Laws.RoundTrip.hscat
  | dpush => apply Laws.RoundTrip.dpush | dpop => apply Laws.RoundTrip.dpop | dsplit => apply Laws.RoundTrip.dsplit
  | dstealCluster => apply Laws.RoundTrip.dstealCluster | dstealSite => apply Laws.RoundTrip.dstealSite
  | dstealGrid => apply Laws.RoundTrip.dstealGrid | dcount => apply Laws.RoundTrip.dcount | mpath => apply Laws.RoundTrip.mpath
  | gjoin => apply Laws.RoundTrip.gjoin | gleave => apply Laws.RoundTrip.gleave | binit => apply Laws.RoundTrip.binit
  | barr => apply Laws.RoundTrip.barr | bwait => apply Laws.RoundTrip.bwait | bstat => apply Laws.RoundTrip.bstat
  | plread => apply Laws.RoundTrip.plread | plcfg => apply Laws.RoundTrip.plcfg | gnode => apply Laws.RoundTrip.gnode
  | gdec => apply Laws.RoundTrip.gdec | vld => apply Laws.RoundTrip.vld | vst => apply Laws.RoundTrip.vst
  | vlds => apply Laws.RoundTrip.vlds | vsts => apply Laws.RoundTrip.vsts | vgath => apply Laws.RoundTrip.vgath
  | vscat => apply Laws.RoundTrip.vscat | vldbc => apply Laws.RoundTrip.vldbc | vadd => apply Laws.RoundTrip.vadd
  | vsub => apply Laws.RoundTrip.vsub | vmul => apply Laws.RoundTrip.vmul | vmulh => apply Laws.RoundTrip.vmulh
  | vshl => apply Laws.RoundTrip.vshl | vshr => apply Laws.RoundTrip.vshr | vsra => apply Laws.RoundTrip.vsra
  | vand => apply Laws.RoundTrip.vand | vor => apply Laws.RoundTrip.vor | vxor => apply Laws.RoundTrip.vxor
  | vfadd => apply Laws.RoundTrip.vfadd | vfsub => apply Laws.RoundTrip.vfsub | vfmul => apply Laws.RoundTrip.vfmul
  | vfma => apply Laws.RoundTrip.vfma | vfdiv => apply Laws.RoundTrip.vfdiv | vfsqrt => apply Laws.RoundTrip.vfsqrt
  | vfmin => apply Laws.RoundTrip.vfmin | vfmax => apply Laws.RoundTrip.vfmax | vcvt => apply Laws.RoundTrip.vcvt
  | vshuf => apply Laws.RoundTrip.vshuf | vbcast => apply Laws.RoundTrip.vbcast | vextr => apply Laws.RoundTrip.vextr
  | vins => apply Laws.RoundTrip.vins | vslide => apply Laws.RoundTrip.vslide | vred => apply Laws.RoundTrip.vred
  | vscan => apply Laws.RoundTrip.vscan | mand => apply Laws.RoundTrip.mand | mor => apply Laws.RoundTrip.mor
  | mxor => apply Laws.RoundTrip.mxor | mnot => apply Laws.RoundTrip.mnot | mpopc => apply Laws.RoundTrip.mpopc
  | mfirst => apply Laws.RoundTrip.mfirst | vcmp => apply Laws.RoundTrip.vcmp | vsel => apply Laws.RoundTrip.vsel
  | vmin => apply Laws.RoundTrip.vmin | vmax => apply Laws.RoundTrip.vmax | mdot => apply Laws.RoundTrip.mdot
  | mopen => apply Laws.RoundTrip.mopen | mclose => apply Laws.RoundTrip.mclose | mzero => apply Laws.RoundTrip.mzero
  | muprog => apply Laws.RoundTrip.muprog | mrun => apply Laws.RoundTrip.mrun | mrd => apply Laws.RoundTrip.mrd
  | mwr => apply Laws.RoundTrip.mwr | mld => apply Laws.RoundTrip.mld | mst => apply Laws.RoundTrip.mst
  | msumr => apply Laws.RoundTrip.msumr | msumc => apply Laws.RoundTrip.msumc | mmov => apply Laws.RoundTrip.mmov
  | csrr => apply Laws.RoundTrip.csrr | csrw => apply Laws.RoundTrip.csrw | sealroot => apply Laws.RoundTrip.sealroot
  | tlbinvPage => apply Laws.RoundTrip.tlbinvPage | tlbinvAll => apply Laws.RoundTrip.tlbinvAll
  | tlbinvStripe => apply Laws.RoundTrip.tlbinvStripe | rowmove => apply Laws.RoundTrip.rowmove | regrel => apply Laws.RoundTrip.regrel
  | bankcfg => apply Laws.RoundTrip.bankcfg | freeze => apply Laws.RoundTrip.freeze | thaw => apply Laws.RoundTrip.thaw
  | preempt => apply Laws.RoundTrip.preempt | kill => apply Laws.RoundTrip.kill | errinj => apply Laws.RoundTrip.errinj
  | trap => apply Laws.RoundTrip.trap | bkpt => apply Laws.RoundTrip.bkpt | idle => apply Laws.RoundTrip.idle
  | _ => exact fun _ _ e => nomatch (show none = some _ from e)

/-- Settles O57: every row by its own law. -/
theorem roundTrip : Obligations.RoundTrip := decode_encode

/-- Settles O56: each word is the one that the encoder writes of its instruction, and word 0 is of no major opcode. -/
theorem decodeWords : Obligations.DecodeWords :=
  ⟨decode_encode (.add 9 10 11) rfl _ rfl, decode_encode (.cinci 8 5 0x235) rfl _ rfl, decode_encode (.slli 10 10 16) rfl _ rfl,
    decode_encode (.cbound 9 8 10) rfl _ rfl, decode_encode (.ldD 9 7 8) rfl _ rfl, decode_encode (.stW 10 7 (-2)) rfl _ rfl,
    decode_encode (.ldlD 9 3) rfl _ rfl, decode_encode (.beq 9 0 3) rfl _ rfl, decode_encode (.fenceSs 4) rfl _ rfl,
    decode_encode (.aadd 0 9 10 13) rfl _ rfl, decode_encode (.lrw 9 10) rfl _ rfl, decode_encode (.bmov 8 9 10) rfl _ rfl,
    decode_encode (.sbind 2 16) rfl _ rfl, decode_encode (.send 0 14 0) rfl _ rfl, decode_encode (.hgathSum 8 9 10) rfl _ rfl,
    decode_encode (.dpush 14 12 50) rfl _ rfl, decode_encode (.barr 41 0) rfl _ rfl, decode_encode (.csrr 9 1) rfl _ rfl,
    decode_encode (.rep 20 3 1 0 0) rfl _ rfl, decode_encode .endTask rfl _ rfl, decode_encode .release rfl _ rfl,
    decode_encode .bkpt rfl _ rfl, rfl⟩

end Sys2Proof
end

section
/-!
SUPPORT. Staggered fields (R180), and the PC's move outside a running repeat frame and in one (R43, R178, R181).
-/
namespace Sys2Proof.Machine

theorem staggerField_g (n : Nat) (k : Int) : staggerField .g n k = ((n + k : Int) % 64).toNat := by simp [staggerField]
theorem staggerField_tile (n : Nat) (k : Int) : staggerField .tile n k = ((n + k : Int) % 8).toNat := by simp [staggerField]
theorem staggerField_v {n : Nat} (h : n < 32) (k : Int) : staggerField .v n k = ((n + k : Int) % 32).toNat := by
  simp [staggerField, h]
theorem staggerField_v_other {n : Nat} (h : 32 ≤ n) (k : Int) : staggerField .v n k = n := if_neg (Nat.not_lt.2 h)

/-- The second of two writes at a key stands. -/
theorem Sparse.set_set {α : Type} (m : Sparse α) (k : Nat) (a b : α) : set (set m k a) k b = set m k b := by
  induction m with
  | nil => simp [set]
  | cons p m ih =>
    obtain ⟨j, y⟩ := p
    rcases Nat.lt_trichotomy k j with h | rfl | h
    · simp [set, h]
    · simp [set]
    · simp [set, h.asymm, h.ne', ih]

/-- NEXT of a frame's rc (R178). -/
def Ctx.nextOf (t : Ctx) (f : Frame) : Nat := ((t.gr f.rc).val.extractLsb' 32 4 : BitVec 4).toNat

/-- COUNT of a frame's rc (R178). -/
def Ctx.countOf (t : Ctx) (f : Frame) : BitVec 32 := (t.gr f.rc).val.extractLsb' 0 32

/-- The context after an instruction of a repeat frame: NEXT and COUNT stand in rc (R178). -/
def Ctx.counted (t : Ctx) (f : Frame) (next : BitVec 4) (count : BitVec 32) : Ctx :=
  { t.putG f.rc { t.gr f.rc with val := (0 : BitVec 28) ++ next ++ count, tag := false, desc := 0 } with
    retired := t.retired + 1 }

/-- The context after the last instruction of the last iteration: it goes on after the body (R178). -/
def Ctx.pastBody (t : Ctx) (f : Frame) : Ctx := { t with pc := t.pc + 4 + 4 * BitVec.ofNat 64 f.len, frame := none }

theorem Ctx.pastBody_pc (t : Ctx) (f : Frame) : (t.pastBody f).pc = t.pc + 4 + 4 * BitVec.ofNat 64 f.len := rfl

/-- rc holds NEXT and COUNT, and zero above them (R178). -/
theorem Ctx.gr_counted (t : Ctx) {f : Frame} (hrc : f.rc ≠ 0) (next : BitVec 4) (count : BitVec 32) :
    ((t.counted f next count).gr f.rc).val = BitVec.ofNat 64 (next.toNat * 2 ^ 32 + count.toNat) := by
  have hn := next.isLt
  have hc := count.isLt
  have hval : (t.counted f next count).gr f.rc = _ := t.gr_putG_same hrc _
  rw [hval]
  apply BitVec.eq_of_toNat_eq
  rw [toNat_append_add, toNat_append_add, BitVec.toNat_ofNat, Nat.mod_eq_of_lt (by omega)]
  simp

theorem Ctx.counted_keeps (t : Ctx) (f : Frame) (next : BitVec 4) (count : BitVec 32) :
    (t.counted f next count).pc = t.pc ∧ (t.counted f next count).frame = t.frame := by
  obtain ⟨_, h⟩ := t.putG_regs f.rc { t.gr f.rc with val := (0 : BitVec 28) ++ next ++ count, tag := false, desc := 0 }
  rw [counted, h]; exact ⟨rfl, rfl⟩

theorem frame_of_running {t : Ctx} {f : Frame} (h : State.runningFrame t = some f) : t.frame = some f :=
  (Option.filter_eq_some_iff.1 h).1

namespace State
variable {s : State} {f : Frame}

/-- Two changes of the issuing context are one. -/
theorem mapTask_mapTask (s : State) (f g : Ctx → Ctx) : (s.mapTask f).mapTask g = s.mapTask fun t => g (f t) := by
  have h : ((s.mapTask f).mapTask g).cores = (s.mapTask fun t => g (f t)).cores := by
    change Sparse.set (s.mapTask f).cores s.cur { (s.mapTask f).core s.cur with
      ctxs := Sparse.set ((s.mapTask f).core s.cur).ctxs s.ctx (g (s.mapTask f).task) } = _
    rw [task_mapTask, show (s.mapTask f).core s.cur = _ from core_setCore _ _ _]
    change Sparse.set (Sparse.set s.cores s.cur _) s.cur _ = Sparse.set s.cores s.cur _
    simp only [Sparse.set_set]
  change { s with cores := ((s.mapTask f).mapTask g).cores } = { s with cores := (s.mapTask fun t => g (f t)).cores }
  rw [h]

/-- A change of the issuing context changes nothing else. -/
theorem mapTask_sameOthers (s : State) (f : Ctx → Ctx) : SameOthers s (s.mapTask f) := by
  obtain ⟨_, hcore⟩ := s.core_mapTask f s.cur
  refine ⟨⟨⟨fun _ => rfl, rfl, rfl⟩, rfl, rfl, rfl, rfl, rfl, rfl, rfl, rfl, rfl, rfl, rfl⟩, rfl, rfl, rfl,
    fun k hk => core_setCore_other _ _ _ _ hk, rfl, fun x hx => ctxAt_setCtxAt_other _ _ _ _ _ _ (.inr hx), ?_⟩
  simp only [here, mapTask_cur, hcore, and_self]

/-- A change of one general register, the PC, the frame and the count of instructions leaves every other register. -/
theorem sameRegs_of_task {t : State} {n : Nat} (h : ∃ r pc retired frame, t.task = { s.task.putG n r with pc, retired, frame }) :
    SameRegs s t n 0#8 := by
  obtain ⟨r, pc, retired, frame, e⟩ := h
  obtain ⟨g, hg⟩ := s.task.putG_regs n r
  refine ⟨fun j hj => ?_, fun j => ?_, fun j _ => ?_, ?_⟩
  · rw [Reg.without_zero, ← Ctx.gr_putG_other s.task hj r, e]; rfl
  · rw [VReg.without_zero, e, hg]; rfl
  · rw [MReg.without_zero, e, hg]; rfl
  · simp only [e, hg, and_self]

theorem advance_outside (h : runningFrame s.task = none) :
    s.advance = s.mapTask fun t => { t with pc := t.pc + 4, retired := t.retired + 1 } := by
  unfold advance; rw [h]

section
variable (h : runningFrame s.task = some f)
include h

/-- The PC's move in a running frame, where NEXT comes to the frame's length and where it does not (R178). -/
theorem advance_running : s.advance =
    if s.task.nextOf f + 1 = f.len then
      if s.task.countOf f = 1 then s.mapTask fun t => (t.counted f 0 0).pastBody f
      else s.mapTask fun t => t.counted f 0 (s.task.countOf f - 1)
    else s.mapTask fun t => t.counted f (BitVec.ofNat 4 (s.task.nextOf f + 1)) (s.task.countOf f) := by
  unfold advance Ctx.nextOf Ctx.countOf; rw [h]; dsimp -zeta only
  extract_lets r count next last count' next' s₁
  have hs₁ : s₁ = s.mapTask fun t => t.counted f next' count' := rfl
  by_cases hn : next = f.len
  · have hnext : next' = 0 := if_pos hn
    by_cases hc : count = 1
    · have hcount : count' = 0 := by simp [count', last, hn, hc]
      rw [if_pos hn, if_pos hc, if_pos (by simp [last, hn, hcount]), hs₁, hcount, hnext, mapTask_mapTask]; rfl
    · have hcount : count' = count - 1 := if_pos hn
      have hne : ¬count' = 0#32 := by rw [hcount]; bv_omega
      rw [if_pos hn, if_neg hc, if_neg (by simp [hne]), hs₁, hcount, hnext]
  · have hcount : count' = count := if_neg hn
    have hnext : next' = BitVec.ofNat 4 next := if_neg hn
    rw [if_neg hn, if_neg (by simp [last, hn]), hs₁, hcount, hnext]

/-- In a running frame no register but rc changes (R178). -/
theorem advance_running_sameRegs : SameRegs s s.advance f.rc 0#8 := by
  rw [advance_running h]
  split
  · split
    · exact sameRegs_of_task ⟨_, _, _, _, task_mapTask _ _⟩
    · exact sameRegs_of_task ⟨_, _, _, _, task_mapTask _ _⟩
  · exact sameRegs_of_task ⟨_, _, _, _, task_mapTask _ _⟩

/-- After a body instruction that is not the last, NEXT is the next one's (R178). -/
theorem advance_inBody (hrc : f.rc ≠ 0) (hn : s.task.nextOf f + 1 < f.len) (hlen : f.len ≤ 16) :
    s.advance.task.pc = s.task.pc ∧ s.advance.task.frame = some f
      ∧ (s.advance.task.gr f.rc).val = BitVec.ofNat 64 ((s.task.nextOf f + 1) * 2 ^ 32 + (s.task.countOf f).toNat) := by
  have hnext : (BitVec.ofNat 4 (s.task.nextOf f + 1)).toNat = s.task.nextOf f + 1 := by
    rw [BitVec.toNat_ofNat]; omega
  rw [advance_running h, if_neg hn.ne, task_mapTask, (s.task.counted_keeps ..).1, (s.task.counted_keeps ..).2, Ctx.gr_counted _ hrc, hnext]
  exact ⟨rfl, frame_of_running h, rfl⟩

/-- After the last body instruction COUNT has fallen by one, and the frame goes on or is over (R178). -/
theorem advance_endsIteration (hrc : f.rc ≠ 0) (hn : s.task.nextOf f + 1 = f.len) :
    (s.advance.task.gr f.rc).val = (s.task.countOf f - 1).setWidth 64
      ∧ (s.task.countOf f ≠ 1 → s.advance.task.pc = s.task.pc ∧ s.advance.task.frame = some f)
      ∧ (s.task.countOf f = 1 → s.advance.task.pc = s.task.pc + 4 + BitVec.ofNat 64 (4 * f.len)
          ∧ s.advance.task.frame = none) := by
  rw [advance_running h, if_pos hn]
  split
  next hc =>
    rw [task_mapTask, hc]
    refine ⟨s.task.gr_counted hrc 0 0, fun hne => absurd rfl hne, fun _ => ⟨?_, rfl⟩⟩
    rw [Ctx.pastBody_pc, (s.task.counted_keeps ..).1, BitVec.ofNat_mul]; rfl
  next hc =>
    rw [task_mapTask, (s.task.counted_keeps ..).1, (s.task.counted_keeps ..).2, Ctx.gr_counted _ hrc]
    refine ⟨?_, fun _ => ⟨rfl, frame_of_running h⟩, fun h1 => absurd h1 hc⟩
    rw [show (0 : BitVec 4).toNat = 0 from rfl, Nat.zero_mul, Nat.zero_add, BitVec.ofNat_toNat]

end

/-- Whether in a frame or not, the issuing context alone changes, and counts the instruction (R43). -/
theorem advance_eq_mapTask (s : State) : ∃ c, s.advance = s.mapTask c ∧ (c s.task).retired = s.task.retired + 1 := by
  cases h : runningFrame s.task with
  | none => exact ⟨_, advance_outside h, rfl⟩
  | some f =>
    rw [advance_running h]
    split
    · split
      · exact ⟨_, rfl, rfl⟩
      · exact ⟨_, rfl, rfl⟩
    · exact ⟨_, rfl, rfl⟩

end State
end Sys2Proof.Machine
end

section
/-!
SUPPORT. REP over a body that it captures whole (R178, R179, R181).
-/
namespace Sys2Proof.Machine

/-- A list whose elements all have values. -/
theorem filterMap_of_map_some {α β : Type} {f : α → Option β} {l : List α} {ws : List β} (h : l.map f = ws.map some) :
    l.filterMap f = ws ∧ l.find? (fun a => (f a).isNone) = none := by
  constructor
  · calc l.filterMap f = (l.map f).filterMap id := by rw [List.filterMap_map, Function.id_comp]
      _ = ws := by rw [h, List.filterMap_map]; simp
  · rw [List.find?_eq_none]
    intro a ha
    have hm : f a ∈ ws.map some := h ▸ List.mem_map_of_mem ha
    obtain ⟨w, -, e⟩ := List.mem_map.1 hm
    simp [← e]

/-- The frame that REP opens over the body words `ws` (R178). -/
def repFrame (ws : List (BitVec 32)) (c : BitVec 6) (l d a b : BitVec 4) : Frame :=
  { words := ws, rc := c.toNat, len := l.toNat + 1, sd := d.toInt, sa := a.toInt, sb := b.toInt }

/-- REP where no other context runs a frame, and the whole body is of the code section and allowed (R178, R179, R181). -/
theorem execRep_completes {s : State} {c : BitVec 6} {l d a b : BitVec 4} {ws : List (BitVec 32)} {count : Nat}
    (hbusy : s.busyG c = false)
    (hothers : s.here.ctxs.all (fun (x, t) => x == s.ctx || !t.occupied || (State.runningFrame t).isNone) = true)
    (hbody : (List.range (l.toNat + 1)).map (fun i => s.codeWord s.cur (s.task.pc + 4 + 4 * BitVec.ofNat 64 i).toNat) = ws.map some)
    (hcount : ((s.g c).val.extractLsb' 0 32).toNat = count) (hnext : ((s.g c).val.extractLsb' 32 4).toNat < l.toNat + 1)
    (hallowed : ws.all (fun w => bodyAllowed w && (decode w).isSome && !namesRc (repFrame ws c l d a b) count w) = true) :
    execRep c l d a b s = .next (s.bump.mapTask fun t =>
      if count = 0 then { t with pc := t.pc + 4 + 4 * BitVec.ofNat 64 (l.toNat + 1), retired := t.retired + 1, frame := none }
      else { t with frame := some (repFrame ws c l d a b), retired := if t.frame = none then t.retired + 1 else t.retired }) := by
  have hfree : (s.here.ctxs.any fun (x, t) => x != s.ctx && t.occupied && (State.runningFrame t).isSome) = false := by
    rw [← Bool.not_true, ← hothers, List.not_all_eq_any_not]
    simp [bne]
  have hlegal : (ws.any fun w => !bodyAllowed w || (decode w).isNone || namesRc (repFrame ws c l d a b) count w) = false := by
    rw [← Bool.not_true, ← hallowed, List.not_all_eq_any_not]
    simp
  obtain ⟨hws, hfind⟩ := filterMap_of_map_some (f := fun p => s.codeWord s.cur p.toNat)
    (l := (List.range (l.toNat + 1)).map fun i => s.task.pc + 4 + 4 * BitVec.ofNat 64 i) (by rw [List.map_map]; exact hbody)
  rw [execRep, if_neg (by exact ne_true_of_eq_false hbusy), if_neg (by exact ne_true_of_eq_false hfree)]
  dsimp only
  rw [hws, hfind, hcount]
  dsimp only
  rw [if_neg (by exact ne_true_of_eq_false (Bool.or_eq_false_iff.2 ⟨hlegal, decide_eq_false (Nat.not_le.2 hnext)⟩))]
  split
  · rfl
  · simp only [Option.isSome_iff_ne_none, ite_not]; rfl

end Sys2Proof.Machine
end

section
/-!
CERTIFICATE. Repeat frames (R43, R178 to R181, R208).
-/
namespace Sys2Proof.Machine

/-- Settles O9: REP by what it captures, staggering by the size of each register space, and retiring by the PC's move outside a frame and
in one. -/
theorem repeats : Obligations.Repeats := by
  unfold Obligations.Repeats
  refine ⟨fun s c l d a b ws => ?_, fun n k hn => ?_, fun s => ?_⟩
  · intro count len f hbusy hothers hnext hbody hallowed
    exact exec_rep.trans (execRep_completes hbusy hothers hbody (by rw [extract_toNat, Nat.pow_zero, Nat.div_one])
      (by rw [extract_toNat]; exact hnext) hallowed)
  · rw [staggerField_g, staggerField_tile]
    refine ⟨rfl, by omega, by omega, fun hv => ?_, fun hv => staggerField_v_other hv k, by omega⟩
    rw [staggerField_v hv]; omega
  · obtain ⟨c, hc, hretired⟩ := s.advance_eq_mapTask
    refine ⟨by rw [hc]; exact s.mapTask_sameOthers c, by rw [hc, State.task_mapTask, hretired], fun h => ?_, fun f h hrc _ => ?_⟩
    · rw [State.advance_outside h, State.task_mapTask]
      exact ⟨State.sameRegs_of_task ⟨{}, _, _, _, State.task_mapTask _ _⟩, rfl, rfl⟩
    · exact ⟨State.advance_running_sameRegs h, fun hn hlen => State.advance_inBody h hrc hn hlen,
        fun hn => State.advance_endsIteration h hrc hn⟩

end Sys2Proof.Machine
end

section
/-!
SUPPORT. What an integer instruction of one or two registers completes with (R188), and the results of R189 and R190 as numbers.
-/
namespace Sys2Proof.Machine

section
variable {s : State} {d a b : BitVec 6} {v : Word}

/-- An operation on two registers that await nothing (R188). -/
theorem aluOp_gives {f : Word → Word → Word} (ha : s.busyG a = false) (hb : s.busyG b = false)
    (h : f (s.g a).val (s.g b).val = v) : aluOp f d a b s = wrote s d v ((s.g a).taint ||| (s.g b).taint) := by
  rw [aluOp, if_neg (by simp [ha, hb]), h]; rfl

/-- An operation on one register that awaits nothing (R188). -/
theorem aluOp1_gives {f : Word → Word} (ha : s.busyG a = false) (h : f (s.g a).val = v) :
    aluOp1 f d a s = wrote s d v (s.g a).taint := by
  rw [aluOp1, if_neg (by simp [ha]), h]; rfl

end

theorem flag_decide (p : Prop) [Decidable p] : flag (decide p) = if p then 1 else 0 := by simp [flag]

section
variable (x y : Word) (n : Nat)

theorem shiftCount_eq : shiftCount y = y.toNat % 64 := by rw [shiftCount, extract_toNat, Nat.pow_zero, Nat.div_one]; rfl

theorem sub_eq_ofInt : x - y = BitVec.ofInt 64 (x.toInt - y.toInt) := by
  rw [Int.sub_eq_add_neg, BitVec.ofInt_add, BitVec.ofInt_neg, BitVec.ofInt_toInt, BitVec.ofInt_toInt, BitVec.sub_eq_add_neg]

theorem shiftLeft_eq_ofNat : x <<< n = BitVec.ofNat 64 (x.toNat * 2 ^ n) := by
  apply BitVec.eq_of_toNat_eq; rw [BitVec.toNat_shiftLeft, Nat.shiftLeft_eq, BitVec.toNat_ofNat]

theorem ushiftRight_eq_ofNat : x >>> n = BitVec.ofNat 64 (x.toNat / 2 ^ n) := by
  apply BitVec.eq_of_toNat_eq
  rw [BitVec.toNat_ushiftRight, Nat.shiftRight_eq_div_pow, BitVec.toNat_ofNat,
    Nat.mod_eq_of_lt ((Nat.div_le_self ..).trans_lt x.isLt)]

theorem sshiftRight_eq_ofInt : x.sshiftRight n = BitVec.ofInt 64 (x.toInt / 2 ^ n) := by
  rw [BitVec.sshiftRight_eq, Int.shiftRight_eq_div_pow, Int.natCast_pow]; rfl

theorem rotateRight_eq : x.rotateRight (shiftCount y) = x >>> (y.toNat % 64) ||| x <<< (64 - y.toNat % 64) := by
  rw [BitVec.rotateRight_def, shiftCount_eq, Nat.mod_mod]

theorem add_sext_eq_ofInt {w : Nat} (i : BitVec w) : x + sext64 i = BitVec.ofInt 64 (x.toInt + i.toInt) := by
  rw [BitVec.ofInt_add, BitVec.ofInt_toInt]; rfl

end

theorem toInt_sext64 {w : Nat} (i : BitVec w) (hw : w ≤ 64) : (sext64 i).toInt = i.toInt :=
  BitVec.toInt_signExtend_of_le hw

/-! Counts (R189). -/

/-- `n` counts the zero bits of `x` before the first one bit in the order of `bit`, which reads its 64 bits (R189). -/
def CountsZeros (x : Word) (bit : Nat → Bool) (n : Nat) : Prop :=
  n ≤ 64 ∧ (n = 64 ↔ x = 0) ∧ (∀ i, i < n → bit i = false) ∧ (n < 64 → bit n = true)

/-- The word of a count is the count. -/
theorem CountsZeros.word {x : Word} {bit : Nat → Bool} {n : Nat} (h : CountsZeros x bit n) : let v := BitVec.ofNat 64 n
    v.toNat ≤ 64 ∧ (v = 64 ↔ x = 0) ∧ (∀ i, i < v.toNat → bit i = false) ∧ (v.toNat < 64 → bit v.toNat = true) := by
  intro v
  have hv : v.toNat = n := by rw [BitVec.toNat_ofNat]; have := h.1; omega
  have h64 : v = 64 ↔ n = 64 := by rw [← BitVec.toNat_inj, hv]; rfl
  rw [h64, hv]; exact h

section
variable (x : Word)

theorem leadingZeros_counts : CountsZeros x x.getMsbD (leadingZeros x) := by
  by_cases hx : x = 0
  · subst hx; simp [leadingZeros, CountsZeros]
  · have hn : x.toNat ≠ 0 := fun h => hx (BitVec.eq_of_toNat_eq h)
    have hlog : x.toNat.log2 < 64 := (Nat.log2_lt hn).2 x.isLt
    rw [leadingZeros, if_neg hx]
    refine ⟨by omega, ⟨by omega, fun h => absurd h hx⟩, fun i hi => ?_, fun _ => ?_⟩
    · have htop : x.toNat < 2 ^ (63 - i) :=
        Nat.lt_log2_self.trans_le (Nat.pow_le_pow_right Nat.two_pos (by omega))
      rw [BitVec.getMsbD_eq_getLsbD, BitVec.getLsbD, Nat.testBit_lt_two_pow htop, Bool.and_false]
    · rw [BitVec.getMsbD_eq_getLsbD, BitVec.getLsbD, show 64 - 1 - (63 - x.toNat.log2) = x.toNat.log2 by omega,
        Nat.testBit_log2 hn, decide_eq_true (by omega), Bool.and_true]

theorem trailingZeros_counts : CountsZeros x x.getLsbD (trailingZeros x) := by
  unfold trailingZeros
  cases h : (List.range 64).find? fun i => x.getLsbD i with
  | none =>
    have hzero : ∀ i < 64, x.getLsbD i = false := by simpa using List.find?_range_eq_none.1 h
    have hx : x = 0 := BitVec.eq_of_getLsbD_eq fun i hi => by rw [hzero i hi]; simp
    exact ⟨le_rfl, ⟨fun _ => hx, fun _ => rfl⟩, hzero, fun hlt => absurd hlt (lt_irrefl _)⟩
  | some n =>
    obtain ⟨hone, hn, hzero⟩ := List.find?_range_eq_some.1 h
    have hlt : n < 64 := List.mem_range.1 hn
    have hx : x ≠ 0 := by rintro rfl; simp at hone
    exact ⟨hlt.le, ⟨fun e => absurd e hlt.ne, fun e => absurd e hx⟩, by simpa using hzero, fun _ => hone⟩

theorem onesCount_eq_sum : onesCount x = ((List.range 64).map fun i => if x.getLsbD i then 1 else 0).sum := by
  simp [onesCount, List.sum_map_ite]

theorem onesCount_word_toNat : (BitVec.ofNat 64 (onesCount x)).toNat = onesCount x := by
  have h : onesCount x ≤ 64 := (List.length_filter_le ..).trans_eq List.length_range
  rw [BitVec.toNat_ofNat]; omega

end

/-! Bytes (R189). -/

/-- Byte `i` of a number of little-endian bytes. -/
theorem ofBytes_byte (bs : List Byte) (i : Nat) : ofBytes bs / 2 ^ (8 * i) % 2 ^ 8 = (bs.getD i 0).toNat := by
  induction bs generalizing i with
  | nil => simp [ofBytes]
  | cons b bs ih =>
    have hb := b.isLt
    cases i with
    | zero => simp only [ofBytes, List.getD_cons_zero]; omega
    | succ i =>
      rw [List.getD_cons_succ, ← ih i, ofBytes, Nat.mul_succ, Nat.pow_add', ← Nat.div_div_eq_div_mul]
      congr 2; omega

/-- Byte `i` of a number. -/
theorem bytesOf_getD (k n i : Nat) (hi : i < k) : (bytesOf k n).getD i 0 = BitVec.ofNat 8 (n / 2 ^ (8 * i)) := by
  induction k generalizing n i with
  | zero => omega
  | succ k ih =>
    cases i with
    | zero => simp [bytesOf]
    | succ i =>
      rw [bytesOf, List.getD_cons_succ, ih _ i (by omega), Nat.mul_succ, Nat.pow_add', Nat.div_div_eq_div_mul]

theorem ofBytes_lt (bs : List Byte) : ofBytes bs < 2 ^ (8 * bs.length) := by
  induction bs with
  | nil => simp [ofBytes]
  | cons b bs ih =>
    have hb := b.isLt
    rw [ofBytes, List.length_cons, Nat.mul_succ, Nat.pow_add]; omega

/-- The bytes of a word in reverse order (R189). -/
theorem byteSwap_byte (x : Word) {i : Nat} (hi : i < 8) :
    (byteSwap x).extractLsb' (8 * i) 8 = x.extractLsb' (8 * (7 - i)) 8 := by
  have hlen : (bytesOf 8 x.toNat).length = 8 := length_bytesOf ..
  have hrev : (bytesOf 8 x.toNat).reverse.getD i 0 = (bytesOf 8 x.toNat).getD (7 - i) 0 := by
    rw [List.getD_reverse i (hlen ▸ hi), hlen]
  have hlt := ofBytes_lt (bytesOf 8 x.toNat).reverse
  rw [List.length_reverse, hlen] at hlt
  apply BitVec.eq_of_toNat_eq
  rw [extract_toNat, extract_toNat, byteSwap, BitVec.toNat_ofNat, Nat.mod_eq_of_lt hlt, ofBytes_byte, hrev,
    bytesOf_getD _ _ _ (by omega), BitVec.toNat_ofNat]

end Sys2Proof.Machine
end

section
/-!
CERTIFICATE. Integer instructions (R188 to R190).
-/
namespace Sys2Proof.Machine

/-- Settles O1: each instruction is an operation of the ALU on registers that await nothing, and its word is the number, the count or the
bytes of R189 and R190. -/
theorem integerResults : Obligations.IntegerResults := by
  unfold Obligations.IntegerResults
  refine ⟨fun s d a b ha hb => ?_, fun s d a ha => ?_, fun s d a n i k ha => ?_⟩
  · intro x y gives
    have alu {i} {f : Word → Word → Word} {v} (hi : exec i s = aluOp f d a b s) (h : f x y = v) : gives i v :=
      hi.trans (aluOp_gives ha hb h)
    exact ⟨alu exec_add rfl, alu exec_sub (sub_eq_ofInt x y), alu exec_and rfl, alu exec_or rfl,
      alu exec_xor rfl, alu exec_andn rfl,
      alu exec_sll (by rw [shiftCount_eq, shiftLeft_eq_ofNat]), alu exec_srl (by rw [shiftCount_eq, ushiftRight_eq_ofNat]),
      alu exec_sra (by rw [shiftCount_eq, sshiftRight_eq_ofInt]), alu exec_ror (rotateRight_eq x y),
      alu exec_min (by simp only [BitVec.slt_iff_toInt_lt]), alu exec_max (by simp only [BitVec.slt_iff_toInt_lt]),
      alu exec_minu (by simp only [BitVec.ult_iff_toNat_lt]), alu exec_maxu (by simp only [BitVec.ult_iff_toNat_lt]),
      alu exec_seq (flag_decide _), alu exec_sne (by simp [flag, bne]),
      alu exec_slt (by rw [BitVec.slt_eq_decide, flag_decide]), alu exec_sltu (flag_decide _)⟩
  · intro x gives
    have alu {i} {f : Word → Word} {p : Word → Prop} (hi : exec i s = aluOp1 f d a s) (h : p (f x)) : gives i p :=
      ⟨f x, hi.trans (aluOp1_gives ha rfl), h⟩
    exact ⟨alu exec_clz (leadingZeros_counts x).word, alu exec_ctz (trailingZeros_counts x).word,
      alu exec_popc ((onesCount_word_toNat x).trans (onesCount_eq_sum x)), alu exec_bswap fun _ hi => byteSwap_byte x hi⟩
  · intro x gives
    have alu {i} {f : Word → Word} {v} (hi : exec i s = aluOp1 f d a s) (h : f x = v) : gives i v :=
      hi.trans (aluOp1_gives ha h)
    exact ⟨alu exec_addi (add_sext_eq_ofInt x i), alu exec_andi rfl, alu exec_ori rfl, alu exec_xori rfl,
      alu exec_slli (shiftLeft_eq_ofNat x _), alu exec_srli (ushiftRight_eq_ofNat x _), alu exec_srai (sshiftRight_eq_ofInt x _),
      alu exec_slti (by rw [BitVec.slt_eq_decide, flag_decide, toInt_sext64 k (by omega)]),
      alu exec_sltui (by rw [BitVec.ult_eq_decide, flag_decide, BitVec.toNat_setWidth_of_le (by omega)])⟩

end Sys2Proof.Machine
end

section
/-!
SUPPORT. Products, quotients and remainders as numbers (R191).
-/
namespace Sys2Proof.Machine

section
variable (x y : Word)

theorem mulh_eq_ofInt :
    ((x.signExtend 128 * y.signExtend 128) >>> 64).setWidth 64 = BitVec.ofInt 64 (x.toInt * y.toInt / 2 ^ 64) := by
  have hmul : x.signExtend 128 * y.signExtend 128 = BitVec.ofInt 128 (x.toInt * y.toInt) := (BitVec.ofInt_mul ..).symm
  apply BitVec.eq_of_toNat_eq
  rw [hmul, BitVec.toNat_setWidth, BitVec.toNat_ushiftRight, Nat.shiftRight_eq_div_pow, BitVec.toNat_ofInt, BitVec.toNat_ofInt]
  omega

theorem mulhu_eq_ofNat :
    ((x.setWidth 128 * y.setWidth 128) >>> 64).setWidth 64 = BitVec.ofNat 64 (x.toNat * y.toNat / 2 ^ 64) := by
  have hlt : x.toNat * y.toNat < 2 ^ 64 * 2 ^ 64 := Nat.mul_lt_mul'' x.isLt y.isLt
  apply BitVec.eq_of_toNat_eq
  rw [BitVec.toNat_setWidth, BitVec.toNat_ushiftRight, BitVec.toNat_mul, BitVec.toNat_setWidth_of_le (by omega),
    BitVec.toNat_setWidth_of_le (by omega), Nat.shiftRight_eq_div_pow, BitVec.toNat_ofNat]
  omega

/-- The quotient that does not fit wraps to the dividend (R191). -/
theorem divSigned_eq : divSigned x y = if y = 0 then BitVec.ofInt 64 (-1)
    else if x = 0x8000000000000000#64 ∧ y = BitVec.ofInt 64 (-1) then x else BitVec.ofInt 64 (x.toInt.tdiv y.toInt) := by
  rw [divSigned]
  split
  · rfl
  · split
    next h => rw [h.1, h.2]; rfl
    · rfl

/-- What the quotient leaves of the dividend (R191). -/
theorem sub_mul_divSigned : (if y = 0 then x else x - y * divSigned x y) = if y = 0 then x
    else if x = 0x8000000000000000#64 ∧ y = BitVec.ofInt 64 (-1) then 0 else BitVec.ofInt 64 (x.toInt.tmod y.toInt) := by
  split
  · rfl
  next hy =>
    rw [divSigned_eq, if_neg hy]
    split
    next h => rw [h.1, h.2]; rfl
    · rw [Int.tmod_def, Int.sub_eq_add_neg, BitVec.ofInt_add, BitVec.ofInt_neg, BitVec.ofInt_mul, BitVec.ofInt_toInt,
        BitVec.ofInt_toInt, BitVec.sub_eq_add_neg]

theorem udiv_eq_ofNat : x / y = BitVec.ofNat 64 (x.toNat / y.toNat) := by
  apply BitVec.eq_of_toNat_eq
  rw [BitVec.toNat_udiv, BitVec.toNat_ofNat, Nat.mod_eq_of_lt ((Nat.div_le_self ..).trans_lt x.isLt)]

theorem sub_mul_udiv : x - y * (x / y) = BitVec.ofNat 64 (x.toNat % y.toNat) := by
  rw [BitVec.sub_eq_iff_eq_add]
  calc x = BitVec.ofNat 64 (x.toNat % y.toNat + y.toNat * (x.toNat / y.toNat)) := by
        rw [Nat.mod_add_div, BitVec.ofNat_toNat, BitVec.setWidth_eq]
    _ = BitVec.ofNat 64 (x.toNat % y.toNat) + y * (x / y) := by
        rw [BitVec.ofNat_add, BitVec.ofNat_mul, ← udiv_eq_ofNat, BitVec.ofNat_toNat, BitVec.setWidth_eq]

end

end Sys2Proof.Machine
end

section
/-!
CERTIFICATE. Multiplication and division (R191).
-/
namespace Sys2Proof.Machine

/-- Settles O2: each instruction is an operation of the ALU on registers that await nothing, and its word is the number of R191. -/
theorem multiplyDivideResults : Obligations.MultiplyDivideResults := by
  unfold Obligations.MultiplyDivideResults
  intro s d a b ha hb x y ones gives
  have alu {i} {f : Word → Word → Word} {v} (hi : exec i s = aluOp f d a b s) (h : f x y = v) : gives i v :=
    hi.trans (aluOp_gives ha hb h)
  exact ⟨alu exec_mul rfl, alu exec_mulh (mulh_eq_ofInt x y), alu exec_mulhu (mulhu_eq_ofNat x y), alu exec_div (divSigned_eq x y),
    alu exec_divu (by rw [udiv_eq_ofNat]; rfl), alu exec_rem (sub_mul_divSigned x y), alu exec_remu (by rw [sub_mul_udiv])⟩

end Sys2Proof.Machine
end

section
/-!
CERTIFICATE. The taint instructions (R81, R201 to R204).
-/
namespace Sys2Proof.Machine

/-- Settles O6: TMRG and TCLR wait for the registers that they name, and put a taint beside what gd holds. -/
theorem taintMergeClear : Obligations.TaintMergeClear := by
  unfold Obligations.TaintMergeClear
  intro s d a put
  refine ⟨decode_encode (.tmrg d a) rfl _ rfl, decode_encode (.tclr d) rfl _ rfl, fun hd ha => ?_, fun h => ?_, fun hd => ?_,
    fun hd => ?_⟩
  · rw [exec_tmrg, execTmrg, if_neg (by simp [hd, ha])]; rfl
  · rw [exec_tmrg, execTmrg, if_pos (by simp [h])]; rfl
  · rw [exec_tclr, execTclr, if_neg (by simp [hd])]; rfl
  · rw [exec_tclr, execTclr, if_pos hd]; rfl

/-- Settles O7: TGET writes the mask without waiting, and TWAIT turns on the slots that ga names. -/
theorem taintReads : Obligations.TaintReads := by
  unfold Obligations.TaintReads
  intro s d a
  refine ⟨decode_encode (.tget d a) rfl _ rfl, ?_, fun ha hslots => ?_, fun ha hslots => ?_⟩
  · rw [exec_tget, execTget, BitVec.ofNat_toNat]; rfl
  · rw [exec_twait, execTwait, if_neg (by simp [ha, hslots])]; rfl
  · rw [exec_twait, execTwait, if_pos (Bool.or_eq_true_iff.2 (.inr (bne_iff_ne.2 hslots)))]; rfl

end Sys2Proof.Machine
end

section
/-!
SUPPORT. The capability instructions (R192 to R199): what they complete with, and the bounds of CBOUND's result.
-/
namespace Sys2Proof.Machine

section
variable {s : State} {d a b : BitVec 6} {r : Reg}

/-- A capability operation on two registers that await nothing (R192). -/
theorem capOp_gives {f : Reg → Reg → Reg} (ha : s.busyG a = false) (hb : s.busyG b = false) (h : f (s.g a) (s.g b) = r) :
    capOp f d a b s = wroteReg s d { r with taint := (s.g a).taint ||| (s.g b).taint } := by
  rw [capOp, if_neg (by simp [ha, hb]), h]; rfl

/-- A capability operation on one register that awaits nothing (R192). -/
theorem capOp1_gives {f : Reg → Reg} (ha : s.busyG a = false) (h : f (s.g a) = r) :
    capOp1 f d a s = wroteReg s d { r with taint := (s.g a).taint } := by
  rw [capOp1, if_neg (by simp [ha]), h]; rfl

end

/-! Descriptors (R63, R195 to R198). -/

theorem reDesc_capOtype (d : Word) (p : BitVec 12) : reDesc d p (capOtype d) = p ++ d.extractLsb' 0 52 := by
  apply BitVec.eq_of_toNat_eq
  simp only [reDesc, capOtype, toNat_append_add, extract_toNat]
  omega

theorem perms_otype_word (d : Word) :
    (0 : BitVec 40) ++ capOtype d ++ capPerms d = BitVec.ofNat 64 ((capOtype d).toNat * 4096 + (capPerms d).toNat) := by
  apply BitVec.eq_of_toNat_eq
  have hzero : (0 : BitVec 40).toNat = 0 := rfl
  rw [toNat_append_add, toNat_append_add, BitVec.toNat_ofNat]
  omega

/-- The length that CLEN reads, where the bounds do not cross (R198). -/
theorem capLen_eq {c : Reg} (h : (capBounds c.desc c.val).1 ≤ (capBounds c.desc c.val).2) :
    capLen c = if (capBounds c.desc c.val).2 - (capBounds c.desc c.val).1 < 2 ^ 64
      then BitVec.ofNat 64 ((capBounds c.desc c.val).2 - (capBounds c.desc c.val).1) else BitVec.allOnes 64 := by
  rw [capLen]; dsimp only
  rw [← Int.ofNat_sub h, BitVec.ofInt_natCast]
  split
  next h => rw [if_neg h.not_gt]
  next h => rw [if_pos (not_le.1 h)]

/-- The permissions of one descriptor are among those of another (R199). -/
theorem perms_subset_iff (d e : Word) :
    capPerms d &&& ~~~capPerms e = 0 ↔ ∀ i : Fin 12, hasPerm d i = true → hasPerm e i = true := by
  constructor
  · intro h i hi
    have hbit := congrArg (BitVec.getLsbD · i) h
    simpa [show (capPerms d).getLsbD i = true from hi, hasPerm] using hbit
  · intro h
    refine BitVec.eq_of_getLsbD_eq fun i hi => ?_
    have hbit := h ⟨i, hi⟩
    simp only [hasPerm] at hbit
    simpa [hi] using hbit

/-- What CSUB tests (R199). -/
theorem capSubset_iff (c x : Reg) : capSubset c x = true ↔
    c.tag = true ∧ x.tag = true ∧ capOtype c.desc = capOtype x.desc
      ∧ (∀ i : Fin 12, hasPerm x.desc i = true → hasPerm c.desc i = true)
      ∧ (capBounds c.desc c.val).1 ≤ (capBounds x.desc x.val).1 ∧ (capBounds x.desc x.val).2 ≤ (capBounds c.desc c.val).2 := by
  rw [← perms_subset_iff]
  simp [capSubset, and_assoc]

/-- When CSEAL keeps the tag (R196). -/
theorem csealReg_tag_iff (c x : Reg) : (csealReg c x).tag = true ↔
    c.tag = true ∧ capOtype c.desc = 0 ∧ x.tag = true ∧ capOtype x.desc = 0 ∧ hasPerm x.desc pSEAL = true
      ∧ (capBounds x.desc x.val).1 ≤ x.val.toNat ∧ x.val.toNat < (capBounds x.desc x.val).2
      ∧ (x.val.toNat = 1 ∨ (0x100 ≤ x.val.toNat ∧ x.val.toNat ≤ 0xFFF)) := by
  simp [csealReg, and_assoc]

/-- When CUNSEAL keeps the tag (R197). -/
theorem cunsealReg_tag_iff (c x : Reg) : (cunsealReg c x).tag = true ↔
    c.tag = true ∧ capOtype c.desc ≠ 0 ∧ x.tag = true ∧ capOtype x.desc = 0 ∧ hasPerm x.desc pUNSEAL = true
      ∧ x.val.toNat = (capOtype c.desc).toNat ∧ (capBounds x.desc x.val).1 ≤ x.val.toNat
      ∧ x.val.toNat < (capBounds x.desc x.val).2 := by
  have hval : x.val = (capOtype c.desc).setWidth 64 ↔ x.val.toNat = (capOtype c.desc).toNat := by
    rw [← BitVec.toNat_inj, BitVec.toNat_setWidth_of_le (by decide)]
  rw [← hval]
  simp [cunsealReg, and_assoc]

/-- A register whose tag tells whether `p` holds. -/
theorem Reg.eq_of_tag_iff {r : Reg} {p : Prop} [Decidable p] (h : r.tag = true ↔ p) : r = { r with tag := decide p } := by
  rw [show decide p = r.tag from Bool.eq_iff_iff.2 (by rw [decide_eq_true_iff, h])]

/-! The fields of a descriptor that is made of them (R63). -/

section
variable (p o : BitVec 12) {e : Nat} (b t : Nat)

@[simp] theorem capPerms_mkDesc : capPerms (mkDesc p o e b t) = p := by
  apply BitVec.eq_of_toNat_eq
  simp only [capPerms, mkDesc, toNat_append_add, extract_toNat, BitVec.toNat_ofNat]
  omega

@[simp] theorem capOtype_mkDesc : capOtype (mkDesc p o e b t) = o := by
  apply BitVec.eq_of_toNat_eq
  simp only [capOtype, mkDesc, toNat_append_add, extract_toNat, BitVec.toNat_ofNat]
  omega

theorem capE_mkDesc (he : e < 64) : capE (mkDesc p o e b t) = e := by
  simp only [capE, mkDesc, toNat_append_add, extract_toNat, BitVec.toNat_ofNat]
  omega

@[simp] theorem capB_mkDesc : capB (mkDesc p o e b t) = b % 2 ^ 17 := by
  simp only [capB, mkDesc, toNat_append_add, extract_toNat, BitVec.toNat_ofNat]
  omega

@[simp] theorem capT_mkDesc : capT (mkDesc p o e b t) = t % 2 ^ 17 := by
  simp only [capT, mkDesc, toNat_append_add, extract_toNat, BitVec.toNat_ofNat]
  omega

end

/-! The bounds of a rounded request (R65, R194). -/

/-- The correction of R65: a granule number `n`, not below the cursor's `k` and less than 2^17 − 2^12 above it, is found again from its
low 17 bits. -/
theorem granule_of_low {k n : Nat} (hle : k ≤ n) (hgap : n - k ≤ 0x1EFFF) :
    (((k / 2 ^ 17 : Nat) : Int) + (if n % 2 ^ 17 < (k % 2 ^ 17 + 2 ^ 17 - 0x1000) % 2 ^ 17 then 1 else 0)
        - (if k % 2 ^ 17 < (k % 2 ^ 17 + 2 ^ 17 - 0x1000) % 2 ^ 17 then 1 else 0)) * 2 ^ 17 + ((n % 2 ^ 17 : Nat) : Int) = n := by
  split <;> split <;> omega

/-- The bound that the correction makes of a granule of 2^e bytes (R65). -/
theorem bound_of_low {k n e m : Nat} (hle : k ≤ n) (hgap : n - k ≤ 0x1EFFF) (hlt : n * 2 ^ e < 2 ^ m) :
    (((((k / 2 ^ 17 : Nat) : Int) + (if n % 2 ^ 17 < (k % 2 ^ 17 + 2 ^ 17 - 0x1000) % 2 ^ 17 then 1 else 0)
        - (if k % 2 ^ 17 < (k % 2 ^ 17 + 2 ^ 17 - 0x1000) % 2 ^ 17 then 1 else 0)) * 2 ^ (e + 17)
        + ((n % 2 ^ 17 : Nat) : Int) * 2 ^ e) % 2 ^ m).toNat = n * 2 ^ e := by
  rw [Int.pow_add, Int.mul_comm (2 ^ e), ← Int.mul_assoc, ← Int.add_mul, granule_of_low hle hgap,
    Int.emod_eq_of_lt (by positivity) (by exact_mod_cast hlt)]
  exact_mod_cast Int.toNat_natCast (n * 2 ^ e)

/-- A top has 65 bits (R65). -/
theorem capBounds_snd_lt (d a : Word) : (capBounds d a).2 < 2 ^ 65 := by
  unfold capBounds
  dsimp only
  split
  · decide
  · split <;> dsimp only <;> omega

/-- Bounds of whole granules decode to themselves at a cursor in the first of them (R65), but for those that the exponent 47 takes as the
whole space. -/
theorem capBounds_rounded (p o : BitVec 12) {v : Word} {e n : Nat} (he : e ≤ 47) (hle : v.toNat / 2 ^ e ≤ n)
    (hgap : n - v.toNat / 2 ^ e ≤ 0x1EFFF) (htop : n * 2 ^ e < 2 ^ 65) (hspace : e = 47 → v.toNat / 2 ^ e ≠ n) :
    capBounds (mkDesc p o e (v.toNat / 2 ^ e % 2 ^ 17) (n % 2 ^ 17)) v = (v.toNat / 2 ^ e * 2 ^ e, n * 2 ^ e) := by
  have hv := v.isLt
  have hbase : v.toNat / 2 ^ e * 2 ^ e < 2 ^ 64 := (Nat.div_mul_le_self ..).trans_lt hv
  have hhi : (if e + 17 = 64 then (0 : Int) else ((v.toNat / 2 ^ (e + 17) : Nat) : Int)) = ((v.toNat / 2 ^ e / 2 ^ 17 : Nat) : Int) := by
    rw [Nat.div_div_eq_div_mul, ← Nat.pow_add]
    split
    next h => rw [h, Nat.div_eq_of_lt hv]; rfl
    · rfl
  generalize hk : v.toNat / 2 ^ e = k at *
  have hlow : (e = 47 && k % 2 ^ 17 = n % 2 ^ 17 : Bool) = false := by
    simp only [Bool.and_eq_false_iff, decide_eq_false_iff_not]; omega
  simp only [capBounds, capE_mkDesc p o _ _ (show e < 64 by omega), capB_mkDesc, capT_mkDesc, Nat.mod_mod, hk, hhi, hlow,
    bound_of_low (le_refl k) (by omega) hbase, bound_of_low hle hgap htop]
  rw [if_neg (by omega), if_neg Bool.false_ne_true]

/-! CBOUND's choice of an exponent, and its result (R194). -/

/-- The exponent is at most 47, and at every smaller one the request has too many granules for the bounds (R194). -/
theorem boundE_spec (lo hi : Nat) : boundE lo hi ≤ 47
    ∧ ∀ e, e < boundE lo hi → 0x1EFFF < (hi + 2 ^ e - 1) / 2 ^ e - lo / 2 ^ e := by
  have fine {e} (h : (!decide ((hi + 2 ^ e - 1) / 2 ^ e - lo / 2 ^ e ≤ 0x1EFFF)) = true) :
      0x1EFFF < (hi + 2 ^ e - 1) / 2 ^ e - lo / 2 ^ e := by
    rwa [Bool.not_eq_true', decide_eq_false_iff_not, Nat.not_le] at h
  unfold boundE
  cases h : (List.range 47).find? fun e => (hi + 2 ^ e - 1) / 2 ^ e - lo / 2 ^ e ≤ 0x1EFFF with
  | none => exact ⟨le_rfl, fun e he => fine (List.find?_range_eq_none.1 h e he)⟩
  | some n =>
    obtain ⟨-, hn, hmin⟩ := List.find?_range_eq_some.1 h
    exact ⟨(List.mem_range.1 hn).le, fun e he => fine (hmin e he)⟩

/-- `r` grants no more than `c`, and the narrowest rounding outward of `len` bytes at the cursor: to granules of 2^e bytes, finer ones
being too many (R194). -/
def NarrowsTo (c : Reg) (len : Nat) (r : Reg) (e : Nat) : Prop :=
  capPerms r.desc = capPerms c.desc ∧ capOtype r.desc = capOtype c.desc ∧ e ≤ 47 ∧ capE r.desc = e
    ∧ (r.tag = true → c.tag = true ∧ capOtype c.desc = 0
        ∧ (capBounds r.desc r.val).1 = c.val.toNat / 2 ^ e * 2 ^ e
        ∧ (capBounds r.desc r.val).2 = (c.val.toNat + len + 2 ^ e - 1) / 2 ^ e * 2 ^ e
        ∧ (capBounds c.desc c.val).1 ≤ (capBounds r.desc r.val).1
        ∧ (capBounds r.desc r.val).2 ≤ (capBounds c.desc c.val).2)
    ∧ ∀ e', e' < e → 0x1EFFF < (c.val.toNat + len + 2 ^ e' - 1) / 2 ^ e' - c.val.toNat / 2 ^ e'

theorem cboundReg_narrows (c : Reg) (len : Nat) :
    NarrowsTo c len (cboundReg c len) (boundE c.val.toNat (c.val.toNat + len)) := by
  obtain ⟨he, hmin⟩ := boundE_spec c.val.toNat (c.val.toNat + len)
  unfold cboundReg; dsimp only
  generalize boundE c.val.toNat (c.val.toNat + len) = e at *
  refine ⟨capPerms_mkDesc .., capOtype_mkDesc .., he, capE_mkDesc _ _ _ _ (by omega), fun hr => ?_, hmin⟩
  simp only [Bool.and_eq_true, decide_eq_true_eq, beq_iff_eq] at hr
  obtain ⟨⟨⟨⟨htag, hotype⟩, hgap⟩, hlo⟩, hhi⟩ := hr
  have hpos : 0 < 2 ^ e := Nat.two_pow_pos e
  have hle : c.val.toNat / 2 ^ e ≤ (c.val.toNat + len + 2 ^ e - 1) / 2 ^ e := Nat.div_le_div_right (by omega)
  have hspace : e = 47 → c.val.toNat / 2 ^ e ≠ (c.val.toNat + len + 2 ^ e - 1) / 2 ^ e := by
    rintro rfl
    have hlen := hmin 0 (by omega)
    omega
  have hbounds := capBounds_rounded (capPerms c.desc) (capOtype c.desc) he hle hgap (hhi.trans_lt (capBounds_snd_lt ..)) hspace
  exact ⟨htag, hotype, by rw [hbounds], by rw [hbounds], by rw [hbounds]; exact hlo, by rw [hbounds]; exact hhi⟩

end Sys2Proof.Machine
end

section
/-!
CERTIFICATE. Capability instructions (R192 to R199).
-/
namespace Sys2Proof.Machine

/-- Settles O5: CSUB's flag is the test of R199. -/
theorem subsetTest : Obligations.SubsetTest := by
  unfold Obligations.SubsetTest
  intro s d a b ha hb c x subset
  have hexec : exec (.csub d a b) s = wrote s d (flag (capSubset c x)) (c.taint ||| x.taint) :=
    exec_csub.trans (capOp_gives (r := { val := flag (capSubset c x) }) ha hb rfl)
  refine ⟨decode_encode (.csub d a b) rfl _ rfl, fun h => ?_, fun h => ?_⟩
  · rw [hexec, (capSubset_iff c x).2 h]; rfl
  · rw [hexec, Bool.eq_false_iff.2 (mt (capSubset_iff c x).1 h)]; rfl

/-- Settles O4: each instruction is an operation on capabilities in registers that await nothing; CBOUND's result is the narrowest
rounding outward. -/
theorem capabilityResults : Obligations.CapabilityResults := by
  unfold Obligations.CapabilityResults
  refine ⟨fun s d a b k ha => ?_, fun s d a b k ha => ?_⟩
  · intro c x one two moved pb pt
    have cap1 {i} {f : Reg → Reg} {r} (hi : exec i s = capOp1 f d a s) (h : f c = r) : one i r := hi.trans (capOp1_gives ha h)
    have cap2 {i} {f : Reg → Reg → Reg} {r} (hi : exec i s = capOp f d a b s) (h : f c x = r) : two i r := fun hb =>
      hi.trans (capOp_gives ha hb h)
    exact ⟨cap2 exec_cinc rfl, cap1 exec_cinci rfl, cap2 exec_cperm (by rw [cpermReg, reDesc_capOtype]),
      cap2 exec_cseal (Reg.eq_of_tag_iff (csealReg_tag_iff c x)),
      cap2 exec_cunseal (Reg.eq_of_tag_iff (cunsealReg_tag_iff c x)), cap1 exec_cbase rfl,
      cap1 exec_cgperm (by rw [perms_otype_word]), cap1 exec_ctag rfl, exec_cclr.trans (capOp1_gives (r := { c with tag := false }) ha rfl),
      cap2 exec_csub (by simp only [flag, capSubset_iff]; rfl), fun h => cap1 exec_clen (by rw [capLen_eq h])⟩
  · intro c narrow
    exact ⟨⟨_, _, exec_cboundi.trans (capOp1_gives ha rfl), rfl, rfl, cboundReg_narrows c k.toNat⟩,
      fun hb => ⟨_, _, exec_cbound.trans (capOp_gives ha hb rfl), rfl, rfl, cboundReg_narrows c (s.g b).val.toNat⟩⟩

end Sys2Proof.Machine
end

section
/-!
SUPPORT. Literal loads (R132, R182), and jumps and branches (R205 to R207).
-/
namespace Sys2Proof.Machine

theorem four_mul_sext {w : Nat} (i : BitVec w) : 4 * sext64 i = BitVec.ofInt 64 (4 * i.toInt) := ofNat_mul_sext 4 i

section
variable {s : State} {d a b : BitVec 6} {i : BitVec 14}

/-- A branch between registers that await nothing (R205). -/
theorem branch_goes {f : Word → Word → Bool} {taken : Bool} (ha : s.busyG a = false) (hb : s.busyG b = false)
    (h : f (s.g a).val (s.g b).val = taken) :
    branch f a b i s = if taken then jump (s.task.pc + BitVec.ofInt 64 (4 * i.toInt)) s else retired s := by
  rw [branch, if_neg (by simp [ha, hb]), h, four_mul_sext]; rfl

end

section
variable {s : State} {d : BitVec 6} {i : BitVec 19} {n : Nat} {sgn : Bool}

/-- A load of no bytes that binds as it issues waits for nothing but a pending acquire (R132). -/
theorem bindReady_nil (h : ∀ q ∈ s.task.pend, q.acq = none) (ok : State → Host.Outcome State Fault Refusal) :
    bindReady [] s ok = ok s := by
  refine if_neg ?_
  simp +contextual [linesOf, h]

/-- A literal load without a code capability (R182). -/
theorem ldl_untagged (h : (s.codeCap s.cur).tag = false) :
    ldl n sgn d i s = trapped s cCAP (s.task.pc + BitVec.ofInt 64 (4 * i.toInt)) := by
  rw [ldl, four_mul_sext]; dsimp only
  rw [if_pos (by simp [h])]; rfl

/-- A literal load of the code section, aligned, with no acquire pending (R132, R182). -/
theorem ldl_loads {va : Word} {bs : List Byte} (hva : va = s.task.pc + BitVec.ofInt 64 (4 * i.toInt))
    (htag : (s.codeCap s.cur).tag = true) (hin : inBounds (s.codeCap s.cur) va n = true) (halign : va.toNat % n = 0)
    (hbytes : s.codeBytes s.cur va.toNat n = some bs) (hacq : ∀ q ∈ s.task.pend, q.acq = none) :
    ldl n sgn d i s = wrote (s.fetched s.cur va.toNat n).bump d
      (if sgn then BitVec.ofInt 64 (intOf (8 * n) true (ofBytes bs)) else BitVec.ofNat 64 (ofBytes bs)) s.task.momentTaint := by
  rw [ldl, four_mul_sext, ← hva]; dsimp only
  rw [if_neg (by simp [htag, hin]), if_neg (not_not.2 halign), hbytes]
  exact bindReady_nil hacq _

end

/-- The signed value of the low 32 bits. -/
theorem ofInt_intOf_32 (n : Nat) : BitVec.ofInt 64 (intOf 32 true n) = (BitVec.ofNat 32 n).signExtend 64 := by
  have hmod : n % 2 ^ 64 % 2 ^ 32 = n % 2 ^ 32 := Nat.mod_mod_of_dvd n (by decide)
  have hlow : BitVec.ofNat 32 (n % 2 ^ 64) = BitVec.ofNat 32 n := BitVec.eq_of_toNat_eq hmod
  have hint := intOf_toInt (BitVec.ofNat 64 n)
  rw [BitVec.toNat_ofNat, hlow] at hint
  rw [BitVec.signExtend, ← hint, intOf, intOf, hmod]

end Sys2Proof.Machine
end

section
/-!
CERTIFICATE. Jumps, branches and literal loads (R182, R205 to R207).
-/
namespace Sys2Proof.Machine

/-- Settles O8: a jump's target and link, a branch by its comparison, and a literal load by its code capability and bytes. -/
theorem controlFlow : Obligations.ControlFlow := by
  unfold Obligations.ControlFlow
  refine ⟨fun s d a b i j => ?_, fun s d i => ?_⟩
  · intro x y pc link goes branches
    refine ⟨?_, fun ha hcheck => ?_, fun ha hb => ?_⟩
    · rw [exec_jal, execJal, four_mul_sext]; rfl
    · rw [exec_jalr, execJalr, if_neg (by simp [ha])]; dsimp only
      rw [four_mul_sext, checked, hcheck]; rfl
    · have branch_of {ins f taken} (hi : exec ins s = branch f a b i s) (h : f x y = taken) : branches ins taken :=
        hi.trans (branch_goes ha hb h)
      exact ⟨branch_of exec_beq rfl, branch_of exec_bne rfl, branch_of exec_blt BitVec.slt_eq_decide,
        branch_of exec_bge (by simp only [BitVec.slt_eq_decide, ← decide_not, not_lt]), branch_of exec_bltu BitVec.ult_eq_decide,
        branch_of exec_bgeu (by simp only [BitVec.ult_eq_decide, ← decide_not, not_lt])⟩
  · intro va c loads
    have ldl_of {ins n sgn f} (hi : exec ins s = ldl n sgn d i s)
        (h : ∀ m, (if sgn then BitVec.ofInt 64 (intOf (8 * n) true m) else BitVec.ofNat 64 m) = f m) : loads ins n f :=
      fun bs htag hin halign hbytes hacq => by
        rw [hi, ldl_loads rfl htag hin halign hbytes hacq, h]; rfl
    have double := ldl_of (sgn := false) exec_ldlD fun _ => if_neg Bool.false_ne_true
    have word := ldl_of (sgn := true) exec_ldlW ofInt_intOf_32
    exact ⟨double, word, fun htag => ⟨exec_ldlD.trans (ldl_untagged htag), exec_ldlW.trans (ldl_untagged htag)⟩⟩

end Sys2Proof.Machine
end

section
/-!
SUPPORT. An access that its checks let by, and translated (R68, R115, R217, R414).
-/
namespace Sys2Proof.Machine

/-- An access whose check passes goes on (R68). -/
theorem checked_passes {s : State} {c : Reg} {va : Word} {n align : Nat} {perms : List Nat}
    (h : capFault (s.supAt s.cur) c va n perms align = none) (ok : State → Host.Outcome State Fault Refusal) :
    checked c va n perms align s ok = ok s := by
  rw [checked, h]

/-- HOST memory is reached through a live port (R414). -/
theorem hostReachable_live {s : State} {p : Place} (h : ∀ st, p = .host st → (s.portOf st).isSome = true) (va : Word)
    (ok : State → Host.Outcome State Fault Refusal) : hostReachable p va s ok = ok s := by
  cases p with
  | host st => exact if_pos (h st rfl)
  | own | share | home | fifo => rfl

namespace Granted
variable {s : State} {c : Reg} {va : Word} {n align a : Nat} {perms : List Nat} {acc : Access} {p : Place}
  (h : Granted s c va n perms align acc a p)
include h

theorem checked (ok : State → Host.Outcome State Fault Refusal) : checked c va n perms align s ok = ok s :=
  checked_passes h.1 ok

theorem located (ok : Nat → Place → Host.Outcome State Fault Refusal) : located va acc s ok = ok a p := by
  rw [Machine.located, h.2.1]

theorem reachable (va : Word) (ok : State → Host.Outcome State Fault Refusal) : hostReachable p va s ok = ok s :=
  hostReachable_live h.2.2 va ok

end Granted

/-- An access outside a transaction, or at a place that is not tracked, is not a tracked one (R151, R153). -/
theorem Untracked.eq_false {s : State} {p : Place} (h : Untracked s p) : (s.task.txn.isSome && tracked p) = false := by
  rcases h with h | h <;> simp [h]

/-- LDA and STL abort a transaction at DOMAIN and SYSTEM scope alone (R150). -/
theorem abortsFar_eq_false {s : State} {sc : BitVec 3} (h : s.task.txn = none ∨ sc.toNat < 4) :
    (s.task.txn.isSome && decide (4 ≤ sc.toNat)) = false := by
  rcases h with h | h
  · simp [h]
  · simp [Nat.not_le.2 h]

end Sys2Proof.Machine
end

section
/-!
SUPPORT. Loads that go to their home (R37, R74 to R77, R217 to R220).
-/
namespace Sys2Proof.Machine

/-- The load of `n` bytes that an instruction issues (R218, R220). -/
def loadOp (va : Word) (n a : Nat) (p : Place) (fin : Finish) (acq : Option Nat) : PendOp :=
  { op := 0, gen := 0, kind := .load, va, addrs := addrRange a n, fin, place := p, acq }

/-- A load of another core's region has passed its release point (R37), and is issued. -/
def loadIssued (s : State) (t : BitVec 6) (c : Reg) (q : PendOp) : Host.Outcome State Fault Refusal :=
  retired ((if remoteShare q.place then s.releasePoint else s).issueLoad (gDest t) q c.taint)

section
variable {s : State} {t b : BitVec 6} {n a : Nat} {p : Place} (hb : s.busyG b = false) (hp : Untracked s p)

section
include hp

theorem loadFrom_issues {c : Reg} {va : Word} {fin : Finish} {acq : Option Nat} (h : Granted s c va n [pLD] n .read a p)
    (hclear : Clear s (addrRange a n)) : loadFrom (gDest t) fin c va n acq s = loadIssued s t c (loadOp va n a p fin acq) := by
  rw [loadFrom, h.located, h.reachable, unpoisoned_clear hclear, if_neg (by simp [hp.eq_false])]
  rfl

end
include hb hp

theorem loadInt_issues {sgn : Bool} {i : BitVec 10}
    (h : Granted s (s.g b) ((s.g b).val + BitVec.ofInt 64 (n * i.toInt)) n [pLD] n .read a p) (hclear : Clear s (addrRange a n)) :
    loadInt n sgn t b i s
      = loadIssued s t (s.g b) (loadOp ((s.g b).val + BitVec.ofInt 64 (n * i.toInt)) n a p (.int n sgn) none) := by
  rw [← dispAddr_eq] at h ⊢
  rw [loadInt, if_neg (by simp [hb])]
  exact (h.checked _).trans (loadFrom_issues hp h hclear)

theorem ldc_issues {i : BitVec 10}
    (h : Granted s (s.g b) ((s.g b).val + BitVec.ofInt 64 ((16 : Nat) * i.toInt)) 16 [pLD] 16 .read a p)
    (hclear : Clear s (addrRange a 16)) :
    exec (.ldc t b i) s = loadIssued s t (s.g b)
      (loadOp ((s.g b).val + BitVec.ofInt 64 ((16 : Nat) * i.toInt)) 16 a p (.cap (hasPerm (s.g b).desc pLDC)) none) := by
  rw [← dispAddr_eq] at h ⊢
  rw [exec_ldc, execLdc, if_neg (by simp [hb])]
  exact (h.checked _).trans (loadFrom_issues hp h hclear)

theorem lda_issues {sc : BitVec 3} {z : BitVec 2} {x : BitVec 1} (hsc : s.task.txn = none ∨ sc.toNat < 4)
    (h : Granted s (s.g b) (s.g b).val (2 ^ z.toNat) [pLD] (2 ^ z.toNat) .read a p)
    (hclear : Clear s (addrRange a (2 ^ z.toNat))) :
    exec (.lda t b sc z x) s
      = loadIssued s t (s.g b) (loadOp (s.g b).val (2 ^ z.toNat) a p (.int (2 ^ z.toNat) (x == 1)) (some sc.toNat)) := by
  rw [exec_lda, execLda, abortsFar_eq_false hsc, if_neg Bool.false_ne_true, if_neg (by simp [hb])]
  exact (h.checked _).trans (loadFrom_issues hp h hclear)

end

/-- The slot that a load takes is the lowest free one of 0 to 6, or 7 (R74). -/
theorem Ctx.slotFor_lowest (t : Ctx) : (t.slotFor < 7 → t.slots.getLsbD t.slotFor = false)
    ∧ (∀ m, m < t.slotFor → m < 7 → t.slots.getLsbD m = true) ∧ t.slotFor ≤ 7 := by
  unfold slotFor
  split
  next i hi =>
    obtain ⟨hfree, hlt, hlow⟩ := List.find?_range_eq_some.1 hi
    have hlt := List.mem_range.1 hlt
    exact ⟨fun _ => by simpa using hfree, fun m hm _ => by simpa using hlow m hm, hlt.le⟩
  next hnone =>
    exact ⟨fun h => absurd h (lt_irrefl 7), fun m _ hm => by simpa using List.find?_eq_none.1 hnone m (List.mem_range.2 hm), le_rfl⟩

/-- A general register has taken a new taint, and kept its value. -/
def Ctx.withTaint (t : Ctx) (d : Nat) (τ : BitVec 8) : Ctx := t.putG d { t.gr d with taint := τ }

namespace Ctx
variable (t : Ctx) (d : Nat) (τ : BitVec 8)

theorem withTaint_pend : (t.withTaint d τ).pend = t.pend := by obtain ⟨_, e⟩ := t.putG_regs d _; rw [withTaint, e]
theorem withTaint_slots : (t.withTaint d τ).slots = t.slots := by obtain ⟨_, e⟩ := t.putG_regs d _; rw [withTaint, e]
theorem withTaint_takeSlot_g (n : Nat) : ((t.takeSlot n).withTaint d τ).g = (t.withTaint d τ).g := by
  unfold withTaint putG; split <;> rfl

end Ctx

namespace State
variable {s : State}

/-- A context with nothing pending has no deposit to cancel (R81). -/
theorem cancel_idle (h : s.task.pend = []) (d : Dest) : s.cancel d = s := by simp [cancel, h]

theorem cancelTaint_idle (h : s.task.pend = []) (d : Dest) (b : BitVec 8) : s.cancelTaint d b = b := by
  rw [cancelTaint, cancel_idle h, Ctx.liveTaint, BitVec.and_not_self]; exact BitVec.and_allOnes

theorem l1Hit_mapTask (s : State) (f : Ctx → Ctx) (k : Nat) (as : List Nat) : (s.mapTask f).l1Hit k as = s.l1Hit k as := by
  obtain ⟨_, e⟩ := s.core_mapTask f k
  simp only [l1Hit, e]

theorem all_false_of_mem {as : List Nat} {f : Nat → Bool} {x : Nat} (hx : x ∈ as) (h : [x].all f = false) : as.all f = false :=
  List.all_eq_false.2 ⟨x, hx, by simpa using h⟩

/-- A load of device memory that no cache of the core or its cluster holds goes to its home, where the way there is free (R104,
R107, R218). -/
theorem launch_load_leaves {k x st sl : Nat} {p : PendOp} (hkind : p.kind = .load) (hplace : p.place = .home st sl)
    (hl1 : s.l1Hit k p.addrs = false) (hcl : s.clusterHit k p.addrs = false) :
    FabricOnly s (s.launch k x p) ∨ FabricOnly (s.mapOp k x p.op fun q => { q with sent := true }) (s.launch k x p) := by
  have hgo : s.launch k x p = if s.mayRoute (agentNi k) (placeAgent k false p.place) then
      (s.mapOp k x p.op fun q => { q with sent := true }).route (agentNi k) (placeAgent k false p.place)
        (1 + dataFlits p.data.length) 0 (.lineFill k x p.op) else s := by
    simp only [launch, hkind, hplace, hl1, hcl, Bool.false_eq_true, if_false, ite_self]
  rw [hgo]
  split
  · exact .inr (route_fabric _ _ _ _ _ _)
  · exact .inl (.refl s)

/-- A change of a pending operation of the issuing context. -/
theorem mapOp_eq_mapTask (s : State) (n : Nat) (f : PendOp → PendOp) : s.mapOp s.cur s.ctx n f
    = s.mapTask fun t => { t with pend := t.pend.map fun p => if p.op = n then f p else p } := rfl

/-- A context with one operation looks at it; all else that it does concerns the fabric. -/
theorem kick_one {q : PendOp} (hpend : s.task.pend = [q]) : FabricOnly (kickOp s.cur s.ctx s q.op) (s.kick s.cur s.ctx) := by
  have hfold : ((s.ctxAt s.cur s.ctx).pend.map (·.op)).foldl (kickOp s.cur s.ctx) s = kickOp s.cur s.ctx s q.op := by
    change (s.task.pend.map (·.op)).foldl _ s = _
    rw [hpend]; rfl
  rw [← hfold]
  unfold kick; extract_lets s₁ t onWay s₂
  have h₂ : FabricOnly s₁ s₂ := .foldl (fun s _ => s.pushOnce_fabric _) _ _
  split
  · exact h₂.trans (pushOnce_fabric _ _)
  · exact h₂

/-- A context whose one operation is a load that no cache holds looks at it: nothing but its being sent, and the fabric, changes. -/
theorem kick_load_leaves {st sl : Nat} {q : PendOp} (hpend : s.task.pend = [q]) (hkind : q.kind = .load)
    (hplace : q.place = .home st sl) (hrel : q.rel = none) (hl1 : s.l1Hit s.cur q.addrs = false)
    (hcl : s.clusterHit s.cur q.addrs = false) :
    let u := s.kick s.cur s.ctx
    u.task.busy q.dest = true ∧ u.task.g = s.task.g ∧ u.task.slots = s.task.slots ∧ u.mem = s.mem ∧ u.tags = s.tags := by
  intro u
  have hbusy (p : PendOp) (h : p.dest = q.dest) (t : Ctx) (ht : t.pend = [p]) : t.busy q.dest = true := by simp [Ctx.busy, ht, h]
  have hfind : s.findOp s.cur s.ctx q.op = some q := by
    change s.task.pend.find? _ = _
    simp [hpend]
  have hop : FabricOnly s (kickOp s.cur s.ctx s q.op)
      ∨ FabricOnly (s.mapOp s.cur s.ctx q.op fun p => { p with sent := true }) (kickOp s.cur s.ctx s q.op) := by
    simp only [kickOp, hfind, hrel, Option.isSome_none, Bool.false_eq_true, if_false]
    split
    · exact launch_load_leaves hkind hplace hl1 hcl
    · exact .inl (.refl s)
  rcases hop with hop | hop
  · have h : FabricOnly _ u := hop.trans (kick_one hpend)
    rw [h.lines.task]
    obtain ⟨_, _, e⟩ := h
    exact ⟨hbusy q rfl _ hpend, rfl, rfl, by rw [e], by rw [e]⟩
  · have h : FabricOnly _ u := hop.trans (kick_one hpend)
    rw [h.lines.task, mapOp_eq_mapTask, task_mapTask]
    obtain ⟨_, _, e⟩ := h
    exact ⟨hbusy { q with sent := true } rfl _ (by simp [hpend]), rfl, rfl, by rw [e]; rfl, by rw [e]; rfl⟩

/-- A load of a context with nothing pending, so with nothing that its issue would cancel (R74, R81). -/
theorem issueLoad_idle (hpend : s.task.pend = []) (d : Nat) (p : PendOp) (τ : BitVec 8) :
    let u := s.mapTask fun t => t.takeSlot s.task.slotFor
    let v := (u.mapTask fun t => t.withTaint d (slotBit s.task.slotFor ||| τ)).addOp
      { p with dest := .g d, slot := some s.task.slotFor, deps := τ }
    s.issueLoad (.g d) p τ = v.kick v.cur v.ctx := by
  intro u v
  have hu : u.task.pend = [] := (congrArg Ctx.pend (task_mapTask _ _)).trans hpend
  have h : s.issueLoad (.g d) p τ = (((u.cancel (.g d)).mapTask fun t =>
      t.withTaint d (slotBit s.task.slotFor ||| u.cancelTaint (.g d) (τ ||| 0))).addOp
        { p with dest := .g d, slot := some s.task.slotFor, deps := u.cancelTaint (.g d) τ }).kick (u.cancel (.g d)).cur
          (u.cancel (.g d)).ctx := rfl
  rw [h, cancelTaint_idle hu, cancelTaint_idle hu, cancel_idle hu, show τ ||| 0 = τ from BitVec.or_zero]
  rfl

/-- An operation joins what its context has pending, and changes no register. -/
theorem addOp_joins (s : State) (p : PendOp) : (∃ q, (s.addOp p).task.pend = s.task.pend ++ [q] ∧ q.dest = p.dest
      ∧ q.kind = p.kind ∧ q.place = p.place ∧ q.rel = p.rel ∧ q.addrs = p.addrs)
    ∧ (s.addOp p).task.g = s.task.g ∧ (s.addOp p).task.slots = s.task.slots := by
  rw [addOp, task_mapTask]
  exact ⟨⟨_, rfl, rfl, rfl, rfl, rfl, rfl⟩, rfl, rfl⟩

/-- A load that leaves the core, of a context with nothing pending (R74, R75, R77): its slot is taken, and its destination awaits
the value under the taint of the slot and of the address. -/
theorem issueLoad_leaves {d st sl : Nat} {p : PendOp} {τ : BitVec 8} (hpend : s.task.pend = []) (hkind : p.kind = .load)
    (hplace : p.place = .home st sl) (hrel : p.rel = none) (hl1 : s.l1Hit s.cur p.addrs = false)
    (hcl : s.clusterHit s.cur p.addrs = false) :
    let u := s.issueLoad (.g d) p τ
    u.task.busy (.g d) = true ∧ u.task.g = (s.task.withTaint d (slotBit s.task.slotFor ||| τ)).g
      ∧ u.task.slots = s.task.slots ||| slotBit s.task.slotFor ∧ u.mem = s.mem ∧ u.tags = s.tags := by
  intro u
  have hu := issueLoad_idle hpend d p τ
  extract_lets w v at hu
  obtain ⟨⟨q, hq, hdest, hqkind, hqplace, hqrel, haddrs⟩, hvg, hvslots⟩ := addOp_joins
    (w.mapTask fun t => t.withTaint d (slotBit s.task.slotFor ||| τ)) { p with dest := .g d, slot := some s.task.slotFor, deps := τ }
  rw [task_mapTask, task_mapTask, Ctx.withTaint_pend] at hq
  rw [task_mapTask, task_mapTask, Ctx.withTaint_takeSlot_g] at hvg
  rw [task_mapTask, task_mapTask, Ctx.withTaint_slots] at hvslots
  have hl1v : v.l1Hit v.cur q.addrs = false := by
    rw [haddrs, ← hl1]; exact (l1Hit_mapTask _ _ _ _).trans ((l1Hit_mapTask _ _ _ _).trans (l1Hit_mapTask _ _ _ _))
  have hclv : v.clusterHit v.cur q.addrs = false := by rw [haddrs]; exact hcl
  have hone : v.task.pend = [q] := hq.trans (congrArg (· ++ [q]) hpend)
  obtain ⟨hbusy, hg, hslots, hmem, htags⟩ :=
    kick_load_leaves hone (hqkind.trans hkind) (hqplace.trans hplace) (hqrel.trans hrel) hl1v hclv
  rw [hdest] at hbusy
  rw [← hu] at hbusy hg hslots hmem htags
  exact ⟨hbusy, hg.trans hvg, hslots.trans hvslots, hmem, htags⟩

end State
end Sys2Proof.Machine
end

section
/-!
CERTIFICATE. Loads as they issue (R37, R74 to R77, R217 to R220).
-/
namespace Sys2Proof.Machine

/-- Settles O13: a load that is let by is issued with its bytes, after the release point of another core's region; and one that
leaves the core takes the lowest free slot, under which its destination waits. -/
theorem loadsIssue : Obligations.LoadsIssue := by
  unfold Obligations.LoadsIssue
  refine ⟨fun s t b i sc z x a p hb hp => ?_, fun s d p τ st sl hd hpend hkind hplace hmiss haddrs hrel _ => ?_⟩
  · intro c load at_
    exact ⟨loadInt_issues hb hp, loadInt_issues hb hp, loadInt_issues hb hp, loadInt_issues hb hp, loadInt_issues hb hp,
      loadInt_issues hb hp, loadInt_issues hb hp, ldc_issues hb hp, fun hsc => lda_issues hb hp hsc⟩
  · intro u n
    have hn : d.toNat ≠ 0 := fun h => hd (BitVec.eq_of_toNat_eq h)
    obtain ⟨x, hx⟩ := List.exists_mem_of_ne_nil _ haddrs
    obtain ⟨hbusy, hg, hslots, hmem, htags⟩ := State.issueLoad_leaves (d := d.toNat) (τ := τ) hpend hkind hplace hrel
      (State.all_false_of_mem hx (hmiss x hx).1) (State.all_false_of_mem hx (hmiss x hx).2)
    obtain ⟨hfree, hlow, hle⟩ := s.task.slotFor_lowest
    have hreg (e : BitVec 6) : u.g e = (s.task.withTaint d.toNat (slotBit n ||| τ)).gr e.toNat := by
      simp only [State.g, Ctx.gr]; rw [hg]
    have hsame := (hreg d).trans (Ctx.gr_putG_same _ hn _)
    exact ⟨hbusy, congrArg Reg.taint hsame, (congrArg Reg.val hsame :), hslots, hfree, hlow, hle,
      fun e he => (hreg e).trans (Ctx.gr_putG_other _ (fun h => he (BitVec.eq_of_toNat_eq h)) _), hmem, htags⟩

end Sys2Proof.Machine
end

section
/-!
SUPPORT. Stores that go to their home (R69, R71, R130, R217 to R221).
-/
namespace Sys2Proof.Machine

/-- The store of some bytes that an instruction issues (R218, R220). -/
def storeOp (va : Word) (as : List Nat) (p : Place) (data : List Byte) (tags : List (Nat × Bool)) (deps : BitVec 8)
    (rel : Option Nat) : PendOp :=
  { op := 0, gen := 0, kind := .store, va, addrs := as, data, tags, place := p, deps, rel }

section
variable {s : State} {p : Place} (hp : Untracked s p) (hfull : s.counterFull p = false)
include hp hfull

/-- A store that transactions do not track is issued while the counter has room (R130). -/
theorem storeTo_issues (hport : ∀ st, p = .host st → (s.portOf st).isSome = true) {va : Word} {as : List Nat} {data : List Byte}
    {tags : List (Nat × Bool)} {deps : BitVec 8} {rel : Option Nat} (done : State → Host.Outcome State Fault Refusal) :
    storeTo va as p data tags deps rel s done = done (s.issueStore (storeOp va as p data tags deps rel)) := by
  rw [storeTo, if_neg (by simp [hp.eq_false]), storePlain, hostReachable_live hport, if_neg (by simp [hfull])]
  rfl

variable {t b : BitVec 6} {n a : Nat} {i : BitVec 10} (hb : s.busyG b = false)
include hb

theorem czero_issues {va : Word} (hva : BitVec.ofNat 64 ((s.g b).val.toNat / 128 * 128) = va)
    (h : Granted s (s.g b) va 128 [pST] 1 .write a p) :
    exec (.czero b) s = retired (s.issueStore (storeOp va (addrRange a 128) p (List.replicate 128 0) [] (s.g b).taint none)) := by
  subst hva
  rw [exec_czero, execCzero, if_neg (by simp [hb])]
  exact (h.checked _).trans ((h.located _).trans (storeTo_issues hp hfull h.2.2 _))

variable (ht : s.busyG t = false)
include ht

theorem storeInt_issues (h : Granted s (s.g b) ((s.g b).val + BitVec.ofInt 64 (n * i.toInt)) n [pST] n .write a p) :
    storeInt n t b i s = retired (s.issueStore (storeOp ((s.g b).val + BitVec.ofInt 64 (n * i.toInt)) (addrRange a n) p
      (bytesOf n (s.g t).val.toNat) [] ((s.g b).taint ||| (s.g t).taint) none)) := by
  rw [← dispAddr_eq] at h ⊢
  rw [storeInt, if_neg (by simp [hb, ht])]
  exact (h.checked _).trans ((h.located _).trans (storeTo_issues hp hfull h.2.2 _))

theorem stc_issues (h : Granted s (s.g b) ((s.g b).val + BitVec.ofInt 64 ((16 : Nat) * i.toInt)) 16 [pST] 16 .write a p)
    (htag : (s.g t).tag = true → hasPerm (s.g b).desc pSTC = true ∧ (hasPerm (s.g t).desc pGLOBAL = true
      ∨ s.inTeamRegions s.cur ((s.g b).val + BitVec.ofInt 64 ((16 : Nat) * i.toInt)).toNat = true)) :
    exec (.stc t b i) s = retired (s.issueStore (storeOp ((s.g b).val + BitVec.ofInt 64 ((16 : Nat) * i.toInt)) (addrRange a 16) p
      (bytesOf 8 (s.g t).val.toNat ++ bytesOf 8 (s.g t).desc.toNat) [(a / 16, (s.g t).tag)] ((s.g b).taint ||| (s.g t).taint) none)) := by
  rw [← dispAddr_eq] at h htag ⊢
  have hstored : ¬((s.g t).tag && (!hasPerm (s.g b).desc pSTC
      || (!hasPerm (s.g t).desc pGLOBAL && !s.inTeamRegions s.cur (dispAddr (s.g b) 16 i).toNat))) = true := by
    simpa [not_or, or_iff_not_imp_left] using htag
  rw [exec_stc, execStc, if_neg (by simp [hb, ht])]
  exact (h.checked _).trans ((if_neg hstored).trans ((h.located _).trans (storeTo_issues hp hfull h.2.2 _)))

theorem stl_issues {sc : BitVec 3} {z : BitVec 2} (hsc : s.task.txn = none ∨ sc.toNat < 4)
    (h : Granted s (s.g b) (s.g b).val (2 ^ z.toNat) [pST] (2 ^ z.toNat) .write a p) :
    exec (.stl t b sc z) s = retired (s.issueStore (storeOp (s.g b).val (addrRange a (2 ^ z.toNat)) p
      (bytesOf (2 ^ z.toNat) (s.g t).val.toNat) [] ((s.g b).taint ||| (s.g t).taint) (some sc.toNat))) := by
  rw [exec_stl, execStl, abortsFar_eq_false hsc, if_neg Bool.false_ne_true, if_neg (by simp [hb, ht])]
  exact (h.checked _).trans ((h.located _).trans (storeTo_issues hp hfull h.2.2 _))

end

/-- STC of a tagged value through a capability without STC, or of one without GLOBAL outside the team's regions (R71, R219). -/
theorem stc_refused {s : State} {t b : BitVec 6} {i : BitVec 10} (hb : s.busyG b = false) (ht : s.busyG t = false)
    (hc : capFault (s.supAt s.cur) (s.g b) ((s.g b).val + BitVec.ofInt 64 ((16 : Nat) * i.toInt)) 16 [pST] 16 = none)
    (htag : (s.g t).tag = true)
    (hno : hasPerm (s.g b).desc pSTC = false ∨ (hasPerm (s.g t).desc pGLOBAL = false
      ∧ s.inTeamRegions s.cur ((s.g b).val + BitVec.ofInt 64 ((16 : Nat) * i.toInt)).toNat = false)) :
    exec (.stc t b i) s = trapped s cCAP ((s.g b).val + BitVec.ofInt 64 ((16 : Nat) * i.toInt)) := by
  rw [← dispAddr_eq] at hc hno ⊢
  rw [exec_stc, execStc, if_neg (by simp [hb, ht])]
  exact (checked_passes hc _).trans (if_pos (by simpa [htag] using hno))

end Sys2Proof.Machine
end

section
/-!
CERTIFICATE. Stores as they issue (R69, R71, R130, R217 to R221).
-/
namespace Sys2Proof.Machine

/-- Settles O14: a store that is let by is issued with the bytes of its data register, or zeroes; STC with the tag, and never a
tagged value that its capability or its place does not allow. -/
theorem storesIssue : Obligations.StoresIssue := by
  unfold Obligations.StoresIssue
  refine ⟨fun s t b i sc z a p hb hp hfull => ?_, fun s t b i hb ht => stc_refused hb ht⟩
  intro c v store at_ plain
  exact ⟨fun ht => ⟨storeInt_issues hp hfull hb ht, storeInt_issues hp hfull hb ht, storeInt_issues hp hfull hb ht,
      storeInt_issues hp hfull hb ht, fun htag h => stc_issues hp hfull hb ht h htag, fun hsc => stl_issues hp hfull hb ht hsc⟩,
    czero_issues hp hfull hb rfl⟩

end Sys2Proof.Machine
end

section
/-!
SUPPORT. Atomics and reservations that go to their home (R130, R132, R133, R141, R172, R225 to R228, R231).
-/
namespace Sys2Proof.Machine

/-! Variants of an AMO (R172), and widths of a reduction (R231). -/

theorem amoAcq_eq (v : Nat) : amoAcq v = if (1 ≤ v ∧ v ≤ 3) ∨ (9 ≤ v ∧ v ≤ 11) then some (amoScope v) else none := by
  simp [amoAcq]

theorem amoRel_eq (v : Nat) :
    amoRel v = if (5 ≤ v ∧ v ≤ 7) ∨ (9 ≤ v ∧ v ≤ 11) ∨ 13 ≤ v then some (amoScope v) else none := by
  simp [amoRel, or_assoc]

theorem amoComm_eq (v : Nat) : amoComm v = decide (v = 8 ∨ 13 ≤ v) := by
  rw [amoComm, Bool.decide_or]; rfl

/-- The AMO of an XRED's operation at each width (R231). -/
theorem redOp_width (op : Nat) (w : BitVec 1) : redOp op (w == 1) = if w = 1 then redOp op true else redOp op false := by
  rcases BitVec.eq_zero_or_eq_one w with rfl | rfl <;> rfl

/-! Atomics. -/

theorem txnReach_outside {s : State} (htxn : s.task.txn = none) (p : Place) (ok : State → Host.Outcome State Fault Refusal) :
    txnReach p s ok = ok s := if_pos (by simp [htxn])

section
variable {s : State} {a b : BitVec 6} {x : Nat} {p : Place} (ha : s.busyG a = false) (hb : s.busyG b = false)
  (hfifo : ∀ bk, p ≠ .fifo bk) (hfull : s.counterFull p = false) (htxn : s.task.txn = none)
include ha hb hfifo hfull htxn

/-- An AMO outside a transaction, its variant decoded (R172, R225, R226). -/
theorem amo_issues {op : Nat} {d : BitVec 6} {v : BitVec 4} {e : Reg} (hd : (op == 9 && s.busyG d) = false)
    (he : (if op == 9 then s.g d else {}) = e) (h : Granted s (s.g a) (s.g a).val 8 [pLD, pST] 8 .amo x p)
    (hclear : Clear s (addrRange x 8)) :
    amo op d a b v s = retired (s.issueAmo (gDest d)
      { op := 0, gen := 0, kind := .amo, deps := (s.g a).taint ||| (s.g b).taint ||| e.taint, va := (s.g a).val
        addrs := addrRange x 8, place := p, acq := amoAcq v.toNat, rel := amoRel v.toNat }
      { core := s.cur, addr := x, op, opnd := (s.g b).val, cmp := e.val, comm := amoComm v.toNat, stat := amoStat v.toNat
        scope := amoScope v.toNat, ret := none, acks := [] } (s.g a).taint (d != 0)) := by
  subst he
  rw [amo, if_neg (by simp [ha, hb, hd])]
  refine (h.checked _).trans ((h.located _).trans ?_)
  split
  next bk => exact absurd rfl (hfifo bk)
  next =>
    rw [h.reachable, unpoisoned_clear hclear, if_neg (by simp [htxn]), txnReach_outside htxn, if_neg (by simp [hfull])]
    rfl

/-- XRED outside a transaction is the comm AMO of its operation and width (R231). -/
theorem xred_issues {op : Nat} {w : BitVec 1} (hta : (s.g a).taint = 0) (htb : (s.g b).taint = 0) {n : Nat}
    (hn : (if w = 1 then 8 else 4) = n) (h : Granted s (s.g a) (s.g a).val n [pLD, pST] n .amo x p) (hclear : Clear s (addrRange x n)) :
    xred op a b w s = retired (s.issueAmo .none
      { op := 0, gen := 0, kind := .amo, va := (s.g a).val, addrs := addrRange x n, place := p }
      { core := s.cur, addr := x, op := if w = 1 then redOp op true else redOp op false
        opnd := if w = 1 then (s.g b).val else BitVec.ofNat 64 ((s.g b).val.toNat % 2 ^ 32), cmp := 0, comm := true
        stat := false, scope := 0, ret := none, acks := [] } 0 false) := by
  subst hn
  simp only [xred, ha, hb, redOp_width, Bool.or_self, Bool.false_eq_true, if_false, beq_iff_eq]
  refine (h.checked _).trans ((h.located _).trans ?_)
  split
  next bk => exact absurd rfl (hfifo bk)
  next =>
    rw [h.reachable, unpoisoned_clear hclear, if_neg (by simp [hta, htb]), htxn]
    exact if_neg (by simp [hfull])

end

/-! Reservations (R227, R228). -/

section
variable {s : State} {d a b : BitVec 6}

theorem noTxn_passes (htxn : s.task.txn = none) (ok : State → Host.Outcome State Fault Refusal) : noTxn s ok = ok s :=
  if_neg (by simp [htxn])

/-- A word of device memory can be reserved (R227). -/
theorem resvWord_passes {c : Reg} {perms : List Nat} {acc : Access} {x st sl : Nat}
    (h : Granted s c c.val 8 perms 8 acc x (.home st sl)) (ok : Nat → Place → State → Host.Outcome State Fault Refusal) :
    resvWord c perms acc s ok = ok x (.home st sl) s := (h.checked _).trans (h.located _)

theorem lrw_aborts (htxn : s.task.txn.isSome = true) : exec (.lrw d a) s = .next (s.abortTxn s.cur s.ctx 5 0 false) := if_pos htxn
theorem sc_aborts (htxn : s.task.txn.isSome = true) : exec (.sc d a b) s = .next (s.abortTxn s.cur s.ctx 5 0 false) := if_pos htxn

variable {x st sl : Nat} (htxn : s.task.txn = none) (ha : s.busyG a = false) (hta : (s.g a).taint = 0)
include htxn ha hta

/-- LRW asks the home as an acquire at DOMAIN scope, and waits for its decision (R227, R228; log 87). -/
theorem lrw_issues (h : Granted s (s.g a) (s.g a).val 8 [pLD] 8 .read x (.home st sl)) (hclear : Clear s (addrRange x 8)) :
    exec (.lrw d a) s = .next ((s.issueLoad (gDest d)
      { op := 0, gen := 0, kind := .lrw, va := (s.g a).val, addrs := addrRange x 8, place := .home st sl, acq := some 4 } 0).mapTask
        fun t => { t with wait := some (.lrw s.task.opNo) }) := by
  rw [exec_lrw, execLrw, noTxn_passes htxn, if_neg (by simp [ha])]
  refine (resvWord_passes h _).trans ?_
  rw [if_neg (by simp [hta]), unpoisoned_clear hclear]

/-- SC takes its word to the home of the reservation (R227). -/
theorem sc_issues (hb : s.busyG b = false) (htb : (s.g b).taint = 0)
    (h : Granted s (s.g a) (s.g a).val 8 [pLD, pST] 8 .write x (.home st sl)) :
    exec (.sc d a b) s = retired ((((s.cancel (gDest d)).mapTask fun t => t.putG d.toNat { t.gr d.toNat with taint := 0 }).addOp
      { op := 0, gen := 0, kind := .sc, dest := gDest d, va := (s.g a).val, addrs := addrRange x 8
        data := bytesOf 8 (s.g b).val.toNat, place := .home st sl }).kick s.cur s.ctx) := by
  rw [exec_sc, execSc, noTxn_passes htxn, if_neg (by simp [ha, hb])]
  refine (resvWord_passes h _).trans ?_
  rw [if_neg (by simp [hta, htb])]
  obtain ⟨_, e⟩ := (s.cancel_slots (gDest d)).rest
  rw [e]; rfl

end
end Sys2Proof.Machine
end

section
/-!
CERTIFICATE. Atomics and reservations as they issue (R132, R133, R141, R172, R225 to R228, R231).
-/
namespace Sys2Proof.Machine

/-- Settles O20: an AMO that is let by carries its operation, operands, intent and scope to the word's home, and XRED those of its
comm AMO. -/
theorem atomicsIssue : Obligations.AtomicsIssue := by
  unfold Obligations.AtomicsIssue
  intro s d a b v w x p ha hb hfifo hclear hfull htxn c vn scope comm amo_ red
  have hamo {ins op e} (hi : exec ins s = amo op d a b v s) (hd : (op == 9 && s.busyG d) = false)
      (he : (if op == 9 then s.g d else {}) = e) : amo_ ins op e := fun h => by
    rw [hi, amo_issues ha hb hfifo hfull htxn hd he h hclear, amoAcq_eq, amoRel_eq, amoComm_eq]
    rfl
  have hred {ins op} (hi : exec ins s = xred op a b w s) : red ins (redOp op false) (redOp op true) := fun hta htb h hclear =>
    hi.trans (xred_issues ha hb hfifo hfull htxn hta htb rfl h hclear)
  exact ⟨hamo exec_aadd rfl rfl, hamo exec_aand rfl rfl, hamo exec_aor rfl rfl, hamo exec_axor rfl rfl, hamo exec_amin rfl rfl,
    hamo exec_amax rfl rfl, hamo exec_aminu rfl rfl, hamo exec_amaxu rfl rfl, hamo exec_aswap rfl rfl, hamo exec_afadd rfl rfl,
    fun hd => hamo exec_acas hd rfl, hred (op := 0) exec_xredAdd, hred (op := 1) exec_xredFadd,
    hred (op := 2) exec_xredMin, hred (op := 3) exec_xredMax⟩

/-- Settles O21: LRW and SC of a word of device memory go to its home outside a transaction, and abort inside one. -/
theorem reservationsIssue : Obligations.ReservationsIssue := by
  unfold Obligations.ReservationsIssue
  intro s d a b x st sl ha hb hta htb c lrw
  exact ⟨fun htxn => lrw_issues htxn ha hta, fun htxn => sc_issues htxn ha hta hb htb,
    fun htxn => ⟨lrw_aborts htxn, sc_aborts htxn⟩⟩

end Sys2Proof.Machine
end

section
/-!
SUPPORT. The elements of block fills and copies (R222 to R224).
-/
namespace Sys2Proof.Machine

/-- The registers and the direction after an element of `len` bytes of the `left` that were to do (R223). -/
def blockMoved (moves : List (BitVec 6)) (n : BitVec 6) (left len : Nat) (desc : Bool) (s : State) : State :=
  let s := s.writeG n.toNat { val := BitVec.ofNat 64 (left - len) }
  let s := if desc then s else moves.foldl (fun s q =>
    s.writeG q.toNat { s.g q with val := (s.g q).val + BitVec.ofNat 64 len }) s
  let s := s.mapTask fun t => { t with blockDesc := if left = len then none else some desc }
  if left = len then s.advance else s

theorem blockRetire_eq (moves : List (BitVec 6)) (n : BitVec 6) (left len : Nat) (desc : Bool) (s : State) :
    blockRetire moves n left len desc s = .next (blockMoved moves n left len desc s) := by
  simp only [blockRetire, blockMoved]
  split <;> rfl

/-- A place keeps its room and its port where only lines come into caches (R130, R414). -/
theorem State.LinesOnly.counterFull {s t : State} (h : s.LinesOnly t) (p : Place) : t.counterFull p = s.counterFull p := by
  simp only [State.counterFull, h.cur, h.task]

theorem State.LinesOnly.portOf {s t : State} (h : s.LinesOnly t) (st : Nat) : t.portOf st = s.portOf st := by
  obtain ⟨_, _, _, rfl⟩ := h.rest; rfl

section
variable {s : State} {d r n : BitVec 6} (hd : s.busyG d = false) (hr : s.busyG r = false) (hn : s.busyG n = false)
include hd hr hn

theorem bfill_done (hleft : (s.g n).val.toNat = 0) : exec (.bfill d r n) s = .next s.advance := by
  rw [exec_bfill, execBfill, if_neg (by simp [hd, hr, hn])]
  exact if_pos hleft

theorem bmov_done (hleft : (s.g n).val.toNat = 0) : exec (.bmov d r n) s = .next s.advance := by
  rw [exec_bmov, execBmov, if_neg (by simp [hd, hr, hn])]
  exact if_pos hleft

variable {a : Nat} {p : Place} (htxn : s.task.txn = none) (hleft : (s.g n).val.toNat ≠ 0) (htd : (s.g d).taint = 0)
  (htr : (s.g r).taint = 0) (htn : (s.g n).taint = 0) (hfull : s.counterFull p = false)
include htxn hleft htd htr htn hfull

/-- An element of BFILL: up to the end of its line (R222, R223). -/
theorem bfill_element {len : Nat}
    (hlen : min (s.g n).val.toNat ((s.g d).val.toNat / 128 * 128 + 128 - (s.g d).val.toNat) = len)
    (h : Granted s (s.g d) (s.g d).val len [pST] 1 .write a p) :
    exec (.bfill d r n) s = .next (blockMoved [d] n (s.g n).val.toNat len false (s.issueStore
      (storeOp (s.g d).val (addrRange a len) p (fillBytes (s.g r).val (s.g d).val.toNat len) [] 0 none))) := by
  have hva : BitVec.ofNat 64 (s.g d).val.toNat = (s.g d).val := by simp
  rw [exec_bfill, execBfill, if_neg (by simp [hd, hr, hn])]
  refine (if_neg hleft).trans ?_
  simp only [blockElem, Bool.false_eq_true, if_false, hlen, hva]
  refine (h.checked _).trans ((if_neg (by simp [htd, htr, htn])).trans ((h.located _).trans ?_))
  exact (storeTo_issues (.inl htxn) hfull h.2.2 _).trans (blockRetire_eq _ _ _ _ _ _)

/-- An element of BMOV: the block that `blockElem` names, read whole and then stored (R222 to R224). -/
theorem bmov_element {desc : Bool} {lo len : Nat} {from_ : Word}
    (hdesc : s.task.blockDesc.getD (decide ((s.g r).val.toNat < (s.g d).val.toNat
      ∧ (s.g d).val.toNat < (s.g r).val.toNat + (s.g n).val.toNat)) = desc)
    (helem : blockElem (s.g n).val.toNat (s.g d).val.toNat desc = (lo, len))
    (hfrom : (s.g r).val + BitVec.ofNat 64 (lo - (s.g d).val.toNat) = from_)
    (h : Granted s (s.g d) (BitVec.ofNat 64 lo) len [pST] 1 .write a p)
    (hload : capFault (s.supAt s.cur) (s.g r) from_ len [pLD] 1 = none)
    {src : List Nat} {bytes : List Byte} {t : State} (hread : plainRead s from_ len false = some (src, bytes, t)) :
    exec (.bmov d r n) s = .next (blockMoved [d, r] n (s.g n).val.toNat len desc (t.issueStore
      (storeOp (BitVec.ofNat 64 lo) (addrRange a len) p bytes
        (t.blockTags (s.g d) (s.g r) (BitVec.ofNat 64 lo) src (addrRange a len)) 0 none))) := by
  obtain ⟨hgoes, hlines⟩ := readNow_plain (trk := true) htxn hread
  have hport (st : Nat) (e : p = .host st) : (t.portOf st).isSome = true := by rw [hlines.portOf]; exact h.2.2 st e
  rw [exec_bmov, execBmov, if_neg (by simp [hd, hr, hn])]
  refine (if_neg hleft).trans ?_
  simp only [hdesc, helem, hfrom]
  refine (checked_passes hload _).trans ((h.checked _).trans ((if_neg (by simp [htd, htr, htn])).trans
    ((h.located _).trans ((hgoes _).trans ?_))))
  exact (storeTo_issues (.inl (by rw [hlines.task, htxn])) (by rw [hlines.counterFull, hfull]) hport _).trans (blockRetire_eq _ _ _ _ _ _)

end
end Sys2Proof.Machine
end

section
/-!
CERTIFICATE. Block fills and copies (R222 to R224).
-/
namespace Sys2Proof.Machine

/-- Settles O19: with nothing left a block move only retires; otherwise its element is stored, the pattern's bytes or those that a
plain read finds, and the registers move on. -/
theorem blockMoves : Obligations.BlockMoves := by
  unfold Obligations.BlockMoves
  intro s d r n a p hd hr hn htxn left dd ss moved stores
  refine ⟨fun h => ⟨bfill_done hd hr hn h, bmov_done hd hr hn h⟩, fun hleft htd htr htn hfull => ⟨?_, ?_⟩⟩
  · intro len h
    exact bfill_element hd hr hn htxn hleft htd htr htn hfull rfl h
  · intro desc lo len lo64 from_ h hload hread
    obtain ⟨⟨src, bytes, t⟩, hread⟩ := Option.isSome_iff_exists.1 hread
    have helem : blockElem left dd desc = (lo, len) := by
      unfold blockElem len lo; split <;> rfl
    exact ⟨src, bytes, t, hread, bmov_element hd hr hn htxn hleft htd htr htn hfull rfl helem rfl h hload hread⟩

end Sys2Proof.Machine
end

section
/-!
SUPPORT. Vector operands (R175, R275, R276): when the streams of an instruction let it run, what its sources read, and what becomes of
its result.
-/
namespace Sys2Proof.Machine

/-- An instruction whose streams are ready runs, and is undone where it stalls or parks (R42, R235, R276). -/
theorem streaming_ready {s : State} {pops : List Nat} {app : Option Nat} {wide : Bool} (h : StreamsReady s pops app wide)
    (run : Host.Outcome State Fault Refusal) : streaming pops app wide s run = rollback s run := by
  obtain ⟨hbusy, hpops, happ, htxn⟩ := h
  have hfree : ((pops ++ app.toList).any fun k => (Sparse.find s.task.streams k).any s.task.streamBusy) = false := by
    refine List.any_eq_false.2 fun k hk => ?_
    cases hb : Sparse.find s.task.streams k with
    | none => simp
    | some b => simp [hbusy k hk b hb]
  have hlegal : (pops.any (popIllegal s.task wide) || app.any (appendIllegal s.task)) = false := by
    cases app <;> simp_all
  have hruns : (s.task.txn.isSome && (pops ++ app.toList).any s.wouldPark) = false := by
    rcases htxn with h | h
    · simp [h]
    · rw [List.any_eq_false.2 fun k hk => by simp [h k hk], Bool.and_false]
  simp only [streaming, hfree, hlegal, hruns, Bool.false_eq_true, if_false]

theorem vrun_ready {s : State} {srcs : List (BitVec 6)} {dst : Option (BitVec 6)}
    (h : StreamsReady s (streamsOf srcs) (streamsOf dst.toList).head? false) (run : Host.Outcome State Fault Refusal) :
    vrun srcs dst s run = rollback s run := streaming_ready h run

/-- A source operand is read (R175, R276). -/
theorem Source.reads {s t : State} {f : BitVec 6} {x : VReg} (h : Source s f x t)
    (ok : VReg → State → Host.Outcome State Fault Refusal) : vsrc f s ok = ok x t := by
  rcases h with ⟨hf, hbusy, rfl, rfl⟩ | ⟨hf, e, rfl, hpop⟩
  · rw [vsrc, if_pos hf, if_neg (by simp [hbusy])]
  · rw [vsrc, if_neg (by omega)]; exact hpop _

namespace Calm
variable {s t u : State}

theorem rollback (h : Calm s t) : rollback s (retire t) = finished t :=
  State.rollback_retired h.1 h.2.1 h.2.2

theorem trans (h : Calm s t) (g : Calm t u) : Calm s u := ⟨g.1, g.2.1.trans h.2.1, g.2.2.trans h.2.2⟩

/-- A write of registers leaves an instruction that has not stalled or parked as calm as it was. -/
theorem regs (h : Calm s t) (g : State.RegsOnly t u) : Calm s u :=
  h.trans ⟨by obtain ⟨_, rfl⟩ := g.rest; exact h.1, g.waits⟩

/-- So does an update of the context that keeps its wait and the poison it has noted. -/
theorem mapTask (h : Calm s t) {f : Ctx → Ctx} (hf : (f t.task).park = t.task.park ∧ (f t.task).late = t.task.late) :
    Calm s (t.mapTask f) := h.trans ⟨h.1, by rw [State.task_mapTask]; exact hf⟩

end Calm

theorem State.writeV_regs (s : State) (n : Nat) (r : VReg) : s.RegsOnly (s.writeV n r) :=
  (s.cancel_slots _).regs.trans (State.mapTask_regs ⟨_, _, _, _, _, _, _, rfl⟩)

theorem State.writeM_regs (s : State) (n : Nat) (r : MReg) : s.RegsOnly (s.writeM n r) :=
  State.mapTask_regs (by unfold Ctx.putM; split <;> exact ⟨_, _, _, _, _, _, _, rfl⟩)

/-! Lanes in order. -/

theorem zipIdx_map_range {α : Type} (n : Nat) (f : Nat → α) :
    ((List.range n).map f).zipIdx = (List.range n).map fun i => (f i, i) :=
  List.ext_getElem (by simp) (by simp)

theorem lanes_zipIdx (w : Nat) (v : VWord) : (lanes w v).zipIdx = (List.range (512 / w)).map fun i => (lane w v i, i) :=
  zipIdx_map_range _ _

theorem lanes_zip (w : Nat) (u v : VWord) :
    (lanes w u).zip (lanes w v) = (List.range (512 / w)).map fun i => (lane w u i, lane w v i) := List.zip_map'

theorem length_lanes (w : Nat) (v : VWord) : (lanes w v).length = 512 / w := by simp [lanes]

theorem getD_lanes (w : Nat) (v : VWord) (i : Nat) : (lanes w v).getD i 0 = if i < 512 / w then lane w v i else 0 := by
  split
  next h => simp [lanes, List.getD_eq_getElem?_getD, h]
  next h => exact List.getD_eq_default _ _ (by rw [length_lanes]; omega)

theorem lane_lt (w : Nat) (v : VWord) (i : Nat) : lane w v i < 2 ^ w := Nat.mod_lt _ (Nat.two_pow_pos _)

/-- The lanes that a merge takes: the new one where the mask is set, else the old (R275). -/
theorem picked_lanes {n : Nat} {old : Nat → Nat} {new : List Nat} (hlen : new.length = n) (on : Nat → Bool) :
    ((((List.range n).map old).zip new).zipIdx.map fun ((o, x), i) => if on i then x else o)
      = (List.range n).map fun i => if on i then new.getD i 0 else old i := by
  have hnew : new = (List.range n).map fun i => new.getD i 0 := by
    apply List.ext_getElem (by simp [hlen])
    intro i h _
    simp [List.getD_eq_getElem?_getD, h]
  rw [show ((List.range n).map old).zip new = (List.range n).map fun i => (old i, new.getD i 0) from
      (congrArg _ hnew).trans (List.zip_map'), zipIdx_map_range, List.map_map]
  rfl

/-- A vector result: active lanes of a register are written, or a stream gets the whole vector (R275, R276). -/
theorem vdst_delivers {s t : State} {d : BitVec 6} {w : Nat} {mask : MReg} {merge : Bool} {new : List Nat} {τ : BitVec 8}
    (hcalm : Calm s t) (hlen : new.length = 512 / w) :
    Delivers s t d w mask merge new τ (rollback s (vdst d w mask merge new τ t)) := by
  have hzero : List.replicate (512 / w) 0 = (List.range (512 / w)).map fun _ => 0 := by simp
  refine ⟨fun hd => ?_, fun hd u happ hu => ?_⟩
  · have htaint (o : BitVec 8) : (if merge then τ ||| mask.taint ||| o else τ ||| mask.taint)
        = τ ||| mask.taint ||| if merge then o else 0 := by split <;> simp
    simp only [vdst, if_pos hd, lanes, picked_lanes hlen, htaint]
    exact (hcalm.regs (t.writeV_regs _ _)).rollback
  · simp only [vdst, if_neg (show ¬ d.toNat < 32 by omega), hzero, picked_lanes hlen]
    rw [happ]
    exact hu.rollback

end Sys2Proof.Machine
end

section
/-!
SUPPORT. Lane-wise integer instructions (R283), VSEL and VSHUF (R286, R289).
-/
namespace Sys2Proof.Machine

theorem sLane_eq {w z : Nat} (h : z < 2 ^ w) : sLane w z = if z < 2 ^ (w - 1) then (z : Int) else (z : Int) - 2 ^ w := by
  simp only [sLane, intOf, Nat.mod_eq_of_lt h, Bool.true_and, decide_eq_true_eq]
  by_cases hneg : 2 ^ (w - 1) ≤ z
  · rw [if_pos hneg, if_neg (Nat.not_lt.2 hneg)]
  · rw [if_neg hneg, if_pos (Nat.lt_of_not_le hneg)]

/-- A difference of lanes, as a number. -/
theorem natSub_eq {w p q : Nat} (h : q < 2 ^ w) : (p + 2 ^ w - q) % 2 ^ w = (((p : Int) - q) % 2 ^ w).toNat := by
  have e : (((p + 2 ^ w - q) % 2 ^ w : Nat) : Int) = ((p : Int) - q) % 2 ^ w := by
    push_cast [Nat.cast_sub (show q ≤ p + 2 ^ w by omega)]
    rw [show (p : Int) + 2 ^ w - q = p - q + 2 ^ w by ring, Int.add_emod_right]
  rw [← e, Int.toNat_natCast]

/-! The signed operations (R283). -/

section
variable {s : State} {d a b : BitVec 6} {m : BitVec 3} {w : BitVec 2}

theorem exec_vmulh_op : exec (.vmulh d a b m w) s = vop2 (laneBits w)
    (fun p q => natOf (laneBits w) (sLane (laneBits w) p * sLane (laneBits w) q / 2 ^ laneBits w)) d a b m s := rfl

theorem exec_vsra_op : exec (.vsra d a b m w) s = vop2 (laneBits w)
    (fun p q => natOf (laneBits w) (sLane (laneBits w) p / 2 ^ (q % laneBits w))) d a b m s := rfl

theorem exec_vmin_op : exec (.vmin d a b m w) s = vop2 (laneBits w)
    (fun p q => if sLane (laneBits w) q < sLane (laneBits w) p then q else p) d a b m s := rfl

theorem exec_vmax_op : exec (.vmax d a b m w) s = vop2 (laneBits w)
    (fun p q => if sLane (laneBits w) p < sLane (laneBits w) q then q else p) d a b m s := rfl

end

section
variable {s s1 s2 : State} {d a b : BitVec 6} {m : BitVec 3} {x y : VReg} (ha : Source s a x s1) (hb : Source s1 b y s2)
  (hcalm : Calm s s2) (hready : StreamsReady s (streamsOf [a, b]) (streamsOf [d]).head? false)
include ha hb hready

/-- An instruction of two vector sources runs on what they read (R275). -/
theorem vrun_two (k : VReg → VReg → State → Host.Outcome State Fault Refusal) :
    vrun [a, b] (some d) s (vsrc a s fun x s => vsrc b s fun y s => k x y s) = rollback s (k x y s2) := by
  rw [vrun_ready (dst := some d) hready, ha.reads, hb.reads]

include hcalm

/-- A lane-wise instruction delivers its operation on the lanes, whatever it is outside their range. -/
theorem vop2_delivers {w : Nat} {f f' : Nat → Nat → Nat} {ins : Instr} (hi : exec ins s = vop2 w f' d a b m s)
    (hf : ∀ p q, p < 2 ^ w → q < 2 ^ w → f' p q = f p q) :
    Delivers s s2 d w (s2.m m.toNat) (m != 0) ((List.range (512 / w)).map fun i => f (lane w x.val i) (lane w y.val i))
      (x.taint ||| y.taint) (exec ins s) := by
  have hlanes : ((lanes w x.val).zip (lanes w y.val)).map (fun (p, q) => f' p q)
      = (List.range (512 / w)).map fun i => f (lane w x.val i) (lane w y.val i) := by
    rw [lanes_zip, List.map_map]
    exact List.map_congr_left fun i _ => hf _ _ (lane_lt _ _ _) (lane_lt _ _ _)
  rw [hi, vop2, vrun_two ha hb hready, hlanes]
  exact vdst_delivers hcalm (by simp)

/-- VSEL takes each lane from the first source where the mask is set, else from the second (R286). -/
theorem vsel_delivers (w : BitVec 2) :
    Delivers s s2 d (laneBits w) ⟨BitVec.allOnes 64, (s2.m m.toNat).taint⟩ false
      ((List.range (512 / laneBits w)).map fun i =>
        if (s2.m m.toNat).val.getLsbD i then lane (laneBits w) x.val i else lane (laneBits w) y.val i)
      (x.taint ||| y.taint) (exec (.vsel d a b m w) s) := by
  rw [exec_vsel, execVsel, vrun_two ha hb hready, lanes_zip, zipIdx_map_range]
  simp only [List.map_map]
  exact vdst_delivers hcalm (by simp)

/-- VSHUF takes the lane that each lane of the second source names, or zero where there is none (R289). -/
theorem vshuf_delivers (w : BitVec 2) :
    Delivers s s2 d (laneBits w) (s2.m m.toNat) true
      ((List.range (512 / laneBits w)).map fun i => if lane (laneBits w) y.val i < 512 / laneBits w
        then lane (laneBits w) x.val (lane (laneBits w) y.val i) else 0)
      (x.taint ||| y.taint) (exec (.vshuf d a b m w) s) := by
  have hlanes : ((lanes (laneBits w) y.val).map fun k => (lanes (laneBits w) x.val).getD k 0)
      = (List.range (512 / laneBits w)).map fun i => if lane (laneBits w) y.val i < 512 / laneBits w
        then lane (laneBits w) x.val (lane (laneBits w) y.val i) else 0 := by
    rw [show lanes (laneBits w) y.val = (List.range (512 / laneBits w)).map _ from rfl, List.map_map]
    exact List.map_congr_left fun i _ => getD_lanes _ _ _
  rw [exec_vshuf, execVshuf, vrun_two ha hb hready]
  simp only [hlanes]
  exact vdst_delivers hcalm (by simp)

end
end Sys2Proof.Machine
end

section
/-!
CERTIFICATE. Integer vector instructions (R275, R276, R283, R286, R289).
-/
namespace Sys2Proof.Machine

/-- Settles O38: each lane of the result is the operation on the sources' lanes, taken as numbers, and the result goes where the
destination field says. -/
theorem vectorIntegers : Obligations.VectorIntegers := by
  unfold Obligations.VectorIntegers
  intro s s1 s2 d a b m w x y ha hb hcalm hready n k gives sig cut
  have hgives {ins w f' f} (hi : exec ins s = vop2 w f' d a b m s) (hf : ∀ p q, p < 2 ^ w → q < 2 ^ w → f' p q = f p q) :
      gives ins w f := vop2_delivers ha hb hcalm hready hi hf
  have hsame {ins w f} (hi : exec ins s = vop2 w f d a b m s) : gives ins w f := hgives hi fun _ _ _ _ => rfl
  have hsig (z : Nat) (hz : z < 2 ^ n) : sLane (laneBits w) z = sig z := sLane_eq hz
  clear_value gives
  refine ⟨hsame exec_vadd, hgives exec_vsub fun p q _ hq => natSub_eq hq, hsame exec_vmul,
    hgives exec_vmulh_op fun p q hp hq => ?_, hsame exec_vshl, hsame exec_vshr, hgives exec_vsra_op fun p q hp _ => ?_,
    hgives exec_vmin_op fun p q hp hq => ?_, hgives exec_vmax_op fun p q hp hq => ?_, hsame exec_vand, hsame exec_vor, hsame exec_vxor,
    vsel_delivers ha hb hcalm hready w, vshuf_delivers ha hb hcalm hready w⟩
  · rw [hsig p hp, hsig q hq]; rfl
  · rw [hsig p hp]; rfl
  · rw [hsig p hp, hsig q hq]
  · rw [hsig p hp, hsig q hq]

end Sys2Proof.Machine
end

section
/-!
SUPPORT. The other permutations (R80, R289) and the mask instructions (R291).
-/
namespace Sys2Proof.Machine

section
variable {s s1 : State} {d a b : BitVec 6} {m : BitVec 3} {x : VReg}

/-- An instruction of one vector source runs on what it reads (R275). -/
theorem vrun_one {dst : Option (BitVec 6)} (ha : Source s a x s1)
    (hready : StreamsReady s (streamsOf [a]) (streamsOf dst.toList).head? false) (k : VReg → State → Host.Outcome State Fault Refusal) :
    vrun [a] dst s (vsrc a s k) = rollback s (k x s1) := by
  rw [vrun_ready hready, ha.reads]

theorem vbcast_delivers (w : BitVec 2) (hstall : s.stalled = false) (hready : StreamsReady s [] (streamsOf [d]).head? false)
    (ha : s.busyG a = false) :
    Delivers s s d (laneBits w) (s.m m.toNat) true (List.replicate (512 / laneBits w) ((s.g a).val.toNat % 2 ^ laneBits w))
      (s.g a).taint (exec (.vbcast d a m w) s) := by
  rw [exec_vbcast, execVbcast, if_neg (by simp [ha]), vrun_ready (srcs := []) (dst := some d) hready]
  exact vdst_delivers ⟨hstall, rfl, rfl⟩ (by simp)

theorem vextr_writes (w : BitVec 2) (hb : s.busyG b = false) (ha : Source s a x s1) (hcalm : Calm s s1)
    (hready : StreamsReady s (streamsOf [a]) none false) :
    exec (.vextr d a b w) s = finished (s1.writeG d.toNat
      { val := BitVec.ofNat 64 (lane (laneBits w) x.val ((s.g b).val.toNat % (512 / laneBits w))), taint := x.taint ||| (s.g b).taint }) := by
  rw [exec_vextr, execVextr, if_neg (by simp [hb])]
  exact (vrun_one (dst := none) ha hready _).trans (hcalm.regs (s1.writeG_regs _ _)).rollback

/-- The lanes after VINS: the named one where the mask allows it (R289). -/
theorem insert_lane {n i : Nat} (hi : i < n) (hn : n ≤ 64) (k : Word) (low : Nat) (old : Nat → Nat) :
    ((List.range n).map fun l => if (if k.getLsbD i then (1 : Word) <<< i else 0).getLsbD l then (List.replicate n low).getD l 0 else old l)
      = (List.range n).map fun l => if l = i ∧ k.getLsbD i = true then low else old l := by
  refine List.map_congr_left fun l hl => ?_
  have hl : l < n := List.mem_range.1 hl
  have hbit : (if k.getLsbD i then (1 : Word) <<< i else 0).getLsbD l = decide (l = i ∧ k.getLsbD i = true) := by
    split
    next hk =>
      rw [show (1 : Word) <<< i = BitVec.twoPow 64 i from (BitVec.twoPow_eq 64 i).symm, BitVec.getLsbD_twoPow]
      simp [hk, show i < 64 by omega, eq_comm (a := i)]
    next hk => simp [hk]
  simp only [hbit, decide_eq_true_eq]
  simp [List.getD_eq_getElem?_getD, hl]

theorem lanes_le (w : BitVec 2) : 0 < 512 / laneBits w ∧ 512 / laneBits w ≤ 64 := by
  revert w; decide

theorem vins_writes (w : BitVec 2) (hd : d.toNat < 32) (hv : s.busyV d.toNat = false) (ha : s.busyG a = false)
    (hb : s.busyG b = false) :
    let n := laneBits w
    let i := (s.g b).val.toNat % (512 / n)
    let k := s.m m.toNat
    exec (.vins d a b m w) s = retired (s.writeV d.toNat
      { val := ofLanes n ((List.range (512 / n)).map fun l =>
          if l = i ∧ k.val.getLsbD i = true then (s.g a).val.toNat % 2 ^ n else lane n (s.v d.toNat).val l)
        taint := (s.g a).taint ||| (s.g b).taint ||| k.taint ||| (s.v d.toNat).taint }) := by
  intro n i k
  have hi : i < 512 / n := Nat.mod_lt _ (lanes_le w).1
  rw [exec_vins, execVins, if_neg (by simp [hv, ha, hb])]
  simp only [vdst, if_pos hd, lanes, picked_lanes (List.length_replicate ..), if_true]
  rw [insert_lane hi (lanes_le w).2]
  rfl

theorem vslide_delivers (w : BitVec 2) (hready : StreamsReady s (streamsOf [a]) (streamsOf [d]).head? false) (hb : s.busyG b = false)
    (ha : Source s a x s1) (hcalm : Calm s s1) :
    let n := laneBits w
    let j := (s.g b).val.toInt
    Delivers s s1 d n (s1.m m.toNat) true ((List.range (512 / n)).map fun l =>
        if 0 ≤ (l : Int) + j ∧ (l : Int) + j < (512 / n : Nat) then lane n x.val ((l : Int) + j).toNat else 0)
      (x.taint ||| (s.g b).taint) (exec (.vslide d a b m w) s) := by
  intro n j
  have hlanes : ((List.range (512 / n)).map fun l => if 0 ≤ (l : Int) + j then (lanes n x.val).getD ((l : Int) + j).toNat 0 else 0)
      = (List.range (512 / n)).map fun l =>
        if 0 ≤ (l : Int) + j ∧ (l : Int) + j < (512 / n : Nat) then lane n x.val ((l : Int) + j).toNat else 0 := by
    refine List.map_congr_left fun l _ => ?_
    by_cases h : 0 ≤ l + j
    · simp only [if_true, getD_lanes, h, true_and, show l + j < (512 / n : Nat) ↔ (l + j).toNat < 512 / n by omega]
    · rw [if_neg h, if_neg fun hc => h hc.1]
  rw [exec_vslide, execVslide, if_neg (by simp [hb]), vrun_one (dst := some d) ha hready]
  simp only [← hlanes]
  exact vdst_delivers hcalm (by simp)

/-! Masks (R291). -/

theorem mpopc_counts : exec (.mpopc d a) s = wrote s d
    (BitVec.ofNat 64 ((List.range 64).map fun i => if (s.m a.toNat).val.getLsbD i then 1 else 0).sum) (s.m a.toNat).taint := by
  rw [exec_mpopc, execMpopc, ← onesCount_eq_sum]
  rfl

theorem mfirst_finds : ∃ r : Nat, exec (.mfirst d a) s = wrote s d (BitVec.ofNat 64 r) (s.m a.toNat).taint ∧ r ≤ 64
    ∧ (r < 64 → (s.m a.toNat).val.getLsbD r = true) ∧ ∀ i, i < r → (s.m a.toNat).val.getLsbD i = false := by
  obtain ⟨hle, -, hbefore, hfound⟩ := trailingZeros_counts (s.m a.toNat).val
  exact ⟨trailingZeros (s.m a.toNat).val, rfl, hle, hfound, hbefore⟩

end
end Sys2Proof.Machine
end

section
/-!
CERTIFICATE. Permutations and mask instructions (R80, R289, R291).
-/
namespace Sys2Proof.Machine

/-- Settles O39: the permutations move the lanes that the registers name as the instruction issues, and the mask instructions combine
the bits of their masks. -/
theorem permutationsAndMasks : Obligations.PermutationsAndMasks := by
  unfold Obligations.PermutationsAndMasks
  intro s s1 d a b m w x n lanes open_ i k low j masks u v
  exact ⟨vbcast_delivers w, vextr_writes w, vins_writes w, vslide_delivers w, exec_mand, exec_mor, exec_mxor, exec_mnot,
    mpopc_counts, mfirst_finds⟩

end Sys2Proof.Machine
end

section
/-!
SUPPORT. Floating-point lane instructions (R278, R284, R285): what each lane computes, and the mask of a comparison.
-/
namespace Sys2Proof.Machine

theorem length_roundLanes (f : Fmt) (mode : Nat) (sat : Bool) (xs : List (Option (Exact × BitVec 5))) (env : FpEnv) :
    (roundLanes f mode sat xs env).1.length = xs.length := by
  induction xs generalizing env with
  | nil => rfl
  | cons x xs ih =>
    cases x with
    | none => exact congrArg Nat.succ (ih _)
    | some v => exact congrArg Nat.succ (ih _)

/-- The exact result of a lane and its flags: NaN and NV where an operand that counts is a signaling NaN (R92, R284). -/
def fopLane (f : Fmt) (op : Exact → Exact → Exact → Exact × BitVec 5) (fma : Bool) (x y z : Nat) : Exact × BitVec 5 :=
  let u := f.decode x
  let v := f.decode y
  let c := f.decode z
  let sig := u.2 || v.2 || (fma && c.2)
  (if sig then .nan else (op u.1 v.1 c.1).1, (op u.1 v.1 c.1).2 ||| snanFlag sig)

/-- The active lanes of a result, rounded in ascending order in the mode of FPSTAT (R89, R278). -/
def roundActive (t : State) (f : Fmt) (k : MReg) (z : Nat → Exact × BitVec 5) : List Nat × FpEnv :=
  roundLanes f (fpMode t.task.fpstat) false ((List.range (512 / f.bits)).map fun i => if k.val.getLsbD i then some (z i) else none)
    (FpEnv.of t.task.fpstat)

theorem length_roundActive (t : State) (f : Fmt) (k : MReg) (z : Nat → Exact × BitVec 5) :
    (roundActive t f k z).1.length = 512 / f.bits := by
  rw [roundActive, length_roundLanes, List.length_map, List.length_range]

/-- Roundings change FPSTAT alone (R90). -/
theorem Calm.putFp {s t : State} (h : Calm s t) (env : FpEnv) : Calm s (t.putFp env) := h.mapTask ⟨rfl, rfl⟩

section
variable {s s1 s2 : State} {d a b : BitVec 6} {m : BitVec 3} {x y : VReg} (ha : Source s a x s1) (hb : Source s1 b y s2)
  (hcalm : Calm s s2) (hready : StreamsReady s (streamsOf [a, b]) (streamsOf [d]).head? false)
include ha hb hready hcalm

theorem fop_delivers {f : Fmt} {op : Exact → Exact → Exact → Exact × BitVec 5} {fma : Bool} (hd : (fma && s.busyV d.toNat) = false) :
    let k := s2.m m.toNat
    let z := if fma then (s2.v d.toNat).val else 0
    let out := roundActive s2 f k fun i => fopLane f op fma (lane f.bits x.val i) (lane f.bits y.val i) (lane f.bits z i)
    Delivers s (s2.putFp out.2) d f.bits k (m != 0 || fma) out.1 (x.taint ||| y.taint) (fop f op fma d a b m s) := by
  intro k z out
  rw [fop, if_neg (by simp [hd]), vrun_two ha hb hready]
  exact vdst_delivers (hcalm.putFp _) (length_roundActive _ _ _ _)

theorem fminmax_delivers {t : BitVec 2} {isMax : Bool} :
    let f := laneFmt t
    let w := f.bits
    let k := s2.m m.toNat
    let rs := (List.range (512 / w)).map fun i =>
      if k.val.getLsbD i then fpMinMax f isMax (lane w x.val i) (lane w y.val i) else (0, 0)
    Delivers s (s2.raise (rs.foldl (fun a r => a ||| r.2) 0)) d w k (m != 0) (rs.map (·.1)) (x.taint ||| y.taint)
      (fminmax isMax d a b m t s) := by
  intro f w k rs
  rw [fminmax, vrun_two ha hb hready]
  exact vdst_delivers (hcalm.putFp _) (by simp [rs])

end

theorem vfsqrt_delivers {s s1 : State} {d a : BitVec 6} {m : BitVec 3} {t : BitVec 2} {x : VReg} (ha : Source s a x s1)
    (hcalm : Calm s s1) (hready : StreamsReady s (streamsOf [a]) (streamsOf [d]).head? false) :
    let f := laneFmt t
    let u := fun i => f.decode (lane f.bits x.val i)
    let out := roundActive s1 f (s1.m m.toNat) fun i =>
      (if (u i).2 then .nan else (Exact.sqrt (u i).1).1, (Exact.sqrt (u i).1).2 ||| snanFlag (u i).2)
    Delivers s (s1.putFp out.2) d f.bits (s1.m m.toNat) (m != 0) out.1 x.taint (exec (.vfsqrt d a m t) s) := by
  intro f u out
  rw [exec_vfsqrt, execVfsqrt, vrun_one (dst := some d) ha hready]
  exact vdst_delivers (hcalm.putFp _) (length_roundActive _ _ _ _)

/-! Comparisons (R285). -/

/-- Bits gathered one by one from bit 0 on. -/
def gatherBits (p : Nat → Bool) (n : Nat) : Nat := (List.range n).foldl (fun b i => if p i then b + 2 ^ i else b) 0

theorem gatherBits_succ (p : Nat → Bool) (n : Nat) :
    gatherBits p (n + 1) = if p n then gatherBits p n + 2 ^ n else gatherBits p n := by
  simp only [gatherBits, List.range_succ, List.foldl_append, List.foldl_cons, List.foldl_nil]

theorem gatherBits_lt (p : Nat → Bool) (n : Nat) : gatherBits p n < 2 ^ n := by
  induction n with
  | zero => exact Nat.one_pos
  | succ n ih => rw [gatherBits_succ, Nat.pow_succ]; split <;> omega

theorem testBit_gatherBits (p : Nat → Bool) (n i : Nat) : (gatherBits p n).testBit i = (decide (i < n) && p i) := by
  induction n with
  | zero => simp [gatherBits]
  | succ n ih =>
    have hor : gatherBits p n + 2 ^ n = 2 ^ n ||| gatherBits p n := by
      simpa [Nat.add_comm] using Nat.two_pow_add_eq_or_of_lt (gatherBits_lt p n) 1
    rw [gatherBits_succ]
    by_cases hi : i = n
    · subst hi; cases hp : p i <;> simp [hor, ih, hp]
    · have hlt : i < n + 1 ↔ i < n := by omega
      split <;> simp [hor, ih, hlt, Ne.symm hi]

/-- The outcome of a comparison in a lane, and the flags it raises (R285). -/
def cmpLane (c : Nat) (w : Nat) (f : Option Fmt) (x y : Nat) : Bool × BitVec 5 :=
  match f with
  | none => (icmp c w x y, 0)
  | some f => fcmp f c x y

/-- What VCMP finds lane by lane: nothing in an inactive lane (R285). -/
def cmpLanes (c : Nat) (t : BitVec 3) (k : MReg) (x y : VReg) : List (Bool × BitVec 5) :=
  (List.range (512 / (cmpType t).1)).map fun i =>
    if !active k i then (false, 0) else cmpLane c (cmpType t).1 (cmpType t).2 (lane (cmpType t).1 x.val i) (lane (cmpType t).1 y.val i)

theorem cmpLanes_eq (c : Nat) (t : BitVec 3) (k : MReg) (x y : VReg) :
    cmpLanes c t k x y = (List.range (512 / (cmpType t).1)).map fun i => if k.val.getLsbD i
      then cmpLane c (cmpType t).1 (cmpType t).2 (lane (cmpType t).1 x.val i) (lane (cmpType t).1 y.val i) else (false, 0) := by
  refine List.map_congr_left fun i _ => ?_
  by_cases h : k.val.getLsbD i = true
  · rw [if_pos h, if_neg (by simp [active, h])]
  · rw [if_neg h, if_pos (by simpa [active] using h)]

/-- The mask and the flags of the lanes found (R285). -/
def cmpEnd (p : BitVec 3) (rs : List (Bool × BitVec 5)) (τ : BitVec 8) (t : State) : State :=
  (t.raise (rs.foldl (fun a r => a ||| r.2) 0)).writeM p.toNat
    ⟨BitVec.ofNat 64 (rs.zipIdx.foldl (fun n (r, i) => if r.1 then n + 2 ^ i else n) 0), τ⟩

theorem cmpEnd_map (p : BitVec 3) (n : Nat) (r : Nat → Bool × BitVec 5) (τ : BitVec 8) (t : State) :
    cmpEnd p ((List.range n).map r) τ t = (t.raise ((List.range n).foldl (fun g i => g ||| (r i).2) 0)).writeM p.toNat
      ⟨BitVec.ofNat 64 (gatherBits (fun i => (r i).1) n), τ⟩ := by
  rw [cmpEnd, zipIdx_map_range, List.foldl_map, List.foldl_map]
  rfl

theorem vcmp_writes {s s1 s2 : State} {c p m t : BitVec 3} {a b : BitVec 6} {x y : VReg} (ha : Source s a x s1) (hb : Source s1 b y s2)
    (hcalm : Calm s s2) (hready : StreamsReady s (streamsOf [a, b]) none false) :
    exec (.vcmp c p a b m t) s = finished (cmpEnd p (cmpLanes c.toNat t (s2.m m.toNat) x y)
      (x.taint ||| y.taint ||| (s2.m m.toNat).taint) s2) := by
  have hrun : exec (.vcmp c p a b m t) s = vrun [a, b] none s (vsrc a s fun x s => vsrc b s fun y s =>
      retire (cmpEnd p (cmpLanes c.toNat t (s.m m.toNat) x y) (x.taint ||| y.taint ||| (s.m m.toNat).taint) s)) := rfl
  rw [hrun, vrun_ready (srcs := [a, b]) (dst := none) hready, ha.reads, hb.reads]
  exact ((hcalm.putFp _).regs (State.writeM_regs _ _ _)).rollback

end Sys2Proof.Machine
end

section
/-!
CERTIFICATE. Floating-point vector instructions (R89, R91, R278, R284, R285).
-/
namespace Sys2Proof.Machine

/-- Settles O40: the lanes that the mask names are rounded in order, and a comparison gathers a mask of them. -/
theorem vectorFloats : Obligations.VectorFloats := by
  unfold Obligations.VectorFloats
  intro s s1 s2 d a b m t x y c p t' ha hb hcalm ready f w k env rounded u v z mode lanes2 minmax
  have hop {ins op} (hi : exec ins s = fop f (fun p q _ => op p q) false d a b m s) (hready : ready [a, b] [d]) : lanes2 ins op := by
    have h := fop_delivers ha hb hcalm hready (f := f) (op := fun p q _ => op p q) (fma := false) (m := m) rfl
    simp only [fopLane, roundActive, Bool.false_and, Bool.or_false, ← hi] at h
    exact h
  have hminmax {ins isMax} (hi : exec ins s = fminmax isMax d a b m t s) (hready : ready [a, b] [d]) : minmax ins isMax := by
    have h := fminmax_delivers ha hb hcalm hready (m := m) (t := t) (isMax := isMax)
    rw [← hi] at h
    exact h
  refine ⟨fun hready => ?_, fun hd hv hready => ?_, fun hready hcalm => vfsqrt_delivers ha hcalm hready, fun hready => ?_⟩
  · clear_value lanes2 minmax
    exact ⟨hop exec_vfadd hready, hop exec_vfsub hready, hop exec_vfmul hready, hop exec_vfdiv hready,
      hminmax exec_vfmin hready, hminmax exec_vfmax hready⟩
  · have h := fop_delivers ha hb hcalm hready (f := f) (op := fun p q r =>
      ((Exact.sum mode [(Exact.mul p q).1, r]).1, (Exact.mul p q).2 ||| (Exact.sum mode [(Exact.mul p q).1, r]).2))
      (fma := true) (m := m) (by simp [hv])
    simp only [fopLane, roundActive, Bool.true_and, Bool.or_true] at h
    exact h
  · intro w r is
    refine ⟨BitVec.ofNat 64 (gatherBits (fun i => (r i).1) (512 / w)), fun i => ?_, ?_⟩
    · have hw : 512 / w ≤ 64 := (by decide : ∀ t : BitVec 3, 512 / (cmpType t).1 ≤ 64) t'
      rw [BitVec.getLsbD_ofNat, testBit_gatherBits, ← Bool.and_assoc, ← Bool.decide_and,
        decide_eq_decide.2 (and_iff_right_of_imp fun h : i < 512 / w => h.trans_le hw)]
    · rw [vcmp_writes ha hb hcalm hready, cmpLanes_eq, cmpEnd_map]
      rfl

end Sys2Proof.Machine
end

section
/-!
SUPPORT. Conversions, reductions and scans (R101, R102, R287, R288, R290).
-/
namespace Sys2Proof.Machine

theorem length_scanRound (t op mode d : Nat) (xs : List (Option Nat)) (env : FpEnv) :
    (scanRound t op mode d xs env).1.length = xs.length := by
  have hfold (l : List (Option Nat × Nat)) (f : List (Option Nat) × FpEnv → Option Nat × Nat → List (Option Nat) × FpEnv)
      (hf : ∀ acc y, (f acc y).1.length = acc.1.length + 1) (acc : List (Option Nat) × FpEnv) :
      (l.foldl f acc).1.length = acc.1.length + l.length := by
    induction l generalizing acc with
    | nil => rfl
    | cons y l ih => rw [List.foldl_cons, ih, hf, List.length_cons]; omega
  refine (hfold _ _ (fun acc y => ?_) _).trans (by simp)
  dsimp only
  split <;> simp

/-- The rounds of a scan, of doubling distance (R102). -/
def scanRounds (t op mode : Nat) (n : Nat) (xs : List (Option Nat)) (env : FpEnv) : List (Option Nat) × FpEnv :=
  (List.range n).foldl (fun acc i => scanRound t op mode (2 ^ i) acc.1 acc.2) (xs, env)

theorem length_scanRounds (t op mode n : Nat) (xs : List (Option Nat)) (env : FpEnv) :
    (scanRounds t op mode n xs env).1.length = xs.length := by
  induction n with
  | zero => rfl
  | succ n ih =>
    rw [scanRounds, List.range_succ, List.foldl_append]
    exact (length_scanRound _ _ _ _ _ _).trans ih

/-- The lanes that take part in a reduction or a scan (R290). -/
def takingPart (w : Nat) (k : MReg) (x : VWord) : List (Option Nat) :=
  (lanes w x).zipIdx.map fun (y, i) => if k.val.getLsbD i then some y else none

theorem typeBits_lanes (t : BitVec 4) : 0 < 512 / typeBits t.toNat := by
  revert t; decide

/-- The elements after a conversion: those of the group that are converted, and the old ones (R287). -/
theorem convertedLanes_eq (w lo g : Nat) (on : Nat → Bool) (out : List Nat) (old : VWord) :
    ((lanes w old).zipIdx.map fun (o, i) => if lo ≤ i && i < lo + g && on (i - lo) then out.getD (i - lo) 0 else o)
      = (List.range (512 / w)).map fun i =>
        if lo ≤ i ∧ i < lo + g ∧ on (i - lo) = true then out.getD (i - lo) 0 else lane w old i := by
  rw [lanes_zipIdx, List.map_map]
  exact List.map_congr_left fun i _ => by simp only [Function.comp, Bool.and_eq_true, decide_eq_true_eq, and_assoc]

section
variable {s s1 : State} {d a : BitVec 6} {m : BitVec 3} {x : VReg} (ha : Source s a x s1) (hcalm : Calm s s1)
  (hready : StreamsReady s (streamsOf [a]) (streamsOf [d]).head? false)
include ha hcalm hready

theorem vred_delivers (o : BitVec 2) (t : BitVec 4) :
    let w := typeBits t.toNat
    let k := s1.m m.toNat
    let r := treeReduce t.toNat o.toNat (fpMode s1.task.fpstat) (Nat.log2 (512 / w)) (takingPart w k x.val)
      (FpEnv.of s1.task.fpstat)
    Delivers s (s1.putFp r.2) d w ⟨BitVec.allOnes 64, k.taint⟩ false
      (r.1.getD (redIdentity t.toNat o.toNat) :: List.replicate (512 / w - 1) 0) x.taint (exec (.vred d a o t m) s) := by
  intro w k r
  rw [exec_vred, execVred, vrun_one (dst := some d) ha hready]
  exact vdst_delivers (hcalm.putFp _) (by simpa using Nat.sub_add_cancel (typeBits_lanes t))

theorem vscan_delivers (o : BitVec 2) (t : BitVec 4) :
    let w := typeBits t.toNat
    let k := s1.m m.toNat
    let r := scanRounds t.toNat o.toNat (fpMode s1.task.fpstat) (Nat.log2 (512 / w)) (takingPart w k x.val)
      (FpEnv.of s1.task.fpstat)
    Delivers s (s1.putFp r.2) d w k true (r.1.map fun z => z.getD 0) x.taint (exec (.vscan d a o t m) s) := by
  intro w k r
  rw [exec_vscan, execVscan, vrun_one (dst := some d) ha hready]
  exact vdst_delivers (hcalm.putFp _) (by rw [List.length_map, length_scanRounds, takingPart, List.length_map, List.length_zipIdx, length_lanes])

/-- A conversion goes over a group of the source's elements, or into a group of the destination's (R287). -/
theorem vcvt_delivers (q : BitVec 2) (src t : BitVec 4) (sat : BitVec 1) {on : Nat → Bool}
    (hon : on = fun j => active (s1.m m.toNat) (if typeBits src.toNat = 4 && typeBits t.toNat = 4 then j / 2 else j)) :
    let k := s1.m m.toNat
    let ws := typeBits src.toNat
    let wd := typeBits t.toNat
    let g := min (512 / ws) (512 / wd)
    let from_ := if ws < wd then q.toNat * g else 0
    let into := if wd < ws then q.toNat * g else 0
    let old : VWord := if d.toNat < 32 then (s1.v d.toNat).val else 0
    let out := convertAll src.toNat t.toNat (sat == 1) (fpMode s1.task.fpstat)
      ((List.range g).map fun j => if on j then some (lane ws x.val (from_ + j)) else none) (FpEnv.of s1.task.fpstat)
    let elems := (List.range (512 / wd)).map fun i => if into ≤ i ∧ i < into + g ∧ on (i - into) = true then out.1.getD (i - into) 0
      else lane wd old i
    Delivers s (s1.putFp out.2) d 64 ⟨BitVec.allOnes 64, k.taint⟩ (m != 0 || decide (g < 512 / wd))
      (lanes 64 (ofLanes wd elems)) x.taint (exec (.vcvt d a q src m sat t) s) := by
  subst hon
  intro k ws wd g from_ into old out elems
  have helems : elems = _ := (convertedLanes_eq wd into g (fun j => active k (if ws = 4 && wd = 4 then j / 2 else j)) out.1 old).symm
  rw [exec_vcvt, execVcvt, vrun_one (dst := some d) ha hready, helems]
  exact vdst_delivers (hcalm.putFp _) (length_lanes _ _)

end
end Sys2Proof.Machine
end

section
/-!
CERTIFICATE. Conversions, reductions and scans (R101, R102, R287, R288, R290).
-/
namespace Sys2Proof.Machine

/-- Settles O41: what the groups, trees and rounds give goes to the destination, with FPSTAT as they leave it. -/
theorem conversionsAndReductions : Obligations.ConversionsAndReductions := by
  unfold Obligations.ConversionsAndReductions
  intro s s1 d a q src t m sat o x ha hcalm hready k env mode ws wd g on from_ into old part
  have hon : on = fun j => active k (if ws = 4 && wd = 4 then j / 2 else j) := funext fun j => by simp [on, active]
  exact ⟨vcvt_delivers ha hcalm hready q src t sat hon, vred_delivers ha hcalm hready o t, vscan_delivers ha hcalm hready o t⟩

end Sys2Proof.Machine
end

section
/-!
SUPPORT. Accesses of several pieces (R280 to R282, R307): where they stand, and what they issue as loads and as stores.
-/
namespace Sys2Proof.Machine

section
variable {s : State}

theorem checkPieces_held {c : Reg} {perm align : Nat} {xs : List Piece} (h : PiecesHeld s c perm align xs)
    (ok : State → Host.Outcome State Fault Refusal) : checkPieces c perm align xs s ok = ok s := by
  have hnone : (xs.findSome? fun (x, n) => (capFault (s.supAt s.cur) c x n [perm] align).map fun cause => (cause, x)) = none :=
    List.findSome?_eq_none_iff.2 fun x hx => by simp only [h x hx, Option.map_none]
  unfold checkPieces
  rw [hnone]

theorem locatePieces_at {acc : Access} {xs : List Piece} {ls : List Located} (h : PiecesAt s acc xs ls)
    (ok : List Located → Host.Outcome State Fault Refusal) : locatePieces acc xs s ok = ok ls := by
  obtain ⟨rfl, hat⟩ := h
  induction ls generalizing ok with
  | nil => rfl
  | cons l ls ih =>
    obtain ⟨hl, hls⟩ := List.forall_mem_cons.1 hat
    rw [List.map_cons, locatePieces, located, hl.1]
    exact ih _ hls

/-- A load of pieces outside a transaction issues as one operation, after the release point that it may be (R37, R281). -/
def piecesLoaded (s : State) (dest : Dest) (fin : Finish) (ls : List Located) (deps keep : BitVec 8) : State :=
  (if ls.any fun l => remoteShare l.place then s.releasePoint else s).issueLoad dest
    { op := 0, gen := 0, kind := .load, va := (ls.head?.map (·.va)).getD 0, addrs := ls.flatMap Located.bytes, fin
      place := piecesPlace ls } deps keep

theorem loadPieces_issues {dest : Dest} {fin : Finish} {xs : List Piece} {ls : List Located} {deps keep : BitVec 8}
    (htxn : s.task.txn = none) (h : PiecesAt s .read xs ls) :
    loadPieces dest fin ls deps keep s = retired (piecesLoaded s dest fin ls deps keep) := by
  have hpass (l : Located) (hl : l ∈ ls) (k : State → Host.Outcome State Fault Refusal) :
      (hostReachable l.place l.va s fun s => unpoisoned l.bytes l.va s k) = k s := by
    obtain ⟨-, hport, hclear⟩ := h.2 l hl
    rw [hostReachable_live hport, unpoisoned_clear (hclear rfl)]
  rw [loadPieces, if_neg (by simp [htxn]), eachPiece_passes hpass]
  rfl

end

/-! Stores of pieces. -/

theorem insertNat_sorted {l : List Nat} {k : Nat} (h : l.Pairwise (· < ·)) : (insertNat l k).Pairwise (· < ·) := by
  induction l with
  | nil => exact List.pairwise_singleton _ _
  | cons j l ih =>
    obtain ⟨hj, hl⟩ := List.pairwise_cons.1 h
    unfold insertNat
    split
    next hk => exact List.pairwise_cons.2 ⟨by simpa using ⟨hk, fun i hi => hk.trans (hj i hi)⟩, h⟩
    next hk =>
      split
      · exact h
      next hne =>
        refine List.pairwise_cons.2 ⟨fun i hi => ?_, ih hl⟩
        rcases mem_insertNat.1 hi with rfl | hi
        · omega
        · exact hj i hi

theorem foldl_insertNat_nodup (l : List Nat) : (l.foldl insertNat []).Nodup := by
  have hfold (l acc : List Nat) (h : acc.Pairwise (· < ·)) : (l.foldl insertNat acc).Pairwise (· < ·) := by
    induction l generalizing acc with
    | nil => exact h
    | cons k l ih => exact ih _ (insertNat_sorted h)
  exact (hfold l [] List.Pairwise.nil).imp Nat.ne_of_lt

/-- The lines of cells, in rising order (R281). -/
def cellLines (cells : List (Nat × Byte × Place)) : List Nat := (cells.map fun (a, _) => a / 128).foldl insertNat []

/-- The cells of a line. -/
def lineCells (cells : List (Nat × Byte × Place)) (n : Nat) : List (Nat × Byte × Place) := cells.filter fun (a, _) => a / 128 == n

/-- The lines whose first cell is homed in the core's own module are no more than those with a cell that is. -/
theorem homedLines_le (home : Place → Bool) (cells : List (Nat × Byte × Place)) :
    ((cellLines cells).filter fun n => home (((lineCells cells n).head?.map fun (_, _, p) => p).getD .own)).length
      ≤ ((cells.filter fun (_, _, p) => home p).map fun (a, _) => a / 128).dedup.length := by
  refine (List.subperm_of_subset ((foldl_insertNat_nodup _).filter _) fun n hn => ?_).length_le
  obtain ⟨hline, hhome⟩ := List.mem_filter.1 hn
  obtain ⟨c, hc, hcn⟩ : ∃ c ∈ cells, c.1 / 128 = n := by
    simpa [cellLines, mem_foldl_insertNat] using hline
  have hmem : c ∈ lineCells cells n := List.mem_filter.2 ⟨hc, by simpa using hcn⟩
  cases h : lineCells cells n with
  | nil => rw [h] at hmem; exact absurd hmem List.not_mem_nil
  | cons d ds =>
    obtain ⟨hd, hdn⟩ := List.mem_filter.1 (h ▸ List.mem_cons_self : d ∈ lineCells cells n)
    rw [h] at hhome
    exact List.mem_dedup.2 (List.mem_map.2 ⟨d, List.mem_filter.2 ⟨hd, hhome⟩, by simpa using hdn⟩)

theorem storePieces_issues {s : State} {xs : List Piece} {ls : List Located} {ws : List (Located × List Byte)} {deps : BitVec 8}
    (htxn : s.task.txn = none) (h : PiecesAt s .write xs ls) (hws : ∀ w ∈ ws, w.1 ∈ ls) (hroom : PiecesCounted s ws) :
    storePieces ws deps s = retired (piecesStored s ws deps) := by
  have hpass (l : Located) (hl : l ∈ ws.map (·.1)) (k : State → Host.Outcome State Fault Refusal) :
      (hostReachable l.place l.va s fun s' => if (s.task.txn.isSome && tracked l.place) = true then track l.va l.place true s' k else k s')
        = k s := by
    obtain ⟨w, hw, rfl⟩ := List.mem_map.1 hl
    rw [hostReachable_live (h.2 w.1 (hws w hw)).2.1, if_neg (by simp [htxn])]
  have hfits : ¬ 64 < s.task.sack + ((cellLines (pieceCells ws)).filter fun n => State.placeMod s.cur
      (((lineCells (pieceCells ws) n).head?.map fun (_, _, p) => p).getD .own) == modOf s.cur).length :=
    Nat.not_lt.2 ((Nat.add_le_add_left (homedLines_le (fun p => State.placeMod s.cur p == modOf s.cur) _) _).trans hroom)
  rw [storePieces]
  refine (eachPiece_passes hpass _).trans ?_
  have hnone (ls : List Located) : (ls.any fun l => s.task.txn.isSome && tracked l.place) = false := by simp [htxn]
  have hspec : ws.filter (fun w => s.task.txn.isSome && tracked w.1.place) = [] := by simp [htxn]
  have hplain : ws.filter (fun w => !(s.task.txn.isSome && tracked w.1.place)) = ws := by simp [htxn]
  simp only [hnone, hspec, hplain, Bool.false_and, Bool.false_eq_true, if_false]
  exact if_neg hfits

end Sys2Proof.Machine
end

section
/-!
SUPPORT. Vector loads and stores (R280 to R282).
-/
namespace Sys2Proof.Machine

/-- The active lanes of a mask (R280). -/
def lanesOn (k : MReg) (w : Nat) : List Nat := (List.range (512 / w)).filter fun i => k.val.getLsbD i

section
variable {s : State} {d a : BitVec 6} {m : BitVec 3} {w : Nat} {τ : BitVec 8} {addr : Nat → Word} {ls : List Located}

theorem activeLanes_eq (k : MReg) (w : Nat) (addr : Nat → Word) : activeLanes k w addr = (lanesOn k w).map fun i => (i, addr i) := rfl

theorem vload_idle {bcast : Bool} (h : lanesOn (s.m m.toNat) w = []) : vload d a m w τ bcast addr s = retired s :=
  if_pos (by rw [activeLanes_eq, h]; rfl)

variable (htxn : s.task.txn = none)
include htxn

theorem vload_issues {bcast : Bool} {on : List Nat} (hon : lanesOn (s.m m.toNat) w = on) (hne : on ≠ []) :
    let xs := (if bcast then on.take 1 else on).map fun i => (addr i, w / 8)
    PiecesHeld s (s.g a) pLD (w / 8) xs → PiecesAt s .read xs ls →
      vload d a m w τ bcast addr s = retired (piecesLoaded s (.v d.toNat) (.vec on w bcast) ls
        ((s.g a).taint ||| τ ||| (s.m m.toNat).taint) (if m = 0 then 0 else (s.v d.toNat).taint)) := by
  intro xs hheld hat
  have hsome : (activeLanes (s.m m.toNat) w addr).isEmpty = false := by simpa [activeLanes_eq, hon] using hne
  have hpieces : ((if bcast then (activeLanes (s.m m.toNat) w addr).take 1 else activeLanes (s.m m.toNat) w addr).map
      fun (_, x) => (x, w / 8)) = xs := by
    rw [activeLanes_eq, hon]; cases bcast <;> simp [xs, List.map_take, Function.comp_def]
  have hlanes : (activeLanes (s.m m.toNat) w addr).map (·.1) = on := by rw [activeLanes_eq, hon]; simp [Function.comp_def]
  rw [vload, if_neg (by simp [hsome])]
  simp only [hpieces, hlanes]
  rw [checkPieces_held hheld, locatePieces_at hat, loadPieces_issues htxn hat]

theorem vstore_issues {on : List Nat} (hon : lanesOn (s.m m.toNat) w = on) :
    let xs := on.map fun i => (addr i, w / 8)
    let ws := ls.zip (on.map fun i => bytesOf (w / 8) (lane w (s.v d.toNat).val i))
    PiecesHeld s (s.g a) pST (w / 8) xs → PiecesAt s .write xs ls → PiecesCounted s ws →
      vstore d a m w τ addr s = retired (piecesStored s ws
        ((s.g a).taint ||| τ ||| (s.m m.toNat).taint ||| (s.v d.toNat).taint)) := by
  intro xs ws hheld hat hroom
  have hpieces : ((activeLanes (s.m m.toNat) w addr).map fun (_, x) => (x, w / 8)) = xs := by
    rw [activeLanes_eq, hon]; simp [xs]
  have hbytes : ((activeLanes (s.m m.toNat) w addr).map fun (i, _) => bytesOf (w / 8) (lane w (s.v d.toNat).val i))
      = on.map fun i => bytesOf (w / 8) (lane w (s.v d.toNat).val i) := by
    rw [activeLanes_eq, hon]; simp
  rw [vstore]
  simp only [hpieces, hbytes]
  rw [checkPieces_held hheld, locatePieces_at hat, storePieces_issues htxn hat (fun _ hw => (List.of_mem_zip hw).1) hroom]

end
end Sys2Proof.Machine
end

section
/-!
CERTIFICATE. Vector loads and stores (R280 to R282).
-/
namespace Sys2Proof.Machine

/-- Settles O42: an access of the active lanes, each checked and translated, issues as one load, or as a store for each line. -/
theorem vectorMemory : Obligations.VectorMemory := by
  unfold Obligations.VectorMemory
  intro s d a b m w ls htxn ha hd c n k on size unit stride index keep loads stores
  have hload {ins τ bcast addr} (hi : exec ins s = vload d a m (laneBits w) τ bcast addr s) : loads ins τ bcast addr :=
    ⟨fun h => hi.trans (vload_idle h), fun hne hheld hat => hi.trans (vload_issues htxn rfl hne hheld hat)⟩
  have hstore {ins τ addr} (hi : exec ins s = vstore d a m (laneBits w) τ addr s) : stores ins τ addr :=
    fun hheld hat hroom => hi.trans (vstore_issues htxn rfl hheld hat hroom)
  clear_value loads stores
  exact ⟨hload (exec_vld.trans (if_neg (by simp [ha]))), hload (exec_vldbc.trans (if_neg (by simp [ha]))),
    fun hb => hload (exec_vlds.trans (if_neg (by simp [ha, hb]))), fun hb => hload (exec_vgath.trans (if_neg (by simp [ha, hb]))),
    fun hv => ⟨hstore (exec_vst.trans (if_neg (by simp [ha, hv]))), fun hb => hstore (exec_vsts.trans (if_neg (by simp [ha, hb, hv]))),
      fun hb => hstore (exec_vscat.trans (if_neg (by simp [ha, hb, hv])))⟩⟩

end Sys2Proof.Machine
end

section
/-!
SUPPORT. A context with a vector load under way into the first register of a pair, while a general register carries the load's taint.
-/
namespace Sys2Proof.Machine

/-- The machine after reset, but that context 0 names tile 0, a load into v0 is under way in slot 0, and g1 carries that slot. -/
def pairPending : State := State.reset.mapTask fun t =>
  { t with slots := 1, tiles := [(0, 0)], g := [(1, { taint := 1 })]
           pend := [{ op := 0, gen := 0, kind := .load, dest := .v 0, slot := some 0 }] }

/-- The taint of a vector register after an instruction. -/
def vTaintAfter (n : Nat) : Host.Outcome State Fault Refusal → Option (BitVec 8)
  | .next s => some (s.v n).taint
  | _ => none

/-- MRD into v0 and v1 cancels the load, whose slot is bound, before the taint of its operands is taken (R76, R81). -/
theorem mrd_pairPending : vTaintAfter 1 (exec (.mrd 0 16 1) pairPending) = some 0 := by decide

end Sys2Proof.Machine
end

section
/-!
CERTIFICATE. Tiles (R293, R294, R298 to R300, R307 to R309).
-/
namespace Sys2Proof.Machine

/-- Refutes O43: the statement has MRD write both registers of the pair with the taint that the tile and the register hold as it
issues, one after the other, so that the second still gets a slot which the cancelling of the load due in the first has bound (R81).
The model cancels both first and takes the taint then: in `pairPending` it leaves v1 without taint, where the statement's writes leave
slot 0 in it. -/
theorem not_tileInstructions : ¬ Obligations.TileInstructions := by
  intro h
  obtain ⟨-, -, hpair, -⟩ := h pairPending 0 0 0 1 16 0 0 []
  have hmrd := mrd_pairPending
  rw [(hpair (by decide) (by decide) (by decide)).1] at hmrd
  exact absurd hmrd (by decide)

end Sys2Proof.Machine
end

section
/-!
SUPPORT. Steps of the matrix unit (R301 to R304, R312): their operands, and how they end.
-/
namespace Sys2Proof.Machine

/-- A tile is written as data of the core alone. -/
theorem Calm.putTile {s t : State} (h : Calm s t) (p : Nat) (x : Tile) : Calm s (t.putTile p x) := by
  have htask : (t.putTile p x).task = t.task := by
    simp only [State.putTile, State.task, State.ctxAt, State.mapCore, State.core_setCore, State.setCore_cur, State.setCore_ctx]
  exact h.trans ⟨h.1, by rw [htask], by rw [htask]⟩

/-- A step ends as it retires (R42, R304). -/
theorem stepDone_ends {s t : State} (h : Calm s t) (p : Nat) (elems : List Word) (τ : BitVec 8) (src : Option Nat) (adv : Nat)
    (b : BitVec 6) (bo : Opnd) (tb : Nat) : ∃ w, stepDone p elems τ src adv b bo tb t = .next w
      ∧ rollback s (stepDone p elems τ src adv b bo tb t) = .next (w.popsDone.mapTask fun t => { t with late := none }) := by
  have hwritten (v : State) (hv : Calm s v) : Calm s (if b = 48 then v else v.mapTask fun c =>
      { c with heldB := some { bytes := bo.bytes, scales := bo.scales, etype := tb, taint := bo.taint } }) := by
    split
    · exact hv
    · exact hv.mapTask ⟨rfl, rfl⟩
  refine ⟨_, rfl, Calm.rollback ?_⟩
  cases src with
  | none => exact hwritten _ (h.putTile _ _)
  | some q => exact hwritten _ ((h.putTile _ _).putTile _ _)

/-- What a step asks of its tile, of B, and of the streams it pops (R294, R302, R307). -/
structure StepReady (s : State) (d : BitVec 3) (a b : BitVec 6) (tb size : Nat) (scb : Bool) (q : Nat) : Prop where
  named : Sparse.find s.task.tiles d.toNat = some q
  free : s.task.busy (.a q) = false
  streams : StreamsReady s (selStream a ++ selStream b) none true
  okB : s.selOk b tb size scb = true
  freeB : s.selBusy b size = false

namespace StepReady
variable {s : State} {d : BitVec 3} {a b : BitVec 6} {tb size q : Nat} {scb : Bool} (h : StepReady s d a b tb size scb q)
  {ta : Nat} {sca : Bool} (ok : Nat → Opnd ⊕ Nat → Opnd → State → Host.Outcome State Fault Refusal)
include h

/-- A from a stream, a pair or held B (R302). -/
theorem opnds {u u' : State} {ao bo : Opnd} (htile : selTile a = none) (hok : s.selOk a ta size sca = true)
    (hfree : s.selBusy a size = false) (ha : ∀ ok, opnd a size s ok = ok ao u) (hb : ∀ ok, opnd b size u ok = ok bo u') :
    stepOpnds d a b ta tb size size sca scb s ok = rollback s (ok q (.inl ao) bo u') := by
  simp only [stepOpnds, openTile, State.tileName, h.named]
  rw [if_neg (by simp [h.free, h.freeB, hfree]), if_neg (by simp [h.okB, hok]), htile]
  exact (streaming_ready h.streams _).trans (by rw [ha, hb])

/-- A from an open tile (R303). -/
theorem opndsTile {u' : State} {k : BitVec 3} {p : Nat} {bo : Opnd} (htile : selTile a = some k)
    (hp : Sparse.find s.task.tiles k.toNat = some p) (hfree : s.task.busy (.a p) = false) (hb : ∀ ok, opnd b size s ok = ok bo u') :
    stepOpnds d a b ta tb size size sca scb s ok = rollback s (ok q (.inr p) bo u') := by
  have hsel : selStream a = [] := by
    unfold selTile at htile
    split at htile
    next ha => exact if_neg (by omega)
    next => exact absurd htile (by simp)
  have hstreams := h.streams
  rw [hsel, List.nil_append] at hstreams
  simp only [stepOpnds, openTile, readTile, State.tileName, h.named]
  rw [if_neg (by simp [h.free, h.freeB, htile]), if_neg (by simp [h.okB, htile]), htile]
  simp only [hp, hfree, Bool.false_eq_true, if_false]
  exact (streaming_ready hstreams _).trans (by rw [hb])

end StepReady

/-- The values that A gives, its scales, its taint, its tile, and the roundings after them: as they stand, or through `conv` from a tile
(R302, R303). -/
def aValues (ta n : Nat) (conv : Tile → List Nat × FpEnv) (t : State) :
    Opnd ⊕ Nat → List Nat × Option (List Byte) × BitVec 8 × Option Nat × FpEnv
  | .inl o => (values (typeBits ta) n o.bytes, o.scales, o.taint, none, FpEnv.of t.task.fpstat)
  | .inr q => ((conv (t.tileAt q)).1, none, (t.tileAt q).taint, some q, (conv (t.tileAt q)).2)

/-- MDOT on its operands (R304). -/
def mdotEnd (ta tb rank : Nat) (b : BitVec 6) (q : Nat) (bo : Opnd) (t : State) :
    List Nat × Option (List Byte) × BitVec 8 × Option Nat × FpEnv → Host.Outcome State Fault Refusal
  | (va, sa, τ, src, env) =>
    match typeFmt ta, typeFmt tb with
    | some fa, some fb =>
      let out := roundLanes fmt64 (t.tileAt q).mode false
        (dotSums (t.tileAt q) fa fb rank va (values (typeBits tb) (16 * rank) bo.bytes) sa bo.scales) env
      stepDone q (out.1.map (BitVec.ofNat 64)) (τ ||| bo.taint) src rank b bo tb (t.putFp out.2)
    | _, _ => stepDone q (dotInts (t.tileAt q) ta tb va (values (typeBits tb) (16 * rank) bo.bytes)) (τ ||| bo.taint) src rank b bo tb t

theorem exec_mdot_opnds {s : State} {d r : BitVec 3} {a b : BitVec 6} {f : BitVec 4} {x y z : BitVec 1} {ta tb rank : Nat}
    (hf : mdotFmt f.toNat = (ta, tb, rank)) :
    exec (.mdot d a b f r x y z) s = stepOpnds d a b ta tb (if ta = 9 then 64 else 128) (if ta = 9 then 64 else 128) (y == 1) (z == 1) s
      fun p ao bo t => mdotEnd ta tb rank b p bo t (aValues ta (16 * rank)
        (fun w => downConvert w ta rank (t.modeOf r) (x == 1) (FpEnv.of t.task.fpstat)) t ao) := by
  rw [exec_mdot, execMdot, hf]
  exact congrArg (stepOpnds _ _ _ _ _ _ _ _ _ _) (funext fun p => funext fun ao => funext fun bo => funext fun t => by
    cases ao with
    | inl o => simp only [mdotEnd, aValues] <;> rfl
    | inr q => simp only [mdotEnd, aValues] <;> rfl)

/-- MRUN on its operands (R312). -/
def mrunEnd (b : BitVec 6) (q : Nat) (bo : Opnd) (t : State) :
    List Nat × Option (List Byte) × BitVec 8 × Option Nat × FpEnv → Host.Outcome State Fault Refusal
  | (va, _, τ, src, _) =>
    let out := progAll (t.tileAt q).mode t.task.prog ((List.range 256).map fun n =>
      { c := (elemAt (t.tileAt q) n).toNat, x := va.getD (n / 16) 0, y := (values (typeBits 8) 16 bo.bytes).getD (n % 16) 0 })
      (FpEnv.of t.task.fpstat)
    stepDone q (out.1.map (BitVec.ofNat 64)) (τ ||| bo.taint) src 1 b bo 8 (t.putFp out.2)

theorem exec_mrun_opnds {s : State} {d : BitVec 3} {a b : BitVec 6} :
    exec (.mrun d a b) s = stepOpnds d a b 8 8 128 128 false false s fun p ao bo t => mrunEnd b p bo t (aValues 8 16
      (fun w => ((List.range 16).map fun i => (w.elem (16 * i + w.cc)).toNat, FpEnv.of t.task.fpstat)) t ao) := by
  rw [exec_mrun, execMrun]
  exact congrArg (stepOpnds _ _ _ _ _ _ _ _ _ _) (funext fun p => funext fun ao => funext fun bo => funext fun t => by
    cases ao with
    | inl o => simp only [mrunEnd, aValues]; rfl
    | inr q => simp only [mrunEnd, aValues]; rfl)

/-- Checksums of a tile's lines (R310). -/
theorem checksums_sum {s : State} {d : BitVec 3} {v : BitVec 5} {r : BitVec 3} {idx : Nat → Nat → Nat} {q : Nat}
    (hq : Sparse.find s.task.tiles d.toNat = some q) (hfree : s.task.busy (.a q) = false) :
    let out := roundLanes fmt32 (s.modeOf r) false
      ((List.range 16).map fun i => lineSum (s.tileAt q) (s.modeOf r) ((List.range 16).map (idx i))) (FpEnv.of s.task.fpstat)
    checksums d v r idx s = retired ((s.putFp out.2).writeV v.toNat ⟨ofLanes 32 out.1, (s.tileAt q).taint⟩) := by
  simp only [checksums, openTile, readTile, State.tileName, hq, hfree, Bool.false_eq_true, if_false]
  rfl

end Sys2Proof.Machine
end

section
/-!
CERTIFICATE. Steps of the matrix unit (R302 to R312).
-/
namespace Sys2Proof.Machine

/-- Settles O44: a step's operands are read and its tile takes the products, or what the program leaves in each element; checksums go
into a vector register. -/
theorem matrixSteps : Obligations.MatrixSteps := by
  unfold Obligations.MatrixSteps
  intro s d r a b g f x y z v q u u' bo va sa τ src env' types ta tb rank size t vals env ends given sums check
  have hopnds {ta tb size n sca scb conv} (h : given ta tb size n sca scb conv) : t = u'.tileAt q ∧ Calm s u' ∧ ∃ ao,
      aValues ta n conv u' ao = (va, sa, τ, src, env') ∧ ∀ ok, stepOpnds d a b ta tb size size sca scb s ok = rollback s (ok q ao bo u') := by
    obtain ⟨hnamed, hfree, htiles, hcalm, hstreams, hokB, hfreeB, hb, hA⟩ := h
    have hready : StepReady s d a b tb size scb q := ⟨hnamed, hfree, hstreams, hokB, hfreeB⟩
    refine ⟨(htiles q).symm, hcalm, ?_⟩
    rcases hA with ⟨hsel, hok, hfreeA, rfl, rfl, ao, ha, rfl, rfl, rfl⟩ | ⟨k, p, hsel, hp, hfreeA, rfl, rfl, rfl, rfl, rfl, rfl⟩
    · exact ⟨.inl ao, rfl, fun ok => hready.opnds ok hsel hok hfreeA ha hb⟩
    · exact ⟨.inr p, by rw [aValues, htiles], fun ok => hready.opndsTile ok hsel hp hfreeA hb⟩
  have hends {ins p elems σ src adv b bo tb v} (hcalm : Calm s v)
      (hi : exec ins s = rollback s (stepDone p elems σ src adv b bo tb v)) : ends ins (stepDone p elems σ src adv b bo tb v) := by
    obtain ⟨w, hw, hroll⟩ := stepDone_ends hcalm p elems σ src adv b bo tb
    exact ⟨w, hw, hi.trans hroll⟩
  clear_value given
  refine ⟨fun hgiven => ?_, fun hgiven => ?_, fun hg => ?_, fun hq hfree => ?_, fun hq hfree => ?_⟩
  · obtain ⟨ht, hcalm, ao, hao, hrun⟩ := hopnds hgiven
    have hexec : exec (.mdot d a b f r x y z) s = rollback s (mdotEnd ta tb rank b q bo u' (va, sa, τ, src, env')) :=
      hao ▸ (exec_mdot_opnds (ta := ta) (tb := tb) (rank := rank) rfl).trans (hrun _)
    refine ⟨fun fa fb hfa hfb => hends (hcalm.putFp _) (hexec.trans ?_), fun hfa => hends hcalm (hexec.trans ?_)⟩
    · simp only [mdotEnd, hfa, hfb, ← ht]; rfl
    · simp only [mdotEnd, hfa, ← ht]; rfl
  · obtain ⟨ht, hcalm, ao, hao, hrun⟩ := hopnds hgiven
    have hexec : exec (.mrun d a b) s = rollback s (mrunEnd b q bo u' (va, sa, τ, src, env')) := hao ▸ exec_mrun_opnds.trans (hrun _)
    exact hends (hcalm.putFp _) (hexec.trans (by simp only [mrunEnd, ← ht]; rfl))
  · rw [exec_muprog, execMuprog, if_neg (by simp [hg])]; rfl
  · have hrow (j : Nat) (mode : Nat) : lineSum t mode ((List.range 16).map fun k => 16 * j + k) = sums 0 j mode :=
      congrArg (lineSum t mode) (List.map_congr_left fun k _ => by omega)
    rw [exec_msumr, execMsumr, checksums_sum hq hfree]
    simp only [hrow, t]
    rfl
  · have hcol (j : Nat) (mode : Nat) : lineSum t mode ((List.range 16).map fun k => 16 * k + j) = sums 1 j mode :=
      congrArg (lineSum t mode) (List.map_congr_left fun k _ => by omega)
    rw [exec_msumc, execMsumc, checksums_sum hq hfree]
    simp only [hcol, t]
    rfl

end Sys2Proof.Machine
end

section
/-!
SUPPORT. What operations under way leave (R39, R76, R130, R400): of the cores their queues, counters and trap registers; on the agenda
every step that stands there; memory in its canonical form.
-/
namespace Sys2Proof.Machine

/-- A core but for its contexts, its tiles, its L1 and the requests that its NI combines. -/
def Core.own (c : Core) : Core := { c with ctxs := [], tiles := [], l1 := [], ni := { c.ni with combine := [] } }

namespace State

/-- The cores are as they were but for contexts, tiles, L1 and combined requests, no step has left the agenda, memory stays
canonical, and the instruction stalls as it did. -/
structure Proceeds (s t : State) : Prop where
  core : ∀ k, (t.core k).own = (s.core k).own
  agenda : ∀ e ∈ s.agenda, e ∈ t.agenda
  wf : s.Canonical → t.Canonical
  stalled : t.stalled = s.stalled

namespace Proceeds
variable {s t u : State}

theorem refl (s : State) : Proceeds s s := ⟨fun _ => rfl, fun _ h => h, id, rfl⟩
theorem trans (h : Proceeds s t) (g : Proceeds t u) : Proceeds s u :=
  ⟨fun k => (g.core k).trans (h.core k), fun e he => g.agenda e (h.agenda e he), g.wf ∘ h.wf,
    g.stalled.trans h.stalled⟩
theorem foldl {α : Type} {f : State → α → State} (h : ∀ s a, Proceeds s (f s a)) (l : List α) (s : State) :
    Proceeds s (l.foldl f s) := foldl_rel refl trans h l s

end Proceeds

/-- An update outside cores, agenda, memory, turn and clock. -/
theorem proceeds_aside {s t : State} (h : (t.cores, t.agenda, t.mem, t.stalled, t.cur, t.ticks, t.born)
    = (s.cores, s.agenda, s.mem, s.stalled, s.cur, s.ticks, s.born)) : Proceeds s t := by
  obtain ⟨hcores, hagenda, hmem, hstalled, hcur, hticks, hborn⟩ : _ ∧ _ ∧ _ ∧ _ ∧ _ ∧ _ ∧ _ := by simpa only [Prod.mk.injEq] using h
  refine ⟨fun k => ?_, fun e he => hagenda ▸ he, fun hs => ?_, hstalled⟩
  · simp only [core, idleCore, hcores, hcur, hticks, hborn]
  · rw [Canonical, hmem]; exact hs

/-! Cores. -/

theorem setCore_proceeds {s : State} {k : Nat} {c : Core} (h : c.own = (s.core k).own) : Proceeds s (s.setCore k c) := by
  refine ⟨fun j => ?_, fun _ h => h, id, rfl⟩
  by_cases e : j = k
  · subst e; rw [core_setCore]; exact h
  · rw [core_setCore_other _ _ _ _ e]
theorem mapCores_proceeds {s : State} {f : Nat → Core → Core} (h : ∀ k c, (f k c).own = c.own) :
    Proceeds s { s with cores := s.cores.map fun p => (p.1, f p.1 p.2) } :=
  ⟨fun k => (Sparse.get_map_rel (R := fun c c' : Core => c'.own = c.own) f h (s.idleCore k) rfl s.cores k), fun _ h => h, id, rfl⟩
theorem setCtxAt_proceeds (s : State) (k x : Nat) (t : Ctx) : Proceeds s (s.setCtxAt k x t) := setCore_proceeds rfl
theorem mapCtx_proceeds (s : State) (k x : Nat) (f : Ctx → Ctx) : Proceeds s (s.mapCtx k x f) := setCore_proceeds rfl
theorem dropOp_proceeds (s : State) (k x op : Nat) : Proceeds s (s.dropOp k x op) := s.mapCtx_proceeds _ _ _
theorem mapOp_proceeds (s : State) (k x op : Nat) (f : PendOp → PendOp) : Proceeds s (s.mapOp k x op f) := s.mapCtx_proceeds _ _ _

/-! Sites and the agenda. -/

theorem mapSite_proceeds (s : State) (n : Nat) (f : Site → Site) : Proceeds s (s.mapSite n f) := proceeds_aside rfl
theorem pushAll_proceeds (s : State) (es : List Event) : Proceeds s (s.pushAll es) :=
  ⟨fun _ => rfl, fun _ h => List.mem_append_left _ h, id, rfl⟩
theorem push_proceeds (s : State) (e : Event) : Proceeds s (s.push e) := s.pushAll_proceeds [e]
theorem pushOnce_proceeds (s : State) (e : Event) : Proceeds s (s.pushOnce e) := by
  unfold pushOnce; split
  · exact .refl s
  · exact s.push_proceeds e
theorem leave_proceeds (s : State) (src : Nat) (fs : List Flit) : Proceeds s (s.leave src fs) :=
  (s.mapSite_proceeds _ _).trans (pushOnce_proceeds _ _)
theorem inject_proceeds (s : State) (src dst flits cls seq : Nat) (r o : Bool) (e : Option Event) :
    Proceeds s (s.inject src dst flits cls seq r o e) := s.leave_proceeds _ _
theorem injectCtl_proceeds (s : State) (st ctl src dst seq : Nat) (e : Option Event) :
    Proceeds s (s.injectCtl st ctl src dst seq e) := by
  simp only [injectCtl]; split
  · exact s.leave_proceeds _ _
  · exact (s.mapSite_proceeds _ _).trans (pushOnce_proceeds _ _)
theorem route_proceeds (s : State) (src owner flits cls : Nat) (e : Event) : Proceeds s (s.route src owner flits cls e) := by
  unfold route; split
  · exact s.push_proceeds e
  · extract_lets st key seq opens mine go st' s₁
    have h : Proceeds s s₁ := proceeds_aside rfl
    clear_value s₁
    split
    · exact h.trans (inject_proceeds _ _ _ _ _ _ _ _ _)
    · exact h
theorem routeOnce_proceeds (s : State) (src owner flits cls : Nat) (e : Event) :
    Proceeds s (s.routeOnce src owner flits cls e) := by
  unfold routeOnce; split
  · exact .refl s
  · exact s.route_proceeds _ _ _ _ _
theorem resume_proceeds (s : State) (es : List Event) : Proceeds s (s.resume es) :=
  .foldl (fun s e => by
    split
    · exact .refl s
    · exact s.push_proceeds e) es s
theorem markApplied_proceeds (s : State) (owner src n : Nat) : Proceeds s (s.markApplied owner src n) := by
  unfold markApplied; extract_lets drop s₁ s₂
  have h₂ : Proceeds s s₂ := (show Proceeds s s₁ from s.mapSite_proceeds _ _).trans (proceeds_aside rfl)
  exact h₂.trans (resume_proceeds _ _)
theorem cacheAnswer_proceeds (s : State) (owner src seq : Nat) (e : Option Event) :
    Proceeds s (s.cacheAnswer owner src seq e) := (s.mapSite_proceeds _ _).trans (markApplied_proceeds _ _ _ _)
theorem ack_proceeds (s : State) (e : Event) : Proceeds s (s.ack e) := by
  unfold ack; split
  · exact (s.cacheAnswer_proceeds _ _ _ _).trans (injectCtl_proceeds _ _ _ _ _ _ _)
  · exact .refl s
theorem answer_proceeds (s : State) (req e : Event) : Proceeds s (s.answer req e) := by
  unfold answer; split
  · exact (s.cacheAnswer_proceeds _ _ _ _).trans (inject_proceeds _ _ _ _ _ _ _ _ _)
  · exact s.push_proceeds _
theorem quietOn_proceeds (s : State) (k : Nat) : Proceeds s (s.quietOn k) := by
  unfold quietOn; split
  · split
    · exact s.pushOnce_proceeds _
    · split
      · exact s.pushOnce_proceeds _
      · exact .refl s
  · exact .refl s
theorem settled_proceeds (s : State) (k x : Nat) : Proceeds s (s.settled k x) := by
  unfold settled; extract_lets t
  split
  · exact .refl s
  · split
    · exact (s.push_proceeds _).trans (quietOn_proceeds _ _)
    · exact .refl s
theorem ackStore_proceeds (s : State) (k x : Nat) (p : PendOp) : Proceeds s (s.ackStore k x p) := by
  unfold ackStore; split
  · exact s.answer_proceeds _ _
  · exact (s.ack_proceeds _).trans (settled_proceeds _ _ _)
theorem askFlush_proceeds (s : State) (k x : Nat) (mods : List Nat) : Proceeds s (s.askFlush k x mods) :=
  .foldl (fun s _ => s.routeOnce_proceeds _ _ _ _ _) mods s
theorem sendAmo_proceeds (s : State) (k : Nat) (r : AmoReq) (p : Place) : Proceeds s (s.sendAmo k r p) := by
  unfold sendAmo; split
  · exact s.push_proceeds _
  · exact s.route_proceeds _ _ _ _ _
  · exact s.route_proceeds _ _ _ _ _
theorem notice_proceeds (s : State) (tile : Nat) (h : Nat × Nat) (code : Nat) : Proceeds s (s.notice tile h code) := by
  unfold notice; extract_lets home dir s₁
  have h₁ : Proceeds s s₁ := s.routeOnce_proceeds _ _ _ _ _
  split
  · exact h₁
  · exact h₁.trans (routeOnce_proceeds _ _ _ _ _ _)
theorem leaveWalks_proceeds (s : State) (k x : Nat) : Proceeds s (s.leaveWalks k x) := by
  unfold leaveWalks; extract_lets stays t
  split
  · exact .refl s
  · exact s.mapSite_proceeds _ _

/-! Caches. -/

theorem dropL1_proceeds (s : State) (at_ : Nat → Bool) (gone : L1Line → Bool) : Proceeds s (s.dropL1 at_ gone) :=
  mapCores_proceeds (f := fun k c => if at_ k then { c with l1 := c.l1.filter fun l => !gone l || s.specLine k l.line } else c)
    fun k c => by split <;> rfl
theorem staleFills_proceeds (s : State) (k : Nat) (hit : Nat → Bool) : Proceeds s (s.staleFills k hit) :=
  mapCores_proceeds (f := fun j c => if inCluster (siteOf k) (clusterOf k) j
    then { c with ctxs := Sparse.mapVals (staleCtx hit) c.ctxs } else c) fun j c => by split <;> rfl
theorem setClusterLines_proceeds (s : State) (site cl : Nat) (ls : List ClusterLine) : Proceeds s (s.setClusterLines site cl ls) :=
  s.mapSite_proceeds _ _
theorem l2Touch_proceeds (s : State) (line : Nat) (dirty : Bool) : Proceeds s (s.l2Touch line dirty) := by
  unfold l2Touch; split
  · exact .refl s
  · exact s.mapSite_proceeds _ _
theorem evictLine_proceeds (s : State) (site cl : Nat) (e : ClusterLine) : Proceeds s (s.evictLine site cl e) := by
  unfold evictLine; extract_lets s₁ s₂
  have h : Proceeds s s₂ := (s.setClusterLines_proceeds _ _ _).trans (dropL1_proceeds _ _ _)
  split
  · exact h.trans (l2Touch_proceeds _ _ _)
  · exact h
theorem l1Install_proceeds (s : State) (k line : Nat) (copy : Option RemoteCopy) : Proceeds s (s.l1Install k line copy) := by
  unfold l1Install; extract_lets l1 set
  split
  · exact setCore_proceeds rfl
  · exact (show Proceeds s (s.mapCore k _) from setCore_proceeds rfl).trans (.foldl (fun _ _ => pushOnce_proceeds _ _) _ _)
theorem l1Touch_proceeds (s : State) (k line : Nat) : Proceeds s (s.l1Touch k line) := setCore_proceeds rfl
theorem wroteLine_proceeds (s : State) (writer : Option Nat) (line : Nat) : Proceeds s (s.wroteLine writer line) := by
  unfold wroteLine; extract_lets mine mod s₁ others s₂
  have h₁ : Proceeds s s₁ := s.dropL1_proceeds _ _
  have h₂ : Proceeds s₁ s₂ := .foldl (fun _ _ => evictLine_proceeds _ _ _ _) _ _
  have h := h₁.trans h₂
  clear_value s₂ mine
  cases mine with
  | some k => exact (h.trans (l1Touch_proceeds _ _ _)).trans (setClusterLines_proceeds _ _ _ _)
  | none => exact (h.trans (dropL1_proceeds _ _ _)).trans (l2Touch_proceeds _ _ _)

theorem dropCopiesOf_proceeds (s : State) (k : Nat) (hit : Nat → Bool) : Proceeds s (s.dropCopiesOf k hit) := by
  unfold dropCopiesOf; extract_lets site cl s₁
  have h : Proceeds s s₁ := (s.staleFills_proceeds _ _).trans (dropL1_proceeds _ _ _)
  split
  · exact h
  · exact h.trans (setClusterLines_proceeds _ _ _ _)

/-! Values that bind. -/

theorem bindSlot_proceeds (s : State) (k x n : Nat) : Proceeds s (s.bindSlot k x n) := by
  unfold bindSlot; extract_lets t t' c
  split
  · exact setCtxAt_proceeds _ _ _ _
  · exact setCore_proceeds rfl

theorem deposit_proceeds (s : State) (k x : Nat) (p : PendOp) (bytes : List Byte) (tg : Bool) :
    Proceeds s (s.deposit k x p bytes tg) := by
  unfold deposit; extract_lets s₁ elems s₂
  have h₂ : Proceeds s₁ s₂ := by
    unfold s₂; split
    · exact mapCtx_proceeds _ _ _ _
    · exact mapCtx_proceeds _ _ _ _
    · exact mapCtx_proceeds _ _ _ _
    · exact setCore_proceeds rfl
    · exact .refl _
  refine ((s.dropOp_proceeds _ _ _).trans h₂).trans ?_
  split
  · exact bindSlot_proceeds _ _ _ _
  · exact .refl _

theorem bindLoad_proceeds (s : State) (k x : Nat) (p : PendOp) : Proceeds s (s.bindLoad k x p) := by
  unfold bindLoad; extract_lets t bytes tg s₁ s₂
  have h₁ : Proceeds s s₁ := (s.deposit_proceeds _ _ _ _ _).trans (.foldl (fun s l => by
    split
    · exact s.l1Touch_proceeds _ _
    · exact .refl s) _ _)
  have h₂ : Proceeds s₁ s₂ := by
    unfold s₂; split
    · exact dropCopiesOf_proceeds _ _ _
    · exact .refl _
  refine (h₁.trans h₂).trans ?_
  split
  · exact pushOnce_proceeds _ _
  · exact .refl _

theorem fillFromCluster_proceeds (s : State) (k : Nat) (as : List Nat) : Proceeds s (s.fillFromCluster k as) :=
  .foldl (fun s l => by
    split
    · split
      · exact .refl s
      · exact s.l1Install_proceeds _ _ _
    · exact .refl s) _ s

/-! Stores performed. -/

theorem tileDirs_proceeds (s : State) (tileDirs : Sparse TileDir) : Proceeds s { s with tileDirs } := proceeds_aside rfl
theorem resv_proceeds (s : State) (resv : Sparse Resv) : Proceeds s { s with resv } := proceeds_aside rfl

theorem removeHolders_proceeds (s : State) (tiles : List Nat) (code : Nat) (keep : Option (Nat × Nat)) :
    Proceeds s (s.removeHolders tiles code keep) := by
  refine .foldl (fun s q => ?_) _ s
  refine .trans ?_ (notice_proceeds _ q.1 q.2 code)
  exact (s.tileDirs_proceeds _).trans (mapCtx_proceeds _ _ _ _)

theorem writeMem_proceeds (s : State) (ws : List (Nat × Byte)) : Proceeds s (s.writeMem ws) := by
  have hwf : s.Canonical → (s.writeMem ws).Canonical := writeMem_wf ws
  obtain ⟨_, _, _, _, hw⟩ := s.writeMem_rest ws
  exact ⟨by rw [hw]; exact fun _ => rfl, by rw [hw]; exact fun _ h => h, hwf, by rw [hw]⟩

theorem writeHome_proceeds (s : State) (ws : List (Nat × Byte)) (tags : List (Nat × Bool)) (writer : Option Nat) :
    Proceeds s (s.writeHome ws tags writer) := by
  unfold writeHome; extract_lets s₁
  have h₁ : Proceeds (s.writeMem ws) s₁ := by
    unfold s₁; rw [setTags_eq]; exact proceeds_aside rfl
  exact ((s.writeMem_proceeds ws).trans h₁).trans (.foldl (fun s _ => s.wroteLine_proceeds _ _) _ _)

theorem performWrite_proceeds (s : State) (ws : List (Nat × Byte)) (tags : List (Nat × Bool)) (writer : Option Nat) :
    Proceeds s (s.performWrite ws tags writer) := (s.removeHolders_proceeds _ _ _).trans (writeHome_proceeds _ _ _ _)

theorem clearSlots_proceeds (s : State) (p : Place) (as : List Nat) : Proceeds s (s.clearSlots p as) := by
  unfold clearSlots; split
  · extract_lets b size
    split <;> exact proceeds_aside rfl
  · exact .refl s

theorem afterPosted_proceeds (s : State) (k : Nat) (p : PendOp) : Proceeds s (s.afterPosted k p) := by
  unfold afterPosted; extract_lets hit
  split
  · exact .refl s
  · split
    · exact s.staleFills_proceeds _ _
    · exact s.dropCopiesOf_proceeds _ _

theorem storeDone_proceeds (s : State) (k x : Nat) (p : PendOp) : Proceeds s (s.storeDone k x p) :=
  ((((s.performWrite_proceeds _ _ _).trans (clearSlots_proceeds _ _ _)).trans (dropOp_proceeds _ _ _ _)).trans
    (afterPosted_proceeds _ _ _)).trans (ackStore_proceeds _ _ _ _)

/-! Operations that go on. -/

theorem combineSend_proceeds (s : State) (k i : Nat) : Proceeds s (s.combineSend k i) := by
  unfold combineSend; split
  · exact .refl s
  · exact (show Proceeds s (s.mapNi k _) from setCore_proceeds rfl).trans (sendAmo_proceeds _ _ _ _)

theorem combineEnter_proceeds (s : State) (k : Nat) (r : AmoReq) (p : Place) : Proceeds s (s.combineEnter k r p) := by
  unfold combineEnter; extract_lets ni s₁
  split
  · exact setCore_proceeds rfl
  · have h₁ : Proceeds s s₁ := by
      unfold s₁; split
      · exact s.combineSend_proceeds _ _
      · exact .refl s
    exact h₁.trans (setCore_proceeds rfl)

theorem combineFlush_proceeds (s : State) (k x n : Nat) : Proceeds s (s.combineFlush k x n) :=
  .foldl (fun s e => by
    split
    · exact s.combineSend_proceeds _ _
    · exact .refl s) _ s

theorem launch_proceeds (s : State) (k x : Nat) (p : PendOp) : Proceeds s (s.launch k x p) := by
  have hsent : Proceeds s (s.mapOp k x p.op fun q => { q with sent := true }) := s.mapOp_proceeds _ _ _ _
  unfold launch; extract_lets sent go byRoute
  have hgo (owner : Nat) (e : Event) : Proceeds s (go owner e) := by
    unfold go; split
    · exact hsent.trans (route_proceeds _ _ _ _ _ _)
    · exact .refl s
  have hby (e : Event) : Proceeds s (byRoute e) := hgo _ e
  split
  next =>
    split
    · exact bindLoad_proceeds _ _ _ _
    · exact bindLoad_proceeds _ _ _ _
    · exact hby _
    · split
      · exact hby _
      · split
        · exact bindLoad_proceeds _ _ _ _
        · split
          · exact (s.fillFromCluster_proceeds _ _).trans (bindLoad_proceeds _ _ _ _)
          · exact hby _
  next =>
    split
    · exact s.dropOp_proceeds _ _ _
    · exact hby _
  next => exact hby _
  next => exact hby _
  next =>
    split
    · exact s.storeDone_proceeds _ _ _
    · exact hby _
  next => exact hby _
  next =>
    split
    · exact .refl s
    · split
      · refine Proceeds.trans ?_ (combineEnter_proceeds _ _ _ _)
        split
        · exact s.dropOp_proceeds _ _ _
        · exact hsent
      · split
        · exact hsent.trans (sendAmo_proceeds _ _ _ _)
        · exact .refl s
  next => exact hby _
  next => exact hby _
  next =>
    split
    · exact .refl s
    · split
      · exact hgo _ _
      · exact hby _
      · exact hgo _ _
  next =>
    split
    · exact .refl s
    · exact hgo _ _
  next => exact s.dropOp_proceeds _ _ _
  next =>
    split
    · exact .refl s
    · extract_lets owner
      split
      · exact (s.dropOp_proceeds _ _ _).trans (route_proceeds _ _ _ _ _ _)
      · exact .refl s

theorem startFlush_proceeds (s : State) (k x : Nat) (p : PendOp) : Proceeds s (s.startFlush k x p) := by
  unfold startFlush; extract_lets t
  split
  · exact (s.mapOp_proceeds _ _ _ _).trans (askFlush_proceeds _ _ _ _)
  · exact .refl s

theorem kickOp_proceeds (s : State) (k x op : Nat) : Proceeds s (kickOp k x s op) := by
  unfold kickOp
  split
  · exact .refl s
  next p hp =>
    extract_lets s₁
    have h₁ : Proceeds s s₁ := by
      unfold s₁; split
      · exact (s.startFlush_proceeds _ _ _).trans (combineFlush_proceeds _ _ _ _)
      · exact .refl s
    split
    · exact h₁.trans (launch_proceeds _ _ _ _)
    · exact h₁

theorem kick_proceeds (s : State) (k x : Nat) : Proceeds s (s.kick k x) := by
  unfold kick; extract_lets s₁ t onWay s₂
  have h₁ : Proceeds s s₁ := .foldl (f := kickOp k x) (fun s op => s.kickOp_proceeds k x op) _ _
  have h₂ : Proceeds s₁ s₂ := .foldl (fun s _ => s.pushOnce_proceeds _) _ _
  split
  · exact (h₁.trans h₂).trans (pushOnce_proceeds _ _)
  · exact h₁.trans h₂

/-! Reservations that pass on, and the end of a task. -/

theorem grant_proceeds (s : State) (addr : Nat) (h : Nat × Nat × Nat × Nat) : Proceeds s (s.grant addr h) := by
  unfold grant; split
  extract_lets s₁ old r s₂
  have h₂ : Proceeds s s₂ := (s.removeHolders_proceeds _ _ _).trans (s₁.resv_proceeds _)
  split
  · exact h₂
  · exact h₂.trans (answer_proceeds _ _ _)

theorem passResv_proceeds (s : State) (addr : Nat) : Proceeds s (s.passResv addr) := by
  unfold passResv; extract_lets r; clear_value r
  split
  · exact s.resv_proceeds _
  · exact (s.resv_proceeds _).trans (grant_proceeds _ _ _)

theorem dropResv_proceeds (s : State) (k x : Nat) : Proceeds s (s.dropResv k x) :=
  (s.resv_proceeds _).trans (.foldl (fun s _ => s.passResv_proceeds _) _ _)

theorem endCtx_proceeds (s : State) (k x : Nat) : Proceeds s (s.endCtx k x) := by
  unfold endCtx; extract_lets t queued gone owing s₁ s₂ s₃ leave s₄ s₅
  have h₁ : Proceeds s s₁ := ((s.dropResv_proceeds _ _).trans (leaveWalks_proceeds _ _ _)).trans
    (.foldl (fun s _ => s.ack_proceeds _) _ _)
  have h₃ : Proceeds s₁ s₃ := (show Proceeds s₁ s₂ from setCore_proceeds rfl).trans (setCtxAt_proceeds _ _ _ _)
  have h₄ : Proceeds s₃ s₄ := proceeds_aside rfl
  have h₅ : Proceeds s₄ s₅ := (s₄.kick_proceeds _ _).trans (push_proceeds _ _)
  have h := ((h₁.trans h₃).trans h₄).trans h₅
  split
  · exact h.trans ((push_proceeds _ _).trans (quietOn_proceeds _ _))
  · exact h

end State
end Sys2Proof.Machine
end

section
/-!
CERTIFICATE. Terminating traps (R39, R41, R400).
-/
namespace Sys2Proof.Machine
namespace State

/-- A core with a trap record (R400). -/
def withRecord (r : List Word) (c : Core) : Core :=
  { c with trap0 := r.getD 0 0, trap1 := r.getD 1 0, trap2 := r.getD 2 0, trap3 := r.getD 3 0 }

/-- The queue entries that a task's trap returns (R39): those of the messages that it took, and its own with the retry count raised. -/
def returned (t : Ctx) : List QEntry :=
  t.taken ++ t.entry.toList.map fun e => { e with msg := { e.msg with retry := t.msg.retry + 1 } }

/-- The state in which an unreleased task ends by a trap that lets its message return (R39, R41): its transaction dropped, the record
in the trap registers, the replay counted, and the entries back in the queue. -/
def redispatched (s : State) (k x : Nat) (r : List Word) : State :=
  ((((s.dropTxn k x).mapCore k (withRecord r)).mapNi k fun ni => { ni with replays := sat32 (ni.replays + 1) }).mapNi k fun ni =>
    { ni with queue := returned (s.ctxAt k x) ++ ni.queue }).mapCtx k x fun c => { c with entry := none, taken := [] }

theorem imageAt_mapCore {s : State} {k : Nat} {f : Core → Core} (h : (f (s.core k)).team = (s.core k).team) :
    (s.mapCore k f).imageAt k = s.imageAt k := by
  simp only [imageAt, teamAt, core_mapCore, h]; rfl

/-- A trap that is not the last one of its message ends its task with the message back in the queue. -/
theorem takeTrap_redispatches {s : State} {k x cause : Nat} (code : Nat) (pc addr : Word)
    (hrel : (s.ctxAt k x).released = false) (hcause : cause ≠ cPOISON) (hretry : (s.ctxAt k x).msg.retry < (s.imageAt k).retry) :
    s.takeTrap k x cause code pc addr false
      = (s.redispatched k x (trapRecord (s.ctxAt k x) x cause code pc addr)).endCtx k x := by
  unfold takeTrap; extract_lets t r s₁ s₂ count s₃ s₄ s₅ s₆ fin back s₇ s₈
  have himage : s₆.imageAt k = s.imageAt k :=
    ((imageAt_mapCore (s := s₂) rfl).trans (imageAt_mapCore (s := s₁) rfl)).trans rfl
  have hfin : fin = false := by
    simp only [fin, himage, count, Bool.false_eq_true, if_false, Bool.not_false, Bool.true_and, hcause, decide_false, Bool.false_or,
      decide_eq_false_iff_not]
    exact Nat.not_lt.2 hretry
  have hback : back = returned t := by
    simp only [back, hfin, Bool.false_eq_true, if_false, count]; rfl
  have h₈ : s₈ = s.redispatched k x r := by simp only [s₈, s₇, hback]; rfl
  clear_value s₈ fin
  rw [if_neg (by rw [show t.released = false from hrel]; decide), hfin, if_neg (by decide), h₈]

section
variable (s : State) (k x : Nat) (r : List Word)

theorem redispatched_core {β : Type} (π : Core → β) (hπ : ∀ c ctxs, π { c with ctxs } = π c) :
    π ((s.redispatched k x r).core k) = π { withRecord r (s.core k) with
      ni := { (s.core k).ni with
        replays := sat32 ((s.core k).ni.replays + 1), queue := returned (s.ctxAt k x) ++ (s.core k).ni.queue } } := by
  unfold redispatched mapCtx setCtxAt
  rw [core_setCore, hπ]
  simp only [mapNi, core_mapCore]; rfl

theorem redispatched_quiet : Quiet s (((((s.dropTxn k x).mapCore k (withRecord r)).mapNi k fun ni =>
    { ni with replays := sat32 (ni.replays + 1) }).mapNi k fun ni => { ni with queue := returned (s.ctxAt k x) ++ ni.queue })) :=
  (((s.dropTxn_quiet k x).trans (mapCore_quiet rfl)).trans (mapNi_quiet _ _ _)).trans (mapNi_quiet _ _ _)

theorem redispatched_pend : ((s.redispatched k x r).ctxAt k x).pend = (s.ctxAt k x).pend := by
  unfold redispatched; rw [ctxAt_mapCtx]
  have h : s.ctxAt k x = _ := (s.redispatched_quiet k x r).ctxAt k x
  exact (congrArg Ctx.pend h).symm

theorem redispatched_storage : SameStorage s (s.redispatched k x r) := ⟨fun _ => rfl, rfl, rfl⟩

end

/-- The fields of the second word of a trap record (R400). -/
theorem trapRecord_fields {t : Ctx} {x cause code : Nat} (pc addr : Word) (hcause : cause < 256) (hcode : code < 4096)
    (hlen : t.msg.payload.length ≤ 256) (hx : x < 8) (hgen : t.gen < 256) (hretry : t.msg.retry < 16) (hhandler : t.msg.handler < 4096) :
    let w := ((trapRecord t x cause code pc addr).getD 1 0).toNat
    w % 2 ^ 8 = cause ∧ w / 2 ^ 16 % 2 ^ 12 = t.msg.handler ∧ w / 2 ^ 28 % 16 = t.msg.retry ∧ w / 2 ^ 32 % 2 ^ 8 = t.gen
      ∧ w / 2 ^ 40 % 8 = x ∧ w / 2 ^ 43 % 2 ^ 9 = t.msg.payload.length ∧ w / 2 ^ 52 = code := by
  intro w
  obtain ⟨marks, hmarks, hw⟩ : ∃ marks < 4, w = code * 2 ^ 52 + t.msg.payload.length * 2 ^ 43 + x * 2 ^ 40 + t.gen * 2 ^ 32
      + t.msg.retry * 2 ^ 28 + t.msg.handler * 2 ^ 16 + marks * 2 ^ 8 + cause := by
    refine ⟨(if t.txn.isSome then 2 else 0) + (if t.released then 1 else 0), by split <;> split <;> decide, ?_⟩
    simp only [w, trapRecord, List.getD_cons_succ, List.getD_cons_zero, BitVec.toNat_ofNat]
    split <;> split <;> omega
  clear_value w
  omega

end State

/-- Settles O11: the trap leaves the record, the replay and the entries at its core, and the end of the task keeps them there. -/
theorem trapTaken : Obligations.TrapTaken := by
  unfold Obligations.TrapTaken
  intro s cause code pc addr t u w1 hrel hcause hretry
  have hu := State.takeTrap_redispatches code pc addr hrel hcause hretry
  change u = _ at hu
  set r := State.trapRecord (s.ctxAt s.cur s.ctx) s.ctx cause code pc addr with hr
  obtain ⟨c, hleft, hruns, hucur, -, hsame⟩ := (s.redispatched s.cur s.ctx r).endCtx_task
  change c.RunsBare (State.task (State.endCtx _ s.cur s.ctx)) at hruns
  change State.cur (State.endCtx _ s.cur s.ctx) = s.cur at hucur
  change _ → SameStorage _ (State.endCtx _ s.cur s.ctx) at hsame
  rw [← hu] at hruns hucur hsame
  have hown : u.here.own = ((s.redispatched s.cur s.ctx r).core s.cur).own := by
    rw [State.here, hucur, hu]; exact (State.endCtx_proceeds _ _ _).core _
  have keep {β : Type} (π : Core → β) (hπ : ∀ c, π c.own = π c) (hctxs : ∀ c ctxs, π { c with ctxs } = π c) : π u.here = π _ :=
    (((hπ _).symm.trans (congrArg π hown)).trans (hπ _)).trans (s.redispatched_core s.cur s.ctx r π hctxs)
  obtain ⟨hbare, hocc, -⟩ := hleft.runs hruns
  have hw1 : w1 = r.getD 1 0 := keep Core.trap1 (fun _ => rfl) fun _ _ => rfl
  refine ⟨keep Core.trap0 (fun _ => rfl) fun _ _ => rfl, keep Core.trap2 (fun _ => rfl) fun _ _ => rfl,
    keep Core.trap3 (fun _ => rfl) fun _ _ => rfl, fun h1 h2 h3 h4 h5 h6 h7 => ?_, keep (·.ni.queue) (fun _ => rfl) fun _ _ => rfl,
    keep (·.ni.replays) (fun _ => rfl) fun _ _ => rfl, hocc, hbare.g, fun hp => ?_⟩
  · rw [hw1]; exact State.trapRecord_fields pc addr h1 h2 h3 h4 h5 h6 h7
  · exact (s.redispatched_storage s.cur s.ctx r).trans (hsame (hleft.idle ((s.redispatched_pend s.cur s.ctx r).trans hp)))

end Sys2Proof.Machine
end

section
/-!
CERTIFICATE. Pallets and the merge path (R74, R258, R260), and stealing (R259).
-/
namespace Sys2Proof.Machine

/-- An instruction whose operands await nothing goes on (R244). -/
theorem operands_ready {s : State} {rs : List (BitVec 6)} (h : Ready s rs) (ok : State → Host.Outcome State Fault Refusal) :
    operands rs s ok = ok s := by
  simp only [operands, anyBusy_ready h, taintOf_ready h]; rfl

/-! Pallets (R258). -/

theorem palletFull_iff (ni : NI) : palletFull ni = true ↔ 64 ≤ ni.pallet.length + ni.places := decide_eq_true_iff

theorem dpush_pushes {s : State} {d a b : BitVec 6} (h : Ready s [a, b]) :
    let w := (s.g a).val.toNat
    exec (.dpush d a b) s =
      if w / 2 ^ 32 ≤ w % 2 ^ 32 then wrote s d 2 0 else if 64 ≤ s.here.ni.pallet.length + s.here.ni.places then wrote s d 0 0
      else wrote (s.mapNi s.cur fun ni =>
        { ni with pallet := s.here.ni.pallet ++ [⟨w % 2 ^ 32, w / 2 ^ 32, (s.g b).val.toNat % 2 ^ 32⟩] }) d 1 0 := by
  intro w
  have hlo : ((s.g a).val.extractLsb' 0 32).toNat = w % 2 ^ 32 := by rw [extract_toNat, Nat.pow_zero, Nat.div_one]
  have hhi : ((s.g a).val.extractLsb' 32 32).toNat = w / 2 ^ 32 := by
    rw [extract_toNat]; exact Nat.mod_eq_of_lt (by have := (s.g a).val.isLt; omega)
  have htag : ((s.g b).val.extractLsb' 0 32).toNat = (s.g b).val.toNat % 2 ^ 32 := by rw [extract_toNat, Nat.pow_zero, Nat.div_one]
  rw [exec_dpush, execDpush, operands_ready h]
  dsimp only
  rw [hlo, hhi, htag]
  split
  · rfl
  · by_cases hf : 64 ≤ s.here.ni.pallet.length + s.here.ni.places
    · rw [if_pos ((palletFull_iff _).2 hf), if_pos hf]; rfl
    · rw [if_neg (mt (palletFull_iff _).1 hf), if_neg hf]; rfl

theorem dpop_empty {s : State} (d a : BitVec 6) (h : s.here.ni.pallet = []) :
    exec (.dpop d a) s = wrote (s.writeG a.toNat {}) d 0 0 := by
  rw [exec_dpop, execDpop, h]; rfl

theorem dsplit_empty {s : State} {d a : BitVec 6} (h : s.here.ni.pallet = []) (hr : Ready s [a]) :
    exec (.dsplit d a) s = wrote s d 0 0 := by
  rw [exec_dsplit, execDsplit, operands_ready hr, h]; rfl

/-- The NI of the issuing core with its pallet put anew. -/
theorem mapNi_here {s : State} {f g : NI → NI} (h : f s.here.ni = g s.here.ni) : s.mapNi s.cur f = s.mapNi s.cur g := by
  have h' : f (s.core s.cur).ni = g (s.core s.cur).ni := h
  simp only [State.mapNi, State.mapCore, h']

section
variable {s : State} {es : List PalletEntry} {e : PalletEntry} (h : s.here.ni.pallet = es ++ [e])
include h

theorem dpop_pops (d a : BitVec 6) : exec (.dpop d a) s =
    wrote ((s.mapNi s.cur fun ni => { ni with pallet := es }).writeG a.toNat { val := BitVec.ofNat 64 e.tag }) d
      (BitVec.ofNat 64 (e.hi * 2 ^ 32 + e.lo)) 0 := by
  have hput : (s.mapNi s.cur fun ni => { ni with pallet := ni.pallet.dropLast }) = s.mapNi s.cur fun ni => { ni with pallet := es } :=
    mapNi_here (by rw [h, List.dropLast_concat])
  have hlast : s.here.ni.pallet.getLast? = some e := by rw [h, List.getLast?_concat]
  rw [exec_dpop, execDpop, hlast]
  dsimp only
  rw [hput]; rfl

theorem dsplit_splits {d a : BitVec 6} (hr : Ready s [a]) :
    let k := (s.g a).val.toNat
    exec (.dsplit d a) s = if 1 ≤ k ∧ k < e.hi - e.lo ∧ ¬ 64 ≤ s.here.ni.pallet.length + s.here.ni.places then
      wrote (s.mapNi s.cur fun ni => { ni with pallet := es ++ [{ e with lo := e.lo + k }, { e with hi := e.lo + k }] }) d 1 0
      else wrote s d 0 0 := by
  intro k
  have hput : (s.mapNi s.cur fun ni =>
      { ni with pallet := ni.pallet.dropLast ++ [{ e with lo := e.lo + k }, { e with hi := e.lo + k }] }) =
      s.mapNi s.cur fun ni => { ni with pallet := es ++ [{ e with lo := e.lo + k }, { e with hi := e.lo + k }] } :=
    mapNi_here (by rw [h, List.dropLast_concat])
  have hlast : s.here.ni.pallet.getLast? = some e := by rw [h, List.getLast?_concat]
  have hcond : (decide (1 ≤ k) && decide (k < e.hi - e.lo) && !palletFull s.here.ni) = true
      ↔ 1 ≤ k ∧ k < e.hi - e.lo ∧ ¬ 64 ≤ s.here.ni.pallet.length + s.here.ni.places := by
    simp only [palletFull, Bool.and_eq_true, decide_eq_true_eq, Bool.not_eq_true', decide_eq_false_iff_not, and_assoc]
  rw [exec_dsplit, execDsplit, operands_ready hr, hlast]
  dsimp only
  rw [hput]
  exact if_congr hcond rfl rfl

end

theorem dcount_counts (s : State) (d : BitVec 6) : exec (.dcount d) s = wrote s d (BitVec.ofNat 64
    (min ((s.here.ni.pallet.map fun e => e.hi - e.lo).sum) 0xFFFFFFFF * 2 ^ 32 + s.here.ni.pallet.length)) 0 := by
  have hsum (l : List PalletEntry) (n : Nat) :
      l.foldl (fun n e => n + (e.hi - e.lo)) n = n + (l.map fun e => e.hi - e.lo).sum := by
    induction l generalizing n with
    | nil => rfl
    | cons e l ih => rw [List.foldl_cons, ih, List.map_cons, List.sum_cons, Nat.add_assoc]
  change retire (s.writeInt d (BitVec.ofNat 64 (sat32 (s.here.ni.pallet.foldl (fun n e => n + (e.hi - e.lo)) 0) * 2 ^ 32
    + s.here.ni.pallet.length)) 0) = _
  rw [hsum, Nat.zero_add]; rfl

/-! The merge path (R260). -/

/-- A plain read in which nothing is tracked and no release point lies goes on with what it finds, in a transaction too. -/
theorem readNow_untracked {s : State} {va : Word} {n : Nat} {as : List Nat} {bs : List Byte} {t : State}
    (h : plainRead s va n false = some (as, bs, t)) :
    (∀ ok : List Nat → List Byte → State → Host.Outcome State Fault Refusal, readNow va n false false s ok = ok as bs t)
      ∧ s.LinesOnly t := by
  obtain ⟨ls, hparts, hin, hlast⟩ := plainParts_found h
  simp only [List.nil_append, Option.some.injEq, Prod.mk.injEq] at hlast
  obtain ⟨has, hbs, ht⟩ := hlast
  rw [ht] at hbs
  refine ⟨fun ok => ?_, ?_⟩
  · have hpieces : pieces va n = ls.map fun l => (l.va, l.len) := hparts.symm
    rw [readNow, hpieces, locatePieces_found hin, readPieces, readPiecesBy,
      eachPiece_passes fun l hl k => (hin l hl).reachable l.va k,
      eachPiece_passes fun l hl k => by rw [unpoisoned_clear (hin l hl).clear, (hin l hl).first, (hin l hl).served],
      eachPiece_passes fun l hl k => by simp [(hin l hl).unlocked]]
    simp only [Bool.false_and, Bool.false_eq_true, if_false, ht, has, hbs]
  · rw [← ht]
    refine State.LinesOnly.foldl (fun s l => ?_) ls s
    split
    · exact s.loadLines_lines _ _ _
    · exact .refl s

/-- How MPATH reads a row pointer. -/
def rowPointer (c : Reg) (i : Nat) (s : State) (ok : Nat → State → Host.Outcome State Fault Refusal) : Host.Outcome State Fault Refusal :=
  readNow (c.val + BitVec.ofNat 64 (4 * i)) 4 false false s fun _ bs s => ok (ofBytes bs) s

theorem exec_mpath_rows {s : State} {d a b : BitVec 6} : exec (.mpath d a b) s = operands [a, b] s fun s =>
    checked (s.g a) (s.g a).val (4 * (((s.g b).val.extractLsb' 32 32).toNat + 1)) [pLD] 4 s fun t =>
      rollback t (rowPointer (s.g a) 0 t fun r0 t => rowPointer (s.g a) ((s.g b).val.extractLsb' 32 32).toNat t fun rm t =>
        mpathLoop (rowPointer (s.g a)) r0 (min ((s.g b).val.extractLsb' 0 32).toNat (((s.g b).val.extractLsb' 32 32).toNat + (rm - r0))) 33
          (min ((s.g b).val.extractLsb' 0 32).toNat (((s.g b).val.extractLsb' 32 32).toNat + (rm - r0)) - (rm - r0))
          (min (min ((s.g b).val.extractLsb' 0 32).toNat (((s.g b).val.extractLsb' 32 32).toNat + (rm - r0)))
            ((s.g b).val.extractLsb' 32 32).toNat) t fun lo t =>
          retire (t.writeInt d (BitVec.ofNat 64 ((min ((s.g b).val.extractLsb' 0 32).toNat
            (((s.g b).val.extractLsb' 32 32).toNat + (rm - r0)) - lo) * 2 ^ 32 + lo)) t.task.momentTaint)) := rfl

theorem ofBytes_bytesOf_word {n : Nat} (h : n < 2 ^ 32) : ofBytes (bytesOf 4 n) = n := by
  simp only [bytesOf, ofBytes, BitVec.toNat_ofNat]
  omega

/-- The bisection (R260) finds in `lo` to `hi` the least row index that the next row's end passes, reading row pointers that rise. -/
theorem mpathLoop_crosses {read : Nat → State → (Nat → State → Host.Outcome State Fault Refusal) → Host.Outcome State Fault Refusal}
    {rp : Nat → Nat} {m : Nat} {C : State → Prop}
    (hread : ∀ i ≤ m, ∀ u, C u → ∃ t, C t ∧ ∀ ok, read i u ok = ok (rp i) t) (hmono : ∀ i j, i ≤ j → j ≤ m → rp i ≤ rp j) (d : Nat)
    (fuel lo hi : Nat) (s : State) (hfuel : hi - lo < 2 ^ fuel) (hle : lo ≤ hi) (hm : hi ≤ m) (hs : C s) :
    ∃ y t, lo ≤ y ∧ y ≤ hi ∧ C t ∧ (∀ ok, mpathLoop read (rp 0) d fuel lo hi s ok = ok y t)
      ∧ (∀ i, lo ≤ i → i < y → rp (i + 1) - rp 0 + i + 1 ≤ d) ∧ (y < hi → d < rp (y + 1) - rp 0 + y + 1) := by
  induction fuel generalizing lo hi s with
  | zero =>
    exact ⟨lo, s, le_rfl, hle, hs, fun _ => rfl, fun i h1 h2 => absurd h2 (by omega), fun h => absurd h (by omega)⟩
  | succ fuel ih =>
    by_cases hend : hi ≤ lo
    · exact ⟨lo, s, le_rfl, hle, hs, fun ok => by rw [mpathLoop, if_pos hend], fun i h1 h2 => absurd h2 (by omega),
        fun h => absurd h (by omega)⟩
    · obtain ⟨t, ht, hok⟩ := hread ((lo + hi) / 2 + 1) (by omega) s hs
      have hstart : rp 0 ≤ rp ((lo + hi) / 2 + 1) := hmono _ _ (Nat.zero_le _) (by omega)
      have hpow : 2 ^ (fuel + 1) = 2 * 2 ^ fuel := by ring
      by_cases hcond : (rp ((lo + hi) / 2 + 1) : Int) - rp 0 ≤ (d : Int) - 1 - ((lo + hi) / 2 : Nat)
      · obtain ⟨y, u, h1, h2, h3, h4, h5, h6⟩ := ih ((lo + hi) / 2 + 1) hi t (by omega) (by omega) hm ht
        refine ⟨y, u, by omega, h2, h3, fun ok => ?_, fun i hi1 hi2 => ?_, h6⟩
        · rw [mpathLoop, if_neg hend]; dsimp only; rw [hok, if_pos hcond, h4]
        · by_cases hi3 : (lo + hi) / 2 + 1 ≤ i
          · exact h5 i hi3 hi2
          · have := hmono (i + 1) ((lo + hi) / 2 + 1) (by omega) (by omega)
            omega
      · obtain ⟨y, u, h1, h2, h3, h4, h5, h6⟩ := ih lo ((lo + hi) / 2) t (by omega) (by omega) (by omega) ht
        refine ⟨y, u, h1, by omega, h3, fun ok => ?_, h5, fun hy => ?_⟩
        · rw [mpathLoop, if_neg hend]; dsimp only; rw [hok, if_neg hcond, h4]
        · rcases Nat.lt_or_ge y ((lo + hi) / 2) with h | h
          · exact h6 h
          · obtain rfl : y = (lo + hi) / 2 := by omega
            omega

/-- MPATH (R260). -/
theorem mpath_crosses {s : State} {d a b : BitVec 6} {rp : Nat → Nat} {C : State → Prop} (hstall : s.stalled = false)
    (hr : Ready s [a, b]) :
    let c := s.g a
    let w := (s.g b).val.toNat
    let m := w / 2 ^ 32
    let nnz := rp m - rp 0
    let k := min (w % 2 ^ 32) (m + nnz)
    capFault (s.supAt s.cur) c c.val (4 * (m + 1)) [pLD] 4 = none → C s →
    (∀ i, i ≤ m → rp i < 2 ^ 32 ∧ rp 0 ≤ rp i ∧ rp i ≤ rp m
      ∧ ∀ u, C u → ∃ as t, plainRead u (c.val + BitVec.ofNat 64 (4 * i)) 4 false = some (as, bytesOf 4 (rp i), t) ∧ C t) →
    (∀ i j, i ≤ j → j ≤ m → rp i ≤ rp j) →
    ∃ y t, y ≤ m ∧ y ≤ k ∧ k - y ≤ nnz ∧ C t
      ∧ exec (.mpath d a b) s = finished (t.writeG d.toNat
          { val := BitVec.ofNat 64 ((k - y) * 2 ^ 32 + y), taint := s.task.momentTaint })
      ∧ (∀ i, i < y → k - nnz ≤ i → rp (i + 1) - rp 0 + i + 1 ≤ k) ∧ (y < m → y < k → k < rp (y + 1) - rp 0 + y + 1) := by
  intro c w m nnz k hcap hC hrows hmono
  have hread : ∀ i ≤ m, ∀ u, (C u ∧ s.LinesOnly u) → ∃ t, (C t ∧ s.LinesOnly t) ∧ ∀ ok, rowPointer c i u ok = ok (rp i) t := by
    intro i hi u ⟨hu, hlines⟩
    obtain ⟨hlt, -, -, hplain⟩ := hrows i hi
    obtain ⟨as, t, hp, ht⟩ := hplain u hu
    obtain ⟨hok, hl⟩ := readNow_untracked hp
    refine ⟨t, ⟨ht, hlines.trans hl⟩, fun ok => ?_⟩
    unfold rowPointer; rw [hok, ofBytes_bytesOf_word hlt]
  have hm : m < 2 ^ 32 := by have := (s.g b).val.isLt; omega
  obtain ⟨t₀, h₀, hok₀⟩ := hread 0 (Nat.zero_le _) s ⟨hC, .refl s⟩
  obtain ⟨t₁, h₁, hok₁⟩ := hread m le_rfl t₀ h₀
  obtain ⟨y, t, hlo, hhi, ⟨hCt, hlines⟩, hloop, habove, hbelow⟩ := mpathLoop_crosses hread hmono k 33 (k - nnz) (min k m) t₁
    (by omega) (by omega) (by omega) h₁
  refine ⟨y, t, by omega, by omega, by omega, hCt, ?_, fun i hi hk => habove i hk hi, fun h1 h2 => hbelow (by omega)⟩
  have htask := hlines.task
  have hmw : ((s.g b).val.extractLsb' 32 32).toNat = m := by
    rw [extract_toNat]; exact Nat.mod_eq_of_lt hm
  have hlow : ((s.g b).val.extractLsb' 0 32).toNat = w % 2 ^ 32 := by rw [extract_toNat, Nat.pow_zero, Nat.div_one]
  have hregs := t.writeG_regs d.toNat { val := BitVec.ofNat 64 ((k - y) * 2 ^ 32 + y), taint := t.task.momentTaint }
  obtain ⟨hpark, hlate⟩ := hregs.waits
  have hexec : exec (.mpath d a b) s = rollback s (retire (t.writeG d.toNat
      { val := BitVec.ofNat 64 ((k - y) * 2 ^ 32 + y), taint := t.task.momentTaint })) := by
    have hloop' := hloop fun lo t => retire (t.writeInt d (BitVec.ofNat 64 ((k - lo) * 2 ^ 32 + lo)) t.task.momentTaint)
    rw [exec_mpath_rows, operands_ready hr, hmw, hlow, checked, hcap]
    dsimp only
    rw [hok₀, hok₁]
    exact congrArg (rollback s) hloop'
  rw [hexec, State.rollback_retired ?_ (by rw [hpark, htask]) (by rw [hlate, htask]), htask]
  obtain ⟨_, e⟩ := hregs.rest
  obtain ⟨_, _, _, e'⟩ := hlines.rest
  rw [e, e']; exact hstall

/-- Settles O29: the pallet instructions by cases of the pallet, MPATH by its bisection. -/
theorem palletInstructions : Obligations.PalletInstructions := by
  unfold Obligations.PalletInstructions
  refine ⟨fun s d a b es e => ⟨dpush_pushes, fun h => ⟨dpop_empty d a h, dsplit_empty h⟩,
    fun h => ⟨dpop_pops h d a, dsplit_splits h⟩, dcount_counts s d⟩, fun s d a b rp C hstall hr => mpath_crosses hstall hr⟩

/-! Stealing (R259). -/

section
variable {s : State} {d : BitVec 6} {dom : Nat}

theorem dsteal_gives_up (h : (s.imageAt s.cur).steal < dom ∨ 64 ≤ s.here.ni.pallet.length + s.here.ni.places
    ∨ (((s.stealDomain s.cur dom).drop (stealPtr s.here.ni dom % max 1 (s.stealDomain s.cur dom).length)
        ++ (s.stealDomain s.cur dom).take (stealPtr s.here.ni dom % max 1 (s.stealDomain s.cur dom).length)).filter
          (· != s.cur)).take 8 = []) : dsteal dom d s = wrote s d 0 0 := by
  unfold dsteal; extract_lets cores p victims
  have h' : (s.imageAt s.cur).steal < dom ∨ 64 ≤ s.here.ni.pallet.length + s.here.ni.places ∨ victims = [] := h
  split
  · rfl
  next hgo =>
    simp only [palletFull, Bool.or_eq_true, decide_eq_true_eq, not_or] at hgo
    rw [((h'.resolve_left hgo.1).resolve_left hgo.2)]; rfl

theorem dsteal_asks {v : Nat} {vs : List Nat} (hdom : dom ≤ (s.imageAt s.cur).steal)
    (hfull : ¬ 64 ≤ s.here.ni.pallet.length + s.here.ni.places)
    (h : (((s.stealDomain s.cur dom).drop (stealPtr s.here.ni dom % max 1 (s.stealDomain s.cur dom).length)
        ++ (s.stealDomain s.cur dom).take (stealPtr s.here.ni dom % max 1 (s.stealDomain s.cur dom).length)).filter
          (· != s.cur)).take 8 = v :: vs) : dsteal dom d s = .next
      ((((s.mapNi s.cur fun ni => { ni with places := ni.places + 1 }).stealAsk s.cur dom v).mapTask fun t =>
        { t with wait := some (.steal d.toNat dom) }).route (agentNi s.cur) (agentNi v) 1 0 (.stealRequest v s.cur s.ctx vs)) := by
  unfold dsteal; extract_lets cores p victims
  have h' : victims = v :: vs := h
  rw [if_neg (by simp only [palletFull, Bool.or_eq_true, decide_eq_true_eq]; omega), h']
  rfl

end

/-- A core answers a thief of its grid, at its own site or flagged (R259, R272). -/
def MaySteal (s : State) (victim thief : Nat) : Prop :=
  (((s.teamAt victim).map (·.grid)) = ((s.teamAt thief).map (·.grid)) ∧ (s.teamAt victim).isSome = true)
    ∧ (siteOf victim = siteOf thief ∨ (s.core victim).ni.flags ≠ [])

theorem maySteal_iff {s : State} {victim thief : Nat} : ((((s.teamAt victim).map (·.grid)) == ((s.teamAt thief).map (·.grid)) && (s.teamAt victim).isSome)
    && (siteOf victim == siteOf thief || !(s.core victim).ni.flags.isEmpty)) = true ↔ MaySteal s victim thief := by
  simp only [MaySteal, Bool.and_eq_true, beq_iff_eq, Bool.or_eq_true, Bool.not_eq_true', List.isEmpty_eq_false_iff]

section
variable {s : State} {victim thief : Nat} (x : Nat) (rest : List Nat) (hlost : (s.core victim).lost ≠ 1)
include hlost

/-- What a victim whose NI state is not being copied answers. -/
theorem stealRequest_answers : exec (.stealRequest victim thief x rest) s =
    match (s.core victim).ni.pallet with
    | [] => .next (s.route (agentNi victim) (agentNi thief) 1 0 (.stealResponse thief x none rest))
    | e :: tl =>
      if !((((s.teamAt victim).map (·.grid)) == ((s.teamAt thief).map (·.grid)) && (s.teamAt victim).isSome)
          && (siteOf victim == siteOf thief || !(s.core victim).ni.flags.isEmpty)) then
        .next (s.route (agentNi victim) (agentNi thief) 1 0 (.stealResponse thief x none rest))
      else .next ((s.mapNi victim fun ni => { ni with pallet := if 2 ≤ e.hi - e.lo then { e with hi := e.lo + (e.hi - e.lo) / 2 } :: tl else tl }).route
        (agentNi victim) (agentNi thief) 1 0 (.stealResponse thief x (some (e.lo + (e.hi - e.lo) / 2, e.hi, e.tag)) rest)) :=
  exec_stealRequest.trans (if_neg hlost)

theorem stealRequest_refuses (h : (s.core victim).ni.pallet = [] ∨ ¬ MaySteal s victim thief) :
    exec (.stealRequest victim thief x rest) s =
      .next (s.route (agentNi victim) (agentNi thief) 1 0 (.stealResponse thief x none rest)) := by
  rw [stealRequest_answers x rest hlost]
  split
  · rfl
  next e tl he =>
    have hmay : ¬ MaySteal s victim thief := h.resolve_left (by rw [he]; exact List.cons_ne_nil _ _)
    rw [Bool.eq_false_iff.2 (mt (maySteal_iff).1 hmay)]; rfl

theorem stealRequest_gives {e : PalletEntry} {es : List PalletEntry} (hp : (s.core victim).ni.pallet = e :: es)
    (hmay : MaySteal s victim thief) :
    exec (.stealRequest victim thief x rest) s =
      .next ((s.mapNi victim fun ni => { ni with pallet := if 2 ≤ e.hi - e.lo then { e with hi := e.lo + (e.hi - e.lo) / 2 } :: es else es }).route
        (agentNi victim) (agentNi thief) 1 0 (.stealResponse thief x (some (e.lo + (e.hi - e.lo) / 2, e.hi, e.tag)) rest)) := by
  rw [stealRequest_answers x rest hlost, hp]
  dsimp only
  rw [(maySteal_iff).2 hmay]; rfl

end

/-- Settles O30: each step by the cases of its definition. -/
theorem stealing : Obligations.Stealing := by
  unfold Obligations.Stealing
  intro s d victim thief x rest e es steals may reply mid
  have hsteals {ins : Instr} {dom : Nat} (h : exec ins s = dsteal dom d s) : steals ins dom :=
    ⟨fun hno => h.trans (dsteal_gives_up hno), fun v vs hdom hfull hvs => h.trans (dsteal_asks hdom hfull hvs)⟩
  have hmay_iff : may ↔ MaySteal s victim thief := and_assoc.symm
  refine ⟨hsteals rfl, hsteals rfl, hsteals rfl, fun hlost => ⟨fun hno => ?_, fun hp hmay => ?_⟩, fun lo hi tag => rfl, rfl⟩
  · exact stealRequest_refuses x rest hlost (hno.imp_right fun h => mt hmay_iff.2 h)
  · exact stealRequest_gives x rest hlost hp (hmay_iff.1 hmay)

end Sys2Proof.Machine
end

section
/-!
CERTIFICATE. Mailboxes (R261 to R263).
-/
namespace Sys2Proof.Machine

/-- A bit of a word, as a number's. -/
theorem getLsbD_eq_decide (w : Word) (i : Nat) : w.getLsbD i = decide (w.toNat / 2 ^ i % 2 = 1) := by
  rw [← BitVec.testBit_toNat, Nat.testBit_eq_decide_div_mod_eq]

/-! Configuration (R261). -/

/-- The depth that the other instances of an NI have. -/
def otherDepths (ni : NI) (inst : Nat) : Nat := ((ni.mail.filter fun (i, _) => i != inst).map fun (_, m) => m.depth).sum

theorem pmStatus_eq (ni : NI) (inst : Nat) (w : Word) : pmStatus ni inst w =
    if w.toNat / 2 ^ 12 ≠ 0 ∨ w.toNat / 2 ^ 9 % 4 = 3 ∨ 256 < w.toNat % 512 then 2
    else if 256 < otherDepths ni inst + w.toNat % 512 then 1 else 0 := by
  have hsum (l : List (Nat × Mailbox)) (n : Nat) :
      l.foldl (fun n (_, b) => n + b.depth) n = n + (l.map fun (_, m) => m.depth).sum := by
    induction l generalizing n with
    | nil => rfl
    | cons e l ih => rw [List.foldl_cons, ih, List.map_cons, List.sum_cons, Nat.add_assoc]
  have hmode : w.extractLsb' 9 2 = 3 ↔ w.toNat / 2 ^ 9 % 4 = 3 := by
    rw [← BitVec.toNat_inj, extract_toNat]; rfl
  unfold pmStatus; extract_lets depth others
  have hothers : others = otherDepths ni inst := (hsum _ 0).trans (Nat.zero_add _)
  rw [hothers]
  refine if_congr ?_ rfl rfl
  simp only [Bool.or_eq_true, decide_eq_true_eq, beq_iff_eq, hmode, or_assoc]; rfl

theorem pmcfg_configures {s : State} {d a b : BitVec 6} (h : Ready s [a, b]) :
    let inst := (s.g a).val.toNat % 64
    let cfg := (s.g b).val.toNat
    let depth := cfg % 512
    let box : Mailbox := { depth, mode := cfg / 2 ^ 9 % 4, notice := decide (cfg / 2 ^ 11 % 2 = 1) }
    exec (.pmcfg d a b) s =
      if cfg / 2 ^ 12 ≠ 0 ∨ cfg / 2 ^ 9 % 4 = 3 ∨ 256 < depth then wrote s d 2 0
      else if 256 < otherDepths s.here.ni inst + depth then wrote s d 1 0
      else wrote (s.mapNi s.cur fun ni =>
        { ni with mail := if depth = 0 then Sparse.erase s.here.ni.mail inst else Sparse.set s.here.ni.mail inst box }) d 0 0 := by
  intro inst cfg depth box
  have hmode : ((s.g b).val.extractLsb' 9 2).toNat = cfg / 2 ^ 9 % 4 := extract_toNat _ 9 2
  rw [exec_pmcfg, execPmcfg, operands_ready h]
  dsimp only
  rw [pmStatus_eq, hmode, getLsbD_eq_decide]
  split
  · rfl
  · split
    · rfl
    · rw [if_neg (by decide)]
      exact congrArg (fun u : State => retire (u.writeInt d 0 0)) (mapNi_here rfl)

/-! Posts (R262). -/

section
variable {s : State} {a : BitVec 6} {k nk : Nat} {team nteam : Option (Nat × Nat)}

/-- The post that PMPOST makes of its registers. -/
def postOf (s : State) (a : BitVec 6) (k : Nat) (team : Option (Nat × Nat)) (nk : Nat) (nteam : Option (Nat × Nat)) : MailPost :=
  { core := s.cur, ctx := s.ctx, op := s.task.opNo, counted := modOf k == modOf s.cur, dst := k, team, pos := s.posOf team k
    inst := (s.g a).val.toNat / 2 ^ 16 % 64
    key := (s.g 56).val.extractLsb' 32 32, tie := (s.g 56).val.extractLsb' 0 32
    value := (s.g 57).val
    notice := s.posed { noMsg with dst := nk, team := nteam, handler := dHandler (s.g 58).val, cls := dClass (s.g 58).val }
    garg := (s.g 59).val }

/-- The operation of a post (R262). -/
def postOp (s : State) (a : BitVec 6) (k : Nat) (team : Option (Nat × Nat)) (nk : Nat) (nteam : Option (Nat × Nat)) : PendOp :=
  { op := 0, gen := 0, kind := .post, place := .share k, counted := modOf k == modOf s.cur, mail := some (postOf s a k team nk nteam) }

theorem pmpost_posts (h : Ready s ([a, 56, 57, 58, 59] ++ absRegs (s.g a).val ++ absRegs (s.g 58).val))
    (hres : (s.g a).val.toNat / 2 ^ 22 % 2 ^ 6 = 0) (hk : s.resolve s.cur (s.g 60) (s.g a).val = .core k team)
    (hn : s.resolve s.cur (s.g 60) (s.g 58).val = .core nk nteam) (hroom : s.counterFull (.share k) = false) :
    exec (.pmpost a) s = retired (((s.countOp (modOf k)).addOp (postOp s a k team nk nteam)).kick s.cur s.ctx) := by
  have hzero : (s.g a).val.extractLsb' 22 6 = 0 := BitVec.eq_of_toNat_eq (by rw [extract_toNat, hres]; rfl)
  have hinst : ((s.g a).val.extractLsb' 16 6).toNat = (s.g a).val.toNat / 2 ^ 16 % 64 := extract_toNat _ 16 6
  simp only [exec_pmpost, execPmpost, anyBusy_ready h, taintOf_ready h, hzero, resolved, hk, hn, hroom, hinst, postOp, postOf]
  rfl

end

/-! Draining (R263). -/

theorem pmdrain_absent {s : State} {d a b : BitVec 6} (h : Ready s [a]) (hm : Sparse.find s.here.ni.mail ((s.g a).val.toNat % 64) = none) :
    exec (.pmdrain d a b) s = wrote (s.writeG d.toNat {}) b (BitVec.allOnes 64) 0 := by
  rw [exec_pmdrain, execPmdrain, operands_ready h]
  dsimp only
  rw [hm]; rfl

/-- What PMDRAIN takes from an instance, and the instance that it leaves. -/
def drainedEntry (m : Mailbox) : Option MailEntry := if m.mode = 2 then m.entries.head? else mailBest m.entries
def drainedBox (m : Mailbox) : Mailbox :=
  let left := match drainedEntry m with
    | some e => m.entries.erase e
    | none => []
  { m with entries := left, closed := decide (m.mode = 1 ∨ m.mode = 2) && !left.isEmpty, deferred := [] }

theorem pmdrain_drains {s : State} {d a b : BitVec 6} {m : Mailbox} (h : Ready s [a])
    (hm : Sparse.find s.here.ni.mail ((s.g a).val.toNat % 64) = some m) (hq : m.mode = 0 ∨ m.closed = true ∨ m.deferred = []) :
    let u := s.mapNi s.cur fun ni => { ni with mail := Sparse.set ni.mail ((s.g a).val.toNat % 64) (drainedBox m) }
    exec (.pmdrain d a b) s = match drainedEntry m with
      | some e => wrote (u.writeG d.toNat { val := e.post.value }) b (e.post.key ++ e.post.tie) 0
      | none => wrote (u.writeG d.toNat {}) b (BitVec.allOnes 64) 0 := by
  intro u
  have hwindow : (decide (m.mode = 1) || decide (m.mode = 2)) = decide (m.mode = 1 ∨ m.mode = 2) := by
    rw [Bool.decide_or]
  have hfold (u : State) : (if (decide (m.mode = 1) || decide (m.mode = 2)) && !m.closed then
      m.deferred.foldl (fun s (q, cause) => s.mailNotice s.cur ((u.g a).val.toNat % 64) q cause) u else u) = u := by
    rcases hq with hq | hq | hq
    · rw [hq]; rfl
    · rw [hq, Bool.not_true, Bool.and_false]; rfl
    · rw [hq]; split <;> rfl
  have harrival : (if mailArrival m then m.entries.head? else mailBest m.entries) = drainedEntry m :=
    if_congr beq_iff_eq rfl rfl
  rw [exec_pmdrain, execPmdrain, operands_ready h]
  dsimp only
  rw [hm]
  dsimp only
  rw [hfold, harrival, hwindow]
  simp only [u, drainedBox]
  cases drainedEntry m <;> rfl

/-! A post at its mailbox (R262). -/

/-- The loss that a full or closed instance notes changes none of its entries. -/
def noted (b : Mailbox) (q : MailPost) (cause : Nat) : Mailbox × Option (MailPost × Nat) :=
  if !b.notice then (b, none)
  else if b.mode = 1 && cause ≠ 3 then ({ b with deferred := b.deferred ++ [(q, cause)] }, none)
  else (b, some (q, cause))

theorem noted_box (b : Mailbox) (q : MailPost) (cause : Nat) : ∃ deferred, (noted b q cause).1 = { b with deferred } := by
  unfold noted; split
  · exact ⟨_, rfl⟩
  · split <;> exact ⟨_, rfl⟩

/-- The instance holds the post already (R262). -/
def holdsPost (b : Mailbox) (p : MailPost) : Bool :=
  b.entries.any fun e => e.post.key == p.key && e.post.tie == p.tie && e.post.value == p.value

section
variable {b : Mailbox} {p : MailPost}

theorem mailInsert_eq (b : Mailbox) (p : MailPost) : mailInsert b p =
    if holdsPost b p then (b, none)
    else if b.closed then noted b p 3
    else if b.entries.length < b.depth then ({ b with entries := b.entries ++ [⟨p⟩] }, none)
    else if mailArrival b then noted b p 1
    else match mailWorst b.entries with
      | none => noted b p 1
      | some w => if ranksAbove p w.post then noted { b with entries := b.entries.erase w ++ [⟨p⟩] } w.post 2 else noted b p 1 := rfl

theorem mailInsert_unkept (h : holdsPost b p = true ∨ b.closed = true) : ∃ deferred, (mailInsert b p).1 = { b with deferred } := by
  rw [mailInsert_eq]; split
  · exact ⟨_, rfl⟩
  next hd => rw [if_pos (h.resolve_left hd)]; exact noted_box _ _ _

variable (hd : holdsPost b p = false) (hc : b.closed = false)
include hd hc

theorem mailInsert_room (h : b.entries.length < b.depth) : mailInsert b p = ({ b with entries := b.entries ++ [⟨p⟩] }, none) := by
  rw [mailInsert_eq, hd, if_neg (by decide), if_neg (by rw [hc]; decide), if_pos h]

theorem mailInsert_arrival (h : b.depth ≤ b.entries.length) (hm : b.mode = 2) :
    ∃ deferred, (mailInsert b p).1 = { b with deferred } := by
  rw [mailInsert_eq, hd, if_neg (by decide), if_neg (by rw [hc]; decide), if_neg (Nat.not_lt.2 h),
    if_pos (by rw [mailArrival, hm]; rfl)]
  exact noted_box _ _ _

theorem mailInsert_empty (h : b.depth ≤ b.entries.length) (hm : b.mode ≠ 2) (hw : mailWorst b.entries = none) :
    ∃ deferred, (mailInsert b p).1 = { b with deferred } := by
  rw [mailInsert_eq, hd, if_neg (by decide), if_neg (by rw [hc]; decide), if_neg (Nat.not_lt.2 h),
    if_neg (by simpa [mailArrival] using hm), hw]
  exact noted_box _ _ _

theorem mailInsert_full (h : b.depth ≤ b.entries.length) (hm : b.mode ≠ 2) {w : MailEntry} (hw : mailWorst b.entries = some w) :
    ∃ deferred, (mailInsert b p).1 =
      { b with deferred, entries := if ranksAbove p w.post then b.entries.erase w ++ [⟨p⟩] else b.entries } := by
  rw [mailInsert_eq, hd, if_neg (by decide), if_neg (by rw [hc]; decide), if_neg (Nat.not_lt.2 h),
    if_neg (by simpa [mailArrival] using hm), hw]
  dsimp only
  split
  · exact noted_box _ _ _
  · exact noted_box _ _ _

end

/-- The worst entry of an instance is one of its entries. -/
theorem mailWorst_mem {es : List MailEntry} {w : MailEntry} (h : mailWorst es = some w) : w ∈ es := by
  have key (l : List MailEntry) (acc : Option MailEntry) (h : l.foldl (fun b e => match b with
      | none => some e
      | some b => if ranksAbove b.post e.post then some e else some b) acc = some w) : w ∈ l ∨ acc = some w := by
    induction l generalizing acc with
    | nil => exact .inr h
    | cons e l ih =>
      rcases ih _ h with hl | hacc
      · exact .inl (List.mem_cons_of_mem _ hl)
      · cases acc with
        | none => exact .inl (Option.some.inj hacc ▸ List.mem_cons_self)
        | some b =>
          dsimp only at hacc
          split at hacc
          · exact .inl (Option.some.inj hacc ▸ List.mem_cons_self)
          · exact .inr hacc
  exact (key es none h).resolve_right (by simp)

/-- What a post leaves of its instance: depth, mode and window as they were, and no more entries than fit. -/
theorem mailInsert_keeps (b : Mailbox) (p : MailPost) : (b.entries.length ≤ b.depth → (mailInsert b p).1.entries.length ≤ b.depth)
    ∧ (mailInsert b p).1.depth = b.depth ∧ (mailInsert b p).1.mode = b.mode ∧ (mailInsert b p).1.closed = b.closed := by
  have same (h : ∃ deferred, (mailInsert b p).1 = { b with deferred }) :
      (b.entries.length ≤ b.depth → (mailInsert b p).1.entries.length ≤ b.depth)
        ∧ (mailInsert b p).1.depth = b.depth ∧ (mailInsert b p).1.mode = b.mode ∧ (mailInsert b p).1.closed = b.closed := by
    obtain ⟨_, e⟩ := h; rw [e]; exact ⟨id, rfl, rfl, rfl⟩
  cases hd : holdsPost b p with
  | true => exact same (mailInsert_unkept (.inl hd))
  | false =>
  cases hc : b.closed with
  | true => rw [← hc]; exact same (mailInsert_unkept (.inr hc))
  | false =>
  rw [← hc]
  by_cases hroom : b.entries.length < b.depth
  · rw [mailInsert_room hd hc hroom]
    exact ⟨fun _ => by simpa using hroom, rfl, rfl, rfl⟩
  have hfull := Nat.not_lt.1 hroom
  by_cases hm : b.mode = 2
  · exact same (mailInsert_arrival hd hc hfull hm)
  cases hw : mailWorst b.entries with
  | none => exact same (mailInsert_empty hd hc hfull hm hw)
  | some w =>
    obtain ⟨_, e⟩ := mailInsert_full hd hc hfull hm hw
    rw [e]
    refine ⟨fun hlen => ?_, rfl, rfl, rfl⟩
    have hmem := mailWorst_mem hw
    have hpos := List.length_pos_of_mem hmem
    dsimp only
    split
    · rw [List.length_append, List.length_erase_of_mem hmem, List.length_singleton]; omega
    · exact hlen

section
variable {s : State} {p : MailPost} (hlost : (s.core p.dst).lost ≠ 1)
include hlost

theorem mailboxPost_reserved (h : p.tie = BitVec.allOnes 32) :
    exec (.mailboxPost p) s = .next (s.performed p.core p.ctx p.op p.counted (.mailboxPost p)) := by
  rw [exec_mailboxPost, execMailboxPost, unlessCopied, if_neg hlost, if_pos h]

theorem mailboxPost_absent (h : p.tie ≠ BitVec.allOnes 32) (hm : Sparse.find (s.mailAt p) p.inst = none) :
    exec (.mailboxPost p) s = .next ((s.mailNotice p.dst p.inst p 4).performed p.core p.ctx p.op p.counted (.mailboxPost p)) := by
  rw [exec_mailboxPost, execMailboxPost, unlessCopied, if_neg hlost, if_neg h, hm]

variable {b : Mailbox} (h : p.tie ≠ BitVec.allOnes 32) (hm : Sparse.find (s.mailAt p) p.inst = some b)
include h hm

theorem mailboxPost_inserts (hn : (mailInsert b p).2 = none) : exec (.mailboxPost p) s =
    .next ((s.putMail p p.inst (mailInsert b p).1).performed p.core p.ctx p.op p.counted (.mailboxPost p)) := by
  rw [exec_mailboxPost, execMailboxPost, unlessCopied, if_neg hlost, if_neg h, hm]
  dsimp only
  generalize mailInsert b p = m at hn ⊢
  obtain ⟨m, n⟩ := m
  cases hn
  rfl

theorem mailboxPost_notes {q : MailPost} {cause : Nat} (hn : (mailInsert b p).2 = some (q, cause)) : exec (.mailboxPost p) s =
    .next (((s.putMail p p.inst (mailInsert b p).1).mailNotice p.dst p.inst q cause).performed p.core p.ctx p.op p.counted
      (.mailboxPost p)) := by
  rw [exec_mailboxPost, execMailboxPost, unlessCopied, if_neg hlost, if_neg h, hm]
  dsimp only
  generalize mailInsert b p = m at hn ⊢
  obtain ⟨m, n⟩ := m
  cases hn
  rfl

end

theorem State.answer_none {s : State} {req : Event} (h : s.windowOf req = none) (e : Event) : s.answer req e = s.push e := by
  unfold answer; rw [h]

/-- A counted post is acknowledged to its context (R130, R262). -/
theorem State.performed_acks {s : State} {k x : Nat} {e : Event} (h : s.windowOf e = none) (op : Nat) :
    Event.storeAck k x ∈ (s.performed k x op true e).agenda := by
  have hmem (u : State) : Event.storeAck k x ∈ (u.push (.storeAck k x)).agenda := List.mem_append_right _ List.mem_cons_self
  unfold performed; split
  · rw [if_pos rfl, answer_none h]; exact hmem s
  next q _ =>
    have h' : (s.dropOp k x op).windowOf e = none := h
    rw [if_pos rfl]
    refine (State.kick_proceeds _ _ _).agenda _ ?_
    rw [answer_none h']; exact hmem _

/-- Settles O31: the instructions by their equations, a post at its mailbox by the cases of the instance. -/
theorem mailboxes : Obligations.Mailboxes := by
  unfold Obligations.Mailboxes
  refine ⟨fun s d a b => ?_, fun b p => ?_, fun s p hlost => ?_⟩
  · exact ⟨pmcfg_configures, fun k team nk nteam h hres hk hn hroom => pmpost_posts h hres hk hn hroom,
      fun h hm => pmdrain_absent h hm, fun m h hm hq => pmdrain_drains h hm hq⟩
  · obtain ⟨hlen, hdepth, hmode, hclosed⟩ := mailInsert_keeps b p
    have entries {es : List MailEntry} (h : ∃ deferred, (mailInsert b p).1 = { b with deferred, entries := es }) :
        (mailInsert b p).1.entries = es := by obtain ⟨_, e⟩ := h; rw [e]
    refine ⟨hlen, hdepth, hmode, hclosed, fun h => entries (mailInsert_unkept h), fun hd hc hroom => ?_,
      fun hd hc hfull hm => entries (mailInsert_arrival hd hc hfull hm), fun w hd hc hfull hm hw => entries (mailInsert_full hd hc hfull hm hw)⟩
    rw [mailInsert_room hd hc hroom]; exact ⟨rfl, rfl⟩
  · intro e ends mail
    have hends {u : State} (h : exec (.mailboxPost p) s = .next (u.performed p.core p.ctx p.op p.counted (.mailboxPost p))) : ends u := h
    clear_value ends
    exact ⟨fun h => hends (mailboxPost_reserved hlost h), fun h hm => hends (mailboxPost_absent hlost h hm), fun b h hm =>
        ⟨fun hn => hends (mailboxPost_inserts hlost h hm hn), fun q cause hn => hends (mailboxPost_notes hlost h hm hn)⟩,
      fun _ hw op => State.performed_acks hw op⟩

end Sys2Proof.Machine
end

section
/-!
CERTIFICATE. Sync blocks, groups and plumb records (R264, R265, R268, R270 to R272).
-/
namespace Sys2Proof.Machine

/-! Blocks (R264, R265, R270). -/

/-- A block capability is no authority. -/
theorem not_authority_of_syncCapOk {c : Reg} (h : syncCapOk c = true) : (c.tag && capOtype c.desc == 0 && hasPerm c.desc pSYNC) = false := by
  simp only [syncCapOk, Bool.and_eq_true, beq_iff_eq] at h
  obtain ⟨⟨-, ho⟩, -⟩ := h
  rw [ho]; simp

theorem syncBlock_of {c : Reg} {s : State} {blk : SyncBlock} (hc : syncCapOk c = true) (hb : s.blockAt c.val = some blk)
    (ok : SyncBlock → State → Host.Outcome State Fault Refusal) : syncBlock c s ok = ok blk s := by
  simp only [syncBlock, hc, hb]; rfl

/-- The words that BINIT does not allow (R264). -/
theorem binit_bad (v : Word) : (v.extractLsb' 17 47 != 0 || (!v.getLsbD 16 && (v.extractLsb' 0 16).toNat == 0))
    = decide (v.toNat / 2 ^ 17 ≠ 0 ∨ (decide (v.toNat / 2 ^ 16 % 2 = 1) = false ∧ v.toNat % 2 ^ 16 = 0)) := by
  have hcount : (v.extractLsb' 0 16).toNat = v.toNat % 2 ^ 16 := by rw [extract_toNat, Nat.pow_zero, Nat.div_one]
  have hzero : (v.extractLsb' 17 47 != 0) = decide (v.toNat / 2 ^ 17 ≠ 0) := by
    rw [bne, beq_eq_decide, ← decide_not, decide_eq_decide, not_iff_not, ← BitVec.toNat_inj, extract_toNat,
      Nat.mod_eq_of_lt (by have := v.isLt; omega)]
    rfl
  rw [hzero, getLsbD_eq_decide, hcount]
  simp only [beq_eq_decide, Bool.decide_or, Bool.decide_and]
  cases decide (v.toNat / 2 ^ 16 % 2 = 1) <;> simp

/-- A core's authority to initialise blocks (R264). -/
def SyncAuthority (c : Reg) : Prop := c.tag = true ∧ capOtype c.desc = 0 ∧ hasPerm c.desc pSYNC = true

section
variable {s : State} {d a b : BitVec 6} (hr : Ready s [a, b])
include hr

/-- BINIT with an authority. -/
theorem binit_authority (h : SyncAuthority (s.g a)) : exec (.binit d a b) s =
    s.freeBlock.elim (wroteReg s d {}) fun name =>
      if decide ((s.g b).val.toNat / 2 ^ 17 ≠ 0 ∨ (decide ((s.g b).val.toNat / 2 ^ 16 % 2 = 1) = false ∧ (s.g b).val.toNat % 2 ^ 16 = 0))
      then wroteReg s d {}
      else wroteReg (s.putBlock name
        { group := decide ((s.g b).val.toNat / 2 ^ 16 % 2 = 1), count := (s.g b).val.toNat % 2 ^ 16
          expected := if decide ((s.g b).val.toNat / 2 ^ 16 % 2 = 1) then 0 else (s.g b).val.toNat % 2 ^ 16
          openedAt := s.here.cycle, frozen := s.gridFrozen (blkGrid name) }) d (syncReg name (hasPerm (s.g a).desc pGLOBAL)) := by
  obtain ⟨htag, hotype, hperm⟩ := h
  have hauth : ((s.g a).tag && capOtype (s.g a).desc == 0 && hasPerm (s.g a).desc pSYNC) = true := by rw [htag, hotype, hperm]; rfl
  have hcount : ((s.g b).val.extractLsb' 0 16).toNat = (s.g b).val.toNat % 2 ^ 16 := by rw [extract_toNat, Nat.pow_zero, Nat.div_one]
  rw [exec_binit, execBinit, operands_ready hr]
  dsimp only
  rw [hauth, if_pos rfl, binit_bad, getLsbD_eq_decide, hcount]
  cases s.freeBlock <;> rfl

/-- BINIT with a block in whose episode nothing has arrived (R265). -/
theorem binit_again {blk : SyncBlock} (hc : syncCapOk (s.g a) = true) (hb : s.blockAt (s.g a).val = some blk) (harr : blk.arrived = 0)
    (hgood : ¬ ((s.g b).val.toNat / 2 ^ 17 ≠ 0 ∨ (decide ((s.g b).val.toNat / 2 ^ 16 % 2 = 1) = false ∧ (s.g b).val.toNat % 2 ^ 16 = 0))) :
    let count := (s.g b).val.toNat % 2 ^ 16
    let group := decide ((s.g b).val.toNat / 2 ^ 16 % 2 = 1)
    let members := if group && blk.group then blk.members else []
    exec (.binit d a b) s = wroteReg (s.putBlock (s.g a).val { blk with
      group, count, members, roll := members, expected := if group then members.length else count }) d
        (syncReg (s.g a).val (hasPerm (s.g a).desc pGLOBAL)) := by
  have hcount : ((s.g b).val.extractLsb' 0 16).toNat = (s.g b).val.toNat % 2 ^ 16 := by rw [extract_toNat, Nat.pow_zero, Nat.div_one]
  rw [exec_binit, execBinit, operands_ready hr]
  dsimp only
  rw [not_authority_of_syncCapOk hc, if_neg (by decide), syncBlock_of hc hb]
  rw [binit_bad, if_neg (by rw [decide_eq_true_iff]; exact hgood), if_pos harr, getLsbD_eq_decide, hcount]
  rfl

end

theorem bstat_reads {s : State} {d a : BitVec 6} {blk : SyncBlock} (hr : Ready s [a]) (hc : syncCapOk (s.g a) = true)
    (hb : s.blockAt (s.g a).val = some blk) (hp : blk.poisoned = false) : exec (.bstat d a) s = wrote s d (bstatWord blk) 0 := by
  rw [exec_bstat, execBstat, operands_ready hr, syncBlock_of hc hb, if_neg (by rw [hp]; decide)]; rfl

theorem bstat_traps {s : State} {d a : BitVec 6} (hr : Ready s [a]) (hc : syncCapOk (s.g a) = false) :
    exec (.bstat d a) s = trapped s cCAP (s.g a).val := by
  rw [exec_bstat, execBstat, operands_ready hr, syncBlock, if_pos (by rw [hc]; rfl)]; rfl

/-- Settles O32: BINIT by what its capability is, BSTAT by whether it is one of a block. -/
theorem blockInstructions : Obligations.BlockInstructions := by
  unfold Obligations.BlockInstructions
  intro s d a b c w count group bad authority
  refine ⟨fun hr ha hno => ?_, fun name hr ha hf hgood => ?_, fun blk hr hc hb harr hgood => binit_again hr hc hb harr hgood,
    fun blk hr hc hb hp => bstat_reads hr hc hb hp, fun hr hc => bstat_traps hr hc⟩
  · rw [binit_authority hr ha]
    cases hf : s.freeBlock with
    | none => rfl
    | some name => exact if_pos (decide_eq_true (hno.resolve_left (by rw [hf]; simp)))
  · rw [binit_authority hr ha, hf]
    exact if_neg (by rw [decide_eq_true_iff]; exact hgood)

/-! Groups (R268). -/

theorem State.putBlock_cur (s : State) (w : Word) (b : SyncBlock) : (s.putBlock w b).cur = s.cur := by
  unfold putBlock; split
  · unfold putSyncStore; split
    · rfl
    · split
      · exact mapTeam_cur _ _ _
      · rfl
  · rfl

theorem groupBlock_of {c : Reg} {s : State} {blk : SyncBlock} (hc : syncCapOk c = true) (hb : s.blockAt c.val = some blk)
    (hg : blk.group = true) (ok : SyncBlock → State → Host.Outcome State Fault Refusal) : groupBlock c s ok = ok blk s := by
  rw [groupBlock, syncBlock_of hc hb, if_pos hg]

section
variable {s : State} {d a : BitVec 6} {blk : SyncBlock} (htxn : s.task.txn = none) (hr : Ready s [a]) (hc : syncCapOk (s.g a) = true)
  (hb : s.blockAt (s.g a).val = some blk) (hg : blk.group = true)
include htxn hr hc hb hg

theorem gjoin_eq : exec (.gjoin d a) s =
    if s.memberKey s.cur ∈ blk.members then wrote s d 0 0 else if 32 ≤ s.here.ni.groups.length then wrote s d 2 0
    else wrote ((s.mapNi s.cur fun ni => { ni with groups := ni.groups ++ [((s.g a).val, 0)] }).putBlock (s.g a).val
      { blk with members := blk.members ++ [s.memberKey s.cur] }) d 1 0 := by
  rw [exec_gjoin, execGjoin, noTxn_passes htxn, operands_ready hr, groupBlock_of hc hb hg]
  exact if_congr List.contains_iff_mem rfl rfl

theorem gleave_stays (h : s.memberKey s.cur ∉ blk.members) : exec (.gleave d a) s = wrote s d 0 0 := by
  have hno : blk.members.contains (s.memberKey s.cur) = false := Bool.eq_false_iff.2 (mt List.contains_iff_mem.1 h)
  rw [exec_gleave, execGleave, noTxn_passes htxn, operands_ready hr, groupBlock_of hc hb hg]
  exact if_pos (by rw [hno]; rfl)

theorem gleave_leaves (h : s.memberKey s.cur ∈ blk.members) :
    let key := s.memberKey s.cur
    let w := (s.g a).val
    let now := !(s.here.ni.groups.any fun (g, e) => g == w && e == blk.episode + 1) && blk.roll.contains key
    let u := (s.mapNi s.cur fun ni => { ni with groups := ni.groups.filter fun (g, _) => g != w }).putBlock w
      { blk with members := blk.members.filter (· != key), roll := blk.roll.filter (· != key)
                 expected := if now then blk.expected - 1 else blk.expected }
    exec (.gleave d a) s = wrote (if now then u.completeIf w (siteOf s.cur % 24) else u) d 1 0 := by
  intro key w now u
  have hcur : u.cur = s.cur := State.putBlock_cur _ _ _
  have hyes : blk.members.contains key = true := List.contains_iff_mem.2 h
  rw [← hcur, exec_gleave, execGleave, noTxn_passes htxn, operands_ready hr, groupBlock_of hc hb hg]
  exact if_neg (by rw [hyes]; decide)

end

/-! Plumb records (R271, R272). -/

section
variable {s : State} {d a b : BitVec 6} {blk : SyncBlock} (hr : Ready s [a, b]) (hc : syncCapOk (s.g a) = true)
  (hb : s.blockAt (s.g a).val = some blk)
include hr hc hb

theorem plcfg_reserved (h : (s.g b).val.toNat / 2 ^ 40 ≠ 0) : exec (.plcfg d a b) s = wrote s d 2 0 := by
  have hne : (s.g b).val.extractLsb' 40 24 != 0 := by
    rw [bne_iff_ne, ne_eq, ← BitVec.toNat_inj, extract_toNat, Nat.mod_eq_of_lt (by have := (s.g b).val.isLt; omega)]; exact h
  rw [exec_plcfg, execPlcfg, operands_ready hr, syncBlock_of hc hb]
  exact if_pos hne

variable (hres : (s.g b).val.toNat / 2 ^ 40 = 0)
include hres

/-- The clear notices that PLCFG sends for the sites that the block's record flagged (R272). -/
def State.unflagged (s : State) (w : Word) (p : Plumb) : State := p.flagged.foldl (fun s j => s.flagNotices w j false) s

/-- PLCFG on a block that has no record. -/
theorem plcfg_new (hp : blk.plumb = none) : exec (.plcfg d a b) s =
    if (s.g b).val.toNat % 2 ^ 8 = 0 then wrote (s.putBlock (s.g a).val { blk with plumb := none }) d 0 0
    else ((List.range 4).find? fun i => !((s.syncStore (s.g a).val).any fun (_, ps) => (Sparse.get {} ps i : Plumb).used)).elim
      (wrote s d 1 0) fun i => wrote ((s.putPlumb (s.g a).val i
        { used := true, thresh := (s.g b).val.toNat / 2 ^ 8 % 2 ^ 32, t := (s.g b).val.toNat % 2 ^ 8 }).putBlock (s.g a).val
          { blk with plumb := some i }) d 0 0 := by
  have hzero : (s.g b).val.extractLsb' 40 24 = 0 := BitVec.eq_of_toNat_eq (by rw [extract_toNat, hres]; rfl)
  have ht : ((s.g b).val.extractLsb' 0 8).toNat = (s.g b).val.toNat % 2 ^ 8 := by rw [extract_toNat, Nat.pow_zero, Nat.div_one]
  have hth : ((s.g b).val.extractLsb' 8 32).toNat = (s.g b).val.toNat / 2 ^ 8 % 2 ^ 32 := extract_toNat _ 8 32
  have hold : s.plumbAt (s.g a).val blk = none := by rw [State.plumbAt, hp]; rfl
  rw [exec_plcfg, execPlcfg, operands_ready hr, syncBlock_of hc hb]
  dsimp only
  rw [hzero, ht, hth, hold, hp, if_neg (by decide)]
  refine if_congr Iff.rfl rfl ?_
  dsimp only
  cases (List.range 4).find? fun i => !((s.syncStore (s.g a).val).any fun (_, ps) => (Sparse.get {} ps i : Plumb).used) <;> rfl

/-- PLCFG on a block with its record (R271, R272). -/
theorem plcfg_held {i : Nat} {p : Plumb} (hi : blk.plumb = some i) (hp : s.plumbAt (s.g a).val blk = some p) : exec (.plcfg d a b) s =
    if (s.g b).val.toNat % 2 ^ 8 = 0 then
      wrote (((s.unflagged (s.g a).val p).putPlumb (s.g a).val i {}).putBlock (s.g a).val { blk with plumb := none }) d 0 0
    else wrote (((s.unflagged (s.g a).val p).putPlumb (s.g a).val i
        { p with used := true, thresh := (s.g b).val.toNat / 2 ^ 8 % 2 ^ 32, t := (s.g b).val.toNat % 2 ^ 8
                 scored := 0, scores := [], flagged := [] }).putBlock (s.g a).val { blk with plumb := some i }) d 0 0 := by
  have hzero : (s.g b).val.extractLsb' 40 24 = 0 := BitVec.eq_of_toNat_eq (by rw [extract_toNat, hres]; rfl)
  have ht : ((s.g b).val.extractLsb' 0 8).toNat = (s.g b).val.toNat % 2 ^ 8 := by rw [extract_toNat, Nat.pow_zero, Nat.div_one]
  have hth : ((s.g b).val.extractLsb' 8 32).toNat = (s.g b).val.toNat / 2 ^ 8 % 2 ^ 32 := extract_toNat _ 8 32
  rw [exec_plcfg, execPlcfg, operands_ready hr, syncBlock_of hc hb]
  dsimp only
  rw [hzero, ht, hth, hp, hi, if_neg (by decide)]
  rfl

omit hres

theorem plread_reads : exec (.plread d a b) s = wrote s d (match s.plumbAt (s.g a).val blk with
    | some p => if 16 < (s.g b).val.toNat then 0 else plumbWord p (s.g b).val.toNat
    | none => 0) 0 := by
  rw [exec_plread, execPlread, operands_ready hr, syncBlock_of hc hb]
  exact rfl

end

/-- Settles O34: each instruction by its cases, the notices by their definitions. -/
theorem groupsAndPlumbs : Obligations.GroupsAndPlumbs := by
  unfold Obligations.GroupsAndPlumbs
  intro s d a b blk core record i c w key cfg t put
  refine ⟨fun htxn hr hc hb hg => ⟨fun hk => ?_, fun hk hn => ?_, fun hk hn => ?_, fun hk => gleave_stays htxn hr hc hb hg hk,
      fun hk => gleave_leaves htxn hr hc hb hg hk⟩,
    fun hr hc hb => ⟨fun h => plcfg_reserved hr hc hb h, fun hres ht hp => ?_, fun hres ht hp hi => ?_,
      fun p hres hi hp => ⟨fun ht => ?_, fun ht => ?_⟩, plread_reads hr hc hb⟩, rfl, rfl⟩
  · rw [gjoin_eq htxn hr hc hb hg, if_pos hk]
  · rw [gjoin_eq htxn hr hc hb hg, if_neg hk, if_neg (Nat.not_le.2 hn)]
  · rw [gjoin_eq htxn hr hc hb hg, if_neg hk, if_pos hn]
  · rw [plcfg_new hr hc hb hres hp, if_pos ht]
  · rw [plcfg_new hr hc hb hres hp, if_neg ht, hi]; rfl
  · rw [plcfg_held hr hc hb hres hi hp, if_pos ht]; rfl
  · rw [plcfg_held hr hc hb hres hi hp, if_neg ht]; rfl

end Sys2Proof.Machine
end

section
/-!
CERTIFICATE. Partition-wide registers, and who may run a privileged instruction (R352, R355, R360).
-/
namespace Sys2Proof.Machine

namespace Sparse
variable {α : Type}

/-- A key found in a sorted table is not below its bound. -/
theorem le_of_find {lo k : Nat} {x : α} {m : Sparse α} (hs : sortedFrom lo m = true) (hx : find m k = some x) : lo ≤ k := by
  induction m generalizing lo with
  | nil => cases hx
  | cons p t ih =>
    obtain ⟨j, z⟩ := p
    simp only [sortedFrom, Bool.and_eq_true, decide_eq_true_eq] at hs
    by_cases hj : j = k
    · omega
    · have := ih hs.2 (by rwa [find, if_neg hj] at hx); omega

theorem mem_of_find {k : Nat} {x : α} {m : Sparse α} (hx : find m k = some x) : (k, x) ∈ m := by
  induction m with
  | nil => cases hx
  | cons p t ih =>
    obtain ⟨j, z⟩ := p
    by_cases hj : j = k
    · subst hj
      obtain rfl : z = x := by simpa [find] using hx
      exact List.mem_cons_self
    · exact List.mem_cons_of_mem _ (ih (by rwa [find, if_neg hj] at hx))

/-- The key that a test selects first in a sorted table is the same after an entry that the test sees alike is written anew. -/
theorem find?_set_key {lo k : Nat} {x y : α} {m : Sparse α} {P : Nat × α → Bool} (hs : sortedFrom lo m = true)
    (hx : find m k = some x) (hy : P (k, y) = P (k, x)) : ((set m k y).find? P).map (·.1) = (m.find? P).map (·.1) := by
  induction m generalizing lo with
  | nil => cases hx
  | cons p t ih =>
    obtain ⟨j, z⟩ := p
    simp only [sortedFrom, Bool.and_eq_true, decide_eq_true_eq] at hs
    by_cases hj : j = k
    · subst hj
      obtain rfl : z = x := by simpa [find] using hx
      rw [set, if_neg (lt_irrefl _), if_pos rfl]
      cases hp : P (j, z) with
      | true => rw [List.find?_cons_of_pos (hy.trans hp), List.find?_cons_of_pos hp]; rfl
      | false =>
        have hp' : P (j, y) = false := hy.trans hp
        rw [List.find?_cons_of_neg (by rw [hp']; decide), List.find?_cons_of_neg (by rw [hp]; decide)]
    · have hx' : find t k = some x := by rwa [find, if_neg hj] at hx
      have hlt := le_of_find hs.2 hx'
      rw [set, if_neg (by omega), if_neg (Ne.symm hj)]
      cases hp : P (j, z) with
      | true => rw [List.find?_cons_of_pos hp, List.find?_cons_of_pos hp]
      | false =>
        rw [List.find?_cons_of_neg (by rw [hp]; decide), List.find?_cons_of_neg (by rw [hp]; decide)]
        exact ih hs.2 hx'

end Sparse

/-- A partition-wide register of a partition (R360). -/
def Partition.csr (p : Partition) : Nat → Word
  | 0x802 => p.rvkbase
  | 0x803 => p.auditctl
  | 0x813 => p.fltdest
  | 0x814 => p.strbase
  | _ => p.mcdest

theorem Partition.csr_putCsr (p : Partition) {n : Nat} (h : n ∈ [0x802, 0x803, 0x813, 0x814, 0x824]) (v : Word) :
    (p.putCsr n v).csr n = v := by
  simp only [List.mem_cons, List.not_mem_nil, or_false] at h
  rcases h with rfl | rfl | rfl | rfl | rfl <;> rfl

/-- What a written register leaves of its partition: the rectangle. -/
theorem Partition.putCsr_rectangle (p : Partition) (n : Nat) (v : Word) :
    ((p.putCsr n v).mod, (p.putCsr n v).sx0, (p.putCsr n v).sy0, (p.putCsr n v).w, (p.putCsr n v).h) = (p.mod, p.sx0, p.sy0, p.w, p.h) := by
  unfold putCsr; split <;> rfl

namespace State

theorem csrAt_old {s : State} {k n : Nat} {v : Word} (h : Sparse.find (s.core k).csrOld n = some v) : s.csrAt k n = v := by
  rw [csrAt, h]
theorem csrAt_new {s : State} {k n : Nat} (h : Sparse.find (s.core k).csrOld n = none) (hn : n ∈ [0x802, 0x803, 0x813, 0x814, 0x824]) :
    s.csrAt k n = (s.part (s.partAt k)).csr n := by
  rw [csrAt, h]
  simp only [List.mem_cons, List.not_mem_nil, or_false] at hn
  rcases hn with rfl | rfl | rfl | rfl | rfl <;> rfl

/-- `t` has the teams of `s`, its turn, and its cores but for the values they hold of registers written elsewhere. -/
structure OldOnly (s t : State) : Prop where
  teams : t.teams = s.teams
  cur : t.cur = s.cur
  core : ∀ k, ∃ csrOld, t.core k = { s.core k with csrOld }

namespace OldOnly
variable {s t u : State}
theorem refl (s : State) : OldOnly s s := ⟨rfl, rfl, fun _ => ⟨_, rfl⟩⟩
theorem trans (h : OldOnly s t) (g : OldOnly t u) : OldOnly s u where
  teams := g.teams.trans h.teams
  cur := g.cur.trans h.cur
  core := fun k => by
    obtain ⟨_, eh⟩ := h.core k; obtain ⟨_, eg⟩ := g.core k; rw [eg, eh]; exact ⟨_, rfl⟩
theorem teamAt (h : OldOnly s t) (k : Nat) : t.teamAt k = s.teamAt k := by
  obtain ⟨_, e⟩ := h.core k; rw [State.teamAt, State.teamAt, e, h.teams]
end OldOnly

theorem mapCore_oldOnly {s : State} {k : Nat} {f : Core → Core} (h : ∃ csrOld, f (s.core k) = { s.core k with csrOld }) :
    OldOnly s (s.mapCore k f) := by
  refine ⟨rfl, rfl, fun j => ?_⟩
  by_cases e : j = k
  · subst e; rw [core_mapCore]; exact h
  · rw [core_mapCore_other _ _ _ _ e]; exact ⟨_, rfl⟩

theorem mapPart_oldOnly (s : State) (n : Nat) (f : Partition → Partition) : OldOnly s (s.mapPart n f) := by
  unfold mapPart; split
  · exact ⟨rfl, rfl, fun _ => ⟨_, rfl⟩⟩
  · exact .refl s

/-- Each core is in the partition it was in, where what is written of one leaves its rectangle. -/
theorem partAt_of_parts {s t : State} {n k : Nat} {p : Partition} {f : Partition → Partition} (hs : Sparse.sortedFrom 0 s.parts = true)
    (hp : Sparse.find s.parts n = some p) (hf : ((f p).mod, (f p).sx0, (f p).sy0, (f p).w, (f p).h) = (p.mod, p.sx0, p.sy0, p.w, p.h))
    (ht : t.parts = Sparse.set s.parts n (f p)) (hteam : t.teamAt k = s.teamAt k) : t.partAt k = s.partAt k := by
  obtain ⟨h1, h2, h3, h4, h5⟩ : _ ∧ _ ∧ _ ∧ _ ∧ _ := by simpa only [Prod.mk.injEq] using hf
  unfold partAt; rw [hteam]
  split
  · rfl
  · extract_lets st
    have hkey := Sparse.find?_set_key (y := f p) (P := fun q => q.2.mod == st / 24 && q.2.sx0 ≤ st % 24 % 6 && st % 24 % 6 < q.2.sx0 + q.2.w
      && q.2.sy0 ≤ st % 24 / 6 && st % 24 / 6 < q.2.sy0 + q.2.h) hs hp (by simp only [h1, h2, h3, h4, h5])
    rw [← ht] at hkey
    have keyed (o : Option (Nat × Partition)) : (match o with
      | some (n, _) => n
      | none => 0) = (o.map (·.1)).getD 0 := by cases o <;> rfl
    exact ((keyed _).trans (congrArg (·.getD 0) hkey)).trans (keyed _).symm

/-! A write that spreads (R360). -/

/-- Cores that still hold the old value of a register. -/
def holding (n : Nat) (old : List (Nat × Word)) (s : State) : State :=
  old.foldl (fun (s : State) (k, w) => s.mapCore k fun c => { c with csrOld := Sparse.set c.csrOld n w }) s

theorem holding_oldOnly (n : Nat) (old : List (Nat × Word)) (s : State) :
    OldOnly s (s.holding n old) ∧ (s.holding n old).parts = s.parts := by
  induction old generalizing s with
  | nil => exact ⟨.refl s, rfl⟩
  | cons q l ih =>
    obtain ⟨h, hparts⟩ := ih (s.mapCore q.1 fun c => { c with csrOld := Sparse.set c.csrOld n q.2 })
    exact ⟨(mapCore_oldOnly ⟨_, rfl⟩).trans h, hparts⟩

theorem holding_other (n : Nat) {old : List (Nat × Word)} {k : Nat} (h : ∀ q ∈ old, q.1 ≠ k) (s : State) :
    (s.holding n old).core k = s.core k := by
  induction old generalizing s with
  | nil => rfl
  | cons q l ih =>
    obtain ⟨hq, hl⟩ := List.forall_mem_cons.1 h
    exact (ih hl _).trans (core_mapCore_other _ _ _ _ (Ne.symm hq))

theorem holding_same (n : Nat) {old : List (Nat × Word)} {k : Nat} {w : Word} (hk : (k, w) ∈ old) (h : ∀ q ∈ old, q.1 = k → q.2 = w)
    (s : State) : Sparse.find ((s.holding n old).core k).csrOld n = some w := by
  induction old generalizing s with
  | nil => cases hk
  | cons q l ih =>
    obtain ⟨hq, hl⟩ := List.forall_mem_cons.1 h
    by_cases hmem : ∃ w', (k, w') ∈ l
    · obtain ⟨w', hw'⟩ := hmem
      obtain rfl : w' = w := hl _ hw' rfl
      exact ih hw' hl _
    · obtain rfl : q = (k, w) := by
        rcases List.mem_cons.1 hk with e | e
        · exact e.symm
        · exact absurd ⟨w, e⟩ hmem
      have hrest : (holding n l (s.mapCore k fun c => { c with csrOld := Sparse.set c.csrOld n w })).core k = _ :=
        holding_other n (fun q hq e => hmem ⟨q.2, by rw [← e]; exact hq⟩) _
      show Sparse.find ((holding n l (s.mapCore k fun c => { c with csrOld := Sparse.set c.csrOld n w })).core k).csrOld n = some w
      rw [hrest, core_mapCore]; exact Sparse.find_set_same _ _ _

section
variable {s : State} {n : Nat} {p : Partition} (hp : Sparse.find s.parts (s.partAt s.cur) = some p) (v : Word)
include hp

/-- What a write of a partition-wide register leaves. -/
theorem spreadCsr_oldOnly : OldOnly s (s.spreadCsr n v)
    ∧ (s.spreadCsr n v).parts = Sparse.set s.parts (s.partAt s.cur) (p.putCsr n v) := by
  unfold spreadCsr; extract_lets pn s₁ others old s₂ s₃ s₄
  have h₁ : OldOnly s s₁ := ⟨rfl, rfl, fun _ => ⟨_, rfl⟩⟩
  have h₂ : OldOnly s₁ s₂ ∧ s₂.parts = Sparse.set s.parts (s.partAt s.cur) (p.putCsr n v) := by
    refine ⟨mapPart_oldOnly _ _ _, ?_⟩
    have hp' : Sparse.find s₁.parts pn = some p := hp
    unfold s₂ mapPart; rw [hp']
  have h₃ : OldOnly s₂ s₃ := mapCore_oldOnly ⟨_, rfl⟩
  obtain ⟨h₄, hparts⟩ : OldOnly s₃ s₄ ∧ s₄.parts = s₃.parts := holding_oldOnly n old s₃
  exact ⟨((h₁.trans h₂.1).trans h₃).trans ⟨h₄.teams, h₄.cur, h₄.core⟩, hparts.trans h₂.2⟩

theorem spreadCsr_partAt (hs : Sparse.sortedFrom 0 s.parts = true) (k : Nat) : (s.spreadCsr n v).partAt k = s.partAt k := by
  obtain ⟨hold, hparts⟩ := spreadCsr_oldOnly (n := n) hp v
  exact partAt_of_parts (f := fun p => p.putCsr n v) hs hp (p.putCsr_rectangle n v) hparts (hold.teamAt k)

theorem spreadCsr_part : (s.spreadCsr n v).part (s.partAt s.cur) = p.putCsr n v := by
  rw [part, (spreadCsr_oldOnly hp v).2, Sparse.get_set_same]

omit hp

/-- The writing core holds no old value. -/
theorem spreadCsr_cur (n : Nat) : Sparse.find ((s.spreadCsr n v).core s.cur).csrOld n = none := by
  unfold spreadCsr; extract_lets pn s₁ others old s₂ s₃ s₄
  have hcur : s₂.cur = s.cur := (mapPart_oldOnly s₁ _ _).cur
  have h₄ : s₄.core s.cur = s₃.core s.cur := by
    refine holding_other n (fun q hq => ?_) s₃
    obtain ⟨k, hk, rfl⟩ := List.mem_map.1 hq
    have := (List.mem_filter.1 hk).2
    simp only [Bool.and_eq_true, bne_iff_ne] at this
    exact this.1
  have h₃ : s₃.core s.cur = { s₂.core s.cur with csrOld := Sparse.erase (s₂.core s.cur).csrOld n } := by
    unfold s₃; rw [hcur, core_mapCore]
  show Sparse.find (s₄.core s.cur).csrOld n = none
  rw [h₄, h₃]; exact Sparse.find_erase_same _ _

/-- Another core of the partition holds the old value, and an update is on its way to it. -/
theorem spreadCsr_other {k : Nat} (n : Nat) (hk : k ≠ s.cur) (hc : (Sparse.find s.cores k).isSome = true) (hpart : s.partAt k = s.partAt s.cur) :
    Sparse.find ((s.spreadCsr n v).core k).csrOld n = some (s.csrAt k n) ∧ Event.csrSpread k n v ∈ (s.spreadCsr n v).agenda := by
  unfold spreadCsr; extract_lets pn s₁ others old s₂ s₃ s₄
  have hmem : k ∈ others := by
    refine List.mem_filter.2 ⟨?_, ?_⟩
    · obtain ⟨c, hc⟩ := Option.isSome_iff_exists.1 hc
      exact List.mem_map.2 ⟨(k, c), Sparse.mem_of_find hc, rfl⟩
    · exact Bool.and_eq_true_iff.2 ⟨bne_iff_ne.2 hk, beq_iff_eq.2 hpart⟩
  refine ⟨?_, List.mem_append_right _ (List.mem_map_of_mem hmem)⟩
  refine holding_same n (List.mem_map.2 ⟨k, hmem, rfl⟩) (fun q hq e => ?_) s₃
  obtain ⟨j, -, rfl⟩ := List.mem_map.1 hq
  obtain rfl : j = k := e
  rfl

end

end State

/-! Who may run a privileged instruction (R352, R355). -/

theorem priv_refuses {s : State} {sup : Bool} (rs : List (BitVec 6))
    (h : (sup = true ∧ s.supAt s.cur = false) ∨ s.task.txn.isSome = true ∨ s.task.frame.isSome = true)
    (ok : State → Host.Outcome State Fault Refusal) : priv sup rs s ok = trapped s cILLEGAL 0 := by
  refine if_pos ?_
  simp only [Bool.or_eq_true, Bool.and_eq_true, Bool.not_eq_true', or_assoc]
  exact h

/-- Settles O36: the write stands in the partition, beside it each other core's old value until its update arrives; a privileged
function checks level, transaction and repeat body first. -/
theorem privilegedRegisters : Obligations.PrivilegedRegisters := by
  unfold Obligations.PrivilegedRegisters
  refine ⟨fun s csr k v hcsr hp hs => ?_, fun s d a b => ?_⟩
  · obtain ⟨p, hp⟩ := Option.isSome_iff_exists.1 hp
    intro u
    have hpart (j : Nat) : u.partAt j = s.partAt j := State.spreadCsr_partAt hp v hs j
    have hnew : (u.part (s.partAt s.cur)).csr csr = v := by
      rw [State.spreadCsr_part hp v]; exact p.csr_putCsr hcsr v
    have hcur : Sparse.find (u.core s.cur).csrOld csr = none := State.spreadCsr_cur v csr
    refine ⟨by rw [State.csrAt_new hcur hcsr, hpart, hnew], fun hk hc hkp => ?_⟩
    obtain ⟨hold, hevent⟩ : Sparse.find (u.core k).csrOld csr = some (s.csrAt k csr) ∧ Event.csrSpread k csr v ∈ u.agenda :=
      State.spreadCsr_other v csr hk hc hkp
    refine ⟨State.csrAt_old hold, hevent, _, rfl, ?_⟩
    have hnow : (u.setCore k { u.core k with csrOld := Sparse.erase (u.core k).csrOld csr }).csrAt k csr = v := by
      have hold' : State.OldOnly u (u.setCore k { u.core k with csrOld := Sparse.erase (u.core k).csrOld csr }) :=
        State.mapCore_oldOnly (f := fun c => { c with csrOld := Sparse.erase c.csrOld csr }) ⟨_, rfl⟩
      have hsame : (u.setCore k { u.core k with csrOld := Sparse.erase (u.core k).csrOld csr }).partAt k = u.partAt k := by
        simp only [State.partAt, hold'.teamAt]; rfl
      rw [State.csrAt_new (by rw [State.core_setCore]; exact Sparse.find_erase_same _ _) hcsr, hsame, hpart, hkp]
      exact hnew
    exact (congrArg (fun t : State => t.csrAt k csr) (if_pos hnow)).trans hnow
  · refine ⟨fun h => ?_, fun h => priv_refuses _ (.inr h) _, fun h => ?_⟩
    · have hno : (true = true ∧ s.supAt s.cur = false) ∨ s.task.txn.isSome = true ∨ s.task.frame.isSome = true :=
        h.imp_left fun h => ⟨rfl, h⟩
      refine ⟨priv_refuses _ hno _, priv_refuses _ hno _, priv_refuses _ hno _, priv_refuses _ hno _, priv_refuses _ hno _, ?_⟩
      show exec (.errinj d a b) s = trapped s cILLEGAL 0
      rw [exec_errinj, execErrinj]
      split
      · rfl
      · exact priv_refuses _ hno _
    · show exec (.errinj d a b) s = trapped s cILLEGAL 0
      rw [exec_errinj, execErrinj, if_pos (by rw [h]; rfl)]; rfl

end Sys2Proof.Machine
end

section
/-!
CERTIFICATE. Privileged functions, TRAP, BKPT and IDLE (R113, R162, R355 to R359, R391, R392, R402, R412).
-/
namespace Sys2Proof.Machine

/-- A privileged function at its level, outside a transaction and a repeat body, goes on with its operands. -/
theorem priv_passes {s : State} {sup : Bool} {rs : List (BitVec 6)} (hsup : sup = true → s.supAt s.cur = true)
    (htxn : s.task.txn = none) (hframe : s.task.frame = none) (hr : Ready s rs)
    (ok : State → Host.Outcome State Fault Refusal) : priv sup rs s ok = ok s := by
  have hlevel : (sup && !s.supAt s.cur) = false := by
    cases sup with
    | false => rfl
    | true => rw [hsup rfl]; rfl
  rw [priv, hlevel, htxn, hframe, if_neg (by decide), operands_ready hr]

/-- The status that a privileged function reports. -/
def reports (d : BitVec 6) (u : State) (n : Nat) : Host.Outcome State Fault Refusal := wrote u d (BitVec.ofNat 64 n) 0

section
variable {s : State} {d a b : BitVec 6} (htxn : s.task.txn = none) (hframe : s.task.frame = none) (hr : Ready s [a, b])
include htxn hframe

section
variable (hsup : s.supAt s.cur = true)
include hsup

/-! SEALROOT (R356). -/

include hr in
theorem sealroot_completes :
    let lo := (s.g a).val.toNat
    let n := (s.g b).val.toNat
    let p := s.part (s.partAt s.cur)
    exec (.sealroot d a b) s = wroteReg s d
      { val := BitVec.ofNat 64 lo, desc := mkDesc (permSet [pSEAL, pUNSEAL, pGLOBAL]) 0 0 lo (lo + n)
        tag := decide (1 ≤ n ∧ lo + n ≤ 0x1000 ∧ ((lo = 1 ∧ n = 1) ∨ (p.sealLo ≤ lo ∧ lo + n - 1 ≤ p.sealHi))) } := by
  intro lo n p
  have hok : decide (1 ≤ n ∧ lo + n ≤ 0x1000 ∧ ((lo = 1 ∧ n = 1) ∨ (p.sealLo ≤ lo ∧ lo + n - 1 ≤ p.sealHi)))
      = (decide (1 ≤ n) && decide (lo + n ≤ 0x1000) && ((lo == 1 && n == 1) || (decide (p.sealLo ≤ lo) && decide (lo + n - 1 ≤ p.sealHi)))) := by
    simp only [Bool.decide_and, Bool.decide_or, Bool.and_assoc, beq_eq_decide]
  rw [hok, exec_sealroot, execSealroot, priv_passes (fun _ => hsup) htxn hframe hr]
  rfl

/-! TLBINV (R392). -/

/-- The completion message of a shootdown. -/
def shootMsg (s : State) (k : Nat) (team : Option (Nat × Nat)) : Message :=
  s.posed { noMsg with
    src := s.cur, dst := k, handler := dHandler (s.g 56).val, cls := dClass (s.g 56).val, a2 := (s.g 57).val
    a3 := (s.g 58).val, a4 := (s.g 59).val, team }

include hr in
theorem tlbinv_completes {k : Nat} {team : Option (Nat × Nat)} (hargs : Ready s [56, 57, 58, 59, 60]) (hsack : s.task.sack = 0)
    (hres : s.resolve s.cur (s.g 60) (s.g 56).val = .core k team) :
    tlbinv d a b s = if s.tlbinvStatus (s.g a).val (s.g b).val ≠ 0 then reports d s (s.tlbinvStatus (s.g a).val (s.g b).val)
      else reports d ((s.mapSite (siteOf s.cur) fun t =>
        { t with shoots := t.shoots ++ [{ id := (s.site (siteOf s.cur)).shootId, op := (s.g b).val.toNat % 4, arg := (s.g a).val.toNat
                                          status := 0, comp := shootMsg s k team }]
                 shootId := (s.site (siteOf s.cur)).shootId + 1 }).push
          (.tlbinvCompletion (s.partAt s.cur) (siteOf s.cur * 2 ^ 32 + (s.site (siteOf s.cur)).shootId))) 0 := by
  have hregs : Ready s ([a, b, 56, 57, 58, 59] ++ absRegs (s.g 56).val) := by
    intro r h
    rcases List.mem_append.1 h with h | h
    · rcases List.mem_append.1 (show r ∈ [a, b] ++ [56, 57, 58, 59] from h) with h | h
      · exact hr r h
      · exact hargs r (List.mem_append_left [60] h)
    · unfold absRegs at h; split at h
      · exact hargs r (List.mem_append_right [56, 57, 58, 59] h)
      · cases h
  have hop : ((s.g b).val.extractLsb' 0 2).toNat = (s.g b).val.toNat % 4 := by rw [extract_toNat, Nat.pow_zero, Nat.div_one]; rfl
  rw [tlbinv, priv_passes (fun _ => hsup) htxn hframe hregs, hsack, if_neg (by decide), resolved, hres]
  dsimp only
  rw [hop]
  cases s.tlbinvStatus (s.g a).val (s.g b).val <;> rfl

/-! BANKCFG (R110, R111, R357). -/

include hr in
theorem bankcfg_completes :
    let bk := bankNo (siteOf s.cur) ((s.g a).val.toNat / 2 ^ 4 % 2 ^ 6) ((s.g a).val.toNat % 2 ^ 4)
    exec (.bankcfg d a b) s = if s.bankStatus (s.g a).val (s.g b).val ≠ 0 then reports d s (s.bankStatus (s.g a).val (s.g b).val)
      else reports d (if (s.bank bk).mode = wordMode (s.g b).val then s else s.mapBank bk fun c => { c with next := some (s.g b).val }) 0 := by
  intro bk
  have hbk : bankNo (siteOf s.cur) ((s.g a).val.extractLsb' 4 6).toNat ((s.g a).val.extractLsb' 0 4).toNat = bk := by
    rw [extract_toNat, extract_toNat, Nat.pow_zero, Nat.div_one]
  have hmode (u : State) : (if (s.bank bk).mode == wordMode (s.g b).val then s else u)
      = if (s.bank bk).mode = wordMode (s.g b).val then s else u := if_congr beq_iff_eq rfl rfl
  rw [exec_bankcfg, execBankcfg, priv_passes (fun _ => hsup) htxn hframe hr]
  dsimp only
  rw [hbk, hmode]
  cases s.bankStatus (s.g a).val (s.g b).val <;> rfl

/-! TEAMCTL (R358). -/

include hr in
theorem teamctl_badop (h : 4 ≤ (s.g b).val.toNat) : teamctl d a b s = reports d s 3 := by
  have hne : (s.g b).val.extractLsb' 2 62 != 0 := by
    rw [bne_iff_ne, ne_eq, ← BitVec.toNat_inj, extract_toNat, Nat.mod_eq_of_lt (by have := (s.g b).val.isLt; omega)]
    have : (0 : BitVec 62).toNat = 0 := rfl
    omega
  rw [teamctl, priv_passes (fun _ => hsup) htxn hframe hr]
  exact if_pos hne

/-- What TEAMCTL's operation does with the team that it names. -/
def teamOp (s : State) (d : BitVec 6) (uid : Nat) (t : Team) : Nat → Host.Outcome State Fault Refusal
  | 0 => if t.frozen then reports d s 2 else reports d (s.freezeTeam uid) 0
  | 1 => if t.frozen then reports d (s.thawTeam uid) 0 else reports d s 2
  | 2 => reports d (s.preemptTeam uid) 0
  | _ => .next ((s.writeG d.toNat {}).advance.killTeam uid)

include hr in
theorem teamctl_completes (h : (s.g b).val.toNat < 4) : teamctl d a b s =
    (s.teamNamed (s.g a).val).elim (reports d s 1) fun q => teamOp s d q.1 q.2 (s.g b).val.toNat := by
  have hzero : (s.g b).val.extractLsb' 2 62 = 0 := BitVec.eq_of_toNat_eq (by
    rw [extract_toNat, Nat.div_eq_of_lt (by omega)]; rfl)
  have hop : ((s.g b).val.extractLsb' 0 2).toNat = (s.g b).val.toNat := by
    rw [extract_toNat, Nat.pow_zero, Nat.div_one]; exact Nat.mod_eq_of_lt h
  rw [teamctl, priv_passes (fun _ => hsup) htxn hframe hr]
  dsimp only
  rw [hzero, hop, if_neg (by decide)]
  generalize (s.g b).val.toNat = n at h
  cases s.teamNamed (s.g a).val with
  | none => rfl
  | some q =>
    obtain ⟨uid, t⟩ := q
    match n with
    | 0 | 1 | 2 | 3 => rfl
    | n + 4 => omega

/-! ERRINJ (R359). -/

/-- What ERRINJ alters, by its kind of target, and its status. -/
def injected (s : State) (x y : Word) : Nat → State × Nat
  | 0 => s.injectTile x y
  | 1 => s.injectData (.cluster s.cur ·) x y
  | 2 => s.injectData .l2 x y
  | 3 => s.injectData .line x y
  | 4 => s.injectLink x y
  | _ => (s, 2)

include hr in
theorem errinj_completes (h : (s.part (s.partAt s.cur)).injen = true) :
    let r := injected s (s.g a).val (s.g b).val ((s.g a).val.toNat / 2 ^ 60)
    exec (.errinj d a b) s = reports d r.1 r.2 := by
  have hkind : ((s.g a).val.extractLsb' 60 4).toNat = (s.g a).val.toNat / 2 ^ 60 := by
    rw [extract_toNat]; exact Nat.mod_eq_of_lt (by have := (s.g a).val.isLt; omega)
  rw [exec_errinj, execErrinj, if_neg (by rw [h]; decide), priv_passes (fun _ => hsup) htxn hframe hr]
  dsimp only
  rw [hkind]
  rfl

end

/-! REGREL (R391). -/

section
variable (hr1 : Ready s [a])
include hr1

theorem regrel_waits (hcap : capFault (s.supAt s.cur) (s.g a) (s.g a).val 65536 [pST] 1 = none) (halign : (s.g a).val.toNat % 65536 = 0)
    (hsack : s.task.sack = 0) (hx : s.xlate s.cur (s.g a).val.toNat .read = .touch ∨ ∃ pa pl, s.xlate s.cur (s.g a).val.toNat .read = .ok pa pl) :
    exec (.regrel d a) s = .next ((s.mapTask fun t => { t with wait := some (.regrel d.toNat) }).push
      (.regrelComplete s.cur s.ctx ((s.g a).val.toNat / 65536))) := by
  have hbase : BitVec.ofNat 64 ((s.g a).val.toNat / 65536 * 65536) = (s.g a).val := by
    rw [Nat.div_mul_cancel (Nat.dvd_of_mod_eq_zero halign)]; rw [BitVec.ofNat_toNat, BitVec.setWidth_eq]
  rw [exec_regrel, execRegrel, priv_passes (fun h => absurd h (by decide)) htxn hframe hr1, checked]
  dsimp only
  rw [hbase, hcap]
  dsimp only
  rw [if_neg (not_not.2 halign), hsack, if_neg (by decide)]
  rcases hx with hx | ⟨pa, pl, hx⟩
  · rw [hx]
  · rw [located, hx]

theorem regrel_traps {c : Nat}
    (hcap : capFault (s.supAt s.cur) (s.g a) (BitVec.ofNat 64 ((s.g a).val.toNat / 65536 * 65536)) 65536 [pST] 1 = some c) :
    exec (.regrel d a) s = trapped s c (BitVec.ofNat 64 ((s.g a).val.toNat / 65536 * 65536)) := by
  rw [exec_regrel, execRegrel, priv_passes (fun h => absurd h (by decide)) htxn hframe hr1, checked]
  dsimp only
  rw [hcap]; rfl

theorem regrel_unaligned
    (hcap : capFault (s.supAt s.cur) (s.g a) (BitVec.ofNat 64 ((s.g a).val.toNat / 65536 * 65536)) 65536 [pST] 1 = none)
    (halign : (s.g a).val.toNat % 65536 ≠ 0) : exec (.regrel d a) s = trapped s cALIGN (s.g a).val := by
  rw [exec_regrel, execRegrel, priv_passes (fun h => absurd h (by decide)) htxn hframe hr1, checked]
  dsimp only
  rw [hcap]
  exact if_pos halign

end
end

/-! BKPT (R402, R412). -/

theorem bkpt_detached {s : State} (h : (s.part (s.partAt s.cur)).attached = false) : exec .bkpt s = retired s :=
  if_pos (by rw [h]; rfl)

/-- With a debugger the context halts and its grid is frozen, a transaction aborted first. -/
theorem bkpt_halts {s : State} (h : (s.part (s.partAt s.cur)).attached = true) :
    exec .bkpt s = .next (((if s.task.txn.isSome then s.abortTxn s.cur s.ctx 10 0 false else s).mapTask fun t =>
      { t with halted := true, atBkpt := !s.task.txn.isSome }).freezeGrid s.cur) := by
  have hcur : (if s.task.txn.isSome then s.abortTxn s.cur s.ctx 10 0 false else s).cur = s.cur := by
    split
    · exact (s.abortTxn_turn _ _ _ _ _).1
    · rfl
  rw [exec_bkpt, execBkpt, if_neg (by rw [h]; decide)]
  dsimp only
  rw [hcur]

/-- Settles O37: each function by its equation once its level and operands are passed. -/
theorem privilegedFunctions : Obligations.PrivilegedFunctions := by
  unfold Obligations.PrivilegedFunctions
  refine ⟨fun s d a b htxn hframe hr => ?_, fun s k => ?_⟩
  · intro x y lo n p st status allowed desc bk tlbinvs controls
    have hr1 : Ready s [a] := fun r h => hr r (by rw [List.mem_singleton.1 h]; exact List.mem_cons_self)
    have htlb (hsup : s.supAt s.cur = true) {ins : Instr} (h : exec ins s = tlbinv d a b s) : tlbinvs ins :=
      fun k team hargs hsack hres => h.trans (tlbinv_completes htxn hframe hr hsup hargs hsack hres)
    have hctl (hsup : s.supAt s.cur = true) {ins : Instr} {f : Nat → Team → Host.Outcome State Fault Refusal} {op : Nat} (hop : op < 4)
        (h : exec ins s = teamctl d a b s) (hf : ∀ uid t, f uid t = teamOp s d uid t op) : controls ins f op := by
      intro hn
      have hn' : (s.g b).val.toNat = op := hn
      rw [h, teamctl_completes htxn hframe hr hsup (by rw [hn']; exact hop), hn']
      cases s.teamNamed x with
      | none => rfl
      | some q => exact (hf _ _).symm
    clear_value tlbinvs controls
    exact ⟨fun hsup => ⟨sealroot_completes htxn hframe hr hsup, htlb hsup rfl, htlb hsup rfl, htlb hsup rfl, htlb hsup rfl,
        bankcfg_completes htxn hframe hr hsup, hctl hsup (by decide) rfl fun _ _ => rfl, hctl hsup (by decide) rfl fun _ _ => rfl,
        hctl hsup (by decide) rfl fun _ _ => rfl, hctl hsup (by decide) rfl fun _ _ => rfl,
        fun h => teamctl_badop htxn hframe hr hsup h, errinj_completes htxn hframe hr hsup⟩,
      fun hcap halign hsack hx => regrel_waits htxn hframe hr1 hcap halign hsack hx, fun c hcap => regrel_traps htxn hframe hr1 hcap,
      fun hcap halign => regrel_unaligned htxn hframe hr1 hcap halign⟩
  · refine ⟨rfl, bkpt_detached, fun h htxn => ?_, fun h htxn => ?_, rfl⟩
    · rw [bkpt_halts h, htxn]; rfl
    · rw [bkpt_halts h, htxn]; rfl

end Sys2Proof.Machine
end

section
/-!
CERTIFICATE. Messages, PUTs, reads elsewhere, receiving, and hod requests as they issue (R36, R37, R150, R245 to R250, R253 to R257,
R406).
-/
namespace Sys2Proof.Machine

namespace State.LinesOnly
variable {s t : State} (h : s.LinesOnly t)
include h

theorem g_eq (r : BitVec 6) : t.g r = s.g r := by simp only [State.g, h.task]
theorem busyG_eq (r : BitVec 6) : t.busyG r = s.busyG r := by simp only [State.busyG, h.task]
theorem ready {rs : List (BitVec 6)} (hr : Ready s rs) : Ready t rs := fun r hmem => by rw [h.busyG_eq, h.g_eq]; exact hr r hmem
theorem room (hroom : Room s) : Room t := by rw [Room, h.task]; exact hroom
theorem supAt_cur : t.supAt t.cur = s.supAt s.cur := by rw [h.cur, h.sameTeams.supAt]
theorem partAt_cur : t.partAt t.cur = s.partAt s.cur := by rw [h.cur, h.sameTeams.partAt]
theorem stalled_eq : t.stalled = s.stalled := by obtain ⟨_, _, _, e⟩ := h.rest; rw [e]

end State.LinesOnly

/-! Messages (R245). -/

/-- The message that SEND makes of its window and descriptor. -/
def sentMsg (s : State) (d : BitVec 6) (k : Nat) (team : Option (Nat × Nat)) (payload : List Byte) (ordered rel : Bool) : Message :=
  { noMsg with
    src := s.cur, dst := k, handler := dHandler (s.g d).val, cls := dClass (s.g d).val
    a1 := (s.g 56).val, a2 := (s.g 57).val, a3 := (s.g 58).val, a4 := (s.g 59).val
    cap := if (s.g 60).tag then ⟨(s.g 60).val, (s.g 60).desc, true⟩ else ⟨0, 0, false⟩, payload, team, ordered, release := rel }

section
variable {s : State} {n d p : BitVec 6} {k : Nat} {team : Option (Nat × Nat)} {ordered rel : Bool}

/-- A SEND that its checks let by holds its message (R36, R245). -/
theorem sendMsg_holds {as : List Nat} {payload : List Byte} {t : State} (htxn : s.task.txn = none)
    (hr : Ready s [d, p, n, 56, 57, 58, 59, 60]) (hlen : (s.g n).val.toNat ≤ 256) (hp : p = 0 → (s.g n).val.toNat = 0)
    (hk : s.resolve s.cur (s.g 60) (s.g d).val = .core k team)
    (hcap : (s.g 60).tag = true → hasPerm (s.g 60).desc pGLOBAL = true ∨ s.ownTeam k team = true)
    (hload : (s.g n).val.toNat ≠ 0 → capFault (s.supAt s.cur) (s.g p) (s.g p).val (s.g n).val.toNat [pLD] 1 = none)
    (hread : plainRead s (s.g p).val (s.g n).val.toNat false = some (as, payload, t)) :
    sendMsg ordered rel n d p s = State.hold t (.msg (t.posed (sentMsg s d k team payload ordered rel))) retire := by
  have hbad : (decide (256 < (s.g n).val.toNat) || (p == 0 && (s.g n).val.toNat != 0)) = false := by
    simp only [Bool.or_eq_false_iff, Bool.and_eq_false_iff, decide_eq_false_iff_not, beq_eq_false_iff_ne, bne_eq_false_iff_eq]
    exact ⟨Nat.not_lt.2 hlen, (em (p = 0)).elim (fun h => .inr (hp h)) .inl⟩
  have hlocal : ((s.g 60).tag && !hasPerm (s.g 60).desc pGLOBAL && !s.ownTeam k team) = false := by
    cases htag : (s.g 60).tag with
    | false => rfl
    | true =>
      rcases hcap htag with h | h
      · rw [h]; rfl
      · rw [h, Bool.not_true, Bool.and_false]
  have hpass (go : State → Host.Outcome State Fault Refusal) :
      (if (s.g n).val.toNat = 0 then go s else checked (s.g p) (s.g p).val (s.g n).val.toNat [pLD] 1 s go) = go s := by
    split
    · rfl
    next h => exact checked_passes (hload h) go
  obtain ⟨hok, hlines⟩ := readNow_plain (trk := true) htxn hread
  have hsent : ({ noMsg with
      src := t.cur, dst := k, handler := dHandler (s.g d).val, cls := dClass (s.g d).val
      a1 := (t.g 56).val, a2 := (t.g 57).val, a3 := (t.g 58).val, a4 := (t.g 59).val
      cap := if (s.g 60).tag then (s.g 60).toCap else ⟨0, 0, false⟩, payload, team, ordered, release := rel } : Message)
      = sentMsg s d k team payload ordered rel := by
    have hcapval : (if (s.g 60).tag then (s.g 60).toCap else ⟨0, 0, false⟩)
        = if (s.g 60).tag then (⟨(s.g 60).val, (s.g 60).desc, true⟩ : CapVal) else ⟨0, 0, false⟩ := by
      split
      next h => rw [Reg.toCap, h]
      · rfl
    rw [hcapval, hlines.g_eq, hlines.g_eq, hlines.g_eq, hlines.g_eq, hlines.cur]; rfl
  unfold sendMsg
  rw [show [d, p, n] ++ windowRegs = [d, p, n, 56, 57, 58, 59, 60] from rfl]
  dsimp only
  rw [anyBusy_ready hr, if_neg (by decide), hbad, if_neg (by decide), resolved, hk]
  dsimp only
  rw [hlocal, if_neg Bool.false_ne_true]
  refine (hpass _).trans ?_
  rw [taintOf_ready hr, if_neg (by decide), hok, hlines.g_eq d]
  exact congrArg (fun m => State.hold t (.msg (t.posed m)) retire) hsent

/-- The registers of a SEND hold a length that it does not send (R245). -/
theorem send_fails (hbusy : s.anyBusy [d, p, n, 56, 57, 58, 59, 60] = false)
    (hbad : 256 < (s.g n).val.toNat ∨ (p = 0 ∧ (s.g n).val.toNat ≠ 0)) : exec (.send n d p) s = trapped s cSENDFAIL 0 := by
  have h : (decide (256 < (s.g n).val.toNat) || (p == 0 && (s.g n).val.toNat != 0)) = true := by
    simpa only [Bool.or_eq_true, Bool.and_eq_true, decide_eq_true_eq, beq_iff_eq, bne_iff_ne] using hbad
  rw [exec_send, execSend, sendMsg, show [d, p, n] ++ windowRegs = [d, p, n, 56, 57, 58, 59, 60] from rfl]
  dsimp only
  rw [hbusy, if_neg (by decide)]
  exact if_pos h

/-- A SEND without payload reads nothing, in a transaction too. -/
theorem send_empty (hr : Ready s [d, 0, n, 56, 57, 58, 59, 60]) (hn : (s.g n).val = 0)
    (hk : s.resolve s.cur (s.g 60) (s.g d).val = .core k team) (htag : (s.g 60).tag = false) :
    exec (.send n d 0) s = State.hold s (.msg (s.posed (sentMsg s d k team [] false false))) retire := by
  have hlen : (s.g n).val.toNat = 0 := by rw [hn]; rfl
  have hread (ok : List Nat → List Byte → State → Host.Outcome State Fault Refusal) :
      readNow (s.g 0).val 0 false true s ok = ok [] [] s := rfl
  rw [exec_send, execSend, sendMsg, show [d, 0, n] ++ windowRegs = [d, 0, n, 56, 57, 58, 59, 60] from rfl]
  dsimp only
  rw [anyBusy_ready hr, if_neg (by decide), hlen, if_neg (by decide), resolved, hk]
  dsimp only
  rw [htag, Bool.false_and, Bool.false_and, if_neg Bool.false_ne_true, if_pos rfl, taintOf_ready hr, if_neg (by decide), hread, sentMsg, htag]
  rfl

end

/-- A held effect that finds the buffer full of held ones commits them and waits; in a transaction it aborts (R36, R37, R150). -/
theorem State.hold_full {s : State} (h : heldCount s.task = 32) (e : Effect) (done : State → Host.Outcome State Fault Refusal) :
    (s.task.txn = none → s.hold e done = Machine.stalled (s.release s.cur s.ctx))
      ∧ (s.task.txn.isSome = true → s.hold e done = .next (s.abortTxn s.cur s.ctx 2 0 false)) := by
  unfold hold
  rw [if_pos h]
  refine ⟨fun htxn => by rw [htxn]; rfl, fun htxn => ?_⟩
  obtain ⟨tx, htx⟩ := Option.isSome_iff_exists.1 htxn
  rw [htx]

/-! PUT (R246). -/

/-- A range that no HOST page or FIFO bank holds (R246, R253). -/
theorem noHostFifo_passes {s : State} {va : Word} {n : Nat}
    (h : s.hostOrFifo (s.partAt s.cur) (s.supAt s.cur) (n / 4096 + 2) va.toNat n = false) (ok : State → Host.Outcome State Fault Refusal) :
    noHostFifo va n s ok = ok s := if_neg (by rw [h]; decide)

theorem put_holds {s : State} {d r n : BitVec 6} (hroom : Room s) (hr : Ready s [d, r, n, 60]) (hlen : (s.g n).val.toNat ≤ 65536)
    (hc : capFault (s.supAt s.cur) (s.g 60) (s.g 60).val 8 [pLD, pST] 8 = none)
    (hco : s.hostOrFifo (s.partAt s.cur) (s.supAt s.cur) (8 / 4096 + 2) (s.g 60).val.toNat 8 = false)
    (hrange : (s.g n).val.toNat ≠ 0 → capFault (s.supAt s.cur) (s.g d) (s.g d).val (s.g n).val.toNat [pST] 1 = none
      ∧ capFault (s.supAt s.cur) (s.g r) (s.g r).val (s.g n).val.toNat [pLD] 1 = none
      ∧ s.hostOrFifo (s.partAt s.cur) (s.supAt s.cur) ((s.g n).val.toNat / 4096 + 2) (s.g d).val.toNat (s.g n).val.toNat = false
      ∧ s.hostOrFifo (s.partAt s.cur) (s.supAt s.cur) ((s.g n).val.toNat / 4096 + 2) (s.g r).val.toNat (s.g n).val.toNat = false) :
    exec (.put d r n) s = held s (.put ⟨(s.g d).val.toNat, (s.g r).val.toNat, (s.g n).val.toNat, (s.g 60).val.toNat⟩) := by
  unfold held
  rw [exec_put, execPut]
  dsimp only
  rw [anyBusy_ready hr, if_neg (by decide), if_neg (Nat.not_lt.2 hlen)]
  have hfinish : (checked (s.g 60) (s.g 60).val 8 [pLD, pST] 8 s fun s => noHostFifo (s.g 60).val 8 s fun s =>
      if s.taintOf [d, r, n, 60] != 0 then stall s
      else State.hold s (.put ⟨(s.g d).val.toNat, (s.g r).val.toNat, (s.g n).val.toNat, (s.g 60).val.toNat⟩) retire)
      = .next (s.mapTask fun t => { t with send := t.send ++
        [{ eff := .put ⟨(s.g d).val.toNat, (s.g r).val.toNat, (s.g n).val.toNat, (s.g 60).val.toNat⟩ }] }).advance := by
    rw [checked_passes hc, noHostFifo_passes hco, taintOf_ready hr, if_neg (by decide), State.hold_of_room hroom]; rfl
  split
  · exact hfinish
  next h =>
    obtain ⟨h1, h2, h3, h4⟩ := hrange h
    rw [checked_passes h1, checked_passes h2, noHostFifo_passes h3, noHostFifo_passes h4]
    exact hfinish

/-- Settles O25: a message or PUT that is let by is held, where the buffer has room for it. -/
theorem sendsAndPuts : Obligations.SendsAndPuts := by
  unfold Obligations.SendsAndPuts
  refine ⟨fun s n d p k team as payload t htxn hroom => ?_, fun s n d hfull hr hn k team hk htag => ?_⟩
  · intro len c sends
    have hsends {ins : Instr} {ordered rel : Bool} (h : exec ins s = sendMsg ordered rel n d p s) : sends ins ordered rel := by
      intro hr hlen hp hk hcap hload hread
      have hlines := (readNow_plain (trk := true) htxn hread).2
      rw [h, sendMsg_holds htxn hr hlen hp hk hcap hload hread, State.hold_of_room (hlines.room hroom)]
      rfl
    clear_value sends
    exact ⟨hsends rfl, hsends rfl, hsends rfl, fun hr hlen hc hco hrange => put_holds hroom hr hlen hc hco hrange, send_fails⟩
  · rw [send_empty hr hn hk htag]
    exact State.hold_full hfull _ _

end Sys2Proof.Machine
end

section
/-!
CERTIFICATE. Reads elsewhere and receiving (R247 to R250, R406).
-/
namespace Sys2Proof.Machine

/-! An issued operation parks no context and notes no poison. -/

namespace State

/-- The running context waits for no more in `t` than in `s`. -/
structure SameWaits (s t : State) : Prop where
  cur : t.cur = s.cur
  ctx : t.ctx = s.ctx
  stalled : t.stalled = s.stalled
  park : t.task.park = s.task.park
  late : t.task.late = s.task.late

namespace SameWaits
variable {s t u : State}

theorem refl (s : State) : SameWaits s s := ⟨rfl, rfl, rfl, rfl, rfl⟩
theorem trans (h : SameWaits s t) (g : SameWaits t u) : SameWaits s u :=
  ⟨g.cur.trans h.cur, g.ctx.trans h.ctx, g.stalled.trans h.stalled, g.park.trans h.park, g.late.trans h.late⟩

theorem mapTask {f : Ctx → Ctx} (hp : (f s.task).park = s.task.park) (hl : (f s.task).late = s.task.late) :
    SameWaits s (s.mapTask f) := ⟨rfl, rfl, rfl, by rw [task_mapTask, hp], by rw [task_mapTask, hl]⟩

theorem runs (h : Runs s t) (hs : t.stalled = s.stalled) : SameWaits s t := by
  have hstill : t.task.still = s.task.still := by rw [task, task, h.cur, h.ctx]; exact (h.ctxAt s.cur s.ctx).still
  exact ⟨h.cur, h.ctx, hs, (congrArg Ctx.park hstill : t.task.still.park = s.task.still.park),
    (congrArg Ctx.late hstill : t.task.still.late = s.task.still.late)⟩

end SameWaits

theorem countOp_sameWaits (s : State) (m : Nat) : SameWaits s (s.countOp m) := by
  unfold countOp
  refine .mapTask ?_ ?_
  · split <;> rfl
  · split <;> rfl

theorem addOp_sameWaits (s : State) (p : PendOp) : SameWaits s (s.addOp p) := by
  unfold addOp; exact .mapTask rfl rfl

theorem storeCopies_sameWaits (s : State) (k : Nat) (ws : List (Nat × Byte)) (tags : List (Nat × Bool)) :
    SameWaits s (s.storeCopies k ws tags) := by
  unfold storeCopies; extract_lets site cl mine s₁
  have h₁ : SameWaits s s₁ := .runs (mapCore_quiet rfl).runs rfl
  split
  · exact h₁
  · exact h₁.trans (.runs (setClusterLines_quiet _ _ _ _).runs (setClusterLines_proceeds _ _ _ _).stalled)

theorem kick_sameWaits (s : State) (k x : Nat) : SameWaits s (s.kick k x) := .runs (s.kick_runs k x) (s.kick_proceeds k x).stalled

theorem issueStore_sameWaits (s : State) (p : PendOp) : SameWaits s (s.issueStore p) := by
  unfold issueStore; extract_lets m own s₁ s₂
  have h₂ : SameWaits s₁ s₂ := by
    unfold s₂; split
    · exact .refl s₁
    · exact s₁.storeCopies_sameWaits _ _ _
  exact (((s.countOp_sameWaits m).trans h₂).trans (addOp_sameWaits _ _)).trans (kick_sameWaits _ _ _)

theorem writeG_sameWaits (s : State) (n : Nat) (r : Reg) : SameWaits s (s.writeG n r) :=
  have h := s.writeG_regs n r
  have ⟨_, e⟩ := h.rest
  ⟨by rw [e], by rw [e], by rw [e], h.waits.1, h.waits.2⟩

end State

section
variable {s : State} {d a b : BitVec 6} {x : Nat} {p : Place}

/-! GET and FLUSHRD (R247, R248). -/

/-- The checks of GET on a place in memory (R247, R406, R414). -/
theorem getChecks_passes {c : Reg} {n align : Nat} {perms : List Nat} (hp : ∀ bk, p ≠ .fifo bk) (h : Granted s c c.val n perms align .read x p)
    (hclear : Clear s (addrRange x 8)) (ok : Nat → Place → State → Host.Outcome State Fault Refusal) : getChecks c s ok = ok x p s := by
  rw [getChecks, h.located]
  have hreach : (hostReachable p c.val s fun s => unpoisoned (addrRange x 8) c.val s (ok x p)) = ok x p s := by
    rw [h.reachable, unpoisoned_clear hclear]
  cases p with
  | fifo bk => exact absurd rfl (hp bk)
  | own | share | home | host => exact hreach

theorem releasePoint_plain (htxn : s.task.txn = none) : s.releasePoint = s.release s.cur s.ctx := if_neg (by simp [htxn])

theorem get_reads (htxn : s.task.txn = none) (hb : s.busyG a = false) (hp : ∀ bk, p ≠ .fifo bk)
    (h : Granted s (s.g a) (s.g a).val 8 [pLD] 8 .read x p) (hclear : Clear s (addrRange x 8)) :
    exec (.get d a) s = retired ((s.release s.cur s.ctx).issueLoad (gDest d)
      { op := 0, gen := 0, kind := .get, va := (s.g a).val, addrs := addrRange x 8, fin := .int 8 false, place := p } (s.g a).taint) := by
  rw [exec_get, execGet, if_neg (by simp [hb])]; dsimp only
  rw [h.checked, getChecks_passes hp h hclear, getIssue, releasePoint_plain htxn]; rfl

/-- FLUSHRD's module has performed what the context posted to it (R248). -/
theorem flushWait_over {q : Flush} (h : s.task.flushrd = some q) (hq : q.mods = []) (done : State → Host.Outcome State Fault Refusal) :
    flushWait p s done = done (s.mapTask fun t => { t with flushrd := none }) := by
  unfold flushWait
  rw [h]; exact if_pos (by rw [hq]; rfl)

/-- FLUSHRD passes a release point and asks its module (R248). -/
theorem flushWait_asks (h : s.task.flushrd = none) (done : State → Host.Outcome State Fault Refusal) :
    flushWait p s done = Machine.stalled (((s.release s.cur s.ctx).mapTask fun t =>
      { t with flushrd := some (State.newFlush t [State.placeMod s.cur p] t.opNo) }).askFlush s.cur s.ctx [State.placeMod s.cur p]) := by
  obtain ⟨hcur, hctx⟩ := s.release_turn s.cur s.ctx
  unfold flushWait
  rw [h]; dsimp only
  rw [hcur, hctx]; rfl

section
variable (htxn : s.task.txn = none) (hb : s.busyG a = false) (ht : (s.g a).taint = 0)
include htxn hb ht

/-- FLUSHRD without a register waits for its module (R248). -/
theorem flushrd_waits (hc : capHolds (s.supAt s.cur) (s.g a) [pLD] = true) (hx : s.xlate s.cur (s.g a).val.toNat .read = .ok x p) :
    exec (.flushrd 0 a) s = flushWait p s retire := by
  rw [exec_flushrd, execFlushrd, noTxn_passes htxn, if_neg (by simp [hb])]; dsimp only
  rw [if_pos rfl, hc, if_neg (by decide), ht, if_neg (by decide), located, hx]

theorem flushrd_reads {q : Flush} (hf : s.task.flushrd = some q) (hq : q.mods = []) (hd : d ≠ 0) (hp : ∀ bk, p ≠ .fifo bk)
    (h : Granted s (s.g a) (s.g a).val 8 [pLD] 8 .read x p) (hclear : Clear s (addrRange x 8)) :
    exec (.flushrd d a) s = retired ((s.mapTask fun t => { t with flushrd := none }).releasePoint.issueLoad (gDest d)
      { op := 0, gen := 0, kind := .flushrd, va := (s.g a).val, addrs := addrRange x 8, fin := .int 8 false, place := p } (s.g a).taint) := by
  rw [exec_flushrd, execFlushrd, noTxn_passes htxn, if_neg (by simp [hb])]; dsimp only
  rw [if_neg hd, h.checked, ht, if_neg (by decide), getChecks_passes hp h hclear, flushWait_over hf hq, getIssue, ht]; rfl

end

/-! WAITM (R249). -/

section
variable (htxn : s.task.txn = none) (hr : Ready s [a])
include htxn hr

theorem waitm_takes {e : QEntry} (h : State.waitmPick s.here.ni.queue ((s.g a).val.toNat % 2 ^ 12) = some e) :
    exec (.waitm d a) s = if e.poisoned then Machine.stalled (s.discardEntry s.cur e) else retired (s.takeMsg d.toNat e) := by
  rw [exec_waitm, execWaitm, noTxn_passes htxn, operands_ready hr]; dsimp only
  rw [extract_toNat, Nat.pow_zero, Nat.div_one, h]; rfl

/-- WAITM parks where its core has room for one more (R249). -/
theorem waitm_parks (h : State.waitmPick s.here.ni.queue ((s.g a).val.toNat % 2 ^ 12) = none) :
    exec (.waitm d a) s = if (s.imageAt s.cur).park ≤ parkedHere s then trapped s cPARKLIMIT 0
      else parkedAs s (.waitm d.toNat ((s.g a).val.toNat % 2 ^ 12)) := by
  rw [exec_waitm, execWaitm, noTxn_passes htxn, operands_ready hr]; dsimp only
  rw [extract_toNat, Nat.pow_zero, Nat.div_one, h]
  simp only [parkHere, State.parkFull, decide_eq_true_eq]
  rfl

end

/-! RECVM and PEEKM (R250). -/

/-- Bytes that lie in one block are one part (R250). -/
theorem blockParts_one {va : Word} {n : Nat} (hn : n ≠ 0) (h : va.toNat % 256 + n ≤ 256) : blockParts va n = [(va, 0, n)] := by
  have hone : (va.toNat % 256 + n + 255) / 256 = 1 := by omega
  have hlen : min n (256 * (0 + 1) - va.toNat % 256) - 0 = n := by omega
  simp only [blockParts, if_neg hn, hone, List.range_one, List.map_cons, List.map_nil, if_true, hlen, BitVec.add_zero]

theorem recvm_empty (hr : Ready s [a, b]) (hn : min (s.g b).val.toNat s.task.window.length = 0) : exec (.recvm d a b) s = wrote s d 0 0 := by
  rw [exec_recvm, execRecvm, operands_ready hr]; dsimp only
  rw [if_pos hn, hn]; rfl

/-- The store by which RECVM writes the first bytes of the window (R250). -/
def windowStore (s : State) (va : Word) (x n : Nat) (p : Place) : PendOp :=
  { op := 0, gen := 0, kind := .store, va, addrs := addrRange x n, data := s.task.window.take n, place := p }

theorem recvm_stores {n : Nat} (hr : Ready s [a, b]) (hs : s.stalled = false) (hdef : n = min (s.g b).val.toNat s.task.window.length)
    (hn : n ≠ 0) (hblock : (s.g a).val.toNat % 256 + n ≤ 256) (h : Granted s (s.g a) (s.g a).val n [pST] 1 .write x p)
    (hfull : s.counterFull p = false) : exec (.recvm d a b) s
      = finished ((s.issueStore (windowStore s (s.g a).val x n p)).writeG d.toNat { val := BitVec.ofNat 64 n }) := by
  have hlen : (s.task.window.take n).length = n := by rw [List.length_take]; omega
  have hw := (s.issueStore_sameWaits (windowStore s (s.g a).val x n p)).trans
    (State.writeG_sameWaits _ d.toNat { val := BitVec.ofNat 64 n })
  rw [exec_recvm, execRecvm, operands_ready hr]; dsimp only
  rw [← hdef, if_neg hn, h.checked, storeSpan, hlen, blockParts_one hn hblock]
  simp only [List.foldr_cons, List.foldr_nil, h.located, List.drop_zero, Bool.false_eq_true, if_false, storePlain, h.reachable, hfull,
    List.take_take, min_self]
  exact State.rollback_retired (hw.stalled.trans hs) hw.park hw.late

theorem peekm_reads (hb : s.busyG a = false) (h : (s.g a).val.toNat % 8 = 0) : exec (.peekm d a) s = wrote s d (BitVec.ofNat 64
    (if 256 ≤ (s.g a).val.toNat then 0 else ofBytes ((s.task.window.drop (s.g a).val.toNat).take 8))) (s.g a).taint := by
  rw [exec_peekm, execPeekm, if_neg (by simp [hb])]; dsimp only
  rw [if_neg (not_not.2 h)]; rfl

theorem peekm_misaligned (hb : s.busyG a = false) (h : (s.g a).val.toNat % 8 ≠ 0) : exec (.peekm d a) s = trapped s cALIGN (s.g a).val := by
  rw [exec_peekm, execPeekm, if_neg (by simp [hb])]
  exact if_pos h

end

/-- Settles O26: each receiving instruction by the branch its premises choose. -/
theorem receiving : Obligations.Receiving := by
  unfold Obligations.Receiving
  intro s d a b x p htxn c req r f flushed h w n
  refine ⟨fun hb hp hg hclear => get_reads htxn hb hp hg hclear, fun hb ht hx => ⟨?_, ?_, ?_⟩, fun hr => ⟨fun e he => waitm_takes htxn hr he,
    fun hnone => ⟨fun hroom => ?_, fun hfull => ?_⟩⟩, fun hr hs => ⟨recvm_empty hr, fun hn hblock hg hfull =>
      recvm_stores hr hs rfl hn hblock hg hfull⟩, fun hb => ⟨peekm_reads hb, peekm_misaligned hb⟩⟩
  · intro ⟨q, hf, hq⟩ hc
    rw [flushrd_waits htxn hb ht hc hx, flushWait_over hf hq]; rfl
  · intro ⟨q, hf, hq⟩ hd hp hg hclear
    exact flushrd_reads htxn hb ht hf hq hd hp hg hclear
  · intro hf hc m
    rw [flushrd_waits htxn hb ht hc hx, flushWait_asks hf]
  · exact (waitm_parks htxn hr hnone).trans (if_neg (Nat.not_le.2 hroom))
  · exact (waitm_parks htxn hr hnone).trans (if_pos hfull)

end Sys2Proof.Machine
end

section
/-!
CERTIFICATE. Hod requests as they issue (R36, R253 to R257).
-/
namespace Sys2Proof.Machine

section
variable {s : State} {c : Reg} {n : Nat} {perms : List Nat} {align : Nat}

/-- The capability `c` allows its range, which lies in memory (R253). -/
def HodRanged (s : State) (c : Reg) (n : Nat) (perms : List Nat) (align : Nat) : Prop :=
  capFault (s.supAt s.cur) c c.val n perms align = none
    ∧ s.hostOrFifo (s.partAt s.cur) (s.supAt s.cur) (n / 4096 + 2) c.val.toNat n = false

theorem HodRanged.passes (h : HodRanged s c n perms align) (ok : State → Host.Outcome State Fault Refusal) :
    (checked c c.val n perms align s fun s => noHostFifo c.val n s ok) = ok s := by
  rw [checked_passes h.1, noHostFifo_passes h.2]

theorem hodRange_passes (h : HodRanged s c n perms 1) (ok : State → Host.Outcome State Fault Refusal) : hodRange c n perms s ok = ok s :=
  h.passes ok

/-- A range that `s` allows is allowed where `t` differs in lines alone. -/
theorem HodRanged.lines {t : State} (hl : s.LinesOnly t) (hc : capFault (s.supAt s.cur) c c.val n perms align = none)
    (hm : t.hostOrFifo (s.partAt s.cur) (s.supAt s.cur) (n / 4096 + 2) c.val.toNat n = false) : HodRanged t c n perms align := by
  unfold HodRanged
  rw [hl.supAt_cur, hl.partAt_cur]; exact ⟨hc, hm⟩

/-- A hod request starts with its registers readable and its completion resolved (R253). -/
theorem hodIssue_passes {kind : HodKind} {rs : List (BitVec 6)} {k : Nat} {team : Option (Nat × Nat)}
    (hr : Ready s (rs ++ [56, 57, 58, 59] ++ absRegs (s.g 56).val)) (hk : s.resolve s.cur (s.g 60) (s.g 56).val = .core k team)
    (ok : HodReq → List (BitVec 6) → State → Host.Outcome State Fault Refusal) : hodIssue kind rs s ok
      = ok (s.newHodReq kind (s.compMsg k team)) (rs ++ [56, 57, 58, 59] ++ absRegs (s.g 56).val) s := by
  unfold hodIssue; dsimp only
  rw [anyBusy_ready hr, if_neg (by decide), resolved, hk]

theorem hodHold_holds {regs : List (BitVec 6)} {r : HodReq} (hr : Ready s regs) (hroom : Room s) :
    hodHold regs r s = retire (s.mapTask fun t => { t with send := t.send ++ [{ eff := .hod r }] }) := by
  rw [hodHold, taintOf_ready hr, if_neg (by decide), State.hold_of_room hroom]

/-- The valid rows of a bag lie in memory (R255). -/
theorem noHostFifoRows_passes {r : HodReq} (ok : State → Host.Outcome State Fault Refusal)
    (h : ∀ i ∈ r.idxs, rowValid r i = true →
      s.hostOrFifo r.part r.sup (r.rlen * rowElem r.etype / 4096 + 2) (rowVa r i.toNat) (r.rlen * rowElem r.etype) = false) :
    noHostFifoRows r s ok = ok s := by
  unfold noHostFifoRows; extract_lets n bad
  have hnone : (r.idxs.filter (rowValid r)).find? bad = none := List.find?_eq_none.2 fun i hi => by
    obtain ⟨hmem, hv⟩ := List.mem_filter.1 hi
    exact Bool.eq_false_iff.1 (h i hmem hv)
  rw [hnone]

/-! The bag (R255). -/

/-- A bag is read at issue: its header, and then the whole of it (R255). -/
structure BagRead (s : State) (scatter : Bool) (c : Reg) (hb bs : List Byte) (t u : State) : Prop where
  head : HodRanged s c 8 [pLD] 8
  first : ∃ as, plainRead s c.val 8 false = some (as, hb, t)
  ok : bagOk scatter (BitVec.ofNat 64 (ofBytes hb)) = true
  all : HodRanged t c (bagSize (BitVec.ofNat 64 (ofBytes hb))) [pLD] 8
  second : ∃ as, plainRead t c.val (bagSize (BitVec.ofNat 64 (ofBytes hb))) false = some (as, bs, u)

theorem BagRead.reads {scatter : Bool} {hb bs : List Byte} {t u : State} (h : BagRead s scatter c hb bs t u) (htaint : c.taint = 0)
    (ok : Word → List Byte → State → Host.Outcome State Fault Refusal) :
    readBag scatter c s ok = ok (BitVec.ofNat 64 (ofBytes hb)) bs u := by
  obtain ⟨as, hfirst⟩ := h.first
  obtain ⟨as', hsecond⟩ := h.second
  rw [readBag, h.head.passes, htaint, if_neg (by decide), (readNow_untracked hfirst).1]
  dsimp only
  rw [h.ok, if_neg (by decide), h.all.passes, (readNow_untracked hsecond).1]

theorem BagRead.lines {scatter : Bool} {hb bs : List Byte} {t u : State} (h : BagRead s scatter c hb bs t u) : s.LinesOnly u :=
  have ⟨_, hfirst⟩ := h.first
  have ⟨_, hsecond⟩ := h.second
  (readNow_untracked hfirst).2.trans (readNow_untracked hsecond).2

end

section
variable {s u : State} {d a b : BitVec 6} {k : Nat} {team : Option (Nat × Nat)} {hb bs : List Byte}
  (hk : s.resolve s.cur (s.g 60) (s.g 56).val = .core k team)
include hk

/-! HCOPY and HFILL (R254). -/

theorem hcopy_holds (hroom : Room s) (hr : Ready s ([d, a] ++ [56, 57, 58, 59] ++ absRegs (s.g 56).val))
    {n : Nat} (hdef : n = (capBounds (s.g a).desc (s.g a).val).2 - (s.g a).val.toNat) (hn : n ≤ hodLimit)
    (hd : HodRanged s (s.g d) n [pST] 1) (ha : HodRanged s (s.g a) n [pLD] 1) :
    exec (.hcopy d a) s = held s (.hod { s.newHodReq .copy (s.compMsg k team) with
      dst := (s.g d).val.toNat, src := (s.g a).val.toNat, len := n, tags := hasPerm (s.g a).desc pLDC && hasPerm (s.g d).desc pSTC
      inTeam := s.inTeamRegions s.cur (s.g d).val.toNat && s.inTeamRegions s.cur ((s.g d).val.toNat + (n - 1)) }) := by
  rw [exec_hcopy, execHcopy, hodIssue_passes hr hk]; dsimp only
  rw [← hdef, if_neg (Nat.not_lt.2 hn), hodRange_passes hd, hodRange_passes ha, hodHold_holds hr hroom]; rfl

theorem hfill_holds (hroom : Room s) (hr : Ready s ([d, a, b] ++ [56, 57, 58, 59] ++ absRegs (s.g 56).val))
    (hn : (s.g b).val.toNat ≤ hodLimit) (hd : HodRanged s (s.g d) (s.g b).val.toNat [pST] 1) :
    exec (.hfill d a b) s = held s (.hod { s.newHodReq .fill (s.compMsg k team) with
      dst := (s.g d).val.toNat, len := (s.g b).val.toNat, pattern := (s.g a).val }) := by
  rw [exec_hfill, execHfill, hodIssue_passes hr hk]; dsimp only
  rw [if_neg (Nat.not_lt.2 hn), hodRange_passes hd, hodHold_holds hr hroom]; rfl

/-! HGATH and HSCAT (R255 to R257). -/

section
variable (hs : s.stalled = false) (hroom : Room s) (hr : Ready s ([d, a, b] ++ [56, 57, 58, 59] ++ absRegs (s.g 56).val))
include hs hroom hr

/-- An instruction of several accesses that holds a request, and ends. -/
def hodAsked (u : State) (r : HodReq) : Host.Outcome State Fault Refusal :=
  finished (u.mapTask fun t => { t with send := t.send ++ [{ eff := .hod r }] })

omit hk in
/-- A request whose bag has been read is held, and its instruction ends (R36, R76). -/
theorem hodHold_ends (hl : s.LinesOnly u) (r : HodReq) :
    rollback s (hodHold ([d, a, b] ++ [56, 57, 58, 59] ++ absRegs (s.g 56).val) r u) = hodAsked u r := by
  rw [hodHold_holds (hl.ready hr) (hl.room hroom)]
  refine State.rollback_retired (hl.stalled_eq.trans hs) ?_ ?_
  · rw [State.task_mapTask, hl.task]
  · rw [State.task_mapTask, hl.task]

/-- The rows of a request lie in memory, as its issue saw it. -/
def RowsInMemory (s u : State) (r : HodReq) : Prop :=
  ∀ i ∈ r.idxs, rowValid r i = true → u.hostOrFifo (s.partAt s.cur) (s.supAt s.cur) (r.rlen * rowElem r.etype / 4096 + 2)
    (rowVa r i.toNat) (r.rlen * rowElem r.etype) = false

theorem hgath_holds {kind : HodKind} {t : State} (hbag : BagRead s false (s.g b) hb bs t u)
    (hd : HodRanged u (s.g d) (4 * bagRlen (BitVec.ofNat 64 (ofBytes hb))) [pST] 1) (hc : capHolds (s.supAt s.cur) (s.g a) [pLD] = true)
    (hm : RowsInMemory s u (bagReq (s.newHodReq kind (s.compMsg k team)) (s.g a) (BitVec.ofNat 64 (ofBytes hb)) bs)) :
    hgath kind d a b s = hodAsked u
      { bagReq (s.newHodReq kind (s.compMsg k team)) (s.g a) (BitVec.ofNat 64 (ofBytes hb)) bs with
        dst := (s.g d).val.toNat, len := 4 * bagRlen (BitVec.ofNat 64 (ofBytes hb)) } := by
  have hl := hbag.lines
  rw [hgath, hodIssue_passes hr hk]; dsimp only
  rw [hbag.reads (hr b (by simp)).2, hl.g_eq d, hodRange_passes hd, hl.supAt_cur, hl.g_eq a, hc, if_neg (by decide), hl.g_eq d, noHostFifoRows_passes _ hm, hodHold_ends hs hroom hr hl]

theorem hscat_holds {t : State} (hbag : BagRead s true (s.g b) hb bs t u) (hc : capHolds (s.supAt s.cur) (s.g d) [pLD, pST] = true)
    (ha : HodRanged u (s.g a) (bagCount (BitVec.ofNat 64 (ofBytes hb)) * 4 * bagRlen (BitVec.ofNat 64 (ofBytes hb))) [pLD] 1)
    (hm : RowsInMemory s u (bagReq (s.newHodReq .scatter (s.compMsg k team)) (s.g d) (BitVec.ofNat 64 (ofBytes hb)) bs)) :
    exec (.hscat d a b) s = hodAsked u
      { bagReq (s.newHodReq .scatter (s.compMsg k team)) (s.g d) (BitVec.ofNat 64 (ofBytes hb)) bs with
        dst := (s.g d).val.toNat, src := (s.g a).val.toNat
        len := bagCount (BitVec.ofNat 64 (ofBytes hb)) * 4 * bagRlen (BitVec.ofNat 64 (ofBytes hb)) } := by
  have hl := hbag.lines
  rw [exec_hscat, execHscat, hodIssue_passes hr hk]; dsimp only
  rw [hbag.reads (hr b (by simp)).2, hl.g_eq d, hl.g_eq a, hl.supAt_cur, hc, if_neg (by decide), hodRange_passes ha, hl.g_eq d, hl.g_eq a,
    noHostFifoRows_passes _ hm, hodHold_ends hs hroom hr hl]

end
end

/-- Settles O27: every hod instruction whose checks pass holds its request. -/
theorem hodRequestsIssue : Obligations.HodRequestsIssue := by
  unfold Obligations.HodRequestsIssue
  intro s d a b k team as as' hb bs t u abs htxn hs hroom hr hk sup part ok comp req cn h bag inMemory asked rows gathers
  have hready : Ready s ([d, a, b] ++ [56, 57, 58, 59] ++ absRegs (s.g 56).val) := hr
  have hread {scatter : Bool} (h : bag scatter) : BagRead s scatter (s.g b) hb bs t u := by
    obtain ⟨hhead, hfirst, hok, hall, hsecond⟩ := h
    exact ⟨hhead, ⟨as, hfirst⟩, hok, .lines (readNow_untracked hfirst).2 hall.1 hall.2, as', hsecond⟩
  have hgathers {ins kind} (hi : exec ins s = hgath kind d a b s) : gathers ins kind := fun hbag hd hc hm =>
    hi.trans (hgath_holds hk hs hroom hready (hread hbag) (.lines (hread hbag).lines hd.1 hd.2) hc hm)
  clear_value gathers
  refine ⟨fun hn hd ha => hcopy_holds hk hroom (fun r hm => hr r ?_) rfl hn hd ha, fun hn hd => hfill_holds hk hroom hready hn hd,
    hgathers rfl, hgathers rfl, fun hbag hc ha hm => hscat_holds hk hs hroom hready (hread hbag) hc
      (.lines (hread hbag).lines ha.1 ha.2) hm⟩
  simp only [List.mem_append, List.mem_cons] at hm ⊢; tauto

end Sys2Proof.Machine
end

section
/-!
CERTIFICATE. The steps of hods (R163, R253 to R257).
-/
namespace Sys2Proof.Machine

/-- A range that translates without a fault is handed on (R254, R388). -/
theorem hodAddrs_plain {e : Event} {g : Agent} {r : HodReq} {site slice va n : Nat} {acc : Access} {s u : State} {as : List Nat}
    (h : hodPlain g r site slice va n acc s = some (as, u)) (ok : List Nat → State → Host.Outcome State Fault Refusal) :
    hodAddrs e g r site slice va n acc s ok = ok as u := by
  unfold hodPlain at h
  unfold hodAddrs
  generalize blockParts (BitVec.ofNat 64 va) n = parts at h ⊢
  generalize ([] : List Nat) = got at h ⊢
  induction parts generalizing got s with
  | nil =>
    obtain ⟨rfl, rfl⟩ : got = as ∧ s = u := by simpa only [List.foldr_nil, Option.some.injEq, Prod.mk.injEq] using h
    rfl
  | cons p parts ih =>
    obtain ⟨x, lo, len⟩ := p
    rw [List.foldr_cons] at h ⊢
    dsimp only at h ⊢
    split at h
    · cases h
    next hfault =>
      generalize hx : s.agentXlate r.part r.sup site (site, slice) x.toNat acc = m at h
      obtain ⟨t, c | c⟩ := m
      · rw [hodXlate]; dsimp only
        rw [if_neg hfault, hx]
        dsimp only at h ⊢
        exact ih _ h
      · cases h

section
variable {s u u' : State} {r : HodReq}

/-! Copies and fills (R254). -/

theorem hodMove_ends {site slice : Nat} (h : r.len = 0) (hk : r.kind = .copy ∨ r.kind = .fill) :
    hodMove r site slice s = .next (s.push (.hodCompletion r 0)) := by
  have hword : compWord r 0 = 0 := by
    rcases hk with h | h <;> · rw [compWord, h]; rfl
  rw [hodMove]; dsimp only
  rw [if_pos h, hword]

theorem hodRequest_moves (hk : r.kind = .copy ∨ r.kind = .fill) :
    exec (.hodRequest r) s = hodMove r (s.hodHome r).1 (s.hodHome r).2 s := by
  rcases hk with h | h <;> · rw [exec_hodRequest, execHodRequest, h]

/-- A part of a fill is written, and the rest goes on (R254). -/
theorem hodMove_fills {site slice : Nat} {as : List Nat} (hk : r.kind = .fill) (hlen : 0 < r.len)
    (h : hodPlain (.hod r) r site slice r.dst (hodPart r) .write s = some (as, u)) (htile : u.tileLocked as = false)
    (hfree : u.hostAsk site as true (some (.hodRequest r)) = none) :
    hodMove r site slice s = .next (hodRest r (hodPart r) (u.performWrite (as.zip (fillBytes r.pattern r.dst (hodPart r))) [])) := by
  rw [hodMove]; dsimp only
  rw [if_neg hlen.ne', hk]; dsimp only
  rw [hodAddrs_plain h, htile, if_neg (by decide), State.hostHold, hfree, if_neg (by decide)]

/-- A part of a copy is read and written, and the rest goes on (R254, R120). -/
theorem hodMove_copies {site slice : Nat} {src dst : List Nat} (hk : r.kind = .copy) (hlen : 0 < r.len)
    (hsrc : hodPlain (.hod r) r site slice r.src (hodPart r) .read s = some (src, u)) (hclear : Clear u src)
    (htile : u.tileLocked src = false) (hfree : u.hostAsk site src false (some (.hodRequest r)) = none)
    (hdst : hodPlain (.hod r) r site slice r.dst (hodPart r) .write u = some (dst, u')) (htile' : u'.tileLocked dst = false)
    (hfree' : u'.hostAsk site dst true (some (.hodRequest r)) = none) : hodMove r site slice s
      = .next (hodRest r (hodPart r) (u'.performWrite (dst.zip (u.readMem src)) (u'.hodTags r src dst))) := by
  rw [hodMove]; dsimp only
  rw [if_neg hlen.ne', hk]; dsimp only
  rw [hodAddrs_plain hsrc, hclear.1, if_neg (by decide), htile, if_neg (by decide), State.hostHold, hfree]; dsimp only
  rw [State.checkRead_clear hclear.2, hodAddrs_plain hdst, htile', if_neg (by decide), State.hostHold, hfree', if_pos rfl]

/-! Bags without a row to visit, and parts that come back (R256, R257). -/

/-- A bag of no valid index has no position. -/
theorem bagPositions_nil (h : ∀ i ∈ r.idxs, rowValid r i = false) : bagPositions r = [] := by
  unfold bagPositions
  rw [List.map_eq_nil_iff, List.filter_eq_nil_iff]
  rintro ⟨⟨i, w⟩, j⟩ hmem
  have hi : i ∈ r.idxs := (List.of_mem_zip (List.fst_mem_of_mem_zipIdx hmem)).1
  exact Bool.eq_false_iff.1 (h i hi)

theorem hodRequest_empty (hc : r.kind ≠ .copy) (hf : r.kind ≠ .fill) (h : ∀ i ∈ r.idxs, rowValid r i = false) :
    exec (.hodRequest r) s = .next (s.push (if r.kind = .scatter then .hodCompletion r (compWord r 0)
      else .hgathCombine { req := r, owners := [], partials := [], no := (s.core r.core).ni.bagNext })) := by
  have hsplit : exec (.hodRequest r) s = hodSplit r s := by
    rw [exec_hodRequest, execHodRequest]
    cases hk : r.kind with
    | copy => exact absurd hk hc
    | fill => exact absurd hk hf
    | gatherSum | gatherMean | scatter => rfl
  have hnone : (if r.kind = .scatter then bagPositions r else mergeIndices (bagPositions r)) = [] := by
    rw [bagPositions_nil h]; exact ite_self _
  rw [hsplit, hodSplit]; dsimp only
  rw [hnone, List.foldr_nil]
  rfl

section
variable {bag whole : BagState} (ho : bag.owners ≠ []) (hw : Sparse.find (s.core bag.req.core).ni.bags bag.no = some whole)
include ho hw

/-- A part of a bag comes back: it is kept, and the last one ends the bag (R256, R257). -/
theorem hgathCombine_back : exec (.hgathCombine bag) s =
    if (bagBack whole bag).owners = [] then .next ((s.mapNi bag.req.core fun ni => { ni with bags := Sparse.erase ni.bags bag.no }).push
      (if bag.req.kind = .scatter ∨ (bagBack whole bag).status ≠ 0 then .hodCompletion bag.req (compWord bag.req (bagBack whole bag).status)
        else .hgathCombine (bagBack whole bag)))
    else .next (s.mapNi bag.req.core fun ni => { ni with bags := Sparse.set ni.bags bag.no (bagBack whole bag) }) := by
  obtain ⟨p, ps, hcons⟩ := List.exists_cons_of_ne_nil ho
  rw [exec_hgathCombine, execHgathCombine]; dsimp only
  rw [hcons]; dsimp only
  rw [hw]; dsimp only
  cases hb : (bagBack whole bag).owners with
  | nil => simp only [List.isEmpty_nil, Bool.not_true, Bool.false_eq_true, if_false, if_true, Bool.or_eq_true, decide_eq_true_eq]
  | cons => simp only [List.isEmpty_cons, Bool.not_false, if_true, reduceCtorEq, if_false]

end

/-! The whole gather (R256). -/

theorem hgathCombine_writes {bag : BagState} {as : List Nat} (ho : bag.owners = [])
    (h : hodPlain (.bag bag) bag.req (s.hodHome bag.req).1 (s.hodHome bag.req).2 bag.req.dst (4 * bag.req.rlen) .write s = some (as, u))
    (htile : u.tileLocked as = false) (hfree : u.hostAsk (s.hodHome bag.req).1 as true (some (.hgathCombine bag)) = none) :
    exec (.hgathCombine bag) s = .next ((u.performWrite (as.zip ((bagRow bag).flatMap fun c => bytesOf 4 c.toNat)) []).push
      (.hodCompletion bag.req (compWord bag.req 0))) := by
  rw [exec_hgathCombine, execHgathCombine]; dsimp only
  rw [ho]; dsimp only
  rw [hodAddrs_plain h, htile, if_neg (by decide), State.hostHold, hfree]

/-- Bytes are clear where what may poison or alter them is as it was (R404, R406, R411). -/
theorem Clear.congr {t : State} {as : List Nat} (h : Clear s as) (hf : t.flips = s.flips) (hp : t.poison = s.poison)
    (hb : t.banks = s.banks) (hl : ∀ n, (t.site n).live = (s.site n).live) : Clear t as := by
  obtain ⟨hnone, hmet⟩ := h
  rw [State.poisonedByte, List.find?_eq_none] at hnone
  refine ⟨?_, by rw [hf]; exact hmet⟩
  rw [State.poisonedByte, List.find?_eq_none]
  intro a ha
  have hbad := hnone a ha
  rw [Bool.or_eq_true, not_or] at hbad ⊢
  refine ⟨?_, fun hany => ?_⟩
  · simp only [State.bank, hb, hl, hp]; exact hbad.1
  · obtain ⟨f, hfm, hm⟩ := List.any_eq_true.1 hany
    rw [hf] at hfm
    exact absurd (List.any_eq_true.2 ⟨a, ha, (Bool.and_eq_true_iff.1 hm).1⟩) (Bool.eq_false_iff.1 (hmet f hfm))

/-- The end of a row read alters no byte. -/
theorem endRow_clear {as : List Nat} (h : Clear s as) (o : Nat) (tiles : List Nat) : Clear (s.endRow o tiles) as :=
  h.congr rfl rfl rfl (State.mapSite_quiet (s := s) (f := fun t =>
    { t with rowReads := t.rowReads.filter fun r => !(r.hod == o && r.tiles == tiles) }) rfl).live

/-! One row at its owner (R163, R256, R257). -/

section
variable {bag : BagState} {o j i : Nat} {x : Exact} {ps : List (Nat × Nat × Exact)} {rest : List (Nat × List (Nat × Nat × Exact))}
  {as : List Nat}

section
variable (ho : bag.owners = (o, (j, i, x) :: ps) :: rest)
  (h : hodPlain (.bag bag) bag.req (agentSite o) (o % 64) (rowVa bag.req i) (bag.req.rlen * rowElem bag.req.etype) .read s = some (as, u))
include ho h

/-- The owner reads the row that its sample tells to be whole, and pools it (R163, R256). -/
theorem hgathOwner_row : exec (.hgathOwner bag) s = wholeRow o as (.hgathOwner bag) u fun s =>
    if (s.poisonedByte as).isSome then .next ((s.checkRead as).endPart bag 1)
    else .next ((s.checkRead as).push (.hgathOwner { bag with
      owners := (o, ps) :: rest
      pool := some (addScaled (bag.pool.getD (List.replicate bag.req.rlen 0)) x
        (rowVals bag.req.etype bag.req.rlen ((s.checkRead as).readMem as))) })) := by
  rw [exec_hgathOwner, execHgathOwner]; dsimp only
  rw [ho]; dsimp only
  rw [hodAddrs_plain h]

theorem hgathOwner_samples (hq : u.rowSample o (u.tilesOf as) = none) :
    exec (.hgathOwner bag) s = .next (u.pushAll [.rowRead o (u.tilesOf as), .hgathOwner bag]) := by
  rw [hgathOwner_row ho h, wholeRow, hq]

theorem hgathOwner_stale {q : RowSample} (hq : u.rowSample o (u.tilesOf as) = some q) (hst : u.rowStale q = true) :
    exec (.hgathOwner bag) s = .next ((u.again (.rowRead o (u.tilesOf as))).again (.hgathOwner bag)) := by
  rw [hgathOwner_row ho h, wholeRow, hq]; dsimp only
  rw [if_pos hst]

theorem hgathOwner_pools {q : RowSample} (hq : u.rowSample o (u.tilesOf as) = some q) (hst : u.rowStale q = false)
    (hfree : u.hostAsk (agentSite o) as false (some (.hgathOwner bag)) = none) (hclear : Clear u as) :
    exec (.hgathOwner bag) s = .next ((u.endRow o (u.tilesOf as)).push (.hgathOwner { bag with
      owners := (o, ps) :: rest
      pool := some (addScaled (bag.pool.getD (List.replicate bag.req.rlen 0)) x
        (rowVals bag.req.etype bag.req.rlen (u.readMem as))) })) := by
  obtain ⟨hp, hf⟩ := endRow_clear hclear o (u.tilesOf as)
  rw [hgathOwner_row ho h, wholeRow, hq]; dsimp only
  rw [hst, if_neg (by decide), State.hostHold, hfree]; dsimp only
  rw [hp, if_neg (by decide), State.checkRead_clear hf]
  rfl

end

theorem hgathOwner_ends (ho : bag.owners = (o, []) :: rest) : exec (.hgathOwner bag) s = .next (s.endPart bag 0) := by
  rw [exec_hgathOwner, execHgathOwner]; dsimp only
  rw [ho]

theorem hscatOwner_ends (ho : bag.owners = (o, []) :: rest) : exec (.hscatOwner bag) s = .next (s.endPart bag 0) := by
  rw [exec_hscatOwner, execHscatOwner]; dsimp only
  rw [ho]

/-- The owner adds the scaled source row onto the row of the table (R257). -/
theorem hscatOwner_adds {src : List Nat} (ho : bag.owners = (o, (j, i, x) :: ps) :: rest)
    (h : hodPlain (.bag bag) bag.req (agentSite o) (o % 64) (rowVa bag.req i) (4 * bag.req.rlen) .write s = some (as, u))
    (hheld : u.heldBack (u.rowOwner bag.req (as.headD 0)) (.hscatOwner bag) = false)
    (hsrc : hodPlain (.bag bag) bag.req (agentSite o) (o % 64) (bag.req.src + j * (4 * bag.req.rlen)) (4 * bag.req.rlen) .read u
      = some (src, u'))
    (htile : u'.tileLocked (as ++ src) = false) (hclear : Clear u' (as ++ src))
    (hfree : u'.hostAsk (agentSite o) src false (some (.hscatOwner bag)) = none)
    (hfree' : u'.hostAsk (agentSite o) as true (some (.hscatOwner bag)) = none) :
    exec (.hscatOwner bag) s = .next (((u'.performWrite (as.zip ((addScaled (words32 bag.req.rlen (u'.readMem as)) x
      (rowVals 9 bag.req.rlen (u'.readMem src))).flatMap fun c => bytesOf 4 c.toNat)) []).restep (.hscatOwner bag)
        (.hscatOwner { bag with owners := (o, ps) :: rest })).push (.hscatOwner { bag with owners := (o, ps) :: rest })) := by
  rw [exec_hscatOwner, execHscatOwner]; dsimp only
  rw [ho]; dsimp only
  rw [hodAddrs_plain h, hheld, if_neg (by decide), hodAddrs_plain hsrc, htile, if_neg (by decide), hclear.1, if_neg (by decide),
    State.hostHold, hfree]; dsimp only
  rw [State.hostHold, hfree', State.checkRead_clear hclear.2]

end

/-! Completions (R253). -/

theorem hodCompletion_sends {w : Word} (h : r.node = none) :
    exec (.hodCompletion r w) s = .next (s.hodSend (s.hodHome r).1 (s.hodHome r).2 { r.comp with a1 := w }) := by
  rw [exec_hodCompletion, execHodCompletion, h]

theorem hodCompletion_node {w : Word} {st n : Nat} (h : r.node = some (st, n)) : exec (.hodCompletion r w) s
    = .next ((s.mapSite st fun t => { t with nodes := t.nodes.map fun (j, d) =>
        (j, if j = n then { d with loop := w.toNat % 256 } else d) }).push (.nodeComplete st n)) := by
  rw [exec_hodCompletion, execHodCompletion, h]

end

/-- Settles O28: every step of a hod, by the kind of its request and what it finds. -/
theorem hodSteps : Obligations.HodSteps := by
  unfold Obligations.HodSteps
  refine ⟨fun s r bag w => ?_, fun s bag o j i x ps rest as src u u' => ?_⟩
  · intro home plain n rest free
    refine ⟨fun hk hlen => (hodRequest_moves hk).trans (hodMove_ends hlen hk), fun hk hlen _ as u hp htile hfree => ?_,
      fun hk hlen _ _ src u dst u' hsrc hclear htile hfree hdst htile' hfree' => ?_, hodRequest_empty, hodCompletion_sends,
      fun st n => hodCompletion_node, fun whole ho hw => ⟨fun hn => ?_, fun hn => ?_⟩⟩
    · exact (hodRequest_moves (.inr hk)).trans (hodMove_fills hk hlen hp htile hfree)
    · exact (hodRequest_moves (.inl hk)).trans (hodMove_copies hk hlen hsrc hclear htile hfree hdst htile' hfree')
    · exact (hgathCombine_back ho hw).trans (if_neg hn)
    · exact (hgathCombine_back ho hw).trans (if_pos hn)
  · intro r size va zero free at_ tiles
    refine ⟨fun ho hp => ⟨hgathOwner_samples ho hp, fun q hq => ⟨hgathOwner_stale ho hp hq, fun hst hfree hclear =>
        hgathOwner_pools ho hp hq hst hfree hclear⟩⟩, fun ho => ⟨hgathOwner_ends ho, hscatOwner_ends ho⟩,
      fun ho _ _ hp hheld hsrc htile hclear hfree hfree' => hscatOwner_adds ho hp hheld hsrc htile hclear hfree hfree', ?_⟩
    intro home add sums out ho hp htile hfree
    have hout : bagRow bag = out := by
      unfold bagRow
      exact if_congr (by rw [Bool.and_eq_true, decide_eq_true_eq, decide_eq_true_eq]) rfl rfl
    exact hout ▸ hgathCombine_writes ho hp htile hfree

end Sys2Proof.Machine
end

section
/-!
CERTIFICATE. Resets, the lifecycle and its tokens, and the SPDM exchanges (R415, R427 to R435).
-/
namespace Sys2Proof.Machine

namespace Sparse
variable {α : Type} {P : α → Prop} {d : α} {m : Sparse α} {k : Nat}

/-- What every entry of a key satisfies, its value satisfies where it has an entry. -/
theorem get_of_key (hk : k ∈ m.map (·.1)) (h : ∀ x, (k, x) ∈ m → P x) : P (get d m k) := by
  induction m with
  | nil => cases hk
  | cons p m ih =>
    obtain ⟨j, x⟩ := p
    by_cases e : j = k
    · subst e; simpa only [get, if_true] using h x List.mem_cons_self
    · have hm : k ∈ m.map (·.1) := (List.mem_cons.1 hk).resolve_left (Ne.symm e)
      simpa only [get, if_neg e] using ih hm fun y hy => h y (List.mem_cons_of_mem _ hy)

/-- A key without an entry has the default. -/
theorem get_of_no_key (hk : k ∉ m.map (·.1)) : get d m k = d := by
  induction m with
  | nil => rfl
  | cons p m ih =>
    rw [List.map_cons, List.mem_cons, not_or] at hk
    simpa only [get, if_neg (Ne.symm hk.1)] using ih hk.2

/-- What the default and every entry of a key satisfies, its value satisfies. -/
theorem get_sat (hd : P d) (h : ∀ x, (k, x) ∈ m → P x) : P (get d m k) := by
  by_cases hk : k ∈ m.map (·.1)
  · exact get_of_key hk h
  · exact get_of_no_key hk ▸ hd

end Sparse

/-! Wiped storage, and wiped cores and sites (R428, R429). -/

/-- A core as after reset, but for its team (R428). -/
structure Core.Bare (c : Core) : Prop where
  l1 : c.l1 = []
  queue : c.ni.queue = []
  ctxs : c.ctxs = []

/-- The storage of some sites reads as zero, and their cores are bare (R428, R429). -/
structure Wiped (u : State) (mine : Nat → Bool) : Prop where
  mem : ∀ a, a < 2 ^ 45 → mine (paSite a) = true → Mem.read u.mem a = 0
  core : ∀ k, mine (siteOf k) = true → ∀ d : Core, d.Bare → (Sparse.get d u.cores k).Bare

theorem Wiped.bare {u : State} {mine : Nat → Bool} (h : Wiped u mine) {k : Nat} (hk : mine (siteOf k) = true) : (u.core k).Bare :=
  h.core k hk _ ⟨rfl, rfl, rfl⟩

theorem Wiped.ctxAt {u : State} {mine : Nat → Bool} (h : Wiped u mine) {k : Nat} (hk : mine (siteOf k) = true) (x : Nat) :
    u.ctxAt k x = {} := by
  rw [State.ctxAt, (h.bare hk).ctxs]; rfl

theorem Wiped.congr {u v : State} {mine : Nat → Bool} (h : Wiped u mine) (hm : v.mem = u.mem) (hc : v.cores = u.cores) : Wiped v mine :=
  ⟨fun a ha hs => by rw [hm]; exact h.mem a ha hs, fun k hk => by rw [hc]; exact h.core k hk⟩

theorem wipeStorage_read (s : State) (mine : Nat → Bool) {a : Nat} (ha : a < 2 ^ 45) (hs : mine (paSite a) = true) :
    Mem.read (s.wipeStorage mine).mem a = 0 :=
  (Sparse.get_filter_key (fun a => !if a < 2 ^ 45 then mine (paSite a) else sramBase ≤ a && a < teamStore && mine (bankSite (bankOf a)))
    (0 : Byte) _ a).trans (if_neg (by rw [if_pos ha, hs]; decide))

theorem wipeSites_bare (s : State) (mine : Nat → Bool) (site : Site → Site) {k : Nat} (hk : mine (siteOf k) = true)
    {d : Core} (hd : d.Bare) : (Sparse.get d (s.wipeSites mine site).cores k).Bare := by
  refine Sparse.get_sat hd fun c hc => ?_
  obtain ⟨p, _, hp⟩ := List.mem_map.1 hc
  obtain ⟨rfl, rfl⟩ := Prod.mk.inj hp
  rw [hk]; exact ⟨rfl, rfl, rfl⟩

/-- Sites whose storage and agents are wiped one after the other are wiped. -/
theorem wiped_sites {s t : State} {mine : Nat → Bool} {site : Site → Site} (h : ∀ a, a < 2 ^ 45 → mine (paSite a) = true → Mem.read s.mem a = 0)
    (hm : t.mem = s.mem) : Wiped (t.wipeSites mine site) mine :=
  ⟨fun a ha hs => by rw [show (t.wipeSites mine site).mem = s.mem from hm]; exact h a ha hs, fun _ hk _ hd => wipeSites_bare t mine site hk hd⟩

/-! The module reset (R427, R428). -/

/-- `t` has the memory and the modules of `s`, and its cores differ from those of `s` in their teams alone. -/
structure TeamsSet (s t : State) : Prop where
  mem : t.mem = s.mem
  mods : t.mods = s.mods
  core : ∀ k, (∀ d : Core, d.Bare → (Sparse.get d s.cores k).Bare) → ∀ d : Core, d.Bare → (Sparse.get d t.cores k).Bare

theorem TeamsSet.refl (s : State) : TeamsSet s s := ⟨rfl, rfl, fun _ h => h⟩
theorem TeamsSet.trans {s t u : State} (h : TeamsSet s t) (g : TeamsSet t u) : TeamsSet s u :=
  ⟨g.mem.trans h.mem, g.mods.trans h.mods, fun k hb => g.core k (h.core k hb)⟩

theorem TeamsSet.wiped {s t : State} {mine : Nat → Bool} (h : TeamsSet s t) (hw : Wiped s mine) : Wiped t mine :=
  ⟨fun a ha hs => by rw [h.mem]; exact hw.mem a ha hs, fun k hk => h.core k (hw.core k hk)⟩

/-- The teams that firmware places leave memory, the modules and what a core holds (R352). -/
theorem placeBoot_teamsSet (s : State) (n : Nat) : TeamsSet s (s.placeBoot n) := by
  unfold State.placeBoot; extract_lets sites u s₁
  have h₁ : TeamsSet s s₁ := ⟨rfl, rfl, fun _ h => h⟩
  clear_value s₁
  refine h₁.trans (foldl_rel .refl .trans (fun s st => ?_) _ _)
  dsimp only
  split
  next k _ =>
    refine ⟨rfl, rfl, fun j hb d hd => ?_⟩
    by_cases e : j = k
    · subst e
      obtain ⟨hl1, hqueue, hctxs⟩ := hb (s.idleCore j) ⟨rfl, rfl, rfl⟩
      exact (Sparse.get_set_same d s.cores j _).symm ▸ ⟨hl1, hqueue, hctxs⟩
    · exact (Sparse.get_set_other d s.cores k j _ e).symm ▸ hb d hd
  · exact .refl s

/-- The module as firmware leaves it. -/
structure InReset (m m' : Module) : Prop where
  powered : m'.powered = true
  ck : m'.ck.busy = false
  sessions : m'.sessions = []
  step : m'.resetStep = 7 ↔ imageOk m.fuses m.flash = true ∧ lifeOf m.fuses ≠ .retired

theorem resetModule_wipes (s : State) (mod : Nat) :
    Wiped (s.resetModule mod) (fun st => st / 24 == mod) ∧ InReset (s.module mod) ((s.resetModule mod).module mod) := by
  obtain ⟨u, hu⟩ : ∃ u, u = s.resetModule mod := ⟨_, rfl⟩
  rw [← hu]
  unfold State.resetModule at hu; extract_lets m s₁ other s₂ mine s₃ s₄ good debug parts m' s₅ at hu
  have hm' : InReset m m' := by
    refine ⟨rfl, rfl, rfl, ?_⟩
    show (if (good && lifeOf m.fuses != .retired) = true then 7 else 5) = 7 ↔ _
    rw [← bne_iff_ne, ← Bool.and_eq_true]
    split
    next h => exact iff_of_true rfl h
    next h => exact iff_of_false (by decide) h
  have hfold : ((List.range 24).foldl (fun s i => s.mapSite (mod * 24 + i) id) s₃).mem = s₃.mem :=
    foldl_keeps State.mem (fun s i => s.mapSite (mod * 24 + i) id) (fun _ _ => rfl) _ _
  have h₃ : ∀ a, a < 2 ^ 45 → mine (paSite a) = true → Mem.read s₃.mem a = 0 := fun _ ha hs => wipeStorage_read _ mine ha hs
  clear_value s₃
  have h₄ : Wiped s₄ mine := wiped_sites h₃ hfold
  clear_value s₄
  have h₅ : Wiped s₅ mine := h₄.congr rfl rfl
  have hmod : s₅.module mod = m' := Sparse.get_set_same _ _ _ _
  clear_value s₅ m'
  have hteams : TeamsSet s₅ u := by
    rw [hu]; split
    · exact foldl_rel (R := TeamsSet) .refl .trans (fun s _ => placeBoot_teamsSet s _) _ _
    · exact .refl _
  have hu : u.module mod = m' := by rw [State.module, hteams.mods]; exact hmod
  exact ⟨hteams.wiped h₅, hu ▸ hm'⟩

/-- A module's reset completes with its sites wiped and the module as firmware leaves it (R428). -/
theorem resetModule_completes (s : State) (mod : Nat) : Completes (.next (s.resetModule mod)) fun u =>
    Wiped u (fun st => st / 24 == mod) ∧ InReset (s.module mod) (u.module mod) := ⟨_, rfl, resetModule_wipes s mod⟩

theorem powerLoss_completes (s : State) (mod : Nat) : Completes (exec (.powerLoss mod) s) fun u =>
    (u.module mod).powered = false ∧ SameStorage s u := by
  have hspoil : SameStorage s (s.spoilImage mod) := by
    unfold State.spoilImage; extract_lets c spoil
    split
    · split
      · exact ⟨fun _ => rfl, rfl, rfl⟩
      · exact ⟨fun _ => rfl, rfl, rfl⟩
    · exact ⟨fun _ => rfl, rfl, rfl⟩
  refine ⟨_, rfl, ?_, hspoil⟩
  rw [State.module_mapModule]

/-! The reset of one site (R427, R429). -/

/-- A site that a reset may come to is lost first (R411). -/
theorem execSiteLoss_lost (s : State) (site : Nat) : Completes (execSiteLoss site s) fun u => (u.site site).live = false := by
  cases hlive : (s.site site).live with
  | false => exact ⟨s, by rw [execSiteLoss, hlive]; rfl, hlive⟩
  | true =>
    obtain ⟨u, hu, hdown, -, -⟩ := siteLoss_completes hlive
    exact ⟨u, hu, hdown⟩

theorem mapPart_teamsSet (s : State) (n : Nat) (f : Partition → Partition) :
    TeamsSet s (s.mapPart n f) ∧ (s.mapPart n f).sites = s.sites := by
  unfold State.mapPart
  split
  · exact ⟨⟨rfl, rfl, fun _ h => h⟩, rfl⟩
  · exact ⟨.refl s, rfl⟩

/-- A site that is not live has an entry. -/
theorem key_of_lost {s : State} {n : Nat} (h : (s.site n).live = false) : n ∈ s.sites.map (·.1) := by
  by_contra hk
  rw [State.site, Sparse.get_of_no_key hk] at h
  cases h

theorem wipeStorage_keys (s : State) (mine : Nat → Bool) : (s.wipeStorage mine).sites.map (·.1) = s.sites.map (·.1) :=
  List.map_map

theorem wipeSites_keys (s : State) (mine : Nat → Bool) (site : Site → Site) :
    (s.wipeSites mine site).sites.map (·.1) = s.sites.map (·.1) := List.map_map

/-- A site that a reset wipes (R429). -/
theorem wipeSites_site {P : Site → Prop} {s : State} {mine : Nat → Bool} {site : Site → Site} {n : Nat} (hn : mine n = true)
    (h : n ∈ s.sites.map (·.1)) (hP : ∀ t, P (site t)) : P ((s.wipeSites mine site).site n) := by
  refine Sparse.get_of_key (by rw [wipeSites_keys]; exact h) fun t ht => ?_
  obtain ⟨p, _, hp⟩ := List.mem_map.1 ht
  obtain ⟨rfl, rfl⟩ := Prod.mk.inj hp
  rw [hn]; exact hP _

theorem siteReset_completes {s : State} {site : Nat} (h : (s.site site).live = false ∨ (s.site site).evacuating.isSome = true) :
    Completes (exec (.siteReset site) s) fun u =>
      Wiped u (fun st => st == site) ∧ (u.site site).live = true ∧ (u.site site).rejoin = true := by
  have hgo : ((s.site site).live && (s.site site).evacuating.isNone) = false := by
    rcases h with h | h
    · rw [h]; rfl
    · rw [Bool.and_eq_false_iff]; exact .inr (by simpa using h)
  obtain ⟨v, hv, hlost⟩ := execSiteLoss_lost s site
  rw [exec_siteReset]; unfold execSiteReset; extract_lets t lost s₁ other s₂ mine links s₃ whole s₄
  rw [if_neg (show ¬ (t.live && t.evacuating.isNone) = true by rw [hgo]; decide)]
  have hs₁ : s₁ = v := by
    show (match execSiteLoss site s with | .next s => s | _ => s) = v
    rw [hv]
  have hkey : site ∈ s₂.sites.map (·.1) := key_of_lost (s := s₁) (by rw [hs₁]; exact hlost)
  clear_value s₁ s₂
  have h₃ : Wiped s₃ mine := wiped_sites (fun _ ha hs => wipeStorage_read _ mine ha hs) rfl
  have hsite₃ : (s₃.site site).live = true ∧ (s₃.site site).rejoin = true :=
    wipeSites_site (P := fun t => t.live = true ∧ t.rejoin = true) (mine := mine) (beq_self_eq_true site)
      (by rw [wipeStorage_keys]; exact hkey) fun _ => ⟨rfl, rfl⟩
  clear_value s₃
  have h₄ : TeamsSet s₃ s₄ ∧ s₄.sites = s₃.sites :=
    foldl_rel (R := fun s t => TeamsSet s t ∧ t.sites = s.sites) (fun s => ⟨.refl s, rfl⟩)
      (fun h g => ⟨h.1.trans g.1, g.2.trans h.2⟩) (fun s _ => mapPart_teamsSet s _ _) _ _
  refine ⟨_, rfl, (h₄.1.wiped h₃).congr rfl rfl, ?_⟩
  show (Sparse.get {} s₄.sites site : Site).live = true ∧ (Sparse.get {} s₄.sites site : Site).rejoin = true
  rw [h₄.2]; exact hsite₃

/-! The lifecycle (R434, R435). -/

/-- A token acts where its condition holds and it is valid (R434). -/
theorem acts_iff {ins : Instr} {s u : State} {life : Prop} {ok : Bool} {c : Prop} [Decidable c] (h : exec ins s = .next (if c then u else s))
    (hc : c ↔ life ∧ ok = true) :
    (life → ok = true → exec ins s = .next u) ∧ (¬ life ∨ ok = false → exec ins s = .next s) := by
  refine ⟨fun hl ho => by rw [h, if_pos (hc.2 ⟨hl, ho⟩)], fun hn => ?_⟩
  have hnot : ¬ c := fun h => by
    obtain ⟨hl, ho⟩ := hc.1 h
    rcases hn with hn | hn
    · exact hn hl
    · rw [ho] at hn; cases hn
  rw [h, if_neg hnot]

/-! SPDM (R415). -/

section
variable {s : State} {mod port : Nat} (hup : (s.port mod port).up = true) (hpow : (s.module mod).powered = true)

/-- The response of a port (R415). -/
def State.answers (s : State) (mod port next rsp : Nat) (words : List Word) : State :=
  s.mapPort mod port fun p => { p with spdm := next, response := (rsp, words) }
/-- An error as the response of a port (R415). -/
def State.answersError (s : State) (mod port : Nat) : State := s.mapPort mod port fun p => { p with response := (rspError, []) }

include hup hpow

theorem spdm_eq (ok : Nat → Bool) (kind : Nat) (words : List Word) (next : Nat → Nat) : spdm mod port ok kind words next s =
    if ok (s.port mod port).spdm = true then s.answers mod port (next (s.port mod port).spdm) kind words else s.answersError mod port := by
  unfold spdm; dsimp only
  rw [hup, hpow]; rfl

theorem spdm_at {n : Nat} {kind : Nat} {words : List Word} {next : Nat → Nat} : spdm mod port (· == n) kind words next s =
    if (s.port mod port).spdm = n then s.answers mod port (next n) kind words else s.answersError mod port := by
  rw [spdm_eq hup hpow]
  split
  next h => rw [beq_iff_eq] at h; rw [if_pos h, h]
  next h => rw [beq_iff_eq] at h; rw [if_neg h]

theorem spdm_never {kind : Nat} {words : List Word} {next : Nat → Nat} : spdm mod port (fun _ => false) kind words next s = s.answersError mod port := by
  rw [spdm_eq hup hpow]; exact if_neg (by decide)

/-- What follows an exchange that the session's state allows, and only such a one. -/
theorem spdm_then {n : Nat} {kind : Nat} {words : List Word} {next : Nat → Nat} (f : State → State) :
    (if ((s.port mod port).spdm == n) = true then f (spdm mod port (· == n) kind words next s) else spdm mod port (· == n) kind words next s)
      = if (s.port mod port).spdm = n then f (s.answers mod port (next n) kind words) else s.answersError mod port := by
  rw [spdm_at hup hpow]
  by_cases h : (s.port mod port).spdm = n
  · rw [if_pos (beq_iff_eq.2 h), if_pos h, if_pos h]
  · rw [if_neg (by rwa [beq_iff_eq]), if_neg h, if_neg h]

/-- An attestation report is signed with the leaf that it uses up (R433). -/
theorem attestationReport_signs {nonce : Word} (hsess : (s.port mod port).spdm = 5) (hex : (s.module mod).exhausted = false)
    (hleaf : (s.module mod).leaf < 2 ^ 20) : exec (.attestationReport mod port nonce) s
      = .next ((s.mapModule mod fun m => { m with leaf := m.leaf + 1 }).answers mod port 5 rspVendor
          (s.reportBody mod nonce ++ wordsOf (hssSign (s.module mod).fuses.uds (s.module mod).leaf
            ((s.reportBody mod nonce).flatMap fun w => bytesOf 8 w.toNat)))) := by
  have hnot : ¬ ((s.port mod port).spdm ≠ 5 ∨ (s.module mod).exhausted = true ∨ 2 ^ 20 ≤ (s.module mod).leaf) := by
    rw [hex]; simpa [hsess] using hleaf
  have hmod := State.module_mapModule s mod fun m => { m with leaf := m.leaf + 1 }
  have hport : (s.mapModule mod fun m => { m with leaf := m.leaf + 1 }).port mod port = s.port mod port := by
    rw [State.port, hmod]; rfl
  have hbody : (s.mapModule mod fun m => { m with leaf := m.leaf + 1 }).reportBody mod nonce = s.reportBody mod nonce := by
    rw [State.reportBody, hmod]; rfl
  rw [exec_attestationReport, execAttestationReport]; dsimp only
  rw [if_neg hnot, hbody, spdm_at (by rw [hport]; exact hup) (by rw [hmod]; exact hpow), hport, if_pos hsess]
  rfl

end

theorem answers_port (s : State) (mod port next rsp : Nat) (words : List Word) :
    ((s.answers mod port next rsp words).port mod port).response = (rsp, words) := by
  unfold State.answers State.mapPort
  rw [State.port, State.module_mapModule, Sparse.get_set_same]

theorem answers_leaf (s : State) (mod port next rsp : Nat) (words : List Word) :
    ((s.answers mod port next rsp words).module mod).leaf = (s.module mod).leaf := by
  unfold State.answers State.mapPort
  rw [State.module_mapModule]

/-- Settles O54: resets by what they wipe, tokens by what lets them act, and the exchanges by the session's state. -/
theorem resetSteps : Obligations.ResetSteps := by
  unfold Obligations.ResetSteps
  refine ⟨fun s mod site part img fw att uds t => ?_, fun s mod port session kind nonce arg proof key => ?_⟩
  · intro m wiped reset fresh acts
    have hwiped {u : State} {mine : Nat → Prop} {own : Nat → Bool} (hm : ∀ n, mine n ↔ own n = true) (h : Wiped u own) : wiped u mine :=
      ⟨fun a ha hs => h.mem a ha ((hm _).1 hs), fun k hk => ⟨(h.bare ((hm _).1 hk)).l1, (h.bare ((hm _).1 hk)).queue, h.ctxAt ((hm _).1 hk)⟩⟩
    have hreset {ins : Instr} {v : State} (hi : exec ins s = .next (v.resetModule mod)) (hf : (v.module mod).fuses = m.fuses)
        (hflash : (v.module mod).flash = m.flash) : reset ins := by
      obtain ⟨u, hu, hw, hp, hck, hsess, hstep⟩ := resetModule_completes v mod
      rw [hf, hflash] at hstep
      exact ⟨u, hi.trans hu, hwiped (fun n => (beq_iff_eq (a := n / 24)).symm) hw, hp, hck, hsess, hstep⟩
    clear_value reset
    refine ⟨hreset rfl ?_ ?_, fun hp => hreset (congrArg Host.Outcome.next (if_pos hp)) rfl rfl, powerLoss_completes s mod, fun h => ?_,
      fun hr hin => ?_, rfl, fun hl => congrArg Host.Outcome.next (if_pos hl), acts_iff rfl Iff.rfl, acts_iff rfl and_assoc.symm,
      acts_iff rfl Iff.rfl, acts_iff rfl Iff.rfl, acts_iff rfl Iff.rfl,
      acts_iff rfl (by rw [and_assoc, and_assoc])⟩
    · rw [State.module_mapModule]
    · rw [State.module_mapModule]
    · obtain ⟨u, hu, hw, hlive, hrej⟩ := siteReset_completes h
      exact ⟨u, hu, hwiped (fun n => beq_iff_eq.symm) hw, hlive, hrej⟩
    · rw [exec_siteRejoin, execSiteRejoin, hr, List.contains_iff_mem.2 hin]; rfl
  · intro p m answers error hup hpow
    have hat {ins : Instr} {n rsp next : Nat} {words : List Word} {f : Nat → Nat}
        (hi : exec ins s = .next (spdm mod port (· == n) rsp words f s)) (hf : f n = next) :
        exec ins s = .next (if p.spdm = n then answers s next rsp words else error) := by
      rw [hi, spdm_at hup hpow, hf]; rfl
    have hnever {ins : Instr} {rsp : Nat} {words : List Word} {f : Nat → Nat}
        (hi : exec ins s = .next (spdm mod port (fun _ => false) rsp words f s)) : exec ins s = .next error := by
      rw [hi, spdm_never hup hpow]; rfl
    refine ⟨?_, hat rfl rfl, ?_, ?_, ?_, ?_, ?_, hat rfl rfl, hat rfl rfl, ?_, fun hs => ⟨?_, ?_⟩, fun h => ?_, fun hs hex hleaf => ?_, fun h => ?_⟩
    · exact congrArg Host.Outcome.next ((spdm_eq hup hpow _ _ _ _).trans (if_pos rfl))
    · exact congrArg Host.Outcome.next ((spdm_eq hup hpow _ _ _ _).trans (if_congr (by simp [p]) rfl rfl))
    · exact congrArg Host.Outcome.next ((spdm_eq hup hpow _ _ _ _).trans (if_neg (by simp)))
    · exact congrArg Host.Outcome.next ((spdm_eq hup hpow _ _ _ _).trans (if_neg (by simp)))
    · exact congrArg Host.Outcome.next (spdm_then hup hpow fun s => s.mapPort mod port fun p => { p with session })
    · exact congrArg Host.Outcome.next ((spdm_eq hup hpow _ _ _ _).trans (if_congr (by simp [p, m]) rfl rfl))
    · exact congrArg Host.Outcome.next (spdm_then hup hpow fun s => s.mapPort mod port fun p => { p with ideKey := some key })
    · exact congrArg Host.Outcome.next (if_pos hs)
    · exact (hat rfl rfl).trans (congrArg Host.Outcome.next (if_pos hs))
    · rcases h with h | h
      · obtain ⟨n, rfl⟩ := Nat.exists_eq_add_of_le h
        rw [Nat.add_comm]; exact hnever rfl
      · match kind with
        | 0 => exact congrArg Host.Outcome.next ((if_neg h).trans (spdm_never hup hpow))
        | 1 | 2 => exact (hat rfl rfl).trans (congrArg Host.Outcome.next (if_neg h))
        | _ + 3 => exact hnever rfl
    · refine ⟨_, attestationReport_signs hup hpow hs hex hleaf, ?_, ?_, ?_, ?_⟩
      · rw [answers_leaf, State.module_mapModule]
      · rw [answers_port]
      · rw [answers_port]
      · rw [answers_port]; rfl
    · have hnext : exec (.attestationReport mod port nonce) s = .next (spdm mod port (fun _ => false) rspError [] id s) := if_pos h
      exact hnever hnext

end Sys2Proof.Machine
end

section
/-!
SUPPORT. A site whose mesh carries a flit, while its router's cycle is already to be taken in the next fabric cycle.
-/
namespace Sys2Proof.Machine

/-- A flit in the mesh, at router (0, 0), on its way to router (1, 1). -/
def meshTraveller : MeshFlit := { flit := {}, goal := (1, 1), leaving := false }

/-- The machine after reset, but that site 0's mesh carries a flit and its router's cycle stands among the steps of the next cycle. -/
def meshWaiting : State := { State.reset.mapSite 0 fun t => { t with mesh := [(0, [meshTraveller])] } with
  nextCycle := [.porderRouterCycle 0] }

/-- Whether a step stands on the agenda after a step. -/
def onAgendaAfter (e : Event) : Host.Outcome State Fault Refusal → Bool
  | .next s => s.agenda.contains e
  | _ => false

/-- The cycle moves the flit on, and leaves its own next cycle where it stands already (R316). -/
theorem routerCycle_meshWaiting : onAgendaAfter (.porderRouterCycle 0) (exec (.porderRouterCycle 0) meshWaiting) = false := by decide

end Sys2Proof.Machine
end

section
/-!
CERTIFICATE. Routers and links, retransmission, and the closing of windows (R314, R316, R319 to R329, R409, R410, R421).
-/
namespace Sys2Proof.Machine

/-- Refutes O51: the statement has a router whose mesh carries a flit on find its next cycle on the agenda. A step that already waits
for the next fabric cycle is not put on the agenda as well, so in `meshWaiting` the flit moves on while the agenda stays without it. -/
theorem not_porderSteps : ¬ Obligations.PorderSteps := by
  intro h
  obtain ⟨-, -, hmesh, -⟩ := h.1 meshWaiting 0 0 0 0 0 {} (1, 1) false [] 0 []
  obtain ⟨u, hu, -, hmem⟩ := hmesh rfl rfl rfl (by decide)
  have hnot := routerCycle_meshWaiting
  rw [hu, onAgendaAfter, List.contains_iff_mem.2 hmem] at hnot
  cases hnot

end Sys2Proof.Machine
end

section
/-!
SUPPORT. Steps that keep memory in its canonical form (05_memory.md, R428, R429): what is asked of a state, of a step's outcome and of
an operation that may find no state, and the folds and matches through which the model's operations pass states on. Each operation `f` of
the model then has one lemma, in the order of the model's own text: `State.Canonical.f` where it gives a state, `f_next` where it gives
an outcome, `f_some`, `f_left` and `f_fst` where it gives an option, a choice or a pair with a state in it.
-/
namespace Sys2Proof.Machine

/-- What one step of the machine gives. -/
abbrev StepOutcome := Host.Outcome State Fault Refusal

/-- A state that follows has its memory in canonical form. -/
def CanonicalNext (o : StepOutcome) : Prop := ∀ t, o = .next t → t.Canonical

/-- A state that is found has its memory in canonical form. -/
def SomeCanonical (o : Option State) : Prop := ∀ t, o = some t → t.Canonical

/-- A state on the left has its memory in canonical form. -/
def LeftCanonical (o : State ⊕ Nat) : Prop := ∀ t, o = .inl t → t.Canonical

theorem State.Canonical.next {s : State} (h : s.Canonical) : CanonicalNext (.next s) := fun _ e => by cases e; exact h
theorem CanonicalNext.refused {r : Refusal} : CanonicalNext (.refused r) := fun _ e => by cases e
theorem CanonicalNext.fault {f : Fault} : CanonicalNext (.fault f) := fun _ e => by cases e

theorem State.Canonical.of_mem {s t : State} (h : s.Canonical) (e : t.mem = s.mem) : t.Canonical := by rw [Canonical, e]; exact h

theorem State.Canonical.of_fst {α : Type} {p : State × α} {t : State} {x : α} (e : p = (t, x)) (h : p.1.Canonical) : t.Canonical := by
  rw [e] at h; exact h

theorem State.Canonical.of_some {o : Option State} {t : State} (e : o = some t) (h : SomeCanonical o) : t.Canonical := h t e
theorem State.Canonical.of_left {o : State ⊕ Nat} {t : State} (e : o = .inl t) (h : LeftCanonical o) : t.Canonical := h t e

section
variable {c : Prop} {dec : Decidable c}

theorem State.Canonical.ite {s t : State} (h : s.Canonical) (h' : t.Canonical) : (if c then s else t).Canonical := by
  split <;> assumption

theorem State.Canonical.ite_fst {α : Type} {p q : State × α} (h : p.1.Canonical) (h' : q.1.Canonical) :
    (if c then p else q).1.Canonical := by
  split <;> assumption

theorem CanonicalNext.ite {o p : StepOutcome} (h : CanonicalNext o) (h' : CanonicalNext p) : CanonicalNext (if c then o else p) := by
  split <;> assumption

theorem SomeCanonical.ite {o p : Option State} (h : SomeCanonical o) (h' : SomeCanonical p) : SomeCanonical (if c then o else p) := by
  split <;> assumption

theorem LeftCanonical.ite {o p : State ⊕ Nat} (h : LeftCanonical o) (h' : LeftCanonical p) : LeftCanonical (if c then o else p) := by
  split <;> assumption

end

theorem State.Canonical.foldl {α : Type} {f : State → α → State} {l : List α} {s : State} (h : s.Canonical)
    (hf : ∀ t : State, t.Canonical → ∀ a, (f t a).Canonical) : (l.foldl f s).Canonical := by
  induction l generalizing s with
  | nil => exact h
  | cons a l ih => exact ih (hf _ h a)

theorem State.Canonical.foldl_fst {α β : Type} {f : State × β → α → State × β} {l : List α} {p : State × β}
    (h : p.1.Canonical) (hf : ∀ q : State × β, q.1.Canonical → ∀ a, (f q a).1.Canonical) : (l.foldl f p).1.Canonical := by
  induction l generalizing p with
  | nil => exact h
  | cons a l ih => exact ih (hf _ h a)

theorem CanonicalNext.foldr {α : Type} {f : α → (State → StepOutcome) → State → StepOutcome} {ok : State → StepOutcome}
    (hf : ∀ a k, (∀ t : State, t.Canonical → CanonicalNext (k t)) → ∀ t : State, t.Canonical → CanonicalNext (f a k t))
    (hok : ∀ t : State, t.Canonical → CanonicalNext (ok t)) (l : List α) :
    ∀ t : State, t.Canonical → CanonicalNext (l.foldr f ok t) :=
  List.foldrRecOn l f hok fun k hk a _ => hf a k hk

theorem CanonicalNext.foldr_acc {α β : Type} {f : α → (β → State → StepOutcome) → β → State → StepOutcome}
    {ok : β → State → StepOutcome}
    (hf : ∀ a k, (∀ b (t : State), t.Canonical → CanonicalNext (k b t)) → ∀ b (t : State), t.Canonical → CanonicalNext (f a k b t))
    (hok : ∀ b (t : State), t.Canonical → CanonicalNext (ok b t)) (l : List α) :
    ∀ b (t : State), t.Canonical → CanonicalNext (l.foldr f ok b t) :=
  List.foldrRecOn l f hok fun k hk a _ => hf a k hk

namespace SomeCanonical

theorem none : SomeCanonical none := fun _ e => by cases e

theorem bind {o : Option State} {f : State → Option State} (h : SomeCanonical o)
    (hf : ∀ t : State, t.Canonical → SomeCanonical (f t)) : SomeCanonical (o.bind f) := by
  intro t e
  obtain ⟨u, hu, ht⟩ := Option.bind_eq_some_iff.1 e
  exact hf u (h u hu) t ht

theorem map {o : Option State} {f : State → State} (h : SomeCanonical o)
    (hf : ∀ t : State, t.Canonical → (f t).Canonical) : SomeCanonical (o.map f) := by
  intro t e
  obtain ⟨u, hu, rfl⟩ := Option.map_eq_some_iff.1 e
  exact hf u (h u hu)

theorem foldl {α : Type} {f : Option State → α → Option State} {l : List α} {o : Option State} (h : SomeCanonical o)
    (hf : ∀ o, SomeCanonical o → ∀ a, SomeCanonical (f o a)) : SomeCanonical (l.foldl f o) := by
  induction l generalizing o with
  | nil => exact h
  | cons a l ih => exact ih (hf _ h a)

theorem findSome {α : Type} {f : α → Option State} {l : List α} (hf : ∀ a, SomeCanonical (f a)) : SomeCanonical (l.findSome? f) := by
  intro t e
  obtain ⟨a, -, ha⟩ := List.exists_of_findSome?_eq_some e
  exact hf a t ha

end SomeCanonical

theorem State.Canonical.found {s : State} (h : s.Canonical) : SomeCanonical (some s) := fun _ e => by cases e; exact h

theorem State.Canonical.inl {s : State} (h : s.Canonical) : LeftCanonical (.inl s) := fun _ e => by cases e; exact h
theorem LeftCanonical.inr {c : Nat} : LeftCanonical (.inr c) := fun _ e => by cases e

section
variable {s : State}

/-! Updates that leave the stored bytes alone. -/

theorem State.Canonical.mapCore {k f} (h : s.Canonical) : (s.mapCore k f).Canonical := h
theorem State.Canonical.mapCtx {k x f} (h : s.Canonical) : (s.mapCtx k x f).Canonical := h
theorem State.Canonical.mapTask {f} (h : s.Canonical) : (s.mapTask f).Canonical := h
theorem State.Canonical.mapSite {n f} (h : s.Canonical) : (s.mapSite n f).Canonical := h
theorem State.Canonical.mapModule {n f} (h : s.Canonical) : (s.mapModule n f).Canonical := h
theorem State.Canonical.mapNi {k f} (h : s.Canonical) : (s.mapNi k f).Canonical := h
theorem State.Canonical.setBank {n b} (h : s.Canonical) : (s.setBank n b).Canonical := h
theorem State.Canonical.push {e} (h : s.Canonical) : (s.push e).Canonical := h
theorem State.Canonical.pushAll {es} (h : s.Canonical) : (s.pushAll es).Canonical := h
theorem State.Canonical.again {e} (h : s.Canonical) : (s.again e).Canonical := h
theorem State.Canonical.bump (h : s.Canonical) : (s.bump).Canonical := h
theorem State.Canonical.forgetCode {placed} (h : s.Canonical) : (s.forgetCode placed).Canonical := h
theorem State.Canonical.setTag {gr tg} (h : s.Canonical) : (s.setTag gr tg).Canonical := h
theorem State.Canonical.mapSteps {ev} (h : s.Canonical) : (s.mapSteps ev).Canonical := h
theorem State.Canonical.forwardRange {src dst n} (h : s.Canonical) : (s.forwardRange src dst n).Canonical := h
theorem State.Canonical.mapWindow {owner src f} (h : s.Canonical) : (s.mapWindow owner src f).Canonical := h
theorem State.Canonical.machineCheck {site cls sev agent pa} (h : s.Canonical) : (s.machineCheck site cls sev agent pa).Canonical := h
theorem State.Canonical.setClusterLines {site cl ls} (h : s.Canonical) : (s.setClusterLines site cl ls).Canonical := h
theorem State.Canonical.forgetLines {at_ gone} (h : s.Canonical) : (s.forgetLines at_ gone).Canonical := h
theorem State.Canonical.l2Forget {gone} (h : s.Canonical) : (s.l2Forget gone).Canonical := h
theorem State.Canonical.addOp {p} (h : s.Canonical) : (s.addOp p).Canonical := h
theorem State.Canonical.countOp {m} (h : s.Canonical) : (s.countOp m).Canonical := h
theorem State.Canonical.recordTile {h₀ tile write} (h : s.Canonical) : (s.recordTile h₀ tile write).Canonical := h
theorem State.Canonical.bindStream {k b} (h : s.Canonical) : (s.bindStream k b).Canonical := h
theorem State.Canonical.hodRest_state {r n} (h : s.Canonical) : (hodRest r n s).Canonical := h
theorem State.Canonical.resendLater {m} (h : s.Canonical) : (s.resendLater m).Canonical := h
theorem State.Canonical.mapNode {site n f} (h : s.Canonical) : (s.mapNode site n f).Canonical := h
theorem State.Canonical.freeGraph {site graph} (h : s.Canonical) : (s.freeGraph site graph).Canonical := h
theorem State.Canonical.mapPort {mod k f} (h : s.Canonical) : (s.mapPort mod k f).Canonical := h
theorem State.Canonical.putFp {env} (h : s.Canonical) : (s.putFp env).Canonical := h
theorem State.Canonical.putTile {p t} (h : s.Canonical) : (s.putTile p t).Canonical := h
theorem State.Canonical.moveDirs {ps} (h : s.Canonical) : (s.moveDirs ps).Canonical := h
theorem State.Canonical.poisonLine {a cls agent} (h : s.Canonical) : (s.poisonLine a cls agent).Canonical := h
theorem State.Canonical.dropNodes {site} (h : s.Canonical) : (s.dropNodes site).Canonical := h
theorem State.Canonical.hostOn {site} (h : s.Canonical) : (s.hostOn site).Canonical := h
theorem State.Canonical.mapCk {mod f} (h : s.Canonical) : (s.mapCk mod f).Canonical := h
theorem State.Canonical.ckStreamed {mod} (h : s.Canonical) : (s.ckStreamed mod).Canonical := h
theorem State.Canonical.wipeSites {mine site} (h : s.Canonical) : (s.wipeSites mine site).Canonical := h

end

end Sys2Proof.Machine
end

section
/-!
SUPPORT. Steps that keep memory in its canonical form: operands, stored bytes, routes and caches (06, 07, 14).
-/
namespace Sys2Proof.Machine

section
variable {s : State}

theorem State.Canonical.mapTeam {n f} (h : s.Canonical) : (s.mapTeam n f).Canonical := by
  unfold State.mapTeam
  split <;> exact h

theorem State.Canonical.mapGrid {n f} (h : s.Canonical) : (s.mapGrid n f).Canonical := by
  unfold State.mapGrid
  split <;> exact h

theorem State.Canonical.mapPart {n f} (h : s.Canonical) : (s.mapPart n f).Canonical := by
  unfold State.mapPart
  split <;> exact h

theorem State.Canonical.stall_next (h : s.Canonical) : CanonicalNext (stall s) :=
  State.Canonical.next h

theorem State.Canonical.bindSlot {k x n} (h : s.Canonical) : (s.bindSlot k x n).Canonical :=
  (State.bindSlot_proceeds ..).wf h

theorem State.Canonical.cancel {d} (h : s.Canonical) : (s.cancel d).Canonical := by
  unfold State.cancel
  exact .ite h (.foldl h fun _ h₁ _ => h₁.bindSlot)

theorem State.Canonical.writeG {n r} (h : s.Canonical) : (s.writeG n r).Canonical := by
  unfold State.writeG
  exact .ite h h.cancel.mapTask

theorem State.Canonical.writeInt {d val taint} (h : s.Canonical) : (s.writeInt d val taint).Canonical :=
  h.writeG

theorem State.Canonical.writeV {n r} (h : s.Canonical) : (s.writeV n r).Canonical :=
  h.cancel.mapTask

theorem State.Canonical.asCtx {k x} {f : State → State} (h : s.Canonical) (hf : ∀ t : State, t.Canonical → (f t).Canonical) :
    (s.asCtx k x f).Canonical :=
  hf { s with cur := k, ctx := x } h

theorem State.Canonical.advance (h : s.Canonical) : s.advance.Canonical := by
  unfold State.advance
  split
  · exact h
  · exact .ite h h

theorem State.Canonical.retire_next (h : s.Canonical) : CanonicalNext (retire s) :=
  h.advance.next

theorem State.Canonical.writeMem {ws} (h : s.Canonical) : (s.writeMem ws).Canonical :=
  (State.writeMem_proceeds ..).wf h

theorem State.Canonical.copyRange {src dst n} (h : s.Canonical) : (s.copyRange src dst n).Canonical :=
  State.copyRange_wf src dst n h

theorem State.Canonical.homeRegion_left {part va site slice} (h : s.Canonical) :
    LeftCanonical (s.homeRegion part va site slice) := by
  unfold State.homeRegion
  refine .ite .inr ?_
  refine .ite (State.Canonical.inl h) ?_
  split
  · exact .inr
  · dsimp only
    split
    · exact State.Canonical.inl (.forwardRange (.copyRange h))
    · exact State.Canonical.inl h

theorem State.Canonical.pushOnce {e} (h : s.Canonical) : (s.pushOnce e).Canonical :=
  (State.pushOnce_proceeds ..).wf h

theorem State.Canonical.leave {src fs} (h : s.Canonical) : (s.leave src fs).Canonical :=
  (State.leave_proceeds ..).wf h

theorem State.Canonical.inject {src dst flits cls seq rerouted opens e} (h : s.Canonical) :
    (s.inject src dst flits cls seq rerouted opens e).Canonical :=
  (State.inject_proceeds ..).wf h

theorem State.Canonical.injectCtl {st ctl src dst seq e} (h : s.Canonical) : (s.injectCtl st ctl src dst seq e).Canonical :=
  (State.injectCtl_proceeds ..).wf h

theorem State.Canonical.route {src owner flits cls e} (h : s.Canonical) : (s.route src owner flits cls e).Canonical :=
  (State.route_proceeds ..).wf h

theorem State.Canonical.routeOnce {src owner flits cls e} (h : s.Canonical) : (s.routeOnce src owner flits cls e).Canonical :=
  (State.routeOnce_proceeds ..).wf h

theorem State.Canonical.sendNext {a} (h : s.Canonical) : (s.sendNext a).Canonical := by
  unfold State.sendNext
  exact h.foldl fun _ h₁ _ => .ite (.inject h₁) h₁

theorem State.Canonical.freeXmit {a owner seq} (h : s.Canonical) : (s.freeXmit a owner seq).Canonical := by
  unfold State.freeXmit
  exact .sendNext h

theorem State.Canonical.resume {es} (h : s.Canonical) : (s.resume es).Canonical :=
  (State.resume_proceeds ..).wf h

theorem State.Canonical.markApplied {owner src n} (h : s.Canonical) : (s.markApplied owner src n).Canonical :=
  (State.markApplied_proceeds ..).wf h

theorem State.Canonical.restep {old new} (h : s.Canonical) : (s.restep old new).Canonical := by
  unfold State.restep
  split <;> exact h

theorem State.Canonical.answer {req e} (h : s.Canonical) : (s.answer req e).Canonical :=
  (State.answer_proceeds ..).wf h

theorem State.Canonical.ack {req} (h : s.Canonical) : (s.ack req).Canonical :=
  (State.ack_proceeds ..).wf h

theorem State.Canonical.workUp {gr} (h : s.Canonical) : (s.workUp gr).Canonical := by
  unfold State.workUp
  split
  · exact h.mapGrid
  · exact h

theorem State.Canonical.workDown {gr} (h : s.Canonical) : (s.workDown gr).Canonical := by
  unfold State.workDown
  split
  · exact h.mapGrid.push
  · exact h

theorem State.Canonical.mapRetry {k f} (h : s.Canonical) : (s.mapRetry k f).Canonical := by
  unfold State.mapRetry
  split
  · exact .ite h.mapTeam h
  · exact h

theorem State.Canonical.stamped_fst {k m} (h : s.Canonical) : (s.stamped k m).1.Canonical := by
  unfold State.stamped
  exact .workUp h

theorem State.Canonical.transmit {k m} (h : s.Canonical) : (s.transmit k m).Canonical := by
  unfold State.transmit
  exact .ite h.mapRetry h.route

theorem State.Canonical.niSend {k m} (h : s.Canonical) : (s.niSend k m).Canonical := by
  unfold State.niSend
  exact .transmit h.stamped_fst

theorem State.Canonical.niOwn {k m} (h : s.Canonical) : (s.niOwn k m).Canonical := by
  unfold State.niOwn
  exact .ite (.transmit h.stamped_fst) (.mapNi h.stamped_fst)

theorem State.Canonical.sendOwn {k} (h : s.Canonical) : (s.sendOwn k).Canonical := by
  unfold State.sendOwn
  exact h.foldl fun _ h₁ _ => .ite (.transmit h₁) h₁

theorem State.Canonical.retransmit {a m} (h : s.Canonical) : (s.retransmit a m).Canonical := by
  unfold State.retransmit
  dsimp only
  split
  · exact .ite (.inject h) h
  · exact h.route

theorem State.Canonical.giveUp {a id} (h : s.Canonical) : (s.giveUp a id).Canonical := by
  unfold State.giveUp
  refine h.foldl fun _ h₁ _ => ?_
  split
  · exact .ite h₁.freeXmit.injectCtl h₁
  · exact h₁

theorem State.Canonical.sendRoom {k sender id} (h : s.Canonical) : (s.sendRoom k sender id).Canonical := by
  unfold State.sendRoom
  refine .ite h ?_
  split
  · exact .ite (.injectCtl h) h.injectCtl
  · exact h.injectCtl

theorem State.Canonical.ctlSend {site d a1 a2 a3 a4 payload} (h : s.Canonical) :
    (s.ctlSend site d a1 a2 a3 a4 payload).Canonical := by
  unfold State.ctlSend
  split
  · exact h
  · exact .route h

theorem State.Canonical.sendCheck {site c} (h : s.Canonical) : (s.sendCheck site c).Canonical :=
  h.ctlSend.bump

theorem State.Canonical.sendChecks {site} (h : s.Canonical) : (s.sendChecks site).Canonical := by
  unfold State.sendChecks
  exact .foldl h fun _ h₁ _ => h₁.sendCheck

theorem State.Canonical.hodSend {site slice m} (h : s.Canonical) : (s.hodSend site slice m).Canonical := by
  unfold State.hodSend
  exact .route (.workUp h)

theorem State.Canonical.l2Touch {line dirty} (h : s.Canonical) : (s.l2Touch line dirty).Canonical :=
  (State.l2Touch_proceeds ..).wf h

theorem State.Canonical.evictLine {site cl e} (h : s.Canonical) : (s.evictLine site cl e).Canonical :=
  (State.evictLine_proceeds ..).wf h

theorem State.Canonical.clusterInstall {site cl line st copy} (h : s.Canonical) :
    (s.clusterInstall site cl line st copy).Canonical := by
  unfold State.clusterInstall
  dsimp only
  split
  · exact h
  · split
    · exact h
    · split
      · exact h
      · exact h.evictLine.setClusterLines

theorem State.Canonical.clusterRead {k line copy} (h : s.Canonical) : (s.clusterRead k line copy).Canonical := by
  unfold State.clusterRead
  exact .clusterInstall (.ite (h.foldl fun _ h₁ _ => h₁) (.l2Touch (h.foldl fun _ h₂ _ => h₂)))

theorem State.Canonical.l1Install {k line copy} (h : s.Canonical) : (s.l1Install k line copy).Canonical :=
  (State.l1Install_proceeds ..).wf h

theorem State.Canonical.fillLine {k line copy} (h : s.Canonical) : (s.fillLine k line copy).Canonical :=
  h.clusterRead.l1Install

theorem State.Canonical.fetchLine {k line} (h : s.Canonical) : (s.fetchLine k line).Canonical := by
  unfold State.fetchLine
  exact .ite h (.clusterRead h)

theorem State.Canonical.wroteLine {writer line} (h : s.Canonical) : (s.wroteLine writer line).Canonical :=
  (State.wroteLine_proceeds ..).wf h

theorem State.Canonical.dropLine {k line} (h : s.Canonical) : (s.dropLine k line).Canonical := by
  unfold State.dropLine
  split
  · exact h.evictLine
  · exact h

theorem State.Canonical.evictHalves {site line} (h : s.Canonical) : (s.evictHalves site line).Canonical := by
  unfold State.evictHalves
  exact .ite h h

theorem State.Canonical.loadLines {k far as} (h : s.Canonical) : (s.loadLines k far as).Canonical := by
  unfold State.loadLines
  refine h.foldl fun _ h₁ _ => ?_
  refine .ite h₁ ?_
  split
  · exact h₁.l1Install
  · exact .ite h₁ h₁.fillLine

theorem State.Canonical.dropCopiesOf {k hit} (h : s.Canonical) : (s.dropCopiesOf k hit).Canonical :=
  (State.dropCopiesOf_proceeds ..).wf h

theorem State.Canonical.dropCopies {k} (h : s.Canonical) : (s.dropCopies k).Canonical :=
  h.dropCopiesOf

theorem State.Canonical.storeCopies {k ws tags} (h : s.Canonical) : (s.storeCopies k ws tags).Canonical := by
  unfold State.storeCopies
  exact .ite h h

theorem State.Canonical.drainWay_fst {bk} (h : s.Canonical) : (s.drainWay bk).1.Canonical := by
  unfold State.drainWay
  exact .ite h h

theorem State.Canonical.checkRead {as} (h : s.Canonical) : (s.checkRead as).Canonical := by
  unfold State.checkRead
  exact .ite h h

end

end Sys2Proof.Machine
end

section
/-!
SUPPORT. Steps that keep memory in its canonical form: pending operations, contexts, traps and transactions' ends.
-/
namespace Sys2Proof.Machine

section
variable {s : State}

theorem State.Canonical.replayOn {k} (h : s.Canonical) : (s.replayOn k).Canonical := by
  unfold State.replayOn
  split
  · exact .ite h.pushOnce h
  · exact h

theorem State.Canonical.quietOn {k} (h : s.Canonical) : (s.quietOn k).Canonical :=
  (State.quietOn_proceeds ..).wf h

theorem State.Canonical.entryFreed {k} (h : s.Canonical) : (s.entryFreed k).Canonical := by
  unfold State.entryFreed
  dsimp only
  split
  · exact h.replayOn
  · exact h.replayOn.mapNi.sendRoom

theorem State.Canonical.consume {m} (h : s.Canonical) : (s.consume m).Canonical :=
  h.workDown

theorem State.Canonical.settleMsg {at_ m} (h : s.Canonical) : (s.settleMsg at_ m).Canonical := by
  unfold State.settleMsg
  exact h.foldl fun _ h₁ _ => .ite (.entryFreed (.ite (.route h₁) h₁)) (.ite (.route h₁) h₁)

theorem State.Canonical.stray {k m} (h : s.Canonical) : (s.stray k m).Canonical := by
  unfold State.stray
  exact .settleMsg (.workDown h)

theorem State.Canonical.noticeAll {k} (h : s.Canonical) : (s.noticeAll k).Canonical := by
  unfold State.noticeAll
  exact .foldl h fun _ h₁ _ => h₁.sendRoom

theorem State.Canonical.discardEntry {k e} (h : s.Canonical) : (s.discardEntry k e).Canonical := by
  unfold State.discardEntry
  exact .entryFreed (.stray h)

theorem State.Canonical.notice {tile h' code} (h : s.Canonical) : (s.notice tile h' code).Canonical :=
  (State.notice_proceeds ..).wf h

theorem State.Canonical.removeHolders {tiles code keep} (h : s.Canonical) : (s.removeHolders tiles code keep).Canonical :=
  (State.removeHolders_proceeds ..).wf h

theorem State.Canonical.dropSpec {k tx} (h : s.Canonical) : (s.dropSpec k tx).Canonical := by
  unfold State.dropSpec
  exact .ite h h

theorem State.Canonical.leaveWalks {k x} (h : s.Canonical) : (s.leaveWalks k x).Canonical :=
  (State.leaveWalks_proceeds ..).wf h

theorem State.Canonical.abortTxn {k x code arg held} (h : s.Canonical) : (s.abortTxn k x code arg held).Canonical := by
  unfold State.abortTxn
  split
  · exact h
  · exact .mapCtx (.leaveWalks (.dropSpec h))

theorem State.Canonical.deposit {k x p bytes tg} (h : s.Canonical) : (s.deposit k x p bytes tg).Canonical :=
  (State.deposit_proceeds ..).wf h

theorem State.Canonical.combineSend {k i} (h : s.Canonical) : (s.combineSend k i).Canonical :=
  (State.combineSend_proceeds ..).wf h

theorem State.Canonical.combineFlush {k x n} (h : s.Canonical) : (s.combineFlush k x n).Canonical :=
  (State.combineFlush_proceeds ..).wf h

theorem State.Canonical.writeHome {ws tags writer} (h : s.Canonical) : (s.writeHome ws tags writer).Canonical :=
  (State.writeHome_proceeds ..).wf h

theorem State.Canonical.performWrite {ws tags writer} (h : s.Canonical) : (s.performWrite ws tags writer).Canonical :=
  (State.performWrite_proceeds ..).wf h

theorem State.Canonical.settled {k x} (h : s.Canonical) : (s.settled k x).Canonical :=
  (State.settled_proceeds ..).wf h

theorem State.Canonical.afterPosted {k p} (h : s.Canonical) : (s.afterPosted k p).Canonical :=
  (State.afterPosted_proceeds ..).wf h

theorem State.Canonical.storeDone {k x p} (h : s.Canonical) : (s.storeDone k x p).Canonical :=
  (State.storeDone_proceeds ..).wf h

theorem State.Canonical.askFlush {k x mods} (h : s.Canonical) : (s.askFlush k x mods).Canonical :=
  (State.askFlush_proceeds ..).wf h

theorem State.Canonical.kick {k x} (h : s.Canonical) : (s.kick k x).Canonical :=
  (State.kick_proceeds ..).wf h

theorem State.Canonical.kickAll (h : s.Canonical) : s.kickAll.Canonical :=
  h.foldl fun _ h₁ _ => h₁.kick

theorem State.Canonical.issueLoad {dest p taint keep} (h : s.Canonical) : (s.issueLoad dest p taint keep).Canonical := by
  unfold State.issueLoad
  split
  · exact .kick h
  · refine .kick (.addOp ?_)
    split
    · exact .mapTask (.cancel h)
    · exact .mapTask (.cancel h)
    · exact .mapCore (.cancel h)
    · exact .cancel h

theorem State.Canonical.issueStore {p} (h : s.Canonical) : (s.issueStore p).Canonical := by
  unfold State.issueStore
  exact .kick (.addOp (.ite h (.storeCopies h)))

theorem State.Canonical.performStore {k x p} (h : s.Canonical) : (s.performStore k x p).Canonical :=
  h.storeDone.kick

theorem State.Canonical.hostAsk_some {site as write e} (h : s.Canonical) : SomeCanonical (s.hostAsk site as write e) := by
  unfold State.hostAsk
  extract_lets hs held need lack wait want
  have hwait : ∀ {t : State} {st}, t.Canonical → (wait t st).Canonical := id
  clear_value held lack wait
  split
  · exact State.Canonical.found (hwait (.foldl h fun _ ht _ => ht))
  · exact State.Canonical.found (hwait (.foldl h fun _ ht _ => ht))
  · exact .none

theorem State.Canonical.hostHold_some {site as write e} (h : s.Canonical) : SomeCanonical (s.hostHold site as write e) :=
  h.hostAsk_some

theorem State.Canonical.hostUse {site as write} (h : s.Canonical) : (s.hostUse site as write).Canonical :=
  h.foldl fun _ h₁ _ => h₁

theorem State.Canonical.walkUpdate {entry leaf acc} (h : s.Canonical) : (s.walkUpdate entry leaf acc).Canonical := by
  unfold State.walkUpdate
  exact .ite h h.performWrite

theorem State.Canonical.loadStripe {part leaf} (h : s.Canonical) : (s.loadStripe part leaf).Canonical := by
  unfold State.loadStripe
  exact .ite h h.mapPart

theorem State.Canonical.walkHeld_some {entry leaf acc} (h : s.Canonical) : SomeCanonical (s.walkHeld entry leaf acc) := by
  unfold State.walkHeld
  exact .ite .none (.ite h.found h.hostAsk_some)

theorem State.Canonical.agentXlate_fst {part sup frm home va acc} (h : s.Canonical) :
    (s.agentXlate part sup frm home va acc).1.Canonical := by
  unfold State.agentXlate
  split
  · exact h
  · split
    · exact h
    · dsimp only
      split
      · refine .ite_fst h.loadStripe ?_
        split
        next t e =>
          have h₁ : t.Canonical := .of_some e h.loadStripe.walkHeld_some
          exact h₁
        · exact h.loadStripe.walkUpdate
      · split
        · exact h.loadStripe
        next t e =>
          have h₂ : t.Canonical := .of_left e h.loadStripe.homeRegion_left
          split
          · refine .ite_fst h₂ ?_
            split
            next t e =>
              have h₃ : t.Canonical := .of_some e h₂.walkHeld_some
              exact h₃
            · exact h₂.walkUpdate
          · exact h₂
      · exact h.loadStripe

theorem State.Canonical.release {k x} (h : s.Canonical) : (s.release k x).Canonical := by
  unfold State.release
  exact .ite (.foldl h fun _ h₁ _ => h₁.consume.entryFreed) (.pushOnce (.foldl h fun _ h₂ _ => h₂.consume.entryFreed))

theorem State.Canonical.hold_next {e} {done : State → StepOutcome} (h : s.Canonical)
    (hdone : ∀ (t : State), t.Canonical → CanonicalNext (done t)) : CanonicalNext (s.hold e done) := by
  unfold State.hold
  refine .ite ?_ (.ite h.pushOnce.stall_next (hdone _ h))
  split
  · exact h.abortTxn.next
  · exact h.release.stall_next

theorem State.Canonical.grant {addr h'} (h : s.Canonical) : (s.grant addr h').Canonical :=
  (State.grant_proceeds ..).wf h

theorem State.Canonical.passResv {addr} (h : s.Canonical) : (s.passResv addr).Canonical :=
  (State.passResv_proceeds ..).wf h

theorem State.Canonical.endCtx {k x} (h : s.Canonical) : (s.endCtx k x).Canonical :=
  (State.endCtx_proceeds ..).wf h

theorem State.Canonical.switchBank {bk word} (h : s.Canonical) : (s.switchBank bk word).Canonical := by
  unfold State.switchBank
  exact .ite (.setBank (State.Canonical.drainWay_fst h)) h

theorem State.Canonical.unplace {uid t'} (h : s.Canonical) : (s.unplace uid t').Canonical := by
  unfold State.unplace
  extract_lets s₁ mine s₂ s₃
  have h₁ : s₁.Canonical := .foldl h fun _ ht _ => ht
  have h₃ : s₃.Canonical := h₁
  exact .foldl h₃ fun _ ht _ => .ite (.ite ht ht) (.ite ht.switchBank ht)

theorem State.Canonical.enqueueTeam {uid} (h : s.Canonical) : (s.enqueueTeam uid).Canonical := by
  unfold State.enqueueTeam
  dsimp only
  split
  · exact h
  · exact h.mapPart.pushOnce

theorem State.Canonical.enterQueue {uid gk} (h : s.Canonical) : (s.enterQueue uid gk).Canonical := by
  unfold State.enterQueue
  dsimp only
  split
  · exact .ite h.enqueueTeam h
  · exact .ite (.ite h.enqueueTeam h) (.ite h (h.foldl fun _ h₁ _ => .ite h₁.enqueueTeam h₁))

theorem State.Canonical.forgetFlags {t'} (h : s.Canonical) : (s.forgetFlags t').Canonical :=
  h.foldl fun _ h₁ _ => h₁

theorem State.Canonical.killTask {t' k x c} (h : s.Canonical) : (s.killTask t' k x c).Canonical := by
  unfold State.killTask
  exact .endCtx (.mapCtx (.foldl (.ite (.mapGrid h) h) fun _ h₁ _ => h₁.consume))

theorem State.Canonical.killTeam {uid} (h : s.Canonical) : (s.killTeam uid).Canonical := by
  unfold State.killTeam
  split
  · exact h
  · refine .ite h ?_
    exact .pushAll (.enterQueue (.mapGrid (.mapPart (.mapTeam (.forgetFlags (.foldl (h.foldl fun _ h₁ _ => .foldl (.noticeAll
        (h₁.foldl fun _ h₂ _ => h₂.killTask)) fun _ h₃ _ => h₃.stray) fun _ h₄ _ => h₄.consume.settleMsg))))))

theorem State.Canonical.finalAction {k x t' rec4} (h : s.Canonical) : (s.finalAction k x t' rec4).Canonical := by
  unfold State.finalAction
  split
  · exact .ite h h.ctlSend.killTeam
  · exact h

theorem State.Canonical.takeTrap {k x cause code pc addr keepCount} (h : s.Canonical) :
    (s.takeTrap k x cause code pc addr keepCount).Canonical := by
  unfold State.takeTrap
  refine .ite ?_ ?_
  · refine .finalAction (.endCtx (.foldl ?_ fun _ h₁ _ => h₁.consume.entryFreed))
    split
    · exact .mapGrid h
    · exact h
  · exact .ite (.finalAction (.endCtx (.foldl h fun _ h₂ _ => h₂.consume.entryFreed))) (.endCtx h)

theorem State.Canonical.unlessCopied_next {k e} {ok : StepOutcome} (h : s.Canonical) (hok : CanonicalNext ok) :
    CanonicalNext (unlessCopied k e s ok) := by
  unfold unlessCopied
  exact .ite (State.Canonical.next h) hok

theorem State.Canonical.trap_next {cause addr} (h : s.Canonical) : CanonicalNext (trap cause addr s) :=
  h.takeTrap.next

theorem State.Canonical.checked_next {c x n perms align} {ok : State → StepOutcome} (h : s.Canonical)
    (hok : ∀ (t : State), t.Canonical → CanonicalNext (ok t)) : CanonicalNext (checked c x n perms align s ok) := by
  unfold checked
  split
  · exact h.trap_next
  · exact hok _ h

theorem State.Canonical.parkHere_next {p} (h : s.Canonical) : CanonicalNext (parkHere p s) := by
  unfold parkHere
  exact .ite h.trap_next (State.Canonical.next h)

theorem State.Canonical.abort_next {code arg} (h : s.Canonical) : CanonicalNext (abort code arg s) :=
  h.abortTxn.next

theorem State.Canonical.noTxn_next {ok : State → StepOutcome} (h : s.Canonical)
    (hok : ∀ (t : State), t.Canonical → CanonicalNext (ok t)) : CanonicalNext (noTxn s ok) := by
  unfold noTxn
  exact .ite h.abort_next (hok _ h)

theorem State.Canonical.startWalk {st part m} (h : s.Canonical) : (s.startWalk st part m).Canonical := by
  unfold State.startWalk
  dsimp only
  split
  · exact .ite h h
  · split
    · exact h
    · exact .pushOnce h

theorem State.Canonical.missWalk {k x va acc} (h : s.Canonical) : (s.missWalk k x va acc).Canonical := by
  unfold State.missWalk
  exact .ite h h.startWalk

theorem State.Canonical.located_next {va acc} {ok : ℕ → Place → StepOutcome} (h : s.Canonical)
    (hok : ∀ x1 x2, CanonicalNext (ok x1 x2)) : CanonicalNext (located va acc s ok) := by
  unfold located
  split
  · exact hok _ _
  · exact h.missWalk.stall_next
  · exact h.pushOnce.stall_next
  · exact h.stall_next
  · exact h.trap_next

theorem State.Canonical.unpoisoned_next {as va} {ok : State → StepOutcome} (h : s.Canonical)
    (hok : ∀ (t : State), t.Canonical → CanonicalNext (ok t)) : CanonicalNext (unpoisoned as va s ok) := by
  unfold unpoisoned
  split
  · exact h.checkRead.trap_next
  · exact hok _ h.checkRead

theorem State.Canonical.hostReachable_next {p va} {ok : State → StepOutcome} (h : s.Canonical)
    (hok : ∀ (t : State), t.Canonical → CanonicalNext (ok t)) : CanonicalNext (hostReachable p va s ok) := by
  unfold hostReachable
  split
  · exact .ite (hok _ h) h.trap_next
  · exact hok _ h

theorem State.Canonical.track_next {va p write} {ok : State → StepOutcome} (h : s.Canonical)
    (hok : ∀ (t : State), t.Canonical → CanonicalNext (ok t)) : CanonicalNext (track va p write s ok) := by
  unfold track
  split
  · exact hok _ h
  · split
    · exact h.abort_next
    · refine .ite h.abort_next ?_
      refine h.located_next fun _ _ => ?_
      split
      · refine .ite h.abort_next ?_
        exact .ite (hok _ h) (.ite h.abort_next (.ite (hok _ h) (State.Canonical.stall_next (.routeOnce h))))
      · exact h.abort_next
    · exact hok _ h

end

end Sys2Proof.Machine
end

section
/-!
SUPPORT. Steps that keep memory in its canonical form: scalar instructions, memory accesses and transactions.
-/
namespace Sys2Proof.Machine

section
variable {s : State}

theorem State.Canonical.aluOp_next {f d a b} (h : s.Canonical) : CanonicalNext (aluOp f d a b s) := by
  unfold aluOp
  exact .ite h.stall_next h.writeInt.retire_next

theorem State.Canonical.aluOp1_next {f d a} (h : s.Canonical) : CanonicalNext (aluOp1 f d a s) := by
  unfold aluOp1
  exact .ite h.stall_next h.writeInt.retire_next

theorem State.Canonical.execAdd_next {d a b} (h : s.Canonical) : CanonicalNext (execAdd d a b s) :=
  h.aluOp_next

theorem State.Canonical.execSub_next {d a b} (h : s.Canonical) : CanonicalNext (execSub d a b s) :=
  h.aluOp_next

theorem State.Canonical.execAnd_next {d a b} (h : s.Canonical) : CanonicalNext (execAnd d a b s) :=
  h.aluOp_next

theorem State.Canonical.execOr_next {d a b} (h : s.Canonical) : CanonicalNext (execOr d a b s) :=
  h.aluOp_next

theorem State.Canonical.execXor_next {d a b} (h : s.Canonical) : CanonicalNext (execXor d a b s) :=
  h.aluOp_next

theorem State.Canonical.execAndn_next {d a b} (h : s.Canonical) : CanonicalNext (execAndn d a b s) :=
  h.aluOp_next

theorem State.Canonical.execSll_next {d a b} (h : s.Canonical) : CanonicalNext (execSll d a b s) :=
  h.aluOp_next

theorem State.Canonical.execSrl_next {d a b} (h : s.Canonical) : CanonicalNext (execSrl d a b s) :=
  h.aluOp_next

theorem State.Canonical.execSra_next {d a b} (h : s.Canonical) : CanonicalNext (execSra d a b s) :=
  h.aluOp_next

theorem State.Canonical.execRor_next {d a b} (h : s.Canonical) : CanonicalNext (execRor d a b s) :=
  h.aluOp_next

theorem State.Canonical.execMin_next {d a b} (h : s.Canonical) : CanonicalNext (execMin d a b s) :=
  h.aluOp_next

theorem State.Canonical.execMax_next {d a b} (h : s.Canonical) : CanonicalNext (execMax d a b s) :=
  h.aluOp_next

theorem State.Canonical.execMinu_next {d a b} (h : s.Canonical) : CanonicalNext (execMinu d a b s) :=
  h.aluOp_next

theorem State.Canonical.execMaxu_next {d a b} (h : s.Canonical) : CanonicalNext (execMaxu d a b s) :=
  h.aluOp_next

theorem State.Canonical.execSeq_next {d a b} (h : s.Canonical) : CanonicalNext (execSeq d a b s) :=
  h.aluOp_next

theorem State.Canonical.execSne_next {d a b} (h : s.Canonical) : CanonicalNext (execSne d a b s) :=
  h.aluOp_next

theorem State.Canonical.execSlt_next {d a b} (h : s.Canonical) : CanonicalNext (execSlt d a b s) :=
  h.aluOp_next

theorem State.Canonical.execSltu_next {d a b} (h : s.Canonical) : CanonicalNext (execSltu d a b s) :=
  h.aluOp_next

theorem State.Canonical.execClz_next {d a} (h : s.Canonical) : CanonicalNext (execClz d a s) :=
  h.aluOp1_next

theorem State.Canonical.execCtz_next {d a} (h : s.Canonical) : CanonicalNext (execCtz d a s) :=
  h.aluOp1_next

theorem State.Canonical.execPopc_next {d a} (h : s.Canonical) : CanonicalNext (execPopc d a s) :=
  h.aluOp1_next

theorem State.Canonical.execBswap_next {d a} (h : s.Canonical) : CanonicalNext (execBswap d a s) :=
  h.aluOp1_next

theorem State.Canonical.capOp_next {f d a b} (h : s.Canonical) : CanonicalNext (capOp f d a b s) := by
  unfold capOp
  exact .ite h.stall_next h.writeG.retire_next

theorem State.Canonical.capOp1_next {f d a} (h : s.Canonical) : CanonicalNext (capOp1 f d a s) := by
  unfold capOp1
  exact .ite h.stall_next h.writeG.retire_next

theorem State.Canonical.execCbound_next {d a b} (h : s.Canonical) : CanonicalNext (execCbound d a b s) :=
  h.capOp_next

theorem State.Canonical.execCperm_next {d a b} (h : s.Canonical) : CanonicalNext (execCperm d a b s) :=
  h.capOp_next

theorem State.Canonical.execCseal_next {d a b} (h : s.Canonical) : CanonicalNext (execCseal d a b s) :=
  h.capOp_next

theorem State.Canonical.execCunseal_next {d a b} (h : s.Canonical) : CanonicalNext (execCunseal d a b s) :=
  h.capOp_next

theorem State.Canonical.execCinc_next {d a b} (h : s.Canonical) : CanonicalNext (execCinc d a b s) :=
  h.capOp_next

theorem State.Canonical.execCbase_next {d a} (h : s.Canonical) : CanonicalNext (execCbase d a s) :=
  h.capOp1_next

theorem State.Canonical.execClen_next {d a} (h : s.Canonical) : CanonicalNext (execClen d a s) :=
  h.capOp1_next

theorem State.Canonical.execCgperm_next {d a} (h : s.Canonical) : CanonicalNext (execCgperm d a s) :=
  h.capOp1_next

theorem State.Canonical.execCtag_next {d a} (h : s.Canonical) : CanonicalNext (execCtag d a s) :=
  h.capOp1_next

theorem State.Canonical.execCclr_next {d a} (h : s.Canonical) : CanonicalNext (execCclr d a s) :=
  h.capOp1_next

theorem State.Canonical.execCsub_next {d a b} (h : s.Canonical) : CanonicalNext (execCsub d a b s) :=
  h.capOp_next

theorem State.Canonical.execCinci_next {d a i} (h : s.Canonical) : CanonicalNext (execCinci d a i s) :=
  h.capOp1_next

theorem State.Canonical.execCboundi_next {d a i} (h : s.Canonical) : CanonicalNext (execCboundi d a i s) :=
  h.capOp1_next

theorem State.Canonical.execTget_next {d a} (h : s.Canonical) : CanonicalNext (execTget d a s) :=
  h.writeInt.retire_next

theorem State.Canonical.execTmrg_next {d a} (h : s.Canonical) : CanonicalNext (execTmrg d a s) := by
  unfold execTmrg
  exact .ite h.stall_next (State.Canonical.retire_next h)

theorem State.Canonical.execTclr_next {d} (h : s.Canonical) : CanonicalNext (execTclr d s) := by
  unfold execTclr
  exact .ite h.stall_next (State.Canonical.retire_next h)

theorem State.Canonical.execTwait_next {a} (h : s.Canonical) : CanonicalNext (execTwait a s) := by
  unfold execTwait
  exact .ite h.stall_next h.retire_next

theorem State.Canonical.releasePoint (h : s.Canonical) : s.releasePoint.Canonical := by
  unfold State.releasePoint
  exact .ite h h.release

theorem State.Canonical.bindReady_next {as} {ok : State → StepOutcome} (h : s.Canonical)
    (hok : ∀ (t : State), t.Canonical → CanonicalNext (ok t)) : CanonicalNext (bindReady as s ok) := by
  unfold bindReady
  exact .ite h.stall_next (hok _ h)

theorem State.Canonical.bindNow {dest fin taint bytes tg} (h : s.Canonical) : (s.bindNow dest fin taint bytes tg).Canonical := by
  unfold State.bindNow
  refine .deposit ?_
  split
  · exact h.cancel.mapTask
  · exact h.cancel.mapTask
  · exact h.cancel.mapCore
  · exact h.cancel

theorem State.Canonical.hostServed_next {p as} {ok : State → StepOutcome} (h : s.Canonical)
    (hok : ∀ (t : State), t.Canonical → CanonicalNext (ok t)) : CanonicalNext (hostServed p as s ok) := by
  unfold hostServed
  dsimp only
  split
  · split
    next t e =>
      have h₁ : t.Canonical := .of_some e h.hostAsk_some
      exact h₁.stall_next
    · exact hok _ h.hostUse
  · split
    next t e =>
      have h₂ : t.Canonical := .of_some e h.hostAsk_some
      exact h₂.stall_next
    · exact hok _ h.hostUse
  · exact hok _ h

theorem State.Canonical.loadFrom_next {dest fin c va n acq} (h : s.Canonical) : CanonicalNext (loadFrom dest fin c va n acq s) := by
  unfold loadFrom
  refine h.located_next fun _ _ => h.hostReachable_next fun _ h₁ => h₁.unpoisoned_next fun _ h₂ => ?_
  refine .ite ?_ ?_
  · exact h₂.track_next fun _ h₃ => h₃.hostServed_next fun _ h₄ => h₄.bindReady_next fun _ h₅ => .ite h₅.stall_next
        h₅.loadLines.bindNow.retire_next
  · exact State.Canonical.retire_next (.issueLoad (.ite h₂.releasePoint h₂))

theorem State.Canonical.loadInt_next {n sgn t' b i} (h : s.Canonical) : CanonicalNext (loadInt n sgn t' b i s) := by
  unfold loadInt
  exact .ite h.stall_next (h.checked_next fun _ h₁ => h₁.loadFrom_next)

theorem State.Canonical.specWrite {ws tags} (h : s.Canonical) : (s.specWrite ws tags).Canonical := by
  unfold State.specWrite
  exact .mapTask (h.foldl fun _ h₁ _ => h₁.l1Install)

theorem State.Canonical.storePlain_next {va as p data tags taint rel} {done : State → StepOutcome} (h : s.Canonical)
    (hdone : ∀ (t : State), t.Canonical → CanonicalNext (done t)) : CanonicalNext (storePlain va as p data tags taint rel s done) :=
  h.hostReachable_next fun _ h₁ => .ite h₁.stall_next (hdone _ h₁.issueStore)

theorem State.Canonical.storeTo_next {va as p data tags taint rel} {done : State → StepOutcome} (h : s.Canonical)
    (hdone : ∀ (t : State), t.Canonical → CanonicalNext (done t)) : CanonicalNext (storeTo va as p data tags taint rel s done) := by
  unfold storeTo
  refine .ite ?_ (h.storePlain_next hdone)
  exact h.hostReachable_next fun _ h₁ => h₁.track_next fun _ h₂ => .ite h₂.stall_next (hdone _ h₂.specWrite)

theorem State.Canonical.storeInt_next {n t' b i} (h : s.Canonical) : CanonicalNext (storeInt n t' b i s) := by
  unfold storeInt
  refine .ite h.stall_next ?_
  exact h.checked_next fun _ h₁ => h₁.located_next fun _ _ => h₁.storeTo_next fun _ h₂ => h₂.retire_next

theorem State.Canonical.execLdB_next {t' b i} (h : s.Canonical) : CanonicalNext (execLdB t' b i s) :=
  h.loadInt_next

theorem State.Canonical.execLdBu_next {t' b i} (h : s.Canonical) : CanonicalNext (execLdBu t' b i s) :=
  h.loadInt_next

theorem State.Canonical.execLdH_next {t' b i} (h : s.Canonical) : CanonicalNext (execLdH t' b i s) :=
  h.loadInt_next

theorem State.Canonical.execLdHu_next {t' b i} (h : s.Canonical) : CanonicalNext (execLdHu t' b i s) :=
  h.loadInt_next

theorem State.Canonical.execLdW_next {t' b i} (h : s.Canonical) : CanonicalNext (execLdW t' b i s) :=
  h.loadInt_next

theorem State.Canonical.execLdWu_next {t' b i} (h : s.Canonical) : CanonicalNext (execLdWu t' b i s) :=
  h.loadInt_next

theorem State.Canonical.execLdD_next {t' b i} (h : s.Canonical) : CanonicalNext (execLdD t' b i s) :=
  h.loadInt_next

theorem State.Canonical.execStB_next {t' b i} (h : s.Canonical) : CanonicalNext (execStB t' b i s) :=
  h.storeInt_next

theorem State.Canonical.execStH_next {t' b i} (h : s.Canonical) : CanonicalNext (execStH t' b i s) :=
  h.storeInt_next

theorem State.Canonical.execStW_next {t' b i} (h : s.Canonical) : CanonicalNext (execStW t' b i s) :=
  h.storeInt_next

theorem State.Canonical.execStD_next {t' b i} (h : s.Canonical) : CanonicalNext (execStD t' b i s) :=
  h.storeInt_next

theorem State.Canonical.execLdc_next {t' b i} (h : s.Canonical) : CanonicalNext (execLdc t' b i s) := by
  unfold execLdc
  exact .ite h.stall_next (h.checked_next fun _ h₁ => h₁.loadFrom_next)

theorem State.Canonical.execStc_next {t' b i} (h : s.Canonical) : CanonicalNext (execStc t' b i s) := by
  unfold execStc
  refine .ite h.stall_next ?_
  exact h.checked_next fun _ h₁ => .ite h₁.trap_next (h₁.located_next fun _ _ => h₁.storeTo_next fun _ h₂ => h₂.retire_next)

theorem State.Canonical.execLda_next {t' b sc z x} (h : s.Canonical) : CanonicalNext (execLda t' b sc z x s) := by
  unfold execLda
  exact .ite h.abort_next (.ite h.stall_next (h.checked_next fun _ h₁ => h₁.loadFrom_next))

theorem State.Canonical.execStl_next {t' b sc z} (h : s.Canonical) : CanonicalNext (execStl t' b sc z s) := by
  unfold execStl
  refine .ite h.abort_next ?_
  refine .ite h.stall_next ?_
  exact h.checked_next fun _ h₁ => h₁.located_next fun _ _ => h₁.storeTo_next fun _ h₂ => h₂.retire_next

theorem State.Canonical.beginFlush {k x upto} (h : s.Canonical) : (s.beginFlush k x upto).Canonical := by
  unfold State.beginFlush
  exact .askFlush h

theorem State.Canonical.execFence_next {sc} (h : s.Canonical) : CanonicalNext (execFence sc s) := by
  unfold execFence
  refine .ite h.abort_next ?_
  refine .ite ?_ ?_
  · exact State.Canonical.stall_next (.ite h.combineFlush.pushOnce h.combineFlush)
  · refine .ite ?_ ?_
    · exact State.Canonical.stall_next (.ite h.combineFlush.beginFlush h.combineFlush)
    · exact State.Canonical.retire_next (.ite h.combineFlush.mapTask.dropCopies h.combineFlush.mapTask)

theorem State.Canonical.execFenceSs_next {sc} (h : s.Canonical) : CanonicalNext (execFenceSs sc s) := by
  unfold execFenceSs
  exact .ite h.abort_next (State.Canonical.retire_next (.kick h))

theorem State.Canonical.execPref_next {a} (h : s.Canonical) : CanonicalNext (execPref a s) := by
  unfold execPref
  refine .ite h.stall_next ?_
  refine .ite h.retire_next ?_
  refine .ite h.retire_next ?_
  split
  · exact .ite (State.Canonical.retire_next (.kick h)) h.retire_next
  · exact h.retire_next

theorem State.Canonical.cacheOp_next {a} (h : s.Canonical) : CanonicalNext (cacheOp a s) := by
  unfold cacheOp
  refine .ite h.retire_next ?_
  refine .ite h.stall_next ?_
  refine h.checked_next fun _ h₁ => ?_
  refine .ite h₁.stall_next ?_
  split
  · exact h₁.retire_next
  · refine h₁.located_next fun _ _ => ?_
    refine .ite h₁.retire_next ?_
    refine .ite h₁.dropLine.evictHalves.retire_next ?_
    exact .ite h₁.stall_next h₁.dropLine.evictHalves.countOp.addOp.kick.retire_next

theorem State.Canonical.execCflush_next {a} (h : s.Canonical) : CanonicalNext (execCflush a s) :=
  h.cacheOp_next

theorem State.Canonical.execCinv_next {a} (h : s.Canonical) : CanonicalNext (execCinv a s) :=
  h.cacheOp_next

theorem State.Canonical.execCzero_next {a} (h : s.Canonical) : CanonicalNext (execCzero a s) := by
  unfold execCzero
  refine .ite h.stall_next ?_
  exact h.checked_next fun _ h₁ => h₁.located_next fun _ _ => h₁.storeTo_next fun _ h₂ => h₂.retire_next

theorem State.Canonical.locatePieces_next {acc xs} {ok : List Located → StepOutcome} (h : s.Canonical)
    (hok : ∀ ls, CanonicalNext (ok ls)) :
    CanonicalNext (locatePieces acc xs s ok) := by
  induction xs generalizing ok with
  | nil => exact hok _
  | cons x xs ih => exact h.located_next fun _ _ => ih fun _ => hok _

theorem State.Canonical.eachPiece_next {ls} {f : Located → State → (State → StepOutcome) → StepOutcome} {ok : State → StepOutcome}
    (h : s.Canonical)
    (hf : ∀ l (t : State), t.Canonical → ∀ k, (∀ u : State, u.Canonical → CanonicalNext (k u)) → CanonicalNext (f l t k))
    (hok : ∀ t : State, t.Canonical → CanonicalNext (ok t)) : CanonicalNext (eachPiece f ls s ok) :=
  CanonicalNext.foldr (fun l k hk t ht => hf l t ht k hk) hok ls s h

theorem State.Canonical.notePoison_next {as va} {ok : State → StepOutcome} (h : s.Canonical)
    (hok : ∀ (t : State), t.Canonical → CanonicalNext (ok t)) : CanonicalNext (notePoison as va s ok) := by
  unfold notePoison
  split
  · exact hok _ h.checkRead.mapTask
  · exact hok _ h.checkRead

theorem State.Canonical.readPiecesBy_next {ls rel trk} {guard : List ℕ → Word → State → (State → StepOutcome) → StepOutcome}
    {ok : List ℕ → List Byte → State → StepOutcome} (h : s.Canonical)
    (hguard : ∀ x1 x2 (t : State), t.Canonical → ∀ k, (∀ (t : State), t.Canonical → CanonicalNext (k t)) → CanonicalNext (guard x1
        x2 t k))
    (hok : ∀ x1 x2 (t : State), t.Canonical → CanonicalNext (ok x1 x2 t)) : CanonicalNext (readPiecesBy guard ls rel trk s ok) := by
  unfold readPiecesBy
  exact h.eachPiece_next (fun _ _ h₁ _ h₂ => h₁.hostReachable_next h₂) fun _ h₃ => h₃.eachPiece_next (fun _ _ h₄ _ h₅ => hguard _ _
      _ h₄ _ fun _ h₆ => h₆.bindReady_next fun _ h₇ => h₇.hostServed_next h₅) fun _ h₈ => h₈.eachPiece_next (fun _ _ h₉ _ h₁₀ =>
      .ite (h₉.track_next h₁₀) (.ite h₉.stall_next (h₁₀ _ h₉))) fun _ h₁₁ => hok _ _ _ (.foldl (.ite h₁₁ h₁₁) fun _ h₁₂ _ => .ite
      h₁₂.loadLines h₁₂)

theorem State.Canonical.readPieces_next {ls rel trk} {ok : List ℕ → List Byte → State → StepOutcome} (h : s.Canonical)
    (hok : ∀ x1 x2 (t : State), t.Canonical → CanonicalNext (ok x1 x2 t)) : CanonicalNext (readPieces ls rel trk s ok) :=
  h.readPiecesBy_next (fun _ _ _ h₁ _ h₂ => h₁.unpoisoned_next h₂) hok

theorem State.Canonical.readNow_next {va n rel trk} {ok : List ℕ → List Byte → State → StepOutcome} (h : s.Canonical)
    (hok : ∀ x1 x2 (t : State), t.Canonical → CanonicalNext (ok x1 x2 t)) : CanonicalNext (readNow va n rel trk s ok) :=
  h.locatePieces_next fun _ => h.readPieces_next hok

theorem State.Canonical.storeSpan_next {va data taint trk} {done : State → StepOutcome} (h : s.Canonical)
    (hdone : ∀ t : State, t.Canonical → CanonicalNext (done t)) : CanonicalNext (storeSpan va data taint trk s done) := by
  refine CanonicalNext.foldr (fun ⟨_, _, _⟩ _ hk _ ht => ht.located_next fun _ _ => ?_) hdone _ s h
  split
  · exact ht.storeTo_next hk
  · exact ht.storePlain_next hk

theorem State.Canonical.dueRelease (h : s.Canonical) : s.dueRelease.Canonical := by
  unfold State.dueRelease
  exact .ite (.releasePoint h) h

theorem State.Canonical.popsDone (h : s.Canonical) : s.popsDone.Canonical := by
  unfold State.popsDone
  exact .ite h.dueRelease (h.dueRelease.mapTask.foldl fun _ h₁ _ => h₁.bindSlot)

theorem State.Canonical.rollback_next {o : StepOutcome} (h : s.Canonical) (ho : CanonicalNext o) :
    CanonicalNext (rollback s o) := by
  unfold rollback
  split
  next s' =>
    have hs' : s'.Canonical := ho _ rfl
    have hb : State.Canonical (if s'.task.send == s.task.send then s else s.release s.cur s.ctx) := .ite h h.release
    extract_lets parked b
    split
    · exact h.trap_next
    · exact .ite (State.Canonical.next (.mapTask (hb.of_mem rfl))) hs'.popsDone.mapTask.next
  · exact ho

theorem State.Canonical.blockRetire_next {moves n left len desc} (h : s.Canonical) :
    CanonicalNext (blockRetire moves n left len desc s) := by
  unfold blockRetire
  refine .ite ?_ ?_
  · exact State.Canonical.retire_next (.mapTask (.ite h.writeG (h.writeG.foldl fun _ h₁ _ => h₁.writeG)))
  · exact State.Canonical.next (.mapTask (.ite h.writeG (h.writeG.foldl fun _ h₂ _ => h₂.writeG)))

theorem State.Canonical.execBmov_next {d r n} (h : s.Canonical) : CanonicalNext (execBmov d r n s) := by
  unfold execBmov
  refine .ite h.stall_next ?_
  refine .ite h.retire_next ?_
  refine h.checked_next fun _ h₁ => h₁.checked_next fun _ h₂ => ?_
  refine .ite h₂.stall_next ?_
  exact h₂.located_next fun _ _ => h₂.readNow_next fun _ _ _ h₃ => h₃.storeTo_next fun _ h₄ => h₄.blockRetire_next

theorem State.Canonical.execBfill_next {d p n} (h : s.Canonical) : CanonicalNext (execBfill d p n s) := by
  unfold execBfill
  refine .ite h.stall_next ?_
  refine .ite h.retire_next ?_
  exact h.checked_next fun _ h₁ => .ite h₁.stall_next (h₁.located_next fun _ _ => h₁.storeTo_next fun _ h₂ => h₂.blockRetire_next)

theorem State.Canonical.issueAmo {dest p r taint ret} (h : s.Canonical) : (s.issueAmo dest p r taint ret).Canonical := by
  unfold State.issueAmo
  refine .ite ?_ ?_
  · refine .kick (.addOp ?_)
    split
    · exact .mapTask (.cancel (.ite (.releasePoint (.ite h h.dropCopiesOf)) (.mapTask (.releasePoint (.ite h h.dropCopiesOf)))))
    · exact .cancel (.ite (.releasePoint (.ite h h.dropCopiesOf)) (.mapTask (.releasePoint (.ite h h.dropCopiesOf))))
  · exact .kick (.addOp (.ite (.ite h h.dropCopiesOf) (.countOp (.ite h h.dropCopiesOf))))

theorem State.Canonical.txnReach_next {p} {ok : State → StepOutcome} (h : s.Canonical)
    (hok : ∀ (t : State), t.Canonical → CanonicalNext (ok t)) : CanonicalNext (txnReach p s ok) := by
  unfold txnReach
  refine .ite (hok _ h) ?_
  split
  · exact h.abort_next
  · exact .ite h.abort_next (hok _ h)

theorem State.Canonical.amo_next {op d a b v} (h : s.Canonical) : CanonicalNext (amo op d a b v s) := by
  unfold amo
  refine .ite h.stall_next ?_
  refine h.checked_next fun _ h₁ => h₁.located_next fun _ _ => ?_
  split
  · exact h₁.trap_next
  · refine h₁.hostReachable_next fun _ h₂ => h₂.unpoisoned_next fun _ h₃ => ?_
    refine .ite ?_ ?_
    · exact h₃.track_next fun _ h₄ => h₄.track_next fun _ h₅ => h₅.bindReady_next fun _ h₆ => .ite h₆.stall_next
          h₆.specWrite.writeInt.retire_next
    · exact h₃.txnReach_next fun _ h₇ => .ite h₇.stall_next h₇.issueAmo.retire_next

theorem State.Canonical.execAadd_next {d a b v} (h : s.Canonical) : CanonicalNext (execAadd d a b v s) :=
  h.amo_next

theorem State.Canonical.execAand_next {d a b v} (h : s.Canonical) : CanonicalNext (execAand d a b v s) :=
  h.amo_next

theorem State.Canonical.execAor_next {d a b v} (h : s.Canonical) : CanonicalNext (execAor d a b v s) :=
  h.amo_next

theorem State.Canonical.execAxor_next {d a b v} (h : s.Canonical) : CanonicalNext (execAxor d a b v s) :=
  h.amo_next

theorem State.Canonical.execAmin_next {d a b v} (h : s.Canonical) : CanonicalNext (execAmin d a b v s) :=
  h.amo_next

theorem State.Canonical.execAmax_next {d a b v} (h : s.Canonical) : CanonicalNext (execAmax d a b v s) :=
  h.amo_next

theorem State.Canonical.execAminu_next {d a b v} (h : s.Canonical) : CanonicalNext (execAminu d a b v s) :=
  h.amo_next

theorem State.Canonical.execAmaxu_next {d a b v} (h : s.Canonical) : CanonicalNext (execAmaxu d a b v s) :=
  h.amo_next

theorem State.Canonical.execAswap_next {d a b v} (h : s.Canonical) : CanonicalNext (execAswap d a b v s) :=
  h.amo_next

theorem State.Canonical.execAcas_next {d a b v} (h : s.Canonical) : CanonicalNext (execAcas d a b v s) :=
  h.amo_next

theorem State.Canonical.execAfadd_next {d a b v} (h : s.Canonical) : CanonicalNext (execAfadd d a b v s) :=
  h.amo_next

theorem State.Canonical.resvWord_next {c perms acc} {ok : ℕ → Place → State → StepOutcome} (h : s.Canonical)
    (hok : ∀ x1 x2 (t : State), t.Canonical → CanonicalNext (ok x1 x2 t)) : CanonicalNext (resvWord c perms acc s ok) := by
  unfold resvWord
  refine h.checked_next fun _ h₁ => h₁.located_next fun _ _ => ?_
  split
  · exact hok _ _ _ h₁
  · exact h₁.trap_next

theorem State.Canonical.execLrw_next {d a} (h : s.Canonical) : CanonicalNext (execLrw d a s) := by
  unfold execLrw
  refine h.noTxn_next fun _ h₁ => ?_
  refine .ite h₁.stall_next ?_
  exact h₁.resvWord_next fun _ _ _ h₂ => .ite h₂.stall_next (h₂.unpoisoned_next fun _ h₃ => h₃.issueLoad.mapTask.next)

theorem State.Canonical.execSc_next {d a b} (h : s.Canonical) : CanonicalNext (execSc d a b s) := by
  unfold execSc
  refine h.noTxn_next fun _ h₁ => ?_
  refine .ite h₁.stall_next ?_
  exact h₁.resvWord_next fun _ _ _ h₂ => .ite h₂.stall_next h₂.cancel.mapTask.addOp.kick.retire_next

theorem State.Canonical.xred_next {op a b w} (h : s.Canonical) : CanonicalNext (xred op a b w s) := by
  unfold xred
  refine .ite h.stall_next ?_
  refine h.checked_next fun _ h₁ => h₁.located_next fun _ _ => ?_
  split
  · exact h₁.trap_next
  · refine h₁.hostReachable_next fun _ h₂ => h₂.unpoisoned_next fun _ h₃ => ?_
    refine .ite h₃.stall_next ?_
    split
    · refine h₃.txnReach_next fun _ h₄ => ?_
      split
      · exact h₄.abort_next
      · exact State.Canonical.retire_next h₄
    · exact .ite h₃.stall_next h₃.issueAmo.retire_next

theorem State.Canonical.execXredAdd_next {a b w} (h : s.Canonical) : CanonicalNext (execXredAdd a b w s) :=
  h.xred_next

theorem State.Canonical.execXredFadd_next {a b w} (h : s.Canonical) : CanonicalNext (execXredFadd a b w s) :=
  h.xred_next

theorem State.Canonical.execXredMin_next {a b w} (h : s.Canonical) : CanonicalNext (execXredMin a b w s) :=
  h.xred_next

theorem State.Canonical.execXredMax_next {a b w} (h : s.Canonical) : CanonicalNext (execXredMax a b w s) :=
  h.xred_next

theorem State.Canonical.execXbegin_next {d} (h : s.Canonical) : CanonicalNext (execXbegin d s) := by
  unfold execXbegin
  refine .ite h.stall_next ?_
  split
  · exact .ite h.abort_next (State.Canonical.retire_next (.writeInt h))
  · refine State.Canonical.retire_next (.writeInt (.mapTask ?_))
    split <;> exact h

theorem State.Canonical.execXend_next (h : s.Canonical) : CanonicalNext (execXend s) := by
  unfold execXend
  split
  · exact h.trap_next
  · refine .ite (State.Canonical.retire_next h) ?_
    refine .ite ?_ ?_
    · exact State.Canonical.stall_next (.ite h.combineFlush.pushOnce h.combineFlush)
    · exact State.Canonical.stall_next (.ite h.combineFlush.mapTask.push (h.combineFlush.mapTask.foldl fun _ h₁ _ => h₁.route))

theorem State.Canonical.execXabort_next {k} (h : s.Canonical) : CanonicalNext (execXabort k s) := by
  unfold execXabort
  exact .ite h.abort_next h.retire_next

theorem State.Canonical.execXtest_next {d} (h : s.Canonical) : CanonicalNext (execXtest d s) :=
  h.writeInt.retire_next

theorem State.Canonical.abortHolder {tile h' code} (h : s.Canonical) : (s.abortHolder tile h' code).Canonical := by
  unfold State.abortHolder
  exact .notice h

theorem State.Canonical.arbitrate {q tile write} (h : s.Canonical) : (s.arbitrate q tile write).Canonical := by
  unfold State.arbitrate
  dsimp only
  split
  · exact .ite h (.ite h.abortHolder.recordTile h.abortHolder)
  · refine .ite ?_ ?_
    · exact .ite (.recordTile (h.foldl fun _ h₁ _ => h₁.abortHolder)) h.abortHolder
    · refine .ite h ?_
      split
      · exact .ite h.abortHolder h.abortHolder.recordTile
      · exact h

theorem State.Canonical.execTxArbitration_next {core ctx tile write} (h : s.Canonical) :
    CanonicalNext (execTxArbitration core ctx tile write s) := by
  unfold execTxArbitration
  split
  · exact h.next
  · refine .ite h.next ?_
    extract_lets
    split
    next t e =>
      have h₁ : t.Canonical := .of_some e (State.Canonical.hostHold_some (.ite h h))
      exact h₁.next
    · refine .ite (State.Canonical.next (.ite h h)) ?_
      exact .ite (State.Canonical.next (.abortHolder (.ite h h))) (State.Canonical.next (.arbitrate (.ite h h)))

theorem State.Canonical.execAbortNotice_next {core ctx code} (h : s.Canonical) :
    CanonicalNext (execAbortNotice core ctx code s) := by
  unfold execAbortNotice
  dsimp only
  split
  · exact h.next
  · exact .ite h.next (.ite h.abortTxn.next h.next)

theorem State.Canonical.execTxLock_next {core ctx home} (h : s.Canonical) : CanonicalNext (execTxLock core ctx home s) := by
  unfold execTxLock
  split
  · exact h.next
  · split
    · exact h.abortTxn.next
    · exact .ite h.next (.ite (State.Canonical.next h) (State.Canonical.next (.ite h h)))
    · exact h.next

theorem State.Canonical.applyRed {k x e p} (h : s.Canonical) : (s.applyRed k x e p).Canonical := by
  unfold State.applyRed
  exact h.asCtx fun _ h₁ => h₁.issueAmo

theorem State.Canonical.installLines {k lines} (h : s.Canonical) : (s.installLines k lines).Canonical := by
  unfold State.installLines
  exact .foldl (h.foldl fun _ h₁ _ => h₁.wroteLine) fun _ h₂ _ => h₂.clusterInstall.l1Install

theorem State.Canonical.execTxInstall_next {core ctx} (h : s.Canonical) : CanonicalNext (execTxInstall core ctx s) := by
  unfold execTxInstall
  split
  · exact h.next
  · refine .ite h.next ?_
    extract_lets s₁ s₂ s₃ s₄ s₅ s₆
    have h₂ : s₂.Canonical := .foldl h.writeMem fun _ ht _ => ht
    have h₄ : s₄.Canonical := h₂
    have h₆ : s₆.Canonical := .foldl h₄.installLines fun _ ht _ => ht.applyRed
    exact h₆.release.kickAll.next

theorem State.Canonical.execVersionedEviction_next {core ctx tile} (h : s.Canonical) :
    CanonicalNext (execVersionedEviction core ctx tile s) := by
  unfold execVersionedEviction
  split
  · exact h.next
  · refine .ite h.next ?_
    refine .ite (State.Canonical.next h) ?_
    split
    · exact h.next
    · exact .ite (State.Canonical.next (.mapCtx (.mapCtx (h.foldl fun _ h₁ _ => h₁.abortHolder)))) h.abortHolder.next

theorem State.Canonical.execTicketBeacon_next {site} (h : s.Canonical) : CanonicalNext (execTicketBeacon site s) :=
  State.Canonical.next (h.foldl fun _ h₁ _ => h₁.route)

theorem State.Canonical.execTicketAdvance_next {site counter} (h : s.Canonical) :
    CanonicalNext (execTicketAdvance site counter s) :=
  State.Canonical.next h

theorem State.Canonical.endRows {hod} (h : s.Canonical) : (s.endRows hod).Canonical :=
  h.foldl fun _ h₁ _ => h₁

theorem State.Canonical.execRowRead_next {hod tiles} (h : s.Canonical) : CanonicalNext (execRowRead hod tiles s) := by
  unfold execRowRead
  split
  · exact State.Canonical.next h
  · exact State.Canonical.next (.ite h h)

end

end Sys2Proof.Machine
end

section
/-!
SUPPORT. Steps that keep memory in its canonical form: streams, messages, mailboxes, walks and the hod.
-/
namespace Sys2Proof.Machine

section
variable {s : State}

theorem State.Canonical.execSbind_next {k n} (h : s.Canonical) : CanonicalNext (execSbind k n s) := by
  unfold execSbind
  exact .ite h.trap_next (.ite h.stall_next (.ite h.trap_next (State.Canonical.retire_next h)))

theorem State.Canonical.execSbindr_next {k n r} (h : s.Canonical) : CanonicalNext (execSbindr k n r s) := by
  unfold execSbindr
  refine .ite h.trap_next ?_
  refine .ite h.stall_next ?_
  refine .ite (State.Canonical.trap_next h) ?_
  refine .ite (State.Canonical.trap_next h) ?_
  refine .ite (State.Canonical.trap_next h) ?_
  refine .ite (State.Canonical.stall_next h) ?_
  refine State.Canonical.rollback_next h (State.Canonical.readNow_next h fun _ _ _ h₁ => ?_)
  dsimp only
  split
  next t _ e =>
    have h₂ : t.Canonical := .of_fst e h₁.agentXlate_fst
    exact State.Canonical.stall_next (.ite h₂ h₂.missWalk)
  next t _ e =>
    have h₃ : t.Canonical := .of_fst e h₁.agentXlate_fst
    refine h₃.unpoisoned_next fun _ h₄ => ?_
    refine .ite h₄.stall_next ?_
    exact h₄.hostServed_next fun _ h₅ => .ite (State.Canonical.trap_next h₅) (.ite h₅.trap_next
        h₅.writeG.writeInt.writeG.bindStream.retire_next)

theorem State.Canonical.sfifo_next {prod k n} (h : s.Canonical) : CanonicalNext (sfifo prod k n s) := by
  unfold sfifo
  refine .ite h.trap_next ?_
  refine .ite h.stall_next ?_
  refine .ite h.trap_next ?_
  refine .ite h.trap_next ?_
  split
  · exact h.trap_next
  · exact h.writeG.writeG.bindStream.retire_next

theorem State.Canonical.execSfifoCons_next {k n} (h : s.Canonical) : CanonicalNext (execSfifoCons k n s) :=
  h.sfifo_next

theorem State.Canonical.execSfifoProd_next {k n} (h : s.Canonical) : CanonicalNext (execSfifoProd k n s) :=
  h.sfifo_next

theorem State.Canonical.execSunbind_next {k} (h : s.Canonical) : CanonicalNext (execSunbind k s) :=
  State.Canonical.retire_next h

theorem State.Canonical.moveFifo {bk isHead n} (h : s.Canonical) : (s.moveFifo bk isHead n).Canonical := by
  unfold State.moveFifo
  exact .ite h h

theorem State.Canonical.settleFifo {bk} (h : s.Canonical) : (s.settleFifo bk).Canonical := by
  unfold State.settleFifo
  exact .ite h h

theorem State.Canonical.execSadv_next {k} (h : s.Canonical) : CanonicalNext (execSadv k s) := by
  unfold execSadv
  refine h.noTxn_next fun _ h₁ => ?_
  split
  · refine .ite h₁.stall_next ?_
    refine .ite h₁.release.mapTask.pushOnce.mapTask.retire_next ?_
    exact .ite (State.Canonical.retire_next h₁) (h₁.hold_next fun _ h₂ => State.Canonical.retire_next h₂)
  · exact h₁.trap_next

theorem State.Canonical.execSstat_next {d k} (h : s.Canonical) : CanonicalNext (execSstat d k s) := by
  unfold execSstat
  split
  · exact h.trap_next
  · split
    · exact h.writeInt.retire_next
    · exact .ite h.stall_next h.writeInt.retire_next

theorem State.Canonical.streaming_next {pops app wide} {run : StepOutcome} (h : s.Canonical) (hrun : CanonicalNext run) :
    CanonicalNext (streaming pops app wide s run) := by
  unfold streaming
  exact .ite h.stall_next (.ite h.trap_next (.ite h.abort_next (h.rollback_next hrun)))

theorem State.Canonical.checkedAll_next {c xs} {ok : State → StepOutcome} (h : s.Canonical)
    (hok : ∀ (t : State), t.Canonical → CanonicalNext (ok t)) : CanonicalNext (checkedAll c xs s ok) := by
  unfold checkedAll
  split
  · exact h.trap_next
  · exact hok _ h

theorem State.Canonical.popMemory_next {b rel} {ok : Elem → State → StepOutcome} (h : s.Canonical)
    (hok : ∀ x1 (t : State), t.Canonical → CanonicalNext (ok x1 t)) : CanonicalNext (popMemory b rel s ok) := by
  unfold popMemory
  refine .ite (hok _ _ h) ?_
  refine .ite h.stall_next ?_
  exact h.checkedAll_next fun _ h₁ => h₁.checkedAll_next fun _ h₂ => h₂.locatePieces_next fun _ => h₂.readPiecesBy_next (fun _ _ _
      h₃ _ h₄ => h₃.notePoison_next h₄) fun _ _ _ h₅ => hok _ _ h₅

theorem State.Canonical.fifoWait_next {p} (h : s.Canonical) : CanonicalNext (fifoWait p s) :=
  h.noTxn_next fun _ h₁ => h₁.parkHere_next

theorem State.Canonical.popFifo_next {b bk wide} {ok : Elem → State → StepOutcome} (h : s.Canonical)
    (hok : ∀ x1 (t : State), t.Canonical → CanonicalNext (ok x1 t)) : CanonicalNext (popFifo b bk wide s ok) := by
  unfold popFifo
  refine .ite (hok _ _ h) ?_
  refine .ite h.stall_next ?_
  refine h.checkedAll_next fun _ h₁ => ?_
  refine .ite h₁.fifoWait_next ?_
  exact h₁.locatePieces_next fun _ => h₁.readPiecesBy_next (fun _ _ _ h₂ _ h₃ => h₂.notePoison_next h₃) fun _ _ _ h₄ => hok _ _ h₄

theorem State.Canonical.pop_next {k wide} {ok : Elem → State → StepOutcome} (h : s.Canonical)
    (hok : ∀ x1 (t : State), t.Canonical → CanonicalNext (ok x1 t)) : CanonicalNext (pop k wide s ok) := by
  unfold pop
  split
  · exact h.trap_next
  · split
    · exact h.popMemory_next hok
    · exact h.popFifo_next hok

theorem State.Canonical.append_next {k bytes taint} {ok : State → StepOutcome} (h : s.Canonical)
    (hok : ∀ (t : State), t.Canonical → CanonicalNext (ok t)) : CanonicalNext (append k bytes taint s ok) := by
  unfold append
  split
  · refine .ite (hok _ h) ?_
    refine .ite h.stall_next ?_
    refine h.checked_next fun _ h₁ => ?_
    refine .ite h₁.fifoWait_next ?_
    exact h₁.located_next fun _ _ => h₁.dueRelease.storePlain_next fun _ h₂ => h₂.hold_next fun _ h₃ => hok _ h₃
  · exact h.trap_next

theorem State.Canonical.operands_next {rs} {ok : State → StepOutcome} (h : s.Canonical)
    (hok : ∀ (t : State), t.Canonical → CanonicalNext (ok t)) : CanonicalNext (operands rs s ok) := by
  unfold operands
  exact .ite h.stall_next (hok _ h)

theorem State.Canonical.resolved_next {d} {ok : ℕ → Option (ℕ × ℕ) → State → StepOutcome} (h : s.Canonical)
    (hok : ∀ x1 x2 (t : State), t.Canonical → CanonicalNext (ok x1 x2 t)) : CanonicalNext (resolved d s ok) := by
  unfold resolved
  split
  · exact h.trap_next
  · exact hok _ _ _ h

theorem State.Canonical.sendMsg_next {ordered rel n d p} (h : s.Canonical) : CanonicalNext (sendMsg ordered rel n d p s) := by
  unfold sendMsg
  refine .ite h.stall_next ?_
  refine .ite h.trap_next ?_
  refine h.resolved_next fun _ _ _ h₁ => ?_
  refine .ite h₁.trap_next ?_
  refine .ite ?_ ?_
  · exact .ite h₁.stall_next (h₁.readNow_next fun _ _ _ h₂ => h₂.hold_next fun _ h₃ => h₃.retire_next)
  · exact h₁.checked_next fun _ h₄ => .ite h₄.stall_next (h₄.readNow_next fun _ _ _ h₅ => h₅.hold_next fun _ h₆ => h₆.retire_next)

theorem State.Canonical.execSend_next {n d p} (h : s.Canonical) : CanonicalNext (execSend n d p s) :=
  h.sendMsg_next

theorem State.Canonical.execSendo_next {n d p} (h : s.Canonical) : CanonicalNext (execSendo n d p s) :=
  h.sendMsg_next

theorem State.Canonical.execSendr_next {n d p} (h : s.Canonical) : CanonicalNext (execSendr n d p s) :=
  h.sendMsg_next

theorem State.Canonical.noHostFifo_next {va n} {ok : State → StepOutcome} (h : s.Canonical)
    (hok : ∀ (t : State), t.Canonical → CanonicalNext (ok t)) : CanonicalNext (noHostFifo va n s ok) := by
  unfold noHostFifo
  exact .ite h.trap_next (hok _ h)

theorem State.Canonical.execPut_next {d r n} (h : s.Canonical) : CanonicalNext (execPut d r n s) := by
  unfold execPut
  refine .ite h.stall_next ?_
  refine .ite h.trap_next ?_
  refine .ite ?_ ?_
  · exact h.checked_next fun _ h₁ => h₁.noHostFifo_next fun _ h₂ => .ite h₂.stall_next (h₂.hold_next fun _ h₃ => h₃.retire_next)
  · exact h.checked_next fun _ h₄ => h₄.checked_next fun _ h₅ => h₅.noHostFifo_next fun _ h₆ => h₆.noHostFifo_next fun _ h₇ =>
        h₇.checked_next fun _ h₈ => h₈.noHostFifo_next fun _ h₉ => .ite h₉.stall_next (h₉.hold_next fun _ h₁₀ => h₁₀.retire_next)

theorem State.Canonical.getChecks_next {c} {ok : ℕ → Place → State → StepOutcome} (h : s.Canonical)
    (hok : ∀ x1 x2 (t : State), t.Canonical → CanonicalNext (ok x1 x2 t)) : CanonicalNext (getChecks c s ok) := by
  unfold getChecks
  refine h.located_next fun _ _ => ?_
  split
  · exact h.trap_next
  · exact h.hostReachable_next fun _ h₁ => h₁.unpoisoned_next (hok _ _)

theorem State.Canonical.getIssue_next {kind d c a p} (h : s.Canonical) : CanonicalNext (getIssue kind d c a p s) :=
  h.releasePoint.issueLoad.retire_next

theorem State.Canonical.execGet_next {d a} (h : s.Canonical) : CanonicalNext (execGet d a s) := by
  unfold execGet
  exact .ite h.stall_next (h.checked_next fun _ h₁ => h₁.getChecks_next fun _ _ _ h₂ => h₂.getIssue_next)

theorem State.Canonical.flushWait_next {p} {done : State → StepOutcome} (h : s.Canonical)
    (hdone : ∀ (t : State), t.Canonical → CanonicalNext (done t)) : CanonicalNext (flushWait p s done) := by
  unfold flushWait
  dsimp only
  split
  · exact h.release.mapTask.askFlush.stall_next
  · exact .ite (hdone _ h) h.stall_next

theorem State.Canonical.execFlushrd_next {d a} (h : s.Canonical) : CanonicalNext (execFlushrd d a s) := by
  unfold execFlushrd
  refine h.noTxn_next fun _ h₁ => ?_
  refine .ite h₁.stall_next ?_
  refine .ite ?_ ?_
  · refine .ite h₁.trap_next ?_
    exact .ite h₁.stall_next (h₁.located_next fun _ _ => h₁.flushWait_next fun _ h₂ => h₂.retire_next)
  · exact h₁.checked_next fun _ h₃ => .ite h₃.stall_next (h₃.getChecks_next fun _ _ _ h₄ => h₄.flushWait_next fun _ h₅ =>
        h₅.getIssue_next)

theorem State.Canonical.takeMsg {d e} (h : s.Canonical) : (s.takeMsg d e).Canonical := by
  unfold State.takeMsg
  exact .ite (.dropCopies (.writeG (.foldl h fun _ h₁ _ => h₁.writeG))) (.writeG (.foldl h fun _ h₂ _ => h₂.writeG))

theorem State.Canonical.execWaitm_next {d a} (h : s.Canonical) : CanonicalNext (execWaitm d a s) := by
  unfold execWaitm
  refine h.noTxn_next fun _ h₁ => h₁.operands_next fun _ h₂ => ?_
  dsimp only
  split
  · exact .ite h₂.discardEntry.stall_next h₂.takeMsg.retire_next
  · exact h₂.parkHere_next

theorem State.Canonical.execRecvm_next {d a b} (h : s.Canonical) : CanonicalNext (execRecvm d a b s) := by
  unfold execRecvm
  refine h.operands_next fun _ h₁ => ?_
  refine .ite h₁.writeInt.retire_next ?_
  exact h₁.checked_next fun _ h₂ => h₂.rollback_next (h₂.storeSpan_next fun _ h₃ => h₃.writeInt.retire_next)

theorem State.Canonical.execPeekm_next {d a} (h : s.Canonical) : CanonicalNext (execPeekm d a s) := by
  unfold execPeekm
  exact .ite h.stall_next (.ite h.trap_next h.writeInt.retire_next)

theorem State.Canonical.execPmcfg_next {d a b} (h : s.Canonical) : CanonicalNext (execPmcfg d a b s) := by
  unfold execPmcfg
  exact h.operands_next fun _ h₁ => State.Canonical.retire_next (.writeInt (.ite h₁ h₁))

theorem State.Canonical.execPmpost_next {a} (h : s.Canonical) : CanonicalNext (execPmpost a s) := by
  unfold execPmpost
  refine .ite h.stall_next ?_
  refine .ite h.trap_next ?_
  exact h.resolved_next fun _ _ _ h₁ => h₁.resolved_next fun _ _ _ h₂ => .ite h₂.stall_next (State.Canonical.retire_next (.kick h₂))

theorem State.Canonical.mailNotice {k inst p cause} (h : s.Canonical) : (s.mailNotice k inst p cause).Canonical :=
  h.niOwn

theorem State.Canonical.putMail {p inst b} (h : s.Canonical) : (s.putMail p inst b).Canonical := by
  unfold State.putMail
  split
  · exact h
  · split
    · exact h.mapTeam
    · exact h

theorem State.Canonical.performed {k x op counted e} (h : s.Canonical) : (s.performed k x op counted e).Canonical := by
  unfold State.performed
  split
  · exact .ite h.answer h.ack
  · exact .ite (.kick (.answer h)) (.kick (.settled (.ack (.afterPosted h))))

theorem State.Canonical.execMailboxPost_next {p} (h : s.Canonical) : CanonicalNext (execMailboxPost p s) := by
  unfold execMailboxPost
  refine h.unlessCopied_next (State.Canonical.next (.performed ?_))
  refine .ite h ?_
  split
  · exact h.mailNotice
  · dsimp only
    split
    · exact h.putMail
    · exact h.putMail.mailNotice

theorem State.Canonical.execPmdrain_next {d a b} (h : s.Canonical) : CanonicalNext (execPmdrain d a b s) := by
  unfold execPmdrain
  refine h.operands_next fun _ h₁ => ?_
  dsimp only
  split
  · exact h₁.writeInt.writeInt.retire_next
  · split
    · exact State.Canonical.retire_next (.writeInt (.writeInt (.mapNi (.ite (h₁.foldl fun _ h₂ _ => h₂.mailNotice) h₁))))
    · exact State.Canonical.retire_next (.writeInt (.writeInt (.mapNi (.ite (h₁.foldl fun _ h₃ _ => h₃.mailNotice) h₁))))

theorem State.Canonical.sent {k x} (h : s.Canonical) : (s.sent k x).Canonical := by
  unfold State.sent
  exact .ite (.pushOnce h) (.settled (.quietOn h))

theorem State.Canonical.holdAgent {a h'} (h : s.Canonical) : (s.holdAgent a h').Canonical := by
  unfold State.holdAgent
  split <;> exact h

theorem State.Canonical.openFault {a va cause acc more walker} (h : s.Canonical) :
    (s.openFault a va cause acc more walker).Canonical := by
  unfold State.openFault
  dsimp only
  split
  · exact .foldl h fun _ h₁ _ => h₁.holdAgent
  · exact .ite (.push (.ctlSend (.foldl h fun _ h₂ _ => h₂.holdAgent))) (.ctlSend (.foldl h fun _ h₃ _ => h₃.holdAgent))

theorem State.Canonical.hodIssue_next {kind rs} {ok : HodReq → List (BitVec 6) → State → StepOutcome} (h : s.Canonical)
    (hok : ∀ x1 x2 (t : State), t.Canonical → CanonicalNext (ok x1 x2 t)) : CanonicalNext (hodIssue kind rs s ok) := by
  unfold hodIssue
  exact .ite h.stall_next (h.resolved_next fun _ _ _ h₁ => hok _ _ _ h₁)

theorem State.Canonical.hodHold_next {regs r} (h : s.Canonical) : CanonicalNext (hodHold regs r s) := by
  unfold hodHold
  exact .ite h.stall_next (h.hold_next fun _ h₁ => h₁.retire_next)

theorem State.Canonical.hodRange_next {c n perms} {ok : State → StepOutcome} (h : s.Canonical)
    (hok : ∀ (t : State), t.Canonical → CanonicalNext (ok t)) : CanonicalNext (hodRange c n perms s ok) :=
  h.checked_next fun _ h₁ => h₁.noHostFifo_next hok

theorem State.Canonical.execHcopy_next {d a} (h : s.Canonical) : CanonicalNext (execHcopy d a s) :=
  h.hodIssue_next fun _ _ _ h₁ => .ite h₁.trap_next (h₁.hodRange_next fun _ h₂ => h₂.hodRange_next fun _ h₃ => h₃.hodHold_next)

theorem State.Canonical.execHfill_next {d a b} (h : s.Canonical) : CanonicalNext (execHfill d a b s) :=
  h.hodIssue_next fun _ _ _ h₁ => .ite h₁.trap_next (h₁.hodRange_next fun _ h₂ => h₂.hodHold_next)

theorem State.Canonical.noHostFifoRows_next {r} {ok : State → StepOutcome} (h : s.Canonical)
    (hok : ∀ (t : State), t.Canonical → CanonicalNext (ok t)) : CanonicalNext (noHostFifoRows r s ok) := by
  unfold noHostFifoRows
  dsimp only
  split
  · exact h.trap_next
  · exact hok _ h

theorem State.Canonical.readBag_next {scatter c} {ok : Word → List Byte → State → StepOutcome} (h : s.Canonical)
    (hok : ∀ x1 x2 (t : State), t.Canonical → CanonicalNext (ok x1 x2 t)) : CanonicalNext (readBag scatter c s ok) := by
  unfold readBag
  refine h.checked_next fun _ h₁ => h₁.noHostFifo_next fun _ h₂ => ?_
  refine .ite h₂.stall_next ?_
  refine h₂.readNow_next fun _ _ _ h₃ => ?_
  refine .ite h₃.trap_next ?_
  exact h₃.checked_next fun _ h₄ => h₄.noHostFifo_next fun _ h₅ => h₅.readNow_next fun _ _ _ h₆ => hok _ _ _ h₆

theorem State.Canonical.hgath_next {kind d a b} (h : s.Canonical) : CanonicalNext (hgath kind d a b s) :=
  h.rollback_next (h.hodIssue_next fun _ _ _ h₁ => h₁.readBag_next fun _ _ _ h₂ => h₂.hodRange_next fun _ h₃ => .ite h₃.trap_next
      (h₃.noHostFifoRows_next fun _ h₄ => h₄.hodHold_next))

theorem State.Canonical.execHgathSum_next {d a b} (h : s.Canonical) : CanonicalNext (execHgathSum d a b s) :=
  h.hgath_next

theorem State.Canonical.execHgathMean_next {d a b} (h : s.Canonical) : CanonicalNext (execHgathMean d a b s) :=
  h.hgath_next

theorem State.Canonical.execHscat_next {d a b} (h : s.Canonical) : CanonicalNext (execHscat d a b s) :=
  h.rollback_next (h.hodIssue_next fun _ _ _ h₁ => h₁.readBag_next fun _ _ _ h₂ => .ite h₂.trap_next (h₂.hodRange_next fun _ h₃ =>
      h₃.noHostFifoRows_next fun _ h₄ => h₄.hodHold_next))

theorem State.Canonical.execHodCompletion_next {req word} (h : s.Canonical) : CanonicalNext (execHodCompletion req word s) := by
  unfold execHodCompletion
  split
  · exact State.Canonical.next h
  · exact h.hodSend.next

theorem State.Canonical.hodXlate_next {e g r site slice va acc} {ok : ℕ → State → StepOutcome} (h : s.Canonical)
    (hok : ∀ x1 (t : State), t.Canonical → CanonicalNext (ok x1 t)) : CanonicalNext (hodXlate e g r site slice va acc s ok) := by
  unfold hodXlate
  refine .ite h.endRows.openFault.next ?_
  split
  next t _ e =>
    have h₁ : t.Canonical := .of_fst e h.agentXlate_fst
    exact hok _ _ h₁
  next t _ e =>
    have h₂ : t.Canonical := .of_fst e h.agentXlate_fst
    exact .ite (State.Canonical.next h₂) h₂.endRows.openFault.next

theorem State.Canonical.hodAddrs_next {e g r site slice va n acc} {ok : List Nat → State → StepOutcome} (h : s.Canonical)
    (hok : ∀ as (t : State), t.Canonical → CanonicalNext (ok as t)) : CanonicalNext (hodAddrs e g r site slice va n acc s ok) :=
  CanonicalNext.foldr_acc (fun ⟨_, _, _⟩ _ hk _ _ ht => ht.hodXlate_next fun _ _ hu => hk _ _ hu) hok _ [] s h

theorem State.Canonical.hodMove_next {r site slice} (h : s.Canonical) : CanonicalNext (hodMove r site slice s) := by
  unfold hodMove
  refine .ite (State.Canonical.next h) ?_
  dsimp only
  split
  · refine h.hodAddrs_next fun _ _ h₁ => ?_
    refine .ite h₁.checkRead.push.next ?_
    refine .ite (State.Canonical.next h₁) ?_
    split
    next t e =>
      have h₂ : t.Canonical := .of_some e h₁.hostHold_some
      exact h₂.next
    · refine h₁.checkRead.hodAddrs_next fun _ _ h₃ => ?_
      refine .ite (State.Canonical.next h₃) ?_
      split
      next t e =>
        have h₄ : t.Canonical := .of_some e h₃.hostHold_some
        exact h₄.next
      · exact h₃.performWrite.hodRest_state.next
  · refine h.hodAddrs_next fun _ _ h₅ => ?_
    refine .ite (State.Canonical.next h₅) ?_
    split
    next t e =>
      have h₆ : t.Canonical := .of_some e h₅.hostHold_some
      exact h₆.next
    · exact h₅.performWrite.hodRest_state.next

theorem State.Canonical.hodSplit_next {r} (h : s.Canonical) : CanonicalNext (hodSplit r s) := by
  unfold hodSplit
  refine CanonicalNext.foldr_acc (fun _ _ hk _ _ ht => ht.hodAddrs_next fun _ _ hu => ?_) (fun _ _ ht => ?_) _ [] s h
  · exact .ite (hu.hodAddrs_next fun _ _ hv => hk _ _ hv) (hk _ _ hu)
  · exact .ite ht.push.next (State.Canonical.next (.foldl ht.mapNi fun _ hu _ => hu.route))

theorem State.Canonical.endPart {b status} (h : s.Canonical) : (s.endPart b status).Canonical := by
  unfold State.endPart
  split
  · exact h
  · dsimp only
    split
    · exact .route (.ite h.ack h)
    · exact .route (.route (.ite h.ack h))

theorem State.Canonical.execHodRequest_next {req} (h : s.Canonical) : CanonicalNext (execHodRequest req s) := by
  unfold execHodRequest
  dsimp only
  split
  · exact h.hodMove_next
  · exact h.hodMove_next
  · exact h.hodSplit_next

theorem State.Canonical.wholeRow_next {o as e} {ok : State → StepOutcome} (h : s.Canonical)
    (hok : ∀ (t : State), t.Canonical → CanonicalNext (ok t)) : CanonicalNext (wholeRow o as e s ok) := by
  unfold wholeRow
  dsimp only
  split
  · exact State.Canonical.next h
  · refine .ite (State.Canonical.next h) ?_
    split
    next t e =>
      have h₁ : t.Canonical := .of_some e h.hostHold_some
      exact h₁.next
    · exact hok _ h

theorem State.Canonical.execHgathOwner_next {bag} (h : s.Canonical) : CanonicalNext (execHgathOwner bag s) := by
  unfold execHgathOwner
  dsimp only
  split
  · exact h.next
  · exact h.endPart.next
  · exact h.hodAddrs_next fun _ _ h₁ => h₁.wholeRow_next fun _ h₂ => .ite h₂.checkRead.endPart.next h₂.checkRead.push.next

theorem State.Canonical.execHgathCombine_next {bag} (h : s.Canonical) : CanonicalNext (execHgathCombine bag s) := by
  unfold execHgathCombine
  dsimp only
  split
  · split
    · exact h.next
    · exact .ite (State.Canonical.next h) (State.Canonical.next h)
  · refine h.hodAddrs_next fun _ _ h₁ => ?_
    refine .ite (State.Canonical.next h₁) ?_
    split
    next t e =>
      have h₂ : t.Canonical := .of_some e h₁.hostHold_some
      exact h₂.next
    · exact h₁.performWrite.push.next

theorem State.Canonical.execHscatOwner_next {bag} (h : s.Canonical) : CanonicalNext (execHscatOwner bag s) := by
  unfold execHscatOwner
  dsimp only
  split
  · exact h.ack.next
  · exact h.endPart.next
  · refine h.hodAddrs_next fun _ _ h₁ => ?_
    refine .ite h₁.next ?_
    refine h₁.hodAddrs_next fun _ _ h₂ => ?_
    refine .ite (State.Canonical.next h₂) ?_
    refine .ite h₂.checkRead.endPart.next ?_
    split
    next t e =>
      have h₃ : t.Canonical := .of_some e h₂.hostHold_some
      exact h₃.next
    · split
      next t e =>
        have h₄ : t.Canonical := .of_some e h₂.hostHold_some
        exact h₄.next
      · exact h₂.checkRead.performWrite.restep.push.next

end

end Sys2Proof.Machine
end

section
/-!
SUPPORT. Steps that keep memory in its canonical form: pallets, synchronization, teams and graphs.
-/
namespace Sys2Proof.Machine

section
variable {s : State}

theorem State.Canonical.execDpush_next {d a b} (h : s.Canonical) : CanonicalNext (execDpush d a b s) := by
  unfold execDpush
  exact h.operands_next fun _ h₁ => .ite h₁.writeInt.retire_next (.ite h₁.writeInt.retire_next (State.Canonical.retire_next
      (.writeInt h₁)))

theorem State.Canonical.execDpop_next {d a} (h : s.Canonical) : CanonicalNext (execDpop d a s) := by
  unfold execDpop
  split
  · exact h.writeInt.writeInt.retire_next
  · exact State.Canonical.retire_next (.writeInt (.writeInt h))

theorem State.Canonical.execDsplit_next {d a} (h : s.Canonical) : CanonicalNext (execDsplit d a s) := by
  unfold execDsplit
  refine h.operands_next fun _ h₁ => ?_
  dsimp only
  split
  · exact h₁.writeInt.retire_next
  · exact .ite (State.Canonical.retire_next (.writeInt h₁)) h₁.writeInt.retire_next

theorem State.Canonical.execDcount_next {d} (h : s.Canonical) : CanonicalNext (execDcount d s) :=
  h.writeInt.retire_next

theorem State.Canonical.dsteal_next {dom d} (h : s.Canonical) : CanonicalNext (dsteal dom d s) := by
  unfold dsteal
  refine .ite h.writeInt.retire_next ?_
  split
  · exact h.writeInt.retire_next
  · exact State.Canonical.next (.route h)

theorem State.Canonical.execDstealCluster_next {d} (h : s.Canonical) : CanonicalNext (execDstealCluster d s) :=
  h.dsteal_next

theorem State.Canonical.execDstealSite_next {d} (h : s.Canonical) : CanonicalNext (execDstealSite d s) :=
  h.dsteal_next

theorem State.Canonical.execDstealGrid_next {d} (h : s.Canonical) : CanonicalNext (execDstealGrid d s) :=
  h.dsteal_next

theorem State.Canonical.execStealRequest_next {victim thief ctx rest} (h : s.Canonical) :
    CanonicalNext (execStealRequest victim thief ctx rest s) := by
  unfold execStealRequest
  refine h.unlessCopied_next ?_
  dsimp only
  split
  · exact h.route.next
  · exact .ite h.route.next (State.Canonical.next (.route h))

theorem State.Canonical.stealEnd {thief ctx v} (h : s.Canonical) : (s.stealEnd thief ctx v).Canonical := by
  unfold State.stealEnd
  split
  · exact h.asCtx fun _ h₁ => .advance (.writeInt h₁)
  · exact h

theorem State.Canonical.execStealResponse_next {thief ctx got rest} (h : s.Canonical) :
    CanonicalNext (execStealResponse thief ctx got rest s) := by
  unfold execStealResponse
  split
  · exact State.Canonical.next (.stealEnd h)
  · split
    · exact State.Canonical.next (.route h)
    · exact State.Canonical.next (.stealEnd h)

theorem State.Canonical.mpathLoop_next {rp0 d fuel lo hi} {rp : Nat → State → (Nat → State → StepOutcome) → StepOutcome}
    {ok : Nat → State → StepOutcome} (h : s.Canonical)
    (hrp : ∀ x (t : State), t.Canonical → ∀ k, (∀ y (u : State), u.Canonical → CanonicalNext (k y u)) → CanonicalNext (rp x t k))
    (hok : ∀ x (t : State), t.Canonical → CanonicalNext (ok x t)) : CanonicalNext (mpathLoop rp rp0 d fuel lo hi s ok) := by
  induction fuel generalizing lo hi s with
  | zero => exact hok _ _ h
  | succ fuel ih =>
    unfold mpathLoop
    split
    · exact hok _ _ h
    · refine hrp _ _ h _ fun _ _ ht => ?_
      split <;> exact ih ht

theorem State.Canonical.execMpath_next {d a b} (h : s.Canonical) : CanonicalNext (execMpath d a b s) :=
  h.operands_next fun _ h₁ => h₁.checked_next fun _ h₂ => h₂.rollback_next (h₂.readNow_next fun _ _ _ h₃ => h₃.readNow_next fun _ _
      _ h₄ => h₄.mpathLoop_next (fun _ _ h₅ _ h₆ => h₅.readNow_next fun _ _ _ h₇ => h₆ _ _ h₇) fun _ _ h₈ =>
      h₈.writeInt.retire_next)

theorem State.Canonical.putSyncStore {w b p} (h : s.Canonical) : (s.putSyncStore w b p).Canonical := by
  unfold State.putSyncStore
  split
  · exact h
  · split
    · exact h.mapTeam
    · exact h

theorem State.Canonical.putBlock {w b} (h : s.Canonical) : (s.putBlock w b).Canonical := by
  unfold State.putBlock
  split
  · exact h.putSyncStore
  · exact h

theorem State.Canonical.putPlumb {w i p} (h : s.Canonical) : (s.putPlumb w i p).Canonical := by
  unfold State.putPlumb
  split
  · exact h.putSyncStore
  · exact h

theorem State.Canonical.syncBlock_next {c} {ok : SyncBlock → State → StepOutcome} (h : s.Canonical)
    (hok : ∀ x1 (t : State), t.Canonical → CanonicalNext (ok x1 t)) : CanonicalNext (syncBlock c s ok) := by
  unfold syncBlock
  refine .ite h.trap_next ?_
  split
  · exact hok _ _ h
  · exact h.trap_next

theorem State.Canonical.barrStatus {c blk st} (h : s.Canonical) : (s.barrStatus c blk st).Canonical := by
  unfold State.barrStatus
  dsimp only
  split
  · exact .ite (.ite h h) h
  · exact h

theorem State.Canonical.endEpisode {w b broken expected} (h : s.Canonical) : (s.endEpisode w b broken expected).Canonical := by
  unfold State.endEpisode
  refine .putBlock (h.foldl fun _ h₁ _ => .barrStatus ?_)
  split
  · exact h₁.niOwn
  · exact h₁

theorem State.Canonical.flagNotices {w site on} (h : s.Canonical) : (s.flagNotices w site on).Canonical :=
  h.foldl fun _ h₁ _ => .route h₁

theorem State.Canonical.scorePlumb {w b site} (h : s.Canonical) : (s.scorePlumb w b site).Canonical := by
  unfold State.scorePlumb
  split
  · exact .foldl (h.putPlumb.foldl fun _ h₁ _ => h₁.flagNotices) fun _ h₂ _ => h₂.flagNotices
  · exact h

theorem State.Canonical.completeIf {w site} (h : s.Canonical) : (s.completeIf w site).Canonical := by
  unfold State.completeIf
  split
  · exact .ite h.scorePlumb.endEpisode h
  · exact h

theorem State.Canonical.execBinit_next {d a b} (h : s.Canonical) : CanonicalNext (execBinit d a b s) := by
  unfold execBinit
  refine h.operands_next fun _ h₁ => ?_
  refine .ite ?_ ?_
  · split
    · exact h₁.writeG.retire_next
    · exact .ite h₁.writeG.retire_next h₁.putBlock.writeG.retire_next
  · refine h₁.syncBlock_next fun _ _ h₂ => ?_
    refine .ite h₂.writeG.retire_next ?_
    refine State.Canonical.retire_next (.writeG ?_)
    refine .ite h₂.putBlock ?_
    refine .endEpisode ?_
    split
    · exact h₂.putPlumb
    · exact h₂

theorem State.Canonical.unmarked_next {ok : State → StepOutcome} (h : s.Canonical)
    (hok : ∀ (t : State), t.Canonical → CanonicalNext (ok t)) : CanonicalNext (unmarked s ok) := by
  unfold unmarked
  exact .ite (State.Canonical.trap_next h) (hok _ h)

theorem State.Canonical.execBarr_next {a b} (h : s.Canonical) : CanonicalNext (execBarr a b s) := by
  unfold execBarr
  refine h.noTxn_next fun _ h₁ => ?_
  refine .ite h₁.stall_next ?_
  refine .ite h₁.trap_next ?_
  exact h₁.syncBlock_next fun _ _ h₂ => h₂.unmarked_next fun _ h₃ => .ite h₃.trap_next (.ite h₃.stall_next
      (State.Canonical.retire_next (.kick h₃)))

theorem State.Canonical.arrive {a} (h : s.Canonical) : (s.arrive a).Canonical := by
  unfold State.arrive
  dsimp only
  split
  · exact h
  · refine .ite h.barrStatus ?_
    refine .ite h.barrStatus ?_
    refine .completeIf (.putBlock ?_)
    split
    · exact .putPlumb h
    · exact h

theorem State.Canonical.execBarrierArrival_next {a} (h : s.Canonical) : CanonicalNext (execBarrierArrival a s) := by
  unfold execBarrierArrival
  exact h.unlessCopied_next (State.Canonical.next (h.asCtx fun _ h₁ => h₁.arrive))

theorem State.Canonical.bwaitDone {d st} (h : s.Canonical) : (s.bwaitDone d st).Canonical := by
  unfold State.bwaitDone
  exact .advance (.writeInt (.ite h.dropCopies h))

theorem State.Canonical.execBwait_next {d} (h : s.Canonical) : CanonicalNext (execBwait d s) := by
  unfold execBwait
  refine h.noTxn_next fun _ h₁ => ?_
  split
  · exact h₁.trap_next
  · refine .ite h₁.trap_next ?_
    refine h₁.unmarked_next fun _ h₂ => ?_
    refine .ite h₂.trap_next ?_
    split
    · exact h₂.bwaitDone.next
    · exact h₂.parkHere_next

theorem State.Canonical.execBstat_next {d a} (h : s.Canonical) : CanonicalNext (execBstat d a s) :=
  h.operands_next fun _ h₁ => h₁.syncBlock_next fun _ _ h₂ => .ite h₂.trap_next h₂.writeInt.retire_next

theorem State.Canonical.groupBlock_next {c} {ok : SyncBlock → State → StepOutcome} (h : s.Canonical)
    (hok : ∀ x1 (t : State), t.Canonical → CanonicalNext (ok x1 t)) : CanonicalNext (groupBlock c s ok) :=
  h.syncBlock_next fun _ _ h₁ => .ite (hok _ _ h₁) h₁.trap_next

theorem State.Canonical.execGjoin_next {d a} (h : s.Canonical) : CanonicalNext (execGjoin d a s) := by
  unfold execGjoin
  refine h.noTxn_next fun _ h₁ => h₁.operands_next fun _ h₂ => h₂.groupBlock_next fun _ _ h₃ => ?_
  refine .ite h₃.writeInt.retire_next ?_
  exact .ite h₃.writeInt.retire_next (State.Canonical.retire_next (.writeInt (.putBlock h₃)))

theorem State.Canonical.execGleave_next {d a} (h : s.Canonical) : CanonicalNext (execGleave d a s) := by
  unfold execGleave
  refine h.noTxn_next fun _ h₁ => h₁.operands_next fun _ h₂ => h₂.groupBlock_next fun _ _ h₃ => ?_
  refine .ite h₃.writeInt.retire_next ?_
  exact State.Canonical.retire_next (.writeInt (.ite (.completeIf (.putBlock h₃)) (.putBlock h₃)))

theorem State.Canonical.execPlcfg_next {d a b} (h : s.Canonical) : CanonicalNext (execPlcfg d a b s) := by
  unfold execPlcfg
  refine h.operands_next fun _ h₁ => h₁.syncBlock_next fun _ _ h₂ => ?_
  refine .ite h₂.writeInt.retire_next ?_
  refine .ite ?_ ?_
  · refine State.Canonical.retire_next (.writeInt (.putBlock ?_))
    split
    · exact .putPlumb (h₂.foldl fun _ h₃ _ => h₃.flagNotices)
    · exact h₂.foldl fun _ h₄ _ => h₄.flagNotices
  · split
    · exact h₂.writeInt.retire_next
    · exact State.Canonical.retire_next (.writeInt (.putBlock (.putPlumb (h₂.foldl fun _ h₅ _ => h₅.flagNotices))))

theorem State.Canonical.execPlread_next {d a b} (h : s.Canonical) : CanonicalNext (execPlread d a b s) :=
  h.operands_next fun _ h₁ => h₁.syncBlock_next fun _ _ h₂ => h₂.writeInt.retire_next

theorem State.Canonical.execFlagNotice_next {core record} (h : s.Canonical) : CanonicalNext (execFlagNotice core record s) :=
  State.Canonical.next h

theorem State.Canonical.execClearNotice_next {core record} (h : s.Canonical) : CanonicalNext (execClearNotice core record s) :=
  State.Canonical.next h

theorem State.Canonical.bankCycle {bk} (h : s.Canonical) : (s.bankCycle bk).Canonical := by
  unfold State.bankCycle
  dsimp only
  split
  · exact h.settleFifo.switchBank
  · exact h.settleFifo.setBank.l2Touch
  · exact h.settleFifo.pushOnce
  · exact h.settleFifo

theorem State.Canonical.execBankDrainDone_next {bank} (h : s.Canonical) : CanonicalNext (execBankDrainDone bank s) := by
  unfold execBankDrainDone
  exact .ite h.next (State.Canonical.next h)

theorem State.Canonical.placeAgain {site} (h : s.Canonical) : (s.placeAgain site).Canonical := by
  unfold State.placeAgain
  split
  · exact h.pushOnce
  · exact h

theorem State.Canonical.execBankZeroDone_next {bank} (h : s.Canonical) : CanonicalNext (execBankZeroDone bank s) := by
  unfold execBankZeroDone
  refine .ite h.next ?_
  extract_lets lo s₁ w s₂
  have h₁ : s₁.Canonical := Mem.wf_filter _ _ h
  have h₂ : s₂.Canonical := h₁
  exact State.Canonical.next (.placeAgain (.ite h₂.switchBank h₂))

theorem State.Canonical.takeCache_some {site cl word bk} {t : State} (h : s.Canonical)
    (e : s.takeCache site cl word = .some (t, bk)) : t.Canonical := by
  unfold State.takeCache at e
  split at e
  · cases e
    exact h.switchBank
  · cases e

theorem State.Canonical.allocShare_some {uid site cl key core n} (h : s.Canonical) :
    SomeCanonical (s.allocShare uid site cl key core n) := by
  unfold State.allocShare
  extract_lets open_ found
  clear_value open_
  have hfound : ∀ t bk, found = .some (t, bk) → t.Canonical := by
    intro t bk e
    unfold found at e
    split at e
    · cases e
      exact h
    · exact h.takeCache_some e
  clear_value found
  split
  · exact .none
  next t bk =>
    exact State.Canonical.found (hfound t bk rfl)

theorem State.Canonical.allocFifos_some {uid part site cl core fs} (h : s.Canonical) :
    SomeCanonical (s.allocFifos uid part site cl core fs) := by
  refine h.found.foldl fun _ ho ⟨_, _⟩ => ho.bind fun u hu t e => ?_
  obtain ⟨⟨v, bk⟩, hv, rfl⟩ := Option.map_eq_some_iff.1 e
  have hv : v.Canonical := State.Canonical.takeCache_some hu hv
  exact hv

theorem State.Canonical.takeRect_some {uid t' site row0 col0} (h : s.Canonical) :
    SomeCanonical (s.takeRect uid t' site row0 col0) := by
  unfold State.takeRect
  extract_lets t cores img n s₁ clusters s₂
  have h₁ : SomeCanonical s₁ := h.found.foldl fun _ ho _ => ho.bind fun _ ht => .ite ht.found ht.allocShare_some
  have h₂ : SomeCanonical s₂ := h₁.foldl fun _ ho _ => ho.bind fun _ ht => ht.allocFifos_some
  exact .ite .none (.ite .none (h₂.map fun _ ht => .foldl ht.mapTeam fun _ hu _ => hu))

theorem State.Canonical.placeTeam_some {uid} (h : s.Canonical) : SomeCanonical (s.placeTeam uid) := by
  unfold State.placeTeam
  split
  · exact .none
  · exact .ite .none (.findSome fun _ => .findSome fun _ => .findSome fun _ => h.takeRect_some)

theorem State.Canonical.load {a bs} (h : s.Canonical) : (s.load a bs).Canonical :=
  h.writeMem

theorem State.Canonical.loadCap {a c} (h : s.Canonical) : (s.loadCap a c).Canonical :=
  h.load.setTag

theorem State.Canonical.clearRange {lo n} (h : s.Canonical) : (s.clearRange lo n).Canonical :=
  Mem.wf_filter _ _ h

theorem State.Canonical.placeCore {uid t' img flags k} (h : s.Canonical) : (s.placeCore uid t' img flags k).Canonical := by
  unfold State.placeCore
  split
  extract_lets key share sv s₁ s₂
  have h₁ : s₁.Canonical := by
    clear_value share sv
    unfold s₁
    split
    · exact h.load
    · exact .foldl (Mem.wf_writeAll _ _ h.clearRange) fun _ ht _ => ht
    · exact h
  have h₂ : s₂.Canonical := by
    clear_value share s₁
    unfold s₂
    split
    · exact h₁.foldl fun _ ht _ => ht.loadCap
    · exact h₁
  exact h₂

theorem State.Canonical.placeGroups {t' img} (h : s.Canonical) : (s.placeGroups t' img).Canonical :=
  h.foldl fun _ h₁ _ => .ite h₁ h₁

theorem State.Canonical.placeFifos {uid t'} (h : s.Canonical) : (s.placeFifos uid t').Canonical :=
  State.placeFifos_wf uid t' h

theorem State.Canonical.finishPlace {uid} (h : s.Canonical) : (s.finishPlace uid).Canonical := by
  unfold State.finishPlace
  split
  · exact h
  refine .ite h ?_
  extract_lets img store code table size s₁ s₂ s₃ flags s₄ s₅ s₆ s₇
  have h₁ : s₁.Canonical := .ite h.load.load h
  have h₃ : s₃.Canonical := h₁.loadCap.load
  have h₄ : s₄.Canonical := h₃.forgetCode
  clear_value s₄
  have h₅ : s₅.Canonical := h₄.of_mem rfl
  have h₆ : s₆.Canonical := h₅.foldl fun _ ht _ => ht.placeCore
  have h₇ : s₇.Canonical := .ite h₆.placeGroups h₆.placeFifos
  exact h₇.mapTeam.push

theorem State.Canonical.placeHead_some {part} (h : s.Canonical) : SomeCanonical (s.placeHead part) := by
  unfold State.placeHead
  split
  · exact .none
  · exact (h.found.foldl fun _ ho _ => ho.bind fun _ ht => ht.placeTeam_some).map fun _ ht => ht.mapPart

theorem State.Canonical.freeKilled {part} (h : s.Canonical) : (s.freeKilled part).Canonical :=
  h.foldl fun _ h₁ _ => h₁.unplace

theorem State.Canonical.freeBanks {part} (h : s.Canonical) : (s.freeBanks part).Canonical :=
  h.foldl fun _ h₁ _ => h₁.switchBank

theorem State.Canonical.execTeamPlace_next {part} (h : s.Canonical) : CanonicalNext (execTeamPlace part s) := by
  unfold execTeamPlace
  refine .ite ?_ ?_
  · exact State.Canonical.next (h.freeKilled.foldl fun _ h₁ _ => h₁.finishPlace)
  · split
    next t e =>
      have h₂ : t.Canonical := .of_some e (State.Canonical.placeHead_some (h.freeKilled.foldl fun _ h₃ _ => h₃.finishPlace))
      exact State.Canonical.next h₂
    · refine State.Canonical.next ?_
      refine .ite (.freeBanks (h.freeKilled.foldl fun _ h₄ _ => h₄.finishPlace)) ?_
      exact .pushOnce (.freeBanks (h.freeKilled.foldl fun _ h₅ _ => h₅.finishPlace))

theorem State.Canonical.wakeWaitm {k h'} (h : s.Canonical) : (s.wakeWaitm k h').Canonical := by
  unfold State.wakeWaitm
  split
  · exact h.pushOnce
  · exact h

theorem State.Canonical.enqueue {k m reserved} (h : s.Canonical) : (s.enqueue k m reserved).Canonical := by
  unfold State.enqueue
  exact .wakeWaitm h

theorem State.Canonical.restoreRetry {uid t'} (h : s.Canonical) : (s.restoreRetry uid t').Canonical := by
  unfold State.restoreRetry
  exact h.foldl fun _ h₁ _ => .mapTeam (.foldl h₁ fun _ h₂ _ => h₂)

theorem State.Canonical.execMaildropClose_next {team} (h : s.Canonical) : CanonicalNext (execMaildropClose team s) := by
  unfold execMaildropClose
  split
  · exact h.next
  · refine .ite h.next ?_
    dsimp only
    split
    · exact h.restoreRetry.mapTeam.pushAll.next
    · split
      · exact h.restoreRetry.next
      · exact h.restoreRetry.mapTeam.enqueue.push.next

theorem State.Canonical.sendRefusal {m nolist chain} (h : s.Canonical) : (s.sendRefusal m nolist chain).Canonical := by
  unfold State.sendRefusal
  split
  · exact .injectCtl h
  · exact .ite h h

theorem State.Canonical.refuseAt {k m chain list} (h : s.Canonical) : (s.refuseAt k m chain list).Canonical := by
  unfold State.refuseAt
  exact .ite (.sendRefusal h) (.sendRefusal h)

theorem State.Canonical.execMaildropAppend_next {team m} (h : s.Canonical) : CanonicalNext (execMaildropAppend team m s) := by
  unfold execMaildropAppend
  dsimp only
  split
  · exact h.ack.stray.next
  · refine .ite (State.Canonical.next (.ite h.ack.stray h.consume)) ?_
    refine .ite (State.Canonical.next (.route (.ite h.ack.mapNi h.ack))) ?_
    refine .ite h.refuseAt.next ?_
    refine .ite (State.Canonical.next (.ite h.refuseAt h.sendRefusal)) ?_
    refine State.Canonical.next ?_
    exact .ite (.pushOnce (.mapTeam (.settleMsg (.ite h.ack.mapNi h.ack)))) (.mapTeam (.settleMsg (.ite h.ack.mapNi h.ack)))

theorem State.Canonical.beginQuiesce {uid} (h : s.Canonical) : (s.beginQuiesce uid).Canonical := by
  unfold State.beginQuiesce
  split
  · exact h
  · refine .ite h ?_
    exact .push (.mapTeam (h.foldl fun _ h₁ _ => .ite (.foldl h₁ fun _ h₂ _ => h₂.giveUp) (.mapTeam (.foldl h₁ fun _ h₃ _ =>
        h₃.giveUp))))

theorem State.Canonical.giveUpOwed {k} (h : s.Canonical) : (s.giveUpOwed k).Canonical := by
  unfold State.giveUpOwed
  refine h.foldl fun _ h₁ _ => ?_
  split
  · exact .ite h₁.freeXmit.injectCtl.mapCtx.mapNi h₁
  · exact h₁

theorem State.Canonical.execSwapOut_next {team} (h : s.Canonical) : CanonicalNext (execSwapOut team s) := by
  unfold execSwapOut
  split
  · exact h.next
  · refine .ite ?_ ?_
    · exact State.Canonical.next (.ite (h.foldl fun _ h₁ _ => h₁.giveUpOwed) h)
    · refine .ite ?_ ?_
      · exact State.Canonical.next (.again (.ite (h.foldl fun _ h₂ _ => h₂.giveUpOwed) h))
      · exact State.Canonical.next (.enterQueue (.mapTeam (.unplace (.foldl (.ite (h.foldl fun _ h₃ _ => h₃.giveUpOwed) h) fun _ h₄
            _ => h₄.noticeAll))))

theorem State.Canonical.execSwapIn_next {team} (h : s.Canonical) : CanonicalNext (execSwapIn team s) :=
  h.finishPlace.next

theorem State.Canonical.execSlicePreemption_next {part} (h : s.Canonical) : CanonicalNext (execSlicePreemption part s) := by
  unfold execSlicePreemption
  split
  · exact h.next
  · refine .ite h.next ?_
    split
    · exact h.beginQuiesce.next
    · exact h.next

theorem State.Canonical.execRelocationRequest_next {team} (h : s.Canonical) : CanonicalNext (execRelocationRequest team s) :=
  h.beginQuiesce.next

theorem State.Canonical.setCount {site n base pend} (h : s.Canonical) : (s.setCount site n base pend).Canonical := by
  unfold State.setCount
  exact .ite h h

theorem State.Canonical.decrement {site key} (h : s.Canonical) : (s.decrement site key).Canonical := by
  unfold State.decrement
  split
  · exact h
  · exact .ite (.ite h h) h

theorem State.Canonical.postNode_fst {site n runtime} (h : s.Canonical) : (s.postNode site n runtime).1.Canonical := by
  unfold State.postNode
  exact .ite_fst h (.ite_fst h (.setCount h))

theorem State.Canonical.endNode {site n d list} (h : s.Canonical) : (s.endNode site n d list).Canonical := by
  unfold State.endNode
  refine .ite h ?_
  refine .ite (.mapSite (.freeGraph (h.foldl fun _ h₁ _ => h₁.decrement))) ?_
  exact .ite (.setCount (h.foldl fun _ h₂ _ => h₂.decrement)) (.mapSite (h.foldl fun _ h₃ _ => h₃.decrement))

theorem State.Canonical.execGnode_next {d a} (h : s.Canonical) : CanonicalNext (execGnode d a s) := by
  unfold execGnode
  exact h.operands_next fun _ h₁ => h₁.checked_next fun _ h₂ => h₂.readNow_next fun _ _ _ h₃ => State.Canonical.retire_next
      (.writeInt h₃.postNode_fst)

theorem State.Canonical.execGdec_next {d a} (h : s.Canonical) : CanonicalNext (execGdec d a s) := by
  unfold execGdec
  refine h.operands_next fun _ h₁ => ?_
  refine .ite h₁.writeInt.retire_next ?_
  split
  · exact h₁.writeInt.retire_next
  · exact .ite h₁.writeInt.retire_next h₁.decrement.writeInt.retire_next

theorem State.Canonical.nodeFail {site n va} (h : s.Canonical) : (s.nodeFail site n va).Canonical := by
  unfold State.nodeFail
  split <;> exact h

theorem State.Canonical.seqAccess_next {site n va acc again} {ok : ℕ → State → StepOutcome} (h : s.Canonical)
    (hok : ∀ x1 (t : State), t.Canonical → CanonicalNext (ok x1 t)) : CanonicalNext (seqAccess site n va acc again s ok) := by
  unfold seqAccess
  refine .ite h.openFault.next ?_
  split
  next t _ e =>
    have h₁ : t.Canonical := .of_fst e h.agentXlate_fst
    refine .ite h₁.nodeFail.next ?_
    refine .ite (State.Canonical.next h₁) ?_
    split
    next t e =>
      have h₂ : t.Canonical := .of_some e h₁.hostHold_some
      exact h₂.next
    · exact hok _ _ h₁.hostUse
  next t _ e =>
    have h₃ : t.Canonical := .of_fst e h.agentXlate_fst
    exact State.Canonical.next (.ite h₃ h₃.openFault)

theorem State.Canonical.seqWrite {a w} (h : s.Canonical) : (s.seqWrite a w).Canonical :=
  h.performWrite

theorem State.Canonical.startGrid {site gk n first w h'} (h : s.Canonical) : (s.startGrid site gk n first w h').Canonical := by
  unfold State.startGrid
  exact .foldl (.ite h (h.foldl fun _ h₁ _ => .ite h₁ h₁.mapTeam)) fun _ h₂ _ => .push (.workUp h₂)

theorem State.Canonical.launchNode_fst {site serial n} (h : s.Canonical) : (s.launchNode site serial n).1.Canonical := by
  unfold State.launchNode
  exact .ite_fst h (.ite_fst h (.ite_fst h (.foldl (.startGrid (.mapPart h)) fun _ h₁ _ => h₁.enqueueTeam)))

theorem State.Canonical.notify {site graph} (h : s.Canonical) : (s.notify site graph).Canonical := by
  unfold State.notify
  split <;> exact h

theorem State.Canonical.nodeAccess_next {site n d} (h : s.Canonical) : CanonicalNext (nodeAccess site n d s) := by
  unfold nodeAccess
  dsimp only
  split
  · exact h.seqAccess_next fun _ _ h₁ => h₁.seqWrite.mapNode.push.next
  · exact h.seqAccess_next fun _ _ h₂ => State.Canonical.next h₂
  · exact h.seqAccess_next fun _ _ h₃ => State.Canonical.next (.push (.mapNode (.ite h₃.seqWrite.notify h₃.seqWrite)))
  · exact State.Canonical.seqAccess_next h fun _ _ h₄ => .ite (State.Canonical.next h₄) h₄.next

theorem State.Canonical.runNode_next {site n d} (h : s.Canonical) : CanonicalNext (runNode site n d s) := by
  unfold runNode
  dsimp only
  split
  · split
    next t e =>
      have h₁ : t.Canonical := .of_fst e h.launchNode_fst
      exact h₁.next
    next t _ e =>
      have h₂ : t.Canonical := .of_fst e h.launchNode_fst
      exact .ite (State.Canonical.next h₂) (State.Canonical.nodeAccess_next h₂)
  · exact h.route.next
  · exact State.Canonical.next h
  · exact State.Canonical.nodeAccess_next h

theorem State.Canonical.execNodeStart_next {site} (h : s.Canonical) : CanonicalNext (execNodeStart site s) := by
  unfold execNodeStart
  refine .ite h.next ?_
  split
  · exact h.next
  · refine .ite (State.Canonical.next h) ?_
    extract_lets
    split
    · exact State.Canonical.next (.ite h (.pushOnce h))
    · exact State.Canonical.runNode_next (.mapNode (.ite h (.pushOnce h)))

theorem State.Canonical.execWaitPoll_next {site handle} (h : s.Canonical) : CanonicalNext (execWaitPoll site handle s) := by
  unfold execWaitPoll
  split
  · exact h.next
  · exact .ite h.next h.nodeAccess_next

theorem State.Canonical.execNodeComplete_next {site handle} (h : s.Canonical) : CanonicalNext (execNodeComplete site handle s) := by
  unfold execNodeComplete
  split
  · exact h.next
  · exact .ite h.next (.ite (h.seqAccess_next fun _ _ h₁ => h₁.seqWrite.endNode.next) h.endNode.next)

theorem State.Canonical.endGrid {gk g} (h : s.Canonical) : (s.endGrid gk g).Canonical := by
  unfold State.endGrid
  extract_lets mine s₁ s₂
  have h₁ : s₁.Canonical := .foldl h fun _ ht _ =>
    .ite ht.forgetFlags (.unplace (.foldl ht.forgetFlags fun _ hu _ => hu.noticeAll.foldl fun _ hv _ => hv.stray))
  have h₂ : s₂.Canonical := h₁.of_mem rfl
  exact h₂.mapPart.push

theorem State.Canonical.execGridComplete_next {grid} (h : s.Canonical) : CanonicalNext (execGridComplete grid s) := by
  unfold execGridComplete
  split
  · exact h.next
  next g =>
    refine .ite h.next ?_
    extract_lets st s₁ fin
    have h₁ : s₁.Canonical := .ite h h.endGrid.mapGrid
    have hfin : ∀ {t : State}, t.Canonical → CanonicalNext (fin t) := by
      intro t ht
      unfold fin
      extract_lets t₁
      have ht₁ : t₁.Canonical := ht.of_mem rfl
      split
      · exact ht₁.push.next
      · exact ht₁.next
    clear_value fin
    split
    · exact .ite (hfin h₁) (.ite h₁.next (h₁.seqAccess_next fun _ _ ht => hfin ht.seqWrite))
    · exact hfin h₁

theorem State.Canonical.execPostGo_next {mod port} (h : s.Canonical) : CanonicalNext (execPostGo mod port s) := by
  unfold execPostGo
  refine .ite h.next ?_
  refine .ite (State.Canonical.next h) ?_
  refine .ite (State.Canonical.next h) ?_
  split
  · exact State.Canonical.next h
  · refine .ite (State.Canonical.next (.mapPort h.postNode_fst)) ?_
    exact .ite (State.Canonical.next (.mapPort h.postNode_fst)) (State.Canonical.next (.mapPort h.postNode_fst))

theorem State.Canonical.nodeRetry {site n} (h : s.Canonical) : (s.nodeRetry site n).Canonical := by
  unfold State.nodeRetry
  split
  · exact h
  · dsimp only
    split <;> exact h

theorem State.Canonical.dropPut {k x va} (h : s.Canonical) : (s.dropPut k x va).Canonical := by
  unfold State.dropPut
  exact .ite h.sent.takeTrap h.sent

theorem State.Canonical.endPut {k x va handle ok} (h : s.Canonical) : (s.endPut k x va handle ok).Canonical := by
  unfold State.endPut
  exact .ite (.kick h) (.dropPut h)

theorem State.Canonical.endFault {handle ok} (h : s.Canonical) : (s.endFault handle ok).Canonical := by
  unfold State.endFault
  dsimp only
  split
  · exact h
  · refine .foldl h fun _ h₁ _ => ?_
    split
    · split
      · exact .kick (.abortTxn h₁)
      · exact .ite (.kick h₁) (.ite (.takeTrap h₁) h₁)
    · exact h₁.endPut
    · exact h₁
    · exact .ite h₁ h₁.endPart
    · exact .ite h₁.nodeRetry h₁.nodeFail

theorem State.Canonical.execFltdoneRetry_next {handle} (h : s.Canonical) : CanonicalNext (execFltdoneRetry handle s) :=
  h.endFault.next

theorem State.Canonical.execFltdoneFail_next {handle} (h : s.Canonical) : CanonicalNext (execFltdoneFail handle s) :=
  h.endFault.next

end

end Sys2Proof.Machine
end

section
/-!
SUPPORT. Steps that keep memory in its canonical form: vector and matrix instructions.
-/
namespace Sys2Proof.Machine

section
variable {s : State}

theorem State.Canonical.vsrc_next {f} {ok : VReg → State → StepOutcome} (h : s.Canonical)
    (hok : ∀ x1 (t : State), t.Canonical → CanonicalNext (ok x1 t)) : CanonicalNext (vsrc f s ok) := by
  unfold vsrc
  exact .ite (.ite h.stall_next (hok _ _ h)) (h.pop_next fun _ _ h₁ => hok _ _ h₁)

theorem State.Canonical.vdst_next {d w mask merge new taint} (h : s.Canonical) :
    CanonicalNext (vdst d w mask merge new taint s) := by
  unfold vdst
  exact .ite h.writeV.retire_next (h.append_next fun _ h₁ => h₁.retire_next)

theorem State.Canonical.vrun_next {srcs dst} {run : StepOutcome} (h : s.Canonical) (hrun : CanonicalNext run) :
    CanonicalNext (vrun srcs dst s run) :=
  h.streaming_next hrun

theorem State.Canonical.vop2_next {w f d a b m} (h : s.Canonical) : CanonicalNext (vop2 w f d a b m s) :=
  h.vrun_next (h.vsrc_next fun _ _ h₁ => h₁.vsrc_next fun _ _ h₂ => h₂.vdst_next)

theorem State.Canonical.execVadd_next {d a b m w} (h : s.Canonical) : CanonicalNext (execVadd d a b m w s) :=
  h.vop2_next

theorem State.Canonical.execVsub_next {d a b m w} (h : s.Canonical) : CanonicalNext (execVsub d a b m w s) :=
  h.vop2_next

theorem State.Canonical.execVmul_next {d a b m w} (h : s.Canonical) : CanonicalNext (execVmul d a b m w s) :=
  h.vop2_next

theorem State.Canonical.execVmulh_next {d a b m w} (h : s.Canonical) : CanonicalNext (execVmulh d a b m w s) := by
  unfold execVmulh
  exact h.vop2_next

theorem State.Canonical.execVshl_next {d a b m w} (h : s.Canonical) : CanonicalNext (execVshl d a b m w s) :=
  h.vop2_next

theorem State.Canonical.execVshr_next {d a b m w} (h : s.Canonical) : CanonicalNext (execVshr d a b m w s) :=
  h.vop2_next

theorem State.Canonical.execVsra_next {d a b m w} (h : s.Canonical) : CanonicalNext (execVsra d a b m w s) := by
  unfold execVsra
  exact h.vop2_next

theorem State.Canonical.execVand_next {d a b m} (h : s.Canonical) : CanonicalNext (execVand d a b m s) :=
  h.vop2_next

theorem State.Canonical.execVor_next {d a b m} (h : s.Canonical) : CanonicalNext (execVor d a b m s) :=
  h.vop2_next

theorem State.Canonical.execVxor_next {d a b m} (h : s.Canonical) : CanonicalNext (execVxor d a b m s) :=
  h.vop2_next

theorem State.Canonical.execVmin_next {d a b m w} (h : s.Canonical) : CanonicalNext (execVmin d a b m w s) := by
  unfold execVmin
  exact h.vop2_next

theorem State.Canonical.execVmax_next {d a b m w} (h : s.Canonical) : CanonicalNext (execVmax d a b m w s) := by
  unfold execVmax
  exact h.vop2_next

theorem State.Canonical.execVsel_next {d a b m w} (h : s.Canonical) : CanonicalNext (execVsel d a b m w s) :=
  h.vrun_next (h.vsrc_next fun _ _ h₁ => h₁.vsrc_next fun _ _ h₂ => h₂.vdst_next)

theorem State.Canonical.execVshuf_next {d a b m w} (h : s.Canonical) : CanonicalNext (execVshuf d a b m w s) :=
  h.vrun_next (h.vsrc_next fun _ _ h₁ => h₁.vsrc_next fun _ _ h₂ => h₂.vdst_next)

theorem State.Canonical.execVbcast_next {d a m w} (h : s.Canonical) : CanonicalNext (execVbcast d a m w s) := by
  unfold execVbcast
  exact .ite h.stall_next (h.vrun_next h.vdst_next)

theorem State.Canonical.execVextr_next {d a b w} (h : s.Canonical) : CanonicalNext (execVextr d a b w s) := by
  unfold execVextr
  exact .ite h.stall_next (h.vrun_next (h.vsrc_next fun _ _ h₁ => h₁.writeInt.retire_next))

theorem State.Canonical.execVins_next {d a b m w} (h : s.Canonical) : CanonicalNext (execVins d a b m w s) := by
  unfold execVins
  exact .ite h.stall_next h.vdst_next

theorem State.Canonical.execVslide_next {d a b m w} (h : s.Canonical) : CanonicalNext (execVslide d a b m w s) := by
  unfold execVslide
  exact .ite h.stall_next (h.vrun_next (h.vsrc_next fun _ _ h₁ => h₁.vdst_next))

theorem State.Canonical.maskOp_next {f d a b} (h : s.Canonical) : CanonicalNext (maskOp f d a b s) :=
  State.Canonical.retire_next h

theorem State.Canonical.execMand_next {d a b} (h : s.Canonical) : CanonicalNext (execMand d a b s) :=
  h.maskOp_next

theorem State.Canonical.execMor_next {d a b} (h : s.Canonical) : CanonicalNext (execMor d a b s) :=
  h.maskOp_next

theorem State.Canonical.execMxor_next {d a b} (h : s.Canonical) : CanonicalNext (execMxor d a b s) :=
  h.maskOp_next

theorem State.Canonical.execMnot_next {d a} (h : s.Canonical) : CanonicalNext (execMnot d a s) :=
  State.Canonical.retire_next h

theorem State.Canonical.execMpopc_next {d a} (h : s.Canonical) : CanonicalNext (execMpopc d a s) :=
  h.writeInt.retire_next

theorem State.Canonical.execMfirst_next {d a} (h : s.Canonical) : CanonicalNext (execMfirst d a s) :=
  h.writeInt.retire_next

theorem State.Canonical.fop_next {f op fma d a b m} (h : s.Canonical) : CanonicalNext (fop f op fma d a b m s) := by
  unfold fop
  refine .ite h.stall_next ?_
  exact h.vrun_next (h.vsrc_next fun _ _ h₁ => h₁.vsrc_next fun _ _ h₂ => State.Canonical.vdst_next h₂)

theorem State.Canonical.execVfadd_next {d a b m t'} (h : s.Canonical) : CanonicalNext (execVfadd d a b m t' s) :=
  h.fop_next

theorem State.Canonical.execVfsub_next {d a b m t'} (h : s.Canonical) : CanonicalNext (execVfsub d a b m t' s) :=
  h.fop_next

theorem State.Canonical.execVfmul_next {d a b m t'} (h : s.Canonical) : CanonicalNext (execVfmul d a b m t' s) :=
  h.fop_next

theorem State.Canonical.execVfma_next {d a b m t'} (h : s.Canonical) : CanonicalNext (execVfma d a b m t' s) :=
  h.fop_next

theorem State.Canonical.execVfdiv_next {d a b m t'} (h : s.Canonical) : CanonicalNext (execVfdiv d a b m t' s) :=
  h.fop_next

theorem State.Canonical.execVfsqrt_next {d a m t'} (h : s.Canonical) : CanonicalNext (execVfsqrt d a m t' s) :=
  h.vrun_next (h.vsrc_next fun _ _ h₁ => State.Canonical.vdst_next h₁)

theorem State.Canonical.fminmax_next {isMax d a b m t'} (h : s.Canonical) : CanonicalNext (fminmax isMax d a b m t' s) :=
  h.vrun_next (h.vsrc_next fun _ _ h₁ => h₁.vsrc_next fun _ _ h₂ => State.Canonical.vdst_next h₂)

theorem State.Canonical.execVfmin_next {d a b m t'} (h : s.Canonical) : CanonicalNext (execVfmin d a b m t' s) :=
  h.fminmax_next

theorem State.Canonical.execVfmax_next {d a b m t'} (h : s.Canonical) : CanonicalNext (execVfmax d a b m t' s) :=
  h.fminmax_next

theorem State.Canonical.execVcmp_next {c d a b m t'} (h : s.Canonical) : CanonicalNext (execVcmp c d a b m t' s) :=
  h.vrun_next (h.vsrc_next fun _ _ h₁ => h₁.vsrc_next fun _ _ h₂ => State.Canonical.retire_next h₂)

theorem State.Canonical.execVcvt_next {d a k src m x t'} (h : s.Canonical) : CanonicalNext (execVcvt d a k src m x t' s) :=
  h.vrun_next (h.vsrc_next fun _ _ h₁ => State.Canonical.vdst_next h₁)

theorem State.Canonical.execVred_next {d a o t' m} (h : s.Canonical) : CanonicalNext (execVred d a o t' m s) :=
  h.vrun_next (h.vsrc_next fun _ _ h₁ => State.Canonical.vdst_next h₁)

theorem State.Canonical.execVscan_next {d a o t' m} (h : s.Canonical) : CanonicalNext (execVscan d a o t' m s) :=
  h.vrun_next (h.vsrc_next fun _ _ h₁ => State.Canonical.vdst_next h₁)

theorem State.Canonical.checkPieces_next {c perm align xs} {ok : State → StepOutcome} (h : s.Canonical)
    (hok : ∀ (t : State), t.Canonical → CanonicalNext (ok t)) : CanonicalNext (checkPieces c perm align xs s ok) := by
  unfold checkPieces
  split
  · exact h.trap_next
  · exact hok _ h

theorem State.Canonical.loadPieces_next {dest fin ls deps keep} (h : s.Canonical) :
    CanonicalNext (loadPieces dest fin ls deps keep s) := by
  unfold loadPieces
  refine .ite ?_ ?_
  · exact h.readPieces_next fun _ _ _ h₁ => .ite h₁.stall_next h₁.bindNow.retire_next
  · exact h.eachPiece_next (fun _ _ h₂ _ h₃ => h₂.hostReachable_next fun _ h₄ => h₄.unpoisoned_next h₃) fun _ h₅ =>
        State.Canonical.retire_next (.issueLoad (.ite h₅.releasePoint h₅))

theorem State.Canonical.storePieces_next {ws deps} (h : s.Canonical) : CanonicalNext (storePieces ws deps s) := by
  unfold storePieces
  refine h.eachPiece_next (fun _ _ h₁ _ h₂ => h₁.hostReachable_next fun _ h₃ => .ite (h₃.track_next h₂) (h₂ _ h₃)) fun _ h₄ => ?_
  refine .ite h₄.stall_next ?_
  exact .ite h₄.stall_next (State.Canonical.retire_next (.foldl (.ite h₄ h₄.specWrite) fun _ h₅ _ => h₅.issueStore))

theorem State.Canonical.vload_next {d a m w taint bcast addr} (h : s.Canonical) :
    CanonicalNext (vload d a m w taint bcast addr s) := by
  unfold vload
  exact .ite h.retire_next (h.checkPieces_next fun _ h₁ => h₁.locatePieces_next fun _ => h₁.loadPieces_next)

theorem State.Canonical.vstore_next {d a m w taint addr} (h : s.Canonical) : CanonicalNext (vstore d a m w taint addr s) := by
  unfold vstore
  exact h.checkPieces_next fun _ h₁ => h₁.locatePieces_next fun _ => h₁.storePieces_next

theorem State.Canonical.execVld_next {d a m w} (h : s.Canonical) : CanonicalNext (execVld d a m w s) := by
  unfold execVld
  exact .ite h.stall_next h.vload_next

theorem State.Canonical.execVst_next {d a m w} (h : s.Canonical) : CanonicalNext (execVst d a m w s) := by
  unfold execVst
  exact .ite h.stall_next h.vstore_next

theorem State.Canonical.execVlds_next {d a b m w} (h : s.Canonical) : CanonicalNext (execVlds d a b m w s) := by
  unfold execVlds
  exact .ite h.stall_next h.vload_next

theorem State.Canonical.execVsts_next {d a b m w} (h : s.Canonical) : CanonicalNext (execVsts d a b m w s) := by
  unfold execVsts
  exact .ite h.stall_next h.vstore_next

theorem State.Canonical.execVgath_next {d a b m w} (h : s.Canonical) : CanonicalNext (execVgath d a b m w s) := by
  unfold execVgath
  exact .ite h.stall_next h.vload_next

theorem State.Canonical.execVscat_next {d a b m w} (h : s.Canonical) : CanonicalNext (execVscat d a b m w s) := by
  unfold execVscat
  exact .ite h.stall_next h.vstore_next

theorem State.Canonical.execVldbc_next {d a m w} (h : s.Canonical) : CanonicalNext (execVldbc d a m w s) := by
  unfold execVldbc
  exact .ite h.stall_next h.vload_next

theorem State.Canonical.openTile_next {n} {ok : ℕ → StepOutcome} (h : s.Canonical) (hok : ∀ x1, CanonicalNext (ok x1)) :
    CanonicalNext (openTile n s ok) := by
  unfold openTile
  split
  · exact h.trap_next
  · exact hok _

theorem State.Canonical.readTile_next {p} {ok : Tile → StepOutcome} (h : s.Canonical) (hok : ∀ x1, CanonicalNext (ok x1)) :
    CanonicalNext (readTile p s ok) := by
  unfold readTile
  exact .ite h.stall_next (hok _)

theorem State.Canonical.execMopen_next {d g r} (h : s.Canonical) : CanonicalNext (execMopen d g r s) := by
  unfold execMopen
  split
  · exact h.writeInt.retire_next
  · exact h.writeInt.retire_next
  · exact State.Canonical.retire_next (.writeInt h)

theorem State.Canonical.execMclose_next {d} (h : s.Canonical) : CanonicalNext (execMclose d s) := by
  unfold execMclose
  split
  · exact h.retire_next
  · exact h.cancel.putTile.mapTask.retire_next

theorem State.Canonical.execMzero_next {d} (h : s.Canonical) : CanonicalNext (execMzero d s) :=
  h.openTile_next fun _ => h.cancel.putTile.retire_next

theorem State.Canonical.opnd_next {sel size} {ok : Opnd → State → StepOutcome} (h : s.Canonical)
    (hok : ∀ x1 (t : State), t.Canonical → CanonicalNext (ok x1 t)) : CanonicalNext (opnd sel size s ok) := by
  unfold opnd
  refine .ite (h.pop_next fun _ _ h₁ => hok _ _ h₁) ?_
  refine .ite ?_ (.ite (hok _ _ h) (hok _ _ h))
  split
  · exact hok _ _ h
  · exact h.trap_next

theorem State.Canonical.stepDone_next {p elems taint src adv b bo tb} (h : s.Canonical) :
    CanonicalNext (stepDone p elems taint src adv b bo tb s) := by
  unfold stepDone
  refine State.Canonical.retire_next ?_
  refine .ite ?h₁ (.mapTask ?h₁)
  split <;> exact h

theorem State.Canonical.stepOpnds_next {d a b ta tb sizeA sizeB sca scb} {ok : ℕ → Opnd ⊕ ℕ → Opnd → State → StepOutcome}
    (h : s.Canonical) (hok : ∀ x1 x2 x3 (t : State), t.Canonical → CanonicalNext (ok x1 x2 x3 t)) :
    CanonicalNext (stepOpnds d a b ta tb sizeA sizeB sca scb s ok) := by
  unfold stepOpnds
  refine h.openTile_next fun _ => ?_
  refine .ite h.stall_next ?_
  refine .ite h.trap_next ?_
  split
  · exact h.openTile_next fun _ => h.readTile_next fun _ => h.streaming_next (h.opnd_next fun _ _ h₁ => hok _ _ _ _ h₁)
  · exact h.streaming_next (h.opnd_next fun _ _ h₂ => h₂.opnd_next fun _ _ h₃ => hok _ _ _ _ h₃)

theorem State.Canonical.execMdot_next {d a b f r x y z} (h : s.Canonical) : CanonicalNext (execMdot d a b f r x y z s) := by
  unfold execMdot
  refine h.stepOpnds_next fun _ _ _ _ h₁ => ?_
  dsimp only
  split
  · exact State.Canonical.stepDone_next h₁
  · exact h₁.stepDone_next

theorem State.Canonical.execMuprog_next {g} (h : s.Canonical) : CanonicalNext (execMuprog g s) := by
  unfold execMuprog
  exact .ite h.stall_next (.ite (State.Canonical.retire_next h) h.trap_next)

theorem State.Canonical.execMrun_next {d a b} (h : s.Canonical) : CanonicalNext (execMrun d a b s) := by
  unfold execMrun
  refine h.stepOpnds_next fun _ _ _ _ ht => ?_
  dsimp only
  exact State.Canonical.stepDone_next (.putFp ht)

theorem State.Canonical.execMrd_next {d p g} (h : s.Canonical) : CanonicalNext (execMrd d p g s) :=
  h.openTile_next fun _ => h.readTile_next fun _ => .ite h.stall_next h.cancel.cancel.writeV.writeV.retire_next

theorem State.Canonical.execMwr_next {d p g} (h : s.Canonical) : CanonicalNext (execMwr d p g s) :=
  h.openTile_next fun _ => h.readTile_next fun _ => .ite h.stall_next (State.Canonical.retire_next h)

theorem State.Canonical.tileAccess_next {c rows perm acc} {ok : List Located → State → StepOutcome} (h : s.Canonical)
    (hok : ∀ x1 (t : State), t.Canonical → CanonicalNext (ok x1 t)) : CanonicalNext (tileAccess c rows perm acc s ok) := by
  unfold tileAccess
  refine h.checkPieces_next fun _ h₁ => ?_
  split
  · exact h₁.trap_next
  · exact h₁.locatePieces_next fun _ => hok _ _ h₁

theorem State.Canonical.execMld_next {d c p} (h : s.Canonical) : CanonicalNext (execMld d c p s) :=
  h.openTile_next fun _ => .ite h.stall_next (h.tileAccess_next fun _ _ h₁ => h₁.loadPieces_next)

theorem State.Canonical.execMst_next {d c p} (h : s.Canonical) : CanonicalNext (execMst d c p s) :=
  h.openTile_next fun _ => h.readTile_next fun _ => .ite h.stall_next (h.tileAccess_next fun _ _ h₁ => h₁.storePieces_next)

theorem State.Canonical.checksums_next {d v r idx} (h : s.Canonical) : CanonicalNext (checksums d v r idx s) := by
  unfold checksums
  exact h.openTile_next fun _ => h.readTile_next fun _ => State.Canonical.retire_next (.writeV h)

theorem State.Canonical.execMsumr_next {d v r} (h : s.Canonical) : CanonicalNext (execMsumr d v r s) :=
  h.checksums_next

theorem State.Canonical.execMsumc_next {d v r} (h : s.Canonical) : CanonicalNext (execMsumc d v r s) :=
  h.checksums_next

theorem State.Canonical.execMmov_next {d r} (h : s.Canonical) : CanonicalNext (execMmov d r s) :=
  h.openTile_next fun _ => h.openTile_next fun _ => .ite h.retire_next (h.readTile_next fun _ => h.cancel.putTile.retire_next)

end

end Sys2Proof.Machine
end

section
/-!
SUPPORT. Steps that keep memory in its canonical form: the system's instructions, the home and arrivals.
-/
namespace Sys2Proof.Machine

section
variable {s : State}

theorem State.Canonical.spreadCsr {n v} (h : s.Canonical) : (s.spreadCsr n v).Canonical := by
  unfold State.spreadCsr
  exact .pushAll (.foldl (.mapCore (.mapPart h)) fun _ h₁ _ => h₁)

theorem State.Canonical.execCsrSpread_next {core csr v} (h : s.Canonical) : CanonicalNext (execCsrSpread core csr v s) := by
  unfold execCsrSpread
  exact State.Canonical.next (.ite h h)

theorem State.Canonical.execSrseedWrite_next {v} (h : s.Canonical) : CanonicalNext (execSrseedWrite v s) :=
  State.Canonical.next h

theorem State.Canonical.execMccntRead_next {d} (h : s.Canonical) : CanonicalNext (execMccntRead d s) := by
  unfold execMccntRead
  exact State.Canonical.retire_next (.writeInt h)

theorem State.Canonical.execCsrr_next {d c} (h : s.Canonical) : CanonicalNext (execCsrr d c s) := by
  unfold execCsrr
  split
  · exact h.trap_next
  · exact .ite h.execMccntRead_next h.writeInt.retire_next

theorem State.Canonical.execCsrw_next {g c} (h : s.Canonical) : CanonicalNext (execCsrw g c s) := by
  unfold execCsrw
  refine .ite h.trap_next ?_
  refine .ite h.stall_next ?_
  dsimp only
  split
  · exact State.Canonical.retire_next h
  · exact State.Canonical.retire_next h
  · split
    · exact State.Canonical.retire_next h
    · exact State.Canonical.retire_next h
    · exact h.retire_next
  · exact h.spreadCsr.retire_next

theorem State.Canonical.priv_next {sup rs} {ok : State → StepOutcome} (h : s.Canonical)
    (hok : ∀ (t : State), t.Canonical → CanonicalNext (ok t)) : CanonicalNext (priv sup rs s ok) := by
  unfold priv
  exact .ite h.trap_next (h.operands_next hok)

theorem State.Canonical.execSealroot_next {d a b} (h : s.Canonical) : CanonicalNext (execSealroot d a b s) :=
  h.priv_next fun _ h₁ => h₁.writeG.retire_next

theorem State.Canonical.tlbinv_next {d a b} (h : s.Canonical) : CanonicalNext (tlbinv d a b s) := by
  unfold tlbinv
  refine h.priv_next fun _ h₁ => ?_
  refine .ite h₁.stall_next ?_
  refine h₁.resolved_next fun _ _ _ h₂ => ?_
  dsimp only
  split
  · exact State.Canonical.retire_next (.writeInt h₂)
  · exact h₂.writeInt.retire_next

theorem State.Canonical.execTlbinvPage_next {d a b} (h : s.Canonical) : CanonicalNext (execTlbinvPage d a b s) :=
  h.tlbinv_next

theorem State.Canonical.execTlbinvAll_next {d a b} (h : s.Canonical) : CanonicalNext (execTlbinvAll d a b s) :=
  h.tlbinv_next

theorem State.Canonical.execTlbinvStripe_next {d a b} (h : s.Canonical) : CanonicalNext (execTlbinvStripe d a b s) :=
  h.tlbinv_next

theorem State.Canonical.execRowmove_next {d a b} (h : s.Canonical) : CanonicalNext (execRowmove d a b s) :=
  h.tlbinv_next

theorem State.Canonical.execRegrel_next {d a} (h : s.Canonical) : CanonicalNext (execRegrel d a s) := by
  unfold execRegrel
  refine h.priv_next fun _ h₁ => h₁.checked_next fun _ h₂ => ?_
  refine .ite h₂.trap_next ?_
  refine .ite h₂.stall_next ?_
  dsimp only
  split
  · exact State.Canonical.next h₂
  · exact h₂.located_next fun _ _ => State.Canonical.next h₂

theorem State.Canonical.execBankcfg_next {d a b} (h : s.Canonical) : CanonicalNext (execBankcfg d a b s) := by
  unfold execBankcfg
  refine h.priv_next fun _ h₁ => ?_
  dsimp only
  split
  · exact State.Canonical.retire_next (.writeInt (.ite h₁ h₁))
  · exact h₁.writeInt.retire_next

theorem State.Canonical.markFrozen {grid} (h : s.Canonical) : (s.markFrozen grid).Canonical := by
  unfold State.markFrozen
  extract_lets cores mark s₁ kept
  have h₁ : s₁.Canonical := .foldl h fun _ ht _ => ht
  exact h₁.of_mem rfl

theorem State.Canonical.freezeTeam {uid} (h : s.Canonical) : (s.freezeTeam uid).Canonical := by
  unfold State.freezeTeam
  split
  · exact h
  · exact .markFrozen (.mapTeam (h.foldl fun _ h₁ _ => h₁))

theorem State.Canonical.thawTeam {uid} (h : s.Canonical) : (s.thawTeam uid).Canonical := by
  unfold State.thawTeam
  split
  · exact h
  · exact .pushAll (.ite (.pushOnce (.mapTeam (h.foldl fun _ h₁ _ => h₁))) (.mapTeam (h.foldl fun _ h₂ _ => h₂)))

theorem State.Canonical.preemptTeam {uid} (h : s.Canonical) : (s.preemptTeam uid).Canonical := by
  unfold State.preemptTeam
  split
  · exact h
  · exact .ite h.beginQuiesce (h.foldl fun _ h₁ _ => h₁.beginQuiesce)

theorem State.Canonical.teamctl_next {d a b} (h : s.Canonical) : CanonicalNext (teamctl d a b s) := by
  unfold teamctl
  refine h.priv_next fun _ h₁ => ?_
  refine .ite h₁.writeInt.retire_next ?_
  split
  · exact h₁.writeInt.retire_next
  · split
    · exact .ite h₁.writeInt.retire_next h₁.freezeTeam.writeInt.retire_next
    · exact .ite h₁.thawTeam.writeInt.retire_next h₁.writeInt.retire_next
    · exact h₁.preemptTeam.writeInt.retire_next
    · exact h₁.writeInt.advance.killTeam.next

theorem State.Canonical.execFreeze_next {d a b} (h : s.Canonical) : CanonicalNext (execFreeze d a b s) :=
  h.teamctl_next

theorem State.Canonical.execThaw_next {d a b} (h : s.Canonical) : CanonicalNext (execThaw d a b s) :=
  h.teamctl_next

theorem State.Canonical.execPreempt_next {d a b} (h : s.Canonical) : CanonicalNext (execPreempt d a b s) :=
  h.teamctl_next

theorem State.Canonical.execKill_next {d a b} (h : s.Canonical) : CanonicalNext (execKill d a b s) :=
  h.teamctl_next

theorem State.Canonical.injectTile_fst {ga mask} (h : s.Canonical) : (s.injectTile ga mask).1.Canonical := by
  unfold State.injectTile
  exact .ite_fst h (.ite_fst h h)

theorem State.Canonical.injectData_fst {unit ga mask} (h : s.Canonical) : (s.injectData unit ga mask).1.Canonical := by
  unfold State.injectData
  exact .ite_fst h h

theorem State.Canonical.injectLink_fst {ga gb} (h : s.Canonical) : (s.injectLink ga gb).1.Canonical := by
  unfold State.injectLink
  exact .ite_fst h (.ite_fst h h)

theorem State.Canonical.execErrinj_next {d a b} (h : s.Canonical) : CanonicalNext (execErrinj d a b s) := by
  unfold execErrinj
  refine .ite h.trap_next ?_
  refine h.priv_next fun _ h₁ => State.Canonical.retire_next (.writeInt ?_)
  split
  · exact h₁.injectTile_fst
  · exact h₁.injectData_fst
  · exact h₁.injectData_fst
  · exact h₁.injectData_fst
  · exact h₁.injectLink_fst
  · exact h₁

theorem State.Canonical.execTrap_next {k} (h : s.Canonical) : CanonicalNext (execTrap k s) :=
  h.takeTrap.next

theorem State.Canonical.freezeGrid {k} (h : s.Canonical) : (s.freezeGrid k).Canonical := by
  unfold State.freezeGrid
  split
  · exact h
  · exact h.foldl fun _ h₁ _ => h₁.freezeTeam

theorem State.Canonical.execBkpt_next (h : s.Canonical) : CanonicalNext (execBkpt s) := by
  unfold execBkpt
  exact .ite h.retire_next (State.Canonical.next (.freezeGrid (.mapTask (.ite h.abortTxn h))))

theorem State.Canonical.execIdle_next (h : s.Canonical) : CanonicalNext (execIdle s) :=
  State.Canonical.next h

theorem State.Canonical.homeStep_next {e site as write} {ok : State → StepOutcome} (h : s.Canonical)
    (hok : ∀ (t : State), t.Canonical → CanonicalNext (ok t)) : CanonicalNext (homeStep e site as write s ok) := by
  unfold homeStep
  refine .ite (State.Canonical.next h) ?_
  split
  next t e =>
    have h₁ : t.Canonical := .of_some e h.hostHold_some
    exact h₁.next
  · exact hok _ h.hostUse

theorem State.Canonical.execStorePerform_next {core ctx op} (h : s.Canonical) : CanonicalNext (execStorePerform core ctx op s) := by
  unfold execStorePerform
  dsimp only
  split
  · exact h.ack.next
  · exact .ite h.performed.next (h.homeStep_next fun _ h₁ => h₁.performStore.next)

theorem State.Canonical.execRemoteRegionAccess_next {core ctx op} (h : s.Canonical) :
    CanonicalNext (execRemoteRegionAccess core ctx op s) := by
  unfold execRemoteRegionAccess
  dsimp only
  split
  · exact h.ack.next
  · exact h.unlessCopied_next (h.homeStep_next fun _ h₁ => .ite h₁.performStore.next h₁.answer.next)

theorem State.Canonical.execLineFill_next {core ctx op} (h : s.Canonical) : CanonicalNext (execLineFill core ctx op s) := by
  unfold execLineFill
  dsimp only
  split
  · exact h.ack.next
  · exact h.homeStep_next fun _ h₁ => State.Canonical.next (.answer (h₁.foldl fun _ h₂ _ => h₂.l2Touch))

theorem State.Canonical.amoApply_fst {r} (h : s.Canonical) : (s.amoApply r).1.Canonical := by
  unfold State.amoApply
  refine .ite_fst h ?_
  refine .ite_fst ?_ h.performWrite
  dsimp only
  split
  · exact h.writeHome
  · exact .ite h.writeHome.mapCtx h.writeHome

theorem State.Canonical.endOps {owner k req ops} (h : s.Canonical) : (s.endOps owner k req ops).Canonical := by
  unfold State.endOps
  split
  · exact h.ack
  · refine .performed (h.foldl fun _ h₁ _ => ?_)
    refine .ite (.route ?h₂) (.kick (.settled ?h₂))
    split
    · exact h₁
    · exact .afterPosted h₁

theorem State.Canonical.amoAnswer {owner req r old} (h : s.Canonical) : (s.amoAnswer owner req r old).Canonical := by
  unfold State.amoAnswer
  split
  · exact h.answer
  · exact .ite h.ack h.endOps

theorem State.Canonical.amoHold_some {st r e} (h : s.Canonical) : SomeCanonical (s.amoHold st r e) := by
  unfold State.amoHold
  exact .ite h.hostHold_some .none

theorem State.Canonical.execHomeAmo_next {req} (h : s.Canonical) : CanonicalNext (execHomeAmo req s) := by
  unfold execHomeAmo
  refine .ite h.next ?_
  refine .ite h.ack.next ?_
  split
  next t e =>
    have h₁ : t.Canonical := .of_some e h.amoHold_some
    exact h₁.next
  · exact h.homeStep_next fun _ h₂ => State.Canonical.next (.amoAnswer h₂.amoApply_fst)

theorem State.Canonical.execNiAtomic_next {owner req seq} (h : s.Canonical) : CanonicalNext (execNiAtomic owner req seq s) := by
  unfold execNiAtomic
  exact h.unlessCopied_next (.ite h.next (h.homeStep_next fun _ h₁ => State.Canonical.next (.amoAnswer (.ite_fst h₁.amoApply_fst
      h₁))))

theorem State.Canonical.execPutIncrement_next {core ctx op req} (h : s.Canonical) :
    CanonicalNext (execPutIncrement core ctx op req s) := by
  unfold execPutIncrement
  dsimp only
  split
  · exact h.ack.next
  · exact h.unlessCopied_next (.ite h.next (h.homeStep_next fun _ h₁ => State.Canonical.next (.performed (.ite h₁.amoApply_fst
        h₁))))

theorem State.Canonical.execLeaseExpiry_next {addr} (h : s.Canonical) : CanonicalNext (execLeaseExpiry addr s) := by
  unfold execLeaseExpiry
  exact State.Canonical.next (.ite h.passResv h)

theorem State.Canonical.parkLrw {k x a p} (h : s.Canonical) : (s.parkLrw k x a p).Canonical := by
  unfold State.parkLrw
  exact .ite (.takeTrap (.ack h)) h

theorem State.Canonical.execLrwEnqueue_next {core ctx op} (h : s.Canonical) : CanonicalNext (execLrwEnqueue core ctx op s) := by
  unfold execLrwEnqueue
  dsimp only
  split
  · exact h.ack.next
  · refine State.Canonical.homeStep_next h fun _ h₁ => ?_
    refine .ite h₁.answer.next ?_
    split
    · exact State.Canonical.next (.grant (.ite h₁.passResv h₁))
    · exact .ite (State.Canonical.next (.answer (.ite h₁.passResv h₁))) (State.Canonical.next (.parkLrw (.ite h₁.passResv h₁)))

theorem State.Canonical.execScHome_next {core ctx op} (h : s.Canonical) : CanonicalNext (execScHome core ctx op s) := by
  unfold execScHome
  dsimp only
  split
  · exact h.ack.next
  · exact h.homeStep_next fun _ h₁ => State.Canonical.next (.answer (.ite (.passResv (.performWrite (.ite h₁.passResv h₁))) (.ite
        h₁.passResv h₁)))

theorem State.Canonical.execStoreAck_next {core ctx} (h : s.Canonical) : CanonicalNext (execStoreAck core ctx s) := by
  unfold execStoreAck
  exact State.Canonical.next (.settled (.kick h))

theorem State.Canonical.execFlushReturn_next {core ctx mod} (h : s.Canonical) : CanonicalNext (execFlushReturn core ctx mod s) := by
  unfold execFlushReturn
  exact .ite h.next (State.Canonical.next (.kick h))

theorem State.Canonical.execCombineSend_next {core idx} (h : s.Canonical) : CanonicalNext (execCombineSend core idx s) := by
  unfold execCombineSend
  exact .ite h.next (State.Canonical.next (.ite h.combineSend.push h.combineSend))

theorem State.Canonical.execRemoteCopyExpiry_next {core line} (h : s.Canonical) :
    CanonicalNext (execRemoteCopyExpiry core line s) := by
  unfold execRemoteCopyExpiry
  refine State.Canonical.next ?_
  split
  · exact .ite (.evictLine h) h
  · exact h

theorem State.Canonical.execForwardDone_next {hod highest} (h : s.Canonical) : CanonicalNext (execForwardDone hod highest s) := by
  unfold execForwardDone
  exact State.Canonical.next (.resume h)

theorem State.Canonical.orphan {p r} (h : s.Canonical) : (s.orphan p r).Canonical := by
  unfold State.orphan
  refine .settled ?_
  split
  · exact .niOwn (.quietOn h)
  · exact .quietOn h

theorem State.Canonical.installFill {k p extra} (h : s.Canonical) : (s.installFill k p extra).Canonical := by
  unfold State.installFill
  exact h.foldl fun _ h₁ _ => .ite h₁.fillLine (.ite h₁ (.fillLine h₁))

theorem State.Canonical.replyCaches {k p r} (h : s.Canonical) : (s.replyCaches k p r).Canonical := by
  unfold State.replyCaches
  exact .ite h.dropCopies (.ite h.installFill (.ite h h.dropCopiesOf))

theorem State.Canonical.execReplyDeposit_next {r} (h : s.Canonical) : CanonicalNext (execReplyDeposit r s) := by
  unfold execReplyDeposit
  dsimp only
  split
  · exact h.orphan.next
  · exact h.next
  · refine .ite (State.Canonical.next (.settled (.quietOn h))) ?_
    refine State.Canonical.next (.kick ?_)
    refine .ite ?_ ?_
    · exact .pushOnce (.ite (h.deposit.replyCaches.asCtx fun _ h₁ => .advance h₁) h.deposit.replyCaches)
    · exact .ite (h.deposit.replyCaches.asCtx fun _ h₂ => .advance h₂) h.deposit.replyCaches

theorem State.Canonical.acceptAt {k m reserved} (h : s.Canonical) : (s.acceptAt k m reserved).Canonical :=
  h.ack.settleMsg.enqueue

theorem State.Canonical.inbound {k m} (h : s.Canonical) : (s.inbound k m).Canonical := by
  unfold State.inbound
  refine .ite h.refuseAt ?_
  refine .ite h.refuseAt ?_
  split
  · exact h.acceptAt
  · exact h.refuseAt

theorem State.Canonical.strayFault {m} (h : s.Canonical) : (s.strayFault m).Canonical := by
  unfold State.strayFault
  exact .ite h h

theorem State.Canonical.execMessageAccept_next {m} (h : s.Canonical) : CanonicalNext (execMessageAccept m s) := by
  unfold execMessageAccept
  dsimp only
  split
  · refine State.Canonical.next ?_
    split
    · exact .ite h.ack.stray.strayFault h.inbound
    · exact h.ack.stray.strayFault
  · split
    · exact h.ack.stray.strayFault.next
    · refine .ite h.ack.stray.strayFault.next ?_
      exact .ite h.execMaildropAppend_next (State.Canonical.next (.ite h.inbound (.ite h.refuseAt h.ack.mapNi.route)))

theorem State.Canonical.retryFreed {k} (h : s.Canonical) : (s.retryFreed k).Canonical := by
  unfold State.retryFreed
  refine .foldl ?_ fun _ h₁ _ => h₁.pushOnce
  split
  · exact .ite h h.restoreRetry
  · exact h

theorem State.Canonical.sendAgain {k old m} (h : s.Canonical) : (s.sendAgain k old m).Canonical := by
  unfold State.sendAgain
  exact .retryFreed (.retransmit h)

theorem State.Canonical.execRefuse_next {m nolist chain} (h : s.Canonical) : CanonicalNext (execRefuse m nolist chain s) := by
  unfold execRefuse
  exact State.Canonical.next (.ite h.giveUp.mapRetry.quietOn h.mapRetry)

theorem State.Canonical.resendAgain {site m} (h : s.Canonical) : (s.resendAgain site m).Canonical := by
  unfold State.resendAgain
  refine .ite (.retransmit h) ?_
  split
  · exact h
  · exact .consume h

theorem State.Canonical.execRoomNotice_next {core x1 id} (h : s.Canonical) : CanonicalNext (execRoomNotice core x1 id s) := by
  unfold execRoomNotice
  split
  · exact h.sendAgain.next
  · split
    · exact h.resendAgain.next
    · exact h.next

theorem State.Canonical.execRoomReservationLapse_next {core id} (h : s.Canonical) :
    CanonicalNext (execRoomReservationLapse core id s) := by
  unfold execRoomReservationLapse
  split
  · exact h.next
  · exact .ite h.next (State.Canonical.next (.entryFreed h))

theorem State.Canonical.execTimedRetry_next {core id} (h : s.Canonical) : CanonicalNext (execTimedRetry core id s) := by
  unfold execTimedRetry
  split
  · exact h.next
  · refine .ite h.sendAgain.next ?_
    split
    · exact h.next
    · exact .ite h.next (State.Canonical.next (.sendAgain h))

theorem State.Canonical.coreSends {k} (h : s.Canonical) : (s.coreSends k).Canonical := by
  unfold State.coreSends
  exact .foldl (.ite (.ite h h.retryFreed) (.sendOwn (.ite h h.retryFreed))) fun _ h₁ _ => .ite h₁.sendAgain h₁

theorem State.Canonical.execChainAck_next {core target} (h : s.Canonical) : CanonicalNext (execChainAck core target s) :=
  State.Canonical.next (h.foldl fun _ h₁ _ => h₁.sendAgain)

theorem State.Canonical.execPromotion_next {core id} (h : s.Canonical) : CanonicalNext (execPromotion core id s) :=
  State.Canonical.next h

theorem State.Canonical.markHeld {k} (h : s.Canonical) : (s.markHeld k).Canonical :=
  h.foldl fun _ h₁ _ => .ite h₁ h₁

theorem State.Canonical.startTask {k x uid t' e} (h : s.Canonical) : (s.startTask k x uid t' e).Canonical := by
  unfold State.startTask
  exact .ite (.ite (.dropCopies h) h) (.takeTrap (.ite (.dropCopies h) h))

theorem State.Canonical.execDispatch_next {core} (h : s.Canonical) : CanonicalNext (execDispatch core s) := by
  unfold execDispatch
  dsimp only
  split
  · refine .ite h.next ?_
    split
    · exact h.markHeld.next
    · refine .ite h.markHeld.discardEntry.push.next ?_
      split
      · exact h.markHeld.next
      · exact h.markHeld.startTask.next
  · exact h.next

theorem State.Canonical.execBudget_next {core ctx} (h : s.Canonical) : CanonicalNext (execBudget core ctx s) := by
  unfold execBudget
  exact .ite h.next h.takeTrap.next

theorem State.Canonical.execParkResume_next {core ctx} (h : s.Canonical) : CanonicalNext (execParkResume core ctx s) := by
  unfold execParkResume
  dsimp only
  split
  · split
    · exact h.next
    · exact .ite h.discardEntry.push.next (State.Canonical.next (.wakeWaitm (h.asCtx fun _ h₁ => h₁.takeMsg.advance)))
  · refine .ite h.next ?_
    refine .ite (State.Canonical.next (.takeTrap h)) ?_
    split
    · exact h.next
    · exact State.Canonical.next (.takeTrap h)
    · exact State.Canonical.next (.asCtx h fun _ h₂ => h₂.bwaitDone)
  · exact State.Canonical.next h
  · exact State.Canonical.next h
  · exact h.next

theorem State.Canonical.execIdleWake_next {core ctx} (h : s.Canonical) : CanonicalNext (execIdleWake core ctx s) := by
  unfold execIdleWake
  exact State.Canonical.next (.ite h (h.asCtx fun _ h₁ => .advance h₁))

theorem State.Canonical.niXlate_fst {k va acc} (h : s.Canonical) : (s.niXlate k va acc).1.Canonical := by
  unfold State.niXlate
  split
  · exact h
  · split
    next t _ e =>
      have h₁ : t.Canonical := .of_fst e h.agentXlate_fst
      exact h₁
    next t _ e =>
      have h₂ : t.Canonical := .of_fst e h.agentXlate_fst
      exact h₂

theorem State.Canonical.niRange_fst {k va n acc} (h : s.Canonical) : (s.niRange k va n acc).1.Canonical := by
  unfold State.niRange
  refine h.foldl_fst fun _ h₁ _ => ?_
  dsimp only
  split
  · exact h₁
  · split
    next t _ _ e =>
      have h₂ : t.Canonical := .of_fst e h₁.niXlate_fst
      exact h₂
    next t _ e =>
      have h₃ : t.Canonical := .of_fst e h₁.niXlate_fst
      exact h₃

theorem State.Canonical.sendPut {k x seq q} (h : s.Canonical) : (s.sendPut k x seq q).Canonical := by
  unfold State.sendPut
  dsimp only
  split
  next t _ _ e =>
    have h₁ : t.Canonical := .of_fst e h.niRange_fst
    exact .ite h₁ h₁.openFault
  next t _ e =>
    have h₂ : t.Canonical := .of_fst e h.niRange_fst
    split
    next t _ _ e =>
      have h₃ : t.Canonical := .of_fst e h₂.niRange_fst
      exact .ite h₃ h₃.openFault
    next t _ e =>
      have h₄ : t.Canonical := .of_fst e h₂.niRange_fst
      split
      next t _ e =>
        have h₅ : t.Canonical := .of_fst e h₄.niXlate_fst
        exact .ite h₅ h₅.openFault
      next t _ _ e =>
        have h₆ : t.Canonical := .of_fst e h₄.niXlate_fst
        exact .ite h₆.dropPut (.ite h₆ (.ite h₆ (.kick (.sent (.foldl h₆ fun _ h₇ _ => h₇.storeCopies)))))

theorem State.Canonical.sendrReady_fst {k x after} (h : s.Canonical) : (s.sendrReady k x after).1.Canonical := by
  unfold State.sendrReady
  exact .ite_fst h.combineFlush (.ite_fst h.combineFlush.mapCtx (.ite h.combineFlush.beginFlush h.combineFlush))

theorem State.Canonical.execNiTransmit_next {core ctx} (h : s.Canonical) : CanonicalNext (execNiTransmit core ctx s) := by
  unfold execNiTransmit
  dsimp only
  split
  · exact h.next
  · refine .ite h.next ?_
    split
    · exact h.moveFifo.sent.next
    · exact h.moveFifo.sent.next
    · exact h.sendPut.next
    · refine .ite h.next ?_
      refine .ite h.niSend.sent.next ?_
      split
      next t e =>
        have h₁ : t.Canonical := .of_fst e h.sendrReady_fst
        exact h₁.niSend.sent.next
      next t e =>
        have h₂ : t.Canonical := .of_fst e h.sendrReady_fst
        exact h₂.next
    · split
      next t e =>
        have h₃ : t.Canonical := .of_fst e h.sendrReady_fst
        exact .ite (State.Canonical.next (.sent h₃)) (.ite h₃.next h₃.route.sent.next)
      next t e =>
        have h₄ : t.Canonical := .of_fst e h.sendrReady_fst
        exact h₄.next

end

end Sys2Proof.Machine
end

section
/-!
SUPPORT. Steps that keep memory in its canonical form: the fabric, tables and faults.
-/
namespace Sys2Proof.Machine

section
variable {s : State}

theorem State.Canonical.xmitOn {a} (h : s.Canonical) : (s.xmitOn a).Canonical := by
  unfold State.xmitOn
  exact .ite h (.quietOn (h.foldl fun _ h₁ _ => h₁.kick))

theorem State.Canonical.chainOn {x1} (h : s.Canonical) : (s.chainOn x1).Canonical := by
  unfold State.chainOn
  split
  · exact .ite h h
  · exact h

theorem State.Canonical.takeAnswer {a owner seq e} (h : s.Canonical) : (s.takeAnswer a owner seq e).Canonical := by
  unfold State.takeAnswer
  split
  · exact h
  · refine .xmitOn ?_
    split
    · exact h.freeXmit.chainOn.push
    · exact h.freeXmit.chainOn

theorem State.Canonical.takeRefusal {a owner seq e} (h : s.Canonical) : (s.takeRefusal a owner seq e).Canonical := by
  unfold State.takeRefusal
  split
  · exact h
  · dsimp only
    split
    · refine .ite (.ite (.push (.sendNext h)) (.resendLater (.sendNext h))) ?_
      exact .ite h.freeXmit.injectCtl.route h.freeXmit.injectCtl.resendLater
    · exact .xmitOn h

theorem State.Canonical.performReq {f e} (h : s.Canonical) : (s.performReq f e).Canonical := by
  unfold State.performReq
  exact .push (.ite (.ite h (.markApplied h)) (.injectCtl (.ite h (.markApplied h))))

theorem State.Canonical.answerAgain {o src seq w rerouted} (h : s.Canonical) : (s.answerAgain o src seq w rerouted).Canonical := by
  unfold State.answerAgain
  split
  · exact h.injectCtl
  · split
    · exact h.inject
    · exact h.injectCtl
    · exact h.injectCtl
    · exact h.injectCtl
    · exact h

theorem State.Canonical.windowArrive {f e} (h : s.Canonical) : (s.windowArrive f e).Canonical := by
  unfold State.windowArrive
  refine .ite h ?_
  split
  · refine .ite h ?_
    refine .ite ?_ (.performReq h)
    split
    · exact .injectCtl h
    · exact h.injectCtl
  · refine .ite ?_ ?_
    · exact .ite (.answerAgain (.mapSite (.ite h h))) (.performReq (.ite h h))
    · exact .ite (.performReq (.mapWindow (.ite h h))) (.mapSite (.ite h h))

theorem State.Canonical.deliverItem {f} (h : s.Canonical) : (s.deliverItem f).Canonical := by
  unfold State.deliverItem
  refine .ite h.takeAnswer ?_
  split
  · exact h.windowArrive
  · exact h

theorem State.Canonical.takeControl {f} (h : s.Canonical) : (s.takeControl f).Canonical := by
  unfold State.takeControl
  split
  · exact h.takeAnswer
  · exact h.takeRefusal
  · split <;> exact h
  · split <;> exact h
  · exact h
  · exact h
  · exact h

theorem State.Canonical.meshCycle {site} (h : s.Canonical) : (s.meshCycle site).Canonical := by
  unfold State.meshCycle
  exact .foldl h fun _ h₁ _ => h₁.foldl fun _ h₂ _ => .ite h₂ (.ite h₂ (.ite h₂.takeControl h₂.deliverItem))

theorem State.Canonical.enter {site f} (h : s.Canonical) : (s.enter site f).Canonical := by
  unfold State.enter
  split
  · exact .ite h.takeControl h.deliverItem
  · exact .pushOnce h

theorem State.Canonical.execReassemblyDeliver_next {site src seq} (h : s.Canonical) :
    CanonicalNext (execReassemblyDeliver site src seq s) := by
  unfold execReassemblyDeliver
  dsimp only
  split
  · exact h.next
  · exact State.Canonical.next (.enter h)

theorem State.Canonical.rerouteFlit {site f} (h : s.Canonical) : (s.rerouteFlit site f).Canonical :=
  h.injectCtl

theorem State.Canonical.sendFlit {st dir plane f} (h : s.Canonical) : (s.sendFlit st dir plane f).Canonical := by
  unfold State.sendFlit
  exact .ite (.rerouteFlit h) (.ite h (.pushOnce (.mapSite (.ite h h))))

theorem State.Canonical.acked {st} (h : s.Canonical) : (s.acked st).Canonical :=
  h.foldl fun _ h₁ _ => .ite h₁ h₁

theorem State.Canonical.eject_some {st f} (h : s.Canonical) : SomeCanonical (s.eject st f) := by
  unfold State.eject
  exact .ite (.ite h.enter.found .none) (.ite h.found (.ite (State.Canonical.found (.ite h h)) .none))

theorem routeFlit_fst {st top f} {acc : State × List (ℕ × ℕ) × List Flit} (hacc : acc.1.Canonical) :
    (State.routeFlit st top acc f).1.Canonical := by
  unfold State.routeFlit
  refine .ite_fst ?_ ?_
  · split
    next t e =>
      have h₁ : t.Canonical := .of_some e hacc.eject_some
      exact h₁
    · dsimp only
      split
      · exact hacc.mapSite.sendFlit
      · exact hacc.mapSite.mapSite.sendFlit
      · exact hacc.mapSite
  · dsimp only
    split
    · exact hacc.sendFlit
    · exact hacc.mapSite.sendFlit
    · exact hacc

theorem injectFlit_fst {st f} {acc : State × List (ℕ × ℕ) × List Flit} (hacc : acc.1.Canonical) :
    (State.injectFlit st acc f).1.Canonical := by
  unfold State.injectFlit
  refine .ite_fst ?_ ?_
  · split
    next t e =>
      have h₁ : t.Canonical := .of_some e hacc.eject_some
      exact h₁
    · exact hacc
  · dsimp only
    split
    · exact hacc.sendFlit
    · exact hacc

theorem State.Canonical.execPorderRouterCycle_next {site} (h : s.Canonical) : CanonicalNext (execPorderRouterCycle site s) := by
  unfold execPorderRouterCycle
  refine State.Canonical.next ?_
  refine .ite (.pushOnce ?h₁) ?h₁
  refine .ite (.push ?h₂) ?h₂
  refine .ite (.mapSite (.foldl_fst ?h₃ fun _ h₄ _ => injectFlit_fst h₄)) (.push (.mapSite (.foldl_fst ?h₃ fun _ h₅ _ =>
      injectFlit_fst h₅)))
  split
  · exact h.acked.meshCycle.mapSite.foldl fun _ h₆ _ => h₆.rerouteFlit
  · exact .foldl_fst (routeFlit_fst (h.acked.meshCycle.mapSite.foldl fun _ h₇ _ => h₇.rerouteFlit)) fun _ h₈ _ => routeFlit_fst h₈

theorem State.Canonical.execAgeouts_next {site flit} (h : s.Canonical) : CanonicalNext (execAgeouts site flit s) := by
  unfold execAgeouts
  dsimp only
  split
  · exact h.next
  · refine .ite h.next ?_
    refine State.Canonical.next ?_
    split
    · exact .push (.rerouteFlit h)
    · exact .rerouteFlit h

theorem State.Canonical.execInjectionStarvation_next {site plane} (h : s.Canonical) :
    CanonicalNext (execInjectionStarvation site plane s) :=
  State.Canonical.next h

theorem State.Canonical.execLinkReplay_next {link} (h : s.Canonical) : CanonicalNext (execLinkReplay link s) := by
  unfold execLinkReplay
  dsimp only
  split
  · exact h.next
  · refine .ite h.next ?_
    exact .ite (State.Canonical.next h) (State.Canonical.next (.ite (.sendFlit h) (.push (.sendFlit h))))

theorem State.Canonical.killEnd {st dir} (h : s.Canonical) : (s.killEnd st dir).Canonical := by
  unfold State.killEnd
  exact .foldl h fun _ h₁ _ => h₁.rerouteFlit

theorem State.Canonical.execLinkDead_next {link} (h : s.Canonical) : CanonicalNext (execLinkDead link s) := by
  unfold execLinkDead
  exact .ite h.next (State.Canonical.next (.machineCheck (.ite h.killEnd h.killEnd.killEnd)))

theorem State.Canonical.execLaneRetire_next {link} (h : s.Canonical) : CanonicalNext (execLaneRetire link s) := by
  unfold execLaneRetire
  exact .ite h.next (.ite (State.Canonical.next h) (State.Canonical.next h))

theorem State.Canonical.execLinkTrain_next {link partner domain versions} (h : s.Canonical) :
    CanonicalNext (execLinkTrain link partner domain versions s) := by
  unfold execLinkTrain
  refine .ite (State.Canonical.next h) ?_
  extract_lets
  split
  · exact .ite (State.Canonical.next h) (State.Canonical.next h)
  · exact State.Canonical.next (.machineCheck (.ite h h))

theorem State.Canonical.failOp {cause target k x op} (h : s.Canonical) : (s.failOp cause target k x op).Canonical := by
  unfold State.failOp
  dsimp only
  split
  · exact h
  · exact .ite (.settled (.quietOn h)) (.ite (.takeTrap h) (.ite (.push (.kick h)) (.settled (.kick h))))

theorem State.Canonical.cancelOp {target k x op} (h : s.Canonical) : (s.cancelOp target k x op).Canonical :=
  h.failOp

theorem State.Canonical.cancelSteal {target k x} (h : s.Canonical) : (s.cancelSteal target k x).Canonical := by
  unfold State.cancelSteal
  dsimp only
  split
  · exact .takeTrap h
  · exact h

theorem State.Canonical.cancelWait {target k x} (h : s.Canonical) : (s.cancelWait target k x).Canonical := by
  unfold State.cancelWait
  exact .ite h.takeTrap h

theorem State.Canonical.cancelAmo {target r} (h : s.Canonical) : (s.cancelAmo target r).Canonical := by
  unfold State.cancelAmo
  split
  · exact h.cancelOp
  · exact .ite h (h.foldl fun _ h₁ _ => h₁.cancelOp)

theorem State.Canonical.loseMsg {m} (h : s.Canonical) : (s.loseMsg m).Canonical := by
  unfold State.loseMsg
  exact .ite h.consume.mapNi h.consume

theorem State.Canonical.cancelStep {target e} (h : s.Canonical) : (s.cancelStep target e).Canonical := by
  unfold State.cancelStep
  split
  · exact h.loseMsg.chainOn
  · exact h.cancelOp
  · exact h.cancelOp
  · exact h.cancelOp
  · exact h.cancelOp
  · exact h.cancelOp
  · exact h.cancelOp
  · exact h.cancelAmo
  · exact h.cancelAmo
  · exact h.cancelOp
  · exact h.cancelWait
  · exact h.cancelWait
  · exact h.cancelWait
  · exact h.cancelSteal
  · exact h.cancelSteal
  · exact h

theorem State.Canonical.execReroute_next {agent owner item} (h : s.Canonical) : CanonicalNext (execReroute agent owner item s) := by
  unfold execReroute
  refine .ite (State.Canonical.next h) ?_
  refine .ite ?_ ?_
  · split
    · exact State.Canonical.next (.answerAgain h)
    · exact State.Canonical.next h
  · extract_lets
    split
    · exact State.Canonical.next h
    · refine .ite (State.Canonical.next (.inject h)) ?_
      exact State.Canonical.next (.xmitOn (.cancelStep (.machineCheck (.ite (.injectCtl (.freeXmit h)) (.freeXmit h)))))

theorem State.Canonical.execSkip_next {owner src seq} (h : s.Canonical) : CanonicalNext (execSkip owner src seq s) := by
  unfold execSkip
  dsimp only
  split
  · exact State.Canonical.next (.ite h (.markApplied h))
  · exact .ite h.next (State.Canonical.next (.markApplied (.mapWindow (.ite h h))))

theorem State.Canonical.execWindowCloseTimer_next {agent owner} (h : s.Canonical) :
    CanonicalNext (execWindowCloseTimer agent owner s) := by
  unfold execWindowCloseTimer
  dsimp only
  split
  · exact h.next
  · exact .ite h.next (State.Canonical.next (.injectCtl h))

theorem State.Canonical.execClose_next {owner src seq} (h : s.Canonical) : CanonicalNext (execClose owner src seq s) :=
  State.Canonical.next h

theorem State.Canonical.tlbInstall {k acc e} (h : s.Canonical) : (s.tlbInstall k acc e).Canonical := by
  unfold State.tlbInstall
  exact .mapSite (.ite h h)

theorem State.Canonical.tlbHome {k part va} (h : s.Canonical) : (s.tlbHome k part va).Canonical := by
  unfold State.tlbHome
  split <;> exact h

theorem State.Canonical.agentAgain {x1} (h : s.Canonical) : (s.agentAgain x1).Canonical := by
  unfold State.agentAgain
  split
  · exact h.kick
  · exact h.kick
  · exact h
  · exact h
  · exact h.nodeRetry

theorem State.Canonical.walkFor_fst {st part m} (h : s.Canonical) : (s.walkFor st part m).1.Canonical := by
  unfold State.walkFor
  refine .ite_fst h ?_
  split
  · exact h
  · dsimp only
    split
    · exact h.loadStripe
    · exact .ite_fst h.loadStripe h.loadStripe
    · exact h.loadStripe

theorem State.Canonical.walkServe {part m w} (h : s.Canonical) : (s.walkServe part m w).Canonical := by
  unfold State.walkServe
  dsimp only
  split
  · exact h.walkUpdate.tlbInstall.tlbHome
  · exact h.walkUpdate.agentAgain

theorem State.Canonical.endWalk {st walker} (h : s.Canonical) : (s.endWalk st walker).Canonical := by
  unfold State.endWalk
  exact .foldl h fun _ h₁ _ => h₁.startWalk

theorem State.Canonical.execPageWalk_next {agent va acc} (h : s.Canonical) : CanonicalNext (execPageWalk agent va acc s) := by
  unfold execPageWalk
  dsimp only
  split
  next t e =>
    have h₁ : t.Canonical := .of_some e (.findSome fun _ => State.Canonical.walkHeld_some (h.foldl_fst fun _ h₂ _ =>
        h₂.walkFor_fst))
    exact State.Canonical.next h₁
  · refine State.Canonical.next ?_
    split
    · refine .endWalk ?_
      split
      · exact .foldl (h.foldl_fst fun _ h₃ _ => h₃.walkFor_fst) fun _ h₄ _ => h₄.walkServe
      · exact .openFault (.foldl (h.foldl_fst fun _ h₅ _ => h₅.walkFor_fst) fun _ h₆ _ => h₆.walkServe)
    · split
      · exact .foldl (h.foldl_fst fun _ h₇ _ => h₇.walkFor_fst) fun _ h₈ _ => h₈.walkServe
      · exact .openFault (.foldl (h.foldl_fst fun _ h₉ _ => h₉.walkFor_fst) fun _ h₁₀ _ => h₁₀.walkServe)

theorem State.Canonical.execFirstTouch_next {agent va acc} (h : s.Canonical) : CanonicalNext (execFirstTouch agent va acc s) := by
  unfold execFirstTouch
  refine .ite h.next ?_
  refine .ite h.openFault.next ?_
  refine .ite ?_ ?_
  · refine State.Canonical.next ?_
    split
    · exact h.tlbHome
    · exact h
  · extract_lets
    split
    next t e =>
      have h₁ : t.Canonical := .of_left e h.homeRegion_left
      refine State.Canonical.next ?_
      split
      · exact h₁.tlbHome
      · exact h₁
    · exact h.openFault.next

theorem State.Canonical.releaseRegion {key r} (h : s.Canonical) : (s.releaseRegion key r).Canonical :=
  h.removeHolders.of_mem rfl

theorem State.Canonical.execRegrelComplete_next {core ctx region} (h : s.Canonical) :
    CanonicalNext (execRegrelComplete core ctx region s) := by
  unfold execRegrelComplete
  split
  · dsimp only
    split
    · refine .ite (State.Canonical.next (.asCtx h fun _ h₁ => h₁.writeG.advance)) ?_
      exact State.Canonical.next (h.releaseRegion.mapCtx.asCtx fun _ h₂ => h₂.writeG.advance)
    · exact State.Canonical.next (.asCtx h fun _ h₃ => h₃.writeG.advance)
  · exact h.next

theorem State.Canonical.validateStripe_fst {part i} (h : s.Canonical) : (s.validateStripe part i).1.Canonical := by
  unfold State.validateStripe
  exact .ite_fst h h.performWrite

theorem State.Canonical.copyBlocks {ps} (h : s.Canonical) : (s.copyBlocks ps).Canonical :=
  State.copyBlocks_wf ps h

theorem State.Canonical.countForwards {part lo ps} (h : s.Canonical) : (s.countForwards part lo ps).Canonical :=
  h.foldl fun _ h₁ _ => h₁

theorem State.Canonical.moveParts {part lo ps} (h : s.Canonical) : (s.moveParts part lo ps).Canonical := by
  unfold State.moveParts
  exact .mapSteps (h.foldl fun _ h₁ _ => h₁)

theorem State.Canonical.moveRow_fst {part sh again} (h : s.Canonical) : (s.moveRow part sh again).1.Canonical := by
  unfold State.moveRow
  dsimp only
  split
  · exact h
  · refine .ite_fst h ?_
    split
    · exact h
    · refine .ite_fst h ?_
      refine .ite_fst h ?_
      split
      next t e =>
        have h₁ : t.Canonical := .of_some e h.hostHold_some
        exact h₁
      · split
        next t e =>
          have h₂ : t.Canonical := .of_some e h.hostHold_some
          exact h₂
        · exact .performWrite (.foldl (.foldl (.l2Forget (.forgetLines (.moveParts (.moveDirs (.copyBlocks (.removeHolders
              (.countForwards h))))))) fun _ h₃ _ => h₃) fun _ h₄ _ => h₄)

theorem State.Canonical.shootRemove {part sh} (h : s.Canonical) : (s.shootRemove part sh).Canonical := by
  unfold State.shootRemove
  exact .mapPart h

theorem State.Canonical.shootStart {part site sh again} (h : s.Canonical) : (s.shootStart part site sh again).Canonical := by
  unfold State.shootStart
  dsimp only
  split
  · exact .mapSite h.shootRemove.validateStripe_fst
  · split
    next t e => exact .of_fst e h.moveRow_fst
    next t _ e =>
      have h₁ : t.Canonical := .of_fst e h.moveRow_fst
      exact h₁.shootRemove.mapSite
    next t _ _ _ e =>
      have h₂ : t.Canonical := .of_fst e h.moveRow_fst
      exact h₂
  · exact h.shootRemove.mapSite

theorem State.Canonical.execTlbinvCompletion_next {part id} (h : s.Canonical) : CanonicalNext (execTlbinvCompletion part id s) := by
  unfold execTlbinvCompletion
  dsimp only
  split
  · exact h.next
  · split
    · exact State.Canonical.next (.ite h h.shootStart)
    · refine .ite (State.Canonical.next (.ite h h.shootStart)) ?_
      exact State.Canonical.next (.niOwn (.mapSite (.foldl (.ite h h.shootStart) fun _ h₁ _ => h₁.route)))

theorem State.Canonical.execAuditAppend_next {core msgid teamid slot epoch word} (h : s.Canonical) :
    CanonicalNext (execAuditAppend core msgid teamid slot epoch word s) := by
  unfold execAuditAppend
  refine .ite h.mapPart.next ?_
  dsimp only
  split
  next t _ e =>
    have h₁ : t.Canonical := .of_fst e h.agentXlate_fst
    exact .ite (State.Canonical.next h₁) h₁.mapPart.next
  next t _ e =>
    have h₂ : t.Canonical := .of_fst e h.agentXlate_fst
    refine .ite (State.Canonical.next h₂) ?_
    split
    next t e =>
      have h₃ : t.Canonical := .of_some e h₂.hostHold_some
      exact h₃.next
    · exact h₂.hostUse.performWrite.mapPart.next

theorem State.Canonical.dramCorrected {a} (h : s.Canonical) : (s.dramCorrected a).Canonical := by
  unfold State.dramCorrected
  exact .ite h h

theorem State.Canonical.poisonTeam {uid} (h : s.Canonical) : (s.poisonTeam uid).Canonical := by
  unfold State.poisonTeam
  split
  · exact h
  · exact h.foldl fun _ h₁ _ => .ite h₁ h₁

theorem State.Canonical.poisonBank {a unit} (h : s.Canonical) : (s.poisonBank a unit).Canonical := by
  unfold State.poisonBank
  exact .foldl h fun _ h₁ _ => h₁.poisonTeam

theorem State.Canonical.poisonSync {k i} (h : s.Canonical) : (s.poisonSync k i).Canonical := by
  unfold State.poisonSync
  split
  · exact .machineCheck (.poisonTeam (.foldl h fun _ h₁ _ => .ite h₁ h₁))
  · exact h

theorem State.Canonical.loseRetry {k e} (h : s.Canonical) : (s.loseRetry k e).Canonical := by
  unfold State.loseRetry
  exact .chainOn (.machineCheck (.stray (.giveUp h)))

theorem State.Canonical.loseSend {k x e} (h : s.Canonical) : (s.loseSend k x e).Canonical := by
  unfold State.loseSend
  refine .ite h.takeTrap ?_
  refine .ite (.pushOnce ?h₁) (.settled (.quietOn ?h₁))
  split
  · exact .machineCheck (.stray h)
  · exact .ite (.takeTrap h) h
  · exact h

theorem State.Canonical.loseWindow {k src e} (h : s.Canonical) : (s.loseWindow k src e).Canonical := by
  unfold State.loseWindow
  dsimp only
  split
  · exact .xmitOn (.cancelStep (.freeXmit h))
  · exact h

theorem State.Canonical.loseEntry {k arr i} (h : s.Canonical) : (s.loseEntry k arr i).Canonical := by
  unfold State.loseEntry
  dsimp only
  split
  · split
    · exact h
    · split
      · exact .loseRetry h
      · exact h
  · split
    · exact h
    · exact .entryFreed h
  · split
    · exact h
    · exact h.loseRetry
  · split
    · exact h
    · exact h.loseSend
  · split
    · exact h
    · exact .cancelAmo h
  · split
    · exact h
    · exact .settled h
  · split
    · exact h
    · exact .cancelOp h
    · exact h
  · split
    · exact h
    · exact h.loseWindow

theorem State.Canonical.uncorrectable {x1} (h : s.Canonical) : (s.uncorrectable x1).Canonical := by
  unfold State.uncorrectable
  split
  · exact h
  · exact .ite h h
  · exact h.poisonBank
  · exact h.poisonBank
  · exact h.poisonSync
  · exact h
  · exact h.loseEntry.machineCheck
  · exact h
  · exact h
  · exact h
  · exact h
  · exact h
  · exact .ite h h
  · exact .ite h.dropLine.poisonLine h.dropLine
  · exact h

theorem State.Canonical.execEccError_next {u correctable} (h : s.Canonical) : CanonicalNext (execEccError u correctable s) := by
  unfold execEccError
  refine State.Canonical.next ?_
  split
  · exact h.dramCorrected
  · exact h.uncorrectable
  · exact h
  · exact h.uncorrectable

theorem State.Canonical.execScrub_next {site found} (h : s.Canonical) : CanonicalNext (execScrub site found s) :=
  h.checkRead.pushAll.next

theorem State.Canonical.execCoreLoss_next {core} (h : s.Canonical) : CanonicalNext (execCoreLoss core s) := by
  unfold execCoreLoss
  refine .ite h.next ?_
  refine .ite ?_ ?_
  · exact State.Canonical.next (.mapSite (.mapCore (.foldl h fun _ h₁ _ => .ite h₁.takeTrap h₁)))
  · refine State.Canonical.next ?_
    split
    · exact .preemptTeam (.machineCheck (.mapCore (.mapCore (.foldl h fun _ h₂ _ => .ite h₂.takeTrap h₂))))
    · exact .machineCheck (.mapCore (.mapCore (.foldl h fun _ h₃ _ => .ite h₃.takeTrap h₃)))

theorem State.Canonical.execSpareTakeover_next {core} (h : s.Canonical) : CanonicalNext (execSpareTakeover core s) := by
  unfold execSpareTakeover
  exact .ite h.next (State.Canonical.next h)

theorem State.Canonical.loseGrid {gk} (h : s.Canonical) : (s.loseGrid gk).Canonical :=
  h.mapGrid.foldl fun _ h₁ _ => h₁.killTeam

theorem State.Canonical.loseUnplaceable {part} (h : s.Canonical) : (s.loseUnplaceable part).Canonical := by
  unfold State.loseUnplaceable
  refine h.foldl fun _ h₁ _ => ?_
  dsimp only
  split
  · exact h₁
  · exact .ite h₁ h₁.loseGrid

theorem State.Canonical.loseRequests {site} (h : s.Canonical) : (s.loseRequests site).Canonical :=
  h.foldl fun _ h₁ _ => h₁.freeXmit.machineCheck.cancelStep.xmitOn

theorem State.Canonical.loseFlits {site} (h : s.Canonical) : (s.loseFlits site).Canonical := by
  unfold State.loseFlits
  exact .foldl h fun _ h₁ _ => .ite h₁ h₁.pushOnce

theorem State.Canonical.execSiteLoss_next {site} (h : s.Canonical) : CanonicalNext (execSiteLoss site s) := by
  unfold execSiteLoss
  refine .ite h.next ?_
  refine State.Canonical.next ?_
  split
  · exact .pushOnce (.loseUnplaceable (.machineCheck (.loseRequests (.foldl (h.loseFlits.mapSite.dropNodes.foldl fun _ h₁ _ =>
        h₁.loseGrid) fun _ h₂ _ => .ite h₂ (.killEnd h₂)))))
  · exact .machineCheck (.loseRequests (.foldl (h.loseFlits.mapSite.dropNodes.foldl fun _ h₃ _ => h₃.loseGrid) fun _ h₄ _ => .ite h₄
        (.killEnd h₄)))

theorem State.Canonical.execSiteEvacuation_next {site} (h : s.Canonical) : CanonicalNext (execSiteEvacuation site s) := by
  unfold execSiteEvacuation
  refine .ite h.next ?_
  exact State.Canonical.next (.foldl (.foldl h fun _ h₁ _ => h₁.preemptTeam) fun _ h₂ _ => h₂.releaseRegion)

theorem State.Canonical.execEvacuationTimeout_next {site} (h : s.Canonical) : CanonicalNext (execEvacuationTimeout site s) := by
  unfold execEvacuationTimeout
  refine State.Canonical.next ?_
  split
  · exact .ite (h.foldl fun _ h₁ _ => h₁.loseGrid) (.push (h.foldl fun _ h₂ _ => h₂.loseGrid))
  · exact h.foldl fun _ h₃ _ => h₃.loseGrid

theorem State.Canonical.execDebugAttach_next {part} (h : s.Canonical) : CanonicalNext (execDebugAttach part s) :=
  h.mapPart.next

theorem State.Canonical.execDebugDetach_next {part} (h : s.Canonical) : CanonicalNext (execDebugDetach part s) :=
  h.mapPart.next

theorem State.Canonical.passBkpt {k x} (h : s.Canonical) : (s.passBkpt k x).Canonical := by
  unfold State.passBkpt
  exact .ite (h.asCtx fun _ h₁ => .advance h₁) h

theorem State.Canonical.execDebugResume_next {core ctx} (h : s.Canonical) : CanonicalNext (execDebugResume core ctx s) := by
  unfold execDebugResume
  refine .ite h.next ?_
  refine State.Canonical.next ?_
  split
  · exact h.passBkpt.mapCtx
  · exact h.passBkpt.mapCtx.foldl fun _ h₁ _ => h₁.thawTeam

theorem State.Canonical.execDebugStep_next {core ctx} (h : s.Canonical) : CanonicalNext (execDebugStep core ctx s) := by
  unfold execDebugStep
  exact State.Canonical.next (.ite h.passBkpt.abortTxn.mapCtx h)

theorem State.Canonical.execBreakTask_next {core ctx} (h : s.Canonical) : CanonicalNext (execBreakTask core ctx s) := by
  unfold execBreakTask
  exact State.Canonical.next (.ite h.takeTrap h)

end

end Sys2Proof.Machine
end

section
/-!
SUPPORT. Steps that keep memory in its canonical form: the host's port, trust and bring-up.
-/
namespace Sys2Proof.Machine

section
variable {s : State}

theorem State.Canonical.execPortLinkUp_next {port width rate cxlMajor cxlMinor features} (h : s.Canonical) :
    CanonicalNext (execPortLinkUp port width rate cxlMajor cxlMinor features s) := by
  unfold execPortLinkUp
  exact State.Canonical.next (.ite h h)

theorem State.Canonical.hostGone {site} (h : s.Canonical) : (s.hostGone site).Canonical := by
  unfold State.hostGone
  exact .hostOn (.foldl (.foldl h fun _ h₁ _ => h₁) fun _ h₂ _ => h₂.failOp)

theorem State.Canonical.execPortLost_next {mod port} (h : s.Canonical) : CanonicalNext (execPortLost mod port s) := by
  unfold execPortLost
  exact .ite h.next (State.Canonical.next (.ite (.ite h h) (.foldl (.ite h h) fun _ h₁ _ => h₁.hostGone)))

theorem State.Canonical.execPoststatRead_next {mod port} (h : s.Canonical) : CanonicalNext (execPoststatRead mod port s) :=
  State.Canonical.next h

theorem State.Canonical.ckctl {mod v} (h : s.Canonical) : (s.ckctl mod v).Canonical := by
  unfold State.ckctl
  exact .ite h (.ite h h)

theorem State.Canonical.execRegisterWrite_next {mod port off v} (h : s.Canonical) :
    CanonicalNext (execRegisterWrite mod port off v s) := by
  unfold execRegisterWrite
  refine .ite h.next ?_
  refine .ite (State.Canonical.next (.ite h (.ite h h))) ?_
  refine .ite (State.Canonical.next h) ?_
  refine .ite h.ckctl.next ?_
  refine .ite (State.Canonical.next h) ?_
  exact .ite (State.Canonical.next h) (.ite (State.Canonical.next h) (State.Canonical.next h))

theorem State.Canonical.snoop {site h' keep} (h : s.Canonical) : (s.snoop site h' keep).Canonical := by
  unfold State.snoop
  exact .ite h h

theorem State.Canonical.execSnpinv_next {site half} (h : s.Canonical) : CanonicalNext (execSnpinv site half s) :=
  h.snoop.next

theorem State.Canonical.execSnpdata_next {site half} (h : s.Canonical) : CanonicalNext (execSnpdata site half s) :=
  h.snoop.next

theorem State.Canonical.execSnpcur_next {site half} (h : s.Canonical) : CanonicalNext (execSnpcur site half s) :=
  h.snoop.next

theorem State.Canonical.makeRoom {site h'} (h : s.Canonical) : (s.makeRoom site h').Canonical := by
  unfold State.makeRoom
  refine .ite h ?_
  split
  · exact h.evictHalves
  · exact h

theorem State.Canonical.execHostCacheGrant_next {site half state data} (h : s.Canonical) :
    CanonicalNext (execHostCacheGrant site half state data s) := by
  unfold execHostCacheGrant
  split
  · exact h.next
  · exact .ite h.next h.makeRoom.writeMem.mapSite.hostOn.next

theorem State.Canonical.hdmXlate_fst {frm part va n acc} (h : s.Canonical) : (s.hdmXlate frm part va n acc).1.Canonical := by
  unfold State.hdmXlate
  refine h.foldl_fst fun _ h₁ _ => ?_
  dsimp only
  split
  · exact h₁
  · split
    next t _ e =>
      have h₂ : t.Canonical := .of_fst e h₁.agentXlate_fst
      exact h₂
    next t _ e =>
      have h₃ : t.Canonical := .of_fst e h₁.agentXlate_fst
      exact h₃

theorem State.Canonical.hdmAccess_next {port hpa n} {ok : ℕ → ℕ → StepOutcome} (h : s.Canonical)
    (hok : ∀ x1 x2, CanonicalNext (ok x1 x2)) : CanonicalNext (hdmAccess port hpa n s ok) := by
  unfold hdmAccess
  refine .ite h.next ?_
  split
  · exact hok _ _
  · exact h.next

theorem State.Canonical.execHostRead_next {port hpa len} (h : s.Canonical) : CanonicalNext (execHostRead port hpa len s) := by
  unfold execHostRead
  refine h.hdmAccess_next fun _ _ => ?_
  dsimp only
  split
  next t _ e =>
    have h₁ : t.Canonical := .of_fst e h.hdmXlate_fst
    exact State.Canonical.next (.ite h₁ h₁)
  next t _ e =>
    have h₂ : t.Canonical := .of_fst e h.hdmXlate_fst
    refine .ite (State.Canonical.next h₂) ?_
    split
    · exact State.Canonical.next h₂
    · split
      · exact State.Canonical.next h₂
      · exact State.Canonical.next (.mapModule (h₂.checkRead.foldl fun _ h₃ _ => h₃))

theorem State.Canonical.execHostWrite_next {port hpa data} (h : s.Canonical) : CanonicalNext (execHostWrite port hpa data s) := by
  unfold execHostWrite
  refine h.hdmAccess_next fun _ _ => ?_
  refine .ite (State.Canonical.next h) ?_
  split
  next t _ e =>
    have h₁ : t.Canonical := .of_fst e h.hdmXlate_fst
    exact State.Canonical.next (.ite h₁ h₁)
  next t _ e =>
    have h₂ : t.Canonical := .of_fst e h.hdmXlate_fst
    exact State.Canonical.next (.ite h₂ h₂.performWrite)

theorem State.Canonical.execBisnpResponse_next {site half dirty} (h : s.Canonical) :
    CanonicalNext (execBisnpResponse site half dirty s) := by
  unfold execBisnpResponse
  dsimp only
  split
  · exact h.next
  · refine .ite (State.Canonical.next h) ?_
    refine State.Canonical.next (.hostOn ?_)
    split
    · exact .performWrite h
    · exact h

theorem State.Canonical.resumeTeam {uid} (h : s.Canonical) : (s.resumeTeam uid).Canonical := by
  unfold State.resumeTeam
  split
  · exact h
  · exact .ite h (.push (.mapTeam (h.foldl fun _ h₁ _ => h₁)))

theorem State.Canonical.ckEnd {mod code} (h : s.Canonical) : (s.ckEnd mod code).Canonical := by
  unfold State.ckEnd
  exact .pushAll (.foldl (.foldl (.mapPort (.mapCk (h.foldl fun _ h₁ _ => h₁.resumeTeam))) fun _ h₂ _ => h₂.pushOnce) fun _ h₃ _ =>
      .ite h₃ h₃.pushOnce)

theorem State.Canonical.returnHalves {mod} (h : s.Canonical) : (s.returnHalves mod).Canonical :=
  h.foldl fun _ h₁ _ => h₁.foldl fun _ h₂ _ => h₂

theorem State.Canonical.forgetXlate {part} (h : s.Canonical) : (s.forgetXlate part).Canonical :=
  h.shootRemove

theorem State.Canonical.ckPhases_next {mod op} {rest : State → StepOutcome} (h : s.Canonical)
    (hrest : ∀ (t : State), t.Canonical → CanonicalNext (rest t)) : CanonicalNext (ckPhases mod op s rest) := by
  unfold ckPhases
  refine .ite h.next ?_
  split
  · exact hrest _ (.returnHalves h)
  · exact State.Canonical.next (.mapCk (h.foldl fun _ h₁ _ => h₁.beginQuiesce))

theorem State.Canonical.execCheckpointFull_next {mod} (h : s.Canonical) : CanonicalNext (execCheckpointFull mod s) :=
  h.ckPhases_next fun _ h₁ => State.Canonical.next h₁

theorem State.Canonical.execCheckpointIncr_next {mod} (h : s.Canonical) : CanonicalNext (execCheckpointIncr mod s) := by
  unfold execCheckpointIncr
  refine h.ckPhases_next fun _ h₁ => ?_
  refine .ite (State.Canonical.next h₁) ?_
  split
  next t e =>
    have h₂ : t.Canonical := .of_some e h₁.hostHold_some
    exact h₂.next
  · exact State.Canonical.next (.ckStreamed (.foldl (.foldl h₁ fun _ h₃ _ => h₃.performWrite) fun _ h₄ _ => h₄.forgetXlate))

theorem State.Canonical.ckLoad {mod img} (h : s.Canonical) : (s.ckLoad mod img).Canonical :=
  State.ckLoad_wf mod img h

theorem State.Canonical.execRestore_next {mod} (h : s.Canonical) : CanonicalNext (execRestore mod s) := by
  unfold execRestore
  refine .ite h.next ?_
  dsimp only
  split
  · exact .ite h.ckLoad.mapCk.push.next (State.Canonical.next h)
  · exact State.Canonical.next h

theorem State.Canonical.execCheckpointTimeout_next {mod} (h : s.Canonical) : CanonicalNext (execCheckpointTimeout mod s) := by
  unfold execCheckpointTimeout
  exact .ite h.next h.ckEnd.next

theorem State.Canonical.execCheckpointComplete_next {mod} (h : s.Canonical) : CanonicalNext (execCheckpointComplete mod s) := by
  unfold execCheckpointComplete
  refine .ite h.next ?_
  refine .ite h.ckEnd.next ?_
  refine State.Canonical.next (.ckEnd ?_)
  split
  · exact .ite h h
  · exact h

theorem State.Canonical.wipeStorage {mine} (h : s.Canonical) : (s.wipeStorage mine).Canonical :=
  State.wipeStorage_wf mine h

theorem State.Canonical.wipeTeams {mod} (h : s.Canonical) : (s.wipeTeams mod).Canonical :=
  State.wipeTeams_wf mod h

theorem State.Canonical.placeBoot {n} (h : s.Canonical) : (s.placeBoot n).Canonical := by
  unfold State.placeBoot
  refine State.Canonical.foldl (s := { s with teams := _, windows := _, teamNext := _ }) h fun _ ht _ => ?_
  dsimp only
  split <;> exact ht

theorem State.Canonical.spoilImage {mod} (h : s.Canonical) : (s.spoilImage mod).Canonical := by
  unfold State.spoilImage
  dsimp only
  split
  · exact .ite h h
  · exact h

theorem State.Canonical.loseModule {mod} (h : s.Canonical) : (s.loseModule mod).Canonical :=
  h.foldl fun _ h₁ _ => h₁.loseRequests

theorem State.Canonical.resetModule {mod} (h : s.Canonical) : (s.resetModule mod).Canonical := by
  unfold State.resetModule
  extract_lets m s₁ other s₂ mine s₃ s₄ good debug parts m' s₅
  have h₁ : s₁.Canonical := h.spoilImage.loseModule
  clear_value s₁
  have h₂ : s₂.Canonical := h₁.of_mem rfl
  have h₃ : s₃.Canonical := h₂.wipeTeams.wipeStorage
  clear_value s₃
  have h₄ : s₄.Canonical := State.Canonical.wipeSites (.foldl h₃ fun _ ht _ => ht)
  clear_value s₄
  have h₅ : s₅.Canonical := h₄.of_mem rfl
  exact .ite (.foldl h₅ fun _ ht _ => ht.placeBoot) h₅

theorem State.Canonical.execModuleReset_next {mod} (h : s.Canonical) : CanonicalNext (execModuleReset mod s) := by
  unfold execModuleReset
  exact State.Canonical.next (.ite h.resetModule h)

theorem State.Canonical.execPowerOn_next {mod} (h : s.Canonical) : CanonicalNext (execPowerOn mod s) := by
  unfold execPowerOn
  exact State.Canonical.next (.resetModule h)

theorem State.Canonical.execPowerLoss_next {mod} (h : s.Canonical) : CanonicalNext (execPowerLoss mod s) :=
  h.spoilImage.mapModule.next

theorem State.Canonical.execSiteReset_next {site} (h : s.Canonical) : CanonicalNext (execSiteReset site s) := by
  unfold execSiteReset
  refine .ite h.next ?_
  extract_lets lost s₁ other s₂ mine links s₃ whole s₄
  have h₁ : s₁.Canonical := by
    have hloss : CanonicalNext (execSiteLoss site s) := h.execSiteLoss_next
    unfold s₁ lost
    split
    next t e => exact hloss t e
    · exact h
  clear_value s₁
  have h₂ : s₂.Canonical := h₁.of_mem rfl
  have h₃ : s₃.Canonical := h₂.wipeStorage.wipeSites
  have h₄ : s₄.Canonical := .foldl h₃ fun _ ht _ => ht.mapPart
  exact h₄.mapModule.next

theorem State.Canonical.execSiteRejoin_next {site part} (h : s.Canonical) : CanonicalNext (execSiteRejoin site part s) := by
  unfold execSiteRejoin
  exact .ite h.next (State.Canonical.next (.pushOnce h))

theorem State.Canonical.execHodImageUpdate_next {mod img} (h : s.Canonical) : CanonicalNext (execHodImageUpdate mod img s) := by
  unfold execHodImageUpdate
  exact State.Canonical.next (.ite (.mapModule (h.foldl fun _ h₁ _ => h₁.clearRange.load)) h)

theorem State.Canonical.burn {mod f} (h : s.Canonical) : (s.burn mod f).Canonical := by
  unfold State.burn
  exact .resetModule h

theorem State.Canonical.execProvisioned_next {mod fwkey attkey uds} (h : s.Canonical) :
    CanonicalNext (execProvisioned mod fwkey attkey uds s) := by
  unfold execProvisioned
  exact State.Canonical.next (.ite h.burn h)

theorem State.Canonical.execDeploymentToken_next {mod t'} (h : s.Canonical) : CanonicalNext (execDeploymentToken mod t' s) := by
  unfold execDeploymentToken
  exact State.Canonical.next (.ite (.burn h) h)

theorem State.Canonical.execUnlockToken_next {mod t'} (h : s.Canonical) : CanonicalNext (execUnlockToken mod t' s) := by
  unfold execUnlockToken
  exact State.Canonical.next (.ite (.burn h) h)

theorem State.Canonical.execRelockToken_next {mod t'} (h : s.Canonical) : CanonicalNext (execRelockToken mod t' s) := by
  unfold execRelockToken
  exact State.Canonical.next (.ite (.burn h) h)

theorem State.Canonical.execReturnToken_next {mod t'} (h : s.Canonical) : CanonicalNext (execReturnToken mod t' s) := by
  unfold execReturnToken
  exact State.Canonical.next (.ite (.burn h) h)

theorem State.Canonical.execRetireToken_next {mod t'} (h : s.Canonical) : CanonicalNext (execRetireToken mod t' s) := by
  unfold execRetireToken
  exact State.Canonical.next (.ite (.burn h) h)

theorem State.Canonical.execSession_next {mod part t'} (h : s.Canonical) : CanonicalNext (execSession mod part t' s) := by
  unfold execSession
  exact State.Canonical.next (.ite (.mapPart h) h)

theorem State.Canonical.spdm_state {mod port ok kind words next} (h : s.Canonical) :
    (spdm mod port ok kind words next s).Canonical := by
  unfold spdm
  exact .ite h (.ite h h)

theorem State.Canonical.execGetVersion_next {mod port} (h : s.Canonical) : CanonicalNext (execGetVersion mod port s) :=
  h.spdm_state.next

theorem State.Canonical.execGetCapabilities_next {mod port} (h : s.Canonical) : CanonicalNext (execGetCapabilities mod port s) :=
  h.spdm_state.next

theorem State.Canonical.execNegotiateAlgorithms_next {mod port sha256 aes256gcm} (h : s.Canonical) :
    CanonicalNext (execNegotiateAlgorithms mod port sha256 aes256gcm s) :=
  h.spdm_state.next

theorem State.Canonical.execPskExchange_next {mod port session} (h : s.Canonical) :
    CanonicalNext (execPskExchange mod port session s) := by
  unfold execPskExchange
  exact State.Canonical.next (.ite h.spdm_state.mapPort h.spdm_state)

theorem State.Canonical.execPskFinish_next {mod port proof} (h : s.Canonical) : CanonicalNext (execPskFinish mod port proof s) :=
  h.spdm_state.next

theorem State.Canonical.execHeartbeat_next {mod port} (h : s.Canonical) : CanonicalNext (execHeartbeat mod port s) :=
  h.spdm_state.next

theorem State.Canonical.execEndSession_next {mod port} (h : s.Canonical) : CanonicalNext (execEndSession mod port s) :=
  h.spdm_state.next

theorem State.Canonical.execAttestationReport_next {mod port nonce} (h : s.Canonical) :
    CanonicalNext (execAttestationReport mod port nonce s) := by
  unfold execAttestationReport
  exact .ite h.spdm_state.next (State.Canonical.next (.spdm_state h))

theorem State.Canonical.execVendorDefinedRequest_next {mod port kind arg} (h : s.Canonical) :
    CanonicalNext (execVendorDefinedRequest mod port kind arg s) := by
  unfold execVendorDefinedRequest
  refine State.Canonical.next ?_
  split
  · exact .ite h h.spdm_state
  · exact h.spdm_state
  · exact h.spdm_state
  · exact h.spdm_state

theorem State.Canonical.execCxlIdeKeyManagement_next {mod port key} (h : s.Canonical) :
    CanonicalNext (execCxlIdeKeyManagement mod port key s) := by
  unfold execCxlIdeKeyManagement
  exact State.Canonical.next (.ite h.spdm_state.mapPort h.spdm_state)

theorem State.Canonical.execSensorUpdate_next {site r} (h : s.Canonical) : CanonicalNext (execSensorUpdate site r s) := by
  unfold execSensorUpdate
  exact State.Canonical.next (.ite h h)

theorem State.Canonical.execThrottleRaise_next {site} (h : s.Canonical) : CanonicalNext (execThrottleRaise site s) := by
  unfold execThrottleRaise
  exact State.Canonical.next (.ite h h)

theorem State.Canonical.execThrottleLower_next {site} (h : s.Canonical) : CanonicalNext (execThrottleLower site s) := by
  unfold execThrottleLower
  exact State.Canonical.next (.ite h h)

theorem State.Canonical.execThermalShutdown_next {site} (h : s.Canonical) : CanonicalNext (execThermalShutdown site s) := by
  unfold execThermalShutdown
  exact State.Canonical.next (.ite h h)

theorem State.Canonical.execCapsetWrite_next {site v} (h : s.Canonical) : CanonicalNext (execCapsetWrite site v s) :=
  State.Canonical.next h

end

end Sys2Proof.Machine
end

section
/-!
SUPPORT. Steps that keep memory in its canonical form: the agenda, issue and the step.
-/
namespace Sys2Proof.Machine

section
variable {s : State}

theorem State.Canonical.runEvent_next {e} (h : s.Canonical) : CanonicalNext (runEvent e s) := by
  unfold runEvent
  split
  · exact h.execSrseedWrite_next
  · exact h.execFltdoneRetry_next
  · exact h.execFltdoneFail_next
  · exact h.execMccntRead_next
  · exact h.execCsrSpread_next
  · exact h.execRegisterWrite_next
  · exact h.execMessageAccept_next
  · exact h.execRefuse_next
  · exact h.execRoomNotice_next
  · exact h.execRoomReservationLapse_next
  · exact h.execTimedRetry_next
  · exact h.execChainAck_next
  · exact h.execDispatch_next
  · exact h.execPromotion_next
  · exact h.execReplyDeposit_next
  · exact h.execBudget_next
  · exact h.execParkResume_next
  · exact h.execIdleWake_next
  · exact h.execNiTransmit_next
  · exact h.execStoreAck_next
  · exact h.execFlushReturn_next
  · exact h.execCombineSend_next
  · exact h.execRemoteCopyExpiry_next
  · exact h.execStorePerform_next
  · exact h.execRemoteRegionAccess_next
  · exact h.execHomeAmo_next
  · exact h.execNiAtomic_next
  · exact h.execPutIncrement_next
  · exact h.execForwardDone_next
  · exact h.execTxArbitration_next
  · exact h.execAbortNotice_next
  · exact h.execTxLock_next
  · exact h.execTxInstall_next
  · exact h.execVersionedEviction_next
  · exact h.execTicketBeacon_next
  · exact h.execTicketAdvance_next
  · exact h.execRowRead_next
  · exact h.execLrwEnqueue_next
  · exact h.execScHome_next
  · exact h.execLeaseExpiry_next
  · exact h.execBankDrainDone_next
  · exact h.execBankZeroDone_next
  · exact h.execHodRequest_next
  · exact h.execHodCompletion_next
  · exact h.execHgathOwner_next
  · exact h.execHgathCombine_next
  · exact h.execHscatOwner_next
  · exact h.execStealRequest_next
  · exact h.execStealResponse_next
  · exact h.execMailboxPost_next
  · exact h.execBarrierArrival_next
  · exact h.execFlagNotice_next
  · exact h.execClearNotice_next
  · exact h.execNodeStart_next
  · exact h.execNodeComplete_next
  · exact h.execWaitPoll_next
  · exact h.execGridComplete_next
  · exact h.execPostGo_next
  · exact h.execPoststatRead_next
  · exact h.execTeamPlace_next
  · exact h.execSwapOut_next
  · exact h.execSwapIn_next
  · exact h.execMaildropAppend_next
  · exact h.execMaildropClose_next
  · exact h.execSlicePreemption_next
  · exact h.execRelocationRequest_next
  · exact h.execPageWalk_next
  · exact h.execFirstTouch_next
  · exact h.execTlbinvCompletion_next
  · exact h.execAuditAppend_next
  · exact h.execAgeouts_next
  · exact h.execInjectionStarvation_next
  · exact h.execReassemblyDeliver_next
  · exact h.execLinkReplay_next
  · exact h.execLinkDead_next
  · exact h.execReroute_next
  · exact h.execSkip_next
  · exact h.execWindowCloseTimer_next
  · exact h.execClose_next
  · exact h.execLaneRetire_next
  · exact h.execLinkTrain_next
  · exact h.execEccError_next
  · exact h.execScrub_next
  · exact h.execCoreLoss_next
  · exact h.execSpareTakeover_next
  · exact h.execSiteLoss_next
  · exact h.execSiteEvacuation_next
  · exact h.execEvacuationTimeout_next
  · exact h.execDebugAttach_next
  · exact h.execDebugDetach_next
  · exact h.execDebugResume_next
  · exact h.execDebugStep_next
  · exact h.execBreakTask_next
  · exact h.execSnpinv_next
  · exact h.execSnpdata_next
  · exact h.execSnpcur_next
  · exact h.execHostRead_next
  · exact h.execHostWrite_next
  · exact h.execBisnpResponse_next
  · exact h.execCheckpointFull_next
  · exact h.execCheckpointIncr_next
  · exact h.execRestore_next
  · exact h.execCheckpointTimeout_next
  · exact h.execCheckpointComplete_next
  · exact h.execPowerOn_next
  · exact h.execModuleReset_next
  · exact h.execSiteReset_next
  · exact h.execHodImageUpdate_next
  · exact h.execProvisioned_next
  · exact h.execDeploymentToken_next
  · exact h.execUnlockToken_next
  · exact h.execRelockToken_next
  · exact h.execReturnToken_next
  · exact h.execRetireToken_next
  · exact h.execSession_next
  · exact h.execAttestationReport_next
  · exact h.execGetVersion_next
  · exact h.execGetCapabilities_next
  · exact h.execNegotiateAlgorithms_next
  · exact h.execPskExchange_next
  · exact h.execPskFinish_next
  · exact h.execHeartbeat_next
  · exact h.execEndSession_next
  · exact h.execVendorDefinedRequest_next
  · exact h.execThrottleRaise_next
  · exact h.execThrottleLower_next
  · exact h.execThermalShutdown_next
  · exact h.execSensorUpdate_next
  · exact h.execCapsetWrite_next
  · exact h.execPowerLoss_next
  · exact h.execPortLost_next
  · exact h.execPortLinkUp_next
  · exact h.execPorderRouterCycle_next
  · exact h.execHostCacheGrant_next
  · exact h.execCxlIdeKeyManagement_next
  · exact h.execSiteRejoin_next
  · exact h.execRegrelComplete_next
  · exact h.execLineFill_next

theorem State.Canonical.fetched {k va n} (h : s.Canonical) : (s.fetched k va n).Canonical :=
  h.foldl fun _ h₁ _ => h₁.fetchLine

theorem State.Canonical.ldl_next {n sgn d i} (h : s.Canonical) : CanonicalNext (ldl n sgn d i s) := by
  unfold ldl
  refine .ite h.trap_next ?_
  refine .ite h.trap_next ?_
  split
  · exact h.trap_next
  · exact h.bindReady_next fun _ h₁ => h₁.fetched.bump.writeInt.retire_next

theorem State.Canonical.execLdlD_next {d i} (h : s.Canonical) : CanonicalNext (execLdlD d i s) :=
  h.ldl_next

theorem State.Canonical.execLdlW_next {d i} (h : s.Canonical) : CanonicalNext (execLdlW d i s) :=
  h.ldl_next

theorem State.Canonical.jump_next {target} (h : s.Canonical) : CanonicalNext (jump target s) :=
  State.Canonical.next h

theorem State.Canonical.execJal_next {d i} (h : s.Canonical) : CanonicalNext (execJal d i s) :=
  h.writeG.jump_next

theorem State.Canonical.execJalr_next {d a i} (h : s.Canonical) : CanonicalNext (execJalr d a i s) := by
  unfold execJalr
  exact .ite h.stall_next (h.checked_next fun _ h₁ => h₁.writeG.jump_next)

theorem State.Canonical.branch_next {cond a b i} (h : s.Canonical) : CanonicalNext (branch cond a b i s) := by
  unfold branch
  exact .ite h.stall_next (.ite h.jump_next h.retire_next)

theorem State.Canonical.execBeq_next {a b i} (h : s.Canonical) : CanonicalNext (execBeq a b i s) :=
  h.branch_next

theorem State.Canonical.execBne_next {a b i} (h : s.Canonical) : CanonicalNext (execBne a b i s) :=
  h.branch_next

theorem State.Canonical.execBlt_next {a b i} (h : s.Canonical) : CanonicalNext (execBlt a b i s) :=
  h.branch_next

theorem State.Canonical.execBge_next {a b i} (h : s.Canonical) : CanonicalNext (execBge a b i s) :=
  h.branch_next

theorem State.Canonical.execBltu_next {a b i} (h : s.Canonical) : CanonicalNext (execBltu a b i s) :=
  h.branch_next

theorem State.Canonical.execBgeu_next {a b i} (h : s.Canonical) : CanonicalNext (execBgeu a b i s) :=
  h.branch_next

theorem State.Canonical.execRep_next {c l d a b} (h : s.Canonical) : CanonicalNext (execRep c l d a b s) := by
  unfold execRep
  refine .ite h.stall_next ?_
  refine .ite h.stall_next ?_
  dsimp only
  split
  · exact h.takeTrap.next
  · exact .ite h.trap_next (.ite (State.Canonical.next h) (State.Canonical.next h))

theorem State.Canonical.execEndTask_next (h : s.Canonical) : CanonicalNext (execEndTask s) := by
  unfold execEndTask
  exact State.Canonical.next (.endCtx (.release (.abortTxn (.ite h h))))

theorem State.Canonical.execRelease_next (h : s.Canonical) : CanonicalNext (execRelease s) :=
  h.noTxn_next fun _ h₁ => h₁.release.retire_next

theorem State.Canonical.execAddi_next {d a i} (h : s.Canonical) : CanonicalNext (execAddi d a i s) :=
  h.aluOp1_next

theorem State.Canonical.execAndi_next {d a i} (h : s.Canonical) : CanonicalNext (execAndi d a i s) :=
  h.aluOp1_next

theorem State.Canonical.execOri_next {d a i} (h : s.Canonical) : CanonicalNext (execOri d a i s) :=
  h.aluOp1_next

theorem State.Canonical.execXori_next {d a i} (h : s.Canonical) : CanonicalNext (execXori d a i s) :=
  h.aluOp1_next

theorem State.Canonical.execSlli_next {d a n} (h : s.Canonical) : CanonicalNext (execSlli d a n s) :=
  h.aluOp1_next

theorem State.Canonical.execSrli_next {d a n} (h : s.Canonical) : CanonicalNext (execSrli d a n s) :=
  h.aluOp1_next

theorem State.Canonical.execSrai_next {d a n} (h : s.Canonical) : CanonicalNext (execSrai d a n s) :=
  h.aluOp1_next

theorem State.Canonical.execSlti_next {d a i} (h : s.Canonical) : CanonicalNext (execSlti d a i s) :=
  h.aluOp1_next

theorem State.Canonical.execSltui_next {d a i} (h : s.Canonical) : CanonicalNext (execSltui d a i s) :=
  h.aluOp1_next

theorem State.Canonical.execMul_next {d a b} (h : s.Canonical) : CanonicalNext (execMul d a b s) :=
  h.aluOp_next

theorem State.Canonical.execMulh_next {d a b} (h : s.Canonical) : CanonicalNext (execMulh d a b s) :=
  h.aluOp_next

theorem State.Canonical.execMulhu_next {d a b} (h : s.Canonical) : CanonicalNext (execMulhu d a b s) :=
  h.aluOp_next

theorem State.Canonical.execDiv_next {d a b} (h : s.Canonical) : CanonicalNext (execDiv d a b s) :=
  h.aluOp_next

theorem State.Canonical.execDivu_next {d a b} (h : s.Canonical) : CanonicalNext (execDivu d a b s) :=
  h.aluOp_next

theorem State.Canonical.execRem_next {d a b} (h : s.Canonical) : CanonicalNext (execRem d a b s) :=
  h.aluOp_next

theorem State.Canonical.execRemu_next {d a b} (h : s.Canonical) : CanonicalNext (execRemu d a b s) :=
  h.aluOp_next

theorem State.Canonical.exec_next {i} (h : s.Canonical) : CanonicalNext (exec i s) := by
  unfold exec
  split
  · exact h.execAdd_next
  · exact h.execSub_next
  · exact h.execAnd_next
  · exact h.execOr_next
  · exact h.execXor_next
  · exact h.execAndn_next
  · exact h.execSll_next
  · exact h.execSrl_next
  · exact h.execSra_next
  · exact h.execRor_next
  · exact h.execMin_next
  · exact h.execMax_next
  · exact h.execMinu_next
  · exact h.execMaxu_next
  · exact h.execSeq_next
  · exact h.execSne_next
  · exact h.execSlt_next
  · exact h.execSltu_next
  · exact h.execClz_next
  · exact h.execCtz_next
  · exact h.execPopc_next
  · exact h.execBswap_next
  · exact h.execAddi_next
  · exact h.execAndi_next
  · exact h.execOri_next
  · exact h.execXori_next
  · exact h.execSlli_next
  · exact h.execSrli_next
  · exact h.execSrai_next
  · exact h.execSlti_next
  · exact h.execSltui_next
  · exact h.execMul_next
  · exact h.execMulh_next
  · exact h.execMulhu_next
  · exact h.execDiv_next
  · exact h.execDivu_next
  · exact h.execRem_next
  · exact h.execRemu_next
  · exact h.execCbound_next
  · exact h.execCperm_next
  · exact h.execCseal_next
  · exact h.execCunseal_next
  · exact h.execCinc_next
  · exact h.execCbase_next
  · exact h.execClen_next
  · exact h.execCgperm_next
  · exact h.execCtag_next
  · exact h.execCclr_next
  · exact h.execCsub_next
  · exact h.execCinci_next
  · exact h.execCboundi_next
  · exact h.execTget_next
  · exact h.execTmrg_next
  · exact h.execTclr_next
  · exact h.execTwait_next
  · exact h.execLdlD_next
  · exact h.execLdlW_next
  · exact h.execJal_next
  · exact h.execJalr_next
  · exact h.execBeq_next
  · exact h.execBne_next
  · exact h.execBlt_next
  · exact h.execBge_next
  · exact h.execBltu_next
  · exact h.execBgeu_next
  · exact h.execRep_next
  · exact h.execEndTask_next
  · exact h.execRelease_next
  · exact h.execLdB_next
  · exact h.execLdBu_next
  · exact h.execLdH_next
  · exact h.execLdHu_next
  · exact h.execLdW_next
  · exact h.execLdWu_next
  · exact h.execLdD_next
  · exact h.execStB_next
  · exact h.execStH_next
  · exact h.execStW_next
  · exact h.execStD_next
  · exact h.execLdc_next
  · exact h.execStc_next
  · exact h.execLda_next
  · exact h.execStl_next
  · exact h.execFence_next
  · exact h.execFenceSs_next
  · exact h.execPref_next
  · exact h.execCflush_next
  · exact h.execCinv_next
  · exact h.execCzero_next
  · exact h.execAadd_next
  · exact h.execAand_next
  · exact h.execAor_next
  · exact h.execAxor_next
  · exact h.execAmin_next
  · exact h.execAmax_next
  · exact h.execAminu_next
  · exact h.execAmaxu_next
  · exact h.execAswap_next
  · exact h.execAcas_next
  · exact h.execAfadd_next
  · exact h.execLrw_next
  · exact h.execSc_next
  · exact h.execXbegin_next
  · exact h.execXend_next
  · exact h.execXabort_next
  · exact h.execXtest_next
  · exact h.execXredAdd_next
  · exact h.execXredFadd_next
  · exact h.execXredMin_next
  · exact h.execXredMax_next
  · exact h.execSbind_next
  · exact h.execSbindr_next
  · exact h.execSfifoCons_next
  · exact h.execSfifoProd_next
  · exact h.execSunbind_next
  · exact h.execSadv_next
  · exact h.execSstat_next
  · exact h.execBmov_next
  · exact h.execBfill_next
  · exact h.execSend_next
  · exact h.execSendo_next
  · exact h.execSendr_next
  · exact h.execPut_next
  · exact h.execGet_next
  · exact h.execFlushrd_next
  · exact h.execWaitm_next
  · exact h.execRecvm_next
  · exact h.execPeekm_next
  · exact h.execPmcfg_next
  · exact h.execPmpost_next
  · exact h.execPmdrain_next
  · exact h.execHcopy_next
  · exact h.execHfill_next
  · exact h.execHgathSum_next
  · exact h.execHgathMean_next
  · exact h.execHscat_next
  · exact h.execDpush_next
  · exact h.execDpop_next
  · exact h.execDsplit_next
  · exact h.execDstealCluster_next
  · exact h.execDstealSite_next
  · exact h.execDstealGrid_next
  · exact h.execDcount_next
  · exact h.execMpath_next
  · exact h.execGjoin_next
  · exact h.execGleave_next
  · exact h.execBinit_next
  · exact h.execBarr_next
  · exact h.execBwait_next
  · exact h.execBstat_next
  · exact h.execPlread_next
  · exact h.execPlcfg_next
  · exact h.execGnode_next
  · exact h.execGdec_next
  · exact h.execVld_next
  · exact h.execVst_next
  · exact h.execVlds_next
  · exact h.execVsts_next
  · exact h.execVgath_next
  · exact h.execVscat_next
  · exact h.execVldbc_next
  · exact h.execVadd_next
  · exact h.execVsub_next
  · exact h.execVmul_next
  · exact h.execVmulh_next
  · exact h.execVshl_next
  · exact h.execVshr_next
  · exact h.execVsra_next
  · exact h.execVand_next
  · exact h.execVor_next
  · exact h.execVxor_next
  · exact h.execVfadd_next
  · exact h.execVfsub_next
  · exact h.execVfmul_next
  · exact h.execVfma_next
  · exact h.execVfdiv_next
  · exact h.execVfsqrt_next
  · exact h.execVfmin_next
  · exact h.execVfmax_next
  · exact h.execVcvt_next
  · exact h.execVshuf_next
  · exact h.execVbcast_next
  · exact h.execVextr_next
  · exact h.execVins_next
  · exact h.execVslide_next
  · exact h.execVred_next
  · exact h.execVscan_next
  · exact h.execMand_next
  · exact h.execMor_next
  · exact h.execMxor_next
  · exact h.execMnot_next
  · exact h.execMpopc_next
  · exact h.execMfirst_next
  · exact h.execVcmp_next
  · exact h.execVsel_next
  · exact h.execVmin_next
  · exact h.execVmax_next
  · exact h.execMdot_next
  · exact h.execMopen_next
  · exact h.execMclose_next
  · exact h.execMzero_next
  · exact h.execMuprog_next
  · exact h.execMrun_next
  · exact h.execMrd_next
  · exact h.execMwr_next
  · exact h.execMld_next
  · exact h.execMst_next
  · exact h.execMsumr_next
  · exact h.execMsumc_next
  · exact h.execMmov_next
  · exact h.execCsrr_next
  · exact h.execCsrw_next
  · exact h.execSealroot_next
  · exact h.execTlbinvPage_next
  · exact h.execTlbinvAll_next
  · exact h.execTlbinvStripe_next
  · exact h.execRowmove_next
  · exact h.execRegrel_next
  · exact h.execBankcfg_next
  · exact h.execFreeze_next
  · exact h.execThaw_next
  · exact h.execPreempt_next
  · exact h.execKill_next
  · exact h.execErrinj_next
  · exact h.execTrap_next
  · exact h.execBkpt_next
  · exact h.execIdle_next
  · exact h.execSrseedWrite_next
  · exact h.execFltdoneRetry_next
  · exact h.execFltdoneFail_next
  · exact h.execMccntRead_next
  · exact h.execCsrSpread_next
  · exact h.execRegisterWrite_next
  · exact h.execMessageAccept_next
  · exact h.execRefuse_next
  · exact h.execRoomNotice_next
  · exact h.execRoomReservationLapse_next
  · exact h.execTimedRetry_next
  · exact h.execChainAck_next
  · exact h.execDispatch_next
  · exact h.execPromotion_next
  · exact h.execReplyDeposit_next
  · exact h.execBudget_next
  · exact h.execParkResume_next
  · exact h.execIdleWake_next
  · exact h.execNiTransmit_next
  · exact h.execStoreAck_next
  · exact h.execFlushReturn_next
  · exact h.execCombineSend_next
  · exact h.execRemoteCopyExpiry_next
  · exact h.execStorePerform_next
  · exact h.execRemoteRegionAccess_next
  · exact h.execHomeAmo_next
  · exact h.execNiAtomic_next
  · exact h.execPutIncrement_next
  · exact h.execForwardDone_next
  · exact h.execTxArbitration_next
  · exact h.execAbortNotice_next
  · exact h.execTxLock_next
  · exact h.execTxInstall_next
  · exact h.execVersionedEviction_next
  · exact h.execTicketBeacon_next
  · exact h.execTicketAdvance_next
  · exact h.execRowRead_next
  · exact h.execLrwEnqueue_next
  · exact h.execScHome_next
  · exact h.execLeaseExpiry_next
  · exact h.execBankDrainDone_next
  · exact h.execBankZeroDone_next
  · exact h.execHodRequest_next
  · exact h.execHodCompletion_next
  · exact h.execHgathOwner_next
  · exact h.execHgathCombine_next
  · exact h.execHscatOwner_next
  · exact h.execStealRequest_next
  · exact h.execStealResponse_next
  · exact h.execMailboxPost_next
  · exact h.execBarrierArrival_next
  · exact h.execFlagNotice_next
  · exact h.execClearNotice_next
  · exact h.execNodeStart_next
  · exact h.execNodeComplete_next
  · exact h.execWaitPoll_next
  · exact h.execGridComplete_next
  · exact h.execPostGo_next
  · exact h.execPoststatRead_next
  · exact h.execTeamPlace_next
  · exact h.execSwapOut_next
  · exact h.execSwapIn_next
  · exact h.execMaildropAppend_next
  · exact h.execMaildropClose_next
  · exact h.execSlicePreemption_next
  · exact h.execRelocationRequest_next
  · exact h.execPageWalk_next
  · exact h.execFirstTouch_next
  · exact h.execTlbinvCompletion_next
  · exact h.execAuditAppend_next
  · exact h.execAgeouts_next
  · exact h.execInjectionStarvation_next
  · exact h.execReassemblyDeliver_next
  · exact h.execLinkReplay_next
  · exact h.execLinkDead_next
  · exact h.execReroute_next
  · exact h.execSkip_next
  · exact h.execWindowCloseTimer_next
  · exact h.execClose_next
  · exact h.execLaneRetire_next
  · exact h.execLinkTrain_next
  · exact h.execEccError_next
  · exact h.execScrub_next
  · exact h.execCoreLoss_next
  · exact h.execSpareTakeover_next
  · exact h.execSiteLoss_next
  · exact h.execSiteEvacuation_next
  · exact h.execEvacuationTimeout_next
  · exact h.execDebugAttach_next
  · exact h.execDebugDetach_next
  · exact h.execDebugResume_next
  · exact h.execDebugStep_next
  · exact h.execBreakTask_next
  · exact h.execSnpinv_next
  · exact h.execSnpdata_next
  · exact h.execSnpcur_next
  · exact h.execHostRead_next
  · exact h.execHostWrite_next
  · exact h.execBisnpResponse_next
  · exact h.execCheckpointFull_next
  · exact h.execCheckpointIncr_next
  · exact h.execRestore_next
  · exact h.execCheckpointTimeout_next
  · exact h.execCheckpointComplete_next
  · exact h.execPowerOn_next
  · exact h.execModuleReset_next
  · exact h.execSiteReset_next
  · exact h.execHodImageUpdate_next
  · exact h.execProvisioned_next
  · exact h.execDeploymentToken_next
  · exact h.execUnlockToken_next
  · exact h.execRelockToken_next
  · exact h.execReturnToken_next
  · exact h.execRetireToken_next
  · exact h.execSession_next
  · exact h.execAttestationReport_next
  · exact h.execGetVersion_next
  · exact h.execGetCapabilities_next
  · exact h.execNegotiateAlgorithms_next
  · exact h.execPskExchange_next
  · exact h.execPskFinish_next
  · exact h.execHeartbeat_next
  · exact h.execEndSession_next
  · exact h.execVendorDefinedRequest_next
  · exact h.execThrottleRaise_next
  · exact h.execThrottleLower_next
  · exact h.execThermalShutdown_next
  · exact h.execSensorUpdate_next
  · exact h.execCapsetWrite_next
  · exact h.execPowerLoss_next
  · exact h.execPortLost_next
  · exact h.execPortLinkUp_next
  · exact h.execPorderRouterCycle_next
  · exact h.execHostCacheGrant_next
  · exact h.execCxlIdeKeyManagement_next
  · exact h.execSiteRejoin_next
  · exact h.execRegrelComplete_next
  · exact h.execLineFill_next

theorem andThen_next {o : StepOutcome} {f : State → StepOutcome} (ho : CanonicalNext o)
    (hf : ∀ t : State, t.Canonical → CanonicalNext (f t)) : CanonicalNext (andThen o f) := by
  unfold andThen
  split
  · exact hf _ (ho _ rfl)
  · exact .fault
  · exact .refused

theorem State.Canonical.fetch (h : s.Canonical) : s.fetch.Canonical := by
  unfold State.fetch
  exact .ite h h.fetched

theorem State.Canonical.runNext_next (h : s.Canonical) : CanonicalNext (runNext s) := by
  unfold runNext
  split
  · exact h.trap_next
  · split
    · exact h.fetch.trap_next
    · exact h.fetch.exec_next

theorem State.Canonical.issueFrom_next {k x} (h : s.Canonical) : CanonicalNext (issueFrom k x s) :=
  State.Canonical.runNext_next h

theorem State.Canonical.stepped {k x} (h : s.Canonical) : (s.stepped k x).Canonical := by
  unfold State.stepped
  exact .ite (.abortTxn h) h

theorem State.Canonical.issued {k x} (h : s.Canonical) : (s.issued k x).Canonical := by
  unfold State.issued
  exact .stepped h

theorem State.Canonical.issueSlot_next {k unit xs} (h : s.Canonical) : CanonicalNext (issueSlot k unit xs s) := by
  induction xs generalizing s with
  | nil => exact h.next
  | cons x xs ih =>
    unfold issueSlot
    exact .ite (ih h) (.ite (ih h) (andThen_next h.issueFrom_next fun _ ht => .ite (ih ht) ht.issued.next))

theorem State.Canonical.sequencerSlot_next {k} {ok : ℕ → State → StepOutcome} (h : s.Canonical)
    (hok : ∀ x1 (t : State), t.Canonical → CanonicalNext (ok x1 t)) : CanonicalNext (sequencerSlot k s ok) := by
  unfold sequencerSlot
  split
  · exact hok _ _ h
  · refine .ite (hok _ _ h) ?_
    exact .ite (hok _ _ h) (andThen_next h.issueFrom_next fun _ h₁ => .ite (hok _ _ h₁) (hok _ _ h₁.stepped))

theorem State.Canonical.coreSlots_next {k} (h : s.Canonical) : CanonicalNext (coreSlots k s) := by
  unfold coreSlots
  exact .ite h.next (h.sequencerSlot_next fun _ _ h₁ => h₁.issueSlot_next)

theorem State.Canonical.beginCycle {k} (h : s.Canonical) : (s.beginCycle k).Canonical := by
  unfold State.beginCycle
  exact .ite h h

theorem State.Canonical.takeBudgets_next {k xs} (h : s.Canonical) : CanonicalNext (takeBudgets k xs s) := by
  induction xs generalizing s with
  | nil => exact h.next
  | cons x xs ih =>
    unfold takeBudgets
    exact .ite (ih h) (andThen_next h.execBudget_next fun _ ht => ih ht)

theorem State.Canonical.siteSends {n} (h : s.Canonical) : (s.siteSends n).Canonical := by
  unfold State.siteSends
  exact .sendChecks (.foldl (h.foldl fun _ h₁ _ => h₁.resendAgain) fun _ h₂ _ => .sendNext h₂)

theorem State.Canonical.fabricCycle (h : s.Canonical) : s.fabricCycle.Canonical := by
  unfold State.fabricCycle
  extract_lets s₁ s₂ s₃
  have h₁ : s₁.Canonical := h.foldl fun _ ht _ => ht.bankCycle
  have h₂ : s₂.Canonical := h₁.of_mem rfl
  have h₃ : s₃.Canonical := h₂.foldl fun _ ht _ => ht.siteSends
  exact h₃.foldl fun _ ht _ => ht.pushOnce

theorem State.Canonical.endCycle {k} (h : s.Canonical) : (s.endCycle k).Canonical := by
  unfold State.endCycle
  extract_lets s₁ s₂ s₃ s₄
  have h₁ : s₁.Canonical := .ite h h.bump
  have h₃ : s₃.Canonical := State.Canonical.foldl (s := s₂) h₁ fun _ ht _ => ht.kick
  have h₄ : s₄.Canonical := .ite (h₃.coreSends.foldl fun _ ht _ => ht.pushOnce) h₁
  clear_value s₄
  split
  · exact h₄
  · exact h₄.fabricCycle.of_mem rfl

theorem State.Canonical.coreTurn_next {k} (h : s.Canonical) : CanonicalNext (coreTurn k s) :=
  andThen_next h.takeBudgets_next fun _ h₁ => andThen_next h₁.beginCycle.coreSlots_next fun _ h₂ => h₂.endCycle.next

theorem State.Canonical.step_next (h : s.Canonical) : CanonicalNext (step s) := by
  unfold step
  split
  · exact State.Canonical.runEvent_next h
  · exact .ite h.coreTurn_next .fault

end

end Sys2Proof.Machine
end

section
/-!
CERTIFICATE. Every step keeps memory in its canonical form (O58).
-/
namespace Sys2Proof.Machine

/-- Settles O58: no operation writes memory but by writes that list no zero byte, by filters, and by copies made of both. -/
theorem canonicalKept : Obligations.CanonicalKept := by
  unfold Obligations.CanonicalKept
  exact fun _ t h e => h.step_next t e

end Sys2Proof.Machine
end
